-- ==== Sys2Proof/Word.lean ====
section
/-! DEFINITION. The byte and word types of the HSK-9680 model and the sparse map that holds every table of the
state: a list of (key, value) pairs with rising keys and no entry equal to the default. -/

namespace Sys2Proof

/-- One octet of memory, of a manifest or of a frame. -/
abbrev Byte := BitVec 8

/-- A 32-bit register value. -/
abbrev Word := BitVec 32

/-- A scalar operand (R131): wide enough for a device address. -/
abbrev Scalar := BitVec 64

/-- A table of values by natural key. An absent key reads as the table's default. -/
abbrev Tab (α : Type) := List (Nat × α)

/-- Modules count bytes little-endian (R9): the number that a byte list spells. -/
def leNat : List Byte → Nat
  | [] => 0
  | b :: bs => b.toNat + 256 * leNat bs

/-- The `n` little-endian bytes of a number (R9). -/
def leBytes : Nat → Nat → List Byte
  | 0, _ => []
  | n + 1, v => BitVec.ofNat 8 v :: leBytes n (v / 256)

/-- The n bytes of a number in network order (R9). -/
def beBytes (n v : Nat) : List Byte := (leBytes n v).reverse

/-- The number that a byte list spells in network order (R9). -/
def beNat (bs : List Byte) : Nat := leNat bs.reverse

/-- Bits [lo + n - 1 : lo] of a number (R7). -/
def bits (v lo n : Nat) : Nat := (v >>> lo) % 2 ^ n

/-- Bit i of a bitmap. -/
def bitOf (v i : Nat) : Bool := v.testBit i

end Sys2Proof
end

