-- ==== Sys2Proof/Machine/Types.lean ====
section
/-! DEFINITION. The kinds of values the commands carry and the state holds: status codes, roles, nouns, verbs,
program images, frames, management requests. Nothing here computes. -/

namespace Sys2Proof

/-- The shared status codes (R512, Table 1 of 19_faults_recovery_modes). -/
inductive Status
  | ok | partly | poisoned | counterSkew | timeout | overrun | deadlock | denied | authFail | hostLost
  | staleManifest | notReady | nonfinite | uncoupled | aborted | malformed | capacity | partnerAbsent | quarantined
  deriving DecidableEq, Repr

/-- The roles in which the dictionary is reached (R423). -/
inductive Role
  | operator | tenant | observer | service
  deriving DecidableEq, Repr

/-- Who sends a management request: its role, the tenant's partition, the book's origin octet (R463: 0x01 management
port, 0x02 debug port, 0x03 module, 0x10 + m mailbox m) and the fingerprint of the session's key. -/
structure Who where
  role : Role
  part : Nat
  origin : Nat
  keyFp : List Byte
  deriving DecidableEq, Repr

/-- A dictionary value: a number of a fixed-width type, or an octet string (R447). -/
inductive OdVal
  | num (n : Nat)
  | octets (b : List Byte)
  deriving DecidableEq, Repr

/-- A noun-table entry at the level OVI exposes (Table 2 of 05, R133), less `dirty`, which is the table's own. `reserved` are
the image's reserved bits, which must be 0 (R8). -/
structure Noun where
  format : Nat
  tier : Nat
  base : Nat
  rank : Nat
  extent : List Nat
  stride : List Nat
  scalePtr : Nat
  partition : Nat
  histSlot : Nat
  splitDim : Nat
  splitMode : Nat
  splitGrain : Nat
  advance : List Int
  reserved : Nat
  deriving DecidableEq, Repr

/-- What the error correction finds on the lines that one command or verb reads (R212, R219): the line of each corrected word, the
64-byte line numbers (far tier: of any line in the 2 KiB chunk) that cannot be read, and the far-tier stripes whose parity chunk cannot. A
physical finding. -/
structure Ecc where
  corrected : List Nat
  bad : List Nat
  parity : List Nat
  deriving DecidableEq, Repr

/-- Nothing to correct. -/
def Ecc.clean : Ecc := ⟨[], [], []⟩

/-- An awaited token: semaphore, `seq_base` and the four `seq_step`s (R155). -/
structure Await where
  sem : Nat
  base : Nat
  step : List Int
  deriving DecidableEq, Repr

/-- What every verb carries besides its class operands (R130), with the consist whose stream holds it and what the error
correction finds on the lines that its cores, its sequencer or its routine read. -/
structure VerbHdr where
  consist : Nat
  queue : Nat
  waits : List Await
  post : Option Nat
  rmask : Nat
  wmask : Nat
  ecc : Ecc
  deriving DecidableEq, Repr

/-- A scalar operand (R131). `call i` is scalar i of the enclosing phrasebook call, `stage` the module's stage coordinate p (R300,
R305). -/
inductive Scal
  | imm (v : Scalar)
  | call (i : Nat)
  | coreIndex
  | consistIndex
  | loopIndex (level : Nat)
  | stage
  deriving DecidableEq, Repr

/-- Row statistics requested of a matrix verb (R84). -/
inductive StatMode
  | none | plain | exp
  deriving DecidableEq, Repr

/-- The output form of a matrix verb in mode `exp` (R85). -/
inductive OutForm
  | raw | expRel
  deriving DecidableEq, Repr

/-- The three matrix verbs (R61, R72). -/
inductive MatKind
  | plain | split2 | split3
  deriving DecidableEq, Repr

/-- Operands of a matrix verb (R66 to R85). Handles are noun handles, 0 for none; `k0` and `k1` bound the K range
(split steps for a split verb, R78); `aKDim` and `bKDim` say which of dimensions 0 and 1 of A and B is K; `recPerCore`
is the number of spill records set aside for each core; `parity` lists the (core, tile) pairs that a parity error
strikes in this run (R96), a physical finding. -/
structure MmaOps where
  a : Nat
  b : Nat
  out : Nat
  init : Nat
  stats : Nat
  k0 : Nat
  k1 : Nat
  kTotal : Nat
  aKDim : Nat
  bKDim : Nat
  spill : Option Nat
  resume : Option Nat
  recPerCore : Nat
  jobTag : Nat
  alpha : Scal
  statMode : StatMode
  outForm : OutForm
  parity : List (Nat × Nat)
  deriving DecidableEq, Repr

/-- One instruction of a vector kernel at the level of Table 8 of 03 (R92, R160, R161). Registers are 0 to r - 1; each
instruction may be predicated on a register being non-zero. `cvtTo` and `cvtFrom` convert between FP32 and the unscaled format
of code `fmt` (0 to 5), whose code lies in a register's low bits. -/
inductive VOp
  | movImm (d : Nat) (v : Word)
  | movThread (d : Nat)
  | movGroup (d : Nat)
  | movLane (d : Nat)
  | movScalar (d : Nat) (i : Nat)
  | movCore (d : Nat)
  | movConsist (d : Nat)
  | movLoop (d level : Nat)
  | cvtTo (d a fmt : Nat)
  | cvtFrom (d a fmt : Nat)
  | load (d a : Nat)
  | store (a v : Nat)
  | loadElem (d noun idx : Nat)
  | storeElem (noun idx v : Nat)
  | fadd (d a b : Nat)
  | fmul (d a b : Nat)
  | ffma (d a b c : Nat)
  | fmin (d a b : Nat)
  | fmax (d a b : Nat)
  | fcmpLt (d a b : Nat)
  | fcmpLe (d a b : Nat)
  | fcmpEq (d a b : Nat)
  | bfadd (d a b : Nat)
  | bfmul (d a b : Nat)
  | bffma (d a b c : Nat)
  | exp2 (d a : Nat)
  | log2 (d a : Nat)
  | rcp (d a : Nat)
  | rsqrt (d a : Nat)
  | iadd (d a b : Nat)
  | iand (d a b : Nat)
  | ior (d a b : Nat)
  | ixor (d a b : Nat)
  | ishl (d a b : Nat)
  | ishr (d a b : Nat)
  | gbar
  deriving DecidableEq, Repr

structure VInstr where
  op : VOp
  pred : Option Nat
  deriving DecidableEq, Repr

/-- Operands of `vrun` (R160). `kernel` is the entry's number in the loaded image. -/
structure VrunOps where
  kernel : Nat
  groups : Nat
  regs : Nat
  nouns : List Nat
  scalars : List Scal
  deriving DecidableEq, Repr

/-- Operands of `stream` and `atomic_add` (Table 1 of 08). -/
structure StreamOps where
  form : Nat
  src : Nat
  dst : Nat
  listAddr : Nat
  listCount : Nat
  listGrain : Nat
  receivers : Nat
  cls : Nat
  resultMap : Nat
  deriving DecidableEq, Repr

/-- Operands of `slot_mark` (R177, R178): the anchor record's address when the anchor flag is set. -/
structure MarkOps where
  slot : Nat
  offset : Nat
  anchor : Option Nat
  deriving DecidableEq, Repr

/-- Operands of a phrasebook call (R156). -/
structure CallOps where
  nouns : List Nat
  scalars : List Scal
  baseSem : Nat
  deriving DecidableEq, Repr

/-- Operands of `siding_park` (Table 3 of 11). The header's queue is the entry's queue. -/
structure ParkOps where
  segment : Nat
  cost : Nat
  nouns : List Nat
  scalars : List Scal
  deriving DecidableEq, Repr

/-- A scale operation recorded by `scale_adjust` (R106). -/
inductive ScaleOp
  | shift (s : Int)
  | fresh
  deriving DecidableEq, Repr

/-- A verb of a stream, with its class operands (Table 1 of 05). `call r` is phrasebook routine r (R159). -/
inductive Verb
  | matrix (kind : MatKind) (o : MmaOps)
  | vector (o : VrunOps)
  | stream (o : StreamOps)
  | atomicAdd (o : StreamOps)
  | post (sem : Nat)
  | wait
  | signalArrive (sem count : Nat)
  | semReset (sem count : Nat)
  | scaleAdjust (noun : Nat) (op : ScaleOp)
  | scaleApply (noun : Nat)
  | loopBegin (slot : Nat)
  | loopEnd
  | slotWrite (addr slot : Nat)
  | nounSet (handle addr : Nat) (image : Noun)
  | slotMark (o : MarkOps)
  | nop
  | halt
  | call (routine : Nat) (o : CallOps)
  | park (o : ParkOps)
  | drain
  deriving DecidableEq, Repr

/-- A verb with what every verb carries. -/
structure VerbIn where
  h : VerbHdr
  v : Verb
  deriving DecidableEq, Repr

/-- One yard instruction of a custom rule (R288). Registers 0 to 3 hold g, w, m, v at the start and w', m', v' in
registers 1 to 3 at the end; registers 4 to 15 hold the scalars lr_eff, beta1, beta2, eps, lambda, ibc1, ibc2, t,
user0 to user3. -/
inductive YInstr
  | add (d a b : Nat)
  | sub (d a b : Nat)
  | mul (d a b : Nat)
  | fma (d a b c : Nat)
  | div (d a b : Nat)
  | sqrt (d a : Nat)
  | exp2 (d a : Nat)
  | log2 (d a : Nat)
  | fmin (d a b : Nat)
  | fmax (d a b : Nat)
  | mov (d a : Nat)
  | imm (d : Nat) (v : Word)
  deriving DecidableEq, Repr

/-- A custom rule image at the level the spec describes (R288, R36, R163). -/
structure RuleImage where
  part : Nat
  oviMajor : Nat
  code : List YInstr
  deriving DecidableEq, Repr

/-- A semaphore declaration of an image or a manifest (R184). -/
structure SemDecl where
  sem : Nat
  kind : Nat
  setter : Nat
  expected : Nat
  deriving DecidableEq, Repr

/-- The structure of a verb stream that the load checks (R153, R157). -/
inductive StreamItem
  | loopBegin | loopEnd | halt | call (routine : Nat) | verb
  deriving DecidableEq, Repr

/-- The program of one consist in an image (R123): the stream's structure and the first noun-table contents. -/
structure ConsistImage where
  consist : Nat
  stream : List StreamItem
  nouns : List (Nat × Noun)
  deriving DecidableEq, Repr

/-- A program image at the level the spec describes (R36, R123, R163, R184, R309). `part` is the part number it was built
for (9680 for this part). `segments` are the straight runs that `siding_park` names. -/
structure Image where
  part : Nat
  oviMajor : Nat
  consists : List ConsistImage
  kernels : List (List VInstr)
  sems : List SemDecl
  segments : List (List VerbIn)
  deriving DecidableEq, Repr

/-- A PTP event or general message as the engine reads it (R345, R346). Times are nanoseconds. -/
structure PtpMsg where
  port : Nat
  ok : Bool
  domain : Nat
  master : Nat
  seq : Nat
  twoStep : Bool
  originTime : Nat
  ingress : Nat
  correction : Int
  intervalNs : Nat
  deriving DecidableEq, Repr

/-- An Announce message: its master and the data-set rank that the best-master comparison of IEEE 1588-2019 orders by. -/
structure PtpAnnounce where
  port : Nat
  ok : Bool
  domain : Nat
  master : Nat
  rank : Nat
  deriving DecidableEq, Repr

/-- A received frame: how full the two parts of the receive buffer are, what FEC found, whether the FCS and the ICV verify, and its
octets from the destination address on, without ICV and FCS and with the protected part decrypted. -/
structure RxFrame where
  shared : Nat
  reserved : Nat
  fecBad : Nat
  fecCorrected : Nat
  fecSymbols : Nat
  fcsOk : Bool
  icvOk : Bool
  octets : List Byte
  deriving DecidableEq, Repr

/-- `n` octets of a frame at a place, as a number in network order (R9). -/
def RxFrame.num (f : RxFrame) (at' n : Nat) : Nat := beNat ((f.octets.drop at').take n)

def RxFrame.dstMac (f : RxFrame) : List Byte := f.octets.take 6
/-- The TPID, where the frame is tagged. -/
def RxFrame.tpid (f : RxFrame) : Nat := f.num 12 2
def RxFrame.tagged (f : RxFrame) : Bool := f.tpid = 0x8100 || f.tpid = 0x88A8
def RxFrame.pcp (f : RxFrame) : Nat := f.num 14 2 / 2 ^ 13
def RxFrame.vid (f : RxFrame) : Nat := f.num 14 2 % 2 ^ 12
def RxFrame.etherType (f : RxFrame) : Nat := if f.tagged then f.num 16 2 else f.num 12 2
/-- The opcode and the operands of a MAC Control frame. -/
def RxFrame.macOpcode (f : RxFrame) : Nat := f.num 14 2
def RxFrame.macWord (f : RxFrame) (i : Nat) : Nat := f.num (16 + 2 * i) 2
/-- The SecTAG after the C-tag (R339): its AN, its packet number, and its SCI where the TCI says that one is there. -/
def RxFrame.hasSecTag (f : RxFrame) : Bool := f.tagged && f.etherType = 0x88E5
def RxFrame.an (f : RxFrame) : Nat := f.num 18 1 % 4
def RxFrame.hasSci (f : RxFrame) : Bool := bitOf (f.num 18 1) 5
def RxFrame.pn (f : RxFrame) : Nat := f.num 20 4
def RxFrame.sci (f : RxFrame) : Nat := f.num 24 8
/-- Length under R330: with the ICV of a protected frame, and the FCS. -/
def RxFrame.length (f : RxFrame) : Nat := f.octets.length + (if f.hasSecTag then 16 else 0) + 4
/-- Where the IP header begins, and the EtherType before it. -/
def RxFrame.ipAt (f : RxFrame) : Nat := if f.hasSecTag then 34 else 18
def RxFrame.proto (f : RxFrame) : Nat := f.num (f.ipAt - 2) 2
def RxFrame.isV6 (f : RxFrame) : Bool := f.proto = 0x86DD
/-- Where the UDP header begins. -/
def RxFrame.udpAt (f : RxFrame) : Nat := f.ipAt + (if f.isV6 then 40 else 20)
def RxFrame.udpPort (f : RxFrame) : Nat := f.num (f.udpAt + 2) 2
/-- The ECN field is CE. -/
def RxFrame.ce (f : RxFrame) : Bool := if f.isV6 then f.num (f.ipAt + 1) 1 / 16 % 4 = 3 else f.num (f.ipAt + 1) 1 % 4 = 3
/-- The IP destination as an object holds it: an IPv4 address in the form ::ffff:a.b.c.d. -/
def RxFrame.dstIp (f : RxFrame) : List Byte :=
  if f.isV6 then (f.octets.drop (f.ipAt + 24)).take 16 else List.replicate 10 0 ++ [255#8, 255#8] ++ (f.octets.drop (f.ipAt + 16)).take 4

/-- The sum of 16-bit words in network order. -/
def sum16 : List Byte → Nat
  | a :: b :: r => 256 * a.toNat + b.toNat + sum16 r
  | [a] => 256 * a.toNat
  | [] => 0

/-- The checksum of IPv4 and UDP: the ones' complement of the ones' complement sum. -/
def checksum (l : List Byte) : Nat := if sum16 l = 0 then 65535 else 65534 - (sum16 l - 1) % 65535

/-- The IP header's part in R352: IPv4 without options, no fragment, its checksum correct; or IPv6 without extension headers, the UDP
checksum correct; UDP inside, whole. -/
def RxFrame.ipOk (f : RxFrame) : Bool :=
  let h := f.octets.drop f.ipAt
  let byte (i : Nat) : Nat := beNat ((h.drop i).take 1)
  let udp := (h.drop (if f.isV6 then 40 else 20)).take (f.num (f.udpAt + 4) 2)
  decide (8 ≤ udp.length) && udp.length = f.num (f.udpAt + 4) 2 &&
  if f.isV6 then byte 0 / 16 = 6 && byte 6 = 17 && f.num (f.udpAt + 6) 2 ≠ 0 &&
    checksum ((h.drop 8).take 32 ++ beBytes 4 udp.length ++ beBytes 4 17 ++ udp) = 0
  else f.proto = 0x0800 && byte 0 = 0x45 && beNat ((h.drop 6).take 2) % 2 ^ 14 = 0 && byte 9 = 17 && checksum (h.take 20) = 0

/-- A key-agreement message: its `dst_qp` is 0xFFFF (R352). -/
def RxFrame.keyAgreement (f : RxFrame) : Bool := f.ipOk && f.num (f.udpAt + 12) 2 = 0xFFFF

/-- The fields of an HRT header (Table 1 of 13). -/
structure HrtHdr where
  version : Nat
  opcode : Nat
  last : Bool
  timetabled : Bool
  ackNow : Bool
  ecnEcho : Bool
  semOp : Nat
  poisoned : Bool
  reserved : Nat
  addType : Nat
  code : Nat
  dstQp : Nat
  srcQp : Nat
  psn : Nat
  ackPsn : Nat
  window : Nat
  offset : Nat
  payloadLen : Nat
  sem : Nat
  epoch : Nat
  frameIndex : Nat
  sack : Nat
  deriving DecidableEq, Repr

/-- The 32 octets of a header in network order (R9, R353); in an ack `sack` takes the place of the epoch and the index. -/
def hrtOctets (h : HrtHdr) : List Byte :=
  (leBytes 32 (h.version * 2 ^ 252 + h.opcode * 2 ^ 248 + h.last.toNat * 2 ^ 247 + h.timetabled.toNat * 2 ^ 246 +
    h.ackNow.toNat * 2 ^ 245 + h.ecnEcho.toNat * 2 ^ 244 + h.semOp * 2 ^ 242 + h.poisoned.toNat * 2 ^ 241 +
    h.reserved / 16 * 2 ^ 240 + h.addType * 2 ^ 236 + h.reserved % 16 * 2 ^ 232 + h.code * 2 ^ 224 + h.dstQp * 2 ^ 208 +
    h.srcQp * 2 ^ 192 + h.psn * 2 ^ 160 + h.ackPsn * 2 ^ 128 + h.window * 2 ^ 112 + h.offset * 2 ^ 64 + h.payloadLen * 2 ^ 48 +
    h.sem * 2 ^ 32 + (if h.opcode = 2 then h.sack else h.epoch * 2 ^ 24 + h.frameIndex))).reverse

/-- The header that 32 octets of the wire spell. -/
def hrtParse (bs : List Byte) : HrtHdr :=
  let v := beNat bs
  let ack : Bool := bits v 248 4 = 2
  { version := bits v 252 4, opcode := bits v 248 4, last := bitOf v 247, timetabled := bitOf v 246, ackNow := bitOf v 245,
    ecnEcho := bitOf v 244, semOp := bits v 242 2, poisoned := bitOf v 241, reserved := bits v 240 1 * 16 + bits v 232 4,
    addType := bits v 236 4, code := bits v 224 8, dstQp := bits v 208 16, srcQp := bits v 192 16, psn := bits v 160 32,
    ackPsn := bits v 128 32, window := bits v 112 16, offset := bits v 64 48, payloadLen := bits v 48 16, sem := bits v 32 16,
    epoch := if ack then 0 else bits v 24 8, frameIndex := if ack then 0 else bits v 0 24, sack := if ack then bits v 0 32 else 0 }

/-- An HRT frame that passed the checks below HRT: receiving partition, arrival port, the peer-table entry that its SCI
names, the PCP it came with, whether it carried CE, the time of its first byte, the octets of its header and of its payload. -/
structure HrtFrame where
  part : Nat
  port : Nat
  peer : Nat
  pcp : Nat
  ce : Bool
  t : Nat
  wire : List Byte
  payload : List Byte
  deriving DecidableEq, Repr

/-- A received frame's header. -/
def HrtFrame.hdr (f : HrtFrame) : HrtHdr := hrtParse f.wire

/-- A management request (Table 5 of 16) as it arrives: with `session` 0 in mailbox `mailbox` (64: on the management port
outside a session). `datagramOk` says that the datagram passes R456, `tagOk` that its tag verifies, `formOk` that the fields
not listed here are as Table 5 gives them, `found` what decapsulation or a signature check yields for a value that
carries one (none: it fails). -/
structure LmpReq where
  session : Nat
  mailbox : Nat
  datagramOk : Bool
  frameSeq : Nat
  requestId : Nat
  tagOk : Bool
  formOk : Bool
  index : Nat
  sub : Nat
  offset : Nat
  total : Nat
  length : Nat
  final : Bool
  value : List Byte
  found : Option (List Byte)
  t : Nat
  deriving DecidableEq, Repr

/-- The value of an `open` request (R459 step 1), with the decapsulated secret of step 2. -/
structure LmpOpenReq where
  requestId : Nat
  datagramOk : Bool
  formOk : Bool
  role : Nat
  part : Nat
  zeros : Bool
  keyFp : List Byte
  clientNonce : List Byte
  secret : List Byte
  t : Nat
  deriving DecidableEq, Repr

/-- How a start-up step ended, as found by the hardware it drives (R473, R477): its failure, the parts it fenced (by step:
compute dies, links, stacks, channels, cages) and the microseconds it ran. -/
structure StepFinding where
  fail : Option Status
  fenced : Nat
  us : Nat
  deriving DecidableEq, Repr

/-- What start-up steps find, in order from the step that comes next (R473 to R479): one finding a step, the failed cores of
each consist and failed spares of each die (R28, R30), the channels that the memory test fails (R213), whether the last
loss was unclean (R267), the objects whose stored record fails its check, the components that slots 1 to 4 measure, by slot
(R430; the one of slot 0 stands for nothing, its digest is recorded at manufacture). -/
structure BootEnv where
  t : Nat
  findings : List StepFinding
  failedCores : List Nat
  failedSpares : List Nat
  memChannels : Nat
  unclean : Bool
  badObjects : List Nat
  components : List (List Byte)
  deriving DecidableEq, Repr

/-- The header of a firmware image (Table 6 of 17). -/
structure FwHeader where
  magic : Nat
  imageLength : Nat
  version : Nat
  securityVersion : Nat
  part : List Byte
  loaderLength : Nat
  sigboxLength : Nat
  firmwareLength : Nat
  phrasebookLength : Nat
  reserved : Nat
  format : Nat
  deriving DecidableEq, Repr

/-- Where a control-state error strikes (R517). -/
inductive CtrlFault
  | semaphore (sem : Nat)
  | sequencer (consist : Nat)
  | scoreboard (consist core verbIndex : Nat)
  deriving DecidableEq, Repr

/-- TAP instructions (R438, R439). -/
inductive TapInstr
  | bypass | idcode | samplePreload | extest | unlock | privateInstr
  deriving DecidableEq, Repr

/-- Background work of the depot's translation layer (R257, R259). -/
inductive DepotBg
  | collect (channel : Nat)
  | relocate (block : Nat)
  | level (block : Nat)
  | erase (channel : Nat)
  | exhaust (channel : Nat)
  deriving DecidableEq, Repr

/-- A key offer as it reaches the module (R342): the receiving partition, port and the peer-table entry of its sender, its HRT header
and payload, and the 32-octet secret that decapsulation yields, none where it fails. -/
structure KeyOffer where
  part : Nat
  port : Nat
  peer : Nat
  wire : List Byte
  payload : List Byte
  secret : Option (List Byte)
  t : Nat
  deriving DecidableEq, Repr

/-- The message as HRT's checks see it. -/
def KeyOffer.frame (o : KeyOffer) : HrtFrame := ⟨o.part, o.port, o.peer, 0, false, o.t, o.wire, o.payload⟩

/-- A key accept as it reaches the module (R342). -/
structure KeyAccept where
  part : Nat
  port : Nat
  peer : Nat
  wire : List Byte
  payload : List Byte
  t : Nat
  deriving DecidableEq, Repr

def KeyAccept.frame (o : KeyAccept) : HrtFrame := ⟨o.part, o.port, o.peer, 0, false, o.t, o.wire, o.payload⟩

/-- The tiers whose granules are scrubbed (R216). Staging granules are named die * 768 + q. -/
inductive ScrubTier
  | near | far | staging | depot
  deriving DecidableEq, Repr

end Sys2Proof
end

