-- ==== Sys2Proof/Syntax.lean ====
section
/-! DEFINITION. The commands of the block: one constructor per row of spec/opcode_table.json, in the table's order.
`h` is what every verb carries; `who` sends a management write; `t` is the time of the command in nanoseconds. -/

namespace Sys2Proof

inductive Instr
  /-- MMA -/
  | mma (h : VerbHdr) (o : MmaOps)
  /-- MMA_SPLIT2 -/
  | mmaSplit2 (h : VerbHdr) (o : MmaOps)
  /-- MMA_SPLIT3 -/
  | mmaSplit3 (h : VerbHdr) (o : MmaOps)
  /-- VRUN -/
  | vrun (h : VerbHdr) (o : VrunOps)
  /-- STREAM -/
  | stream (h : VerbHdr) (o : StreamOps)
  /-- ATOMIC_ADD -/
  | atomicAdd (h : VerbHdr) (o : StreamOps)
  /-- POST -/
  | post (h : VerbHdr) (sem : Nat)
  /-- WAIT -/
  | wait (h : VerbHdr)
  /-- SIGNAL_ARRIVE -/
  | signalArrive (h : VerbHdr) (sem : Nat) (count : Nat)
  /-- SEM_RESET -/
  | semReset (h : VerbHdr) (sem : Nat) (count : Nat)
  /-- SCALE_ADJUST_SHIFT -/
  | scaleAdjustShift (h : VerbHdr) (noun : Nat) (amount : Int)
  /-- SCALE_ADJUST_FRESH -/
  | scaleAdjustFresh (h : VerbHdr) (noun : Nat)
  /-- SCALE_ADJUST_APPLY -/
  | scaleAdjustApply (h : VerbHdr) (noun : Nat)
  /-- LOOP_BEGIN -/
  | loopBegin (h : VerbHdr) (slot : Nat)
  /-- LOOP_END -/
  | loopEnd (h : VerbHdr)
  /-- SLOT_WRITE -/
  | slotWrite (h : VerbHdr) (addr : Nat) (slot : Nat)
  /-- NOUN_SET -/
  | nounSet (h : VerbHdr) (handle : Nat) (addr : Nat) (image : Noun)
  /-- SLOT_MARK -/
  | slotMark (h : VerbHdr) (o : MarkOps)
  /-- NOP -/
  | nop (h : VerbHdr)
  /-- HALT -/
  | halt (h : VerbHdr)
  /-- VERB_ISSUE -/
  | verbIssue (k : Nat) (core : Nat) (cycles : Nat)
  /-- VERB_TOKEN_POST -/
  | verbTokenPost (k : Nat) (vi : Nat)
  /-- BROADCAST_RESUME -/
  | broadcastResume (k : Nat) (cycles : Nat)
  /-- CONTROL_VERB_RELEASE -/
  | controlVerbRelease (k : Nat)
  /-- ALL_REDUCE -/
  | allReduce (h : VerbHdr) (c : CallOps)
  /-- ALL_REDUCE_FREE -/
  | allReduceFree (h : VerbHdr) (c : CallOps)
  /-- REDUCE_SCATTER -/
  | reduceScatter (h : VerbHdr) (c : CallOps)
  /-- ALL_GATHER -/
  | allGather (h : VerbHdr) (c : CallOps)
  /-- BROADCAST -/
  | broadcast (h : VerbHdr) (c : CallOps)
  /-- REDUCE_TO_ROOT -/
  | reduceToRoot (h : VerbHdr) (c : CallOps)
  /-- ALL_TO_ALL -/
  | allToAll (h : VerbHdr) (c : CallOps)
  /-- MAX_REDUCE -/
  | maxReduce (h : VerbHdr) (c : CallOps)
  /-- CLUSTER_BARRIER -/
  | clusterBarrier (h : VerbHdr) (c : CallOps)
  /-- GATHER_LAYER -/
  | gatherLayer (h : VerbHdr) (c : CallOps)
  /-- DROP_LAYER -/
  | dropLayer (h : VerbHdr) (c : CallOps)
  /-- SEND_ACTIVATIONS -/
  | sendActivations (h : VerbHdr) (c : CallOps)
  /-- RECV_ACTIVATIONS -/
  | recvActivations (h : VerbHdr) (c : CallOps)
  /-- RING_EXCHANGE -/
  | ringExchange (h : VerbHdr) (c : CallOps)
  /-- STAT_MERGE_ALL -/
  | statMergeAll (h : VerbHdr) (c : CallOps)
  /-- POINTS_CHANGE -/
  | pointsChange (h : VerbHdr) (c : CallOps)
  /-- STAT_MERGE -/
  | statMerge (h : VerbHdr) (c : CallOps)
  /-- SOFTMAX_ROWS -/
  | softmaxRows (h : VerbHdr) (c : CallOps)
  /-- LAYER_NORM -/
  | layerNorm (h : VerbHdr) (c : CallOps)
  /-- RMS_NORM -/
  | rmsNorm (h : VerbHdr) (c : CallOps)
  /-- GELU -/
  | gelu (h : VerbHdr) (c : CallOps)
  /-- SILU_GATE -/
  | siluGate (h : VerbHdr) (c : CallOps)
  /-- ROTARY_EMBED -/
  | rotaryEmbed (h : VerbHdr) (c : CallOps)
  /-- DROPOUT_MASK -/
  | dropoutMask (h : VerbHdr) (c : CallOps)
  /-- CROSS_ENTROPY -/
  | crossEntropy (h : VerbHdr) (c : CallOps)
  /-- LOSS_SUBMIT -/
  | lossSubmit (h : VerbHdr) (c : CallOps)
  /-- GRAD_NORM -/
  | gradNorm (h : VerbHdr) (c : CallOps)
  /-- GRAD_CLIP -/
  | gradClip (h : VerbHdr) (c : CallOps)
  /-- SCALE_LAYER -/
  | scaleLayer (h : VerbHdr) (c : CallOps)
  /-- HISTOGRAM_CLEAR -/
  | histogramClear (h : VerbHdr) (c : CallOps)
  /-- CONVERT -/
  | convert (h : VerbHdr) (c : CallOps)
  /-- TRANSPOSE -/
  | transpose (h : VerbHdr) (c : CallOps)
  /-- FILL -/
  | fill (h : VerbHdr) (c : CallOps)
  /-- COPY -/
  | copy (h : VerbHdr) (c : CallOps)
  /-- GATHER_ROWS -/
  | gatherRows (h : VerbHdr) (c : CallOps)
  /-- SCATTER_ADD_ROWS -/
  | scatterAddRows (h : VerbHdr) (c : CallOps)
  /-- SPILL_TO_NEAR -/
  | spillToNear (h : VerbHdr) (c : CallOps)
  /-- RESUME_FROM_NEAR -/
  | resumeFromNear (h : VerbHdr) (c : CallOps)
  /-- PREFETCH_LAYER -/
  | prefetchLayer (h : VerbHdr) (c : CallOps)
  /-- CHECKPOINT_WRITE -/
  | checkpointWrite (h : VerbHdr) (c : CallOps)
  /-- CHECKPOINT_READ -/
  | checkpointRead (h : VerbHdr) (c : CallOps)
  /-- DATASET_READ -/
  | datasetRead (h : VerbHdr) (c : CallOps)
  /-- WINDOW_REGISTER -/
  | windowRegister (h : VerbHdr) (c : CallOps)
  /-- WINDOW_RELEASE -/
  | windowRelease (h : VerbHdr) (c : CallOps)
  /-- UPDATE_ADAMW -/
  | updateAdamw (h : VerbHdr) (c : CallOps)
  /-- UPDATE_ADAM_L2 -/
  | updateAdamL2 (h : VerbHdr) (c : CallOps)
  /-- UPDATE_SGD_MOMENTUM -/
  | updateSgdMomentum (h : VerbHdr) (c : CallOps)
  /-- UPDATE_CUSTOM -/
  | updateCustom (h : VerbHdr) (c : CallOps)
  /-- UPDATE_SHARD_CHECK -/
  | updateShardCheck (p : Nat) (shard : Nat)
  /-- STEP_VOTE -/
  | stepVote (h : VerbHdr) (c : CallOps)
  /-- STEP_COUNTER_READ -/
  | stepCounterRead (h : VerbHdr) (c : CallOps)
  /-- FREEZE_SET -/
  | freezeSet (h : VerbHdr) (c : CallOps)
  /-- LAYER_SCALE_SET -/
  | layerScaleSet (h : VerbHdr) (c : CallOps)
  /-- SIDING_PARK -/
  | sidingPark (h : VerbHdr) (o : ParkOps)
  /-- SIDING_DRAIN -/
  | sidingDrain (h : VerbHdr)
  /-- ATTENTION_FWD -/
  | attentionFwd (h : VerbHdr) (c : CallOps)
  /-- ATTENTION_BWD -/
  | attentionBwd (h : VerbHdr) (c : CallOps)
  /-- CAUSAL_MASK -/
  | causalMask (h : VerbHdr) (c : CallOps)
  /-- ATTENTION_MERGE -/
  | attentionMerge (h : VerbHdr) (c : CallOps)
  /-- MATMUL_BIAS -/
  | matmulBias (h : VerbHdr) (c : CallOps)
  /-- MATMUL_FP32 -/
  | matmulFp32 (h : VerbHdr) (c : CallOps)
  /-- TOPK_ROUTE -/
  | topkRoute (h : VerbHdr) (c : CallOps)
  /-- EXPERT_DISPATCH -/
  | expertDispatch (h : VerbHdr) (c : CallOps)
  /-- EXPERT_COMBINE -/
  | expertCombine (h : VerbHdr) (c : CallOps)
  /-- SELF_TEST -/
  | selfTest (h : VerbHdr) (c : CallOps)
  /-- SIDING_ENTRY_START -/
  | sidingEntryStart (k : Nat) (idle : Nat) (left : Nat)
  /-- TICK_BOUNDARY -/
  | tickBoundary (t : Nat) (draws : List Nat)
  /-- TICK_CHANGE -/
  | tickChange
  /-- TICK_CHANGE_AT_WRITE -/
  | tickChangeAtWrite (who : Who) (v : Nat)
  /-- TICK_EPOCH_WRITE -/
  | tickEpochWrite (who : Who) (v : Nat)
  /-- SLOT_START -/
  | slotStart (k : Nat)
  /-- SLOT_COMPLETE -/
  | slotComplete (k : Nat) (busy : Nat) (wait : Nat)
  /-- DEADLOCK_SEARCH -/
  | deadlockSearch
  /-- PTP_SYNC_RX -/
  | ptpSyncRx (m : PtpMsg)
  /-- PTP_FOLLOW_UP_RX -/
  | ptpFollowUpRx (m : PtpMsg)
  /-- PTP_ANNOUNCE_RX -/
  | ptpAnnounceRx (m : PtpAnnounce)
  /-- PTP_DELAY_REQ_TX -/
  | ptpDelayReqTx (t : Nat)
  /-- PTP_DELAY_RESP_RX -/
  | ptpDelayRespRx (m : PtpMsg)
  /-- PTP_SYNC_TIMEOUT -/
  | ptpSyncTimeout (t : Nat)
  /-- ALIGNMENT_REGAIN -/
  | alignmentRegain (t : Nat)
  /-- TIME_STEP -/
  | timeStep (t : Nat)
  /-- GRANULE_SCRUB -/
  | granuleScrub (tier : ScrubTier) (g : Nat)
  /-- GRANULE_SCRUB_END -/
  | granuleScrubEnd (tier : ScrubTier) (g : Nat)
  /-- PATROL_READ -/
  | patrolRead (addr : Nat) (ecc : Ecc)
  /-- BLOCK_DISPATCH -/
  | blockDispatch (die : Nat) (ecc : Ecc)
  /-- BLOCK_COMPLETE -/
  | blockComplete (die : Nat) (id : Nat) (receivers : List Nat)
  /-- MULTICAST_UNCOUPLE -/
  | multicastUncouple
  /-- DEPOT_WRITE_RESUME -/
  | depotWriteResume (channel : Nat)
  /-- DEPOT_BACKGROUND_OP -/
  | depotBackgroundOp (op : DepotBg) (us : Nat) (t : Nat)
  /-- DEPOT_DISTURB_REFRESH -/
  | depotDisturbRefresh (block : Nat)
  /-- DEPOT_AGE_REFRESH -/
  | depotAgeRefresh (block : Nat)
  /-- DEPOT_PRESERVE_SET -/
  | depotPreserveSet (who : Who) (q : Nat)
  /-- DEPOT_PRESERVE_CLEAR -/
  | depotPreserveClear (who : Who) (q : Nat)
  /-- LAYER_TABLE_ADDR_WRITE -/
  | layerTableAddrWrite (who : Who) (p : Nat) (addr : Nat)
  /-- VOTE_RX -/
  | voteRx (f : HrtFrame)
  /-- STEP_WAIT_EXPIRY -/
  | stepWaitExpiry (p : Nat)
  /-- DECISION_RX -/
  | decisionRx (f : HrtFrame)
  /-- DECISION_APPLY -/
  | decisionApply (p : Nat)
  /-- INFLECTOR_WALK_END -/
  | inflectorWalkEnd (k : Nat) (handle : Nat)
  /-- SHARD_APPLY_END -/
  | shardApplyEnd (p : Nat) (shard : Nat) (ecc : Ecc)
  /-- IN_DOUBT_ENTRY -/
  | inDoubtEntry (p : Nat)
  /-- IN_DOUBT_RESOLVE -/
  | inDoubtResolve (who : Who) (p : Nat) (v : Nat)
  /-- HOLD_DECISION -/
  | holdDecision (who : Who) (p : Nat) (v : Nat)
  /-- REVISED_VOTE_RX -/
  | revisedVoteRx (f : HrtFrame)
  /-- ROLLBACK -/
  | rollback (p : Nat)
  /-- JOB_MAP_ADDR_WRITE -/
  | jobMapAddrWrite (who : Who) (p : Nat) (addr : Nat)
  /-- POINTS_SWAP -/
  | pointsSwap (p : Nat)
  /-- PATH_SHADOW_LOAD -/
  | pathShadowLoad (who : Who) (p : Nat) (addr : Nat)
  /-- FRAME_RX -/
  | frameRx (n : Nat) (f : RxFrame)
  /-- FRAME_TX -/
  | frameTx (n : Nat) (t : Nat)
  /-- PAUSE_RX -/
  | pauseRx (n : Nat) (quanta : Nat)
  /-- PFC_RX -/
  | pfcRx (n : Nat) (classes : Nat) (quanta : List Nat)
  /-- PAUSE_REFRESH -/
  | pauseRefresh (n : Nat) (shared : Nat) (reserved : Nat)
  /-- PAUSE_QUANTA_EXPIRY -/
  | pauseQuantaExpiry (n : Nat)
  /-- LINK_DOWN -/
  | linkDown (n : Nat)
  /-- LINK_UP -/
  | linkUp (n : Nat)
  /-- CAGE_MODE_WRITE -/
  | cageModeWrite (who : Who) (v : Nat)
  /-- VID_WRITE -/
  | vidWrite (who : Who) (p : Nat) (v : Nat)
  /-- PORT_MAP_WRITE -/
  | portMapWrite (who : Who) (p : Nat) (v : Nat)
  /-- PORT_ENABLE_WRITE -/
  | portEnableWrite (who : Who) (n : Nat) (v : Nat)
  /-- KEY_OFFER_RX -/
  | keyOfferRx (o : KeyOffer)
  /-- KEY_ACCEPT_RX -/
  | keyAcceptRx (o : KeyAccept)
  /-- KEY_ACCEPT_TIMEOUT -/
  | keyAcceptTimeout (p : Nat) (n : Nat) (peer : Nat) (t : Nat)
  /-- HRT_WRITE_RX -/
  | hrtWriteRx (f : HrtFrame)
  /-- HRT_ADD_RX -/
  | hrtAddRx (f : HrtFrame)
  /-- HRT_ACK_RX -/
  | hrtAckRx (f : HrtFrame)
  /-- HRT_WINDOW_WRITE_RX -/
  | hrtWindowWriteRx (f : HrtFrame)
  /-- BUFFER_FREE_RX -/
  | bufferFreeRx (f : HrtFrame)
  /-- HRT_ACK_DELAY -/
  | hrtAckDelay (qp : Nat)
  /-- HRT_RTO_EXPIRY -/
  | hrtRtoExpiry (qp : Nat) (psn : Nat) (t : Nat)
  /-- PARTNER_TIMEOUT -/
  | partnerTimeout (qp : Nat) (t : Nat)
  /-- PEER_SLOW_DETECT -/
  | peerSlowDetect (qp : Nat)
  /-- PEER_QUARANTINE_CLEAR -/
  | peerQuarantineClear (who : Who) (p : Nat) (peer : Nat)
  /-- LINK_ERROR -/
  | linkError (l : Nat) (t : Nat)
  /-- LINK_RETRAIN_DONE -/
  | linkRetrainDone (l : Nat) (t : Nat)
  /-- LINK_RETRY_EXPIRY -/
  | linkRetryExpiry (t : Nat)
  /-- HOST_RST_ASSERT -/
  | hostRstAssert (t : Nat)
  /-- HOST_RST_RELEASE -/
  | hostRstRelease (t : Nat)
  /-- HOLD_QUIESCE -/
  | holdQuiesce
  /-- HOLD_RECORD_WRITE -/
  | holdRecordWrite
  /-- ADOPT -/
  | adopt (epoch : Nat) (digest : List Byte)
  /-- ADOPTION_END -/
  | adoptionEnd
  /-- RE_ATTACH -/
  | reAttach
  /-- HOLD_DISCARD -/
  | holdDiscard
  /-- DOORBELL_SQ_TAIL -/
  | doorbellSqTail (q : Nat) (v : Nat)
  /-- DOORBELL_CQ_HEAD -/
  | doorbellCqHead (q : Nat) (v : Nat)
  /-- MANIFEST_FETCH -/
  | manifestFetch (q : Nat) (bytes : List Byte)
  /-- MANIFEST_REREAD -/
  | manifestReread (q : Nat) (bytes : List Byte)
  /-- MANIFEST_NOP -/
  | manifestNop (q : Nat) (seq : Nat)
  /-- IMAGE_LOAD -/
  | imageLoad (q : Nat) (seq : Nat) (img : Image)
  /-- CONSIST_CONTROL_START -/
  | consistControlStart (q : Nat) (seq : Nat)
  /-- CONSIST_CONTROL_RESTART -/
  | consistControlRestart (q : Nat) (seq : Nat)
  /-- CONSIST_CONTROL_STOP -/
  | consistControlStop (q : Nat) (seq : Nat)
  /-- CONSIST_CONTROL_UNLOAD -/
  | consistControlUnload (q : Nat) (seq : Nat)
  /-- NOUN_WRITE -/
  | nounWrite (q : Nat) (seq : Nat) (image : Noun)
  /-- MANIFEST_SLOT_WRITE -/
  | manifestSlotWrite (q : Nat) (seq : Nat)
  /-- SEM_DECLARE -/
  | semDeclare (q : Nat) (seq : Nat)
  /-- MANIFEST_SEM_RESET -/
  | manifestSemReset (q : Nat) (seq : Nat)
  /-- MANIFEST_COPY -/
  | manifestCopy (q : Nat) (seq : Nat) (data : List Byte) (ecc : Ecc)
  /-- DEPOT_READ -/
  | depotRead (q : Nat) (seq : Nat) (ecc : Ecc)
  /-- DEPOT_WRITE -/
  | depotWrite (q : Nat) (seq : Nat) (ecc : Ecc)
  /-- RULE_LOAD -/
  | ruleLoad (q : Nat) (seq : Nat) (rule : RuleImage)
  /-- LAYER_WRITE -/
  | layerWrite (q : Nat) (seq : Nat)
  /-- MANIFEST_COMPLETE -/
  | manifestComplete (q : Nat) (seq : Nat)
  /-- QUEUE_ENABLE -/
  | queueEnable (q : Nat)
  /-- QUEUE_DISABLE -/
  | queueDisable (q : Nat)
  /-- APERTURE_DESCRIPTOR_WRITE -/
  | apertureDescriptorWrite (a : Nat) (bytes : List Byte)
  /-- HOST_APERTURE_READ -/
  | hostApertureRead (off : Nat) (len : Nat) (ecc : Ecc)
  /-- HOST_APERTURE_WRITE -/
  | hostApertureWrite (off : Nat) (bytes : List Byte)
  /-- HOST_RESERVED_ACCESS -/
  | hostReservedAccess (off : Nat) (len : Nat) (write : Bool)
  /-- GRANT_OBJECT_WRITE -/
  | grantObjectWrite (who : Who) (p : Nat) (sub : Nat) (val : OdVal)
  /-- GRANT_COMMIT -/
  | grantCommit (who : Who) (p : Nat)
  /-- GRANT_RELEASE -/
  | grantRelease (who : Who) (p : Nat)
  /-- GRANT_DISCARD -/
  | grantDiscard (who : Who) (p : Nat)
  /-- GRANT_FORCE_RELEASE -/
  | grantForceRelease (who : Who) (p : Nat)
  /-- GRANT_SWAP -/
  | grantSwap (p : Nat)
  /-- WINDOW_TABLE_SWAP -/
  | windowTableSwap (p : Nat)
  /-- CONSIST_CLEAR_END -/
  | consistClearEnd (k : Nat)
  /-- QUOTE_REQUEST -/
  | quoteRequest (who : Who) (bytes : List Byte)
  /-- DEPOT_KEY_IMPORT -/
  | depotKeyImport (who : Who) (p : Nat) (cipher : List Byte) (proof : List Byte)
  /-- DEBUG_OPEN -/
  | debugOpen (who : Who) (v : Nat)
  /-- TAP_UNLOCK -/
  | tapUnlock (sigOk : Bool)
  /-- TAP_INSTRUCTION_LOAD -/
  | tapInstructionLoad (load : TapInstr)
  /-- DEBUG_ERASE_RELEASE -/
  | debugEraseRelease
  /-- DEBUG_ERASE_END -/
  | debugEraseEnd
  /-- IDENTITY_CERT_WRITE -/
  | identityCertWrite (who : Who) (bytes : List Byte) (rootKey : Option (List Byte))
  /-- KEY_LIST_WRITE -/
  | keyListWrite (who : Who) (sub : Nat) (p : Nat) (bytes : List Byte)
  /-- LMP_READ -/
  | lmpRead (r : LmpReq)
  /-- LMP_WRITE -/
  | lmpWrite (r : LmpReq)
  /-- LMP_READ_INDEX -/
  | lmpReadIndex (r : LmpReq)
  /-- BOOK_READ -/
  | bookRead (r : LmpReq)
  /-- LMP_CHECKPOINT_READ -/
  | lmpCheckpointRead (r : LmpReq)
  /-- LMP_OPEN -/
  | lmpOpen (r : LmpOpenReq)
  /-- LMP_OPEN_PROOF -/
  | lmpOpenProof (session : Nat) (requestId : Nat) (proof : Option Bool) (t : Nat)
  /-- LMP_CLOSE -/
  | lmpClose (r : LmpReq)
  /-- LMP_OPEN_TIMEOUT -/
  | lmpOpenTimeout (session : Nat) (t : Nat)
  /-- LMP_IDLE_TIMEOUT -/
  | lmpIdleTimeout (session : Nat) (t : Nat)
  /-- LMP_SNAPSHOT_EXPIRY -/
  | lmpSnapshotExpiry (session : Nat) (t : Nat)
  /-- LMP_SEGMENT_TIMEOUT -/
  | lmpSegmentTimeout (key : Nat) (t : Nat)
  /-- MGMT_SETTINGS_APPLY -/
  | mgmtSettingsApply (t : Nat)
  /-- BOOK_CHECKPOINT -/
  | bookCheckpoint (t : Nat)
  /-- BOOK_CHECKPOINT_SIGN -/
  | bookCheckpointSign
  /-- BOOK_EXPORT_MARK_WRITE -/
  | bookExportMarkWrite (who : Who) (v : Nat)
  /-- RESTORE_DEFAULTS -/
  | restoreDefaults (who : Who) (v : Nat)
  /-- START_UP -/
  | startUp (e : BootEnv)
  /-- STARTUP_STEP_TIMEOUT -/
  | startupStepTimeout (step : Nat) (t : Nat)
  /-- MODULE_RESTART -/
  | moduleRestart (who : Who)
  /-- MODULE_RESTART_FORCE -/
  | moduleRestartForce (who : Who)
  /-- LEDGER_CLEAR -/
  | ledgerClear (who : Who) (v : Nat)
  /-- FW_CHUNK -/
  | fwChunk (who : Who) (bytes : List Byte)
  /-- FW_VERIFY -/
  | fwVerify (who : Who) (sigKey : Option (List Byte))
  /-- FW_COMMIT -/
  | fwCommit (who : Who)
  /-- FW_COMMIT_END -/
  | fwCommitEnd (ok : Bool)
  /-- FW_ACTIVATE -/
  | fwActivate (who : Who)
  /-- FW_DROP -/
  | fwDrop (who : Who)
  /-- RECOVERY_COMMAND -/
  | recoveryCommand (cmd : Nat) (sigKey : Option (List Byte)) (programmed : Bool)
  /-- DOMAIN_ON_REQUEST -/
  | domainOnRequest (who : Who) (d : Nat)
  /-- DOMAIN_RETENTION_REQUEST -/
  | domainRetentionRequest (who : Who) (d : Nat)
  /-- DOMAIN_OFF_REQUEST -/
  | domainOffRequest (who : Who) (d : Nat)
  /-- DOMAIN_ENTRY_END -/
  | domainEntryEnd (d : Nat)
  /-- DOMAIN_WAKE_END -/
  | domainWakeEnd (d : Nat)
  /-- PAD_RELEASE -/
  | padRelease (who : Who) (d : Nat)
  /-- POWER_CAP_WRITE -/
  | powerCapWrite (who : Who) (v : Nat)
  /-- AIRFLOW_WRITE -/
  | airflowWrite (who : Who) (v : Nat)
  /-- POWER_GUARD -/
  | powerGuard (draw : Nat)
  /-- ARRAY_DUTY_ADJUST -/
  | arrayDutyAdjust (draw : Nat)
  /-- THERMAL_SAMPLE -/
  | thermalSample (temps : List Nat) (t : Nat)
  /-- INLET_SAMPLE -/
  | inletSample (temp : Nat) (t : Nat)
  /-- INLET_CAP_RISE -/
  | inletCapRise (t : Nat)
  /-- VIN_START -/
  | vinStart (v : Nat) (t : Nat)
  /-- VIN_LOSS -/
  | vinLoss (v : Nat) (t : Nat)
  /-- PPS_EDGE -/
  | ppsEdge (t : Nat)
  /-- TOD_FRAME -/
  | todFrame (bytes : List Byte) (t : Nat)
  /-- PPS_MISSING -/
  | ppsMissing (t : Nat)
  /-- OSFP_PRESENT -/
  | osfpPresent (c : Nat) (t : Nat)
  /-- OSFP_LOW_POWER_RELEASE -/
  | osfpLowPowerRelease (c : Nat) (t : Nat)
  /-- CONTROL_STATE_ERROR -/
  | controlStateError (f : CtrlFault)
  /-- VOSFP_LOSS -/
  | vosfpLoss
  /-- VOSFP_RETURN -/
  | vosfpReturn
  /-- OSFP_PRESENCE_DEASSERT -/
  | osfpPresenceDeassert (c : Nat)
  /-- QUEUE_DESCRIPTOR_WRITE -/
  | queueDescriptorWrite (q : Nat) (off : Nat) (bytes : List Byte)
  /-- ENTRY_ABANDONED -/
  | entryAbandoned (d : Nat)
  deriving DecidableEq, Repr

end Sys2Proof
end

