-- ==== Sys2Proof/Machine/Tab.lean ====
section
/-! DEFINITION. Reading and writing the sparse tables of the state: `tget` answers the default for an absent key and
`tset` keeps rising keys and drops entries equal to the default. -/

namespace Sys2Proof.Machine

/-- The value of key `k`. -/
def tget {α : Type} (d : α) : Tab α → Nat → α
  | [], _ => d
  | (i, v) :: r, k => if i = k then v else tget d r k

/-- The table without key `k`. -/
def tdel {α : Type} : Tab α → Nat → Tab α
  | [], _ => []
  | (i, v) :: r, k => if i = k then tdel r k else (i, v) :: tdel r k

/-- The table with key `k` at `v`, in the place that rising keys give it. -/
def tins {α : Type} : Tab α → Nat → α → Tab α
  | [], k, v => [(k, v)]
  | (i, w) :: r, k, v => if i = k then (k, v) :: r else if k < i then (k, v) :: (i, w) :: r else (i, w) :: tins r k v

/-- Writes `v` at key `k`; a value equal to the default removes the entry. -/
def tset {α : Type} [DecidableEq α] (d : α) (t : Tab α) (k : Nat) (v : α) : Tab α :=
  if v = d then tdel t k else tins t k v

/-- Changes the value at key `k` by `f`. -/
def tmod {α : Type} [DecidableEq α] (d : α) (t : Tab α) (k : Nat) (f : α → α) : Tab α := tset d t k (f (tget d t k))

/-- Rising keys, all above `lo`, and no entry that `bad` rejects. -/
def tabWf {α : Type} (bad : Nat → α → Bool) : Option Nat → Tab α → Bool
  | _, [] => true
  | none, (k, v) :: r => !bad k v && tabWf bad (some k) r
  | some lo, (k, v) :: r => decide (lo < k) && !bad k v && tabWf bad (some k) r

/-- Whether a sorted list of numbers holds `k`. -/
def setHas (l : List Nat) (k : Nat) : Bool := l.contains k

/-- A sorted list of numbers with `k` added. -/
def setAdd : List Nat → Nat → List Nat
  | [], k => [k]
  | i :: r, k => if i = k then i :: r else if k < i then k :: i :: r else i :: setAdd r k

/-- A list of numbers with `k` removed. -/
def setDel (l : List Nat) (k : Nat) : List Nat := l.filter (· ≠ k)

/-- Replaces element `i` of a list, if it exists. -/
def lset {α : Type} : List α → Nat → α → List α
  | [], _, _ => []
  | _ :: r, 0, v => v :: r
  | a :: r, i + 1, v => a :: lset r i v

/-- Element `i` of a list, or the default. -/
def lget {α : Type} (d : α) : List α → Nat → α
  | [], _ => d
  | a :: _, 0 => a
  | _ :: r, i + 1 => lget d r i

/-- Applies `f` to 0, 1, …, n − 1 in turn. -/
def upto {α : Type} (n : Nat) (f : Nat → α → α) (a : α) : α := (List.range n).foldl (fun a i => f i a) a

/-- `n` divided by `d`, rounded up. -/
def ceilDiv (n d : Nat) : Nat := (n + d - 1) / d

/-- The set bits of `v` below `n`, in rising order. -/
def bitList (n v : Nat) : List Nat := (List.range n).filter (fun i => v.testBit i)

/-- `v` with bit `i` set. -/
def bitSet (v i : Nat) : Nat := v ||| 2 ^ i

/-- `v` with bit `i` clear. -/
def bitClr (v i : Nat) : Nat := if v.testBit i then v ^^^ 2 ^ i else v

/-- How many of the `n` lowest bits of `v` are set. -/
def popCount (n v : Nat) : Nat := (bitList n v).length

end Sys2Proof.Machine
end

