-- ==== Sys2Proof/Machine/Num.lean ====
section
/-! DEFINITION. Numbers (02_number_formats): exact values, the element formats, one rounding to a destination, the
functions of the vector unit. A value that no dyadic number spells (a quotient, a root, a power, a logarithm) is held
as a dyadic number far longer than any destination with a last bit that records the remainder, so that the one
rounding that follows rounds the exact value. -/

namespace Sys2Proof.Machine

/-- An exact value: NaN, an infinity, or (−1)^neg · m · 2^e. -/
inductive Val
  | nan
  | inf (neg : Bool)
  | fin (neg : Bool) (m : Nat) (e : Int)
  deriving DecidableEq, Repr

/-- An element format (Table 2 of 02, Table 3 of 03): exponent and fraction widths, bias, the largest finite body, the
infinity's body, the lowest NaN body, the canonical NaN, and whether R48 tests the rounded value. -/
structure Fmt where
  eb : Nat
  mb : Nat
  bias : Nat
  maxBody : Nat
  infBody : Option Nat
  nanFrom : Nat
  nanCode : Nat
  wide : Bool
  deriving DecidableEq, Repr

def fmtFp32 : Fmt := ⟨8, 23, 127, 0x7F7FFFFF, some 0x7F800000, 0x7F800001, 0x7FC00000, true⟩
def fmtBf16 : Fmt := ⟨8, 7, 127, 0x7F7F, some 0x7F80, 0x7F81, 0x7FC0, true⟩
def fmtFp16 : Fmt := ⟨5, 10, 15, 0x7BFF, some 0x7C00, 0x7C01, 0x7E00, true⟩
def fmtE4m3 : Fmt := ⟨4, 3, 7, 0x7E, none, 0x7F, 0x7F, false⟩
def fmtE5m2 : Fmt := ⟨5, 2, 15, 0x7B, some 0x7C, 0x7D, 0x7E, false⟩
def fmtE3m2 : Fmt := ⟨3, 2, 3, 0x1F, none, 0x20, 0x1F, false⟩
def fmtE2m3 : Fmt := ⟨2, 3, 1, 0x1F, none, 0x20, 0x1F, false⟩
def fmtE2m1 : Fmt := ⟨2, 1, 1, 0x7, none, 0x8, 0x7, false⟩
/-- The narrow accumulator's format (R71). -/
def fmtE8m11 : Fmt := ⟨8, 11, 127, 0x7F7FF, some 0x7F800, 0x7F801, 0x7FC00, true⟩

/-- Decodes an encoding (R45, R46). -/
def decodeVal (f : Fmt) (code : Nat) : Val :=
  let neg := code.testBit (f.eb + f.mb)
  let body := code % 2 ^ (f.eb + f.mb)
  if some body = f.infBody then .inf neg
  else if f.nanFrom ≤ body then .nan
  else
    let ex := body / 2 ^ f.mb
    let fr := body % 2 ^ f.mb
    if ex = 0 then .fin neg fr (1 - (f.bias : Int) - f.mb)
    else .fin neg (fr + 2 ^ f.mb) ((ex : Int) - f.bias - f.mb)

/-- Numerator and denominator of m · 2^e. -/
def dyadic (m : Nat) (e : Int) : Nat × Nat :=
  if 0 ≤ e then (m * 2 ^ e.toNat, 1) else (m, 2 ^ (-e).toNat)

/-- floor(log2(n / d)) for positive n and d. -/
def floorLog2 (n d : Nat) : Int :=
  let l : Int := (n.log2 : Int) - d.log2
  let ok := if 0 ≤ l then decide (d * 2 ^ l.toNat ≤ n) else decide (d ≤ n * 2 ^ (-l).toNat)
  if ok then l else l - 1

/-- n / d rounded to the nearest integer, ties to even (R58). -/
def rneDiv (n d : Nat) : Nat :=
  let q := n / d
  let r := n % d
  if d < 2 * r ∨ (2 * r = d ∧ q % 2 = 1) then q + 1 else q

/-- The body that RNE gives n / d with unbounded exponent range above (R41, R58). -/
def roundBody (f : Fmt) (n d : Nat) : Nat :=
  if n = 0 then 0
  else
    let emin : Int := 1 - (f.bias : Int)
    let e := max (floorLog2 n d) emin
    let sh := (f.mb : Int) - e
    let r := if 0 ≤ sh then rneDiv (n * 2 ^ sh.toNat) d else rneDiv n (d * 2 ^ (-sh).toNat)
    (e - emin).toNat * 2 ^ f.mb + r

/-- The value of a body as a fraction. -/
def bodyFrac (f : Fmt) (body : Nat) : Nat × Nat :=
  match decodeVal f body with
  | .fin _ m e => dyadic m e
  | _ => (0, 1)

/-- The result of encoding one value: the code, a finite overflow (R48), a non-finite result or source (R112), a
non-zero finite value that became zero (R112). -/
structure Enc where
  code : Nat
  ovf : Bool
  nonfin : Bool
  zeroed : Bool
  deriving DecidableEq, Repr

/-- Sets the sign bit of a body. -/
def signed (f : Fmt) (neg : Bool) (body : Nat) : Nat := if neg then body + 2 ^ (f.eb + f.mb) else body

/-- Encodes an exact value (R40, R41, R43, R44, R46, R48, Table 4). -/
def encodeVal (f : Fmt) : Val → Enc
  | .nan => ⟨f.nanCode, false, true, false⟩
  | .inf neg =>
    match f.infBody with
    | some b => ⟨signed f neg b, false, true, false⟩
    | none => ⟨f.nanCode, false, true, false⟩
  | .fin neg m e =>
    let (n, d) := dyadic m e
    let body := roundBody f n d
    let (mn, md) := bodyFrac f f.maxBody
    if f.wide then
      if f.maxBody < body then ⟨signed f neg (f.infBody.getD f.maxBody), true, true, false⟩
      else ⟨signed f neg body, false, false, decide (m ≠ 0 ∧ body = 0)⟩
    else if mn * d < n * md then ⟨signed f neg f.maxBody, true, false, false⟩
    else ⟨signed f neg body, false, false, decide (m ≠ 0 ∧ body = 0)⟩

/-- A value rounded to a format. -/
def roundVal (f : Fmt) (v : Val) : Val := decodeVal f (encodeVal f v).code

/-- The integer that RNE gives a finite value, by sign and magnitude. -/
def rneInt (neg : Bool) (m : Nat) (e : Int) : Int :=
  let (n, d) := dyadic m e
  let q := rneDiv n d
  if neg then -(q : Int) else q

/-- Converts to a two's-complement integer of `w` bits with saturation (R47, R76): the integer, whether it saturated,
whether the source was not finite. -/
def toIntSat (w : Nat) : Val → Int × Bool × Bool
  | .nan => (0, false, true)
  | .inf neg => (if neg then -(2 ^ (w - 1) : Int) else 2 ^ (w - 1) - 1, true, true)
  | .fin neg m e =>
    let i := rneInt neg m e
    if (2 ^ (w - 1) - 1 : Int) < i then (2 ^ (w - 1) - 1, true, false)
    else if i < -(2 ^ (w - 1) : Int) then (-(2 ^ (w - 1)), true, false)
    else (i, false, false)

/-- An integer as a value. -/
def ofInt (i : Int) : Val := .fin (decide (i < 0)) i.natAbs 0

/-- Two's complement of `w` bits. -/
def intCode (w : Nat) (i : Int) : Nat := (i % (2 ^ w : Int)).toNat

/-- The integer that a two's-complement code of `w` bits spells. -/
def codeInt (w c : Nat) : Int := if 2 ^ (w - 1) ≤ c % 2 ^ w then (c % 2 ^ w : Nat) - (2 ^ w : Int) else (c % 2 ^ w : Nat)

/-- Encodes into INT8 (R47). -/
def encodeInt8 (v : Val) : Enc :=
  let (i, _, nf) := toIntSat 8 v
  let zero := match v with
    | .fin _ m _ => decide (m ≠ 0 ∧ i = 0)
    | _ => false
  ⟨intCode 8 i, false, nf, zero⟩

def Val.neg : Val → Val
  | .nan => .nan
  | .inf s => .inf (!s)
  | .fin s m e => .fin (!s) m e

def Val.abs : Val → Val
  | .nan => .nan
  | .inf _ => .inf false
  | .fin _ m e => .fin false m e

def Val.isFin : Val → Bool
  | .fin _ _ _ => true
  | _ => false

def Val.isNan : Val → Bool
  | .nan => true
  | _ => false

def Val.isZero : Val → Bool
  | .fin _ 0 _ => true
  | _ => false

/-- Exact product (R44). -/
def Val.mul : Val → Val → Val
  | .fin s m e, .fin t n f => .fin (s != t) (m * n) (e + f)
  | .inf s, .inf t => .inf (s != t)
  | .inf s, .fin t n _ => if n = 0 then .nan else .inf (s != t)
  | .fin s m _, .inf t => if m = 0 then .nan else .inf (s != t)
  | _, _ => .nan

/-- Exact sum; an exact zero sum of opposite signs is +0 (R43), +∞ and −∞ give NaN (R74). -/
def Val.add : Val → Val → Val
  | .fin s m e, .fin t n f =>
    let g := min e f
    let a : Int := (m : Int) * 2 ^ (e - g).toNat
    let b : Int := (n : Int) * 2 ^ (f - g).toNat
    let r := (if s then -a else a) + (if t then -b else b)
    if r = 0 then .fin (s && t) 0 0 else .fin (decide (r < 0)) r.natAbs g
  | .inf s, .inf t => if s = t then .inf s else .nan
  | .inf s, .fin _ _ _ => .inf s
  | .fin _ _ _, .inf t => .inf t
  | _, _ => .nan

def Val.sub (a b : Val) : Val := a.add b.neg

/-- A strict order on values; false for NaN. +0 and −0 are equal. -/
def Val.lt : Val → Val → Bool
  | .fin s m e, .fin t n f =>
    let g := min e f
    let a : Int := (m : Int) * 2 ^ (e - g).toNat
    let b : Int := (n : Int) * 2 ^ (f - g).toNat
    decide ((if s then -a else a) < (if t then -b else b))
  | .inf s, .inf t => s && !t
  | .inf s, .fin _ _ _ => s
  | .fin _ _ _, .inf t => !t
  | _, _ => false

def Val.eqv (a b : Val) : Bool := !a.isNan && !b.isNan && !a.lt b && !b.lt a

/-- The larger value, +0 above −0, NaN when either is NaN (R84). -/
def Val.max (a b : Val) : Val :=
  if a.isNan || b.isNan then .nan
  else if a.lt b then b
  else if b.lt a then a
  else match a, b with
    | .fin true 0 _, b => b
    | a, _ => a

/-- The smaller value, NaN when either is NaN. -/
def Val.min (a b : Val) : Val := (a.neg.max b.neg).neg

/-- m · 2^e with a bit below the last that says whether the exact value lies above. -/
def sticky (neg : Bool) (q : Nat) (exact : Bool) (e : Int) : Val :=
  .fin neg (if exact then 2 * q else 2 * q + 1) (e - 1)

/-- Exact quotient as a sticky dyadic; x / 0 and the infinities as IEEE 754. -/
def Val.div : Val → Val → Val
  | .fin s m e, .fin t n f =>
    if n = 0 then (if m = 0 then .nan else .inf (s != t))
    else
      let sh := 64 + n.log2
      let a := m * 2 ^ sh
      sticky (s != t) (a / n) (a % n = 0) (e - f - sh)
  | .inf s, .fin t _ _ => .inf (s != t)
  | .fin s _ _, .inf t => .fin (s != t) 0 0
  | _, _ => .nan

/-- Bit-by-bit integer square root: bits i − 1 … 0 still to be tried. -/
def isqrtGo (n : Nat) : Nat → Nat → Nat
  | 0, r => r
  | i + 1, r => isqrtGo n i (if (r + 2 ^ i) * (r + 2 ^ i) ≤ n then r + 2 ^ i else r)

/-- floor(sqrt n). -/
def isqrt (n : Nat) : Nat := isqrtGo n (n.log2 / 2 + 1) 0

/-- Square root. -/
def Val.sqrt : Val → Val
  | .nan => .nan
  | .inf s => if s then .nan else .inf false
  | .fin s m e =>
    if m = 0 then .fin s 0 e
    else if s then .nan
    else
      let (m, e) := if e % 2 = 0 then (m, e) else (2 * m, e - 1)
      let n := m * 2 ^ 128
      let r := isqrt n
      sticky false r (r * r = n) (e / 2 - 64)

/-- Reciprocal square root: ±0 gives ±∞. -/
def Val.rsqrt : Val → Val
  | .nan => .nan
  | .inf s => if s then .nan else .fin false 0 0
  | .fin s m e =>
    if m = 0 then .inf s
    else if s then .nan
    else
      let (m, e) := if e % 2 = 0 then (m, e) else (2 * m, e - 1)
      let p := 64 + m.log2
      let r := isqrt (2 ^ (2 * p) / m)
      sticky false r (r * r * m = 2 ^ (2 * p)) (-(e / 2) - p)

/-- Reciprocal. -/
def Val.rcp (v : Val) : Val := Val.div (.fin false 1 0) v

/-- ln 2 in units of 2^−256. -/
def ln2Fixed : Nat := 0xb17217f7d1cf79abc9e3b39803f2f6af40f343267298b62d8a0d175b8baafa2b

/-- 2^256 · exp(z / 2^256) by its series, from term k down. -/
def expGo (z : Nat) : Nat → Nat → Nat
  | 0, acc => acc
  | k + 1, acc => expGo z k (2 ^ 256 + z * acc / 2 ^ 256 / (k + 1))

/-- 2 to an exact power (R84: one rounding, from the exact argument). -/
def Val.exp2 : Val → Val
  | .nan => .nan
  | .inf s => if s then .fin false 0 0 else .inf false
  | .fin s m e =>
    if m = 0 then .fin false 1 0
    else
      let (n, d) := dyadic m e
      if 4096 ≤ n / d then (if s then .fin false 1 (-4096) else .fin false 1 4096)
      else
        let a : Int := if s then -(n : Int) else n
        let i := a.fdiv d
        let f := (a.fmod d).toNat
        if f = 0 then .fin false 1 i
        else
          let z := f * ln2Fixed / d
          sticky false (expGo z 64 (2 ^ 256)) false (i - 256)

/-- Bits of the logarithm of y / 2^512 in [1, 2), by repeated squaring. -/
def log2Go : Nat → Nat → Nat → Nat
  | 0, _, acc => acc
  | k + 1, y, acc =>
    let y := y * y / 2 ^ 512
    if 2 ^ 513 ≤ y then log2Go k (y / 2) (2 * acc + 1) else log2Go k y (2 * acc)

/-- Logarithm to base 2: ±0 gives −∞, a negative value NaN. -/
def Val.log2 : Val → Val
  | .nan => .nan
  | .inf s => if s then .nan else .inf false
  | .fin s m e =>
    if m = 0 then .inf true
    else if s then .nan
    else
      let l := m.log2
      let k : Int := e + l
      if m = 2 ^ l then ofInt k
      else
        let fr := log2Go 200 (m * 2 ^ 512 / 2 ^ l) 0
        let v : Int := (k * 2 ^ 200 + fr) * 2 + 1
        .fin (decide (v < 0)) v.natAbs (-201)

/-- floor(log2 |x|) of a finite non-zero value. -/
def Val.expo : Val → Int
  | .fin _ m e => e + m.log2
  | _ => 0

/-- FP32 helpers: a register or memory word as a value and back. -/
def v32 (w : Nat) : Val := decodeVal fmtFp32 (w % 2 ^ 32)
def c32 (v : Val) : Nat := (encodeVal fmtFp32 v).code
def r32 (v : Val) : Val := roundVal fmtFp32 v

/-- The BF16 truncation of a finite FP32 value (R62): sign, exponent and the top 7 fraction bits. -/
def bf16Trunc (v : Val) : Val := decodeVal fmtFp32 ((c32 v / 2 ^ 16) * 2 ^ 16)

/-- Pieces of an FP32 value (R62): where nothing is left the exact difference is +0. -/
def splitPieces (v : Val) : List Val :=
  match v with
  | .fin _ _ _ =>
    let p0 := bf16Trunc v
    let r1 := v.sub p0
    let p1 := bf16Trunc r1
    let r2 := r1.sub p1
    [p0, p1, bf16Trunc r2]
  | v => [roundVal fmtBf16 v, .fin false 0 0, .fin false 0 0]

/-! ### Format codes (Table 1 of 02) -/

/-- Codes 0x6 to 0xB hold block scales (R39, R51). -/
def isBlockFmt (c : Nat) : Bool := 6 ≤ c && c ≤ 11

/-- The element format of a code; INT8 (0x5) has none of these. -/
def elemFmt (c : Nat) : Fmt :=
  match c with
  | 0 => fmtFp32 | 1 => fmtBf16 | 2 => fmtFp16 | 3 => fmtE4m3 | 4 => fmtE5m2
  | 6 => fmtE4m3 | 7 => fmtE5m2 | 8 => fmtE3m2 | 9 => fmtE2m3 | 10 => fmtE2m1 | 11 => fmtE2m1
  | _ => fmtFp32

/-- Bytes of one element of an unscaled format. -/
def elemBytes (c : Nat) : Nat :=
  match c with
  | 0 => 4 | 1 => 2 | 2 => 2 | _ => 1

/-- Bytes of one element block (Table 5 of 02). -/
def blockBytes (c : Nat) : Nat :=
  match c with
  | 6 => 32 | 7 => 32 | 8 => 24 | 9 => 24 | 10 => 16 | 11 => 16 | _ => 1

/-- Bytes of one scale entry (Table 5 of 02). -/
def scaleBytes (c : Nat) : Nat := if c = 11 then 2 else 1

/-- Bytes that `n` packed elements take (R52, R134: S(0)). -/
def rowBytes (c n : Nat) : Nat := if isBlockFmt c then ceilDiv n 32 * blockBytes c else n * elemBytes c

/-- Encodes into an unscaled format. -/
def encodeElem (c : Nat) (v : Val) : Enc := if c = 5 then encodeInt8 v else encodeVal (elemFmt c) v

/-- Decodes from an unscaled format. -/
def decodeElem (c code : Nat) : Val := if c = 5 then ofInt (codeInt 8 code) else decodeVal (elemFmt c) code

/-- Bits of one element of a block-scaled format inside its block (Table 5 of 02). -/
def elemBits (c : Nat) : Nat :=
  match c with
  | 6 => 8 | 7 => 8 | 8 => 6 | 9 => 6 | _ => 4

/-- Element i of a block read as one little-endian number: every packing of Table 5 puts it at bit i · width. -/
def blockElem (c blk i : Nat) : Nat := bits blk (i * elemBits c) (elemBits c)

/-- A block with element i replaced. -/
def setBlockElem (c blk i v : Nat) : Nat :=
  blk - blockElem c blk i * 2 ^ (i * elemBits c) + (v % 2 ^ elemBits c) * 2 ^ (i * elemBits c)

/-- 2^(e − 127) times a value (R51). -/
def scaleBy (e : Nat) (v : Val) : Val := v.mul (.fin false 1 ((e : Int) - 127))

/-- A value divided by 2^(e − 127). -/
def unscaleBy (e : Nat) (v : Val) : Val := v.mul (.fin false 1 (127 - (e : Int)))

/-- Offset of sub-block j in an HS4 scale word (R55). -/
def hs4Off (word j : Nat) : Nat := bits word (8 + 2 * j) 2

/-- Element i of a block under its scale entry (R52, R56). -/
def decodeBlockElem (c blk scale i : Nat) : Val :=
  let e := scale % 256
  if e = 255 then .nan
  else
    let v := scaleBy e (decodeVal (elemFmt c) (blockElem c blk i))
    if c = 11 then v.mul (.fin false 1 (-(hs4Off scale (i / 8) : Int))) else v

/-- Largest finite value of the element format as a value. -/
def elemMax (c : Nat) : Val := decodeVal (elemFmt c) (elemFmt c).maxBody

/-- The fresh scale for a block whose largest finite magnitude is `amax` (R54). -/
def freshScale (c : Nat) (amax : Val) : Nat :=
  match amax with
  | .fin _ m e =>
    if m = 0 then 0x7F
    else
      match elemMax c with
      | .fin _ mm me =>
        let (n, d) := dyadic (m * 1) (e - me)
        let d := d * mm
        let l := floorLog2 n d
        let pow := if 0 ≤ l then decide (n = d * 2 ^ l.toNat) else decide (n * 2 ^ (-l).toNat = d)
        let c := (if pow then l else l + 1) + 127
        if c < 0 then 0 else if 254 < c then 254 else c.toNat
      | _ => 0x7F
  | _ => 0x7F

/-- The HS4 offset for a sub-block under scale e (R57 steps 3 to 5). -/
def hs4Offset (e : Nat) (amax : Val) : Nat :=
  if amax.isZero then 3
  else
    let lim : Val := .fin false 6 ((e : Int) - 127)
    let fits (o : Nat) : Bool := !lim.lt (amax.mul (.fin false 1 o))
    if fits 3 then 3 else if fits 2 then 2 else if fits 1 then 1 else 0

end Sys2Proof.Machine
end

