-- ==== Sys2Proof/Machine/StateParts.lean ====
section
/-! DEFINITION. The parts of the state, chapter by chapter: plain records, no meaning. -/

namespace Sys2Proof.Machine

/-! ### Memory (07) -/

/-- Bytes of the device address space, poisoned 64-byte lines by line number, poisoned far-tier chunks of 2 KiB by chunk
number (R220, R221), the lines that the read under way cannot read (R219; none between commands), and how many scrubs each
far-tier granule has had (the model's own number: it names the free values of R217). -/
structure MemSt where
  cells : List Host.Cell
  poison : List Nat
  unread : List Nat
  farPoison : List Nat
  farGen : Tab Nat
  deriving DecidableEq, Repr

/-- A granule or consist that has left a grant and is not yet free (R216, R421): its tier (0 near, 1 far, 2 staging, 3 depot,
4 a consist), number, the partition that it leaves with its reset pending (255 none), whether its scrub runs. -/
structure Leaving where
  tier : Nat
  no : Nat
  part : Nat
  running : Bool
  deriving DecidableEq, Repr

/-- What a read of memory finds beside the bytes, module-wide (07): channel failures in 1 s (R213), patrol position per
tier (R223), granules and consists that have left a grant and are not yet free (R216). -/
structure MemHealth where
  channelReads : Tab (List Nat)
  patrolNear : Nat
  patrolFar : Nat
  leaving : List Leaving
  deriving DecidableEq, Repr

/-! ### Programs (05) -/

/-- A noun resolved at broadcast (R128): the effective base and scale pointer of R135 stand in `n`; `map` is the
effective address of the block state map. -/
structure RNoun where
  handle : Nat
  n : Noun
  map : Nat
  deriving DecidableEq, Repr

/-- A noun-table entry (R133): the noun, its dirty bit, the operation that `scale_adjust` recorded with the number of its verb in
the consist's stream (R106), whether its commit walk is still to be done (R103). -/
structure NounEntry where
  noun : Noun
  dirty : Bool
  op : Option (ScaleOp × Nat)
  walk : Bool
  deriving DecidableEq, Repr

/-- What a stream verb's core part still has to do (R246, R247): blocks not yet ended, the first failing block in list
order with its status, whether a receiver was uncoupled, entries that failed. -/
structure StreamPart where
  left : Nat
  fail : Option (Nat × Status)
  uncoupled : Bool
  badEntries : List Nat
  deriving DecidableEq, Repr

/-- A broadcast verb until its token is posted: its position in the expanded stream, class code of Table 1, queue, the
verb with its resolved nouns and loop indices (R128, R131), its awaited tokens as (semaphore, sequence) (R155), post,
bank masks, the cores that have issued it, the parts' statuses, its stream parts, the tick in which its queue began to
wait on it (R191), the first error token found (R145, Table 5), whether its awaited tokens have been judged (R145), and
the messages that a collective awaits on receive semaphores (R375), and what a collective does next: 0 nothing, 1 its
gather, 2 its last local work, 3 it waits for a free buffer (R307); and what the error correction finds on the lines it reads. -/
structure VEntry where
  vi : Nat
  cls : Nat
  queue : Nat
  verb : Verb
  nouns : List RNoun
  loopIx : List Nat
  waits : List (Nat × Nat)
  post : Option Nat
  rmask : Nat
  wmask : Nat
  issued : Nat
  parts : List (Option Status)
  streams : List StreamPart
  since : Option Nat
  origin : Option (Nat × Nat)
  judged : Bool
  recv : List (Nat × Nat)
  phase : Nat
  ecc : Ecc
  deriving DecidableEq, Repr

/-- Program states (R124). -/
inductive PState
  | idle | running | stopped
  deriving DecidableEq, Repr

/-- The loaded program of a consist (R123), with the noun table that a restart reloads. -/
structure Program where
  stream : List StreamItem
  kernels : List (List VInstr)
  segments : List (List VerbIn)
  nouns : List (Nat × Noun)
  deriving DecidableEq, Repr

/-- An open loop level (R152): count, index, the position of the verb after its `loop_begin`. -/
structure LoopLevel where
  count : Nat
  index : Nat
  start : Nat
  deriving DecidableEq, Repr

/-- Why the broadcast stands still: a full queue and the tick since when (R126, R191), a control verb's awaited tokens (R127), a `slot_mark` (R177,
with slot number, target and, once the slot before it has completed, the start boundary S), a tick boundary that must pass first (R410, R521). -/
inductive Hold
  | queue (q since : Nat)
  | control (waits : List (Nat × Nat)) (since : Option Nat)
  | slot (number target : Nat) (start : Option Nat)
  | boundary
  deriving DecidableEq, Repr

/-- The slot that runs (R179, R180). -/
structure SlotRun where
  number : Nat
  target : Nat
  start : Nat
  deriving DecidableEq, Repr

/-- An entry of the siding (R309, R310): the segment, its queue, cost, noun handles, scalars, captured loop indices,
awaited tokens, post, the number of its `siding_park` in the stream, and, once its tokens have arrived, the first error among them
(R145). -/
structure SidingEntry where
  segment : Nat
  queue : Nat
  cost : Nat
  nouns : List Nat
  scalars : List Scalar
  loopIx : List Nat
  waits : List (Nat × Nat)
  post : Option Nat
  vi : Nat
  judged : Option (Option (Nat × Nat))
  deriving DecidableEq, Repr

/-- A siding entry that runs (R312): the verbs not yet broadcast, the numbers of those broadcast and not completed, the
status gathered, and whether a drain started it. -/
structure SidingRun where
  entry : SidingEntry
  rest : List VerbIn
  out : List Nat
  status : Nat
  drain : Bool
  deriving DecidableEq, Repr

/-- A step mark (R520). -/
structure StepMark where
  pos : Nat
  vi : Nat
  loops : List LoopLevel
  slots : Tab Nat
  nouns : Tab (Option Noun)
  deriving DecidableEq, Repr

/-- A consist (05, 06, 11). `ahead` are the verbs of the stream that a held broadcast has not reached; `ending` says
that `halt` or the stream's end has been reached; `afterVote` is the position and index of the verb after the latest
`step_vote` (R520); `sidingRuns` are the siding entries that run, and `draining` the `siding_drain` that holds the
broadcast, its number in the stream, and its status so far; `stall` is the full queue on which a siding entry's verb has stopped
the broadcast, and since when (R126), `judged` the first error among a held control verb's tokens, once they have arrived (R145), `gathered` the
buffers, by their addresses, that are held from a `gather_layer`'s token to a `drop_layer`'s (R304). -/
structure Consist where
  pstate : PState
  prog : Option Program
  nouns : Tab (Option NounEntry)
  slots : Tab Nat
  loops : List LoopLevel
  pos : Nat
  vi : Nat
  verbs : List VEntry
  ahead : List VerbIn
  hold : Option Hold
  faultSerial : Nat
  slotSerial : Nat
  lockSerial : Nat
  anchor : Option Nat
  slot : Option SlotRun
  mark : Option StepMark
  siding : List SidingEntry
  draining : Option (VerbIn × Nat)
  drainStatus : Nat
  ending : Bool
  afterVote : Option (Nat × Nat)
  sidingRuns : List SidingRun
  stall : Option (Nat × Nat)
  judged : Option (Option (Nat × Nat))
  gathered : List Nat
  deriving DecidableEq, Repr

/-! ### Semaphores (06) -/

/-- A semaphore slot (R138, R183, Table 5). The token's own index is the table's key. `awaited` is the model's own count
of the messages that collectives have awaited on it since its reset. -/
structure Sem where
  status : Nat
  producer : Nat
  seq : Nat
  setter : Nat
  part : Nat
  kind : Nat
  expected : Nat
  arrivals : Nat
  round : Nat
  lastTick : Nat
  awaited : Nat
  deriving DecidableEq, Repr

/-- What a step mark keeps of a semaphore (R520). -/
structure SemMark where
  status : Nat
  producer : Nat
  seq : Nat
  arrivals : Nat
  round : Nat
  deriving DecidableEq, Repr

/-! ### Time (06, 12, 20) -/

/-- Module time and the tick (R166 to R175, R345, R537). `offset` is module time minus the time of the commands; `rebased` says that a
change of period has rebased the epoch since it was last written, so that it names no moment to wait for (R169); `lastSync` is the
time of the master's latest Sync with its interval, `measured` that of the latest whole measurement with its t2 − t1, `lastPps` that
of the latest edge of the reference input. -/
structure TimeSt where
  offset : Int
  tick : Nat
  change : Option Nat
  rebased : Bool
  overRun : Nat
  withinSince : Option Nat
  pendingStep : Option Int
  resumePaths : Bool
  master : Option (Nat × Nat)
  announces : Tab Nat
  twoStep : Option (Nat × Int)
  lastSync : Option (Nat × Nat)
  measured : Option (Nat × Int)
  delayReq : Option (Nat × Nat)
  pathDelay : Int
  filtered : Int
  ppsSecond : Option Nat
  todPending : Option Nat
  ppsMissed : Nat
  lastPps : Option Nat
  deriving DecidableEq, Repr

/-! ### Porters (08) -/

/-- A place a block reads or writes (R230). -/
inductive Endpoint
  | dev (addr : Nat)
  | depot (block : Nat)
  | castStaging (off : Nat)
  | castScratch (off : Nat)
  deriving DecidableEq, Repr

/-- What a block moves: bytes of a list entry, or elements of a noun-form run (first dst element, in the order of the
core's selection, and count). -/
inductive BlockBody
  | raw (src dst : Endpoint) (len : Nat) (add : Bool) (addType : Nat)
  | elems (src dst : RNoun) (idxs : List (List Nat)) (add : Bool)
  deriving DecidableEq, Repr

/-- A block (R233 to R246): its consist, verb, core, place in the core's list, list entry, body, class, the receivers it
goes to (empty for unicast), the signal its completion arrives at, the receiver it is refetched for (R241), the consist
under which its die's pool serves it, the status of the checks made on its descriptor (R231), and whether its consist has since
begun another program, so that its end is no part's (R124, R141). -/
structure Block where
  consist : Nat
  vi : Nat
  core : Nat
  order : Nat
  entry : Nat
  body : BlockBody
  back : Bool
  cast : List Nat
  arrive : Option Nat
  refetch : Option Nat
  sched : Nat
  bad : Status
  stale : Bool
  deriving DecidableEq, Repr

/-- A block in a porter slot: its number, the bytes or values read (none is poisoned) with the ranges of the bytes that are
poisoned (start and length), its status so far, the receivers that still have to complete it, whether one of them has, whether it
waits for depot space and whether it has waited before (R258), and what the error correction finds on the lines that its writes
read. -/
structure InFlight where
  id : Nat
  block : Block
  bytes : List Byte
  vals : List (Option Val)
  badOffs : List (Nat × Nat)
  status : Status
  todo : List Nat
  wrote : Bool
  waits : Bool
  waited : Bool
  ecc : Ecc
  deriving DecidableEq, Repr

/-- The porters of one die (R233, R234): blocks pending in issue order, the consist served last, dispatches in a row
that background blocks have waited through, blocks in flight, the next block's number. -/
structure Pool where
  pending : List Block
  last : Nat
  backWait : Nat
  flight : List InFlight
  nextId : Nat
  deriving DecidableEq, Repr

/-- A multicast stream (R239 to R242): consist and verb, receivers still coupled, how many boundaries in a row each has
held the stream, receivers uncoupled, and receivers dropped with the status of the write that failed. A receiver is a consist,
or 64 + a die (R238). -/
structure CastStream where
  consist : Nat
  vi : Nat
  coupled : List Nat
  held : Tab Nat
  uncoupled : List Nat
  dropped : List (Nat × Status)
  deriving DecidableEq, Repr

/-! ### Depot (09) -/

/-- The depot (09): bytes by block · 65,536 + offset (an unlisted byte reads 0, R255), blocks written since their granule's
scrub, poisoned blocks (R262), preserved granules with the digest of the key that sealed them (R266), blocks of flash not yet
collected by channel (R258), reads by erase block since it was last written and time of the last write by block (R260), the
erase block that holds each block, relocations in the shadow copy by block, with the erase block of the new copy and the time at
which it is complete (R259), blocks noted for relocation (R261), blocks in porter slots that wait for space as (channel,
die, block), the nanoseconds of background work booked by channel and 1 ms window (R257), and the blocks that the write buffers
hold (R267), oldest first. -/
structure DepotSt where
  cells : List Host.Cell
  mapped : List Nat
  poison : List Nat
  preserved : Tab (List Byte)
  stale : Tab Nat
  reads : Tab Nat
  written : Tab Nat
  place : Tab Nat
  shadow : Tab (Nat × Nat)
  due : List Nat
  waiting : List (Nat × Nat × Nat)
  window : Tab (List (Nat × Nat))
  buffer : List Nat
  deriving DecidableEq, Repr

/-! ### Partitions (10, 11, 12, 13, 15) -/

/-- A grant (R416): bitmaps of consists, near, far, staging (bit 768 · die + q) and depot granules, semaphore blocks of
256, QP blocks of 32, the VLAN and the port map. -/
structure Grant where
  consists : Nat
  near : Nat
  far : Nat
  staging : Nat
  depot : Nat
  sems : Nat
  qps : Nat
  vid : Nat
  portMap : Nat
  deriving DecidableEq, Repr

/-- A vote or decision record (Table 5 of 10). -/
structure VoteRec where
  step : Nat
  anchor : Nat
  rank : Nat
  size : Nat
  kind : Nat
  status : Nat
  outcome : Nat
  round : Nat
  jobTag : Nat
  deriving DecidableEq, Repr

/-- An update command (Table 3 of 10). -/
structure UpdCmd where
  step : Nat
  lr : Nat
  beta1 : Nat
  beta2 : Nat
  epsilon : Nat
  gradMult : Nat
  user2 : Nat
  user3 : Nat
  table : Nat
  first : Nat
  count : Nat
  rule : Nat
  jobTag : Nat
  deriving DecidableEq, Repr

/-- A shard descriptor (Table 1 of 10). -/
structure Shard where
  counter : Nat
  stateBase : Nat
  gradAddr : Nat
  wcAddr : Nat
  wcScale : Nat
  freeze : Nat
  paramBase : Nat
  count : Nat
  layer : Nat
  readySem : Nat
  gradFormat : Nat
  state : Nat
  deriving DecidableEq, Repr

/-- A layer-table entry (Table 2 of 10). -/
structure Layer where
  lrMult : Nat
  decay : Nat
  user0 : Nat
  user1 : Nat
  k : Nat
  wcFormat : Nat
  frozen : Bool
  deriving DecidableEq, Repr

/-- A shard that a command accepted (R279): the command, the descriptor's address and contents, the latched layer entry
(R277), the seed of its step (R284, R296), whether its apply has begun (R293), the groups of 32 parameters that it has done
(R295), and whether a bad line has been met (R294). -/
structure Accepted where
  cmd : UpdCmd
  addr : Nat
  shard : Shard
  layer : Layer
  seed : Nat
  applying : Bool
  done : Nat
  bad : Bool
  deriving DecidableEq, Repr

/-- A post that a receive engine makes later (R364, R524): semaphore, status, producer or arrival count, epoch. -/
structure LatePost where
  sem : Nat
  status : Nat
  port : Nat
  arrive : Option Nat
  epoch : Nat
  deriving DecidableEq, Repr

/-- The step and its commit in one partition (10, 19): whether a step is open, the vote cast, the group of `step_vote`
(rank, size, base semaphore), the leader's votes, round and clock, the decision to be applied, accepted
shards, the update command in hand with the shards decided so far, the verb that handed it over and the commands behind it,
the epoch (R365), posts deferred to a later one (R524), custom rules, layer entries changed (R276), the
`step_vote`s that wait with the addresses of their anchor records, objects written while the step is open that act at the next (R296), attempts
that a leader has rolled back without having decided them: epoch, tick of its vote, votes held (R290, R291), and the status of
an error token that an engine has posted in the open step and the module has still to vote on (R289). -/
structure StepSt where
  isOpen : Bool
  vote : Option VoteRec
  group : Option (Nat × Nat × Nat)
  votes : Tab (Option VoteRec)
  round : Nat
  since : Option Nat
  decision : Option VoteRec
  shards : List Accepted
  cmd : Option UpdCmd
  epoch : Nat
  late : List LatePost
  rules : Tab (List YInstr)
  layersChanged : List Nat
  checked : List (Nat × Status)
  owner : Option (Nat × Nat)
  cmds : List (UpdCmd × (Nat × Nat))
  voters : List (Nat × Nat × Option Nat)
  deferred : Tab (Option OdVal)
  attempts : List (Nat × Nat × Tab (Option VoteRec))
  owed : Option Nat
  deriving DecidableEq, Repr

/-- The watch of one partition (04): writes that wait for the next vote (R121), the loss submitted in this step (R114)
and whether the test of R116 flagged it, the counts of this step (R113). -/
structure WatchSt where
  shadow : Tab (Option OdVal)
  loss : Option Word
  spike : Bool
  nonfinite : Nat
  zeroed : Nat
  overflowed : Nat
  deriving DecidableEq, Repr

/-- A port entry of a peer (Table 5 of 13). -/
structure PeerPort where
  ip : Nat
  nextHop : Nat
  mac : Nat
  localQp : Nat
  remoteQp : Nat
  deriving DecidableEq, Repr

/-- A peer-table entry (Table 4 of 13). -/
structure Peer where
  kind : Nat
  rank : Nat
  sciPort : Nat
  ipVersion : Nat
  udpPort : Nat
  ports : List PeerPort
  kem : List Byte
  deriving DecidableEq, Repr

/-- The latched job map (Table 1 of 11) with its peer table. -/
structure JobMap where
  tag : Nat
  sizeT : Nat
  sizeS : Nat
  sizeD : Nat
  sizeP : Nat
  rank : Nat
  leader : Nat
  phases : Nat
  baseSem : Nat
  peers : List Peer
  deriving DecidableEq, Repr

/-- A window (Table 8 of 13). -/
structure Window where
  base : Nat
  length : Nat
  peers : Nat
  notifySem : Nat
  access : Nat
  notify : Bool
  deriving DecidableEq, Repr

/-- A path entry (Table 6 of 13) with its port. -/
structure PathEnt where
  port : Nat
  start : Nat
  length : Nat
  peer : Nat
  classes : Nat
  tickMod : Nat
  tickRes : Nat
  deriving DecidableEq, Repr

/-- A points change that waits (R317, R319): its call (consist, verb), phase, target boundary. -/
structure PointsReq where
  consist : Nat
  vi : Nat
  phase : Nat
  target : Nat
  deriving DecidableEq, Repr

/-- A partition: committed and shadow grants with the ready mark (R417), the step and its commit, the semaphores' step
mark (R520), the watch, the latched job map (R298), peers quarantined, windows committed, in the shadow copy and released
(R380: number and time), calls that wait for a window swap, paths committed and shadow with the ready phase (R316), points
changes in order, buffers that the next stage has freed (R307: microbatch and buffer), malformed frames by peer with their
times (R376), whether its release waits for its tick boundary (R421). -/
structure Part where
  grant : Option Grant
  shadow : Option Grant
  ready : Bool
  step : StepSt
  semMarks : Tab (Option SemMark)
  watch : WatchSt
  job : Option JobMap
  quarantineClear : Nat
  windows : Tab (Option Window)
  winShadow : Tab (Option Window)
  winReady : Bool
  winReleased : Tab Nat
  winCalls : List (Nat × Nat)
  paths : List PathEnt
  pathShadow : List PathEnt
  pathReady : Option Nat
  points : List PointsReq
  buffers : List (Nat × Nat)
  faulty : Tab (List Nat)
  leaves : Bool
  deriving DecidableEq, Repr

/-! ### Queue pairs and ports (12, 13) -/

/-- A data or control frame that a QP holds at the sender: when it was last sent (none: not yet), whether it waits to be sent again
(R363), retransmissions, the traffic class (0 collectives, 1 pipeline, 2 commit records, 3 other control), its message. -/
structure TxFrame where
  hdr : HrtHdr
  payload : List Byte
  sent : Option Nat
  again : Bool
  retx : Nat
  cls : Nat
  msg : Nat
  deriving DecidableEq, Repr

/-- A message at the sender (R363): frames not yet acknowledged, first refusal, the verb it belongs to. -/
structure TxMsg where
  id : Nat
  left : Nat
  fail : Status
  owner : Option (Nat × Nat)
  deriving DecidableEq, Repr

/-- A message at the receiver (R364): the PSN of its frame 0, indices placed, index of the last frame once known with the
semaphore it posts, whether a frame was poisoned, its epoch. -/
structure RxMsg where
  start : Nat
  got : List Nat
  last : Option Nat
  sem : Option Nat
  poisoned : Bool
  epoch : Nat
  deriving DecidableEq, Repr

/-- A queue pair (R356 to R363, R372, R376). `ackDue` is when the oldest frame not yet acknowledged came (R362); `full` counts the
boundaries in a row at which its window was full, `fullSince` is when the first of them came; `progress` is when the acknowledgements
last progressed or the first frame of those outstanding was sent. -/
structure Qp where
  isOpen : Bool
  part : Nat
  peer : Nat
  remote : Nat
  txPsn : Nat
  frames : List TxFrame
  msgs : List TxMsg
  nextMsg : Nat
  expect : Nat
  seen : List Nat
  sinceAck : Nat
  ackDue : Option Nat
  echo : Bool
  rx : List RxMsg
  cwnd : Nat
  lastCut : Option Nat
  full : Nat
  fullSince : Nat
  slow : Bool
  absent : Bool
  progress : Nat
  deriving DecidableEq, Repr

/-- A frame in a port's transmit buffer (R328): its partition, peer, QP, whether timetabled, its class and length, the
header, the payload, the C-tag with which it was built (R335, R337); whether it has been counted as held for want of packet
numbers (R344); the association and packet number of a frame that was sealed as it was built, since its channel is gone (R376). -/
structure MacFrame where
  part : Nat
  peer : Nat
  qp : Nat
  timetabled : Bool
  cls : Nat
  hdr : HrtHdr
  payload : List Byte
  tag : Nat
  held : Bool
  stamp : Option (Nat × Nat)
  deriving DecidableEq, Repr

/-- A data port (12, 20): transmit buffer, frames of the module that wait for room in it (R328), the end of a received pause, whether the
module's own pause is in force and when it last sent one (R338), of the management port whether its link is down (R347), when the frame
on the wire ends. -/
structure Port where
  txq : List MacFrame
  wait : List MacFrame
  pausedUntil : Option Nat
  pausing : Bool
  lastPause : Nat
  noLink : Bool
  lastEnd : Nat
  deriving DecidableEq, Repr

/-- A receive association of a channel: its AN, the SAK, the lowest acceptable PN. -/
structure RxSa where
  an : Nat
  key : List Byte
  pn : Nat
  deriving DecidableEq, Repr

/-- A secure channel pair (R339 to R344), by (partition · 8 + port) · 64 + peer: transmit AN, key and next PN, the shadow
SA installed, receive associations, the offer outstanding (AN, attempts, the secret, when it was sent), whether keying has failed. -/
structure Chan where
  txAn : Option Nat
  txKey : List Byte
  txPn : Nat
  shadow : Option (Nat × List Byte)
  rx : List RxSa
  offer : Option (Nat × Nat × List Byte × Nat)
  failed : Bool
  deriving DecidableEq, Repr

/-! ### Host link (14) -/

/-- A manifest that has been fetched: its record and, once it has run, the statuses of its parts (with the bit each has in
`result`), its final status, SHAKE256 of the image that it loaded (R431); of a depot write that has begun, the blocks that have ended
and those that have waited for depot space (R258). -/
structure Started where
  seq : Nat
  bytes : List Byte
  parts : Option (List (Nat × Status))
  status : Status
  digest : List Byte
  blocks : List (Nat × Status)
  held : List Nat
  deriving DecidableEq, Repr

/-- A completion record to be written: status, opcode, sequence, tag, detail, result, whether to notify. -/
structure Completion where
  status : Nat
  opcode : Nat
  seq : Nat
  tag : Nat
  detail : Nat
  result : Nat
  irq : Bool
  deriving DecidableEq, Repr

/-- A host queue (Tables 4 and 5 of 14). `retry` is the slot being re-read with the number of re-reads made. -/
structure HQueue where
  sqBase : Nat
  cqBase : Nat
  dataBase : Nat
  dataLength : Nat
  irqAddr : Nat
  irqData : Nat
  seqNext : Nat
  sqOrder : Nat
  cqOrder : Nat
  part : Nat
  reserved : Nat
  events : Bool
  enable : Bool
  state : Nat
  lastError : Nat
  cqWritten : Nat
  seqExpected : Nat
  cqHead : Nat
  sqTail : Nat
  retry : Option Nat
  started : List Started
  waiting : List Completion
  retained : List Completion
  deriving DecidableEq, Repr

/-- A write to host memory that no acknowledgement has reached (R386, R405), with the completion that it makes visible. -/
structure Posted where
  addr : Nat
  bytes : List Byte
  done : Option (Nat × Completion)
  deriving DecidableEq, Repr

/-- An aperture descriptor (Table 3 of 14). -/
structure Aperture where
  base : Nat
  pages : Nat
  part : Nat
  read : Bool
  write : Bool
  enable : Bool
  deriving DecidableEq, Repr

/-- The Brynq link and the hold (R385 to R387, R405 to R413, Table 2 of 14): first error of each link, whether it is
down and degraded, the reset input, the link page, whether the quiesce has begun, whether the host was lost again during
adoption, whether the hold record no longer has its digest (R409), the replay buffer's writes, oldest first (R386), the bytes
of the LMP mailboxes (R457). -/
structure LinkSt where
  error0 : Option Nat
  error1 : Option Nat
  degraded : Nat
  resetLow : Bool
  adoptDigest : List Byte
  adoptEpoch : Nat
  holdDigest : List Byte
  holdEpoch : Nat
  holdEntryTick : Nat
  adoptStatus : Nat
  lossCause : Nat
  quiesced : Bool
  relost : Bool
  recordGone : Bool
  unacked : List Posted
  mail : List Host.Cell
  deriving DecidableEq, Repr

/-! ### Security (15) and management (16) -/

/-- Keys and challenges of a partition: far key, depot key, KEM decapsulation key, all in the key stores (R424). -/
structure PartKeys where
  far : List Byte
  depot : List Byte
  kem : List Byte
  deriving DecidableEq, Repr

/-- The security state of the module: keys by partition, the device keys, the port's instruction and challenge, quotes
signed since start-up and the ends of those outstanding (R433), whether the port locks at the next start-up, whether an erase has still
to release the partitions; what manufacture leaves: the digest of the ROM (R430), the fused fingerprints of the firmware key (R432) and
of the root (R441). -/
structure SecSt where
  keys : Tab (Option PartKeys)
  identity : List Byte
  deviceKem : List Byte
  bookKey : List Byte
  tap : Nat
  tapChallenge : List Byte
  quoteSerial : Nat
  relock : Bool
  release : Bool
  tapOpen : Bool
  quotes : List Nat
  romDigest : List Byte
  firmwareKey : List Byte
  rootKey : List Byte
  deriving DecidableEq, Repr

/-- A management session (R459, R460): role, partition, key, nonces and secret, whether proved, last use, highest
accepted and last sent `frame_seq`, stored responses (R461), snapshots by object with their time (R454). Mailbox m is
kept under number 2^32 + m. -/
structure Session where
  role : Role
  part : Nat
  keyFp : List Byte
  clientNonce : List Byte
  moduleNonce : List Byte
  secret : List Byte
  proved : Bool
  last : Nat
  rxSeq : Nat
  txSeq : Nat
  answers : List (Nat × Nat × List Byte)
  snapshots : List (Nat × Nat × List Byte)
  deriving DecidableEq, Repr

/-- A segmented write that is open (R455): object key, session, octets so far, total, last segment's time. -/
structure SegWrite where
  key : Nat
  session : Nat
  bytes : List Byte
  total : Nat
  t : Nat
  deriving DecidableEq, Repr

/-- The register book and the management plane (16): entries newest first (176 octets each), signatures by serial, the
checkpoints that wait for one, entries since the last checkpoint with its serial and time, sessions, segmented writes, management settings
that wait, each with the time it takes effect and its key. -/
structure BookSt where
  entries : List (List Byte)
  sigs : Tab (List Byte)
  unsigned : List Nat
  since : Nat
  lastCheckpoint : Option Nat
  lastTime : Nat
  sessions : List (Nat × Session)
  nextSession : Nat
  segs : List SegWrite
  settings : List (Nat × Nat × OdVal)
  deriving DecidableEq, Repr

/-! ### Boot, power, physical (17, 18, 20) -/

/-- A step entry of the ledger (Table 5 of 17), with its start in microseconds. -/
structure LedgerEntry where
  startUs : Nat
  us : Nat
  detail : Nat
  step : Nat
  mode : Nat
  status : Nat
  failCount : Nat
  deriving DecidableEq, Repr

/-- Start-up and firmware (17): failure counts by step, watchdog start-ups in a row, ROM recovery with its page and buffer, the
candidate image, the image in flash (none: no startable one), each with the fingerprint of the key that its signature verifies under
(R432), pending `ledger_clear` and `restore_defaults`, a commit in
progress with whether it programs for the second time, what this start-up does without (the depot, a host, the data
ports), whether it found an unclean loss, its step entries, the last step begun of a record whose header is not
stored, and the spare cores of each die that fuses have put in place of others (R30). -/
structure BootSt where
  failCounts : Tab Nat
  watchdogs : Nat
  inRecovery : Bool
  recoveryState : Nat
  recoveryStatus : Nat
  recoveryLength : Nat
  recBuf : Tab Byte
  candLength : Nat
  candChunks : Tab (List Byte)
  candHeader : Option FwHeader
  candDigest : List Byte
  candKey : List Byte
  flash : Option FwHeader
  flashDigest : List Byte
  flashKey : List Byte
  clearLedger : Bool
  restoreDefaults : Bool
  committing : Bool
  commitRetry : Bool
  depotOffline : Bool
  noHost : Bool
  portsOff : Bool
  unclean : Bool
  entries : List LedgerEntry
  openStep : Option Nat
  fuseSpares : Tab Nat
  deriving DecidableEq, Repr

/-- Power and cooling (18, 20): target of an entry in progress and whether a wake event met it, what a wake comes from,
by cap, 1 more than the time since which the inlet has allowed a rise to it, readings at or above 110 °C in a row, the throttle's ceiling
of the clock with the milliseconds since its last rise, `power_cap` in force since the last boundary (R501), whether the
input is up, cages in low power, milliseconds in which the draw has fitted since the duty last rose (R503). -/
structure PowSt where
  entering : Tab Nat
  wakeMet : List Nat
  waking : Tab Nat
  inletCap : Nat
  inletBelow : Tab Nat
  outside : Bool
  hot : Nat
  throttle : Bool
  clock : Nat
  riseMs : Nat
  capNow : Nat
  stopped : Bool
  lowPower : Nat
  cageSince : Tab Nat
  lastMs : Nat
  deriving DecidableEq, Repr

/-! ### What leaves the module -/

/-- What the module sends to its surroundings: dictionary results, LMP answers, host-memory reads and writes, host read data, frames with
their association and packet number and the octets that they begin with (R9, R350), a frame on the wire that ends short (R333),
pauses with their octets (R338), PTP requests with their VLAN and domain, TAP output. -/
inductive Out
  | written (key : Nat) (status : Nat)
  | answer (session request status : Nat) (value : List Byte)
  | hostRead (addr len : Nat)
  | hostWrite (addr : Nat) (bytes : List Byte)
  | hostData (bytes : List Byte) (poison : Bool)
  | frame (port : Nat) (f : MacFrame) (sec : Option (Nat × Nat)) (octets : List Byte)
  | cut (port : Nat)
  | pause (port : Nat) (pfc : Bool) (quanta : Nat) (octets : List Byte)
  | delayReq (port t vid domain : Nat)
  | tap (bytes : List Byte)
  | quote (status : Nat) (bytes : List Byte)
  deriving DecidableEq, Repr

end Sys2Proof.Machine
end

