-- ==== Sys2Proof/Config.lean ====
section
/-! DEFINITION. What the spec leaves open: every constant here is opaque, so nothing can evaluate it and a statement
holds for every value of it. Each is named in a row of notes/assumptions. -/

namespace Sys2Proof.Config

/-- A fresh byte the spec leaves undefined: the n-th that a run draws (host bytes of a failed part, R399). -/
opaque freeByte : Nat → Byte

/-- What a far-tier byte reads as that its owner has not written since the granule's scrub (R217): by the number of
scrubs so far and the address. -/
opaque farUnwritten : Nat → Nat → Byte

/-- An FP32 result of a phrasebook routine whose arithmetic the spec does not state (R159): by routine, by the inputs'
FP32 words in order, by the element's index. -/
opaque routineWord : Nat → List Word → Nat → Word

/-- The octets of a value that the module draws from its random source (keys, challenges, key-agreement records): by a label and the n-th draw. -/
opaque secretOctet : Nat → Nat → Nat → Byte

/-- Octets of an ML-DSA-65 signature in its hedged form (R435, R436, R464, R465): by the private key, the context string, the message, the
n-th draw, the octet's place. -/
opaque signature : List Byte → List Byte → List Byte → Nat → Nat → Byte

/-- Octets of the secret that ML-KEM-768 decapsulates (R427): by the decapsulation key, the ciphertext, the octet's place. -/
opaque kemSecret : List Byte → List Byte → Nat → Byte

/-- The octets in which the hold record holds one consist's program state and queue contents (R407): by the consist's number. -/
opaque consistOctets : Nat → Machine.Consist → List Byte

/-- How many cycles, microseconds or writes an event brings that no command counts: by the counter's key and the n-th
draw. -/
opaque freeCount : Nat → Nat → Nat

/-- The porter that carries a block (R234): by consist, verb, core and place in the core's list. -/
opaque porterOf : Nat → Nat → Nat → Nat → Nat

/-- The erase block, within its channel, in which the translation layer puts the n-th block that it writes (R251, R260). -/
opaque erasePlace : Nat → Nat

/-- The tick from which a consist that has never written an anchor counts its offsets (R179). -/
opaque noAnchor : Nat → Nat

/-- Bytes of the management port's receive buffer (R347). -/
opaque mgmtBuffer : Nat

/-- The order of IEEE 1588-2019's best-master comparison where two Announce messages have the same rank. -/
opaque masterTie : Nat → Nat → Bool

end Sys2Proof.Config
end

