-- ==== Sys2Proof/Machine/Hash.lean ====
section
/-! DEFINITION. CRC-32C (R15, polynomial 0x1EDC_6F41, reflected) and SHAKE256 of FIPS 202 (R15), which the spec names and
does not restate. -/

namespace Sys2Proof.Machine

/-- One bit of the reflected CRC-32C. -/
def crcBit (c : Nat) : Nat := if c % 2 = 1 then (c / 2) ^^^ 0x82F63B78 else c / 2

/-- One byte of the reflected CRC-32C. -/
def crcByte (c : Nat) (b : Byte) : Nat :=
  let c := c ^^^ b.toNat
  crcBit (crcBit (crcBit (crcBit (crcBit (crcBit (crcBit (crcBit c)))))))

/-- CRC-32C of a byte string. -/
def crc32c (bs : List Byte) : Nat := (bs.foldl crcByte 0xFFFFFFFF) ^^^ 0xFFFFFFFF

/-- A 64-bit lane turned left by `n` places. -/
def laneTurn (v n : Nat) : Nat := ((v <<< n) ||| (v >>> (64 - n))) &&& (2 ^ 64 - 1)

/-- One step of the shift register that spells the round constants: polynomial x^8 + x^6 + x^5 + x^4 + 1. -/
def rcShift (r : Nat) : Nat := if r < 128 then 2 * r else (2 * r) ^^^ 0x171

/-- The round constant that the register spells from `r`, one bit at each place 2^j - 1, and the register after it. -/
def rcWord (r : Nat) : Nat × Nat :=
  (List.range 7).foldl (fun wr j => (wr.1 + wr.2 % 2 * 2 ^ (2 ^ j - 1), rcShift wr.2)) (0, r)

/-- The lanes (x, y) stand at x + 5 y; each is changed by what its own and its neighbours' columns sum to. -/
def mixColumns (ls : List Nat) : List Nat :=
  let sums := (List.range 5).map fun x => (List.range 5).foldl (fun acc y => acc ^^^ lget 0 ls (x + 5 * y)) 0
  ls.mapIdx fun i v => v ^^^ lget 0 sums ((i + 4) % 5) ^^^ laneTurn (lget 0 sums ((i + 1) % 5)) 1

/-- Turns and moves the lanes along the walk (x, y) → (y, 2x + 3y): step t turns its lane by (t + 1)(t + 2) / 2 and puts it
where the walk goes next. `n` steps are left. -/
def walkLanes (src : List Nat) : Nat → Nat → Nat → List Nat → List Nat
  | 0, _, _, dst => dst
  | n + 1, x, y, dst =>
    let z := (2 * x + 3 * y) % 5
    walkLanes src n y z (lset dst (y + 5 * z) (laneTurn (lget 0 src (x + 5 * y)) ((24 - n) * (25 - n) / 2 % 64)))

/-- Each lane takes what the next one of its row does not hold and the one after does. -/
def mixRows (ls : List Nat) : List Nat :=
  ls.mapIdx fun i v =>
    let row := i - i % 5
    v ^^^ ((2 ^ 64 - 1 - lget 0 ls (row + (i + 1) % 5)) &&& lget 0 ls (row + (i + 2) % 5))

/-- `n` rounds of the permutation of FIPS 202 from register `r`. -/
def permute : Nat → Nat → List Nat → List Nat
  | 0, _, ls => ls
  | n + 1, r, ls =>
    let mixed := mixColumns ls
    let turned := mixRows (walkLanes mixed 24 1 0 mixed)
    let (k, r) := rcWord r
    permute n r (lset turned 0 (lget 0 turned 0 ^^^ k))

/-- The permutation of 1,600 bits. -/
def keccakF (ls : List Nat) : List Nat := permute 24 1 ls

/-- XORs a block of 136 bytes into the lanes. -/
def keccakAbsorb (a : List Nat) (blk : List Byte) : List Nat :=
  keccakF ((List.range 25).map fun i => lget 0 a i ^^^ (if i < 17 then leNat ((blk.drop (8 * i)).take 8) else 0))

/-- Absorbs `n` blocks. -/
def keccakAbsorbAll : Nat → List Nat → List Byte → List Nat
  | 0, a, _ => a
  | n + 1, a, bs => keccakAbsorbAll n (keccakAbsorb a (bs.take 136)) (bs.drop 136)

/-- Squeezes `n` blocks of 136 bytes. -/
def keccakSqueeze : Nat → List Nat → List Byte
  | 0, _ => []
  | n + 1, a => (a.take 17).flatMap (leBytes 8) ++ keccakSqueeze n (keccakF a)

/-- SHAKE256 of `bs`, `n` octets. -/
def shake256 (bs : List Byte) (n : Nat) : List Byte :=
  let fill := 136 - bs.length % 136
  let pad : List Byte := if fill = 1 then [0x9F] else 0x1F :: (List.replicate (fill - 2) 0 ++ [0x80])
  let m := bs ++ pad
  (keccakSqueeze (n / 136 + 1) (keccakAbsorbAll (m.length / 136) (List.replicate 25 0) m)).take n

end Sys2Proof.Machine
end

