-- ==== Sys2Proof/Machine/OdTable.lean ====
section
/-! DEFINITION. The dictionary's objects (tables of 01 to 20): index (the first of `count` consecutive indices), first
and last subindex, type, access, default (none for an object without a readable value at start), persistence. Then one
name for each object's key, index · 256 + subindex; a block of partitions or ports takes its number. -/

namespace Sys2Proof.Machine

inductive OdTy
  | u8 | u16 | u32 | u64 | i32 | f32 | bool | str | octets | time64
  deriving DecidableEq, Repr

inductive OdAcc
  | ro | rw | wo | rc
  deriving DecidableEq, Repr

structure OdRow where
  base : Nat
  count : Nat
  lo : Nat
  hi : Nat
  ty : OdTy
  acc : OdAcc
  dflt : Option OdVal
  persists : Bool
  deriving DecidableEq, Repr

def odPart0 : List OdRow := [
  ⟨0x1000, 1, 0x1, 0x1, .str, .ro, some (.octets [72, 83, 75, 45, 57, 54, 56, 48]), true⟩,
  ⟨0x1000, 1, 0x2, 0x2, .str, .ro, some (.octets [72, 83, 75, 45, 57, 54, 56, 48, 45, 65, 51, 50]), true⟩,
  ⟨0x1000, 1, 0x3, 0x3, .str, .ro, some (.octets [48]), true⟩,
  ⟨0x1000, 1, 0x4, 0x4, .u16, .ro, some (.num 1), false⟩]

def odPart1 : List OdRow := [
  ⟨0x1001, 1, 0x1, 0x1, .u8, .ro, some (.num 40), false⟩,
  ⟨0x1001, 1, 0x2, 0x2, .u64, .ro, some (.num 1099511627775), false⟩,
  ⟨0x1001, 1, 0x3, 0x3, .u32, .ro, some (.num 0), false⟩,
  ⟨0x1001, 1, 0x4, 0x4, .u8, .ro, some (.num 104), false⟩]

def odPart2 : List OdRow := [
  ⟨0x1002, 1, 0x1, 0x1, .u16, .ro, some (.num 3), false⟩,
  ⟨0x1002, 1, 0x2, 0x2, .u16, .ro, some (.num 4), false⟩,
  ⟨0x1002, 1, 0x3, 0x3, .u32, .ro, some (.num 1), false⟩]

def odPart3 : List OdRow := [
  ⟨0x1010, 1, 0x1, 0x1, .u8, .rw, some (.num 0), true⟩,
  ⟨0x1010, 1, 0x2, 0x2, .u8, .ro, some (.num 0), false⟩,
  ⟨0x1010, 1, 0x3, 0x3, .u32, .ro, some (.num 2000), false⟩,
  ⟨0x1010, 1, 0x4, 0x4, .u16, .ro, some (.num 0), false⟩,
  ⟨0x1010, 1, 0x5, 0x5, .u8, .ro, some (.num 0), false⟩]

def odPart4 : List OdRow := [
  ⟨0x1020, 1, 0x1, 0x1, .octets, .ro, some (.octets (List.replicate 6 0)), true⟩,
  ⟨0x1020, 1, 0x2, 0x2, .octets, .rw, some (.octets (List.replicate 16 0)), true⟩,
  ⟨0x1020, 1, 0x3, 0x3, .u8, .rw, some (.num 0), true⟩,
  ⟨0x1020, 1, 0x4, 0x4, .octets, .rw, some (.octets (List.replicate 16 0)), true⟩,
  ⟨0x1020, 1, 0x5, 0x5, .u16, .rw, some (.num 46262), true⟩,
  ⟨0x1020, 1, 0x6, 0x6, .u16, .rw, some (.num 300), true⟩,
  ⟨0x1020, 1, 0x7, 0x7, .u8, .ro, some (.num 0), false⟩]

def odPart5 : List OdRow := [
  ⟨0x1030, 1, 0x1, 0x1, .u64, .ro, some (.num 0), true⟩,
  ⟨0x1030, 1, 0x2, 0x2, .u64, .ro, some (.num 0), true⟩,
  ⟨0x1030, 1, 0x3, 0x3, .u32, .ro, some (.num 262144), true⟩,
  ⟨0x1030, 1, 0x4, 0x4, .octets, .ro, some (.octets (List.replicate 32 0)), true⟩,
  ⟨0x1030, 1, 0x5, 0x5, .octets, .ro, some (.octets (List.replicate 1952 0)), true⟩,
  ⟨0x1030, 1, 0x6, 0x6, .octets, .ro, some (.octets (List.replicate 3309 0)), true⟩,
  ⟨0x1030, 1, 0x7, 0x7, .u32, .rw, some (.num 1024), true⟩,
  ⟨0x1030, 1, 0x8, 0x8, .u32, .rw, some (.num 60), true⟩,
  ⟨0x1030, 1, 0x9, 0x9, .bool, .rw, some (.num 0), true⟩,
  ⟨0x1030, 1, 0xa, 0xa, .u64, .rw, some (.num 0), true⟩]

def odPart6 : List OdRow := [
  ⟨0x2000, 1, 0x1, 0x1, .u16, .rw, some (.num 1800), true⟩,
  ⟨0x2000, 1, 0x2, 0x2, .u16, .ro, some (.num 1800), false⟩,
  ⟨0x2000, 1, 0x3, 0x3, .u16, .ro, some (.num 0), false⟩,
  ⟨0x2000, 1, 0x4, 0x4, .u16, .ro, some (.num 1800), false⟩,
  ⟨0x2000, 1, 0x5, 0x5, .f32, .ro, some (.num 0), false⟩,
  ⟨0x2000, 1, 0x6, 0x6, .f32, .ro, some (.num 0), false⟩,
  ⟨0x2000, 1, 0x7, 0x7, .u16, .rw, some (.num 170), true⟩,
  ⟨0x2000, 1, 0x8, 0x8, .u8, .ro, some (.num 0), false⟩,
  ⟨0x2000, 1, 0x9, 0x9, .bool, .rw, some (.num 0), false⟩,
  ⟨0x2000, 1, 0xa, 0xa, .u8, .wo, none, false⟩,
  ⟨0x2000, 1, 0xb, 0xb, .u8, .ro, some (.num 16), false⟩,
  ⟨0x2000, 1, 0xc, 0xc, .f32, .ro, some (.num 0), false⟩,
  ⟨0x2000, 1, 0xd, 0xd, .bool, .ro, some (.num 0), false⟩]

def odPart7 : List OdRow := [
  ⟨0x2010, 1, 0x1, 0x80, .u8, .rw, some (.num 0), false⟩]

def odPart8 : List OdRow := [
  ⟨0x3000, 1, 0x1, 0x1, .u64, .ro, some (.num 32000000000000), true⟩,
  ⟨0x3000, 1, 0x2, 0x2, .u64, .ro, some (.num 419430400), true⟩,
  ⟨0x3000, 1, 0x3, 0x3, .u16, .ro, some (.num 6400), false⟩,
  ⟨0x3000, 1, 0x4, 0x4, .u16, .ro, some (.num 0), true⟩,
  ⟨0x3000, 1, 0x5, 0x5, .u16, .wo, none, true⟩,
  ⟨0x3000, 1, 0x6, 0x6, .u16, .wo, none, true⟩,
  ⟨0x3000, 1, 0x7, 0x7, .u8, .ro, some (.num 0), true⟩,
  ⟨0x3000, 1, 0x8, 0x8, .u64, .ro, some (.num 100000000000000000), true⟩,
  ⟨0x3000, 1, 0x9, 0x9, .u64, .ro, some (.num 0), true⟩,
  ⟨0x3000, 1, 0xa, 0xa, .bool, .ro, some (.num 0), true⟩,
  ⟨0x3000, 1, 0xb, 0xb, .u8, .ro, some (.num 20), false⟩]

def odPart9 : List OdRow := [
  ⟨0x3010, 1, 0x1, 0x1, .u64, .ro, some (.num 618475290624), false⟩,
  ⟨0x3010, 1, 0x2, 0x2, .u16, .ro, some (.num 576), false⟩,
  ⟨0x3010, 1, 0x3, 0x3, .u8, .ro, some (.num 0), false⟩,
  ⟨0x3010, 1, 0x4, 0x4, .u16, .rw, some (.num 12), true⟩]

def odPart10 : List OdRow := [
  ⟨0x3020, 1, 0x1, 0x1, .u8, .rw, some (.num 255), true⟩,
  ⟨0x3020, 1, 0x2, 0x2, .u8, .ro, some (.num 255), false⟩,
  ⟨0x3020, 1, 0x3, 0x3, .u64, .ro, some (.num 962072674304), false⟩,
  ⟨0x3020, 1, 0x4, 0x4, .u16, .ro, some (.num 224), false⟩,
  ⟨0x3020, 1, 0x5, 0x5, .u64, .ro, some (.num 0), false⟩,
  ⟨0x3020, 1, 0x6, 0x6, .u8, .ro, some (.num 0), false⟩,
  ⟨0x3020, 1, 0x7, 0x7, .u16, .ro, some (.num 0), false⟩]

def odPart11 : List OdRow := [
  ⟨0x3030, 1, 0x1, 0x1, .u16, .ro, some (.num 6096), false⟩]

def odPart12 : List OdRow := [
  ⟨0x4000, 1, 0x1, 0x1, .u8, .rw, some (.num 0), true⟩,
  ⟨0x4000, 1, 0x2, 0x2, .u8, .ro, some (.num 0), false⟩,
  ⟨0x4000, 1, 0x3, 0x3, .u8, .rw, some (.num 0), true⟩,
  ⟨0x4000, 1, 0x4, 0x4, .u16, .rw, some (.num 0), true⟩,
  ⟨0x4000, 1, 0x5, 0x5, .u8, .rw, some (.num 5), true⟩,
  ⟨0x4000, 1, 0x6, 0x6, .u8, .rw, some (.num 3), true⟩,
  ⟨0x4000, 1, 0x7, 0x7, .u8, .rw, some (.num 0), true⟩,
  ⟨0x4000, 1, 0x8, 0x8, .u8, .ro, some (.num 0), false⟩]

def odPart13 : List OdRow := [
  ⟨0x4100, 8, 0x1, 0x1, .octets, .ro, some (.octets (List.replicate 6 0)), true⟩,
  ⟨0x4100, 8, 0x2, 0x2, .bool, .ro, some (.num 0), false⟩,
  ⟨0x4100, 8, 0x3, 0x3, .u16, .ro, some (.num 0), false⟩,
  ⟨0x4100, 8, 0x4, 0x4, .i32, .rw, some (.num 0), true⟩,
  ⟨0x4100, 8, 0x5, 0x5, .i32, .rw, some (.num 0), true⟩,
  ⟨0x4100, 8, 0x6, 0x6, .bool, .rw, some (.num 1), true⟩]

def odPart14 : List OdRow := [
  ⟨0x4200, 40, 0x1, 0x1, .u16, .rw, some (.num 0), false⟩,
  ⟨0x4200, 40, 0x2, 0x2, .u8, .rw, some (.num 0), false⟩,
  ⟨0x4200, 40, 0x3, 0x3, .u16, .ro, some (.num 0), false⟩,
  ⟨0x4200, 40, 0x4, 0x4, .octets, .ro, none, false⟩]

def odPart15 : List OdRow := [
  ⟨0x5000, 1, 0x1, 0x1, .u16, .rw, some (.num 46260), true⟩,
  ⟨0x5000, 1, 0x2, 0x2, .u16, .rw, some (.num 50), true⟩,
  ⟨0x5000, 1, 0x3, 0x3, .u8, .rw, some (.num 8), true⟩,
  ⟨0x5000, 1, 0x4, 0x4, .u16, .rw, some (.num 10), true⟩,
  ⟨0x5000, 1, 0x5, 0x5, .u16, .rw, some (.num 2000), true⟩,
  ⟨0x5000, 1, 0x6, 0x6, .u16, .rw, some (.num 16), true⟩,
  ⟨0x5000, 1, 0x7, 0x7, .u32, .rw, some (.num 262144), true⟩]

def odPart16 : List OdRow := [
  ⟨0x5100, 40, 0x1, 0x8, .octets, .rw, some (.octets (List.replicate 16 0)), false⟩,
  ⟨0x5100, 40, 0x9, 0x9, .u8, .rw, some (.num 0), false⟩,
  ⟨0x5100, 40, 0xa, 0xa, .u64, .wo, none, false⟩,
  ⟨0x5100, 40, 0xb, 0xb, .u8, .ro, some (.num 11), false⟩,
  ⟨0x5100, 40, 0xc, 0xc, .u64, .ro, some (.num 0), false⟩,
  ⟨0x5100, 40, 0xd, 0xd, .u64, .ro, some (.num 0), false⟩,
  ⟨0x5100, 40, 0xe, 0xe, .u64, .ro, some (.num 0), false⟩,
  ⟨0x5100, 40, 0xf, 0xf, .u8, .wo, none, false⟩,
  ⟨0x5100, 40, 0x10, 0x10, .u16, .ro, some (.num 0), false⟩]

def odPart17 : List OdRow := [
  ⟨0x6000, 1, 0x1, 0x1, .octets, .ro, some (.octets (List.replicate 11834 0)), true⟩,
  ⟨0x6000, 1, 0x2, 0x2, .octets, .ro, some (.octets (List.replicate 32 0)), true⟩,
  ⟨0x6000, 1, 0x3, 0x3, .octets, .ro, some (.octets (List.replicate 1184 0)), true⟩,
  ⟨0x6000, 1, 0x4, 0x4, .octets, .wo, none, false⟩,
  ⟨0x6000, 1, 0x5, 0x5, .octets, .ro, some (.octets (List.replicate 1024 0)), false⟩,
  ⟨0x6000, 1, 0x6, 0x6, .octets, .ro, some (.octets []), false⟩,
  ⟨0x6000, 1, 0x7, 0x7, .u8, .ro, some (.num 0), true⟩,
  ⟨0x6000, 1, 0x8, 0x8, .bool, .rw, some (.num 0), false⟩,
  ⟨0x6000, 1, 0x9, 0x9, .u8, .wo, none, false⟩,
  ⟨0x6000, 1, 0xa, 0xa, .octets, .ro, none, true⟩,
  ⟨0x6000, 1, 0xb, 0xb, .octets, .wo, none, true⟩,
  ⟨0x6000, 1, 0xc, 0xc, .octets, .rw, some (.octets (List.replicate 1952 0)), true⟩,
  ⟨0x6000, 1, 0xd, 0xd, .octets, .rw, some (.octets []), true⟩,
  ⟨0x6000, 1, 0xe, 0xe, .octets, .ro, some (.octets (List.replicate 1952 0)), true⟩,
  ⟨0x6000, 1, 0xf, 0xf, .u32, .ro, some (.num 0), true⟩]

def odPart18 : List OdRow := [
  ⟨0x6100, 40, 0x1, 0x1, .u8, .ro, some (.num 0), false⟩,
  ⟨0x6100, 40, 0x2, 0x2, .u64, .rw, some (.num 0), false⟩,
  ⟨0x6100, 40, 0x3, 0x3, .octets, .rw, some (.octets (List.replicate 72 0)), false⟩,
  ⟨0x6100, 40, 0x4, 0x4, .octets, .rw, some (.octets (List.replicate 32 0)), false⟩,
  ⟨0x6100, 40, 0x5, 0x5, .octets, .rw, some (.octets (List.replicate 768 0)), false⟩,
  ⟨0x6100, 40, 0x6, 0x6, .octets, .rw, some (.octets (List.replicate 800 0)), false⟩,
  ⟨0x6100, 40, 0x7, 0x7, .octets, .rw, some (.octets (List.replicate 32 0)), false⟩,
  ⟨0x6100, 40, 0x8, 0x8, .octets, .rw, some (.octets (List.replicate 16 0)), false⟩,
  ⟨0x6100, 40, 0x9, 0x9, .u8, .wo, none, false⟩,
  ⟨0x6100, 40, 0xa, 0xa, .u8, .ro, some (.num 0), false⟩,
  ⟨0x6100, 40, 0xb, 0xb, .u32, .ro, some (.num 0), false⟩,
  ⟨0x6100, 40, 0xc, 0xc, .octets, .rw, none, false⟩,
  ⟨0x6100, 40, 0xd, 0xd, .u8, .ro, some (.num 0), false⟩,
  ⟨0x6100, 40, 0xe, 0xe, .octets, .ro, some (.octets (List.replicate 32 0)), false⟩,
  ⟨0x6100, 40, 0xf, 0xf, .octets, .wo, none, false⟩,
  ⟨0x6100, 40, 0x10, 0x10, .octets, .ro, some (.octets (List.replicate 16 0)), false⟩,
  ⟨0x6100, 40, 0x11, 0x11, .octets, .ro, some (.octets (List.replicate 64 0)), false⟩]

def odPart19 : List OdRow := [
  ⟨0x7000, 1, 0x1, 0x1, .u32, .ro, some (.num 14400), false⟩,
  ⟨0x7000, 1, 0x2, 0x2, .u32, .rw, some (.num 14400), true⟩,
  ⟨0x7000, 1, 0x3, 0x3, .u64, .rw, some (.num 0), false⟩,
  ⟨0x7000, 1, 0x4, 0x4, .time64, .rw, some (.num 0), false⟩,
  ⟨0x7000, 1, 0x5, 0x5, .u64, .ro, some (.num 0), false⟩,
  ⟨0x7000, 1, 0x6, 0x6, .u32, .ro, some (.num 14400), false⟩,
  ⟨0x7000, 1, 0x7, 0x7, .u8, .rw, some (.num 0), true⟩,
  ⟨0x7000, 1, 0x8, 0x8, .u8, .rw, some (.num 0), true⟩,
  ⟨0x7000, 1, 0x9, 0x9, .u32, .rw, some (.num 20), true⟩,
  ⟨0x7000, 1, 0xa, 0xa, .u32, .ro, some (.num 4294967295), false⟩,
  ⟨0x7000, 1, 0xb, 0xb, .bool, .ro, some (.num 0), false⟩,
  ⟨0x7000, 1, 0xc, 0xc, .u8, .rw, some (.num 2), true⟩]

def odPart20 : List OdRow := [
  ⟨0x8100, 40, 0x1, 0x1, .bool, .rw, some (.num 0), false⟩,
  ⟨0x8100, 40, 0x2, 0x2, .f32, .rw, some (.num 1065185444), false⟩,
  ⟨0x8100, 40, 0x3, 0x3, .f32, .rw, some (.num 1086324736), false⟩,
  ⟨0x8100, 40, 0x4, 0x4, .u32, .rw, some (.num 100), false⟩,
  ⟨0x8100, 40, 0x5, 0x5, .f32, .rw, some (.num 0), false⟩,
  ⟨0x8100, 40, 0x6, 0x6, .u8, .rw, some (.num 0), false⟩,
  ⟨0x8100, 40, 0x7, 0x7, .f32, .ro, some (.num 0), false⟩,
  ⟨0x8100, 40, 0x8, 0x8, .f32, .ro, some (.num 0), false⟩,
  ⟨0x8100, 40, 0x9, 0x9, .f32, .ro, some (.num 0), false⟩,
  ⟨0x8100, 40, 0xa, 0xa, .u32, .ro, some (.num 0), false⟩,
  ⟨0x8100, 40, 0xb, 0xb, .u16, .ro, some (.num 0), false⟩,
  ⟨0x8100, 40, 0xc, 0xc, .u8, .rw, some (.num 0), false⟩,
  ⟨0x8100, 40, 0xd, 0xd, .u8, .rw, some (.num 1), false⟩,
  ⟨0x8100, 40, 0xe, 0xe, .u8, .rw, some (.num 1), false⟩,
  ⟨0x8100, 40, 0xf, 0xf, .u8, .rw, some (.num 0), false⟩,
  ⟨0x8100, 40, 0x10, 0x10, .u32, .rw, some (.num 0), false⟩,
  ⟨0x8100, 40, 0x11, 0x11, .u8, .wo, none, false⟩,
  ⟨0x8100, 40, 0x12, 0x12, .u64, .ro, some (.num 0), false⟩]

def odPart21 : List OdRow := [
  ⟨0x8100, 40, 0x13, 0x13, .u64, .ro, some (.num 0), false⟩,
  ⟨0x8100, 40, 0x14, 0x14, .u32, .ro, some (.num 0), false⟩,
  ⟨0x8100, 40, 0x15, 0x15, .u8, .ro, some (.num 0), false⟩,
  ⟨0x8100, 40, 0x16, 0x16, .u32, .rc, some (.num 0), false⟩]

def odPart22 : List OdRow := [
  ⟨0x8200, 40, 0x1, 0x1, .u64, .rw, some (.num 0), false⟩,
  ⟨0x8200, 40, 0x2, 0x2, .u64, .rw, some (.num 0), false⟩,
  ⟨0x8200, 40, 0x3, 0x3, .u32, .rw, some (.num 125000), false⟩,
  ⟨0x8200, 40, 0x4, 0x4, .u32, .rw, some (.num 12500), false⟩,
  ⟨0x8200, 40, 0x5, 0x5, .u8, .ro, some (.num 0), false⟩,
  ⟨0x8200, 40, 0x6, 0x6, .u8, .ro, some (.num 0), false⟩,
  ⟨0x8200, 40, 0x7, 0x7, .octets, .ro, some (.octets (List.replicate 32 0)), false⟩,
  ⟨0x8200, 40, 0x8, 0x8, .u8, .wo, none, false⟩,
  ⟨0x8200, 40, 0x9, 0x9, .u8, .ro, some (.num 7), false⟩]

def odPart23 : List OdRow := [
  ⟨0x8300, 40, 0x1, 0x1, .u64, .rw, some (.num 0), false⟩,
  ⟨0x8300, 40, 0x2, 0x2, .u16, .rw, some (.num 256), false⟩,
  ⟨0x8300, 40, 0x3, 0x3, .u16, .ro, some (.num 0), false⟩,
  ⟨0x8300, 40, 0x4, 0x4, .u8, .ro, some (.num 0), false⟩,
  ⟨0x8300, 40, 0x5, 0x5, .u8, .ro, some (.num 255), false⟩,
  ⟨0x8300, 40, 0x6, 0x6, .u8, .ro, some (.num 0), false⟩]

def odPart24 : List OdRow := [
  ⟨0x9000, 1, 0x1, 0x1, .u8, .ro, some (.num 0), false⟩,
  ⟨0x9000, 1, 0x2, 0x2, .u8, .ro, some (.num 0), false⟩,
  ⟨0x9000, 1, 0x3, 0x3, .u8, .ro, some (.num 1), false⟩,
  ⟨0x9000, 1, 0x4, 0x4, .u8, .wo, none, false⟩,
  ⟨0x9000, 1, 0x5, 0x5, .u8, .wo, none, false⟩]

def odPart25 : List OdRow := [
  ⟨0x9001, 1, 0x1, 0x10, .octets, .ro, none, true⟩]

def odPart26 : List OdRow := [
  ⟨0x9010, 1, 0x1, 0x1, .u32, .ro, some (.num 0), false⟩,
  ⟨0x9010, 1, 0x2, 0x2, .u32, .ro, some (.num 0), false⟩,
  ⟨0x9010, 1, 0x3, 0x3, .u32, .ro, some (.num 0), true⟩,
  ⟨0x9010, 1, 0x4, 0x4, .octets, .wo, none, false⟩,
  ⟨0x9010, 1, 0x5, 0x5, .u8, .wo, none, false⟩,
  ⟨0x9010, 1, 0x6, 0x6, .u8, .ro, some (.num 0), false⟩,
  ⟨0x9010, 1, 0x7, 0x7, .u8, .ro, some (.num 0), false⟩,
  ⟨0x9010, 1, 0x8, 0x8, .u32, .ro, some (.num 0), false⟩,
  ⟨0x9010, 1, 0x9, 0x9, .octets, .ro, some (.octets (List.replicate 64 0)), false⟩]

def odPart27 : List OdRow := [
  ⟨0xa010, 1, 0x1, 0x1, .u64, .rc, some (.num 0), false⟩,
  ⟨0xa010, 1, 0x2, 0x2, .u64, .rc, some (.num 0), false⟩,
  ⟨0xa010, 1, 0x3, 0x3, .u64, .rc, some (.num 0), false⟩,
  ⟨0xa010, 1, 0x4, 0x4, .u64, .rc, some (.num 0), false⟩,
  ⟨0xa010, 1, 0x5, 0x5, .u64, .rc, some (.num 0), false⟩,
  ⟨0xa010, 1, 0x6, 0x6, .u64, .rc, some (.num 0), false⟩,
  ⟨0xa010, 1, 0x7, 0x7, .u64, .rc, some (.num 0), false⟩,
  ⟨0xa010, 1, 0x8, 0x8, .u64, .rc, some (.num 0), false⟩,
  ⟨0xa010, 1, 0x9, 0x9, .u64, .rc, some (.num 0), false⟩,
  ⟨0xa010, 1, 0xa, 0xa, .u64, .rc, some (.num 0), false⟩,
  ⟨0xa010, 1, 0xb, 0xb, .u64, .rc, some (.num 0), false⟩]

def odPart28 : List OdRow := [
  ⟨0xa020, 1, 0x1, 0x1, .u64, .rc, some (.num 0), false⟩,
  ⟨0xa020, 1, 0x2, 0x2, .u64, .rc, some (.num 0), false⟩,
  ⟨0xa020, 1, 0x3, 0x3, .u64, .rc, some (.num 0), false⟩,
  ⟨0xa020, 1, 0x4, 0x4, .u64, .rc, some (.num 0), false⟩,
  ⟨0xa020, 1, 0x5, 0x5, .u64, .rc, some (.num 0), false⟩,
  ⟨0xa020, 1, 0x6, 0x6, .u64, .rc, some (.num 0), false⟩,
  ⟨0xa020, 1, 0x7, 0x7, .u64, .rc, some (.num 0), false⟩]

def odPart29 : List OdRow := [
  ⟨0xa030, 1, 0x1, 0x1, .u64, .rc, some (.num 0), false⟩,
  ⟨0xa030, 1, 0x2, 0x2, .u64, .rc, some (.num 0), false⟩,
  ⟨0xa030, 1, 0x3, 0x3, .u64, .rc, some (.num 0), false⟩,
  ⟨0xa030, 1, 0x4, 0x4, .u64, .rc, some (.num 0), false⟩,
  ⟨0xa030, 1, 0x5, 0x5, .u64, .rc, some (.num 0), false⟩,
  ⟨0xa030, 1, 0x6, 0x6, .u64, .rc, some (.num 0), false⟩,
  ⟨0xa030, 1, 0x7, 0x7, .u64, .rc, some (.num 0), false⟩]

def odPart30 : List OdRow := [
  ⟨0xa031, 1, 0x1, 0x1, .u64, .rc, some (.num 0), false⟩,
  ⟨0xa031, 1, 0x2, 0x2, .u64, .rc, some (.num 0), false⟩,
  ⟨0xa031, 1, 0x3, 0x3, .u64, .rc, some (.num 0), false⟩,
  ⟨0xa031, 1, 0x4, 0x4, .u64, .rc, some (.num 0), false⟩,
  ⟨0xa031, 1, 0x5, 0x5, .u64, .rc, some (.num 0), false⟩,
  ⟨0xa031, 1, 0x6, 0x6, .u64, .rc, some (.num 0), false⟩,
  ⟨0xa031, 1, 0x7, 0x7, .u64, .rc, some (.num 0), false⟩,
  ⟨0xa031, 1, 0x8, 0x8, .u64, .rc, some (.num 0), false⟩,
  ⟨0xa031, 1, 0x9, 0x9, .u64, .rc, some (.num 0), false⟩,
  ⟨0xa031, 1, 0xa, 0xa, .u64, .rc, some (.num 0), false⟩,
  ⟨0xa031, 1, 0xb, 0xb, .u64, .rc, some (.num 0), false⟩,
  ⟨0xa031, 1, 0xc, 0xc, .u64, .rc, some (.num 0), false⟩]

def odPart31 : List OdRow := [
  ⟨0xa040, 1, 0x1, 0x1, .u64, .rc, some (.num 0), false⟩,
  ⟨0xa040, 1, 0x2, 0x2, .u64, .rc, some (.num 0), false⟩,
  ⟨0xa040, 1, 0x3, 0x3, .u64, .rc, some (.num 0), false⟩,
  ⟨0xa040, 1, 0x4, 0x4, .u64, .rc, some (.num 0), false⟩,
  ⟨0xa040, 1, 0x5, 0x5, .u64, .rc, some (.num 0), false⟩,
  ⟨0xa040, 1, 0x6, 0x6, .u64, .rc, some (.num 0), false⟩,
  ⟨0xa040, 1, 0x7, 0x7, .u64, .rc, some (.num 0), false⟩,
  ⟨0xa040, 1, 0x8, 0x8, .u64, .rc, some (.num 0), false⟩,
  ⟨0xa040, 1, 0x9, 0x9, .u64, .rc, some (.num 0), false⟩,
  ⟨0xa040, 1, 0xa, 0xa, .u64, .rc, some (.num 0), false⟩]

def odPart32 : List OdRow := [
  ⟨0xa050, 1, 0x1, 0x1, .u64, .rc, some (.num 0), false⟩,
  ⟨0xa050, 1, 0x2, 0x2, .u64, .rc, some (.num 0), false⟩,
  ⟨0xa050, 1, 0x3, 0x3, .u64, .rc, some (.num 0), false⟩,
  ⟨0xa050, 1, 0x4, 0x4, .u64, .rc, some (.num 0), false⟩,
  ⟨0xa050, 1, 0x5, 0x5, .u64, .rc, some (.num 0), false⟩,
  ⟨0xa050, 1, 0x6, 0x6, .u64, .rc, some (.num 0), false⟩,
  ⟨0xa050, 1, 0x7, 0x7, .u64, .rc, some (.num 0), false⟩,
  ⟨0xa050, 1, 0x8, 0x8, .u64, .rc, some (.num 0), false⟩,
  ⟨0xa050, 1, 0x9, 0x9, .u64, .rc, some (.num 0), false⟩,
  ⟨0xa050, 1, 0xa, 0xa, .u64, .rc, some (.num 0), false⟩]

def odPart33 : List OdRow := [
  ⟨0xa070, 1, 0x1, 0x1, .u64, .rc, some (.num 0), false⟩,
  ⟨0xa070, 1, 0x2, 0x2, .u64, .rc, some (.num 0), false⟩,
  ⟨0xa070, 1, 0x3, 0x3, .u64, .rc, some (.num 0), false⟩,
  ⟨0xa070, 1, 0x4, 0x4, .u64, .rc, some (.num 0), false⟩,
  ⟨0xa070, 1, 0x5, 0x5, .u64, .rc, some (.num 0), false⟩,
  ⟨0xa070, 1, 0x6, 0x6, .u64, .rc, some (.num 0), false⟩,
  ⟨0xa070, 1, 0x7, 0x7, .u64, .rc, some (.num 0), false⟩,
  ⟨0xa070, 1, 0x8, 0x8, .u64, .rc, some (.num 0), false⟩,
  ⟨0xa070, 1, 0x9, 0x9, .u64, .rc, some (.num 0), false⟩,
  ⟨0xa070, 1, 0xa, 0xa, .u64, .rc, some (.num 0), false⟩,
  ⟨0xa070, 1, 0xb, 0xb, .u64, .rc, some (.num 0), false⟩,
  ⟨0xa070, 1, 0xc, 0xc, .u64, .rc, some (.num 0), false⟩,
  ⟨0xa070, 1, 0xd, 0xd, .u64, .rc, some (.num 0), false⟩,
  ⟨0xa070, 1, 0xe, 0xe, .u64, .rc, some (.num 0), false⟩]

def odPart34 : List OdRow := [
  ⟨0xa080, 1, 0x1, 0x1, .u64, .rc, some (.num 0), false⟩,
  ⟨0xa080, 1, 0x2, 0x2, .u64, .rc, some (.num 0), false⟩,
  ⟨0xa080, 1, 0x3, 0x3, .u64, .rc, some (.num 0), false⟩,
  ⟨0xa080, 1, 0x4, 0x4, .u64, .rc, some (.num 0), false⟩,
  ⟨0xa080, 1, 0x5, 0x5, .u64, .rc, some (.num 0), false⟩,
  ⟨0xa080, 1, 0x6, 0x6, .u64, .rc, some (.num 0), false⟩,
  ⟨0xa080, 1, 0x7, 0x7, .u64, .rc, some (.num 0), false⟩,
  ⟨0xa080, 1, 0x8, 0x8, .u64, .rc, some (.num 0), false⟩,
  ⟨0xa080, 1, 0x9, 0x9, .u64, .rc, some (.num 0), false⟩,
  ⟨0xa080, 1, 0xa, 0xa, .u64, .rc, some (.num 0), false⟩,
  ⟨0xa080, 1, 0xb, 0xb, .u64, .rc, some (.num 0), false⟩,
  ⟨0xa080, 1, 0xc, 0xc, .u64, .rc, some (.num 0), false⟩,
  ⟨0xa080, 1, 0xd, 0xd, .u64, .rc, some (.num 0), false⟩,
  ⟨0xa080, 1, 0xe, 0xe, .u64, .rc, some (.num 0), false⟩]

def odPart35 : List OdRow := [
  ⟨0xa090, 1, 0x1, 0x1, .u64, .rc, some (.num 0), false⟩,
  ⟨0xa090, 1, 0x2, 0x2, .u64, .rc, some (.num 0), false⟩,
  ⟨0xa090, 1, 0x3, 0x3, .u64, .rc, some (.num 0), false⟩,
  ⟨0xa090, 1, 0x4, 0x4, .u64, .rc, some (.num 0), false⟩,
  ⟨0xa090, 1, 0x5, 0x5, .u64, .rc, some (.num 0), false⟩,
  ⟨0xa090, 1, 0x6, 0x6, .u64, .rc, some (.num 0), false⟩,
  ⟨0xa090, 1, 0x7, 0x7, .u64, .rc, some (.num 0), false⟩,
  ⟨0xa090, 1, 0x8, 0x8, .u64, .rc, some (.num 0), false⟩,
  ⟨0xa090, 1, 0x9, 0x9, .u64, .rc, some (.num 0), false⟩]

def odPart36 : List OdRow := [
  ⟨0xa0a0, 1, 0x1, 0x1, .u64, .rc, some (.num 0), false⟩,
  ⟨0xa0a0, 1, 0x2, 0x2, .u64, .rc, some (.num 0), false⟩,
  ⟨0xa0a0, 1, 0x3, 0x3, .u64, .rc, some (.num 0), false⟩,
  ⟨0xa0a0, 1, 0x4, 0x4, .u64, .rc, some (.num 0), false⟩,
  ⟨0xa0a0, 1, 0x5, 0x5, .u64, .rc, some (.num 0), false⟩,
  ⟨0xa0a0, 1, 0x6, 0x6, .u64, .rc, some (.num 0), false⟩,
  ⟨0xa0a0, 1, 0x7, 0x7, .u64, .rc, some (.num 0), false⟩,
  ⟨0xa0a0, 1, 0x8, 0x8, .u64, .rc, some (.num 0), false⟩,
  ⟨0xa0a0, 1, 0x9, 0x9, .u64, .rc, some (.num 0), false⟩,
  ⟨0xa0a0, 1, 0xa, 0xa, .u64, .rc, some (.num 0), false⟩,
  ⟨0xa0a0, 1, 0xb, 0xb, .u64, .rc, some (.num 0), false⟩,
  ⟨0xa0a0, 1, 0xc, 0xc, .u64, .rc, some (.num 0), false⟩]

def odPart37 : List OdRow := [
  ⟨0xa0b0, 1, 0x1, 0x1, .u64, .rc, some (.num 0), false⟩,
  ⟨0xa0b0, 1, 0x2, 0x2, .u64, .rc, some (.num 0), false⟩,
  ⟨0xa0b0, 1, 0x3, 0x3, .u64, .rc, some (.num 0), false⟩,
  ⟨0xa0b0, 1, 0x4, 0x4, .u64, .rc, some (.num 0), false⟩,
  ⟨0xa0b0, 1, 0x5, 0x5, .u64, .rc, some (.num 0), false⟩,
  ⟨0xa0b0, 1, 0x6, 0x6, .u64, .rc, some (.num 0), false⟩,
  ⟨0xa0b0, 1, 0x7, 0x7, .u64, .rc, some (.num 0), false⟩,
  ⟨0xa0b0, 1, 0x8, 0x8, .u64, .rc, some (.num 0), false⟩]

def odPart38 : List OdRow := [
  ⟨0xa0c0, 9, 0x1, 0x1, .u64, .rc, some (.num 0), false⟩,
  ⟨0xa0c0, 9, 0x2, 0x2, .u64, .rc, some (.num 0), false⟩,
  ⟨0xa0c0, 9, 0x3, 0x3, .u64, .rc, some (.num 0), false⟩,
  ⟨0xa0c0, 9, 0x4, 0x4, .u64, .rc, some (.num 0), false⟩,
  ⟨0xa0c0, 9, 0x5, 0x5, .u64, .rc, some (.num 0), false⟩,
  ⟨0xa0c0, 9, 0x6, 0x6, .u64, .rc, some (.num 0), false⟩,
  ⟨0xa0c0, 9, 0x7, 0x7, .u64, .rc, some (.num 0), false⟩,
  ⟨0xa0c0, 9, 0x8, 0x8, .u64, .rc, some (.num 0), false⟩,
  ⟨0xa0c0, 9, 0x9, 0x9, .u64, .rc, some (.num 0), false⟩,
  ⟨0xa0c0, 9, 0xa, 0xa, .u64, .rc, some (.num 0), false⟩,
  ⟨0xa0c0, 9, 0xb, 0xb, .u64, .rc, some (.num 0), false⟩,
  ⟨0xa0c0, 9, 0xc, 0xc, .u64, .rc, some (.num 0), false⟩,
  ⟨0xa0c0, 9, 0xd, 0xd, .u64, .rc, some (.num 0), false⟩,
  ⟨0xa0c0, 9, 0xe, 0xe, .u64, .rc, some (.num 0), false⟩,
  ⟨0xa0c0, 9, 0xf, 0xf, .u64, .rc, some (.num 0), false⟩,
  ⟨0xa0c0, 9, 0x10, 0x10, .u64, .rc, some (.num 0), false⟩,
  ⟨0xa0c0, 9, 0x11, 0x11, .u64, .rc, some (.num 0), false⟩,
  ⟨0xa0c0, 9, 0x12, 0x12, .u64, .rc, some (.num 0), false⟩]

def odPart39 : List OdRow := [
  ⟨0xa0c0, 9, 0x13, 0x13, .u64, .rc, some (.num 0), false⟩,
  ⟨0xa0c0, 9, 0x14, 0x14, .u64, .rc, some (.num 0), false⟩,
  ⟨0xa0c0, 9, 0x15, 0x15, .u64, .rc, some (.num 0), false⟩,
  ⟨0xa0c0, 9, 0x16, 0x16, .u64, .rc, some (.num 0), false⟩,
  ⟨0xa0c0, 9, 0x17, 0x17, .u64, .rc, some (.num 0), false⟩,
  ⟨0xa0c0, 9, 0x18, 0x18, .u64, .rc, some (.num 0), false⟩,
  ⟨0xa0c0, 9, 0x19, 0x19, .u64, .rc, some (.num 0), false⟩,
  ⟨0xa0c0, 9, 0x1a, 0x1a, .u64, .rc, some (.num 0), false⟩,
  ⟨0xa0c0, 9, 0x1b, 0x1b, .u64, .rc, some (.num 0), false⟩,
  ⟨0xa0c0, 9, 0x1c, 0x1c, .u64, .rc, some (.num 0), false⟩,
  ⟨0xa0c0, 9, 0x1d, 0x1d, .u64, .rc, some (.num 0), false⟩,
  ⟨0xa0c0, 9, 0x1e, 0x1e, .u64, .rc, some (.num 0), false⟩,
  ⟨0xa0c0, 9, 0x1f, 0x1f, .u64, .rc, some (.num 0), false⟩,
  ⟨0xa0c0, 9, 0x20, 0x20, .u64, .rc, some (.num 0), false⟩,
  ⟨0xa0c0, 9, 0x21, 0x21, .u64, .rc, some (.num 0), false⟩,
  ⟨0xa0c0, 9, 0x22, 0x22, .u64, .rc, some (.num 0), false⟩]

def odPart40 : List OdRow := [
  ⟨0xa0d0, 1, 0x1, 0x1, .u64, .rc, some (.num 0), false⟩,
  ⟨0xa0d0, 1, 0x2, 0x2, .u64, .rc, some (.num 0), false⟩,
  ⟨0xa0d0, 1, 0x3, 0x3, .u64, .rc, some (.num 0), false⟩,
  ⟨0xa0d0, 1, 0x4, 0x4, .u64, .rc, some (.num 0), false⟩,
  ⟨0xa0d0, 1, 0x5, 0x5, .u64, .rc, some (.num 0), false⟩,
  ⟨0xa0d0, 1, 0x6, 0x6, .u64, .rc, some (.num 0), false⟩,
  ⟨0xa0d0, 1, 0x7, 0x7, .u64, .rc, some (.num 0), false⟩,
  ⟨0xa0d0, 1, 0x8, 0x8, .u64, .rc, some (.num 0), false⟩,
  ⟨0xa0d0, 1, 0x9, 0x9, .u64, .rc, some (.num 0), false⟩,
  ⟨0xa0d0, 1, 0xa, 0xa, .u64, .rc, some (.num 0), false⟩,
  ⟨0xa0d0, 1, 0xb, 0xb, .u64, .rc, some (.num 0), false⟩,
  ⟨0xa0d0, 1, 0xc, 0xc, .u64, .rc, some (.num 0), false⟩,
  ⟨0xa0d0, 1, 0xd, 0xd, .u64, .rc, some (.num 0), false⟩,
  ⟨0xa0d0, 1, 0xe, 0xe, .u64, .rc, some (.num 0), false⟩,
  ⟨0xa0d0, 1, 0xf, 0xf, .u64, .rc, some (.num 0), false⟩,
  ⟨0xa0d0, 1, 0x10, 0x10, .u64, .rc, some (.num 0), false⟩,
  ⟨0xa0d0, 1, 0x11, 0x11, .u64, .rc, some (.num 0), false⟩,
  ⟨0xa0d0, 1, 0x12, 0x12, .u64, .rc, some (.num 0), false⟩]

def odPart41 : List OdRow := [
  ⟨0xa0d0, 1, 0x13, 0x13, .u64, .rc, some (.num 0), false⟩,
  ⟨0xa0d0, 1, 0x14, 0x14, .u64, .rc, some (.num 0), false⟩]

def odPart42 : List OdRow := [
  ⟨0xa0e0, 1, 0x1, 0x1, .u64, .rc, some (.num 0), false⟩,
  ⟨0xa0e0, 1, 0x2, 0x2, .u64, .rc, some (.num 0), false⟩,
  ⟨0xa0e0, 1, 0x3, 0x3, .u64, .rc, some (.num 0), false⟩,
  ⟨0xa0e0, 1, 0x4, 0x4, .u64, .rc, some (.num 0), false⟩,
  ⟨0xa0e0, 1, 0x5, 0x5, .u64, .rc, some (.num 0), false⟩,
  ⟨0xa0e0, 1, 0x6, 0x6, .u64, .rc, some (.num 0), false⟩,
  ⟨0xa0e0, 1, 0x7, 0x7, .u64, .rc, some (.num 0), false⟩,
  ⟨0xa0e0, 1, 0x8, 0x8, .u64, .rc, some (.num 0), false⟩,
  ⟨0xa0e0, 1, 0x9, 0x9, .u64, .rc, some (.num 0), false⟩,
  ⟨0xa0e0, 1, 0xa, 0xa, .u64, .rc, some (.num 0), false⟩,
  ⟨0xa0e0, 1, 0xb, 0xb, .u64, .rc, some (.num 0), false⟩,
  ⟨0xa0e0, 1, 0xc, 0xc, .u64, .rc, some (.num 0), false⟩,
  ⟨0xa0e0, 1, 0xd, 0xd, .u64, .rc, some (.num 0), false⟩,
  ⟨0xa0e0, 1, 0xe, 0xe, .u64, .rc, some (.num 0), false⟩]

def odPart43 : List OdRow := [
  ⟨0xa0f0, 1, 0x1, 0x1, .u64, .rc, some (.num 0), false⟩,
  ⟨0xa0f0, 1, 0x2, 0x2, .u64, .rc, some (.num 0), false⟩,
  ⟨0xa0f0, 1, 0x3, 0x3, .u64, .rc, some (.num 0), false⟩,
  ⟨0xa0f0, 1, 0x4, 0x4, .u64, .rc, some (.num 0), false⟩,
  ⟨0xa0f0, 1, 0x5, 0x5, .u64, .rc, some (.num 0), false⟩,
  ⟨0xa0f0, 1, 0x6, 0x6, .u64, .rc, some (.num 0), false⟩,
  ⟨0xa0f0, 1, 0x7, 0x7, .u64, .rc, some (.num 0), false⟩,
  ⟨0xa0f0, 1, 0x8, 0x8, .u64, .rc, some (.num 0), false⟩]

def odPart44 : List OdRow := [
  ⟨0xa100, 1, 0x1, 0x1, .u64, .rc, some (.num 0), false⟩,
  ⟨0xa100, 1, 0x2, 0x2, .u64, .rc, some (.num 0), false⟩,
  ⟨0xa100, 1, 0x3, 0x3, .u64, .rc, some (.num 0), false⟩,
  ⟨0xa100, 1, 0x4, 0x4, .u64, .rc, some (.num 0), false⟩,
  ⟨0xa100, 1, 0x5, 0x5, .u64, .rc, some (.num 0), false⟩,
  ⟨0xa100, 1, 0x6, 0x6, .u64, .rc, some (.num 0), false⟩,
  ⟨0xa100, 1, 0x7, 0x7, .u64, .rc, some (.num 0), false⟩,
  ⟨0xa100, 1, 0x8, 0x8, .u64, .rc, some (.num 0), false⟩,
  ⟨0xa100, 1, 0x9, 0x9, .u64, .rc, some (.num 0), false⟩]

def odPart45 : List OdRow := [
  ⟨0xf000, 1, 1, 1, .u8, .wo, none, false⟩]

/-- Every object of the dictionary but `sub_count`. -/
def odTable : List OdRow :=
  odPart0 ++ odPart1 ++ odPart2 ++ odPart3 ++ odPart4 ++ odPart5 ++ odPart6 ++ odPart7 ++ odPart8 ++ odPart9 ++ odPart10 ++ odPart11 ++ odPart12 ++ odPart13 ++ odPart14 ++ odPart15 ++ odPart16 ++ odPart17 ++ odPart18 ++ odPart19 ++ odPart20 ++ odPart21 ++ odPart22 ++ odPart23 ++ odPart24 ++ odPart25 ++ odPart26 ++ odPart27 ++ odPart28 ++ odPart29 ++ odPart30 ++ odPart31 ++ odPart32 ++ odPart33 ++ odPart34 ++ odPart35 ++ odPart36 ++ odPart37 ++ odPart38 ++ odPart39 ++ odPart40 ++ odPart41 ++ odPart42 ++ odPart43 ++ odPart44 ++ odPart45

/-- Whether a row holds the object of a key. -/
def OdRow.has (r : OdRow) (key : Nat) : Bool :=
  decide (r.base ≤ key / 256 ∧ key / 256 < r.base + r.count ∧ r.lo ≤ key % 256 ∧ key % 256 ≤ r.hi)

/-- The row of a key. -/
def odRow (key : Nat) : Option OdRow := odTable.find? (·.has key)

/-- The value of an object that nothing has written since the start. -/
def odDefault (key : Nat) : Option OdVal := (odRow key).bind (·.dflt)

/-- 0x1001.01 `available_consists` (R30) -/
def kAvailableConsists : Nat := 0x100101
/-- 0x1001.02 `consist_available_map` (R30) -/
def kConsistAvailableMap : Nat := 0x100102
/-- 0x1001.03 `spares_used` (R30) -/
def kSparesUsed : Nat := 0x100103
/-- 0x1001.04 `physical_cores_per_die` (R30) -/
def kPhysicalCoresPerDie : Nat := 0x100104
/-- 0xA030.01 `array_busy_cycles` (R97) -/
def kArrayBusyCycles : Nat := 0xa03001
/-- 0xA030.02 `array_drain_waits` (R97) -/
def kArrayDrainWaits : Nat := 0xa03002
/-- 0xA030.03 `array_bank_waits` (R97) -/
def kArrayBankWaits : Nat := 0xa03003
/-- 0xA030.04 `int_saturations` (R97) -/
def kIntSaturations : Nat := 0xa03004
/-- 0xA030.05 `array_parity_errors` (R97) -/
def kArrayParityErrors : Nat := 0xa03005
/-- 0xA030.06 `spill_records_written` (R97) -/
def kSpillRecordsWritten : Nat := 0xa03006
/-- 0xA030.07 `resume_rejects` (R97) -/
def kResumeRejects : Nat := 0xa03007
/-- 0xA040.01 `nonfinite_array` (R113) -/
def kNonfiniteArray : Nat := 0xa04001
/-- 0xA040.02 `nonfinite_vector` (R113) -/
def kNonfiniteVector : Nat := 0xa04002
/-- 0xA040.03 `zeroed_array` (R113) -/
def kZeroedArray : Nat := 0xa04003
/-- 0xA040.04 `zeroed_vector` (R113) -/
def kZeroedVector : Nat := 0xa04004
/-- 0xA040.05 `blocks_overflowed` (R113) -/
def kBlocksOverflowed : Nat := 0xa04005
/-- 0xA040.06 `block_overflow_writes` (R113) -/
def kBlockOverflowWrites : Nat := 0xa04006
/-- 0xA040.07 `blocks_at_max_scale` (R113) -/
def kBlocksAtMaxScale : Nat := 0xa04007
/-- 0xA040.08 `scale_doublings` (R113) -/
def kScaleDoublings : Nat := 0xa04008
/-- 0xA040.09 `scale_adjusts` (R113) -/
def kScaleAdjusts : Nat := 0xa04009
/-- 0xA040.0A `scale_walks_skipped` (R113) -/
def kScaleWalksSkipped : Nat := 0xa0400a
/-- 0x81pp.01 `watch_enable` (R120) -/
def kWatchEnable (n : Nat) : Nat := 0x810000 + 256 * n + 1
/-- 0x81pp.02 `ewma_beta` (R120) -/
def kEwmaBeta (n : Nat) : Nat := 0x810000 + 256 * n + 2
/-- 0x81pp.03 `spike_k` (R120) -/
def kSpikeK (n : Nat) : Nat := 0x810000 + 256 * n + 3
/-- 0x81pp.04 `warmup_steps` (R120) -/
def kWarmupSteps (n : Nat) : Nat := 0x810000 + 256 * n + 4
/-- 0x81pp.05 `sigma_floor` (R120) -/
def kSigmaFloor (n : Nat) : Nat := 0x810000 + 256 * n + 5
/-- 0x81pp.06 `spike_sided` (R120) -/
def kSpikeSided (n : Nat) : Nat := 0x810000 + 256 * n + 6
/-- 0x81pp.07 `loss_mean` (R120) -/
def kLossMean (n : Nat) : Nat := 0x810000 + 256 * n + 7
/-- 0x81pp.08 `loss_var` (R120) -/
def kLossVar (n : Nat) : Nat := 0x810000 + 256 * n + 8
/-- 0x81pp.09 `loss_last` (R120) -/
def kLossLast (n : Nat) : Nat := 0x810000 + 256 * n + 9
/-- 0x81pp.0A `steps_absorbed` (R120) -/
def kStepsAbsorbed (n : Nat) : Nat := 0x810000 + 256 * n + 10
/-- 0x81pp.0B `flags_last_step` (R120) -/
def kFlagsLastStep (n : Nat) : Nat := 0x810000 + 256 * n + 11
/-- 0x81pp.0C `policy_spike` (R120) -/
def kPolicySpike (n : Nat) : Nat := 0x810000 + 256 * n + 12
/-- 0x81pp.0D `policy_nonfinite_loss` (R120) -/
def kPolicyNonfiniteLoss (n : Nat) : Nat := 0x810000 + 256 * n + 13
/-- 0x81pp.0E `policy_nonfinite_count` (R120) -/
def kPolicyNonfiniteCount (n : Nat) : Nat := 0x810000 + 256 * n + 14
/-- 0x81pp.0F `policy_overflow` (R120) -/
def kPolicyOverflow (n : Nat) : Nat := 0x810000 + 256 * n + 15
/-- 0x81pp.10 `overflow_limit` (R120) -/
def kOverflowLimit (n : Nat) : Nat := 0x810000 + 256 * n + 16
/-- 0x81pp.11 `hold_decision` (R120) -/
def kHoldDecision (n : Nat) : Nat := 0x810000 + 256 * n + 17
/-- 0x81pp.12 `nonfinite_last_step` (R120) -/
def kNonfiniteLastStep (n : Nat) : Nat := 0x810000 + 256 * n + 18
/-- 0x81pp.13 `zeroed_last_step` (R120) -/
def kZeroedLastStep (n : Nat) : Nat := 0x810000 + 256 * n + 19
/-- 0x81pp.14 `overflowed_last_step` (R120) -/
def kOverflowedLastStep (n : Nat) : Nat := 0x810000 + 256 * n + 20
/-- 0x81pp.15 `step_outcome_last` (R120) -/
def kStepOutcomeLast (n : Nat) : Nat := 0x810000 + 256 * n + 21
/-- 0x81pp.16 `skipped_steps` (R120) -/
def kSkippedSteps (n : Nat) : Nat := 0x810000 + 256 * n + 22
/-- 0x1002.01 `ovi_major_min` (R164) -/
def kOviMajorMin : Nat := 0x100201
/-- 0x1002.02 `ovi_major_max` (R164) -/
def kOviMajorMax : Nat := 0x100202
/-- 0x1002.03 `phrasebook_revision` (R164) -/
def kPhrasebookRevision : Nat := 0x100203
/-- 0xA050.01 `verbs_broadcast` (R165) -/
def kVerbsBroadcast : Nat := 0xa05001
/-- 0xA050.02 `queue_full_stalls` (R165) -/
def kQueueFullStalls : Nat := 0xa05002
/-- 0xA050.03 `tokens_posted` (R165) -/
def kTokensPosted : Nat := 0xa05003
/-- 0xA050.04 `tokens_error` (R165) -/
def kTokensError : Nat := 0xa05004
/-- 0xA050.05 `verbs_aborted_input` (R165) -/
def kVerbsAbortedInput : Nat := 0xa05005
/-- 0xA050.06 `verbs_partial` (R165) -/
def kVerbsPartial : Nat := 0xa05006
/-- 0xA050.07 `loops_zero_count` (R165) -/
def kLoopsZeroCount : Nat := 0xa05007
/-- 0xA050.08 `phrasebook_calls` (R165) -/
def kPhrasebookCalls : Nat := 0xa05008
/-- 0xA050.09 `scoreboard_full_cycles` (R165) -/
def kScoreboardFullCycles : Nat := 0xa05009
/-- 0xA050.0A `fault_records_written` (R165) -/
def kFaultRecordsWritten : Nat := 0xa0500a
/-- 0x7000.01 `tick_cycles` (R169) -/
def kTickCycles : Nat := 0x700001
/-- 0x7000.02 `tick_cycles_next` (R169) -/
def kTickCyclesNext : Nat := 0x700002
/-- 0x7000.03 `tick_change_at` (R169) -/
def kTickChangeAt : Nat := 0x700003
/-- 0x7000.04 `tick_epoch` (R169) -/
def kTickEpoch : Nat := 0x700004
/-- 0x7000.05 `tick_now` (R169) -/
def kTickNow : Nat := 0x700005
/-- 0x7000.06 `cycles_per_tick_now` (R169) -/
def kCyclesPerTickNow : Nat := 0x700006
/-- 0x7000.07 `time_source` (R169) -/
def kTimeSource : Nat := 0x700007
/-- 0x7000.08 `ptp_port` (R169) -/
def kPtpPort : Nat := 0x700008
/-- 0x7000.09 `align_limit` (R169) -/
def kAlignLimit : Nat := 0x700009
/-- 0x7000.0A `offset_bound` (R169) -/
def kOffsetBound : Nat := 0x70000a
/-- 0x7000.0B `tick_aligned` (R169) -/
def kTickAligned : Nat := 0x70000b
/-- 0x7000.0C `anchor_lead` (R169) -/
def kAnchorLead : Nat := 0x70000c
/-- 0xA070.01 `tick_boundaries` (R197) -/
def kTickBoundaries : Nat := 0xa07001
/-- 0xA070.02 `ticks_skipped` (R197) -/
def kTicksSkipped : Nat := 0xa07002
/-- 0xA070.03 `alignment_losses` (R197) -/
def kAlignmentLosses : Nat := 0xa07003
/-- 0xA070.04 `time_steps` (R197) -/
def kTimeSteps : Nat := 0xa07004
/-- 0xA070.05 `slots_completed` (R197) -/
def kSlotsCompleted : Nat := 0xa07005
/-- 0xA070.06 `slot_overruns` (R197) -/
def kSlotOverruns : Nat := 0xa07006
/-- 0xA070.07 `slots_late` (R197) -/
def kSlotsLate : Nat := 0xa07007
/-- 0xA070.08 `signal_wait_cycles` (R197) -/
def kSignalWaitCycles : Nat := 0xa07008
/-- 0xA070.09 `posts_refused` (R197) -/
def kPostsRefused : Nat := 0xa07009
/-- 0xA070.0A `arrivals_refused` (R197) -/
def kArrivalsRefused : Nat := 0xa0700a
/-- 0xA070.0B `deadlocks_detected` (R197) -/
def kDeadlocksDetected : Nat := 0xa0700b
/-- 0x3010.01 `near_capacity` (R225) -/
def kNearCapacity : Nat := 0x301001
/-- 0x3010.02 `near_granules_free` (R225) -/
def kNearGranulesFree : Nat := 0x301002
/-- 0x3010.03 `near_region_fault_map` (R225) -/
def kNearRegionFaultMap : Nat := 0x301003
/-- 0x3010.04 `patrol_period` (R225) -/
def kPatrolPeriod : Nat := 0x301004
/-- 0x3020.01 `far_parity_map` (R225) -/
def kFarParityMap : Nat := 0x302001
/-- 0x3020.02 `far_parity_active` (R225) -/
def kFarParityActive : Nat := 0x302002
/-- 0x3020.03 `far_capacity` (R225) -/
def kFarCapacity : Nat := 0x302003
/-- 0x3020.04 `far_granules_free` (R225) -/
def kFarGranulesFree : Nat := 0x302004
/-- 0x3020.05 `far_channel_failed` (R225) -/
def kFarChannelFailed : Nat := 0x302005
/-- 0x3020.06 `far_degraded_groups` (R225) -/
def kFarDegradedGroups : Nat := 0x302006
/-- 0x3020.07 `far_poison_entries` (R225) -/
def kFarPoisonEntries : Nat := 0x302007
/-- 0x3030.01 `staging_granules_free` (R225) -/
def kStagingGranulesFree : Nat := 0x303001
/-- 0xA031.01 `sram_corrected` (R226) -/
def kSramCorrected : Nat := 0xa03101
/-- 0xA031.02 `sram_uncorrectable` (R226) -/
def kSramUncorrectable : Nat := 0xa03102
/-- 0xA031.03 `near_corrected` (R226) -/
def kNearCorrected : Nat := 0xa03103
/-- 0xA031.04 `near_uncorrectable` (R226) -/
def kNearUncorrectable : Nat := 0xa03104
/-- 0xA031.05 `far_corrected` (R226) -/
def kFarCorrected : Nat := 0xa03105
/-- 0xA031.06 `far_uncorrectable` (R226) -/
def kFarUncorrectable : Nat := 0xa03106
/-- 0xA031.07 `far_reconstructed` (R226) -/
def kFarReconstructed : Nat := 0xa03107
/-- 0xA031.08 `far_rmw_writes` (R226) -/
def kFarRmwWrites : Nat := 0xa03108
/-- 0xA031.09 `poison_table_full` (R226) -/
def kPoisonTableFull : Nat := 0xa03109
/-- 0xA031.0A `access_denied` (R226) -/
def kAccessDenied : Nat := 0xa0310a
/-- 0xA031.0B `scrub_bytes` (R226) -/
def kScrubBytes : Nat := 0xa0310b
/-- 0xA031.0C `patrol_passes` (R226) -/
def kPatrolPasses : Nat := 0xa0310c
/-- 0xA080.01 `blocks_moved` (R248) -/
def kBlocksMoved : Nat := 0xa08001
/-- 0xA080.02 `bytes_moved` (R248) -/
def kBytesMoved : Nat := 0xa08002
/-- 0xA080.03 `small_blocks` (R248) -/
def kSmallBlocks : Nat := 0xa08003
/-- 0xA080.04 `small_block_overhead_cycles` (R248) -/
def kSmallBlockOverheadCycles : Nat := 0xa08004
/-- 0xA080.05 `multicast_blocks` (R248) -/
def kMulticastBlocks : Nat := 0xa08005
/-- 0xA080.06 `multicast_window_stalls` (R248) -/
def kMulticastWindowStalls : Nat := 0xa08006
/-- 0xA080.07 `uncouplings` (R248) -/
def kUncouplings : Nat := 0xa08007
/-- 0xA080.08 `refetch_blocks` (R248) -/
def kRefetchBlocks : Nat := 0xa08008
/-- 0xA080.09 `atomic_add_lines` (R248) -/
def kAtomicAddLines : Nat := 0xa08009
/-- 0xA080.0A `add_nonfinite` (R248) -/
def kAddNonfinite : Nat := 0xa0800a
/-- 0xA080.0B `add_saturations` (R248) -/
def kAddSaturations : Nat := 0xa0800b
/-- 0xA080.0C `convert_nonfinite` (R248) -/
def kConvertNonfinite : Nat := 0xa0800c
/-- 0xA080.0D `blocks_failed` (R248) -/
def kBlocksFailed : Nat := 0xa0800d
/-- 0xA080.0E `background_dispatches` (R248) -/
def kBackgroundDispatches : Nat := 0xa0800e
/-- 0x3000.01 `depot_raw_bytes` (R268) -/
def kDepotRawBytes : Nat := 0x300001
/-- 0x3000.02 `depot_logical_blocks` (R268) -/
def kDepotLogicalBlocks : Nat := 0x300002
/-- 0x3000.03 `depot_granules_free` (R268) -/
def kDepotGranulesFree : Nat := 0x300003
/-- 0x3000.04 `depot_preserved_granules` (R268) -/
def kDepotPreservedGranules : Nat := 0x300004
/-- 0x3000.05 `depot_preserve_set` (R268) -/
def kDepotPreserveSet : Nat := 0x300005
/-- 0x3000.06 `depot_preserve_clear` (R268) -/
def kDepotPreserveClear : Nat := 0x300006
/-- 0x3000.07 `depot_wear_pct` (R268) -/
def kDepotWearPct : Nat := 0x300007
/-- 0x3000.08 `depot_endurance_bytes` (R268) -/
def kDepotEnduranceBytes : Nat := 0x300008
/-- 0x3000.09 `depot_host_bytes_written` (R268) -/
def kDepotHostBytesWritten : Nat := 0x300009
/-- 0x3000.0A `depot_read_only` (R268) -/
def kDepotReadOnly : Nat := 0x30000a
/-- 0x3000.0B `depot_bg_limit_pct` (R268) -/
def kDepotBgLimitPct : Nat := 0x30000b
/-- 0xA090.01 `depot_blocks_read` (R268) -/
def kDepotBlocksRead : Nat := 0xa09001
/-- 0xA090.02 `depot_blocks_written` (R268) -/
def kDepotBlocksWritten : Nat := 0xa09002
/-- 0xA090.03 `depot_partial_writes` (R268) -/
def kDepotPartialWrites : Nat := 0xa09003
/-- 0xA090.04 `depot_unmapped_reads` (R268) -/
def kDepotUnmappedReads : Nat := 0xa09004
/-- 0xA090.05 `depot_write_waits` (R268) -/
def kDepotWriteWaits : Nat := 0xa09005
/-- 0xA090.06 `depot_disturb_refreshes` (R268) -/
def kDepotDisturbRefreshes : Nat := 0xa09006
/-- 0xA090.07 `depot_rebuilt` (R268) -/
def kDepotRebuilt : Nat := 0xa09007
/-- 0xA090.08 `depot_uncorrectable` (R268) -/
def kDepotUncorrectable : Nat := 0xa09008
/-- 0xA090.09 `depot_bg_busy_us` (R268) -/
def kDepotBgBusyUs : Nat := 0xa09009
/-- 0x82pp.01 `layer_table_addr` (R296) -/
def kLayerTableAddr (n : Nat) : Nat := 0x820000 + 256 * n + 1
/-- 0x82pp.02 `sr_seed` (R296) -/
def kSrSeed (n : Nat) : Nat := 0x820000 + 256 * n + 2
/-- 0x82pp.03 `step_wait_ticks` (R296) -/
def kStepWaitTicks (n : Nat) : Nat := 0x820000 + 256 * n + 3
/-- 0x82pp.04 `decision_wait_ticks` (R296) -/
def kDecisionWaitTicks (n : Nat) : Nat := 0x820000 + 256 * n + 4
/-- 0x82pp.05 `step_state` (R296) -/
def kStepState (n : Nat) : Nat := 0x820000 + 256 * n + 5
/-- 0x82pp.06 `vote_status_last` (R296) -/
def kVoteStatusLast (n : Nat) : Nat := 0x820000 + 256 * n + 6
/-- 0x82pp.07 `decision_last` (R296) -/
def kDecisionLast (n : Nat) : Nat := 0x820000 + 256 * n + 7
/-- 0x82pp.08 `in_doubt_resolve` (R296) -/
def kInDoubtResolve (n : Nat) : Nat := 0x820000 + 256 * n + 8
/-- 0x82pp.09 `rule_slots_loaded` (R296) -/
def kRuleSlotsLoaded (n : Nat) : Nat := 0x820000 + 256 * n + 9
/-- 0xA0A0.01 `yard_params_updated` (R297) -/
def kYardParamsUpdated : Nat := 0xa0a001
/-- 0xA0A0.02 `yard_params_frozen` (R297) -/
def kYardParamsFrozen : Nat := 0xa0a002
/-- 0xA0A0.03 `yard_nonfinite_kept` (R297) -/
def kYardNonfiniteKept : Nat := 0xa0a003
/-- 0xA0A0.04 `yard_counter_skews` (R297) -/
def kYardCounterSkews : Nat := 0xa0a004
/-- 0xA0A0.05 `yard_apply_faults` (R297) -/
def kYardApplyFaults : Nat := 0xa0a005
/-- 0xA0A0.06 `yard_locked_writes` (R297) -/
def kYardLockedWrites : Nat := 0xa0a006
/-- 0xA0A0.07 `votes_no` (R297) -/
def kVotesNo : Nat := 0xa0a007
/-- 0xA0A0.08 `decisions_commit` (R297) -/
def kDecisionsCommit : Nat := 0xa0a008
/-- 0xA0A0.09 `decisions_skip` (R297) -/
def kDecisionsSkip : Nat := 0xa0a009
/-- 0xA0A0.0A `decisions_abort` (R297) -/
def kDecisionsAbort : Nat := 0xa0a00a
/-- 0xA0A0.0B `in_doubt_events` (R297) -/
def kInDoubtEvents : Nat := 0xa0a00b
/-- 0xA0A0.0C `yard_busy_us` (R297) -/
def kYardBusyUs : Nat := 0xa0a00c
/-- 0x83pp.01 `job_map_addr` (R323) -/
def kJobMapAddr (n : Nat) : Nat := 0x830000 + 256 * n + 1
/-- 0x83pp.02 `siding_limit` (R323) -/
def kSidingLimit (n : Nat) : Nat := 0x830000 + 256 * n + 2
/-- 0x83pp.03 `siding_parked_max` (R323) -/
def kSidingParkedMax (n : Nat) : Nat := 0x830000 + 256 * n + 3
/-- 0x83pp.04 `points_phase` (R323) -/
def kPointsPhase (n : Nat) : Nat := 0x830000 + 256 * n + 4
/-- 0x83pp.05 `points_pending` (R323) -/
def kPointsPending (n : Nat) : Nat := 0x830000 + 256 * n + 5
/-- 0x83pp.06 `points_state` (R323) -/
def kPointsState (n : Nat) : Nat := 0x830000 + 256 * n + 6
/-- 0xA0B0.01 `siding_parks` (R324) -/
def kSidingParks : Nat := 0xa0b001
/-- 0xA0B0.02 `siding_bubble_runs` (R324) -/
def kSidingBubbleRuns : Nat := 0xa0b002
/-- 0xA0B0.03 `siding_drain_runs` (R324) -/
def kSidingDrainRuns : Nat := 0xa0b003
/-- 0xA0B0.04 `siding_full_runs` (R324) -/
def kSidingFullRuns : Nat := 0xa0b004
/-- 0xA0B0.05 `siding_discarded` (R324) -/
def kSidingDiscarded : Nat := 0xa0b005
/-- 0xA0B0.06 `siding_interference_cycles` (R324) -/
def kSidingInterferenceCycles : Nat := 0xa0b006
/-- 0xA0B0.07 `points_changes` (R324) -/
def kPointsChanges : Nat := 0xa0b007
/-- 0xA0B0.08 `points_deferrals` (R324) -/
def kPointsDeferrals : Nat := 0xa0b008
/-- 0x4000.01 `cage_mode` (R348) -/
def kCageMode : Nat := 0x400001
/-- 0x4000.02 `cage_mode_active` (R348) -/
def kCageModeActive : Nat := 0x400002
/-- 0x4000.03 `ptp_domain` (R348) -/
def kPtpDomain : Nat := 0x400003
/-- 0x4000.04 `ptp_vid` (R348) -/
def kPtpVid : Nat := 0x400004
/-- 0x4000.05 `pcp_timetabled` (R348) -/
def kPcpTimetabled : Nat := 0x400005
/-- 0x4000.06 `pcp_free` (R348) -/
def kPcpFree : Nat := 0x400006
/-- 0x4000.07 `flow_control` (R348) -/
def kFlowControl : Nat := 0x400007
/-- 0x410n.01 `mac_address` (R348) -/
def kMacAddress (n : Nat) : Nat := 0x410000 + 256 * n + 1
/-- 0x410n.02 `link_up` (R348) -/
def kLinkUp (n : Nat) : Nat := 0x410000 + 256 * n + 2
/-- 0x410n.03 `port_speed` (R348) -/
def kPortSpeed (n : Nat) : Nat := 0x410000 + 256 * n + 3
/-- 0x410n.04 `ptp_ingress_latency` (R348) -/
def kPtpIngressLatency (n : Nat) : Nat := 0x410000 + 256 * n + 4
/-- 0x410n.05 `ptp_egress_latency` (R348) -/
def kPtpEgressLatency (n : Nat) : Nat := 0x410000 + 256 * n + 5
/-- 0x410n.06 `port_enable` (R348) -/
def kPortEnable (n : Nat) : Nat := 0x410000 + 256 * n + 6
/-- 0x42pp.01 `vid` (R348) -/
def kVid (n : Nat) : Nat := 0x420000 + 256 * n + 1
/-- 0x42pp.02 `port_map` (R348) -/
def kPortMap (n : Nat) : Nat := 0x420000 + 256 * n + 2
/-- 0x42pp.03 `secure_channels_up` (R348) -/
def kSecureChannelsUp (n : Nat) : Nat := 0x420000 + 256 * n + 3
/-- 0x42pp.04 `kem_public_key` (R348) -/
def kKemPublicKey (n : Nat) : Nat := 0x420000 + 256 * n + 4
/-- 0xA0Cn.01 `tx_frames` (R349) -/
def kTxFrames (n : Nat) : Nat := 0xa0c000 + 256 * n + 1
/-- 0xA0Cn.02 `tx_bytes` (R349) -/
def kTxBytes (n : Nat) : Nat := 0xa0c000 + 256 * n + 2
/-- 0xA0Cn.03 `rx_frames` (R349) -/
def kRxFrames (n : Nat) : Nat := 0xa0c000 + 256 * n + 3
/-- 0xA0Cn.04 `rx_bytes` (R349) -/
def kRxBytes (n : Nat) : Nat := 0xa0c000 + 256 * n + 4
/-- 0xA0Cn.05 `rx_fcs_errors` (R349) -/
def kRxFcsErrors (n : Nat) : Nat := 0xa0c000 + 256 * n + 5
/-- 0xA0Cn.06 `rx_undersize` (R349) -/
def kRxUndersize (n : Nat) : Nat := 0xa0c000 + 256 * n + 6
/-- 0xA0Cn.07 `rx_oversize` (R349) -/
def kRxOversize (n : Nat) : Nat := 0xa0c000 + 256 * n + 7
/-- 0xA0Cn.08 `rx_fec_frame_drops` (R349) -/
def kRxFecFrameDrops (n : Nat) : Nat := 0xa0c000 + 256 * n + 8
/-- 0xA0Cn.09 `rx_buffer_drops` (R349) -/
def kRxBufferDrops (n : Nat) : Nat := 0xa0c000 + 256 * n + 9
/-- 0xA0Cn.0A `rx_untagged_drops` (R349) -/
def kRxUntaggedDrops (n : Nat) : Nat := 0xa0c000 + 256 * n + 10
/-- 0xA0Cn.0B `rx_vlan_unknown` (R349) -/
def kRxVlanUnknown (n : Nat) : Nat := 0xa0c000 + 256 * n + 11
/-- 0xA0Cn.0C `rx_da_drops` (R349) -/
def kRxDaDrops (n : Nat) : Nat := 0xa0c000 + 256 * n + 12
/-- 0xA0Cn.0D `rx_pause_frames` (R349) -/
def kRxPauseFrames (n : Nat) : Nat := 0xa0c000 + 256 * n + 13
/-- 0xA0Cn.0E `tx_pause_frames` (R349) -/
def kTxPauseFrames (n : Nat) : Nat := 0xa0c000 + 256 * n + 14
/-- 0xA0Cn.0F `rx_pfc_frames` (R349) -/
def kRxPfcFrames (n : Nat) : Nat := 0xa0c000 + 256 * n + 15
/-- 0xA0Cn.10 `tx_pfc_frames` (R349) -/
def kTxPfcFrames (n : Nat) : Nat := 0xa0c000 + 256 * n + 16
/-- 0xA0Cn.11 `tx_link_down_drops` (R349) -/
def kTxLinkDownDrops (n : Nat) : Nat := 0xa0c000 + 256 * n + 17
/-- 0xA0Cn.12 `fec_corrected_codewords` (R349) -/
def kFecCorrectedCodewords (n : Nat) : Nat := 0xa0c000 + 256 * n + 18
/-- 0xA0Cn.13 `fec_uncorrected_codewords` (R349) -/
def kFecUncorrectedCodewords (n : Nat) : Nat := 0xa0c000 + 256 * n + 19
/-- 0xA0Cn.14 `fec_symbol_errors` (R349) -/
def kFecSymbolErrors (n : Nat) : Nat := 0xa0c000 + 256 * n + 20
/-- 0xA0Cn.15 `link_down_events` (R349) -/
def kLinkDownEvents (n : Nat) : Nat := 0xa0c000 + 256 * n + 21
/-- 0xA0Cn.16 `ptp_event_rx` (R349) -/
def kPtpEventRx (n : Nat) : Nat := 0xa0c000 + 256 * n + 22
/-- 0xA0Cn.17 `ptp_event_tx` (R349) -/
def kPtpEventTx (n : Nat) : Nat := 0xa0c000 + 256 * n + 23
/-- 0xA0Cn.18 `ptp_bad_messages` (R349) -/
def kPtpBadMessages (n : Nat) : Nat := 0xa0c000 + 256 * n + 24
/-- 0xA0Cn.19 `macsec_tx_protected` (R349) -/
def kMacsecTxProtected (n : Nat) : Nat := 0xa0c000 + 256 * n + 25
/-- 0xA0Cn.1A `macsec_rx_ok` (R349) -/
def kMacsecRxOk (n : Nat) : Nat := 0xa0c000 + 256 * n + 26
/-- 0xA0Cn.1B `macsec_rx_unprotected` (R349) -/
def kMacsecRxUnprotected (n : Nat) : Nat := 0xa0c000 + 256 * n + 27
/-- 0xA0Cn.1C `macsec_rx_not_valid` (R349) -/
def kMacsecRxNotValid (n : Nat) : Nat := 0xa0c000 + 256 * n + 28
/-- 0xA0Cn.1D `macsec_rx_late` (R349) -/
def kMacsecRxLate (n : Nat) : Nat := 0xa0c000 + 256 * n + 29
/-- 0xA0Cn.1E `macsec_rx_unknown_sci` (R349) -/
def kMacsecRxUnknownSci (n : Nat) : Nat := 0xa0c000 + 256 * n + 30
/-- 0xA0Cn.1F `macsec_rekeys` (R349) -/
def kMacsecRekeys (n : Nat) : Nat := 0xa0c000 + 256 * n + 31
/-- 0xA0Cn.20 `macsec_auth_failures` (R349) -/
def kMacsecAuthFailures (n : Nat) : Nat := 0xa0c000 + 256 * n + 32
/-- 0xA0Cn.21 `macsec_pn_stalls` (R349) -/
def kMacsecPnStalls (n : Nat) : Nat := 0xa0c000 + 256 * n + 33
/-- 0xA0Cn.22 `rx_mac_control_other` (R349) -/
def kRxMacControlOther (n : Nat) : Nat := 0xa0c000 + 256 * n + 34
/-- 0x5000.01 `hrt_udp_port` (R383) -/
def kHrtUdpPort : Nat := 0x500001
/-- 0x5000.02 `rto_us` (R383) -/
def kRtoUs : Nat := 0x500002
/-- 0x5000.03 `retx_limit` (R383) -/
def kRetxLimit : Nat := 0x500003
/-- 0x5000.04 `partner_timeout_ms` (R383) -/
def kPartnerTimeoutMs : Nat := 0x500004
/-- 0x5000.05 `ack_delay_ns` (R383) -/
def kAckDelayNs : Nat := 0x500005
/-- 0x5000.06 `quarantine_threshold` (R383) -/
def kQuarantineThreshold : Nat := 0x500006
/-- 0x5000.07 `cwnd_initial` (R383) -/
def kCwndInitial : Nat := 0x500007
/-- 0x51pp.01–.08 `local_ip` (R383), from 1 -/
def kLocalIp (n i : Nat) : Nat := 0x510000 + 256 * n + i
/-- 0x51pp.09 `path_shadow_phase` (R383) -/
def kPathShadowPhase (n : Nat) : Nat := 0x510000 + 256 * n + 9
/-- 0x51pp.0A `path_shadow_load` (R383) -/
def kPathShadowLoad (n : Nat) : Nat := 0x510000 + 256 * n + 10
/-- 0x51pp.0B `path_shadow_state` (R383) -/
def kPathShadowState (n : Nat) : Nat := 0x510000 + 256 * n + 11
/-- 0x51pp.0C `peer_absent_map` (R383) -/
def kPeerAbsentMap (n : Nat) : Nat := 0x510000 + 256 * n + 12
/-- 0x51pp.0D `peer_slow_map` (R383) -/
def kPeerSlowMap (n : Nat) : Nat := 0x510000 + 256 * n + 13
/-- 0x51pp.0E `peer_quarantine_map` (R383) -/
def kPeerQuarantineMap (n : Nat) : Nat := 0x510000 + 256 * n + 14
/-- 0x51pp.0F `peer_quarantine_clear` (R383) -/
def kPeerQuarantineClear (n : Nat) : Nat := 0x510000 + 256 * n + 15
/-- 0x51pp.10 `windows_registered` (R383) -/
def kWindowsRegistered (n : Nat) : Nat := 0x510000 + 256 * n + 16
/-- 0xA0D0.01 `hrt_tx_frames` (R384) -/
def kHrtTxFrames : Nat := 0xa0d001
/-- 0xA0D0.02 `hrt_rx_frames` (R384) -/
def kHrtRxFrames : Nat := 0xa0d002
/-- 0xA0D0.03 `hrt_retransmits` (R384) -/
def kHrtRetransmits : Nat := 0xa0d003
/-- 0xA0D0.04 `hrt_acks_sent` (R384) -/
def kHrtAcksSent : Nat := 0xa0d004
/-- 0xA0D0.05 `hrt_rx_duplicates` (R384) -/
def kHrtRxDuplicates : Nat := 0xa0d005
/-- 0xA0D0.06 `hrt_rx_out_of_window` (R384) -/
def kHrtRxOutOfWindow : Nat := 0xa0d006
/-- 0xA0D0.07 `hrt_rx_stale_epoch` (R384) -/
def kHrtRxStaleEpoch : Nat := 0xa0d007
/-- 0xA0D0.08 `hrt_rx_malformed` (R384) -/
def kHrtRxMalformed : Nat := 0xa0d008
/-- 0xA0D0.09 `hrt_refusals_sent` (R384) -/
def kHrtRefusalsSent : Nat := 0xa0d009
/-- 0xA0D0.0A `hrt_ip_drops` (R384) -/
def kHrtIpDrops : Nat := 0xa0d00a
/-- 0xA0D0.0B `hrt_ce_received` (R384) -/
def kHrtCeReceived : Nat := 0xa0d00b
/-- 0xA0D0.0C `hrt_cwnd_cuts` (R384) -/
def kHrtCwndCuts : Nat := 0xa0d00c
/-- 0xA0D0.0D `hrt_paths_opened` (R384) -/
def kHrtPathsOpened : Nat := 0xa0d00d
/-- 0xA0D0.0E `hrt_timetabled_frames` (R384) -/
def kHrtTimetabledFrames : Nat := 0xa0d00e
/-- 0xA0D0.0F `hrt_no_path_wait_ticks` (R384) -/
def kHrtNoPathWaitTicks : Nat := 0xa0d00f
/-- 0xA0D0.10 `hrt_partner_absent` (R384) -/
def kHrtPartnerAbsent : Nat := 0xa0d010
/-- 0xA0D0.11 `hrt_partner_slow` (R384) -/
def kHrtPartnerSlow : Nat := 0xa0d011
/-- 0xA0D0.12 `hrt_quarantines` (R384) -/
def kHrtQuarantines : Nat := 0xa0d012
/-- 0xA0D0.13 `hrt_rx_quarantined_drops` (R384) -/
def kHrtRxQuarantinedDrops : Nat := 0xa0d013
/-- 0xA0D0.14 `hrt_window_bytes` (R384) -/
def kHrtWindowBytes : Nat := 0xa0d014
/-- 0x1010.01 `host_loss_mode` (R414) -/
def kHostLossMode : Nat := 0x101001
/-- 0x1010.02 `brynq_links_up` (R414) -/
def kBrynqLinksUp : Nat := 0x101002
/-- 0x1010.03 `brynq_retry_window` (R414) -/
def kBrynqRetryWindow : Nat := 0x101003
/-- 0x1010.04 `host_queues_enabled` (R414) -/
def kHostQueuesEnabled : Nat := 0x101004
/-- 0x1010.05 `hold_state` (R414) -/
def kHoldState : Nat := 0x101005
/-- 0xA0E0.01 `link_retrains` (R415) -/
def kLinkRetrains : Nat := 0xa0e001
/-- 0xA0E0.02 `link_degraded_events` (R415) -/
def kLinkDegradedEvents : Nat := 0xa0e002
/-- 0xA0E0.03 `host_losses` (R415) -/
def kHostLosses : Nat := 0xa0e003
/-- 0xA0E0.04 `manifests_fetched` (R415) -/
def kManifestsFetched : Nat := 0xa0e004
/-- 0xA0E0.05 `manifest_rereads` (R415) -/
def kManifestRereads : Nat := 0xa0e005
/-- 0xA0E0.06 `stale_manifests` (R415) -/
def kStaleManifests : Nat := 0xa0e006
/-- 0xA0E0.07 `completions_written` (R415) -/
def kCompletionsWritten : Nat := 0xa0e007
/-- 0xA0E0.08 `completions_retained` (R415) -/
def kCompletionsRetained : Nat := 0xa0e008
/-- 0xA0E0.09 `host_writes_dropped` (R415) -/
def kHostWritesDropped : Nat := 0xa0e009
/-- 0xA0E0.0A `aperture_refused` (R415) -/
def kApertureRefused : Nat := 0xa0e00a
/-- 0xA0E0.0B `aperture_poison_reads` (R415) -/
def kAperturePoisonReads : Nat := 0xa0e00b
/-- 0xA0E0.0C `doorbell_errors` (R415) -/
def kDoorbellErrors : Nat := 0xa0e00c
/-- 0xA0E0.0D `adoptions` (R415) -/
def kAdoptions : Nat := 0xa0e00d
/-- 0xA0E0.0E `adoption_failures` (R415) -/
def kAdoptionFailures : Nat := 0xa0e00e
/-- 0x6000.01 `identity_chain` (R442) -/
def kIdentityChain : Nat := 0x600001
/-- 0x6000.02 `identity_fingerprint` (R442) -/
def kIdentityFingerprint : Nat := 0x600002
/-- 0x6000.03 `device_kem_public_key` (R442) -/
def kDeviceKemPublicKey : Nat := 0x600003
/-- 0x6000.04 `quote_request` (R442) -/
def kQuoteRequest : Nat := 0x600004
/-- 0x6000.05 `measurement_slots` (R442) -/
def kMeasurementSlots : Nat := 0x600005
/-- 0x6000.06 `measurement_log` (R442) -/
def kMeasurementLog : Nat := 0x600006
/-- 0x6000.07 `debug_state` (R442) -/
def kDebugState : Nat := 0x600007
/-- 0x6000.08 `debug_consent` (R442) -/
def kDebugConsent : Nat := 0x600008
/-- 0x6000.09 `debug_open` (R442) -/
def kDebugOpen : Nat := 0x600009
/-- 0x6000.0A `reprovision_csr` (R442) -/
def kReprovisionCsr : Nat := 0x60000a
/-- 0x6000.0B `identity_cert_write` (R442) -/
def kIdentityCertWrite : Nat := 0x60000b
/-- 0x6000.0C `operator_keys` (R442) -/
def kOperatorKeys : Nat := 0x60000c
/-- 0x6000.0D `observer_keys` (R442) -/
def kObserverKeys : Nat := 0x60000d
/-- 0x6000.0E `service_key` (R442) -/
def kServiceKey : Nat := 0x60000e
/-- 0x6000.0F `boot_count` (R442) -/
def kBootCount : Nat := 0x60000f
/-- 0x61pp.01 `part_state` (R443) -/
def kPartState (n : Nat) : Nat := 0x610000 + 256 * n + 1
/-- 0x61pp.02 `grant_consists` (R443) -/
def kGrantConsists (n : Nat) : Nat := 0x610000 + 256 * n + 2
/-- 0x61pp.03 `grant_near` (R443) -/
def kGrantNear (n : Nat) : Nat := 0x610000 + 256 * n + 3
/-- 0x61pp.04 `grant_far` (R443) -/
def kGrantFar (n : Nat) : Nat := 0x610000 + 256 * n + 4
/-- 0x61pp.05 `grant_staging` (R443) -/
def kGrantStaging (n : Nat) : Nat := 0x610000 + 256 * n + 5
/-- 0x61pp.06 `grant_depot` (R443) -/
def kGrantDepot (n : Nat) : Nat := 0x610000 + 256 * n + 6
/-- 0x61pp.07 `grant_sems` (R443) -/
def kGrantSems (n : Nat) : Nat := 0x610000 + 256 * n + 7
/-- 0x61pp.08 `grant_qps` (R443) -/
def kGrantQps (n : Nat) : Nat := 0x610000 + 256 * n + 8
/-- 0x61pp.09 `grant_commit` (R443) -/
def kGrantCommit (n : Nat) : Nat := 0x610000 + 256 * n + 9
/-- 0x61pp.0A `grant_status` (R443) -/
def kGrantStatus (n : Nat) : Nat := 0x610000 + 256 * n + 10
/-- 0x61pp.0B `grant_epoch` (R443) -/
def kGrantEpoch (n : Nat) : Nat := 0x610000 + 256 * n + 11
/-- 0x61pp.0C `tenant_key` (R443) -/
def kTenantKey (n : Nat) : Nat := 0x610000 + 256 * n + 12
/-- 0x61pp.0D `depot_key_mode` (R443) -/
def kDepotKeyMode (n : Nat) : Nat := 0x610000 + 256 * n + 13
/-- 0x61pp.0E `key_challenge` (R443) -/
def kKeyChallenge (n : Nat) : Nat := 0x610000 + 256 * n + 14
/-- 0x61pp.0F `depot_key_import` (R443) -/
def kDepotKeyImport (n : Nat) : Nat := 0x610000 + 256 * n + 15
/-- 0x61pp.10 `depot_key_check` (R443) -/
def kDepotKeyCheck (n : Nat) : Nat := 0x610000 + 256 * n + 16
/-- 0x61pp.11 `image_digest` (R443) -/
def kImageDigest (n : Nat) : Nat := 0x610000 + 256 * n + 17
/-- 0xA0F0.01 `grant_swaps` (R444) -/
def kGrantSwaps : Nat := 0xa0f001
/-- 0xA0F0.02 `grant_refusals` (R444) -/
def kGrantRefusals : Nat := 0xa0f002
/-- 0xA0F0.03 `consist_scrubs` (R444) -/
def kConsistScrubs : Nat := 0xa0f003
/-- 0xA0F0.04 `key_import_failures` (R444) -/
def kKeyImportFailures : Nat := 0xa0f004
/-- 0xA0F0.05 `quotes_signed` (R444) -/
def kQuotesSigned : Nat := 0xa0f005
/-- 0xA0F0.06 `quote_refusals` (R444) -/
def kQuoteRefusals : Nat := 0xa0f006
/-- 0xA0F0.07 `debug_unlock_failures` (R444) -/
def kDebugUnlockFailures : Nat := 0xa0f007
/-- 0xA0F0.08 `tap_refused` (R444) -/
def kTapRefused : Nat := 0xa0f008
/-- 0x1000.01 `part_number` (R469) -/
def kPartNumber : Nat := 0x100001
/-- 0x1000.02 `ordering_code` (R469) -/
def kOrderingCode : Nat := 0x100002
/-- 0x1000.03 `module_serial` (R469) -/
def kModuleSerial : Nat := 0x100003
/-- 0x1000.04 `dictionary_format` (R469) -/
def kDictionaryFormat : Nat := 0x100004
/-- 0x1020.01 `mgmt_mac` (R469) -/
def kMgmtMac : Nat := 0x102001
/-- 0x1020.02 `mgmt_ip` (R469) -/
def kMgmtIp : Nat := 0x102002
/-- 0x1020.03 `mgmt_prefix` (R469) -/
def kMgmtPrefix : Nat := 0x102003
/-- 0x1020.04 `mgmt_gateway` (R469) -/
def kMgmtGateway : Nat := 0x102004
/-- 0x1020.05 `lmp_udp_port` (R469) -/
def kLmpUdpPort : Nat := 0x102005
/-- 0x1020.06 `lmp_idle_s` (R469) -/
def kLmpIdleS : Nat := 0x102006
/-- 0x1020.07 `lmp_sessions_open` (R469) -/
def kLmpSessionsOpen : Nat := 0x102007
/-- 0x1030.01 `book_head_serial` (R469) -/
def kBookHeadSerial : Nat := 0x103001
/-- 0x1030.02 `book_oldest_serial` (R469) -/
def kBookOldestSerial : Nat := 0x103002
/-- 0x1030.03 `book_capacity` (R469) -/
def kBookCapacity : Nat := 0x103003
/-- 0x1030.04 `book_head_hash` (R469) -/
def kBookHeadHash : Nat := 0x103004
/-- 0x1030.05 `book_public_key` (R469) -/
def kBookPublicKey : Nat := 0x103005
/-- 0x1030.06 `book_key_endorsement` (R469) -/
def kBookKeyEndorsement : Nat := 0x103006
/-- 0x1030.07 `book_checkpoint_interval` (R469) -/
def kBookCheckpointInterval : Nat := 0x103007
/-- 0x1030.08 `book_checkpoint_period` (R469) -/
def kBookCheckpointPeriod : Nat := 0x103008
/-- 0x1030.09 `book_retain` (R469) -/
def kBookRetain : Nat := 0x103009
/-- 0x1030.0A `book_export_mark` (R469) -/
def kBookExportMark : Nat := 0x10300a
/-- 0xA100.01 `lmp_requests` (R470) -/
def kLmpRequests : Nat := 0xa10001
/-- 0xA100.02 `lmp_dropped` (R470) -/
def kLmpDropped : Nat := 0xa10002
/-- 0xA100.03 `lmp_auth_failures` (R470) -/
def kLmpAuthFailures : Nat := 0xa10003
/-- 0xA100.04 `lmp_replay_drops` (R470) -/
def kLmpReplayDrops : Nat := 0xa10004
/-- 0xA100.05 `lmp_refused` (R470) -/
def kLmpRefused : Nat := 0xa10005
/-- 0xA100.06 `book_entries` (R470) -/
def kBookEntries : Nat := 0xa10006
/-- 0xA100.07 `book_checkpoints` (R470) -/
def kBookCheckpoints : Nat := 0xa10007
/-- 0xA100.08 `book_entries_overwritten` (R470) -/
def kBookEntriesOverwritten : Nat := 0xa10008
/-- 0xA100.09 `book_full_refusals` (R470) -/
def kBookFullRefusals : Nat := 0xa10009
/-- 0x9000.01 `boot_state` (R488) -/
def kBootState : Nat := 0x900001
/-- 0x9000.02 `boot_step` (R488) -/
def kBootStep : Nat := 0x900002
/-- 0x9000.03 `boot_cause` (R488) -/
def kBootCause : Nat := 0x900003
/-- 0x9000.04 `ledger_clear` (R488) -/
def kLedgerClear : Nat := 0x900004
/-- 0x9000.05 `module_restart` (R488) -/
def kModuleRestart : Nat := 0x900005
/-- 0x9001.01–.10 `ledger_record` (R488), from 1 -/
def kLedgerRecord (i : Nat) : Nat := 0x900100 + i
/-- 0x9010.01 `fw_version` (R488) -/
def kFwVersion : Nat := 0x901001
/-- 0x9010.02 `fw_security_version` (R488) -/
def kFwSecurityVersion : Nat := 0x901002
/-- 0x9010.03 `fw_min_security_version` (R488) -/
def kFwMinSecurityVersion : Nat := 0x901003
/-- 0x9010.04 `fw_chunk` (R488) -/
def kFwChunk : Nat := 0x901004
/-- 0x9010.05 `fw_control` (R488) -/
def kFwControl : Nat := 0x901005
/-- 0x9010.06 `fw_candidate_state` (R488) -/
def kFwCandidateState : Nat := 0x901006
/-- 0x9010.07 `fw_candidate_status` (R488) -/
def kFwCandidateStatus : Nat := 0x901007
/-- 0x9010.08 `fw_candidate_version` (R488) -/
def kFwCandidateVersion : Nat := 0x901008
/-- 0x9010.09 `fw_image_digest` (R488) -/
def kFwImageDigest : Nat := 0x901009
/-- 0xA020.01 `startups` (R489) -/
def kStartups : Nat := 0xa02001
/-- 0xA020.02 `watchdog_startups` (R489) -/
def kWatchdogStartups : Nat := 0xa02002
/-- 0xA020.03 `alternates_run` (R489) -/
def kAlternatesRun : Nat := 0xa02003
/-- 0xA020.04 `steps_partial` (R489) -/
def kStepsPartial : Nat := 0xa02004
/-- 0xA020.05 `fw_commits` (R489) -/
def kFwCommits : Nat := 0xa02005
/-- 0xA020.06 `fw_refusals` (R489) -/
def kFwRefusals : Nat := 0xa02006
/-- 0xA020.07 `recoveries` (R489) -/
def kRecoveries : Nat := 0xa02007
/-- 0x2000.01 `power_cap` (R510) -/
def kPowerCap : Nat := 0x200001
/-- 0x2000.02 `power_cap_effective` (R510) -/
def kPowerCapEffective : Nat := 0x200002
/-- 0x2000.03 `power_draw` (R510) -/
def kPowerDraw : Nat := 0x200003
/-- 0x2000.04 `clock_now` (R510) -/
def kClockNow : Nat := 0x200004
/-- 0x2000.05 `inlet_temp` (R510) -/
def kInletTemp : Nat := 0x200005
/-- 0x2000.06 `die_temp_max` (R510) -/
def kDieTempMax : Nat := 0x200006
/-- 0x2000.07 `airflow_assured_cfm` (R510) -/
def kAirflowAssuredCfm : Nat := 0x200007
/-- 0x2000.08 `thermal_state` (R510) -/
def kThermalState : Nat := 0x200008
/-- 0x2000.09 `power_test_mode` (R510) -/
def kPowerTestMode : Nat := 0x200009
/-- 0x2000.0A `pad_release` (R510) -/
def kPadRelease : Nat := 0x20000a
/-- 0x2000.0B `array_duty` (R510) -/
def kArrayDuty : Nat := 0x20000b
/-- 0x2010.01–.80 `domain_state` (R510), from 1 -/
def kDomainState (i : Nat) : Nat := 0x201000 + i
/-- 0xA010.01 `clock_steps_down` (R511) -/
def kClockStepsDown : Nat := 0xa01001
/-- 0xA010.02 `guard_steps` (R511) -/
def kGuardSteps : Nat := 0xa01002
/-- 0xA010.03 `duty_limited_ms` (R511) -/
def kDutyLimitedMs : Nat := 0xa01003
/-- 0xA010.04 `thermal_throttle_ms` (R511) -/
def kThermalThrottleMs : Nat := 0xa01004
/-- 0xA010.05 `thermal_trips` (R511) -/
def kThermalTrips : Nat := 0xa01005
/-- 0xA010.06 `entries_completed` (R511) -/
def kEntriesCompleted : Nat := 0xa01006
/-- 0xA010.07 `entries_abandoned` (R511) -/
def kEntriesAbandoned : Nat := 0xa01007
/-- 0xA010.08 `wakes_during_entry` (R511) -/
def kWakesDuringEntry : Nat := 0xa01008
/-- 0xA010.09 `auto_wakes` (R511) -/
def kAutoWakes : Nat := 0xa01009
/-- 0xA010.0A `pad_releases` (R511) -/
def kPadReleases : Nat := 0xa0100a
/-- 0x2000.0C `vin_voltage` (R544) -/
def kVinVoltage : Nat := 0x20000c
/-- 0x2000.0D `vosfp_present` (R544) -/
def kVosfpPresent : Nat := 0x20000d
/-- 0x4000.08 `osfp_present` (R544) -/
def kOsfpPresent : Nat := 0x400008
/-- 0xA010.0B `input_power_losses` (R544) -/
def kInputPowerLosses : Nat := 0xa0100b
/-- 0xA070.0C `ref_pps_missing` (R544) -/
def kRefPpsMissing : Nat := 0xa0700c
/-- 0xA070.0D `ref_tod_bad` (R544) -/
def kRefTodBad : Nat := 0xa0700d
/-- 0xA070.0E `ref_tod_steps` (R544) -/
def kRefTodSteps : Nat := 0xa0700e
/-- 0xF000.01 `restore_defaults` (R448) -/
def kRestoreDefaults : Nat := 0xf00001

end Sys2Proof.Machine
end

