-- ==== Sys2Proof/Machine/State.lean ====
section
/-! DEFINITION. The state of the module, the reasons a step can stop, and the state after reset. -/

namespace Sys2Proof.Machine

/-- The block never stops with a fault: a failed command ends with a status code in the state (R512). -/
inductive Fault
  /-- Raised by nobody. -/
  | none
  deriving DecidableEq, Repr

/-- Why a command has no meaning. -/
inductive Refusal
  /-- Raised by an arm of `exec` whose meaning is not written. Safe: nothing is claimed of it. -/
  | notModelled (mnemonic : String)
  /-- Raised by every meaning when an operand lies outside the hardware's ranges (a consist of 40 or more, a die of 8 or
  more): no such command exists. Safe. -/
  | illFormed
  deriving DecidableEq, Repr

/-- The module. `pending` is the queue of waiting commands; `now` the time of the latest command in nanoseconds; `free`
counts draws of free values; `out` is what has left the module, latest first; all else is named by the chapter that its
part's file section gives. Port counters and all others are `ctr`; every dictionary object that is no counter is `od`; `hrtNext`
holds the transport objects written while a step is open, which act at the next job-map latch (R383). -/
structure State where
  pending : List Instr
  now : Nat
  free : Nat
  mem : MemSt
  health : MemHealth
  consists : Tab Consist
  sems : Tab Sem
  time : TimeSt
  pools : Tab Pool
  casts : List CastStream
  depot : DepotSt
  od : Tab OdVal
  ctr : Tab Nat
  parts : Tab Part
  qps : Tab Qp
  ports : Tab Port
  chans : Tab Chan
  hrtNext : Tab (Option Nat)
  queues : Tab HQueue
  apertures : Tab Aperture
  link : LinkSt
  sec : SecSt
  book : BookSt
  boot : BootSt
  pow : PowSt
  out : List Out
  deriving DecidableEq, Repr

def Consist.reset : Consist :=
  { pstate := .idle, prog := none, nouns := [], slots := [], loops := [], pos := 0, vi := 0, verbs := [], ahead := [],
    hold := none, faultSerial := 0, slotSerial := 0, lockSerial := 0, anchor := none, slot := none, mark := none,
    siding := [], draining := none, drainStatus := 0,
    ending := false, afterVote := none, sidingRuns := [], stall := none, judged := none, gathered := [] }

def StepSt.reset : StepSt :=
  { isOpen := false, vote := none, group := none, votes := [], round := 0, since := none, decision := none,
    shards := [], cmd := none, epoch := 0, late := [], rules := [], layersChanged := [],
    checked := [], owner := none, cmds := [], voters := [], deferred := [], attempts := [], owed := none }

def WatchSt.reset : WatchSt :=
  { shadow := [], loss := none, spike := false, nonfinite := 0, zeroed := 0, overflowed := 0 }

/-- The reset column of the job map (Table 1 of 11): a job of one module. -/
def JobMap.reset : JobMap :=
  { tag := 0, sizeT := 1, sizeS := 1, sizeD := 1, sizeP := 1, rank := 0, leader := 0, phases := 1, baseSem := 0, peers := [] }

def Part.reset : Part :=
  { grant := none, shadow := none, ready := false, step := StepSt.reset, semMarks := [], watch := WatchSt.reset,
    job := some JobMap.reset, quarantineClear := 0, windows := [], winShadow := [], winReady := false, winReleased := [], winCalls := [], paths := [],
    pathShadow := [], pathReady := none, points := [], buffers := [], faulty := [], leaves := false }

/-- A semaphore slot at reset (Table 5 of 06). -/
def Sem.reset : Sem :=
  { status := 0, producer := 0, seq := 0, setter := 0xFE, part := 0xFF, kind := 0, expected := 0, arrivals := 0,
    round := 0, lastTick := 0, awaited := 0 }

def Pool.reset : Pool := { pending := [], last := 0, backWait := 0, flight := [], nextId := 0 }

def Qp.reset : Qp :=
  { isOpen := false, part := 0xFF, peer := 0, remote := 0xFFFF, txPsn := 0, frames := [], msgs := [], nextMsg := 0,
    expect := 0, seen := [], sinceAck := 0, ackDue := none, echo := false, rx := [], cwnd := 0, lastCut := none,
    full := 0, fullSince := 0, slow := false, absent := false, progress := 0 }

def Port.reset : Port :=
  { txq := [], wait := [], pausedUntil := none, pausing := false, lastPause := 0, noLink := false, lastEnd := 0 }

def Chan.reset : Chan :=
  { txAn := none, txKey := [], txPn := 1, shadow := none, rx := [], offer := none, failed := false }

/-- A queue at reset (Tables 4 and 5 of 14). -/
def HQueue.reset : HQueue :=
  { sqBase := 0, cqBase := 0, dataBase := 0, dataLength := 0, irqAddr := 0, irqData := 0, seqNext := 0, sqOrder := 0,
    cqOrder := 0, part := 0xFF, reserved := 0, events := false, enable := false, state := 0, lastError := 0,
    cqWritten := 0, seqExpected := 0, cqHead := 0, sqTail := 0, retry := none, started := [], waiting := [], retained := [] }

def Aperture.reset : Aperture := { base := 0, pages := 0, part := 0xFF, read := false, write := false, enable := false }

def LinkSt.reset : LinkSt :=
  { error0 := none, error1 := none, degraded := 0, resetLow := false, adoptDigest := List.replicate 32 0, adoptEpoch := 0,
    holdDigest := List.replicate 32 0, holdEpoch := 0, holdEntryTick := 0, adoptStatus := 0, lossCause := 0,
    quiesced := false, relost := false, recordGone := false, unacked := [], mail := [] }

def TimeSt.reset : TimeSt :=
  { offset := 0, tick := 0, change := none, rebased := false, overRun := 0, withinSince := none, pendingStep := none,
    resumePaths := false, master := none, announces := [], twoStep := none, lastSync := none, measured := none,
    delayReq := none, pathDelay := 0, filtered := 0, ppsSecond := none, todPending := none, ppsMissed := 0, lastPps := none }

def MemSt.reset : MemSt := { cells := [], poison := [], unread := [], farPoison := [], farGen := [] }

def MemHealth.reset : MemHealth :=
  { channelReads := [], patrolNear := 0, patrolFar := 0, leaving := [] }

def DepotSt.reset : DepotSt :=
  { cells := [], mapped := [], poison := [], preserved := [], stale := [], reads := [], written := [], place := [], shadow := [],
    due := [], waiting := [], window := [], buffer := [] }

def SecSt.reset : SecSt :=
  { keys := [], identity := List.replicate 32 0, deviceKem := List.replicate 32 0, bookKey := List.replicate 32 0,
    tap := 0, tapChallenge := List.replicate 32 0, quoteSerial := 0, relock := false, release := false,
    tapOpen := false, quotes := [], romDigest := List.replicate 64 0, firmwareKey := List.replicate 32 0, rootKey := List.replicate 32 0 }

def BookSt.reset : BookSt :=
  { entries := [], sigs := [], unsigned := [], since := 0, lastCheckpoint := none, lastTime := 0, sessions := [],
    nextSession := 1, segs := [], settings := [] }

/-- The header of the image that manufacture leaves in the flash: well formed, every free field zero (DESIGN CHOICE). -/
def FwHeader.factory : FwHeader :=
  { magic := 0x46534B48, imageLength := 3373, version := 0, securityVersion := 0, part := [72, 83, 75, 45, 57, 54, 56, 48] ++ List.replicate 8 0,
    loaderLength := 0, sigboxLength := 0, firmwareLength := 0, phrasebookLength := 0, reserved := 0, format := 1 }

def BootSt.reset : BootSt :=
  { failCounts := [], watchdogs := 0, inRecovery := false, recoveryState := 0, recoveryStatus := 0, recoveryLength := 0, recBuf := [],
    candLength := 0, candChunks := [], candHeader := none, candDigest := [], candKey := [], flash := some FwHeader.factory,
    flashDigest := List.replicate 64 0, flashKey := List.replicate 32 0, clearLedger := false, restoreDefaults := false, committing := false, commitRetry := false,
    depotOffline := false, noHost := false, portsOff := false, unclean := false, entries := [], openStep := none, fuseSpares := [] }

def PowSt.reset : PowSt :=
  { entering := [], wakeMet := [], waking := [], inletCap := 1800, inletBelow := [], outside := false, hot := 0,
    throttle := false, clock := 1800, riseMs := 0, capNow := 1800, stopped := false, lowPower := 0, cageSince := [],
    lastMs := 0 }

/-- The module with every object, register and record at the default or reset value that its chapter gives (R448): the
module as it leaves manufacture, before its first start-up. Memory lists nothing, no command waits. -/
def State.reset : State :=
  { pending := [], now := 0, free := 0, mem := MemSt.reset, health := MemHealth.reset, consists := [], sems := [],
    time := TimeSt.reset, pools := [], casts := [], depot := DepotSt.reset, od := [], ctr := [], parts := [], qps := [],
    ports := [], chans := [], hrtNext := [], queues := [], apertures := [], link := LinkSt.reset, sec := SecSt.reset,
    book := BookSt.reset, boot := BootSt.reset, pow := PowSt.reset, out := [] }

end Sys2Proof.Machine
end

