-- ==== Sys2Proof/Machine/Ops.lean ====
section
/-! DEFINITION. The shared operations: statuses, the dictionary store and counters, the address map and its checks,
memory with poison, semaphores and tokens. -/

namespace Sys2Proof.Machine

/-! ### Outcomes and statuses -/

/-- Every meaning guards the ranges of its operands and then answers a next state. -/
def guardWf (b : Bool) (s : State) : Host.Outcome State Fault Refusal := if b then .next s else .refused .illFormed

/-- Code of a status (R512). -/
def stCode : Status → Nat
  | .ok => 0x00 | .partly => 0x01 | .poisoned => 0x02 | .counterSkew => 0x03 | .timeout => 0x04 | .overrun => 0x05
  | .deadlock => 0x06 | .denied => 0x07 | .authFail => 0x08 | .hostLost => 0x09 | .staleManifest => 0x0A
  | .notReady => 0x0B | .nonfinite => 0x0C | .uncoupled => 0x0D | .aborted => 0x0E | .malformed => 0x0F
  | .capacity => 0x10 | .partnerAbsent => 0x11 | .quarantined => 0x12

/-- Whether a code is an error (R143): all but ok and uncoupled. -/
def errCode (c : Nat) : Bool := c ≠ 0 && c ≠ 0x0D

/-- The first status of a list that is not ok. -/
def firstBad : List Status → Status
  | [] => .ok
  | s :: r => if s = .ok then firstBad r else s

/-! ### The dictionary store and the counters (R445, R453) -/

/-- Current value of an object. -/
def odVal (s : State) (key : Nat) : Option OdVal :=
  match s.od.find? (·.1 = key) with
  | some (_, v) => some v
  | none => odDefault key

/-- Numeric value of an object; 0 for an absent one. -/
def odN (s : State) (key : Nat) : Nat :=
  match odVal s key with
  | some (.num n) => n
  | _ => 0

/-- Octets of an object; none for an absent one. -/
def odB (s : State) (key : Nat) : List Byte :=
  match odVal s key with
  | some (.octets b) => b
  | _ => []

/-- Sets an object's value; a value equal to the default leaves no entry. -/
def odPut (s : State) (key : Nat) (v : OdVal) : State :=
  { s with od := if odDefault key = some v then tdel s.od key else tins (tdel s.od key) key v }

def odSet (s : State) (key n : Nat) : State := odPut s key (.num n)

/-- Returns an object to its default. -/
def odClear (s : State) (key : Nat) : State := { s with od := tdel s.od key }

/-- Returns the objects of one index to their defaults. -/
def odClearIndex (s : State) (index : Nat) : State := { s with od := s.od.filter (·.1 / 256 ≠ index) }

/-- Adds to one view of a counter, modulo 2^64. -/
def ctrAdd (c : Tab Nat) (key view n : Nat) : Tab Nat := tmod 0 c (key * 64 + view) (fun v => (v + n) % 2 ^ 64)

/-- Counters whose events that no partition caused only the operator and the observer see: those of the memory tiers and of
the depot (R226, R268). -/
def backgroundHidden (key : Nat) : Bool := key / 256 = 0xA031 || key / 256 = 0xA090

/-- Counts an event in the operator's, the observer's and the service role's view and in the view of the partition to
which it is attributed (R226, R268, R453). Views: 0 operator, 1 observer, 2 service, 3 + p tenant p. -/
def bump (s : State) (key n : Nat) (part : Option Nat) : State :=
  if n = 0 then s
  else
    let c := ctrAdd (ctrAdd s.ctr key 0 n) key 1 n
    { s with ctr := match part with
      | some p => ctrAdd (ctrAdd c key 2 n) key (3 + p) n
      | none => if backgroundHidden key then c else ctrAdd c key 2 n }

/-- One view of a counter. -/
def ctrGet (s : State) (key view : Nat) : Nat := tget 0 s.ctr (key * 64 + view)

/-! ### Access to the tables of the state -/

def con (s : State) (k : Nat) : Consist := tget Consist.reset s.consists k
def setCon (s : State) (k : Nat) (c : Consist) : State := { s with consists := tset Consist.reset s.consists k c }
def modCon (s : State) (k : Nat) (f : Consist → Consist) : State := setCon s k (f (con s k))
def part (s : State) (p : Nat) : Part := tget Part.reset s.parts p
def setPart (s : State) (p : Nat) (q : Part) : State := { s with parts := tset Part.reset s.parts p q }
def modPart (s : State) (p : Nat) (f : Part → Part) : State := setPart s p (f (part s p))
def modStep (s : State) (p : Nat) (f : StepSt → StepSt) : State := modPart s p fun q => { q with step := f q.step }
def pool (s : State) (d : Nat) : Pool := tget Pool.reset s.pools d
def setPool (s : State) (d : Nat) (q : Pool) : State := { s with pools := tset Pool.reset s.pools d q }
/-- A semaphore slot. -/
def semGet (s : State) (i : Nat) : Sem := tget Sem.reset s.sems i

/-- Whether an awaited sequence has arrived (R142). -/
def arrived (v : Sem) (seq : Nat) : Bool := decide ((v.seq + 2 ^ 32 - seq % 2 ^ 32) % 2 ^ 32 < 2 ^ 31)

/-- The first awaited semaphore that holds an error status, with its token's sequence (R145, Table 5 of 05). -/
def errorOrigin (sems : Tab Sem) (waits : List (Nat × Nat)) : Option (Nat × Nat) :=
  (waits.find? fun w => errCode (tget Sem.reset sems w.1).status).map fun w => (w.1, (tget Sem.reset sems w.1).seq)

/-- Judges a verb's awaited tokens at the moment when every one has arrived, and not before (R145). A reset that makes one of them
not arrived takes the judgement back (R187); what cores that have issued the verb ran on stands. -/
def judge (sems : Tab Sem) (e : VEntry) : VEntry :=
  if e.waits.all fun w => arrived (tget Sem.reset sems w.1) w.2 then
    if e.judged then e
    else { e with judged := true, origin := if e.issued = 0 then errorOrigin sems e.waits else e.origin }
  else { e with judged := false, origin := if e.issued = 0 then none else e.origin }

/-- The judgement of the tokens that a held control verb or a parked entry awaits (R145), likewise. -/
def judgeWaits (sems : Tab Sem) (waits : List (Nat × Nat)) (old : Option (Option (Nat × Nat))) : Option (Option (Nat × Nat)) :=
  if waits.all fun w => arrived (tget Sem.reset sems w.1) w.2 then some (old.getD (errorOrigin sems waits)) else none

/-- Judges what one consist has waiting on semaphore i: its verbs, its held control verb, its parked entries. -/
def judgeConsist (sems : Tab Sem) (i : Nat) (c : Consist) : Consist :=
  let on (w : List (Nat × Nat)) : Bool := w.any fun x => x.1 = i
  { c with
    verbs := c.verbs.map fun e => if on e.waits then judge sems e else e
    siding := c.siding.map fun e => if on e.waits then { e with judged := judgeWaits sems e.waits e.judged } else e
    judged := match c.hold with
      | some (.control w _) => if on w then judgeWaits sems w c.judged else c.judged
      | _ => c.judged }

/-- Writes a semaphore slot; what awaits it is judged at once. -/
def semSet (s : State) (i : Nat) (v : Sem) : State :=
  let sems := tset Sem.reset s.sems i v
  { s with sems := sems, consists := s.consists.map fun c => (c.1, judgeConsist sems i c.2) }

/-! ### Time (R12, R167) -/

/-- The time of a command never runs backward. -/
def atTime (s : State) (t : Nat) : State := { s with now := max s.now t }

/-- Module time: 64 bits of nanoseconds. -/
def moduleTime (s : State) : Nat := (((s.now : Int) + s.time.offset) % 2 ^ 64).toNat

/-- The tick in force, 48 bits. -/
def tickNow (s : State) : Nat := s.time.tick % 2 ^ 48

/-- The period in nanoseconds (R166). -/
def tickPeriod (s : State) : Nat := odN s kTickCycles * 5 / 9

/-! ### What runs (R30, R406, R490) -/

/-- Whether a consist is available and on: its power sub-domain's state reads 0. -/
def conOn (s : State) (k : Nat) : Bool := bitOf (odN s kConsistAvailableMap) k && odN s (kDomainState (k + 1)) = 0

/-- Whether the module's sequencers stand still, from the first boundary after host loss to the end of the adoption. -/
def quiet (s : State) : Bool := s.link.quiesced && (odN s kHoldState = 1 || odN s kHoldState = 2 || odN s kHoldState = 4)

/-- Whether a consist's sequencer broadcasts and issues. -/
def live (s : State) (k : Nat) : Bool := conOn s k && !quiet s

/-! ### The address map (R198, Table 1 of 07) -/

inductive Region
  | near | far | staging (die off : Nat) | scratch (core off : Nat) | sems | control | unmapped
  deriving DecidableEq, Repr

def nearEnd : Nat := 0x0090_0000_0000
def farBase : Nat := 0x0100_0000_0000
def stagingBase : Nat := 0x0F00_0000_0000
def scratchBase : Nat := 0x0F80_0000_0000
def semBase : Nat := 0x0FC0_0000_0000
def controlBase : Nat := 0x0FF0_0000_0000

/-- Whether far-tier group g is protected (R210). -/
def farProtected (s : State) (g : Nat) : Bool := bitOf (odN s kFarParityActive) g

/-- Where an address falls. -/
def region (s : State) (a : Nat) : Region :=
  if a < nearEnd then
    if bitOf (odN s kNearRegionFaultMap) (a / 0x12_0000_0000) then .unmapped else .near
  else if farBase ≤ a ∧ a < 2 * farBase then
    let g := (a - farBase) / 0x20_0000_0000
    if farProtected s g ∧ 0x1C_0000_0000 ≤ (a - farBase) % 0x20_0000_0000 then .unmapped else .far
  else if stagingBase ≤ a ∧ a < stagingBase + 8 * 0x1000_0000 then
    let o := (a - stagingBase) % 0x1000_0000
    if o < 0x0300_0000 then .staging ((a - stagingBase) / 0x1000_0000) o else .unmapped
  else if scratchBase ≤ a ∧ a < scratchBase + 800 * 0x40_0000 then
    let o := (a - scratchBase) % 0x40_0000
    if o < 0x20_0000 then .scratch ((a - scratchBase) / 0x40_0000) o else .unmapped
  else if semBase ≤ a ∧ a < semBase + 0x40_0000 then .sems
  else if controlBase ≤ a ∧ a < controlBase + 0x100_0000 then .control
  else .unmapped

def isFar (a : Nat) : Bool := farBase ≤ a && a < 2 * farBase

/-! ### Memory -/

/-- What a byte that nothing has written reads as: 0 in scratch, staging and the near tier (R217). The far tier has none:
there it is a free value. DESIGN CHOICE (R55, R217): so an HS4 scale entry that nothing has written reads 0x0000, although Table 6 of 02
gives its `block_scale` the reset value 0x7F. -/
def defaultByte (a : Nat) : Option Byte := if isFar a then none else some 0

/-- One byte. -/
def memGet (m : MemSt) (a : Nat) : Byte :=
  match m.cells.find? (·.1 = a) with
  | some c => c.2
  | none => (defaultByte a).getD (Config.farUnwritten (tget 0 m.farGen ((a - farBase) / 2 ^ 32)) a)

/-- Byte 0 of a consist's histogram base array (R88), which would be the base of slot 0: it reads as zero, and a write to it is
dropped. -/
def histZero (a : Nat) : Bool :=
  decide (stagingBase ≤ a ∧ a < stagingBase + 8 * 0x1000_0000) &&
    decide (0x02FB_0000 ≤ (a - stagingBase) % 0x1000_0000 ∧ (a - stagingBase) % 0x1000_0000 < 0x0300_0000 ∧ a % 0x1_0000 = 0)

/-- Writes one byte and keeps the canonical form. -/
def cellSet (c : List Host.Cell) (a : Nat) (b : Byte) : List Host.Cell :=
  if histZero a then c
  else if defaultByte a = some b then tdel c a else tins (tdel c a) a b

/-- The canonical form: rising addresses, no byte equal to what an unlisted address reads as. -/
def cellsWf (c : List Host.Cell) : Bool := tabWf (fun a b => defaultByte a = some b) none c

/-- `n` bytes from `a`. -/
def memRead (m : MemSt) (a : Nat) : Nat → List Byte
  | 0 => []
  | n + 1 => memGet m a :: memRead m (a + 1) n

/-- Writes bytes from `a` upward. -/
def cellsWrite (c : List Host.Cell) (a : Nat) : List Byte → List Host.Cell
  | [] => c
  | b :: bs => cellsWrite (cellSet c a b) (a + 1) bs

/-- The 64-byte line of an address, and the far-tier chunk. -/
def lineOf (a : Nat) : Nat := a / 64
def chunkOf (a : Nat) : Nat := a / 2048

/-- Lines that `n` bytes from `a` touch. -/
def linesOf (a n : Nat) : List Nat :=
  if n = 0 then [] else (List.range (lineOf (a + n - 1) + 1 - lineOf a)).map (· + lineOf a)

/-- Whether an address reads poisoned (R220). -/
def badAt (m : MemSt) (a : Nat) : Bool :=
  (if isFar a then m.farPoison.contains (chunkOf a) else m.poison.contains (lineOf a)) || m.unread.contains (lineOf a)

/-- Whether any byte of a range reads poisoned. -/
def rangeBad (m : MemSt) (a n : Nat) : Bool := (linesOf a n).any fun l => badAt m (l * 64)

/-- The I/O die of a far-tier address (R207). -/
def farIoDie (a : Nat) : Nat := (a - farBase) / 0x80_0000_0000

/-- The channel on which a far-tier address falls (R208, R209). -/
def farChannel (s : State) (a : Nat) : Nat :=
  let g := (a - farBase) / 0x20_0000_0000
  let c := (a - farBase) % 0x20_0000_0000 / 2048
  if farProtected s g then
    let st := c / 7
    let i := c % 7
    let p := 7 - st % 8
    8 * g + (if i < p then i else i + 1)
  else 8 * g + c % 8

/-- Whether the channel of a far-tier address has failed (R213). -/
def farFailed (s : State) (a : Nat) : Bool := bitOf (odN s kFarChannelFailed) (farChannel s a)

/-- Marks the line or chunk of `a` poisoned; a full poison table refuses (R220, R221). -/
def poisonAt (s : State) (a : Nat) (pt : Option Nat) : State × Status :=
  if isFar a then
    let c := chunkOf a
    if s.mem.farPoison.contains c then (s, .ok)
    else if 1024 ≤ (s.mem.farPoison.filter fun x => farIoDie (x * 2048) = farIoDie a).length then
      (bump s kPoisonTableFull 1 pt, .capacity)
    else
      let s := { s with mem := { s.mem with farPoison := setAdd s.mem.farPoison c } }
      (odSet s kFarPoisonEntries s.mem.farPoison.length, .ok)
  else ({ s with mem := { s.mem with poison := setAdd s.mem.poison (lineOf a) } }, .ok)

/-- Clears marks that a clean write of `n` bytes from `a` covers whole (R220). -/
def clearMarks (s : State) (a n : Nat) : State :=
  let whole (u x : Nat) : Bool := decide (a ≤ x * u ∧ x * u + u ≤ a + n)
  let m := { s.mem with poison := s.mem.poison.filter (fun l => !whole 64 l),
                        unread := s.mem.unread.filter (fun l => !whole 64 l),
                        farPoison := s.mem.farPoison.filter (fun c => !whole 2048 c) }
  if m.farPoison.length = s.mem.farPoison.length then { s with mem := m }
  else odSet { s with mem := m } kFarPoisonEntries m.farPoison.length

/-- Far-tier stripes that a write covers only in part (R211): its data bytes lie in stripes of 14 KiB. -/
def rmwStripes (s : State) (a n : Nat) : Nat :=
  if n = 0 ∨ !isFar a then 0
  else
    let g := (a - farBase) / 0x20_0000_0000
    if farProtected s g then
      let o := (a - farBase) % 0x20_0000_0000
      let lo := o / 14336
      let hi := (o + n - 1) / 14336
      let headPart := o % 14336 ≠ 0
      let tailPart := (o + n) % 14336 ≠ 0
      if lo = hi then (if headPart ∨ tailPart then 1 else 0) else (if headPart then 1 else 0) + (if tailPart then 1 else 0)
    else 0

/-- Bytes written only where the chunk's channel takes them: an unprotected group's failed channel takes none (R213). -/
def farWritable (s : State) (a : Nat) : Bool :=
  !(isFar a && !farProtected s ((a - farBase) / 0x20_0000_0000) && farFailed s a)

/-- Whether an address lies on a failed channel. -/
def farDown (s : State) (a : Nat) : Bool := isFar a && farFailed s a

/-- Whether the channel of a far-tier address has failed with nothing left to rebuild its chunks from: an unprotected group, or
a second failure in a protected one (R213). -/
def farLost (s : State) (a : Nat) : Bool :=
  farDown s a &&
    (!farProtected s ((a - farBase) / 0x20_0000_0000) ||
      decide (1 < popCount 8 (bits (odN s kFarChannelFailed) (8 * ((a - farBase) / 0x20_0000_0000)) 8)))

/-- Whether any byte of a range reads poisoned, by its mark or by its channel (R213, R220). -/
def rangeLost (s : State) (a n : Nat) : Bool := rangeBad s.mem a n || (linesOf a n).any fun l => farLost s (l * 64)

/-- The units in which a range is marked poisoned, lines or far-tier chunks (R220), cut to the range: start and length. -/
def pieces (a n : Nat) : List (Nat × Nat) :=
  let u := if isFar a then 2048 else 64
  if n = 0 then []
  else (List.range (ceilDiv (n + a % u) u)).map fun i =>
    let lo := max a ((a / u + i) * u)
    (lo, min (a + n) ((a / u + i + 1) * u) - lo)

/-! ### Stripes of protected groups (R211 to R213) -/

/-- Notes one uncorrectable read of a channel and fails the channel at 16 within 1 s (R213). -/
def channelRead (s : State) (c : Nat) : State :=
  let l := (s.now :: tget [] s.health.channelReads c).filter fun t => s.now < t + 1_000_000_000
  let s := { s with health := { s.health with channelReads := tset [] s.health.channelReads c l } }
  if 16 ≤ l.length ∧ !bitOf (odN s kFarChannelFailed) c then
    let s := odSet s kFarChannelFailed (bitSet (odN s kFarChannelFailed) c)
    if farProtected s (c / 8) then odSet s kFarDegradedGroups (bitSet (odN s kFarDegradedGroups) (c / 8)) else s
  else s

/-- The stripe of a far-tier address in a protected group. -/
def stripeOf (a : Nat) : Nat := (a - farBase) / 0x20_0000_0000 * 2 ^ 24 + (a - farBase) % 0x20_0000_0000 / 14336

/-- The chunks of a stripe of a protected group, with the channel of each. -/
def stripeChunks (s : State) (a : Nat) : List (Nat × Nat) :=
  let g := (a - farBase) / 0x20_0000_0000
  let st := (a - farBase) % 0x20_0000_0000 / 14336
  (List.range 7).map fun i =>
    let x := farBase + g * 0x20_0000_0000 + st * 14336 + i * 2048
    (x / 2048, farChannel s x)

/-- A chunk that cannot be read is an uncorrectable read of its channel, unless the channel has failed before (R213). -/
def noteChannel (s : State) (c : Nat) : State := if bitOf (odN s kFarChannelFailed) c then s else channelRead s c

/-- Reads a stripe of a protected group of which chunks `bad` (and its parity chunk, where `parity`) cannot be read (R212, R213).
One such chunk is rebuilt; of more, each data chunk is counted and entered in the poison table. Answers the chunks lost. -/
def stripeRead (s : State) (a : Nat) (bad : List Nat) (parity : Bool) (pt : Option Nat) : State × List Nat :=
  let cs := stripeChunks s a
  let failed := odN s kFarChannelFailed
  let lost := (cs.filter fun c => bad.contains c.1 || bitOf failed c.2).map (·.1)
  -- the parity chunk's channel is the one that none of the data chunks lies on
  let pch := (((List.range 8).map (8 * ((a - farBase) / 0x20_0000_0000) + ·)).filter fun i => !cs.any fun c => c.2 = i).take 1
  let parityLost := parity || pch.any (bitOf failed)
  let s := (lost.map (fun c => farChannel s (c * 2048)) ++ if parity then pch else []).foldl noteChannel s
  if lost.length + (if parityLost then 1 else 0) ≤ 1 then (bump s kFarReconstructed lost.length pt, [])
  else (lost.foldl (fun s c => (poisonAt s (c * 2048) pt).1) (bump s kFarUncorrectable lost.length pt), lost)

/-- Notes the read-modify-writes of a write of `n` bytes at `a` (R211): counted, and an old chunk on a failed channel that one of them
reads is rebuilt or lost with its stripe (R212, R213). DESIGN CHOICE: the reads inside a read-modify-write meet no other finding. -/
def noteRmw (s : State) (a n : Nat) (pt : Option Nat) : State :=
  let s := bump s kFarRmwWrites (rmwStripes s a n) pt
  if rmwStripes s a n = 0 ∨ odN s kFarChannelFailed = 0 then s
  else
    let start (x : Nat) : Nat := x - (x - farBase) % 0x20_0000_0000 % 14336
    let cut (x : Nat) : Bool := decide (start x < a) || decide (a + n < start x + 14336)
    (((pieces a n).filter fun q => cut q.1 && farDown s q.1).map fun q => start q.1).eraseDups.foldl
      (fun s x => (stripeRead s x [] false pt).1) s

/-- A clean store of bytes: the state and the status of its lowest-addressed failing chunk (R213, R221). -/
def storeBytes (s : State) (a : Nat) (bs : List Byte) (pt : Option Nat) : State × Status :=
  let ok := (linesOf a bs.length).all fun l => farWritable s (max a (l * 64))
  if ok then
    let s := clearMarks { s with mem := { s.mem with cells := cellsWrite s.mem.cells a bs } } a bs.length
    (noteRmw s a bs.length pt, .ok)
  else
    let c := (bs.zipIdx.filter fun x => farWritable s (a + x.2)).foldl
      (fun c x => cellSet c (a + x.2) x.1) s.mem.cells
    let s := ((pieces a bs.length).filter fun q => farWritable s q.1).foldl (fun s q => clearMarks s q.1 q.2)
      { s with mem := { s.mem with cells := c } }
    (noteRmw s a bs.length pt, .poisoned)

/-- A poisoned store of one piece: not made on a failed channel of an unprotected group (R213), else marked (R220, R221). -/
def poisonPiece (s : State) (a : Nat) (pt : Option Nat) : State × Status :=
  if farWritable s a then poisonAt s a pt else (s, .poisoned)

/-- A poisoned store over `n` bytes from `a`: each line keeps the mark (R220). Answers the start of each piece with `ok` where it is
marked, and what failed where it cannot be (R213, R221). -/
def poisonPieces (s : State) (a n : Nat) (pt : Option Nat) : State × List (Nat × Status) :=
  let (s, l) := (pieces a n).foldl (fun (x : State × List (Nat × Status)) q =>
    let (s, st) := poisonPiece x.1 q.1 pt
    (s, x.2 ++ [(q.1, st)])) (s, [])
  (noteRmw s a n pt, l)

/-- The same with the status of the lowest-addressed failing chunk (R221). -/
def storePoison (s : State) (a n : Nat) (pt : Option Nat) : State × Status :=
  let (s, l) := poisonPieces s a n pt
  (s, firstBad (l.map fun x => x.2))

/-- A store of bytes of which some lines are poisoned: a piece that holds one is marked or, where it cannot be, keeps its old
contents (R221); every other piece is stored clean. Answers the status of the lowest-addressed piece that failed or holds a
poisoned line. -/
def storeMixed (s : State) (a : Nat) (bs : List Byte) (bad : Nat → Bool) (pt : Option Nat) : State × Status :=
  if !(linesOf a bs.length).any bad then storeBytes s a bs pt
  else
    let (s, st) := (pieces a bs.length).foldl (fun (x : State × Status) q =>
      let (s, st) :=
        if (linesOf q.1 q.2).any bad then
          match poisonPiece x.1 q.1 pt with
          | (s, .ok) => (s, Status.poisoned)
          | r => r
        else if !farWritable x.1 q.1 then (x.1, Status.poisoned)
        else (clearMarks { x.1 with mem := { x.1.mem with cells := cellsWrite x.1.mem.cells q.1 ((bs.drop (q.1 - a)).take q.2) } } q.1 q.2, .ok)
      (s, if x.2 = .ok then st else x.2)) (s, .ok)
    (noteRmw s a bs.length pt, st)

/-- A small store by the sequencer, the inflector or another unit of the module into memory that no channel can refuse. -/
def poke (s : State) (a : Nat) (bs : List Byte) : State := (storeBytes s a bs none).1

/-- Bytes of a range and whether any of them reads poisoned. -/
def loadBytes (s : State) (a n : Nat) : List Byte × Bool := (memRead s.mem a n, rangeLost s a n)

/-- The parts of `n` bytes from `a` that lie in some lines: start, counted from `a`, and length. -/
def lineRanges (a n : Nat) (bad : Nat → Bool) : List (Nat × Nat) :=
  ((linesOf a n).filter bad).map fun l => (max a (l * 64) - a, min (a + n) (l * 64 + 64) - max a (l * 64))

/-- Little-endian number of `n` bytes at `a` (R9). -/
def memNat (s : State) (a n : Nat) : Nat := leNat (memRead s.mem a n)

/-! ### Error correction (R212, R213, R219) -/

/-- What the error correction does to a read of the lines `ls`, all of the tier of `a` (Table 8 of 07): counts what
it corrects; a line of scratch, staging or the near tier that cannot be read is delivered poisoned, counted once a read; a
far-tier chunk of a protected group is rebuilt or lost with its stripe (R212, R213); one of an unprotected group is delivered
poisoned and entered in the poison table, counted once a read. A failed channel's chunks are uncorrectable of themselves
(R219). Answers the lines of this read that are delivered poisoned. -/
def eccLines (s : State) (a : Nat) (ls : List Nat) (e : Ecc) (pt : Option Nat) : State × List Nat :=
  let reads (l : Nat) : Bool := ls.contains l
  if isFar a then
    let down := if odN s kFarChannelFailed = 0 then [] else ls.filter fun l => farDown s (l * 64)
    let s := bump s kFarCorrected (e.corrected.filter reads).length pt
    let chunks := ((e.bad.filter reads ++ down).map fun l => l * 64 / 2048).eraseDups
    let badChunks := (e.bad.map fun l => l * 64 / 2048).eraseDups
    let prot (c : Nat) : Bool := farProtected s ((c * 2048 - farBase) / 0x20_0000_0000)
    let stripes := ((chunks.filter prot).map fun c => stripeOf (c * 2048)).eraseDups
    let (s, lost) := stripes.foldl (fun (x : State × List Nat) st =>
      match chunks.find? fun c => prot c && stripeOf (c * 2048) = st with
      | none => x
      | some c =>
        let (s, l) := stripeRead x.1 (c * 2048) badChunks (e.parity.contains st) pt
        (s, x.2 ++ l)) (s, [])
    let bare := chunks.filter fun c => !prot c
    let s := bare.foldl (fun s c =>
      if farFailed s (c * 2048) then s else (poisonAt (channelRead s (farChannel s (c * 2048))) (c * 2048) pt).1) s
    let s := bump s kFarUncorrectable (if bare = [] then 0 else 1) pt
    (s, (lost ++ bare).flatMap fun c => ((List.range 32).map fun i => 32 * c + i).filter reads)
  else
    let bad := e.bad.filter reads
    let (kc, ku) := if a < nearEnd then (kNearCorrected, kNearUncorrectable) else (kSramCorrected, kSramUncorrectable)
    let s := bump s kc (e.corrected.filter reads).length pt
    (bump s ku (if bad = [] then 0 else 1) pt, bad)

/-- The same for a read of `n` bytes at `a`. -/
def eccRead (s : State) (a n : Nat) (e : Ecc) (pt : Option Nat) : State × List Nat :=
  eccLines s a (linesOf a n) e pt

/-- The tier in which a line lies, as the error counters tell them apart: 0 near, 1 far, 2 scratch, staging and the rest. -/
def lineTier (l : Nat) : Nat := if l * 64 < nearEnd then 0 else if isFar (l * 64) then 1 else 2

/-- The lines of a finding that lie in some ranges. -/
def eccWithin (e : Ecc) (rs : List (Nat × Nat)) : Ecc :=
  let mine (l : Nat) : Bool := rs.any fun r => decide (r.2 ≠ 0 ∧ lineOf r.1 ≤ l ∧ l ≤ lineOf (r.1 + r.2 - 1))
  { e with corrected := e.corrected.filter mine, bad := e.bad.filter mine }

/-- Runs `f`, which reads the ranges `rs`, while those of their lines that a finding names are unreadable, each read as Table 8 of 07
says (R219, R222); reads of a failed channel's chunks are rebuilt or lost of themselves (R212, R213). -/
def underEcc {α : Type} (rs : List (Nat × Nat)) (e : Ecc) (pt : Option Nat) (f : State → State × α) (s : State) : State × α :=
  if e = Ecc.clean ∧ odN s kFarChannelFailed = 0 then f s
  else
    let e := eccWithin e rs
    let down := if odN s kFarChannelFailed = 0 then []
      else (rs.flatMap fun r => if isFar r.1 then linesOf r.1 r.2 else []).eraseDups.filter fun l => farDown s (l * 64)
    let named := (e.bad ++ e.corrected ++ down).eraseDups
    let (s, bad) := (List.range 3).foldl (fun (x : State × List Nat) t =>
      match named.filter fun l => lineTier l = t with
      | [] => x
      | l :: r =>
        let (s, lost) := eccLines x.1 (l * 64) (l :: r) e pt
        (s, x.2 ++ lost)) (s, [])
    let r := f { s with mem := { s.mem with unread := bad } }
    ({ r.1 with mem := { r.1.mem with unread := [] } }, r.2)

/-! ### Power domains that an access reaches (R490, R496 to R498) -/

/-- A domain's state (Table 7 of 18): 0 on, 1 retention, 2 off, 3 entering, 4 waking, 5 on_latched. -/
def domState (s : State) (d : Nat) : Nat := odN s (kDomainState (d + 1))
def setDom (s : State) (d v : Nat) : State := odSet s (kDomainState (d + 1)) v

/-- Whether a rollback is due: this module voted no, or an abort decision has arrived (R291, R521). A partition that is being
released rolls nothing back (R529). -/
def rollbackDue (s : State) (p : Nat) : Bool :=
  let q := tget Part.reset s.parts p
  !q.leaves && ((q.step.isOpen && (match q.step.vote with
    | some v => v.status ≠ 0
    | none => false)) || (match q.step.decision with
    | some d => d.outcome = 3
    | none => false))

/-- The abortable context (R498). -/
def abortable (s : State) : Bool :=
  odN s kBootState = 0 || s.boot.inRecovery || odN s kDebugState = 1 || odN s kPowerTestMode = 1 || s.parts.any fun x => rollbackDue s x.1

/-- The wake of a domain in retention begins. -/
def beginWake (s : State) (d : Nat) : State :=
  let src := domState s d
  setDom { s with pow := { s.pow with waking := tset 0 s.pow.waking d src } } d 4

/-- A wake event meets an entry: one wake follows the entry's end; it counts where the entry cannot be abandoned (R497). -/
def meetEntry (s : State) (d : Nat) : State :=
  let s := bump s kWakesDuringEntry (if abortable s then 0 else 1) none
  { s with pow := { s.pow with wakeMet := setAdd s.pow.wakeMet d } }

/-- An access reaches a domain (R496): one in retention wakes and serves it, one that is off or wakes from off does not. -/
def touchDomain (s : State) (d : Nat) : State × Bool :=
  match domState s d with
  | 0 => (s, true)
  | 1 => (bump (beginWake s d) kAutoWakes 1 none, true)
  | 3 => if tget 0 s.pow.entering d = 1 then (meetEntry s d, true) else (s, false)
  | 4 => (s, tget 0 s.pow.waking d = 1)
  | _ => (s, false)

/-- The domains that hold what lies at an address (R490), a containing die first. -/
def domainsAt (s : State) (a : Nat) : List Nat :=
  match region s a with
  | .near => [0x30 + a / 0x12_0000_0000, 0x40 + 2 * (a / 0x12_0000_0000) + a % 0x12_0000_0000 / 4096 % 2]
  | .far => [0x50 + (a - farBase) / 0x20_0000_0000]
  | .staging d _ => [0x30 + d]
  | .scratch c _ => [0x30 + c / 100, c / 20]
  | .sems => [0x30 + (a - semBase) / 0x8_0000]
  | _ => []

def touchAll (s : State) (l : List Nat) : State × Bool :=
  l.foldl (fun (x : State × Bool) d =>
    let (s, ok) := touchDomain x.1 d
    (s, x.2 && ok)) (s, true)

/-- An access to `n` bytes at `a` reaches their domains. -/
def touch (s : State) (a n : Nat) : State × Bool :=
  if n = 0 then (s, true)
  else touchAll s ([a, min (a + 4096) (a + n - 1), a + n - 1].flatMap fun x => domainsAt s x).eraseDups

/-- An access to the depot reaches its domain. -/
def touchDepot (s : State) : State × Bool := touchDomain s 0x71

/-! ### Allotments (R199, R202, R214) -/

/-- The committed grant of a partition; nothing for a free one. -/
def grantOf (s : State) (p : Nat) : Grant := (part s p).grant.getD ⟨0, 0, 0, 0, 0, 0, 0, 0, 0⟩

/-- The partition whose committed grant holds consist k. -/
def conPart (s : State) (k : Nat) : Option Nat :=
  (s.parts.find? fun x => match x.2.grant with
    | some g => bitOf g.consists k
    | none => false).map (·.1)

/-- Whether a staging address of the system region is one that a partition's consist has there (R202): fault ring, slot
log, deadlock record, histogram table; only the last may be written. The reserved rows and the rest of each deadlock area read
as zero to every reader. -/
def sysRegionOk (s : State) (p die off : Nat) (write : Bool) : Bool :=
  let own (j : Nat) : Bool := j < 5 && bitOf (grantOf s p).consists (5 * die + j)
  if 0x02FB_0000 ≤ off then own ((off - 0x02FB_0000) / 0x1_0000)
  else if write then false
  else if 0x02FA_0000 ≤ off ∧ off < 0x02FA_2800 then own ((off - 0x02FA_0000) / 0x800)
  else if 0x02FA_4000 ≤ off ∧ off < 0x02FA_6800 then own ((off - 0x02FA_4000) / 0x800)
  else if 0x02FA_8000 ≤ off ∧ off < 0x02FA_A800 then own ((off - 0x02FA_8000) / 0x800) || decide (544 ≤ off % 0x800)
  else true

/-- Whether one address lies in a partition's committed allotment. -/
def allotAt (s : State) (p a : Nat) (write : Bool) : Bool :=
  let g := grantOf s p
  match region s a with
  | .near => bitOf g.near (a / 2 ^ 30)
  | .far => bitOf g.far ((a - farBase) / 2 ^ 32)
  | .staging d o => if o < 0x02FA_0000 then bitOf g.staging (768 * d + o / 0x1_0000) else sysRegionOk s p d o write
  | .scratch c _ => bitOf g.consists (c / 20)
  | .sems => !write && bitOf g.sems ((a - semBase) / 64 / 256)
  | _ => false

/-- Whether a whole range does: every granule boundary inside it is looked at (2 KiB steps are at or below every
granule and every system area). -/
def allotted (s : State) (p a n : Nat) (write : Bool) : Bool :=
  n = 0 || (allotAt s p (a + n - 1) write &&
    (List.range (ceilDiv (n + a % 2048) 2048)).all fun i => allotAt s p (max a ((a / 2048 + i) * 2048)) write)

/-- A refused access (R199): counted. -/
def countDenied (s : State) (p : Option Nat) : State := bump s kAccessDenied 1 p

/-- Ranges that an accepted shard locks against porter and host writes (R281), and the layer table (R275). -/
def overlaps (a n b m : Nat) : Bool := decide (a < b + m ∧ b < a + n)

/-! ### Semaphores and tokens (R138 to R143, R183 to R190) -/

/-- The die of a semaphore (R24) and of a consist (R27). -/
def semDie (i : Nat) : Nat := i / 8192
def conDie (k : Nat) : Nat := k / 5

/-- Producer code of queue q of consist k (Table 4 of 05). -/
def queueCode (k q : Nat) : Nat := 16 * (k % 5) + q

/-- Status kept by a semaphore when a post brings `st` (R143). -/
def mergeStatus (old st : Nat) : Nat := if errCode old then old else st

/-- A post (R141). -/
def Sem.post (v : Sem) (st producer tick : Nat) : Sem :=
  { v with seq := (v.seq + 1) % 2 ^ 32, status := mergeStatus v.status st, producer := producer, lastTick := tick }

/-- `sem_reset` (Table 6 of 06). -/
def Sem.clear (v : Sem) (n : Nat) : Sem :=
  { v with status := 0, producer := 0, seq := 0, arrivals := 0, round := 0, awaited := 0,
           expected := if v.kind = 1 ∧ n ≠ 0 then n else v.expected }

/-- Status gathered in a signal's round (R189). -/
def roundStatus (old st : Nat) : Nat := if errCode old then old else if errCode st then st else if old = 0x0D then old else st

/-- An arrival of count c (R188). -/
def Sem.arrive (v : Sem) (c st producer tick : Nat) : Sem :=
  let v := { v with arrivals := v.arrivals + c, round := roundStatus v.round st }
  if v.expected ≤ v.arrivals then
    { (v.post v.round producer tick) with arrivals := v.arrivals - v.expected, round := 0 }
  else v

/-- Notes that an engine has posted a token with an error status while a step is open: the module votes no at once (R289). -/
def noteError (s : State) (pt : Option Nat) (st : Nat) : State :=
  match pt with
  | some p =>
    let x := (part s p).step
    if errCode st ∧ x.isOpen ∧ x.vote = none ∧ x.owed = none then modStep s p fun x => { x with owed := some st } else s
  | none => s

/-- A post by an engine of the module for a partition: refused on a semaphore whose declared setter it is not or that lies
outside the partition's range; code 0xFF is accepted on every semaphore (R184). DESIGN CHOICE (R165): the posts of engines that
are no consist's count in `tokens_posted` and `tokens_error` too. -/
def enginePost (s : State) (i st producer : Nat) (pt : Option Nat) : State × Bool :=
  let v := semGet s i
  if producer = 0xFF ∨ (v.kind = 0 ∧ v.setter = producer ∧ (pt = none ∨ pt = some v.part)) then
    (noteError (bump (bump (semSet s i (v.post st producer (tickNow s))) kTokensPosted 1 pt) kTokensError (if errCode st then 1 else 0) pt)
      pt st, true)
  else (bump s kPostsRefused 1 pt, false)

/-- The post of a verb of queue q of consist k (R140, R185): own die's bank, declared setter, partition's range, token
semaphore. Answers ok, denied or malformed. -/
def queuePost (s : State) (k q i st : Nat) : State × Status :=
  let v := semGet s i
  let p := conPart s k
  if semDie i ≠ conDie k ∨ some v.part ≠ p ∨ v.setter ≠ queueCode k q then (bump s kPostsRefused 1 p, .denied)
  else if v.kind ≠ 0 then (bump s kPostsRefused 1 p, .malformed)
  else (bump (semSet s i (v.post st (queueCode k q) (tickNow s))) kTokensPosted 1 p, .ok)

/-- An arrival of count c by a queue or porter of partition p (R185); the one that completes a round posts the signal's token
(R165, R188). -/
def arrivePost (s : State) (p i c st producer : Nat) : State × Status :=
  let v := semGet s i
  if v.part ≠ p then (bump s kArrivalsRefused 1 (some p), .denied)
  else if v.kind ≠ 1 ∨ c = 0 ∨ v.expected < c then (bump s kArrivalsRefused 1 (some p), .malformed)
  else
    let done : Bool := decide (v.expected ≤ v.arrivals + c)
    let s := semSet s i (v.arrive c st producer (tickNow s))
    let s := bump (bump s kTokensPosted (if done then 1 else 0) (some p)) kTokensError
      (if done && errCode (roundStatus v.round st) then 1 else 0) (some p)
    (if done then noteError s (some p) (roundStatus v.round st) else s, .ok)

/-- A semaphore slot read as data (Table 5 of 06): 64 bytes. -/
def semBytes (i : Nat) (v : Sem) : List Byte :=
  leBytes 4 v.seq ++ leBytes 1 v.producer ++ leBytes 1 v.status ++ leBytes 2 i ++
  leBytes 1 v.setter ++ leBytes 1 v.part ++ leBytes 1 v.kind ++ leBytes 1 0 ++ leBytes 4 v.expected ++
  leBytes 4 v.arrivals ++ leBytes 3 0 ++ leBytes 1 v.round ++ leBytes 2 0 ++ leBytes 6 v.lastTick ++ leBytes 32 0

/-- Bytes at an address as a porter or the host reads them: a semaphore slot is read as data (R183). -/
def viewBytes (s : State) (a n : Nat) : List Byte :=
  if semBase ≤ a ∧ a < semBase + 0x40_0000 then
    (List.range n).map fun j => lget 0 (semBytes ((a + j - semBase) / 64) (semGet s ((a + j - semBase) / 64))) ((a + j) % 64)
  else memRead s.mem a n

/-! ### The model's free values -/

/-- Draws `n` octets that the spec leaves open, under a label. -/
def freshOctets (s : State) (label n : Nat) : State × List Byte :=
  ({ s with free := s.free + 1 }, (List.range n).map (Config.secretOctet label s.free))

/-- An ML-DSA-65 signature of 3,309 octets, whose hedge is drawn (R435, R436, R464, R465). -/
def sign (s : State) (key ctx msg : List Byte) : State × List Byte :=
  ({ s with free := s.free + 1 }, (List.range 3309).map (Config.signature key ctx msg s.free))

/-- Adds to a counter a number that the spec lets time decide and no command carries. -/
def bumpFree (s : State) (key : Nat) (part : Option Nat) : State :=
  { bump s key (Config.freeCount key s.free) part with free := s.free + 1 }

end Sys2Proof.Machine
end

