-- ==== Sys2Proof/Machine/Operands.lean ====
section
/-! DEFINITION. Operands: nouns resolved at broadcast (R128, R133 to R136), elements read and written in every format,
block scales, histograms and the counts that go with a write. -/

namespace Sys2Proof.Machine

/-! ### Noun geometry -/

def ext (n : Noun) (d : Nat) : Nat := lget 1 n.extent d
/-- Extent of a dimension, 1 at or above the rank. -/
def dimExt (n : Noun) (d : Nat) : Nat := if d < n.rank then ext n d else 1
def strideOf (n : Noun) (d : Nat) : Nat := if d = 0 then 0 else lget 0 n.stride (d - 1)

/-- S(d): bytes that dimensions 0 to d cover (R134). -/
def nounSpan (n : Noun) : Nat → Nat
  | 0 => rowBytes n.format (ext n 0)
  | d + 1 => (ext n (d + 1) - 1) * strideOf n (d + 1) + nounSpan n d

/-- Number of element blocks (R52, R98). -/
def nounBlocks (n : Noun) : Nat :=
  ceilDiv (ext n 0) 32 * dimExt n 1 * dimExt n 2 * dimExt n 3 * dimExt n 4

/-- Where the block state map of the noun as written begins (R98). -/
def mapBase (n : Noun) : Nat := ceilDiv (n.scalePtr + nounBlocks n * scaleBytes n.format) 64 * 64

/-- First-stage checks (R8, R38, R133, R134, R135): any that fails is malformed. -/
def nounMalformed (n : Noun) : Bool :=
  n.format > 11 || n.rank = 0 || n.rank > 5 || n.tier > 3 || n.splitMode > 2 || n.splitDim > 4 || n.splitDim ≥ n.rank ||
  n.splitGrain = 0 || n.splitGrain ≥ 2 ^ 16 || n.histSlot > 255 || n.reserved ≠ 0 ||
  n.advance.any (fun a => a < -2 ^ 31 || 2 ^ 31 ≤ a) ||
  (if isBlockFmt n.format then n.scalePtr = 0 else n.scalePtr ≠ 0) || n.scalePtr ≥ 2 ^ 48 || n.base ≥ 2 ^ 48 ||
  ((List.range n.rank).any fun d => ext n d = 0 || ext n d ≥ 2 ^ 32) ||
  ((List.range n.rank).any fun d => d ≥ 1 && (strideOf n d < nounSpan n (d - 1) || strideOf n d ≥ 2 ^ 40)) ||
  (isBlockFmt n.format && n.advance.any fun a => a % (4 * (blockBytes n.format : Int)) ≠ 0)

/-- Σ advance[l] · i_l (R135). -/
def advanceBytes (n : Noun) (ix : List Nat) : Int :=
  ((List.range 4).map fun l => lget 0 n.advance l * (lget 0 ix l : Int)).foldl (· + ·) 0

/-- The descriptor that a verb carries (R128, R135). -/
def effective (h : Nat) (n : Noun) (ix : List Nat) : Option RNoun :=
  let dl := advanceBytes n ix
  let base := (n.base : Int) + dl
  if isBlockFmt n.format then
    let b := dl / (blockBytes n.format : Int)
    let sp := (n.scalePtr : Int) + b * scaleBytes n.format
    let mp := (mapBase n : Int) + b / 4
    if base < 0 ∨ sp < 0 ∨ mp < 0 then none
    else some ⟨h, { n with base := base.toNat, scalePtr := sp.toNat }, mp.toNat⟩
  else if base < 0 then none
  else some ⟨h, { n with base := base.toNat }, 0⟩

/-- Whether a range lies in a tier and in the partition's allotment there. -/
def rangeInTier (s : State) (p tier a n : Nat) (write : Bool) : Bool :=
  if tier = 0 then decide (a + n ≤ 2 ^ 21)
  else
    let at' (x : Nat) : Bool := match region s x with
      | .staging _ _ => tier = 1
      | .near => tier = 2
      | .far => tier = 3
      | _ => false
    at' a && at' (a + n - 1) && allotted s p a n write

/-- Byte offsets of the rows of a noun (one for each index of dimensions 1 and up). -/
def rowOffsets (n : Noun) : Nat → List Nat
  | 0 => [0]
  | d + 1 => (rowOffsets n d).flatMap fun o => (List.range (dimExt n (d + 1))).map fun i => o + i * strideOf n (d + 1)

/-- Whether every byte the noun covers lies in the allotment (R134 stage 2), its scale array and state map included. -/
def nounInside (s : State) (p : Nat) (r : RNoun) (write : Bool) : Bool :=
  let n := r.n
  (rangeInTier s p n.tier n.base (nounSpan n (n.rank - 1)) write ||
    (rowOffsets n (n.rank - 1)).all fun o => rangeInTier s p n.tier (n.base + o) (nounSpan n 0) write) &&
  (!isBlockFmt n.format ||
    (rangeInTier s p n.tier n.scalePtr (nounBlocks n * scaleBytes n.format) write &&
     rangeInTier s p n.tier r.map (ceilDiv (nounBlocks n) 4) write))

/-- What an absent noun reads as. -/
def Noun.empty : Noun := ⟨0, 0, 0, 1, [], [], 0, 0, 0, 0, 0, 1, [], 0⟩

/-- Resolves a handle at broadcast (R128, R134): the descriptor, or malformed, or denied. -/
def resolveNoun (s : State) (k h : Nat) (ix : List Nat) : Status × RNoun :=
  let dflt : RNoun := ⟨h, Noun.empty, 0⟩
  match tget none (con s k).nouns h with
  | none => (.malformed, dflt)
  | some e =>
    if nounMalformed e.noun then (.malformed, dflt)
    else
      match effective h e.noun ix with
      | none => (.denied, dflt)
      | some r =>
        match conPart s k with
        | none => (.denied, r)
        | some p => if e.noun.partition ≠ p ∨ !nounInside s p r false then (.denied, r) else (.ok, r)

/-- Noun i of a verb; an absent one reads as an empty descriptor of handle 0. -/
def lgetN (l : List RNoun) (i : Nat) : RNoun := lget ⟨0, Noun.empty, 0⟩ l i

/-! ### Which data each core selects (R136) -/

/-- Whether core index i of the consist selects index x of the split dimension. -/
def coreSelects (n : Noun) (i x : Nat) : Bool :=
  let e := ext n n.splitDim
  let g := n.splitGrain
  match n.splitMode with
  | 0 => let w := ceilDiv e (20 * g) * g
         decide (i * w ≤ x ∧ x < (i + 1) * w)
  | 1 => decide (x / g % 20 = i)
  | _ => true

/-- Indices of dimension d that core i selects. -/
def dimSel (n : Noun) (i d : Nat) : List Nat :=
  (List.range (dimExt n d)).filter fun x => d ≠ n.splitDim || coreSelects n i x

/-- Multi-indices (dimension 0 first) that core i selects, dimension 0 fastest. -/
def selIdx (n : Noun) (i : Nat) : Nat → List (List Nat)
  | 0 => [[]]
  | d + 1 =>
    -- build dimension r − (d + 1) in front of the dimensions above it
    (selIdx n i d).flatMap fun t => (dimSel n i (n.rank - (d + 1))).map fun x => x :: t

def coreIdx (n : Noun) (i : Nat) : List (List Nat) := selIdx n i n.rank

/-! ### Element addresses -/

/-- Device address of an offset or address in a tier as a core sees it. -/
def tierAddr (tier core a : Nat) : Nat := if tier = 0 then scratchBase + core * 0x40_0000 + a else a

def rowOff (n : Noun) (idx : List Nat) : Nat :=
  lget 0 idx 1 * strideOf n 1 + lget 0 idx 2 * strideOf n 2 + lget 0 idx 3 * strideOf n 3 + lget 0 idx 4 * strideOf n 4

/-- Address of an unscaled element, or of the element block that holds a block-scaled one. -/
def elemAddr (r : RNoun) (core : Nat) (idx : List Nat) : Nat :=
  let i0 := lget 0 idx 0
  tierAddr r.n.tier core (r.n.base + rowOff r.n idx +
    (if isBlockFmt r.n.format then i0 / 32 * blockBytes r.n.format else i0 * elemBytes r.n.format))

/-- Number of the block of an element in the order of R53. -/
def blockNo (n : Noun) (idx : List Nat) : Nat :=
  (((lget 0 idx 4 * dimExt n 3 + lget 0 idx 3) * dimExt n 2 + lget 0 idx 2) * dimExt n 1 + lget 0 idx 1) *
    ceilDiv (ext n 0) 32 + lget 0 idx 0 / 32

def scaleAddr (r : RNoun) (core b : Nat) : Nat := tierAddr r.n.tier core (r.n.scalePtr + b * scaleBytes r.n.format)
def mapAddr (r : RNoun) (core b : Nat) : Nat := tierAddr r.n.tier core (r.map + b / 4)

/-- An element's exact value and whether it is poisoned (R515). -/
def readElem (s : State) (r : RNoun) (core : Nat) (idx : List Nat) : Val × Bool :=
  let a := elemAddr r core idx
  let c := r.n.format
  if isBlockFmt c then
    let b := blockNo r.n idx
    let sa := scaleAddr r core b
    let bad := rangeLost s a (blockBytes c) || rangeLost s sa (scaleBytes c)
    (decodeBlockElem c (memNat s a (blockBytes c)) (memNat s sa (scaleBytes c)) (lget 0 idx 0 % 32), bad)
  else
    let (bs, bad) := loadBytes s a (elemBytes c)
    (decodeElem c (leNat bs), bad)

/-- The banks of `n` bytes at a scratch offset, added to a mask (R201). -/
def bankSpan (m o n : Nat) : Nat :=
  (List.range ((o + n - 1) / 0x2_0000 + 1 - o / 0x2_0000)).foldl (fun m i => bitSet m (o / 0x2_0000 + i)) m

/-- Scratch banks that a core touches at some elements of a noun: those of the elements, of a block-scaled noun's scale entries
too and, where it writes, of its state map (R98, R201). -/
def idxBanks (r : RNoun) (write : Bool) (idxs : List (List Nat)) : Nat :=
  if r.n.tier ≠ 0 then 0
  else
    let c := r.n.format
    idxs.foldl (fun m idx =>
      let o := elemAddr r 0 idx - scratchBase
      if isBlockFmt c then
        let b := blockNo r.n idx
        let m := bankSpan (bankSpan m o (blockBytes c)) (scaleAddr r 0 b - scratchBase) (scaleBytes c)
        if write then bankSpan m (mapAddr r 0 b - scratchBase) 1 else m
      else bankSpan m o (elemBytes c)) 0

/-- Whether every set bit of `banks` is in `mask` (R151). -/
def inMask (banks mask : Nat) : Bool := banks &&& mask = banks

/-! ### Counting -/

/-- The units that write elements and count what they produce (R112, R228). -/
inductive Writer
  | array | vector | porter
  deriving DecidableEq, Repr

/-- What one write counted; whether its element was written poisoned, whether nothing was encoded (R99) and so nothing binned,
whether a scale entry or map byte could not be written (R213), a mark that the full poison table refused (R221), and the scale
entries and map bytes written. -/
structure Tally where
  nonfin : Nat
  zeroed : Nat
  newOverflow : Nat
  overflowWrites : Nat
  atMax : Nat
  dirty : Bool
  poisoned : Bool
  skipped : Bool
  unmade : Bool
  full : Bool
  scales : List (Nat × Nat)
  maps : List (Nat × Nat)
  deriving DecidableEq, Repr

def Tally.zero : Tally := ⟨0, 0, 0, 0, 0, false, false, false, false, false, [], []⟩

/-- Adds a write's counts to the counters of 04 Table 5 and to the watch's step counts (R112, R113). -/
def countTally (s : State) (u : Writer) (t : Tally) (p : Option Nat) : State :=
  let s := match u with
    | .array => bump (bump s kNonfiniteArray t.nonfin p) kZeroedArray t.zeroed p
    | .vector => bump (bump s kNonfiniteVector t.nonfin p) kZeroedVector t.zeroed p
    | .porter => bump s kConvertNonfinite t.nonfin p
  let s := bump (bump (bump s kBlocksOverflowed t.newOverflow p) kBlockOverflowWrites t.overflowWrites p) kBlocksAtMaxScale t.atMax p
  match p with
  | none => s
  | some p =>
    if t.nonfin = 0 ∧ t.zeroed = 0 ∧ t.newOverflow = 0 then s
    else modPart s p fun q => { q with watch := { q.watch with
      nonfinite := q.watch.nonfinite + (if u = .porter then 0 else t.nonfin)
      zeroed := q.watch.zeroed + (if u = .porter then 0 else t.zeroed)
      overflowed := q.watch.overflowed + t.newOverflow } }

/-- Sets the dirty bit of a noun-table entry (R99). -/
def setDirty (s : State) (k h : Nat) : State :=
  modCon s k fun c => match tget none c.nouns h with
    | some e => { c with nouns := tset none c.nouns h (some { e with dirty := true }) }
    | none => c

/-! ### Histograms (R88 to R91) -/

/-- Device address of a consist's histogram table. -/
def histTable (k : Nat) : Nat := stagingBase + conDie k * 0x1000_0000 + (0x0300_0000 - (5 - k % 5) * 0x1_0000)

/-- The bin of a value under a base (Table 7 of 03). -/
def histBin (base : Int) (x : Val) : Nat :=
  match x with
  | .fin _ m _ =>
    if m = 0 then 0
    else
      let e := x.expo
      if e < base then 1 else if base + 59 < e then 62 else (e - base).toNat + 2
  | _ => 63

/-- Adds 1 to a value's bin of a slot, saturating (R90). -/
def histAdd (s : State) (k slot : Nat) (x : Val) : State :=
  if slot = 0 then s
  else
    let t := histTable k
    let base := codeInt 8 (memNat s (t + slot) 1)
    let a := t + 256 * slot + 4 * histBin base x
    let v := memNat s a 4
    { s with mem := { s.mem with cells := cellsWrite s.mem.cells a (leBytes 4 (if v = 0xFFFFFFFF then v else v + 1)) } }

/-! ### Writing elements -/

/-- Joins neighbouring runs so that a line written element by element counts as written whole (R220). -/
def mergeRuns : List (Nat × Nat) → List (Nat × Nat)
  | [] => []
  | (a, n) :: r =>
    match mergeRuns r with
    | (b, m) :: t => if a + n = b then (a, n + m) :: t else (a, n) :: (b, m) :: t
    | [] => [(a, n)]

/-- Writes bytes without touching marks, where their channels take them (R213). -/
def putCells (s : State) (a : Nat) (bs : List Byte) : State :=
  if (linesOf a bs.length).all fun l => farWritable s (max a (l * 64)) then
    { s with mem := { s.mem with cells := cellsWrite s.mem.cells a bs } }
  else
    let c := (bs.zipIdx.filter fun x => farWritable s (a + x.2)).foldl (fun c x => cellSet c (a + x.2) x.1) s.mem.cells
    { s with mem := { s.mem with cells := c } }

/-- Ends a clean write of some ranges: joined where they lie together, they clear the marks that they cover whole (R220), and their
read-modify-writes are noted (R211). -/
def endWrite (s : State) (whole touched : List (Nat × Nat)) (p : Option Nat) : State :=
  (mergeRuns touched.eraseDups).foldl (fun s x => noteRmw s x.1 x.2 p)
    ((mergeRuns whole.eraseDups).foldl (fun s x => clearMarks s x.1 x.2) s)

/-- The largest magnitude of some values. -/
def amaxOf (l : List Val) : Val := l.foldl (fun m v => if m.lt v.abs then v.abs else m) (.fin false 0 0)

/-- One write of some elements of one block (R50, R52, R57, R99, R101): `es` are (element in block, value or none where it is
poisoned). Answers the new state and what it counts; the bytes are in place, their marks and read-modify-writes are the caller's.
DESIGN CHOICE (R57, R101): a fresh write that covers an HS4 sub-block in part decodes the elements it keeps under the block's new
scale with their stored offset. -/
def writeBlock (s : State) (r : RNoun) (core : Nat) (idx0 : List Nat) (es : List (Nat × Option Val)) (p : Option Nat) : State × Tally :=
  let c := r.n.format
  let b := blockNo r.n idx0
  let a := elemAddr r core idx0
  let sa := scaleAddr r core b
  let ma := mapAddr r core b
  let realElems := min 32 (ext r.n 0 - lget 0 idx0 0 / 32 * 32)
  let clean := es.filterMap fun x => x.2.map fun v => (x.1, v)
  let pois := decide (clean.length < es.length)
  let unmade := !farWritable s sa || !farWritable s ma
  let t0 := { Tally.zero with poisoned := pois, unmade := unmade }
  if badAt s.mem ma then
    -- R99: map byte poisoned
    let (s, st1) := storePoison s a (blockBytes c) p
    let (s, st2) := storePoison s sa (scaleBytes c) p
    (s, { t0 with poisoned := true, skipped := true, full := decide (st1 = .capacity) || decide (st2 = .capacity) })
  else if clean = [] then (s, { t0 with skipped := true })
  else
    let mapv := memNat s ma 1
    let st := bits mapv (2 * (b % 4)) 2
    let setState (s : State) (v : Nat) : State := putCells s ma (leBytes 1 (mapv - st * 4 ^ (b % 4) + v * 4 ^ (b % 4)))
    let mapRun := [(ma, 1)]
    let scaleRun := [(sa, scaleBytes c)]
    let word := memNat s sa (scaleBytes c)
    let e := word % 256
    let nonfin := clean.any fun x => !x.2.isFin
    if badAt s.mem sa ∧ st ≠ 2 then
      let (s, st1) := storePoison s a (blockBytes c) p
      (s, { t0 with poisoned := true, skipped := true, full := decide (st1 = .capacity) })
    else if e = 255 ∧ st ≠ 2 then (s, { t0 with nonfin := clean.length, skipped := true })
    else if nonfin then
      -- R50
      let s := putCells (putCells s a (List.replicate (blockBytes c) 0)) sa (leBytes (scaleBytes c) 0x00FF)
      let t := { t0 with nonfin := realElems, dirty := true, scales := scaleRun }
      if st = 2 then (setState s 0, { t with maps := mapRun }) else (s, t)
    else
      let e' := if st = 2 then freshScale c (amaxOf (clean.map (·.2))) else e
      -- pad elements are written as +0 (R52)
      let blk := memNat s a (blockBytes c) % 2 ^ (realElems * elemBits c)
      let stale := rangeBad s.mem a (blockBytes c)
      -- HS4: offsets of the sub-blocks that the write covers
      let offs := (List.range 4).map fun j =>
        let news := clean.filter fun x => x.1 / 8 = j
        let touched := es.any fun x => x.1 / 8 = j
        if c = 11 ∧ touched then
          let kept := (List.range 8).filter fun i => !es.any fun x => x.1 = 8 * j + i
          let stored := if stale then [] else kept.map fun i => decodeBlockElem c blk (word - word % 256 + e') (8 * j + i)
          if news = [] ∧ stored = [] then 3 else hs4Offset e' (amaxOf (news.map (·.2) ++ stored))
        else hs4Off word j
      let scaleOf (i : Nat) (v : Val) : Val :=
        let u := unscaleBy e' v
        if c = 11 then u.mul (.fin false 1 (lget 0 offs (i / 8) : Int)) else u
      -- stored elements kept in a sub-block whose offset changed are rounded again (R57 step 6)
      let blk := if c = 11 then
          (List.range 32).foldl (fun blk' i =>
            if (es.any fun x => x.1 / 8 = i / 8) ∧ !(es.any fun x => x.1 = i) ∧ lget 0 offs (i / 8) ≠ hs4Off word (i / 8) then
              setBlockElem c blk' i (encodeVal fmtE2m1 (scaleOf i (decodeBlockElem c blk (word - word % 256 + e') i))).code
            else blk') blk
        else blk
      let (blk, t) := clean.foldl (fun (x : Nat × Tally) ev =>
        let en := encodeVal (elemFmt c) (scaleOf ev.1 ev.2)
        (setBlockElem c x.1 ev.1 en.code,
          { x.2 with zeroed := x.2.zeroed + (if en.zeroed then 1 else 0), dirty := x.2.dirty || en.ovf })) (blk, t0)
      let word' := if c = 11 then e' + (lget 0 offs 0) * 2 ^ 8 + (lget 0 offs 1) * 2 ^ 10 + (lget 0 offs 2) * 2 ^ 12 + (lget 0 offs 3) * 2 ^ 14 else e'
      let s := putCells s a (leBytes (blockBytes c) blk)
      let (s, t) := if word' = word then (s, t) else (putCells s sa (leBytes (scaleBytes c) word'), { t with scales := scaleRun })
      if t.dirty then
        (setState s 1, { t with newOverflow := if st = 1 then 0 else 1, overflowWrites := 1, atMax := if e' = 0xFE then 1 else 0, maps := mapRun })
      else if st = 2 then (setState s 0, { t with maps := mapRun })
      else (s, t)

/-- Neighbouring elements of one block grouped: (first index, elements in the block). -/
def groupBlocks (r : RNoun) : List (List Nat × Option Val) → List (List Nat × List (Nat × Option Val))
  | [] => []
  | (i, v) :: t =>
    match groupBlocks r t with
    | (j, es) :: u =>
      if blockNo r.n i = blockNo r.n j then (i, (lget 0 i 0 % 32, v) :: es) :: u else (i, [(lget 0 i 0 % 32, v)]) :: (j, es) :: u
    | [] => [(i, [(lget 0 i 0 % 32, v)])]

def Tally.add (a b : Tally) : Tally :=
  ⟨a.nonfin + b.nonfin, a.zeroed + b.zeroed, a.newOverflow + b.newOverflow, a.overflowWrites + b.overflowWrites,
   a.atMax + b.atMax, a.dirty || b.dirty, a.poisoned || b.poisoned, a.skipped || b.skipped, a.unmade || b.unmade,
   a.full || b.full, a.scales ++ b.scales, a.maps ++ b.maps⟩

/-- The status of the lowest-addressed of some failing pieces (R221). -/
def lowestFail : List (Nat × Status) → Status
  | [] => .ok
  | (a, st) :: r => match r.find? fun x => x.1 < a with
    | some _ => lowestFail r
    | none => st

/-- Bytes that one element's write covers: its own, or its block's. -/
def writeSize (c : Nat) : Nat := if isBlockFmt c then blockBytes c else elemBytes c

/-- What encoding elements leaves: the state, the counts, the runs written clean and whole, those written clean at all, the blocks
written poisoned with their status, and the values written, which the histogram bins (R90). -/
structure Encoded where
  s : State
  t : Tally
  whole : List (Nat × Nat)
  touched : List (Nat × Nat)
  blocks : List (Nat × Status)
  vals : List Val
  deriving DecidableEq, Repr

/-- Encodes elements that memory takes. -/
def encodeElems (s : State) (core : Nat) (r : RNoun) (es : List (List Nat × Option Val)) (p : Option Nat) : Encoded :=
  let c := r.n.format
  if isBlockFmt c then
    (groupBlocks r es).foldl (fun x g =>
      let (s, t) := writeBlock x.s r core g.1 g.2 p
      let a := elemAddr r core g.1
      let real := min 32 (ext r.n 0 - lget 0 g.1 0 / 32 * 32)
      { s := s, t := x.t.add t
        whole := if g.2.length = real ∧ !t.poisoned ∧ !t.skipped then x.whole ++ [(a, blockBytes c)] else x.whole
        touched := if t.skipped then x.touched else x.touched ++ [(a, blockBytes c)]
        blocks := if t.poisoned then x.blocks ++ [(a, if t.full then .capacity else .poisoned)] else x.blocks
        vals := if t.skipped then x.vals else x.vals ++ g.2.filterMap (·.2) }) ⟨s, Tally.zero, [], [], [], []⟩
  else
    es.foldl (fun x e =>
      let a := elemAddr r core e.1
      match e.2 with
      | some v =>
        let en := encodeElem c v
        let t := { x.t with nonfin := x.t.nonfin + (if en.nonfin then 1 else 0), zeroed := x.t.zeroed + (if en.zeroed then 1 else 0) }
        { x with
          s := putCells x.s a (leBytes (elemBytes c) en.code)
          t := t
          whole := x.whole ++ [(a, elemBytes c)]
          touched := x.touched ++ [(a, elemBytes c)]
          vals := x.vals ++ [v] }
      | none => x) ⟨s, Tally.zero, [], [], [], []⟩

/-- A write of elements by a unit of consist k: encoded by the noun's format, counted, binned, marked; poisoned elements
are written poisoned (R515), and a far-tier chunk whose mark the full poison table refuses keeps its old contents (R221).
Answers the state and the status of the lowest-addressed part that failed or was poisoned. -/
def writeElems (s : State) (u : Writer) (k core : Nat) (r : RNoun) (es : List (List Nat × Option Val)) : State × Status :=
  let c := r.n.format
  let p := conPart s k
  let at' (x : List Nat × Option Val) : Nat := elemAddr r core x.1
  let made (x : List Nat × Option Val) : Bool := farWritable s (at' x) || farWritable s (at' x + writeSize c - 1)
  -- what lies on a failed channel, in part where a block straddles two chunks (R213)
  let lost := es.filter fun x => !farWritable s (at' x) || !farWritable s (at' x + writeSize c - 1)
  let es := es.filter made
  let bads := mergeRuns ((es.filter fun x => x.2 = none).map fun x => (at' x, writeSize c))
  let (s, marks) := bads.foldl (fun (x : State × List (Nat × Status)) b =>
    let (s, l) := poisonPieces x.1 b.1 b.2 p
    (s, x.2 ++ l.map fun y => (y.1, if y.2 = .ok then Status.poisoned else y.2))) (s, [])
  let refused (a : Nat) : Bool := isFar a && !s.mem.farPoison.contains (chunkOf a) &&
    bads.any fun b => decide (chunkOf b.1 ≤ chunkOf a ∧ chunkOf a ≤ chunkOf (b.1 + b.2 - 1))
  let x := encodeElems s core r (es.filter fun x => !refused (at' x)) p
  let s := if u = .porter then x.s else x.vals.foldl (fun s v => histAdd s k r.n.histSlot v) x.s
  let s := endWrite (endWrite (endWrite s x.whole x.touched p) x.t.scales x.t.scales p) x.t.maps x.t.maps p
  let s := countTally s u x.t p
  let s := if x.t.dirty then setDirty s k r.handle else s
  let st := lowestFail (lost.map (fun x => (at' x, Status.poisoned)) ++ marks ++ x.blocks)
  (s, if st = .ok ∧ x.t.unmade then .poisoned else st)

/-- Whether a write of a value counts its element as non-finite of itself (R50, R99, R112). -/
def countsNonfin (s : State) (r : RNoun) (core : Nat) (idx : List Nat) (v : Val) : Bool :=
  let c := r.n.format
  if isBlockFmt c then
    let b := blockNo r.n idx
    let ma := mapAddr r core b
    !v.isFin || (memNat s (scaleAddr r core b) (scaleBytes c) % 256 = 255 && bits (memNat s ma 1) (2 * (b % 4)) 2 ≠ 2 && !badAt s.mem ma)
  else (encodeElem c v).nonfin

/-! ### Locked ranges (R275, R281) -/

/-- Bytes of a shard's state: whole state blocks (R272). -/
def shardStateBytes (s : State) (sh : Shard) : Nat :=
  let d := if farProtected s ((sh.stateBase - farBase) / 0x20_0000_0000) then 7 else 8
  ceilDiv sh.count (4096 * d) * (24 * 2048 * d)

/-- The ranges that an accepted shard locks (R281). -/
def shardRanges (s : State) (x : Accepted) : List (Nat × Nat) :=
  let sh := x.shard
  [(x.addr, 64), (sh.stateBase, shardStateBytes s sh), (sh.gradAddr, sh.count * (if sh.gradFormat = 0 then 4 else 2)),
   (sh.wcAddr, rowBytes x.layer.wcFormat sh.count)] ++
  (if sh.wcScale = 0 then [] else [(sh.wcScale, ceilDiv sh.count 32 * scaleBytes x.layer.wcFormat)]) ++
  (if sh.freeze = 0 then [] else [(sh.freeze, ceilDiv (ceilDiv sh.count 32) 8)])

/-- Whether a porter or host write of `n` bytes at `a` meets a locked shard (R281). -/
def shardLocked (s : State) (p a n : Nat) : Bool :=
  (part s p).step.shards.any fun x => (shardRanges s x).any fun g => overlaps a n g.1 g.2

/-- Whether it meets the partition's layer table (R275). -/
def layerLocked (s : State) (p a n : Nat) : Bool :=
  odN s (kLayerTableAddr p) ≠ 0 && overlaps a n (odN s (kLayerTableAddr p)) 0x4_0000

/-- Whether a porter or host write of some ranges meets a lock: denied, and counted where a shard holds it (R275, R281). -/
def rangesLocked (s : State) (p : Nat) (rs : List (Nat × Nat)) : State × Status :=
  if rs.any fun x => layerLocked s p x.1 x.2 then (s, .denied)
  else if rs.any fun x => shardLocked s p x.1 x.2 then (bump s kYardLockedWrites 1 (some p), .denied)
  else (s, .ok)

/-- The check of a porter or host write of some ranges: denied where it may not go, counted (R199, R275, R281). -/
def rangesWritable (s : State) (p : Nat) (rs : List (Nat × Nat)) : State × Status :=
  if rs.any fun x => !allotted s p x.1 x.2 true then (countDenied s (some p), .denied) else rangesLocked s p rs

/-- The same for one range. -/
def writeAllowed (s : State) (p a n : Nat) : State × Status := rangesWritable s p [(a, n)]

/-- The ranges that a write to a noun may touch: its elements, and a block-scaled noun's scale array and state map. -/
def nounRanges (r : RNoun) : List (Nat × Nat) :=
  (r.n.base, nounSpan r.n (r.n.rank - 1)) ::
    (if isBlockFmt r.n.format then [(r.n.scalePtr, nounBlocks r.n * scaleBytes r.n.format), (r.map, ceilDiv (nounBlocks r.n) 4)] else [])

/-- The same for the noun that a verb writes. -/
def nounWritable (s : State) (p : Nat) (r : RNoun) : State × Status :=
  if !nounInside s p r true then (countDenied s (some p), .denied)
  else if r.n.tier = 0 then (s, .ok)
  else rangesLocked s p (nounRanges r)

/-- The ranges that some elements of a run take (R228): theirs, which lie together, and a block-scaled noun's scale entries and,
where they are written, its state map. -/
def runRanges (r : RNoun) (core : Nat) (g : List (List Nat)) (write : Bool) : List (Nat × Nat) :=
  match g with
  | [] => []
  | i :: _ =>
    let j := g.getLast?.getD i
    let a := elemAddr r core i
    let (b, c) := (blockNo r.n i, blockNo r.n j)
    (a, elemAddr r core j + writeSize r.n.format - a) ::
      (if isBlockFmt r.n.format then
        (scaleAddr r core b, (c + 1 - b) * scaleBytes r.n.format) ::
          (if write then [(mapAddr r core b, mapAddr r core c + 1 - mapAddr r core b)] else [])
      else [])

/-- The accesses of a verb's nouns beyond scratch, which porters make, reach their domains (R68, R496). -/
def touchNouns (s : State) (ns : List RNoun) : State × Bool :=
  ns.foldl (fun (x : State × Bool) r =>
    if r.handle = 0 ∨ r.n.tier = 0 then x
    else
      (nounRanges r).foldl (fun x g =>
        let (s, ok) := touch x.1 g.1 g.2
        (s, x.2 && ok)) x) (s, true)

end Sys2Proof.Machine
end

