-- ==== Sys2Proof/Machine/Flags.lean ====
section
/-! DEFINITION. The statuses of a verb's parts and of its token (R144, R158, R246). -/

namespace Sys2Proof.Machine

/-- A part that ended ok or uncoupled (R143). -/
def partFine (st : Status) : Bool := st = .ok || st = .uncoupled

/-- The `part_ok` bitmap of a fault record (Table 5 of 05). -/
def partOk (parts : List Status) : Nat :=
  (parts.zipIdx.map fun x => if partFine x.1 then 2 ^ x.2 else 0).foldl (· + ·) 0

/-- The status of the lowest-numbered failing core; ok where none fails. -/
def firstFailing : List Status → Status
  | [] => .ok
  | st :: r => if partFine st then firstFailing r else st

/-- A token's status from its twenty parts (R144). -/
def tokenStatus (parts : List Status) : Status :=
  if parts.all (· = .ok) then .ok
  else if parts.all partFine then .uncoupled
  else if parts.any partFine then .partly
  else firstFailing parts

/-- The lowest-numbered of the statuses that apply to one part at one moment (R514); ok counts as none. -/
def lowestStatus (l : List Status) : Status :=
  l.foldl (fun m st => if st = .ok then m else if m = .ok then st else if stCode st < stCode m then st else m) .ok

end Sys2Proof.Machine
end

