-- ==== Sys2Proof/Machine/Matrix.lean ====
section
/-! DEFINITION. The matrix array of one core (03): tiles, K-steps, promotion, split passes, spill and resume, row
statistics. -/

namespace Sys2Proof.Machine

/-- A promotion-bank entry: an FP32 value or an INT32, whether it is saturated (R73), whether it came from a NaN or an
infinity (R76). -/
structure BankCell where
  v : Val
  i : Int
  sat : Bool
  nf : Bool
  deriving DecidableEq, Repr

def BankCell.zero : BankCell := ⟨.fin false 0 0, 0, false, false⟩

/-! ### Scalars (R131) -/

/-- A scalar's value on core i of consist k. One that names a scalar of an enclosing call stands outside any call here, where the
broadcast has refused it; the stage coordinate is in place as a number since the broadcast. -/
def scalVal (k i : Nat) (ix : List Nat) : Scal → Nat
  | .imm v => v.toNat
  | .call _ => 0
  | .coreIndex => i
  | .consistIndex => k
  | .loopIndex l => lget 0 ix l % 2 ^ 32
  | .stage => 0

/-- Whether a scalar names one of an enclosing call's. -/
def scalOpen : Scal → Bool
  | .call _ => true
  | .imm _ => false
  | .coreIndex => false
  | .consistIndex => false
  | .loopIndex _ => false
  | .stage => false

/-! ### Order of operations -/

/-- Floating K-steps (R72, R75): `k` is the step's number in the contraction, `ks` the segment's end. -/
def floatSteps (kEnd : Nat) : List (Val × Val) → Nat → Val → Val → Val
  | [], _, _, bank => bank
  | (a, b) :: r, k, nar, bank =>
    let p := roundVal fmtE8m11 (a.mul b)
    let nar := roundVal fmtE8m11 (nar.add p)
    if (k + 1) % 16 = 0 ∨ k + 1 = kEnd then floatSteps kEnd r (k + 1) (.fin false 0 0) (r32 (bank.add nar))
    else floatSteps kEnd r (k + 1) nar bank

/-- Adds into an INT32 entry with saturation that stays (R73). -/
def intAdd (c : BankCell) (n : Int) : BankCell :=
  if c.sat then c
  else
    let x := c.i + n
    if 2147483647 < x then { c with i := 2147483647, sat := true }
    else if x < -2147483648 then { c with i := -2147483648, sat := true }
    else { c with i := x }

/-- The integer a value spells (INT8 elements). -/
def valInt : Val → Int
  | .fin s m e => let x : Int := (m : Int) * 2 ^ e.toNat
                  if s then -x else x
  | _ => 0

/-- Integer K-steps (R73, R75). -/
def intSteps (kEnd : Nat) : List (Val × Val) → Nat → Int → BankCell → BankCell
  | [], _, _, bank => bank
  | (a, b) :: r, k, nar, bank =>
    let nar := nar + valInt a * valInt b
    if (k + 1) % 16 = 0 ∨ k + 1 = kEnd then intSteps kEnd r (k + 1) 0 (intAdd bank nar)
    else intSteps kEnd r (k + 1) nar bank

/-- Pass order of split verbs (Table 8 of 02): the pieces of A and B. -/
def splitPasses : MatKind → List (Nat × Nat)
  | .split2 => [(1, 0), (0, 1), (0, 0)]
  | .split3 => [(2, 0), (1, 1), (0, 2), (1, 0), (0, 1), (0, 0)]
  | .plain => []

/-- One split K-step into the FP32 entry (R64, R77). -/
def splitStep (pass : Nat × Nat) (a b bank : Val) : Val :=
  r32 (bank.add ((lget .nan (splitPieces a) pass.1).mul (lget .nan (splitPieces b) pass.2)))

/-- Number of K-steps or split steps of the whole contraction (R78). -/
def stepCount (kind : MatKind) (kTotal : Nat) : Nat :=
  match kind with
  | .plain => kTotal
  | k => (splitPasses k).length * kTotal

/-- Lowest and highest K index that a segment touches (R545). -/
def kSpan (kind : MatKind) (o : MmaOps) : Nat × Nat :=
  match kind with
  | .plain => (o.k0, o.k1 - 1)
  | _ => if o.k0 / o.kTotal = (o.k1 - 1) / o.kTotal then (o.k0 % o.kTotal, (o.k1 - 1) % o.kTotal) else (0, o.kTotal - 1)

/-! ### Checks made on the descriptors (R69, R70, R76, R79, R83, R84, R545) -/

def isFp4Class (c : Nat) : Bool := 8 ≤ c && c ≤ 11
def isFp8Class (c : Nat) : Bool := c = 3 || c = 4 || c = 6 || c = 7
def isBfClass (c : Nat) : Bool := c = 1 || c = 2

/-- Table 2 of 03. -/
def pairOk (kind : MatKind) (a b : Nat) : Bool :=
  match kind with
  | .plain => (isFp4Class a || isFp8Class a) && (isFp4Class b || isFp8Class b) || a = 5 && b = 5 || isBfClass a && isBfClass b
  | _ => a = 0 && b = 0

/-- A spill target or resume source: an address of the own scratch (as in core 0's window) or of the near tier. -/
def spillPlace (s : State) (a : Nat) : Option Bool :=
  match region s a with
  | .scratch 0 _ => some true
  | .near => some false
  | _ => none

/-- Whether α is fit for mode `exp` on every core: a positive finite FP32 value (R84). -/
def alphaOk (k : Nat) (ix : List Nat) (a : Scal) : Bool :=
  (List.range 20).all fun i => match v32 (scalVal k i ix a) with
    | .fin sg m _ => !sg && m ≠ 0
    | _ => false

/-- Status of a matrix verb's own checks; `ns` are A, B, output, initial value, statistics. DESIGN CHOICE (R84): the statistics
noun's range is checked by the format it names, while its entries lie 8 bytes apart whatever that format is. -/
def matrixCheck (s : State) (k p : Nat) (ix : List Nat) (kind : MatKind) (o : MmaOps) (ns : List RNoun) : Status :=
  let a := (lgetN ns 0).n
  let b := (lgetN ns 1).n
  let out := (lgetN ns 2).n
  let st := (lgetN ns 4).n
  let (lo, hi) := kSpan kind o
  let bad :=
    o.a = 0 || o.b = 0 || o.out = 0 || !pairOk kind a.format b.format || o.aKDim > 1 || o.bKDim > 1 ||
    (isBlockFmt a.format && (o.aKDim ≠ 0 || o.k0 % 32 ≠ 0)) || (isBlockFmt b.format && (o.bKDim ≠ 0 || o.k0 % 32 ≠ 0)) ||
    o.kTotal = 0 || o.k1 ≤ o.k0 || stepCount kind o.kTotal < o.k1 ||
    dimExt a o.aKDim < hi - lo + 1 || dimExt b o.bKDim < hi - lo + 1 ||
    (o.init ≠ 0 && o.resume ≠ none) ||
    (match o.spill with
      | some x => x % 64 ≠ 0 || spillPlace s x = none
      | none => false) ||
    (match o.resume with
      | some x => spillPlace s x = none
      | none => false) ||
    (o.statMode ≠ .none && (o.stats = 0 || st.rank ≠ 2 || ext st 0 < ceilDiv (dimExt out 0) 48 || ext st 1 < dimExt out 1)) ||
    (o.statMode = .exp && !alphaOk k ix o.alpha)
  if bad then .malformed
  else
    let denied (x : Option Nat) : Bool := match x with
      | some a => spillPlace s a = some false && !allotted s p a 12320 true
      | none => false
    if denied o.spill || denied o.resume then .denied else .ok

/-! ### Spill records (R79, R80, R81) -/

def recStride : Nat := 12352

/-- Where record n of a core stands. DESIGN CHOICE (R79): from one target or source, a core's records lie one stride of 12,352 bytes
after another in the order of its tiles, row by row; in scratch each core counts from its own copy of the offset, in the near tier
core i begins i times `recPerCore` records after the target. -/
def recordAddr (s : State) (a core i recPerCore n : Nat) : Nat :=
  match spillPlace s a with
  | some true => a + core * 0x40_0000 + n * recStride
  | _ => a + (i * recPerCore + n) * recStride

def splitCode : MatKind → Nat
  | .plain => 0 | .split2 => 2 | .split3 => 3

/-- The header less its check (Table 4 of 03). -/
def recHeader (jobTag kDone kTotal tm tn status pass split : Nat) (int final : Bool) : List Byte :=
  leBytes 28 (2 ^ 80 * (if final then 1 else 0) + 2 ^ 81 * (if int then 1 else 0) + 2 ^ 82 * split + 2 ^ 84 * pass +
    2 ^ 88 * status + 2 ^ 96 * tn + 2 ^ 112 * tm + 2 ^ 128 * kTotal + 2 ^ 160 * kDone + 2 ^ 192 * jobTag)

/-- A record: header, check, 3,072 entries. -/
def recBytes (hdr data : List Byte) : List Byte := hdr ++ leBytes 4 (crc32c (hdr ++ data)) ++ data

/-- Whether a record must be rejected (R81). -/
def recRejected (rec : List Byte) (kind : MatKind) (o : MmaOps) (tm tn : Nat) (int : Bool) : Bool :=
  let h := leNat (rec.take 28)
  crc32c (rec.take 28 ++ rec.drop 32) ≠ leNat ((rec.drop 28).take 4) || h % 2 ^ 80 ≠ 0 ||
  bits h 192 32 ≠ o.jobTag || bits h 112 16 ≠ tm || bits h 96 16 ≠ tn || bits h 128 32 ≠ o.kTotal ||
  bits h 82 2 ≠ splitCode kind || bits h 81 1 ≠ (if int then 1 else 0) || bits h 80 1 = 1 ||
  (match kind with
    | .plain => o.k0 ≠ bits h 160 32
    | _ => o.k0 ≠ bits h 84 4 * o.kTotal + bits h 160 32)

/-- Bank entry (i, j) of a record. -/
def recCell (rec : List Byte) (int : Bool) (i j : Nat) : BankCell :=
  let w := leNat ((rec.drop (32 + 4 * (48 * i + j))).take 4)
  if int then
    let x := codeInt 32 w
    ⟨.fin false 0 0, x, x = 2147483647 ∨ x = -2147483648, false⟩
  else ⟨v32 w, 0, false, false⟩

/-- A bank entry as stored (R80). -/
def cellWord (int : Bool) (c : BankCell) : Nat := if int then intCode 32 c.i else c32 c.v

def cellBad (int : Bool) (c : BankCell) : Bool := if int then c.sat else !c.v.isFin

/-! ### One tile -/

/-- The value of an operand at row or column x and local K index, +0 out of extent (R66). DESIGN CHOICE: rows or columns of the output
beyond the extent of a smaller operand noun take +0 operands too, and their outputs are written. -/
def operandAt (s : State) (r : RNoun) (core kDim x kk : Nat) : Val × Bool :=
  if x < dimExt r.n (1 - kDim) ∧ kk < dimExt r.n kDim then readElem s r core (if kDim = 0 then [kk, x] else [x, kk])
  else (.fin false 0 0, false)

/-- The initial value of an entry (R76) and whether it read poisoned. DESIGN CHOICE: entries beyond the extent of an initial-value
noun that is smaller than the output start from +0. -/
def initCell (s : State) (r : RNoun) (core : Nat) (int : Bool) (row col : Nat) : BankCell × Bool :=
  if col < dimExt r.n 0 ∧ row < dimExt r.n 1 then
    let (v, bad) := readElem s r core [col, row]
    if int then
      let (i, sat, nf) := toIntSat 32 v
      (⟨.fin false 0 0, i, sat, nf⟩, bad)
    else (⟨r32 v, 0, false, false⟩, bad)
  else (BankCell.zero, false)

/-- One bank entry of a tile after the segment, from its start value and its rows of operands. -/
def runCell (kind : MatKind) (o : MmaOps) (int : Bool) (start : BankCell) (row col : List Val) : BankCell :=
  match kind with
  | .plain =>
    if int then intSteps o.k1 (row.zip col) o.k0 0 start
    else { start with v := floatSteps o.k1 (row.zip col) o.k0 (.fin false 0 0) start.v }
  | _ =>
    let lo := (kSpan kind o).1
    { start with v := (List.range (o.k1 - o.k0)).foldl (fun bank n =>
        let st := o.k0 + n
        let kk := st % o.kTotal - lo
        splitStep (lget (0, 0) (splitPasses kind) (st / o.kTotal)) (lget .nan row kk) (lget .nan col kk) bank) start.v }

/-- Row statistics over the in-extent columns in rising order (R84, R86). -/
def rowStats (mode : StatMode) (alpha : Val) (xs : List Val) : Val × Val :=
  let m := match xs with
    | [] => .fin false 0 0
    | x :: r => r.foldl Val.max x
  let sum (l : List Val) : Val := match l with
    | [] => .fin false 0 0
    | x :: r => r.foldl (fun a b => r32 (a.add b)) x
  match mode with
  | .exp =>
    if xs.any (·.isNan) then (.nan, .nan)
    else if xs.any (· = .inf false) then (.inf false, .nan)
    else if m = .inf true then (m, .fin false 0 0)
    else (m, sum (xs.map fun x => r32 (Val.exp2 (alpha.mul (x.sub m)))))
  | _ => (m, sum xs)

/-- An `exp_rel` output (R85, R86). -/
def expRelOf (alpha m x : Val) : Val :=
  if m.isNan then .nan
  else if m = .inf true then .fin false 0 0
  else Val.exp2 (alpha.mul (x.sub m))

/-- What a core's part did so far: state, statuses of its tiles. -/
abbrev PartRun := State × List Status

/-- The K-steps' operands of one row or column: its elements, or zeros where the core does not select it (R66). -/
def operandLine (s : State) (r : RNoun) (core kDim : Nat) (ks : List Nat) (on : Bool) (x : Nat) : List (Val × Bool) :=
  ks.map fun kk => if on then operandAt s r core kDim x kk else (.fin false 0 0, false)

/-- One output tile: computed, then drained or spilled. `n` is the tile's number among the core's tiles. What the spec leaves open
is settled so. DESIGN CHOICE (R66): a spill record holds, at positions outside the core's selection, what zero operands make of the
start value, and a poisoned initial value there is not looked at. DESIGN CHOICE (R79): a verb with a spill target that reaches the
contraction's end writes a final record, no output and no statistics; a verb without one that ends early drains its sums. DESIGN
CHOICE (R80): a record that ends at a pass boundary names the next pass with `k_done` 0, and one that ends the contraction the last
pass with `k_done` = `k_total`. DESIGN CHOICE (R84): statistics entries lie 8 bytes apart whatever format their noun names.
DEDUCED (R76, R112): an entry that came from a NaN counts as non-finite where its value leaves the bank, at a spill too, since the
record cannot keep the mark. DESIGN CHOICE (R40, R84, R85): a raw output of an integer accumulation under mode `exp` converts the
INT32 entry to the output's format once, not by way of the FP32 value that its statistics use. -/
def runTile (kind : MatKind) (o : MmaOps) (k i : Nat) (e : VEntry) (rows cols : List Nat) (tm tn n : Nat) (x : PartRun) : PartRun :=
  let s := x.1
  let core := 20 * k + i
  let p := conPart s k
  let a := lgetN e.nouns 0
  let b := lgetN e.nouns 1
  let out := lgetN e.nouns 2
  let ini := lgetN e.nouns 3
  let sta := lgetN e.nouns 4
  let int := a.n.format = 5
  let (lo, hi) := kSpan kind o
  let ks := List.range (hi - lo + 1)
  let rs := rows.filter (· / 64 = tm)
  let cs := cols.filter (· / 48 = tn)
  -- a spill writes the whole bank, a drain the selection
  let allR := if o.spill.isSome then (List.range 64).map (64 * tm + ·) else rs
  let allC := if o.spill.isSome then (List.range 48).map (48 * tn + ·) else cs
  let as := allR.map fun r => operandLine s a core o.aKDim ks (rs.contains r) r
  let bs := allC.map fun c => operandLine s b core o.bKDim ks (cs.contains c) c
  let rec? := o.resume.map fun ra => recordAddr s ra core i o.recPerCore n
  let recRead := rec?.map fun ra => loadBytes s ra 12320
  let recBad := (recRead.map (·.2)).getD false
  let inSel (r c : Nat) : Bool := rs.contains r && cs.contains c
  let start (r c : Nat) : BankCell × Bool :=
    match recRead with
    | some (bytes, bad) => (if bad then BankCell.zero else recCell bytes int (r % 64) (c % 48), false)
    | none => if o.init ≠ 0 then
        let (v, bad) := initCell s ini core int r c
        (v, bad && inSel r c)
      else (BankCell.zero, false)
  let starts := allR.map fun r => allC.map fun c => start r c
  let cells : List (List BankCell) := (starts.zip as).map fun (sr, ar) =>
    (sr.zip bs).map fun (st, bc) => runCell kind o int st.1 (ar.map (·.1)) (bc.map (·.1))
  let grid : List (Nat × Nat) := allR.flatMap fun r => allC.map fun c => (r, c)
  let parity := o.parity.any fun q => q.1 = i ∧ q.2 = n
  let poisoned := parity || recBad || as.any (·.any (·.2)) || bs.any (·.any (·.2)) || starts.any (·.any (·.2))
  let s := bump s kArrayParityErrors (if parity then 1 else 0) p
  -- INT32 entries of the selection that saturated in this run (R73, R76)
  let newSat := if poisoned then 0 else
    ((grid.zip (starts.flatten.zip cells.flatten)).filter fun q =>
      inSel q.1.1 q.1.2 && q.2.2.sat && !(q.2.1.1.sat && o.init = 0)).length
  let s := bump s kIntSaturations newSat p
  let outIdx := rs.flatMap fun r => cs.map fun c => [c, r]
  let maskOk (idx : List Nat) : Bool := inMask (idxBanks out true [idx]) e.wmask
  let statOff (r : Nat) : Nat := sta.n.base + 8 * tn + r * strideOf sta.n 1
  let statOk (r : Nat) : Bool := sta.n.tier ≠ 0 || inMask (bankSpan 0 (statOff r) 8) e.wmask
  if poisoned then
    -- R96, R515: the whole tile and its statistics are written poisoned, no record
    let (s, _) := writeElems s .array k core out ((outIdx.filter maskOk).map fun idx => (idx, none))
    let s := if o.statMode = .none then s else
      (rs.filter statOk).foldl (fun s r => (storePoison s (tierAddr sta.n.tier core (statOff r)) 8 p).1) s
    (s, x.2 ++ [.poisoned])
  else
    match o.spill with
    | some sa =>
      let all := cells.flatten
      let nans := ((grid.zip all).filter fun q => inSel q.1.1 q.1.2 && q.2.nf && !q.2.sat).length
      let s := countTally s .array { Tally.zero with nonfin := nans } p
      let data := all.flatMap fun c => leBytes 4 (cellWord int c)
      let fin := o.k1 = stepCount kind o.kTotal
      let (pass, done) : Nat × Nat := match kind with
        | .plain => (0, o.k1)
        | _ => if fin then ((o.k1 - 1) / o.kTotal, o.kTotal) else (o.k1 / o.kTotal, o.k1 % o.kTotal)
      let hdr := recHeader o.jobTag done o.kTotal tm tn (if all.any (cellBad int) then 0x0C else 0) pass (splitCode kind) int fin
      let (s, st) := storeBytes s (recordAddr s sa core i o.recPerCore n) (recBytes hdr data) p
      (bump s kSpillRecordsWritten 1 p, x.2 ++ [st])
    | none =>
      let alpha := v32 (scalVal k i e.loopIx o.alpha)
      let rowsX := (rs.zip cells).map fun (r, cl) => (r, cl.map fun c => if int then r32 (ofInt c.i) else c.v)
      let stats := rowsX.map fun (r, xs) => (r, rowStats o.statMode alpha xs)
      let es : List ((List Nat × Val) × Bool) := ((rowsX.zip stats).zip cells).flatMap fun ((rx, st), cl) =>
        ((cs.zip rx.2).zip cl).map fun ((c, xv), cell) =>
          let v := if o.statMode = .exp ∧ o.outForm = .expRel then expRelOf alpha st.2.1 xv
            else if int then ofInt cell.i else xv
          (([c, rx.1], v), decide int && (cell.sat || cell.nf))
      let es := es.filter fun q => maskOk q.1.1
      -- INT32 entries saturated or initialised from a NaN or an infinity count as non-finite, each once (R74, R112)
      let extra := (es.filter fun q => q.2 && !countsNonfin s out core q.1.1 q.1.2).length
      let (s, st) := writeElems s .array k core out (es.map fun q => (q.1.1, some q.1.2))
      let s := countTally s .array { Tally.zero with nonfin := extra } p
      let s := if o.statMode = .none then s else
        (stats.filter fun q => statOk q.1).foldl (fun s (r, m, l) =>
          (storeBytes s (tierAddr sta.n.tier core (statOff r)) (leBytes 4 (c32 m) ++ leBytes 4 (c32 l)) p).1) s
      let inside := (es.length = outIdx.length) && (o.statMode = .none || rs.all statOk)
      (s, x.2 ++ [st] ++ (if inside then [] else [.denied]))

/-- The tiles of a core in order: (tm, tn). -/
def coreTiles (rows cols : List Nat) : List (Nat × Nat) :=
  let tms := (rows.map (· / 64)).eraseDups
  let tns := (cols.map (· / 48)).eraseDups
  tms.flatMap fun tm => tns.map fun tn => (tm, tn)

/-- Whether a core's records lie where records may, and their domains serve them: wholly inside the core's own scratch (R21) in
banks that the mask names (R151), or in the partition's near-tier allotment, a refusal counted (R83, R199, R496). -/
def recordsOk (s : State) (p : Nat) (a : Option Nat) (core i recPerCore n mask : Nat) : State × Bool :=
  match a with
  | none => (s, true)
  | some a => upto n (fun j (x : State × Bool) =>
      let r := recordAddr s a core i recPerCore j
      match region s r with
      | .scratch c off => (x.1, x.2 && decide (c = core ∧ off + 12320 ≤ 0x20_0000) &&
          bitOf mask (off / 0x2_0000) && bitOf mask ((off + 12319) / 0x2_0000))
      | .near =>
        let (s, ok) := touch x.1 r 12320
        if allotted s p r 12320 true then (s, x.2 && ok) else (countDenied s (some p), false)
      | _ => (countDenied x.1 (some p), false)) (s, true)

/-- The rows and columns of the output that a core selects. DESIGN CHOICE (R66): a noun of rank above 2 takes part with index 0 of
every dimension from 2 up, so a core whose split of such a dimension does not select 0 works on nothing. -/
def outSel (n : Noun) (i : Nat) : List Nat × List Nat :=
  if 2 ≤ n.splitDim ∧ !coreSelects n i 0 then ([], []) else (dimSel n i 1, dimSel n i 0)

/-- The tiles whose resume record must be rejected on a core (R81): one that the core may read (R151, R199), read and not poisoned,
and not as the verb needs it. -/
def badRecords (kind : MatKind) (o : MmaOps) (k i : Nat) (e : VEntry) (s : State) : Nat :=
  let (rows, cols) := outSel (lgetN e.nouns 2).n i
  let int := (lgetN e.nouns 0).n.format = 5
  let tiles := coreTiles rows cols
  match o.resume with
  | none => 0
  | some ra =>
    let may := (recordsOk s ((conPart s k).getD 40) o.resume (20 * k + i) i o.recPerCore tiles.length e.rmask).2
    -- what this verb's finding makes unreadable is not judged
    let s := { s with mem := { s.mem with unread := e.ecc.bad.filter fun l => lineTier l ≠ 1 } }
    (tiles.zipIdx.filter fun q =>
      let (bytes, bad) := loadBytes s (recordAddr s ra (20 * k + i) i o.recPerCore q.2) 12320
      may && !bad && recRejected bytes kind o q.1.1 q.1.2 int).length

/-- How many resume records the verb must reject: any ends the whole verb malformed before anything is written (R81). -/
def matrixReject (kind : MatKind) (o : MmaOps) (k : Nat) (e : VEntry) (s : State) : Nat :=
  ((List.range 20).map fun i => badRecords kind o k i e s).foldl (· + ·) 0

/-- The elements of A, B and the initial value that a core reads: each noun with their indices. -/
def matrixReads (o : MmaOps) (kind : MatKind) (e : VEntry) (rows cols : List Nat) : List (RNoun × List (List Nat)) :=
  let (lo, hi) := kSpan kind o
  let ks := List.range (hi - lo + 1)
  let grid (r : RNoun) (kDim : Nat) (xs : List Nat) : List (List Nat) :=
    (xs.filter (· < dimExt r.n (1 - kDim))).flatMap fun x => ks.map fun kk => if kDim = 0 then [kk, x] else [x, kk]
  let (a, b, ini) := (lgetN e.nouns 0, lgetN e.nouns 1, lgetN e.nouns 3)
  [(a, grid a o.aKDim rows), (b, grid b o.bKDim cols)] ++
    (if o.init = 0 then [] else
      [(ini, (rows.filter (· < dimExt ini.n 1)).flatMap fun r => (cols.filter (· < dimExt ini.n 0)).map fun c => [c, r])])

/-- The ranges that a core's part reads: elements with their blocks and scale entries, and its resume records. -/
def matrixRanges (kind : MatKind) (o : MmaOps) (k i : Nat) (e : VEntry) (s : State) : List (Nat × Nat) :=
  let core := 20 * k + i
  let (rows, cols) := outSel (lgetN e.nouns 2).n i
  ((matrixReads o kind e rows cols).flatMap fun x => x.2.flatMap fun idx => runRanges x.1 core [idx] false) ++
    (match o.resume with
      | some ra => (List.range (coreTiles rows cols).length).map fun n => (recordAddr s ra core i o.recPerCore n, 12320)
      | none => [])

/-- Cycles in which the array waited for a scratch bank that the drain, porters or vector threads held (R93): which, time decides. -/
def bankWaits (s : State) (p : Option Nat) : State := bumpFree s kArrayBankWaits p

/-- A core's part of a matrix verb: its status and the state after it. -/
def matrixPart (kind : MatKind) (o : MmaOps) (k i : Nat) (e : VEntry) (s : State) : State × Status :=
  let out := lgetN e.nouns 2
  let core := 20 * k + i
  let (rows, cols) := outSel out.n i
  if rows = [] ∨ cols = [] then (s, .ok)
  else
    let p := (conPart s k).getD 40
    let tiles := coreTiles rows cols
    let readsOk := (matrixReads o kind e rows cols).all fun x => inMask (idxBanks x.1 false x.2) e.rmask
    -- the grant may have changed since the broadcast (R199, R216)
    let mine := ((matrixReads o kind e rows cols).map fun x => x.1).all fun r => r.handle = 0 || nounInside s p r false
    let s := if mine then s else countDenied s (conPart s k)
    let (s, wst) := nounWritable s p out
    let (s, wst) := if wst = .ok ∧ o.statMode ≠ .none then nounWritable s p (lgetN e.nouns 4) else (s, wst)
    let (s, near) := touchNouns s e.nouns
    let (s, sp) := recordsOk s p o.spill core i o.recPerCore tiles.length e.wmask
    let (s, re) := recordsOk s p o.resume core i o.recPerCore tiles.length e.rmask
    if !readsOk || !mine || !near || !sp || !re then (s, .denied)
    else if wst ≠ .ok then (s, wst)
    else
      let (s, sts) := tiles.zipIdx.foldl (fun x q => runTile kind o k i e rows cols q.1.1 q.1.2 q.2 x) (s, [])
      (bankWaits (bumpFree (bumpFree s kArrayBusyCycles (conPart s k)) kArrayDrainWaits (conPart s k)) (conPart s k),
        lowestStatus sts)

end Sys2Proof.Machine
end

