-- ==== Sys2Proof/Machine/Vector.lean ====
section
/-! DEFINITION. The vector unit of one core (R21, R92, R160 to R162): thread groups, registers, predicates, group
barriers. All groups go through the kernel together, one instruction at a time; the spec orders accesses of one verb by barriers only. -/

namespace Sys2Proof.Machine

/-- What a register's word spells, as the counts of R112 need it. -/
inductive RegKind
  | bits | fp32 | bf16
  deriving DecidableEq, Repr

/-- A register: its word, whether it is marked poisoned (R515), and whether a floating operation left its result there. -/
structure Reg where
  w : Nat
  bad : Bool
  kind : RegKind
  deriving DecidableEq, Repr

/-- What a register holds when its thread begins. -/
def Reg.zero : Reg := ⟨0, false, .bits⟩

/-- One thread: its registers. -/
abbrev Thread := List Reg

/-- A vrun part while it runs: the state, each group's threads, groups whose later stores are poisoned, whether an access
was refused by the masks (R151) or lay beyond the scratch (R21), whether poison was met. -/
structure VRun where
  s : State
  threads : List Thread
  badGroups : List Nat
  denied : Bool
  beyond : Bool
  poisoned : Bool
  deriving DecidableEq, Repr

/-- A floating result of a register operation, rounded by R41. DEDUCED (R92, R112): what is not finite counts once, where the
element leaves the unit (`loadElem` and the operations only mark the register) or is converted to another format (`cvtTo`). -/
def fres (v : Val) : Nat := (encodeVal fmtFp32 v).code

/-- A BF16 result. DESIGN CHOICE (R92): a BF16 operand is a register's low half, an operation gives one result a lane, and the upper
half of its register reads zero. -/
def bres (v : Val) : Nat := (encodeVal fmtBf16 v).code

def vb (w : Nat) : Val := decodeVal fmtBf16 (w % 2 ^ 16)
def bool32 (b : Bool) : Nat := if b then 1 else 0
def plain (n : Nat) : Nat := n % 2 ^ 32

/-- The code of an FP32 value in an unscaled format, and the FP32 word of such a code (Table 8 of 03, R40, R47). -/
def cvtCode (fmt w : Nat) : Nat := (encodeElem fmt (v32 w)).code
def cvtWord (fmt w : Nat) : Nat := c32 (decodeElem fmt (w % 256 ^ elemBytes fmt))

/-- What an operation leaves in its register, for the counts of R112. -/
def resultKind : VOp → RegKind
  | .fadd _ _ _ => .fp32 | .fmul _ _ _ => .fp32 | .ffma _ _ _ _ => .fp32 | .fmin _ _ _ => .fp32 | .fmax _ _ _ => .fp32
  | .exp2 _ _ => .fp32 | .log2 _ _ => .fp32 | .rcp _ _ => .fp32 | .rsqrt _ _ => .fp32 | .cvtFrom _ _ _ => .fp32
  | .bfadd _ _ _ => .bf16 | .bfmul _ _ _ => .bf16 | .bffma _ _ _ _ => .bf16
  | _ => .bits

/-- What a conversion into a format counts (R47, R112). -/
def cvtTally (fmt w : Nat) : Tally :=
  let en := encodeElem fmt (v32 w)
  { Tally.zero with nonfin := if en.nonfin then 1 else 0, zeroed := if en.zeroed then 1 else 0 }

/-- What a register's store as a word counts: a floating result that is not finite (R112). -/
def storeTally (r : Reg) : Tally :=
  let fine := match r.kind with
    | .bits => true
    | .fp32 => (v32 r.w).isFin
    | .bf16 => (vb r.w).isFin
  { Tally.zero with nonfin := if fine then 0 else 1 }

/-- Register-to-register results; none for loads, stores and barriers. -/
def aluResult (op : VOp) (g : Nat → Nat) (t grp lane k core : Nat) (ix : List Nat) (sc : Nat → Nat) : Option (Nat × List Nat × Nat) :=
  match op with
  | .movImm d v => some (d, [], plain v.toNat)
  | .movThread d => some (d, [], plain t)
  | .movGroup d => some (d, [], plain grp)
  | .movLane d => some (d, [], plain lane)
  | .movScalar d i => some (d, [], plain (sc i))
  | .movCore d => some (d, [], plain core)
  | .movConsist d => some (d, [], plain k)
  | .movLoop d l => some (d, [], plain (lget 0 ix l))
  | .cvtTo d a f => some (d, [a], plain (cvtCode f (g a)))
  | .cvtFrom d a f => some (d, [a], plain (cvtWord f (g a)))
  | .fadd d a b => some (d, [a, b], fres ((v32 (g a)).add (v32 (g b))))
  | .fmul d a b => some (d, [a, b], fres ((v32 (g a)).mul (v32 (g b))))
  | .ffma d a b c => some (d, [a, b, c], fres (((v32 (g a)).mul (v32 (g b))).add (v32 (g c))))
  | .fmin d a b => some (d, [a, b], fres ((v32 (g a)).min (v32 (g b))))
  | .fmax d a b => some (d, [a, b], fres ((v32 (g a)).max (v32 (g b))))
  | .fcmpLt d a b => some (d, [a, b], bool32 ((v32 (g a)).lt (v32 (g b))))
  | .fcmpLe d a b => some (d, [a, b], bool32 ((v32 (g a)).lt (v32 (g b)) || (v32 (g a)).eqv (v32 (g b))))
  | .fcmpEq d a b => some (d, [a, b], bool32 ((v32 (g a)).eqv (v32 (g b))))
  | .bfadd d a b => some (d, [a, b], bres ((vb (g a)).add (vb (g b))))
  | .bfmul d a b => some (d, [a, b], bres ((vb (g a)).mul (vb (g b))))
  | .bffma d a b c => some (d, [a, b, c], bres (((vb (g a)).mul (vb (g b))).add (vb (g c))))
  | .exp2 d a => some (d, [a], fres (v32 (g a)).exp2)
  | .log2 d a => some (d, [a], fres (v32 (g a)).log2)
  | .rcp d a => some (d, [a], fres (v32 (g a)).rcp)
  | .rsqrt d a => some (d, [a], fres (v32 (g a)).rsqrt)
  | .iadd d a b => some (d, [a, b], plain (g a + g b))
  | .iand d a b => some (d, [a, b], plain (g a &&& g b))
  | .ior d a b => some (d, [a, b], plain (g a ||| g b))
  | .ixor d a b => some (d, [a, b], plain (g a ^^^ g b))
  | .ishl d a b => some (d, [a, b], plain (if g b < 32 then g a * 2 ^ (g b) else 0))
  | .ishr d a b => some (d, [a, b], plain (if g b < 32 then g a / 2 ^ (g b) else 0))
  | _ => none

/-- A multi-index of a noun from a linear element number (dimension 0 fastest). -/
def unflatten (n : Noun) (x : Nat) : List Nat :=
  let e0 := dimExt n 0; let e1 := dimExt n 1; let e2 := dimExt n 2; let e3 := dimExt n 3
  [x % e0, x / e0 % e1, x / e0 / e1 % e2, x / e0 / e1 / e2 % e3, x / e0 / e1 / e2 / e3]

def elemCount (n : Noun) : Nat := dimExt n 0 * dimExt n 1 * dimExt n 2 * dimExt n 3 * dimExt n 4

/-- One instruction of one thread (R161, R515). A predicate that does not hold makes no access and changes no register. DESIGN CHOICE
(R57, R101): each thread's element is a write of its own into a block-scaled noun, so a block's fresh scale, its offsets and its
counts follow the elements one by one. DESIGN CHOICE (R21): a `load` or `store` is 4 bytes wide at any alignment, so offsets 0x1F_FFFD
to 0x1F_FFFF, from which it would leave the scratch, count as beyond it. -/
def threadStep (k i regs : Nat) (e : VEntry) (sc : Nat → Nat) (ins : VInstr) (t : Nat) (x : VRun) : VRun :=
  let grp := t / 64
  let core := 20 * k + i
  let th := lget [] x.threads t
  let reg (r : Nat) : Reg := if r < regs then lget Reg.zero th r else Reg.zero
  let p := conPart x.s k
  let on : Bool := match ins.pred with
    | none => true
    | some r => (reg r).w ≠ 0
  let x := match ins.pred with
    | some r => if (reg r).bad then { x with badGroups := setAdd x.badGroups grp, poisoned := true } else x
    | none => x
  if !on then x
  else
    let put (x : VRun) (d : Nat) (v : Reg) : VRun :=
      if d < regs then { x with threads := lset x.threads t (lset th d v) } else { x with denied := true }
    let mark := x.badGroups.contains grp
    match ins.op with
    | .gbar => x
    | .load d a =>
      let o := (reg a).w
      if 0x1F_FFFC < o then { x with beyond := true }
      else if !inMask (bankSpan 0 o 4) e.rmask then { x with denied := true }
      else
        let (bs, bad) := loadBytes x.s (scratchBase + core * 0x40_0000 + o) 4
        put { x with poisoned := x.poisoned || bad } d ⟨leNat bs, bad || (reg a).bad, .bits⟩
    | .store a v =>
      let o := (reg a).w
      if 0x1F_FFFC < o then { x with beyond := true }
      else if !inMask (bankSpan 0 o 4) e.wmask then { x with denied := true }
      else
        let ad := scratchBase + core * 0x40_0000 + o
        if mark || (reg v).bad || (reg a).bad then { x with s := (storePoison x.s ad 4 none).1, poisoned := true }
        else { x with s := countTally (storeBytes x.s ad (leBytes 4 (reg v).w) none).1 .vector (storeTally (reg v)) p }
    | .loadElem d n ix =>
      let r := lgetN e.nouns n
      let idx := unflatten r.n (reg ix).w
      if elemCount r.n ≤ (reg ix).w ∨ r.n.tier ≠ 0 ∨ !inMask (idxBanks r false [idx]) e.rmask then { x with denied := true }
      else
        let (v, bad) := readElem x.s r core idx
        put { x with poisoned := x.poisoned || bad } d ⟨c32 v, bad || (reg ix).bad, .fp32⟩
    | .storeElem n ix v =>
      let r := lgetN e.nouns n
      let idx := unflatten r.n (reg ix).w
      if elemCount r.n ≤ (reg ix).w ∨ r.n.tier ≠ 0 ∨ !inMask (idxBanks r true [idx]) e.wmask then { x with denied := true }
      else
        let bad := mark || (reg v).bad || (reg ix).bad
        let (s, st) := writeElems x.s .vector k core r [(idx, if bad then none else some (v32 (reg v).w))]
        { x with s := s, poisoned := x.poisoned || bad || st = .poisoned }
    | op =>
      match aluResult op (fun r => (reg r).w) t grp (t % 64) k i e.loopIx sc with
      | none => x
      | some (d, srcs, w) =>
        let bad := srcs.any fun r => (reg r).bad
        let x := match op, bad with
          | .cvtTo _ a f, false => { x with s := countTally x.s .vector (cvtTally f (reg a).w) p }
          | _, _ => x
        put x d ⟨w, bad, resultKind op⟩

/-- One instruction by every thread: a `gbar` needs nothing more, since no group runs ahead of another. -/
def vectorStep (k i regs nt : Nat) (e : VEntry) (sc : Nat → Nat) (x : VRun) (ins : VInstr) : VRun :=
  upto nt (threadStep k i regs e sc ins) x

/-- A `vrun`'s kernel. -/
def kernelOf (s : State) (k : Nat) (o : VrunOps) : List VInstr := match (con s k).prog with
  | some pr => lget [] pr.kernels o.kernel
  | none => []

/-- The threads of a core's part of a `vrun`, run to their end (R160, R162). -/
def vectorRun (o : VrunOps) (k i : Nat) (e : VEntry) (s : State) : VRun :=
  let nt := 64 * o.groups
  let sc (j : Nat) : Nat := scalVal k i e.loopIx (lget (.imm 0) o.scalars j)
  (kernelOf s k o).foldl (vectorStep k i o.regs nt e sc)
    ⟨s, List.replicate nt (List.replicate o.regs Reg.zero), [], false, false, false⟩

/-- The nouns of a kernel's list that it stores to. -/
def kernelOuts (code : List VInstr) : List Nat :=
  (code.filterMap fun i => match i.op with
    | .storeElem n _ _ => some n
    | _ => none).eraseDups

/-- Whether a kernel forms scratch offsets in registers. -/
def formsOffsets (code : List VInstr) : Bool := code.any fun i => match i.op with
  | .load _ _ => true
  | .store _ _ => true
  | _ => false

/-- Whether a core selects nothing of a noun (R136). -/
def selectsNone (n : Noun) (i : Nat) : Bool := (List.range n.rank).any fun d => dimSel n i d = []

/-- Whether a core has no work in a `vrun`: its kernel stores to nouns, and the core selects nothing of any of them (R136). -/
def vectorIdle (o : VrunOps) (k i : Nat) (e : VEntry) (s : State) : Bool :=
  let outs := kernelOuts (kernelOf s k o)
  outs ≠ [] && outs.all fun n => selectsNone (lgetN e.nouns n).n i

/-- A core's part of a `vrun` (R160, R162), and whether one of its threads formed an offset beyond the scratch (R21). -/
def vectorPart (o : VrunOps) (k i : Nat) (e : VEntry) (s : State) : State × Status × Bool :=
  if vectorIdle o k i e s then (s, .ok, false)
  else
    let x := vectorRun o k i e s
    (x.s, (if x.poisoned then .poisoned else if x.denied then .denied else .ok), x.beyond)

/-- A `vrun`'s own checks (R160, R162): entry in the image, group and register counts in range. -/
def vrunCheck (s : State) (k : Nat) (o : VrunOps) (ns : List RNoun) : Status :=
  match (con s k).prog with
  | none => .malformed
  | some pr =>
    if pr.kernels.length ≤ o.kernel ∨ o.groups = 0 ∨ 32 < o.groups ∨ o.regs = 0 ∨ 64 < o.regs ∨ 8 < o.nouns.length ∨
      4 < o.scalars.length then .malformed
    else if ns.any fun r => r.handle ≠ 0 ∧ r.n.tier ≠ 0 then .denied else .ok

end Sys2Proof.Machine
end

