-- ==== Sys2Proof/Machine/Issue.lean ====
section
/-! DEFINITION. The scoreboard's conditions (R148, R149): which broadcast verbs of a consist may issue on a core, and which are
held by awaited tokens alone (R191). -/

namespace Sys2Proof.Machine

/-- Whether tick a is at or after tick b, by the shorter way round the 2^48 numbers (R167). -/
def tickAfter (a b : Nat) : Bool := decide ((a + 2 ^ 48 - b % 2 ^ 48) % 2 ^ 48 < 2 ^ 47)

/-- The later of two ticks (R179). -/
def tickMax (a b : Nat) : Nat := if tickAfter a b then a % 2 ^ 48 else b % 2 ^ 48

/-- Nanoseconds from the epoch to a module time, all modulo 2^64 (R167); none where module time is earlier. DEDUCED: earlier is what
the shorter way round the 2^64 numbers says, of an epoch that has been written: one that a change of period has rebased only makes the
formula continue (R169). -/
def sinceEpoch (s : State) (mt : Nat) : Option Nat :=
  let d := (mt + 2 ^ 64 - odN s kTickEpoch % 2 ^ 64) % 2 ^ 64
  if s.time.rebased ∨ d < 2 ^ 63 then some d else none

/-- Class code of a verb (Table 1 of 05). -/
def verbClass : Verb → Nat
  | .matrix _ _ => 1
  | .vector _ => 2
  | .stream _ => 3
  | .atomicAdd _ => 3
  | .post _ => 4
  | .wait => 4
  | .signalArrive _ _ => 4
  | .semReset _ _ => 4
  | .scaleAdjust _ _ => 5
  | .scaleApply _ => 5
  | _ => 6

/-- All 20 cores of a consist. -/
def allCores : Nat := 2 ^ 20 - 1

/-- Verbs in flight on a core. -/
def inFlightOn (c : Consist) (core : Nat) : List VEntry := c.verbs.filter fun e => bitOf e.issued core && lget none e.parts core = none

def isStream (v : Verb) : Bool := verbClass v = 3

/-- Every earlier verb of the same queue has issued on this core. -/
def queueOrder (c : Consist) (core : Nat) (e : VEntry) : Bool :=
  (c.verbs.takeWhile fun f => f.vi ≠ e.vi).all fun f => f.queue ≠ e.queue || bitOf f.issued core

/-- The conditions of Table 7 besides the awaited tokens. -/
def otherReady (c : Consist) (core : Nat) (e : VEntry) : Bool :=
  let fl := inFlightOn c core
  queueOrder c core e &&
  (fl.all fun f => f.wmask &&& e.rmask = 0 && (f.rmask ||| f.wmask) &&& e.wmask = 0) &&
  (!isStream e.verb || decide ((fl.filter fun f => isStream f.verb).length < 8)) &&
  -- the matrix unit and the vector unit take one verb each
  (!(e.cls = 1 || e.cls = 2) || fl.all fun f => f.cls ≠ e.cls) &&
  decide (fl.length < 64) &&
  e.nouns.all fun r => !(isBlockFmt r.n.format && (match tget none c.nouns r.handle with
    | some x => x.walk
    | none => false))

/-- Whether a verb may issue on a core now. A verb that met an error token does not run: it needs its place in the queue
alone. -/
def canIssue (c : Consist) (core : Nat) (e : VEntry) : Bool :=
  !bitOf e.issued core && e.judged && (if e.origin ≠ none then queueOrder c core e else otherReady c core e)

/-- Whether awaited tokens alone hold a verb on some core (R191). -/
def heldByTokens (c : Consist) (e : VEntry) : Bool :=
  !e.judged && (List.range 20).any fun core => !bitOf e.issued core && otherReady c core e

/-- Notes for each verb the tick in which its wait began (R191). -/
def markWaits (k : Nat) (s : State) : State :=
  modCon s k fun c => { c with verbs := c.verbs.map fun e =>
    if (heldByTokens c e) then { e with since := some (e.since.getD (tickNow s)) } else { e with since := none } }

/-- A reset of a semaphore's slot: verbs that it makes wait again are dated at once (R187, R191). -/
def semReset (s : State) (i : Nat) (v : Sem) : State :=
  ((s.consists.filter fun x => x.2.verbs.any fun e => e.waits.any fun w => w.1 = i).map fun x => x.1).foldl (fun s k => markWaits k s)
    (semSet s i v)

/-- The verbs of a consist that will still end: those of one that does not run end only if every core has issued them (R124,
R193). -/
def openVerbs (c : Consist) : List VEntry :=
  if c.pstate = .running then c.verbs else c.verbs.filter fun e => e.issued = allCores && e.parts.any (· = none)

/-- Entries of a queue that some core has not issued (R126). -/
def queueUsed (c : Consist) (q : Nat) : Nat := (c.verbs.filter fun e => e.queue = q ∧ e.issued ≠ allCores).length

/-- The tier of a noun as the error counters tell tiers apart. -/
def nounTier (r : RNoun) : Nat := if r.n.tier = 2 then 0 else if r.n.tier = 3 then 1 else 2

/-- Whether the step of the consist's partition is held or in doubt: no verb of the next step issues then (R120, R291). -/
def stepLocked (s : State) (k : Nat) : Bool :=
  match conPart s k with
  | some p => odN s (kStepState p) = 2 || odN s (kStepState p) = 3
  | none => false

end Sys2Proof.Machine
end

