-- ==== Sys2Proof/Machine/Depot.lean ====
section
/-! DEFINITION. The depot (09): blocks read and written whole, poison per block, free space per channel, the translation
layer's background work, preserved granules. -/

namespace Sys2Proof.Machine

def depotBlock : Nat := 65536

/-- The flash channel of a block (R251). -/
def depotChannel (b : Nat) : Nat := b % 16

/-- Blocks that `len` bytes from block b touch. -/
def depotSpan (b len : Nat) : List Nat := (List.range (ceilDiv len depotBlock)).map (· + b)

/-- Whether a partition may name the blocks (R249, R250). -/
def depotAllowed (s : State) (p b len : Nat) : Bool :=
  (depotSpan b len).all fun x => decide (x < odN s kDepotLogicalBlocks) && bitOf (grantOf s p).depot (x / 65536)

/-- Raw blocks of one channel. -/
def channelRaw (s : State) : Nat := odN s kDepotRawBytes / 65536 / 16

/-- Erased blocks of a channel: raw less mapped and stale ones and the new copies of relocations (R258, R259). -/
def channelFree (s : State) (c : Nat) : Nat :=
  channelRaw s - (s.depot.mapped.filter fun b => depotChannel b = c).length - tget 0 s.depot.stale c -
    (s.depot.shadow.filter fun x => depotChannel x.1 = c).length

/-- Whether foreground writes to a channel wait (R258). -/
def channelLow (s : State) (c : Nat) : Bool := channelFree s c * 100 < channelRaw s

/-- One byte of the depot. -/
def depotByte (d : DepotSt) (a : Nat) : Byte :=
  match d.cells.find? (·.1 = a) with
  | some c => c.2
  | none => 0

def depotBytes (d : DepotSt) (a : Nat) : Nat → List Byte
  | 0 => []
  | n + 1 => depotByte d a :: depotBytes d (a + 1) n

def depotCellsWrite (c : List Host.Cell) (a : Nat) : List Byte → List Host.Cell
  | [] => c
  | b :: bs => depotCellsWrite (tset 0 c a b) (a + 1) bs

/-- The erase block that a draw gives a block: its own channel's (R251). -/
def erasePlace (b n : Nat) : Nat := 16 * Config.erasePlace n + depotChannel b

/-- The erase block that holds a block (R260). -/
def eraseOf (d : DepotSt) (b : Nat) : Nat := tget 0 d.place b

/-- A read of `len` bytes from block b (R253, R255, R261, R262): the bytes, and the blocks delivered poisoned. Of the finding,
`e.bad` are the numbers of the blocks that neither the error correction nor the parity can repair, `e.parity` those that the
parity rebuilds, which are noted for relocation. -/
def depotReadBytes (s : State) (b len : Nat) (e : Ecc) (pt : Option Nat) : State × List Byte × List Nat :=
  let bl := depotSpan b len
  let hit := bl.filter fun x => s.depot.mapped.contains x
  let lost := hit.filter fun x => e.bad.contains x
  let rebuilt := hit.filter fun x => e.parity.contains x && !lost.contains x
  let s := bump (bump s kDepotBlocksRead bl.length pt) kDepotUnmappedReads (bl.length - hit.length) pt
  let s := bump (bump s kDepotRebuilt rebuilt.length pt) kDepotUncorrectable lost.length pt
  let d := { s.depot with
    poison := lost.foldl setAdd s.depot.poison
    due := rebuilt.foldl setAdd s.depot.due
    reads := hit.foldl (fun t x => tmod 0 t (eraseOf s.depot x) (· + 1)) s.depot.reads }
  ({ s with depot := d }, depotBytes d (b * depotBlock) len, bl.filter fun x => d.poison.contains x)

/-- The blocks that a 128 MiB write buffer holds once a block has been acknowledged (R267): the oldest of the same I/O die has
been programmed where 2,048 are held. -/
def bufferAdd (l : List Nat) (b : Nat) : List Nat :=
  let die (x : Nat) : Nat := depotChannel x / 8
  let l := l.filter (· ≠ b)
  let l := if 2048 ≤ (l.filter fun x => die x = die b).length then
      match l.find? fun x => die x = die b with
      | some x => l.erase x
      | none => l
    else l
  l ++ [b]

/-- What a block write leaves of the block's old copy and of a relocation under way, and where the new copy lies (R258 to R260): `n`
draws the place. -/
def placeWrite (d : DepotSt) (now n b : Nat) : DepotSt :=
  let c := depotChannel b
  let old := (if d.mapped.contains b then 1 else 0) + (if d.shadow.any (·.1 = b) then 1 else 0)
  let e := erasePlace b n
  { d with
    stale := tmod 0 d.stale c (· + old)
    mapped := setAdd d.mapped b
    shadow := tdel d.shadow b
    due := setDel d.due b
    reads := tdel d.reads e
    place := tins d.place b e
    written := tset 0 d.written b now
    buffer := bufferAdd d.buffer b }

/-- A write from block b (R253, R254, R262, R263): `bads` are the ranges of its bytes that are poisoned. A last block that is
written in part is read first, and `e` says what that read finds. Answers capacity where the depot is read-only. -/
def depotWriteBytes (s : State) (b : Nat) (bs : List Byte) (bads : List (Nat × Nat)) (e : Ecc) (pt : Option Nat) : State × Status :=
  if odN s kDepotReadOnly = 1 then (s, .capacity)
  else
    let bl := depotSpan b bs.length
    let partial' := bs.length % depotBlock ≠ 0
    let last := b + bl.length - 1
    let full (x : Nat) : Bool := !(partial' && x = last)
    let merged : Bool := partial' && s.depot.mapped.contains last
    let lost : Bool := merged && e.bad.contains last
    let s := bump (bump s kDepotBlocksWritten bl.length pt) kDepotPartialWrites (if partial' then 1 else 0) pt
    let s := bump (bump s kDepotUncorrectable (if lost then 1 else 0) pt) kDepotRebuilt (if merged && !lost && e.parity.contains last then 1 else 0) pt
    -- the merge reads the old copy's erase block (R260)
    let old := if merged then { s.depot with reads := tmod 0 s.depot.reads (eraseOf s.depot last) (· + 1) } else s.depot
    let bad (x : Nat) : Bool := (lost && x = last) || bads.any fun r => overlaps r.1 r.2 ((x - b) * depotBlock) depotBlock
    let d := bl.zipIdx.foldl (fun d x => placeWrite d s.now (s.free + x.2) x.1) old
    let d := { d with
      cells := depotCellsWrite d.cells (b * depotBlock) bs
      poison := bl.foldl (fun l x => if bad x then setAdd l x else if full x then setDel l x else l) d.poison }
    let s := { s with depot := d, free := s.free + bl.length }
    let w := odN s kDepotHostBytesWritten + bs.length
    (odSet (odSet s kDepotHostBytesWritten w) kDepotWearPct (min 100 (w * 100 / odN s kDepotEnduranceBytes)), .ok)

/-- The write buffers are programmed to flash: when the input power fails, at start-up, and before the depot enters a low-power
state (R267). -/
def depotProgrammed (s : State) : State := { s with depot := { s.depot with buffer := [] } }

/-- Discards a granule's blocks and marks (R265). -/
def depotDiscard (s : State) (q : Nat) : State :=
  let inn (b : Nat) : Bool := b / 65536 = q
  let d := s.depot
  let gone := d.mapped.filter inn ++ ((d.shadow.filter fun x => inn x.1).map fun x => x.1)
  { s with depot := { d with
      cells := d.cells.filter fun c => !inn (c.1 / depotBlock)
      stale := gone.foldl (fun t x => tmod 0 t (depotChannel x) (· + 1)) d.stale
      mapped := d.mapped.filter fun b => !inn b
      poison := d.poison.filter fun b => !inn b
      written := d.written.filter fun x => !inn x.1
      place := d.place.filter fun x => !inn x.1
      shadow := d.shadow.filter fun x => !inn x.1
      due := d.due.filter fun b => !inn b
      buffer := d.buffer.filter fun b => !inn b } }

/-- Whether a foreground read of the channel is queued: a block in a porter slot or pending that reads it, or a DEPOT_READ
manifest that has been fetched and has not run. -/
def channelReadQueued (s : State) (c : Nat) : Bool :=
  let on (b len : Nat) : Bool := (depotSpan b len).any fun y => depotChannel y = c
  let reads (b : Block) : Bool := match b.body with
    | .raw (.depot x) _ len _ _ => on x len
    | _ => false
  let word (bs : List Byte) (a : Nat) : Nat := leNat ((bs.drop a).take 4)
  (s.pools.any fun x => x.2.pending.any reads || x.2.flight.any fun f => reads f.block) ||
    (s.queues.any fun x => x.2.started.any fun m =>
      m.parts = none && leNat ((m.bytes.drop 62).take 1) = 0x08 && on (word m.bytes 4) (word m.bytes 8 * depotBlock))

/-- At a tick boundary the relocations whose copies are complete are committed: each old copy becomes stale (R259), and the data
counts as written now (R260). -/
def depotSwap (s : State) : State :=
  let ready := s.depot.shadow.filter fun x => decide (x.2.2 ≤ s.now)
  let d := ready.foldl (fun (d : DepotSt) x => { d with
    place := tins d.place x.1 x.2.1
    stale := tmod 0 d.stale (depotChannel x.1) (· + 1)
    reads := tdel d.reads x.2.1
    written := tset 0 d.written x.1 s.now }) s.depot
  { s with depot := { d with shadow := s.depot.shadow.filter fun x => decide (s.now < x.2.2) } }

/-- A relocation begins: its new copy takes an erased block of the channel, and is complete at a time (R259). -/
def relocate (until' : Nat) (s : State) (b : Nat) : State :=
  if !s.depot.mapped.contains b ∨ s.depot.shadow.any (·.1 = b) ∨ channelFree s (depotChannel b) = 0 then s
  else { s with depot := { s.depot with shadow := tins s.depot.shadow b (erasePlace b s.free, until'), due := setDel s.depot.due b },
                free := s.free + 1 }

def bgChannel : DepotBg → Nat
  | .collect c => c | .erase c => c | .exhaust c => c | .relocate b => depotChannel b | .level b => depotChannel b

/-- The effect of a background operation that ends at a time: collection and erasure free stale blocks, a relocation enters the
shadow copy, and the last spare block of a channel found worn out makes the depot read-only (R263). -/
def bgEffect (until' : Nat) (s : State) : DepotBg → State
  | .collect c => { s with depot := { s.depot with stale := tdel s.depot.stale c } }
  | .erase c => { s with depot := { s.depot with stale := tdel s.depot.stale c } }
  | .exhaust _ => odSet s kDepotReadOnly 1
  | .relocate b => relocate until' s b
  | .level b => relocate until' s b

/-- Background time, in nanoseconds, already booked on a channel in a window. -/
def bgUsed (s : State) (c w : Nat) : Nat :=
  match (tget [] s.depot.window c).find? (·.1 = w) with
  | some x => x.2
  | none => 0

/-- The nanoseconds that work of `us` µs begun now takes of each 1 ms window that it runs through. -/
def bgShares (s : State) (us : Nat) : List (Nat × Nat) :=
  (List.range (us / 1000 + 2)).map fun j =>
    let w := s.now / 1_000_000 + j
    (w, min (s.now + 1000 * us) ((w + 1) * 1_000_000) - max s.now (w * 1_000_000))

/-- The shares of work that take time. -/
def bgTakes (s : State) (us : Nat) : List (Nat × Nat) := (bgShares s us).filter fun x => x.2 ≠ 0

/-- Whether work of `us` µs keeps to the limit in every window that it runs through. -/
def bgFits (s : State) (c us : Nat) : Bool := !(bgTakes s us).any fun x => decide (odN s kDepotBgLimitPct * 10_000 < bgUsed s c x.1 + x.2)

/-- What a channel's windows, past ones apart, have booked once the work has begun. -/
def bgBooked (s : State) (c us : Nat) : List (Nat × Nat) :=
  ((tget [] s.depot.window c).filter fun x => decide (s.now / 1_000_000 ≤ x.1) && !(bgTakes s us).any fun y => y.1 = x.1) ++
    (bgTakes s us).map fun x => (x.1, bgUsed s c x.1 + x.2)

/-- Background work of `us` µs on a channel (R257): while a foreground read is queued there, background work takes at most 20 % of
each 1 ms window that it runs through, and the work is put off where it would take more. DESIGN CHOICE: the windows are the whole
milliseconds of the commands' time, and work once begun runs to its end. -/
def background (c us : Nat) (f : State → State) (s : State) : State :=
  if channelReadQueued s c ∧ !bgFits s c us then s
  else
    let booked := bgBooked s c us
    let s := f s
    bump { s with depot := { s.depot with window := tset [] s.depot.window c booked } } kDepotBgBusyUs us none

/-- A background operation (R257, R259). -/
def depotBackground (s : State) (op : DepotBg) (us t : Nat) : State :=
  let s := atTime s t
  background (bgChannel op) us (fun s => bgEffect (s.now + 1000 * us) s op) s

/-- A refresh, whose time no command carries: a free number of µs (R257, R260). -/
def refresh (c : Nat) (f : Nat → State → State) (s : State) : State :=
  let us := Config.freeCount kDepotBgBusyUs s.free
  background c us (f (s.now + 1000 * us)) { s with free := s.free + 1 }

/-- DEPOT_BACKGROUND_OP (R257). -/
def execDepotBackgroundOp (op : DepotBg) (us t : Nat) (s : State) : Host.Outcome State Fault Refusal :=
  guardWf (decide (bgChannel op < 16)) (depotBackground s op us t)

/-- DEPOT_DISTURB_REFRESH (R260): the erase block that holds a block has been read 100,000 times; its valid blocks are
relocated. -/
def execDepotDisturbRefresh (block : Nat) (s : State) : Host.Outcome State Fault Refusal :=
  guardWf (decide (block < 2 ^ 32))
    (let e := eraseOf s.depot block
     if block < odN s kDepotLogicalBlocks ∧ s.depot.mapped.contains block ∧ 100_000 ≤ tget 0 s.depot.reads e then
       refresh (depotChannel block) (fun until' s =>
         let s := (s.depot.mapped.filter fun b => eraseOf s.depot b = e).foldl (relocate until') s
         bump { s with depot := { s.depot with reads := tdel s.depot.reads e } } kDepotDisturbRefreshes 1 none) s
     else s)

/-- DEPOT_AGE_REFRESH (R260): data older than 90 days is relocated. -/
def execDepotAgeRefresh (block : Nat) (s : State) : Host.Outcome State Fault Refusal :=
  guardWf (decide (block < 2 ^ 32))
    (if block < odN s kDepotLogicalBlocks ∧ s.depot.mapped.contains block ∧ tget 0 s.depot.written block + 90 * 86_400_000_000_000 < s.now then
      refresh (depotChannel block) (fun until' s => relocate until' s block) s
    else s)

/-- DEPOT_WRITE_RESUME (R258): collection has freed room on the channel, the blocks in porter slots that wait for it go on. -/
def execDepotWriteResume (channel : Nat) (s : State) : Host.Outcome State Fault Refusal :=
  guardWf (decide (channel < 16))
    (if channelLow s channel then s
    else
      let go := s.depot.waiting.filter fun w => w.1 = channel
      let s := { s with depot := { s.depot with waiting := s.depot.waiting.filter fun w => w.1 ≠ channel } }
      go.foldl (fun s w =>
        let q := pool s w.2.1
        setPool s w.2.1 { q with flight := q.flight.map fun f => if f.id = w.2.2 then { f with waits := false } else f }) s)

end Sys2Proof.Machine
end

