-- ==== Sys2Proof/Machine/Stream.lean ====
section
/-! DEFINITION. Streams and porters (08): blocks of a stream verb, their dispatch and completion, multicast and uncoupling,
atomic add. -/

namespace Sys2Proof.Machine

/-! ### Checks at broadcast (R227 to R229, R238, R244) -/

def listRegionOk (s : State) (a : Nat) : Bool :=
  match region s a with
  | .staging _ _ => true
  | .near => true
  | _ => false

/-- A stream verb's own checks; `ns` are source and destination. -/
def streamCheck (s : State) (p : Nat) (atomic : Bool) (o : StreamOps) (ns : List RNoun) : Status :=
  let src := (lgetN ns 0).n
  let dst := (lgetN ns 1).n
  let isStaging (a : Nat) : Bool := match region s a with
    | .staging _ _ => true
    | _ => false
  let malformed :=
    o.form > 1 || o.cls > 1 || o.receivers ≥ 2 ^ 40 ||
    (if o.form = 0 then
      o.src = 0 || o.dst = 0 || src.rank ≠ dst.rank || ((List.range src.rank).any fun d => ext src d ≠ ext dst d) ||
      (atomic && 2 < dst.format) || (o.receivers ≠ 0 && (1 < dst.tier || atomic))
    else
      o.listAddr % 32 ≠ 0 || o.listCount = 0 || 65535 < o.listCount || o.listGrain = 0 || 65535 < o.listGrain ||
      (o.resultMap ≠ 0 && !isStaging o.resultMap))
  let denied :=
    ((bitList 40 o.receivers).any fun c => !bitOf (grantOf s p).consists c || !conOn s c) ||
    (if o.form = 0 then atomic && dst.tier < 2
    else !listRegionOk s o.listAddr || !allotted s p o.listAddr (32 * o.listCount) false ||
      (o.resultMap ≠ 0 && !allotted s p o.resultMap (ceilDiv o.listCount 8) true))
  -- nouns are checked in the stages of R134; a list's checks have no order, so the lowest status decides (R514)
  if o.form = 1 ∧ denied then .denied else if malformed then .malformed else if denied then .denied else .ok

/-! ### Blocks of a core's part -/

/-- Where an element stands: its address, or its block's, and its place in the block. -/
def elemPos (r : RNoun) (core : Nat) (idx : List Nat) : Nat × Nat :=
  (elemAddr r core idx, if isBlockFmt r.n.format then lget 0 idx 0 % 32 else 0)

/-- Where the element that follows an element in memory would stand: the next of its row, or the first after the row (R228). -/
def nextPos (r : RNoun) (core : Nat) (idx : List Nat) : Nat × Nat :=
  if lget 0 idx 0 + 1 < ext r.n 0 then elemPos r core (lset idx 0 (lget 0 idx 0 + 1))
  else (tierAddr r.n.tier core (r.n.base + rowOff r.n idx) + nounSpan r.n 0, 0)

/-- Cuts a selection into runs contiguous in both nouns (R228). -/
def cutRuns (src dst : RNoun) (core : Nat) : List (List Nat) → List (List (List Nat))
  | [] => []
  | i :: t =>
    match cutRuns src dst core t with
    | [] => [[i]]
    | g :: r =>
      match g with
      | [] => [i] :: r
      | j :: g' =>
        if nextPos src core i = elemPos src core j ∧ nextPos dst core i = elemPos dst core j then (i :: j :: g') :: r
        else [i] :: (j :: g') :: r

/-- Bytes that a run of elements takes in a noun: whole element blocks where it is block-scaled. -/
def runBytes (r : RNoun) (core : Nat) (g : List (List Nat)) : Nat :=
  if g = [] then 0 else elemAddr r core (g.getLast?.getD []) + writeSize r.n.format - elemAddr r core (lget [] g 0)

/-- Cuts a run into blocks of at most 64 KiB of destination bytes; a block-scaled destination is cut where element blocks begin
(R228). -/
def cutRun (dst : RNoun) (core : Nat) (g : List (List Nat)) : List (List (List Nat)) :=
  let full := 65536 / writeSize dst.n.format * writeSize dst.n.format
  (List.range (ceilDiv (runBytes dst core g) full)).map fun n =>
    g.filter fun i => (elemAddr dst core i - elemAddr dst core (lget [] g 0)) / full = n

/-- A unicast block as it is handed to the porters: with no arrival and no refusal. -/
def newBlock (k vi core n entry : Nat) (body : BlockBody) (back : Bool) (cast : List Nat) : Block :=
  { consist := k, vi := vi, core := core, order := n, entry := entry, body := body, back := back, cast := cast, arrive := none,
    refetch := none, sched := k, bad := .ok, stale := false }

/-- Noun-form blocks of core i. -/
def nounBlocksOf (o : StreamOps) (k vi i : Nat) (src dst : RNoun) (atomic : Bool) : List Block :=
  let core := 20 * k + i
  let gs := (cutRuns src dst core (coreIdx dst.n i)).flatMap (cutRun dst core)
  gs.zipIdx.map fun (g, n) => newBlock k vi i n n (.elems src dst g atomic) (o.cls = 1) (bitList 40 o.receivers)

/-- A block descriptor (Table 2 of 08). -/
structure BlockDesc where
  src : Nat
  dst : Nat
  length : Nat
  srcKind : Nat
  dstKind : Nat
  op : Nat
  addType : Nat
  res : Nat
  arriveSem : Nat
  arrive : Bool
  deriving DecidableEq, Repr

def parseDesc (bs : List Byte) : BlockDesc :=
  let v := leNat bs
  { src := bits v 208 48, dst := bits v 160 48, length := bits v 136 24, srcKind := bits v 134 2, dstKind := bits v 132 2,
    op := bits v 128 4, addType := bits v 124 4, res := bits v 96 28 + bits v 0 79, arriveSem := bits v 80 16,
    arrive := bits v 79 1 = 1 }

def addSize (t : Nat) : Nat := if t = 1 ∨ t = 2 then 2 else 4

/-- Whether an address is one that the depot can be the other end of (R252). -/
def devTier (s : State) (a : Nat) : Bool :=
  match region s a with
  | .near => true
  | .far => true
  | .staging _ _ => true
  | _ => false

/-- Whether a multicast offset lies in range (R231). -/
def castInRange (d : BlockDesc) : Bool :=
  if d.dstKind = 2 then decide (d.dst + d.length ≤ 0x02FA_0000) else if d.dstKind = 3 then decide (d.dst + d.length ≤ 0x20_0000) else true

/-- Whether a descriptor is malformed (R231, R252). -/
def descMalformed (s : State) (d : BlockDesc) (receivers : Nat) : Bool :=
  d.res ≠ 0 || d.length = 0 || 1 < d.srcKind || 1 < d.op || 3 < d.addType || (d.op = 0 && d.addType ≠ 0) ||
  (d.op = 1 && (d.srcKind = 1 || d.dstKind ≠ 0 || d.src % addSize d.addType ≠ 0 || d.dst % addSize d.addType ≠ 0 ||
    d.length % addSize d.addType ≠ 0)) ||
  (1 < d.dstKind && receivers = 0) || !castInRange d ||
  (d.srcKind = 1 && !(d.dstKind = 0 && devTier s d.dst || d.dstKind = 2)) || (d.dstKind = 1 && !(d.srcKind = 0 && devTier s d.src))

/-- Device address of a multicast offset in a die's staging buffer, and in a core's scratch (R238). -/
def castStagingAddr (die o : Nat) : Nat := stagingBase + die * 0x1000_0000 + o
def castScratchAddr (core o : Nat) : Nat := scratchBase + core * 0x40_0000 + o

/-- Whether a receiver's bytes of a multicast lie in the partition's allotment: a receiver is a consist, or 64 + a die (R238). -/
def castAllowed (s : State) (p r o len : Nat) : Bool :=
  if r < 64 then bitOf (grantOf s p).consists r else allotted s p (castStagingAddr (r - 64) o) len true

/-- Whether a device byte that a descriptor names lies outside the partition's allotment or a porter's reach (R199, Table 2 of
07); `receivers` are those of the verb. A multicast offset out of range names no byte. -/
def descOutside (s : State) (p : Nat) (d : BlockDesc) (receivers : List Nat) : Bool :=
  (d.srcKind = 0 && !allotted s p d.src d.length false) ||
  (d.dstKind = 0 && (!allotted s p d.dst d.length true || (d.op = 1 && !(isFar d.dst || d.dst < nearEnd)))) ||
  (d.dstKind = 2 && castInRange d && receivers.any fun k => !castAllowed s p (64 + conDie k) d.dst d.length) ||
  (d.dstKind = 3 && receivers.any fun k => !castAllowed s p k d.dst d.length)

/-- Whether a descriptor is rejected as denied (R231): a byte out of reach, or an arrival on what is no signal of the partition. -/
def descDenied (s : State) (p : Nat) (d : BlockDesc) (receivers : List Nat) : Bool :=
  descOutside s p d receivers || (d.srcKind = 1 && !depotAllowed s p d.src d.length) || (d.dstKind = 1 && !depotAllowed s p d.dst d.length) ||
  (d.arrive && ((semGet s d.arriveSem).part ≠ p || (semGet s d.arriveSem).kind ≠ 1))

/-- The blocks of one list entry, in order (R229, R230); of a rejected one a single block that does nothing and delivers no arrival
(R231). -/
def entryBlocks (o : StreamOps) (k vi i entry first : Nat) (d : BlockDesc) (bad : Status) : List Block :=
  let n := if bad = .ok then ceilDiv d.length 65536 else 1
  (List.range n).map fun j =>
    let off := 65536 * j
    let se : Endpoint := if d.srcKind = 1 then .depot (d.src + j) else .dev (d.src + off)
    let de : Endpoint := match d.dstKind with
      | 0 => .dev (d.dst + off) | 1 => .depot (d.dst + j) | 2 => .castStaging (d.dst + off) | _ => .castScratch (d.dst + off)
    { consist := k, vi := vi, core := i, order := first + j, entry := entry,
      body := .raw se de (min 65536 (d.length - off)) (d.op = 1) d.addType, back := o.cls = 1,
      cast := if 2 ≤ d.dstKind ∧ bad = .ok then bitList 40 o.receivers else [],
      arrive := if d.arrive ∧ bad = .ok then some d.arriveSem else none, refetch := none, sched := k, bad := bad, stale := false }

/-- List entries of core i: the block division of R136 over the list. -/
def listEntries (o : StreamOps) (i : Nat) : List Nat :=
  let w := ceilDiv o.listCount (20 * o.listGrain) * o.listGrain
  (List.range o.listCount).filter fun x => decide (i * w ≤ x ∧ x < (i + 1) * w)

/-- A list entry and its check as the core hands it over (R231): one read from a poisoned line is not acted on, and none of its
contents is checked; of the statuses that apply otherwise the lowest decides (R514). -/
def entryCheck (s : State) (p : Nat) (o : StreamOps) (x : Nat) : BlockDesc × Status :=
  let (bs, bad) := loadBytes s (o.listAddr + 32 * x) 32
  let d := parseDesc bs
  (d, if bad then .poisoned else if descDenied s p d (bitList 40 o.receivers) then .denied else if descMalformed s d o.receivers then .malformed
    else .ok)

/-- The ranges of the list that core i reads. -/
def listRanges (o : StreamOps) (i : Nat) : List (Nat × Nat) :=
  if o.form = 1 then (listEntries o i).map fun x => (o.listAddr + 32 * x, 32) else []

/-- List-form blocks of core i. -/
def listBlocksOf (s : State) (p : Nat) (o : StreamOps) (k vi i : Nat) : List Block :=
  (listEntries o i).foldl (fun acc x =>
    let (d, st) := entryCheck s p o x
    acc ++ entryBlocks o k vi i x acc.length d st) []

/-! ### The pools -/

/-- Puts a part's blocks behind the blocks already pending. -/
def submit (s : State) (die : Nat) (bs : List Block) : State :=
  let q := pool s die
  setPool s die { q with pending := q.pending ++ bs }

/-- The receivers of a multicast block: the dies of its consists for staging, the consists for scratch; none for unicast, which a
refetch is (R238, R241). -/
def castReceivers (b : Block) : List Nat :=
  let dies := (b.cast.map fun k => 64 + conDie k).eraseDups
  if b.refetch ≠ none then []
  else match b.body with
  | .raw _ (.castStaging _) _ _ _ => dies
  | .raw _ (.castScratch _) _ _ _ => b.cast
  | .elems _ d _ _ => if d.n.tier = 1 then dies else b.cast
  | _ => []

def findVerb (s : State) (k vi : Nat) : Option VEntry := (con s k).verbs.find? (·.vi = vi)

def modVerb (s : State) (k vi : Nat) (f : VEntry → VEntry) : State :=
  modCon s k fun c => { c with verbs := c.verbs.map fun e => if e.vi = vi then f e else e }

/-- Writes the result bits of a core whose part has ended (R247): those whose granule has been withdrawn are not written. -/
def resultBits (s : State) (k i : Nat) (o : StreamOps) (bad : List Nat) : State × Status :=
  if o.form = 0 ∨ o.resultMap = 0 then (s, .ok)
  else
    (listEntries o i).foldl (fun (x : State × Status) n =>
      let a := o.resultMap + n / 8
      let mine : Bool := match conPart x.1 k with
        | some p => allotAt x.1 p a true
        | none => false
      if !mine then (x.1, .denied)
      else
        let v := memNat x.1 a 1
        (poke x.1 a (leBytes 1 (if bad.contains n then bitClr v (n % 8) else bitSet v (n % 8))), x.2)) (s, .ok)

/-- Notes the end of a core's part in its verb; a verb that it leaves held by its tokens alone begins to wait (R191). -/
def endPart (s : State) (k vi i : Nat) (st : Status) : State :=
  markWaits k (modVerb s k vi fun e => { e with parts := lset e.parts i (some st) })

/-- Producer code of the porter that carries a block (Table 4 of 05); which of the 32 it is, no rule says. -/
def porterCode (b : Block) : Nat := 0x80 + Config.porterOf b.consist b.vi b.core b.order % 32

/-- What the counters make of a block that has ended with a status: `bytes` are those that it has written somewhere. A refetch
completes when its writes do, poisoned or not (R234, R241); a block left to refetches alone has moved nothing (R248). -/
def countBlock (s : State) (b : Block) (st : Status) (bytes : Nat) : State :=
  let p := conPart s b.consist
  let s := if !partFine st then bump s kBlocksFailed 1 p else if bytes = 0 then s else bump (bump s kBlocksMoved 1 p) kBytesMoved bytes p
  if b.refetch ≠ none ∧ bytes ≠ 0 ∧ (partFine st ∨ st = .poisoned) then bump s kRefetchBlocks 1 p else s

/-- One block of a verb has ended with a status (R236, R246, R247). A block left over from a program that its consist no longer runs
is no part of a verb. -/
def blockEnded (s : State) (b : Block) (st : Status) (bytes : Nat) : State :=
  let p := conPart s b.consist
  let s := countBlock s b st bytes
  let s := match b.arrive, p with
    | some sem, some p => (arrivePost s p sem 1 (stCode st) (porterCode b)).1
    | _, _ => s
  if b.stale then s
  else
  let s := modVerb s b.consist b.vi fun e =>
    { e with streams := e.streams.zipIdx.map fun (sp, i) =>
        if i = b.core then
          { sp with left := sp.left - 1
                    uncoupled := sp.uncoupled || b.refetch ≠ none
                    badEntries := if partFine st then sp.badEntries else setAdd sp.badEntries b.entry
                    fail := if partFine st then sp.fail else match sp.fail with
                      | some (n, x) => if b.order < n then some (b.order, st) else some (n, x)
                      | none => some (b.order, st) }
        else sp }
  match findVerb s b.consist b.vi with
  | none => s
  | some e =>
    let sp := lget ⟨0, none, false, []⟩ e.streams b.core
    if sp.left ≠ 0 then s
    else
      let o : StreamOps := match e.verb with
        | .stream o => o
        | .atomicAdd o => o
        | _ => ⟨0, 0, 0, 0, 0, 1, 0, 0, 0⟩
      let (s, rst) := resultBits s b.consist b.core o sp.badEntries
      let st := match sp.fail with
        | some (_, x) => x
        | none => if rst ≠ .ok then rst else if sp.uncoupled then .uncoupled else .ok
      endPart s b.consist b.vi b.core st

/-- Scratch banks of the core's own that a range of a block touches, and those of every receiver core of a multicast to scratch. -/
def endBanks (s : State) (e : Endpoint) (len : Nat) : Nat :=
  match e with
  | .dev a => match region s a with
    | .scratch _ o => bankSpan 0 o len
    | _ => 0
  | .castScratch o => bankSpan 0 o len
  | _ => 0

/-- A block that touches a bank outside the verb's masks is not performed (R151). -/
def maskBlock (s : State) (e : VEntry) (b : Block) : Block :=
  let ok : Bool := match b.body with
    | .raw src dst len _ _ => inMask (endBanks s src len) e.rmask && inMask (endBanks s dst len) e.wmask
    | .elems src dst idxs _ => inMask (idxBanks src false idxs) e.rmask && inMask (idxBanks dst true idxs) e.wmask
  if b.bad ≠ .ok ∨ ok then b else { b with bad := .denied, arrive := none }

/-- A receiver's refetch of a block, which the porters of its own die make as a foreground block of a receiving consist (R233,
R241). -/
def refetchOf (r : Nat) (b : Block) : Block :=
  let sched := if r < 64 then r else (b.cast.find? fun k => 64 + conDie k = r).getD (5 * (r - 64))
  { b with refetch := some r, sched := sched, back := false }

/-- The die whose porters serve a receiver. -/
def receiverDie (r : Nat) : Nat := if r < 64 then conDie r else r - 64

/-- Hands a part's refetches of some blocks to the porters of a receiver's die. -/
def refetch (s : State) (k vi r : Nat) (bs : List Block) : State :=
  let s := modVerb s k vi fun e => { e with streams := e.streams.zipIdx.map fun (sp, i) =>
    { sp with left := sp.left + (bs.filter fun b => b.core = i).length } }
  submit s (receiverDie r) (bs.map (refetchOf r))

/-- The receivers of a stream's blocks are coupled, but for those it has uncoupled or dropped (R238). -/
def couple (s : State) (k vi : Nat) (rs : List Nat) : State :=
  if rs = [] then s
  else if s.casts.any fun c => c.consist = k ∧ c.vi = vi then
    { s with casts := s.casts.map fun c => if c.consist = k ∧ c.vi = vi then
        { c with coupled := (c.coupled ++ rs.filter fun r => !c.uncoupled.contains r && !c.dropped.any (·.1 = r)).eraseDups } else c }
  else { s with casts := s.casts ++ [⟨k, vi, rs, [], [], []⟩] }

/-- The stream of a verb's multicast blocks. -/
def castOf (s : State) (k vi : Nat) : CastStream := (s.casts.find? fun c => c.consist = k ∧ c.vi = vi).getD ⟨k, vi, [], [], [], []⟩

/-- A core's part of a stream verb: its blocks go to the die's porters, and those of a receiver that has been uncoupled to the
porters of the receiver's die too; the first of these delivers a block's arrival (R132, R227, R241). -/
def streamPart (atomic : Bool) (o : StreamOps) (k i : Nat) (e : VEntry) (s : State) : State × Option Status :=
  let p := (conPart s k).getD 40
  let bs := if o.form = 0 then nounBlocksOf o k e.vi i (lgetN e.nouns 0) (lgetN e.nouns 1) atomic else listBlocksOf s p o k e.vi i
  -- an entry turned away for its ranges is a refused access (R199)
  let s := if o.form = 0 then s else bump s kAccessDenied ((listEntries o i).filter fun x =>
    (entryCheck s p o x).2 = .denied && descOutside s p (entryCheck s p o x).1 (bitList 40 o.receivers)).length (some p)
  let bs := bs.map (maskBlock s e)
  if bs = [] then
    let (s, st) := resultBits s k i o []
    (s, some st)
  else
    let s := modVerb s k e.vi fun e => { e with streams := lset e.streams i ⟨bs.length, none, false, []⟩ }
    let s := couple s k e.vi (bs.flatMap castReceivers).eraseDups
    let gone := (castOf s k e.vi).uncoupled
    let late (b : Block) : Bool := gone.any fun r => (castReceivers b).contains r
    let s := gone.foldl (fun s r =>
      let mine := bs.filter fun b => (castReceivers b).contains r && b.bad = .ok
      refetch s k e.vi r (mine.map fun b => if gone.find? (fun x => (castReceivers b).contains x) = some r then b else { b with arrive := none })) s
    (submit s (conDie k) (bs.map fun b => if late b ∧ b.bad = .ok then { b with arrive := none } else b), none)

/-! ### Dispatch (R231, R233 to R235) -/

/-- Multicast blocks of a verb held in porter slots. -/
def castHeld (q : Pool) (k vi : Nat) : List InFlight := q.flight.filter fun f => f.block.consist = k ∧ f.block.vi = vi ∧ !f.block.stale ∧ f.todo ≠ []

/-- Whether a stream is held at 64 blocks (R239). -/
def windowFull (q : Pool) (k vi : Nat) : Bool := 64 ≤ (castHeld q k vi).length

/-- Whether a pending block may be dispatched now: no stream holds more than 64 (R239). -/
def dispatchable (q : Pool) (b : Block) : Bool := castReceivers b = [] || !windowFull q b.consist b.vi

def blockBefore (a b : Block) : Bool :=
  decide (a.vi < b.vi) || (a.vi = b.vi && (decide (a.core < b.core) || (a.core = b.core && decide (a.order < b.order))))

/-- First block of a list in the order verb, core, list (R233). -/
def firstBlock : List Block → Option Block
  | [] => none
  | b :: r => match firstBlock r with
    | some c => some (if blockBefore c b then c else b)
    | none => some b

/-- The block that a consist has next, of one class: the first in its issue order, unless its stream is held (R233, R239). -/
def headOf (q : Pool) (back : Bool) (k : Nat) : Option Block :=
  (firstBlock (q.pending.filter fun b => b.back = back && b.sched = k)).filter (dispatchable q)

/-- The foreground block of the next consist in turn after `last` (R233). -/
def nextForeground (q : Pool) (die : Nat) : Option Block :=
  ((List.range 5).filterMap fun n => headOf q false (5 * die + (q.last % 5 + 1 + n) % 5)).head?

/-- The background block of the consist that has waited longest (R233). -/
def nextBackground (q : Pool) : Option Block :=
  ((((q.pending.filter fun b => b.back).map fun b => b.sched).eraseDups).filterMap (headOf q true)).head?

/-- The block that the pool dispatches next (R233). -/
def chooseBlock (q : Pool) (die : Nat) : Option Block :=
  let bg := nextBackground q
  if 15 ≤ q.backWait ∧ bg ≠ none then bg
  else match nextForeground q die with
    | some b => some b
    | none => if q.pending.any (fun b => !b.back) then none else bg

/-- Removes the first occurrence of a block. -/
def dropBlock (l : List Block) (b : Block) : List Block := l.erase b

/-- Least efficient size of an endpoint (R235). -/
def minSize (s : State) : Endpoint → Nat
  | .depot _ => 65536
  | .dev a => match region s a with
    | .near => 4096
    | .far => 16384
    | _ => 0
  | _ => 0

def tierMin (t : Nat) : Nat := if t = 2 then 4096 else if t = 3 then 16384 else 0

/-- The core whose scratch a block's unicast ends lie in. -/
def blockCore (b : Block) : Nat := 20 * b.consist + b.core

/-- Length of a block in bytes of its destination (R228). -/
def blockLen (b : Block) : Nat :=
  match b.body with
  | .raw _ _ len _ _ => len
  | .elems _ d g _ => runBytes d (blockCore b) g

/-- The smallest efficient size of a block (R235). -/
def leastSize (s : State) : BlockBody → Nat
  | .raw a b _ _ _ => max (minSize s a) (minSize s b)
  | .elems a b _ _ => max (tierMin a.n.tier) (tierMin b.n.tier)

/-- The destination noun of a staging receiver (R238). -/
def rebase (d : RNoun) (die : Nat) : RNoun :=
  let mv (a : Nat) : Nat := stagingBase + die * 0x1000_0000 + (a - stagingBase) % 0x1000_0000
  { d with n := { d.n with base := mv d.n.base, scalePtr := if d.n.scalePtr = 0 then 0 else mv d.n.scalePtr }, map := mv d.map }

/-- The device ranges that a block reads. -/
def srcRanges (b : Block) : List (Nat × Nat) :=
  match b.body with
  | .raw (.dev a) _ len _ _ => [(a, len)]
  | .raw _ _ _ _ _ => []
  | .elems src _ g _ => runRanges src (blockCore b) g false

/-- The device ranges that a block writes where it goes to one place. -/
def dstRanges (b : Block) : List (Nat × Nat) :=
  match b.body with
  | .raw _ (.dev a) len _ _ => [(a, len)]
  | .raw _ _ _ _ _ => []
  | .elems _ dst g _ => runRanges dst (blockCore b) g true

/-- The ranges that a multicast block writes at a receiver: of a die's staging buffer, or of the scratch of each of a consist's
cores. -/
def castRanges (b : Block) (r : Nat) : List (Nat × Nat) :=
  match b.body with
  | .raw _ (.castStaging o) len _ _ => [(castStagingAddr (r - 64) o, len)]
  | .raw _ (.castScratch o) len _ _ => (List.range 20).map fun i => (castScratchAddr (20 * r + i) o, len)
  | .raw _ _ _ _ _ => []
  | .elems _ dst g _ =>
    if r < 64 then (List.range 20).flatMap fun i => runRanges dst (20 * r + i) g true else runRanges (rebase dst (r - 64)) 0 g true

/-- Whether a receiver's part of a block lies in the partition's allotment (R234). -/
def receiverOk (s : State) (p : Nat) (b : Block) (r : Nat) : Bool :=
  if r < 64 then bitOf (grantOf s p).consists r else (castRanges b r).all fun x => allotted s p x.1 x.2 true

/-- The domains that hold a receiver (R490). -/
def receiverDomains (r : Nat) : List Nat := if r < 64 then [0x30 + conDie r, r] else [0x30 + (r - 64)]

/-- A receiver's part of a block is looked at before it is made: it must lie in the allotment, and its domains must serve it (R234,
R496). -/
def receiverReach (s : State) (p : Nat) (b : Block) (r : Nat) : State × Bool :=
  if receiverOk s p b r then touchAll s (receiverDomains r) else (countDenied s (some p), false)

/-- Accesses reach the domains of some ranges (R496). -/
def touchRanges (s : State) (l : List (Nat × Nat)) : State × Bool :=
  l.foldl (fun (x : State × Bool) r =>
    let (s, ok) := touch x.1 r.1 r.2
    (s, x.2 && ok)) (s, true)

/-- The depot blocks that a block reads or writes. -/
def depotEnds (b : Block) : List (Nat × Nat) :=
  match b.body with
  | .raw src dst len _ _ =>
    (match src with
      | .depot x => [(x, len)]
      | _ => []) ++ (match dst with
      | .depot x => [(x, len)]
      | _ => [])
  | _ => []

/-- Whether a block copies the bytes as they stand: of one unscaled format (R228). -/
def plainCopy (src dst : RNoun) (add : Bool) : Bool := !add && src.n.format = dst.n.format && !isBlockFmt src.n.format

/-- What a block's one read brings: the bytes, the ranges of them that are poisoned, the decoded elements, or a refusal. -/
structure BlockRead where
  bytes : List Byte
  bads : List (Nat × Nat)
  vals : List (Option Val)
  status : Status
  deriving DecidableEq, Repr

def BlockRead.fail (st : Status) : BlockRead := ⟨[], [], [], st⟩

/-- Reads bytes of memory through the error correction. -/
def readBytes (s : State) (a n : Nat) (e : Ecc) (p : Option Nat) : State × BlockRead :=
  let (s, lost) := eccRead s a n e p
  (s, ⟨viewBytes s a n, lineRanges a n (fun l => lost.contains l || badAt s.mem (l * 64) || farLost s (l * 64)), [], .ok⟩)

/-- The read itself. -/
def fetchBlock (s : State) (p : Nat) (b : Block) (e : Ecc) : State × BlockRead :=
  match b.body with
  | .raw (.depot x) _ len _ _ =>
    let (s, bs, bad) := depotReadBytes s x len e (some p)
    (s, ⟨bs, bad.map fun y => ((y - x) * depotBlock, depotBlock), [], .ok⟩)
  | .raw (.dev a) _ len _ _ => readBytes s a len e (some p)
  | .raw _ _ _ _ _ => (s, BlockRead.fail .malformed)
  | .elems src dst g add =>
    let a := elemAddr src (blockCore b) (lget [] g 0)
    if plainCopy src dst add then readBytes s a (runBytes src (blockCore b) g) e (some p)
    else
      let (s, lost) := eccLines s a ((srcRanges b).flatMap fun x => linesOf x.1 x.2) e (some p)
      let seen := { s with mem := { s.mem with unread := lost } }
      (s, ⟨[], [], g.map fun ix =>
        match readElem seen src (blockCore b) ix with
        | (v, false) => some v
        | _ => none, .ok⟩)

/-- Whether a block's accesses pass, and its read (R199, R231, R234): the checks of its own ranges, the depot, the domains. -/
def readBlock (s : State) (p : Nat) (b : Block) (e : Ecc) : State × BlockRead :=
  let own (x : Nat × Nat) : Bool := decide (scratchBase + blockCore b * 0x40_0000 ≤ x.1 ∧ x.1 + x.2 ≤ scratchBase + blockCore b * 0x40_0000 + 0x20_0000)
  let arrives : Bool := match b.arrive with
    | some i => (semGet s i).part = p && (semGet s i).kind = 1
    | none => true
  if (srcRanges b).any fun x => !own x && !allotted s p x.1 x.2 false then (countDenied s (some p), BlockRead.fail .denied)
  else
    let (s, st) := if b.cast ≠ [] ∧ b.refetch = none then (s, .ok) else match b.refetch with
      | some r =>
        let (s, ok) := receiverReach s p b r
        (s, if ok then .ok else Status.denied)
      | none => rangesWritable s p ((dstRanges b).filter fun x => !own x)
    if st ≠ .ok then (s, BlockRead.fail st)
    else if !arrives ∨ (depotEnds b).any (fun x => !depotAllowed s p x.1 x.2) then (s, BlockRead.fail .denied)
    else if s.boot.depotOffline ∧ depotEnds b ≠ [] then (s, BlockRead.fail .notReady)
    else
      let (s, up) := touchRanges s (srcRanges b ++ if b.cast = [] then dstRanges b else [])
      let (s, up') := if depotEnds b = [] then (s, true) else touchDepot s
      if !up || !up' then (s, BlockRead.fail .denied) else fetchBlock s p b e

/-- The channel of a block's write to the depot, where it is short of erased blocks and the write must wait for it (R258). A
depot that is read-only makes no write wait (R263). -/
def lowChannel (s : State) (b : Block) : Option Nat :=
  match b.body with
  | .raw _ (.depot x) len _ _ =>
    if odN s kDepotReadOnly = 1 then none else ((depotSpan x len).map depotChannel).find? (channelLow s)
  | _ => none

/-- A block in a slot begins to wait; each write counts once (R258). -/
def blockWait (s : State) (die id channel : Nat) : State :=
  let q := pool s die
  let counted := q.flight.any fun f => f.id = id && f.waited
  let s := setPool s die { q with flight := q.flight.map fun f => if f.id = id then { f with waits := true, waited := true } else f }
  let s := { s with depot := { s.depot with waiting := s.depot.waiting ++ [(channel, die, id)] } }
  bump s kDepotWriteWaits (if counted then 0 else 1) ((q.flight.find? fun f => f.id = id).bind fun f => conPart s f.block.consist)

/-- What a block leaves at a receiver that is dropped from its stream (R242, R246): its lines there are marked poisoned while they are
the partition's, or wait for the scrub that follows their leaving it. A domain that is off holds no lines. -/
def markUnwritten (s : State) (p : Option Nat) (b : Block) (r : Nat) : State :=
  let waiting (a : Nat) : Bool := s.health.leaving.any fun l => !l.running &&
    (if r < 64 then l.tier = 4 && l.no = r else l.tier = 2 && l.no = 768 * (r - 64) + (a - stagingBase) % 0x1000_0000 / 0x1_0000)
  let on := (receiverDomains r).all fun d => domState s d = 0 || domState s d = 1
  let mine (a : Nat) : Bool := on && (waiting a || allotAt s (p.getD 40) a true)
  (castRanges b r).foldl (fun s x => ((linesOf x.1 x.2).filter fun l => mine (l * 64)).foldl (fun s l => (poisonAt s (l * 64) p).1) s) s

/-- Drops a receiver whose write of a block is refused (R242). -/
def dropReceiver (s : State) (b : Block) (r : Nat) : State :=
  { s with casts := s.casts.map fun c => if c.consist = b.consist ∧ c.vi = b.vi then
      { c with coupled := c.coupled.filter (· ≠ r), held := tdel c.held r, dropped := c.dropped ++ [(r, .denied)] } else c }

/-- The receivers that a block goes to, those refused dropped, and the status that the dropped ones leave it; a block that a dropped
receiver never gets leaves its lines there poisoned, like the one that it failed (R242, R246). -/
def chooseReceivers (s : State) (b : Block) : State × List Nat × Status :=
  let p := conPart s b.consist
  let all := castReceivers b
  let c := castOf s b.consist b.vi
  let s := (all.filter fun r => !c.uncoupled.contains r && !c.dropped.any (·.1 = r)).foldl (fun s r =>
    match receiverReach s (p.getD 40) b r with
    | (s, true) => s
    | (s, false) => dropReceiver s b r) s
  let c := castOf s b.consist b.vi
  let s := (all.filter fun r => c.dropped.any (·.1 = r)).foldl (fun s r => markUnwritten s p b r) s
  (s, all.filter fun r => !c.uncoupled.contains r && !c.dropped.any (·.1 = r),
    firstBad (c.dropped.filterMap fun x => if all.contains x.1 then some x.2 else none))

/-- Puts a block that has been read into a slot. -/
def enterSlot (s : State) (die : Nat) (b : Block) (x : BlockRead) (st : Status) (todo : List Nat) (e : Ecc) : State :=
  let q := pool s die
  let id := q.nextId
  let s := setPool s die { q with
    nextId := id + 1
    flight := q.flight ++ [⟨id, b, x.bytes, x.vals, x.bads, st, todo, false, false, false, e⟩] }
  match lowChannel s b with
  | some c => blockWait s die id c
  | none => s

/-- Dispatches one block of a die's pool: checks, one read, a porter slot (R231, R233, R234). -/
def dispatch (s : State) (die : Nat) (e : Ecc) : State :=
  let q := pool s die
  if 256 ≤ q.flight.length then s
  else
    match chooseBlock q die with
    | none => s
    | some b =>
      let p := conPart s b.consist
      let hasBg := (dropBlock q.pending b).any (·.back)
      let q := { q with pending := dropBlock q.pending b, last := if b.back then q.last else b.sched % 5
                        backWait := if b.back || !hasBg then 0 else q.backWait + 1 }
      let s := setPool s die q
      let s := if b.back then bump s kBackgroundDispatches 1 p else s
      if b.bad ≠ .ok then blockEnded s b b.bad 0
      else
        let s := if blockLen b < leastSize s b.body then bump (bump s kSmallBlocks 1 p) kSmallBlockOverheadCycles 96 p else s
        let (s, todo, st) := chooseReceivers s b
        if castReceivers b ≠ [] ∧ todo = [] then blockEnded s b st 0
        else
          let s := if todo = [] then s else bump s kMulticastBlocks 1 p
          match readBlock s (p.getD 40) b e with
          | (s, x) => if x.status ≠ .ok then blockEnded s b x.status 0 else enterSlot s die b x st todo e

/-! ### Completion (R219 to R221, R234, R245, R246) -/

/-- A copy of bytes to a device address: lines that take bytes from a poisoned one land poisoned. Answers the status of the lowest
failing line. -/
def copyBytes (s : State) (a : Nat) (bs : List Byte) (bads : List (Nat × Nat)) (p : Option Nat) : State × Status :=
  storeMixed s a bs (fun l => bads.any fun o => overlaps (a + o.1) o.2 (l * 64) 64) p

/-- One element of an atomic add (R245): the sum's code, a non-finite sum, a saturation. -/
def addElem (ty dst : Nat) (src : Val) (srcCode : Nat) : Nat × Bool × Bool :=
  match ty with
  | 3 =>
    let x := codeInt 32 dst + codeInt 32 srcCode
    if 2147483647 < x then (0x7FFFFFFF, false, true)
    else if x < -2147483648 then (0x80000000, false, true)
    else (intCode 32 x, false, false)
  | t =>
    let f := if t = 0 then fmtFp32 else if t = 1 then fmtBf16 else fmtFp16
    let e := encodeVal f ((decodeVal f dst).add src)
    (e.code, e.nonfin, false)

/-- Adds neighbouring elements of one line, (address, source value and code) of each or none where the source is poisoned: the
controller reads the line, and writes it back once (R244, R245). -/
def addLine (s : State) (ty : Nat) (es : List (Nat × Option (Val × Nat))) (p : Option Nat) : State × Status :=
  let sz := addSize ty
  let a := (lget (0, none) es 0).1
  let s := bump s kAtomicAddLines 1 p
  if es.any (fun e => e.2 = none) || rangeLost s a 1 then
    match storePoison s a 1 p with
    | (s, .ok) => (s, .poisoned)
    | r => r
  else
    let sums := es.filterMap fun e => e.2.map fun v => addElem ty (memNat s e.1 sz) v.1 v.2
    let (s, st) := storeBytes s a (sums.flatMap fun r => leBytes sz r.1) p
    (bump (bump s kAddNonfinite (sums.filter fun r => r.2.1).length p) kAddSaturations (sums.filter fun r => r.2.2).length p, st)

/-- Groups neighbouring elements by destination line. -/
def groupLines : List (Nat × Option (Val × Nat)) → List (List (Nat × Option (Val × Nat)))
  | [] => []
  | e :: t =>
    match groupLines t with
    | [] => [[e]]
    | g :: r => match g with
      | [] => [e] :: r
      | f :: g' => if e.1 / 64 = f.1 / 64 then (e :: f :: g') :: r else [e] :: (f :: g') :: r

/-- Adds elements line by line; `e` is what the controllers' reads of the lines find (R219, R244). -/
def addAll (s : State) (ty : Nat) (es : List (Nat × Option (Val × Nat))) (e : Ecc) (p : Option Nat) : State × Status :=
  underEcc (es.map fun x => (x.1, 1)) e p
    (fun s => (groupLines es).foldl (fun (x : State × Status) g =>
      let (s, st) := addLine x.1 ty g p
      (s, if x.2 ≠ .ok then x.2 else st)) (s, .ok)) s

/-- An atomic add of bytes. -/
def addBytes (s : State) (ty a : Nat) (bs : List Byte) (bads : List (Nat × Nat)) (e : Ecc) (p : Option Nat) : State × Status :=
  let sz := addSize ty
  let f := if ty = 0 then fmtFp32 else if ty = 1 then fmtBf16 else fmtFp16
  let es := (List.range (bs.length / sz)).map fun j =>
    let c := leNat ((bs.drop (sz * j)).take sz)
    (a + sz * j, if bads.any (fun o => overlaps (sz * j) sz o.1 o.2) then none else some (decodeVal f c, c))
  addAll s ty es e p

/-- Writes a block's bytes or elements where one noun, of one core's view, lies. -/
def writeRun (s : State) (f : InFlight) (core : Nat) (src dst : RNoun) (g : List (List Nat)) (add : Bool) : State × Status :=
  let p := conPart s f.block.consist
  if plainCopy src dst add then copyBytes s (elemAddr dst core (lget [] g 0)) f.bytes f.badOffs p
  else if add then addAll s dst.n.format ((g.zip f.vals).map fun e => (elemAddr dst core e.1, e.2.map fun v => (v, 0))) f.ecc p
  else writeElems s .porter f.block.consist core dst (g.zip f.vals)

/-- Does the same at each of a consist's 20 cores (R238); the first status that is not ok stands. -/
def allCoresOf (k : Nat) (f : Nat → State → State × Status) (s : State) : State × Status :=
  upto 20 (fun i (x : State × Status) =>
    let (s, st) := f (20 * k + i) x.1
    (s, if x.2 ≠ .ok then x.2 else st)) (s, .ok)

/-- Writes a block at one place: unicast (none) or one receiver. A write that passed its check at dispatch is made (R216), but for
one that meets a range locked since (R281). -/
def writeAt (s : State) (f : InFlight) (recv : Option Nat) : State × Status :=
  let b := f.block
  let p := conPart s b.consist
  let (s, st) := if recv = none then rangesLocked s (p.getD 40) (dstRanges b) else (s, .ok)
  if st ≠ .ok then (s, st)
  else match b.body, recv with
  | .raw _ (.dev a) _ add ty, _ => if add then addBytes s ty a f.bytes f.badOffs f.ecc p else copyBytes s a f.bytes f.badOffs p
  | .raw _ (.depot x) _ _ _, _ =>
    match depotWriteBytes s x f.bytes f.badOffs f.ecc p with
    | (s, .ok) => (s, if f.badOffs ≠ [] then .poisoned else .ok)
    | r => r
  | .raw _ (.castStaging o) _ _ _, some r => copyBytes s (castStagingAddr (r - 64) o) f.bytes f.badOffs p
  | .raw _ (.castScratch o) _ _ _, some r => allCoresOf r (fun c s => copyBytes s (castScratchAddr c o) f.bytes f.badOffs p) s
  | .raw _ _ _ _ _, none => (s, .malformed)
  | .elems src dst g add, none => writeRun s f (blockCore b) src dst g add
  | .elems src dst g add, some r =>
    if r < 64 then allCoresOf r (fun c s => writeRun s f c src dst g add) s else writeRun s f 0 src (rebase dst (r - 64)) g add

def dropFlight (s : State) (die id : Nat) : State :=
  let q := pool s die
  setPool s die { q with flight := q.flight.filter (·.id ≠ id) }

/-- The cycles in which a stream stood at 64 blocks before this completion (R239): a number that no command carries. -/
def windowOpened (s : State) (die : Nat) (b : Block) (before : Bool) : State :=
  if before ∧ !windowFull (pool s die) b.consist b.vi then bumpFree s kMulticastWindowStalls (conPart s b.consist) else s

/-- The write of a unicast block, which ends it (R234). -/
def finishOne (s : State) (die : Nat) (f : InFlight) : State :=
  let (s, st) := writeAt s f f.block.refetch
  blockEnded (dropFlight s die f.id) f.block st (blockLen f.block)

/-- Bytes that a block in a slot has written somewhere once it ends. -/
def castBytes (f : InFlight) : Nat := if f.wrote then blockLen f.block else 0

/-- The writes of a multicast block at some of its receivers, those whose domains no longer serve them dropped (R242); the last of
them ends it (R239). -/
def finishCast (s : State) (die : Nat) (f : InFlight) (rs : List Nat) : State :=
  let full := windowFull (pool s die) f.block.consist f.block.vi
  let (s, f) := rs.foldl (fun (x : State × InFlight) r =>
    let (s, st) := match touchAll x.1 (receiverDomains r) with
      | (s, true) => writeAt s f (some r)
      | (s, false) => (dropReceiver s f.block r, Status.denied)
    (s, { x.2 with todo := x.2.todo.filter (· ≠ r), wrote := x.2.wrote || st ≠ .denied,
                   status := if x.2.status ≠ .ok then x.2.status else st })) (s, f)
  if f.todo = [] then blockEnded (windowOpened (dropFlight s die f.id) die f.block full) f.block f.status (castBytes f)
  else
    let q := pool s die
    setPool s die { q with flight := q.flight.map fun g => if g.id = f.id then f else g }

/-- Completion of a block in a slot, at its one destination or at some of its receivers, of which a command names the die or the
consist (R234, R239, R242). -/
def complete (s : State) (die id : Nat) (rs : List Nat) : State :=
  match (pool s die).flight.find? (·.id = id) with
  | none => s
  | some f =>
    if f.waits then s
    else if castReceivers f.block = [] then
      match lowChannel s f.block with
      | some c => blockWait s die id c
      | none => finishOne s die f
    else finishCast s die f (f.todo.filter fun r => rs.contains (if r < 64 then r else r - 64))

/-- Whether a block in flight of some consists still waits for depot space, which a rollback waits for too (R258, R521). -/
def flightsWait (s : State) (ks : List Nat) : Bool :=
  s.pools.any fun x => x.2.flight.any fun f => ks.contains f.block.consist && (f.waits || lowChannel s f.block ≠ none)

/-- Every block in flight of some consists runs to completion (R521 step 3). -/
def drainFlights (s : State) (ks : List Nat) : State :=
  upto 8 (fun die s => ((pool s die).flight.filter fun f => ks.contains f.block.consist).foldl (fun s f =>
    if castReceivers f.block = [] then finishOne s die f else finishCast s die f f.todo) s) s

/-! ### Uncoupling (R240, R241) -/

/-- A receiver holds a stream: 64 blocks held and the oldest of them incomplete there. -/
def holds (q : Pool) (c : CastStream) (r : Nat) : Bool :=
  windowFull q c.consist c.vi && (match (castHeld q c.consist c.vi).head? with
    | some f => f.todo.contains r
    | none => false)

/-- Uncouples one receiver: slots that wait only for it are freed, the blocks it has not completed are fetched again by the
porters of its own die, which also deliver the arrivals (R236, R241). -/
def uncouple (s : State) (c : CastStream) (r : Nat) : State :=
  let die := conDie c.consist
  let q := pool s die
  let mine (b : Block) : Bool := b.consist = c.consist && b.vi = c.vi && !b.stale && b.bad = .ok && (castReceivers b).contains r
  let waits (f : InFlight) : Bool := mine f.block && f.todo.contains r
  let left := (q.flight.filter waits).map (·.block) ++ q.pending.filter mine
  let s := bump s kUncouplings 1 (conPart s c.consist)
  let s := { s with casts := s.casts.map fun x => if x.consist = c.consist ∧ x.vi = c.vi then
      { x with coupled := x.coupled.filter (· ≠ r), held := tdel x.held r, uncoupled := x.uncoupled ++ [r] } else x }
  let quiet (b : Block) : Block := { b with arrive := none }
  let fl := q.flight.map fun f => if waits f then { f with todo := f.todo.filter (· ≠ r), block := quiet f.block } else f
  let done (f : InFlight) : Bool := f.todo = [] && q.flight.any fun g => g.id = f.id && waits g
  let s := setPool s die { q with flight := fl.filter fun f => !done f, pending := q.pending.map fun b => if mine b then quiet b else b }
  let s := refetch s c.consist c.vi r left
  (fl.filter done).foldl (fun s f => blockEnded s f.block f.status (castBytes f)) s

/-- One sample at a tick boundary (R240). -/
def castSample (s : State) : State :=
  s.casts.foldl (fun s c =>
    let q := pool s (conDie c.consist)
    let held := c.coupled.foldl (fun t r => if holds q c r then tmod 0 t r (· + 1) else tdel t r) c.held
    let s := { s with casts := s.casts.map fun x => if x.consist = c.consist ∧ x.vi = c.vi then { x with held := held } else x }
    -- the cycles since the last sample in which the stream was held (R239)
    let s := if windowFull q c.consist c.vi then bumpFree s kMulticastWindowStalls (conPart s c.consist) else s
    if c.coupled.length ≤ 1 then s
    else (c.coupled.filter fun r => 5 ≤ tget 0 held r).foldl (fun s r => uncouple s c r) s) s

/-- Whether a block in a porter slot has still to read or write bytes of a range (R216). -/
def flightReaches (f : InFlight) (a n : Nat) : Bool :=
  let hit (x : Nat × Nat) : Bool := overlaps x.1 x.2 a n
  (match f.block.refetch with
    | some r => (castRanges f.block r).any hit
    | none => f.block.cast = [] && (dstRanges f.block).any hit) || f.todo.any fun r => (castRanges f.block r).any hit

/-- Whether one has still to write depot blocks of a granule (R265). -/
def flightDepot (f : InFlight) (g : Nat) : Bool :=
  match f.block.body with
  | .raw _ (.depot x) len _ _ => (depotSpan x len).any fun b => b / 65536 = g
  | _ => false

end Sys2Proof.Machine
end

