-- ==== Sys2Proof/Machine/Book.lean ====
section
/-! DEFINITION. The register book (R462 to R466) and the one way in which every dictionary write is made (R447, R451,
R475): checked, entered, then taken or refused; and the completion records that events and manifests write (R401 to
R404). -/

namespace Sys2Proof.Machine

/-- Adds to what has left the module. -/
def emit (s : State) (o : Out) : State := { s with out := o :: s.out }

/-! ### Values (Table 2 of 16) -/

def tyOctets : OdTy → Nat
  | .u8 => 1 | .bool => 1 | .u16 => 2 | .u32 => 4 | .i32 => 4 | .f32 => 4 | .u64 => 8 | .time64 => 8 | .str => 0 | .octets => 0

/-- Octets of a value under a type. -/
def valOctets (ty : OdTy) : OdVal → List Byte
  | .num n => leBytes (if tyOctets ty = 0 then 8 else tyOctets ty) n
  | .octets b => b

/-- A value from octets under a type: none where its length is wrong. -/
def octetsVal (ty : OdTy) (b : List Byte) : Option OdVal :=
  if tyOctets ty = 0 then some (.octets b) else if b.length = tyOctets ty then some (.num (leNat b)) else none

/-- The checks of Table 2 of 16 on a written value. -/
def typeOk (ty : OdTy) (v : OdVal) : Bool :=
  match ty, v with
  | .bool, .num n => n < 2
  | .f32, .num n => n < 2 ^ 32 && (decodeVal fmtFp32 n).isFin
  | .str, .octets b => 1 ≤ b.length && b.length ≤ 1024 && b.all fun x => 0x20 ≤ x.toNat && x.toNat ≤ 0x7F - 1
  | .octets, .octets b => b.length ≤ 65535
  | t, .num n => tyOctets t ≠ 0 && n < 2 ^ (8 * tyOctets t)
  | _, _ => false

/-! ### Entries (Table 8 of 16) -/

def roleCode : Role → Nat
  | .operator => 0 | .tenant => 1 | .observer => 2 | .service => 3

/-- What an entry records beside its place and time. -/
structure BookInfo where
  kind : Nat
  origin : Nat
  role : Nat
  part : Nat
  index : Nat
  sub : Nat
  status : Nat
  length : Nat
  inline : Nat
  keyFp : List Byte
  digest : List Byte
  deriving DecidableEq, Repr

def zeros (n : Nat) : List Byte := List.replicate n 0

/-- A list of octets cut or filled with zeros to a length. -/
def fit (n : Nat) (b : List Byte) : List Byte := (b ++ zeros n).take n

/-- Octets of the newest entry's hash. -/
def headHash (s : State) : List Byte :=
  match s.book.entries with
  | e :: _ => e.drop 144
  | [] => zeros 32

/-- The serial of the next entry. -/
def nextSerial (s : State) : Nat := if s.book.entries = [] then 0 else odN s kBookHeadSerial + 1

/-- Octets 0 to 143 of an entry. -/
def entryBody (s : State) (serial : Nat) (i : BookInfo) : List Byte :=
  leBytes 8 serial ++ leBytes 8 (moduleTime s) ++ leBytes 4 (odN s kBootCount) ++ leBytes 1 0 ++ leBytes 1 i.kind ++
  leBytes 6 (tickNow s) ++ leBytes 1 i.origin ++ leBytes 1 i.role ++ leBytes 1 i.part ++ leBytes 2 i.index ++
  leBytes 1 i.sub ++ leBytes 1 i.status ++ leBytes 1 0 ++ leBytes 4 i.length ++ leBytes 8 i.inline ++
  fit 32 i.keyFp ++ fit 32 i.digest ++ fit 32 (headHash s)

/-- Appends an entry (R463, R466). -/
def appendEntry (s : State) (i : BookInfo) : State :=
  let n := nextSerial s
  let body := entryBody s n i
  let h := shake256 body 32
  let cap := odN s kBookCapacity
  let all := (body ++ h) :: s.book.entries
  let evict := cap < all.length
  let s := { s with book := { s.book with entries := all.take cap, since := s.book.since + 1 } }
  let s := odSet (odPut s kBookHeadHash (.octets h)) kBookHeadSerial n
  let s := if evict then bump (odSet s kBookOldestSerial (n + 1 - cap)) kBookEntriesOverwritten 1 none else s
  bump s kBookEntries 1 none

/-- Whether a new entry would overwrite one that `book_retain` keeps, with `spare` places left out (R466). -/
def bookFull (s : State) (spare : Nat) : Bool :=
  odN s kBookRetain = 1 && decide (odN s kBookCapacity ≤ s.book.entries.length + spare) &&
    decide (odN s kBookExportMark < nextSerial s + spare - odN s kBookCapacity + 1)

/-- The entry of a write. -/
def writeInfo (w : Who) (key : Nat) (value : List Byte) (inline : Nat) (st : Status) : BookInfo :=
  { kind := 1, origin := w.origin, role := roleCode w.role, part := if w.role = .tenant then w.part else 0xFF,
    index := key / 256, sub := key % 256, status := stCode st, length := value.length, inline := inline,
    keyFp := if w.origin = 1 ∨ w.origin = 2 then w.keyFp else [], digest := shake256 value 32 }

/-- Objects whose writes are taken while the module starts up or is halted (R475): `debug_open` is taken in any state (R439), and quotes
keep running in a halted module (R478). -/
def bootWritable (s : State) (key : Nat) : Bool :=
  key = kModuleRestart || key = kLedgerClear || key = kFwChunk || key = kFwControl || key = kDebugOpen ||
    (key = kQuoteRequest && odN s kBootState = 3)

/-- Whether the dictionary takes only those writes now. -/
def starting (s : State) : Bool := odN s kBootState = 0 || odN s kBootState = 3

/-- Whether the dictionary accepts requests: the signal box runs from start-up step 0x02 on (R475), not in ROM recovery and not
without input power. -/
def dictUp (s : State) : Bool :=
  !s.boot.inRecovery && !s.pow.stopped && !(odN s kBootState = 0 && decide (s.boot.entries.length < 2))

/-- The one way a dictionary write is made: the value's type (R447), start-up (R475), the object's own check, the entry
(R462), then the effect at the moment it is taken (R451). A full book under `book_retain` refuses without an entry.
Before the signal box runs there is no dictionary. -/
def dictWrite (s : State) (w : Who) (key : Nat) (v : OdVal) (check : State → Status) (take : State → State) : State :=
  if !dictUp s then s
  else if bookFull s 1024 ∧ key ≠ kBookExportMark then
    emit (bump s kBookFullRefusals 1 none) (.written key (stCode .capacity))
  else
    let ty := match odRow key with
      | some r => r.ty
      | none => .octets
    let st : Status := if starting s ∧ !bootWritable s key then .notReady
      else
        let c := check s
        if c = .denied then .denied else if !typeOk ty v then .malformed else c
    let oct := valOctets ty v
    let inline := if tyOctets ty = 0 then 0 else leNat oct
    let s := appendEntry s (writeInfo w key oct inline st)
    let s := if st = .denied ∨ st = .malformed then bump s kLmpRefused 1 none else s
    let s := if st = .ok then take s else s
    emit s (.written key (stCode st))

/-- Who may write: the operator alone. -/
def opOnly (w : Who) (st : Status) : Status := if w.role = .operator then st else .denied

/-- Who may write an object of partition p: the operator or its tenant. -/
def opOrTenant (w : Who) (p : Nat) (st : Status) : Status :=
  if w.role = .operator ∨ (w.role = .tenant ∧ w.part = p) then st else .denied

/-! ### Completions (R401 to R405) -/

def queue (s : State) (q : Nat) : HQueue := tget HQueue.reset s.queues q
def setQueue (s : State) (q : Nat) (v : HQueue) : State := { s with queues := tset HQueue.reset s.queues q v }

/-- Bytes of completion record n of a queue (Table 9 of 14). -/
def completionBytes (s : State) (v : HQueue) (c : Completion) : List Byte :=
  let gen := v.cqWritten / 2 ^ v.cqOrder % (2 ^ 31 - 1) + 1
  leBytes 8 c.result ++ leBytes 4 c.detail ++ leBytes 4 c.tag ++ leBytes 4 c.seq ++ leBytes 6 (tickNow s) ++
  leBytes 1 c.opcode ++ leBytes 1 c.status ++ leBytes 4 (2 ^ 31 + gen)

/-- Slots of the completion ring not free: written and not released, and reserved by started manifests. -/
def slotsUsed (v : HQueue) : Nat := (v.cqWritten + 2 ^ 32 - v.cqHead % 2 ^ 32) % 2 ^ 32 + v.started.length

/-- A write reaches host memory; a completion that it makes visible counts (R401). -/
def hostWritten (s : State) (w : Posted) : State :=
  let s := emit s (.hostWrite w.addr w.bytes)
  if w.done = none then s else bump s kCompletionsWritten 1 none

/-- A write to host memory (R386, R388): it reaches the host in order where a link is up, and waits in the replay buffers while both are
down. DESIGN CHOICE: a write made while a link is up counts as acknowledged. -/
def hostPost (s : State) (w : Posted) : State :=
  if odN s kBrynqLinksUp ≠ 0 ∧ s.link.unacked = [] then hostWritten s w
  else { s with link := { s.link with unacked := s.link.unacked ++ [w] } }

/-- A link is up again: the writes that no acknowledgement has reached are replayed, oldest first (R386). -/
def replay (s : State) : State := s.link.unacked.foldl hostWritten { s with link := { s.link with unacked := [] } }

/-- Writes one completion into its slot, bytes 28 to 31 after the others, then the notification (R401, R403). -/
def putCompletion (s : State) (q : Nat) (c : Completion) : State :=
  let v := queue s q
  let a := v.cqBase + 32 * (v.cqWritten % 2 ^ v.cqOrder)
  let b := completionBytes s v c
  let s := setQueue s q { v with cqWritten := v.cqWritten + 1 }
  let s := hostPost (hostPost s ⟨a, b.take 28, none⟩) ⟨a + 28, b.drop 28, some (q, c)⟩
  if c.irq ∧ v.irqAddr ≠ 0 then hostPost s ⟨v.irqAddr, leBytes 4 v.irqData, none⟩ else s

/-- Writes the next completion that waits, if a slot is free: those retained come first (R402, R410). An orphaned queue writes none. -/
def flushOne (q : Nat) (s : State) : State :=
  let v := queue s q
  if v.state = 0 ∨ v.state = 3 ∨ 2 ^ v.cqOrder ≤ slotsUsed v then s
  else match v.retained, v.waiting with
    | c :: r, _ => putCompletion (setQueue s q { v with retained := r }) q c
    | [], c :: r => putCompletion (setQueue s q { v with waiting := r }) q c
    | [], [] => s

/-- Writes the completions that waited for a slot. -/
def flushWaiting (s : State) (q : Nat) : State := upto ((queue s q).retained.length + (queue s q).waiting.length) (fun _ s => flushOne q s) s

/-- Adds to the retained completions, at most 1,024 (R405). -/
def retain (s : State) (q : Nat) (l : List Completion) : State :=
  let v := queue s q
  let take := l.take (1024 - v.retained.length)
  bump (setQueue s q { v with retained := v.retained ++ take }) kCompletionsRetained take.length none

/-- Delivers a completion: written, kept in the always-on domain of an orphaned queue (R405), or waiting for a slot behind the others
(R402). `reserved` says that a started manifest has held a slot for it. -/
def deliver (s : State) (q : Nat) (c : Completion) (reserved : Bool) : State :=
  let v := queue s q
  if v.state = 3 then retain s q [c]
  else if v.state = 0 then s
  else if v.retained = [] ∧ (reserved ∨ (v.waiting = [] ∧ slotsUsed v < 2 ^ v.cqOrder)) then putCompletion s q c
  else flushWaiting (setQueue s q { v with waiting := v.waiting ++ [c] }) q

/-- An event completion to every queue of the partition that takes events (R404). -/
def event (s : State) (p : Nat) (st : Status) (detail : Nat) : State :=
  s.queues.foldl (fun s x =>
    if x.2.part = p ∧ x.2.events ∧ x.2.enable then
      deliver s x.1 ⟨stCode st, 0xFF, 0, 0, detail, 0, true⟩ false
    else s) s

end Sys2Proof.Machine
end

