-- ==== Sys2Proof/Machine/HrtTx.lean ====
section
/-! DEFINITION. The rail transport's sending side (R350 to R363, R369, R372): groups of the job map, queue pairs, messages,
frames handed to the ports, partner faults; and the secure channels' keying (R339 to R344). -/

namespace Sys2Proof.Machine

def qp (s : State) (q : Nat) : Qp := tget Qp.reset s.qps q
def setQp (s : State) (q : Nat) (v : Qp) : State := { s with qps := tset Qp.reset s.qps q v }
def port (s : State) (n : Nat) : Port := tget Port.reset s.ports n
def setPort (s : State) (n : Nat) (v : Port) : State := { s with ports := tset Port.reset s.ports n v }

/-- The port of a QP (R356). -/
def qpPort (q : Nat) : Nat := q / 512

def chanKey (p n peer : Nat) : Nat := (8 * p + n) * 64 + peer
def chan (s : State) (p n peer : Nat) : Chan := tget Chan.reset s.chans (chanKey p n peer)
def setChan (s : State) (p n peer : Nat) (c : Chan) : State := { s with chans := tset Chan.reset s.chans (chanKey p n peer) c }

/-- Whether the module is in hold, from host loss to the end of the adoption (R406, R410). -/
def held (s : State) : Bool := odN s kHoldState = 1 || odN s kHoldState = 2 || odN s kHoldState = 4

/-! ### The job's groups (R300) -/

def jobOf (s : State) (p : Nat) : Option JobMap := (part s p).job
def jobSize (j : JobMap) : Nat := j.sizeT * j.sizeS * j.sizeD * j.sizeP

/-- Coordinates t, s, d, p of a rank. -/
def coords (j : JobMap) (r : Nat) : Nat × Nat × Nat × Nat :=
  (r % j.sizeT, r / j.sizeT % j.sizeS, r / (j.sizeT * j.sizeS) % j.sizeD, r / (j.sizeT * j.sizeS * j.sizeD))

/-- The group of rank r under an axis mask, in rank order. -/
def groupOf (j : JobMap) (r mask : Nat) : List Nat :=
  let (t, q, d, p) := coords j r
  (List.range (jobSize j)).filter fun x =>
    let (t', q', d', p') := coords j x
    (bitOf mask 0 || t = t') && (bitOf mask 1 || q = q') && (bitOf mask 2 || d = d') && (bitOf mask 3 || p = p')

/-- Group rank of a member. -/
def groupRank (g : List Nat) (r : Nat) : Nat := (g.filter (· < r)).length

/-- Whether a mask names a group. -/
def maskOk (mask : Nat) : Bool := mask ≠ 0 && mask < 16

def noPeer : Peer := ⟨0, 0, 0, 4, 0, [], []⟩
def noPort : PeerPort := ⟨0, 0, 0, 0, 0xFFFF⟩
def peerOf (j : JobMap) (i : Nat) : Peer := lget noPeer j.peers i
def peerPort (j : JobMap) (i n : Nat) : PeerPort := lget noPort (peerOf j i).ports n

/-- Whether entry i has a route on port n. -/
def routed (j : JobMap) (i n : Nat) : Bool := (peerOf j i).kind ≠ 0 && (peerPort j i n).remoteQp ≠ 0xFFFF

/-- The lowest-numbered port with a route to a peer (R373). -/
def routePort (j : JobMap) (i : Nat) : Option Nat := (List.range 8).find? fun n => routed j i n

/-! ### Secure channels (R339 to R344) -/

/-- The 8 octets of an SCI (R339). -/
def sciOctets (mac portId : Nat) : List Byte := beBytes 6 mac ++ beBytes 2 portId
def macNat (s : State) (n : Nat) : Nat := beNat (odB s (kMacAddress n))
def ownSci (s : State) (p n : Nat) : List Byte := sciOctets (macNat s n) (p + 1)
def peerSci (j : JobMap) (i n : Nat) : List Byte := sciOctets (peerPort j i n).mac (peerOf j i).sciPort

def ascii (l : List Nat) : List Byte := l.map (BitVec.ofNat 8)
/-- "HSK-SAK" and "HSK-CONF". -/
def labelSak : List Byte := ascii [72, 83, 75, 45, 83, 65, 75]
def labelConf : List Byte := ascii [72, 83, 75, 45, 67, 79, 78, 70]

def sak (k tx rx : List Byte) (an : Nat) : List Byte := shake256 (labelSak ++ k ++ tx ++ rx ++ leBytes 1 an) 32
def confirmOf (k i r : List Byte) (an : Nat) : List Byte := shake256 (labelConf ++ k ++ i ++ r ++ leBytes 1 an) 16

/-- Whether this side starts the exchange (R342). -/
def initiates (s : State) (j : JobMap) (p i n : Nat) : Bool := decide (beNat (ownSci s p n) < beNat (peerSci j i n))

/-- The next association number of a channel. -/
def nextAn (c : Chan) : Nat := match c.txAn with
  | some a => (a + 1) % 4
  | none => 0

/-! ### The octets of a frame (R330, R335, R339, R350) -/

def hdr0 : HrtHdr :=
  { version := 1, opcode := 0, last := false, timetabled := false, ackNow := false, ecnEcho := false, semOp := 0,
    poisoned := false, reserved := 0, addType := 0, code := 0, dstQp := 0, srcQp := 0, psn := 0, ackPsn := 0, window := 0,
    offset := 0, payloadLen := 0, sem := 0, epoch := 0, frameIndex := 0, sack := 0 }

/-- The route of a partition to a peer on a port, and the peer. -/
def routeTo (s : State) (p n i : Nat) : Peer × PeerPort := match jobOf s p with
  | some j => (peerOf j i, peerPort j i n)
  | none => (noPeer, noPort)

/-- The tag control field of a partition's C-tag: its VID, DEI 0, the PCP of the mode (R335). -/
def cTag (s : State) (p : Nat) (timed : Bool) : Nat := (if timed then odN s kPcpTimetabled else odN s kPcpFree) * 2 ^ 13 + (grantOf s p).vid % 4096

/-- Ethernet header and C-tag, and the SecTAG of a protected frame with its association number and packet number. -/
def macOctets (s : State) (p n i tag : Nat) (sec : Option (Nat × Nat)) : List Byte :=
  beBytes 6 (routeTo s p n i).2.nextHop ++ fit 6 (odB s (kMacAddress n)) ++ beBytes 2 0x8100 ++ beBytes 2 tag ++
  match sec with
  | some (an, pn) => beBytes 2 0x88E5 ++ leBytes 1 (0x2C + an % 4) ++ leBytes 1 0 ++ beBytes 4 pn ++ ownSci s p n
  | none => []

/-- The EtherType and the IP and UDP headers of an HRT frame (R350). -/
def ipOctets (s : State) (p n i q : Nat) (timed : Bool) (hdr payload : List Byte) : List Byte :=
  let (e, x) := routeTo s p n i
  let src := fit 16 (odB s (kLocalIp p (n + 1)))
  let dst := beBytes 16 x.ip
  let ecn := if timed then 0 else 2
  let from' := 49152 + q % 16384
  let len := 8 + hdr.length + payload.length
  let udp (sum : Nat) : List Byte := beBytes 2 from' ++ beBytes 2 e.udpPort ++ beBytes 2 len ++ beBytes 2 sum
  if e.ipVersion = 6 then
    let sum := checksum (src ++ dst ++ beBytes 4 len ++ beBytes 4 17 ++ udp 0 ++ hdr ++ payload)
    beBytes 2 0x86DD ++ beBytes 4 (6 * 2 ^ 28 + ecn * 2 ^ 20 + from') ++ beBytes 2 len ++ leBytes 1 17 ++ leBytes 1 64 ++ src ++ dst ++
      udp (if sum = 0 then 65535 else sum)
  else
    let ip (sum : Nat) : List Byte := leBytes 1 0x45 ++ leBytes 1 ecn ++ beBytes 2 (20 + len) ++ beBytes 2 0 ++ beBytes 2 0x4000 ++
      leBytes 1 64 ++ leBytes 1 17 ++ beBytes 2 sum ++ src.drop 12 ++ dst.drop 12
    beBytes 2 0x0800 ++ ip (checksum (ip 0)) ++ udp 0

/-- An HRT frame from its first octet to the end of its HRT header, before encryption. -/
def frameOctets (s : State) (p n i q tag : Nat) (sec : Option (Nat × Nat)) (h : HrtHdr) (payload : List Byte) : List Byte :=
  macOctets s p n i tag sec ++ ipOctets s p n i q h.timetabled (hrtOctets h) payload ++ hrtOctets h

/-- Length of a frame to a peer (R330): Ethernet header, tag, EtherType and FCS 22, MACsec 32, IP and UDP 28 or 48, HRT 32; at least
64. -/
def lengthTo (s : State) (p n i payload : Nat) (sec : Bool) : Nat :=
  max 64 (22 + (if sec then 32 else 0) + (if (routeTo s p n i).1.ipVersion = 6 then 48 else 28) + 32 + payload)

/-- Counts a frame that leaves a port. -/
def countTx (s : State) (p n len : Nat) (sec : Bool) : State :=
  bump (bump (bump (bump s (kTxFrames n) 1 (some p)) (kTxBytes n) len (some p)) (kMacsecTxProtected n) (if sec then 1 else 0) (some p))
    kHrtTxFrames 1 (some p)

/-- A key-agreement message, which its FCS alone protects (R342). -/
def isKey (h : HrtHdr) : Bool := h.opcode = 3 && (h.code = 1 || h.code = 2)

/-- Length of a frame of a port's buffer under R330. -/
def frameLen (s : State) (n : Nat) (f : MacFrame) : Nat := lengthTo s f.part n f.peer f.payload.length (!isKey f.hdr)

/-- Octets that a port's transmit buffer holds: 512 KiB (R328). -/
def txHalf : Nat := 512 * 1024

/-- Octets of a port's transmit buffer that frames take. -/
def txUsed (s : State) (n : Nat) : Nat := (port s n).txq.foldl (fun u f => u + frameLen s n f) 0

/-- A frame that the module itself makes enters the transmit buffer, or waits for room in it (R328); on a link that is down it is discarded
and counted (R327, R333). -/
def enqueue (s : State) (n : Nat) (f : MacFrame) : State :=
  let v := port s n
  if odN s (kLinkUp n) = 0 then bump s (kTxLinkDownDrops n) 1 (some f.part)
  else if v.wait = [] ∧ txUsed s n + frameLen s n f ≤ txHalf then setPort s n { v with txq := v.txq ++ [f] }
  else setPort s n { v with wait := v.wait ++ [f] }

/-- Whether a partition may use a port (R334). -/
def mayUse (s : State) (p n : Nat) : Bool := (grantOf s p).vid ≠ 0 && bitOf (grantOf s p).portMap n

/-- Whether a partition may send on a port now (R333, R334). -/
def portOpen (s : State) (p n : Nat) : Bool := odN s (kLinkUp n) = 1 && mayUse s p n

/-- Sends a key-agreement message (R342); a partition that may not use the port sends none. -/
def sendKey (s : State) (p n i code : Nat) (payload : List Byte) : State :=
  if !mayUse s p n then s
  else
    let h := { hdr0 with opcode := 3, last := true, code := code, dstQp := 0xFFFF, srcQp := 0xFFFF, payloadLen := payload.length }
    enqueue s n ⟨p, i, 0xFFFF, false, 3, h, payload, cTag s p false, false, none⟩

/-- Sends a key offer with a new encapsulation: the secret and the ciphertext are free values. -/
def sendOffer (s : State) (p n i attempt : Nat) : State :=
  let c := chan s p n i
  let an := nextAn c
  let (s, k) := freshOctets s 1 32
  let (s, ct) := freshOctets s 2 1088
  let peer := match jobOf s p with
    | some j => peerSci j i n
    | none => zeros 8
  sendKey (setChan s p n i { c with offer := some (an, attempt, k, s.now) }) p n i 1 (ownSci s p n ++ peer ++ leBytes 1 an ++ zeros 7 ++ ct)

/-- Counts the channels of a partition that carry frames. -/
def countChannels (s : State) (p : Nat) : State :=
  odSet s (kSecureChannelsUp p) (s.chans.filter fun x => x.1 / 64 / 8 = p ∧ x.2.txAn ≠ none).length

/-- The receive SAs of a channel with a new one: two association slots, so the newest of the others stays (R339). -/
def addSa (l : List RxSa) (x : RxSa) : List RxSa :=
  let rest := l.filter fun y => y.an ≠ x.an
  rest.drop (rest.length - 1) ++ [x]

/-- Installs the SAs of an exchange: as the first, or as the shadow SA (R344). -/
def installSas (s : State) (p n i an : Nat) (tx rx : List Byte) : State :=
  let c := chan s p n i
  let c : Chan := { c with rx := addSa c.rx (RxSa.mk an rx 1), offer := none, failed := false }
  match c.txAn with
  | none => countChannels (setChan s p n i { c with txAn := some an, txKey := tx, txPn := 1 }) p
  | some _ => bump (setChan s p n i { c with shadow := some (an, tx) }) (kMacsecRekeys n) 1 (some p)

/-! ### Ends of messages -/

/-- One message of a collective's part has ended at the sender (R363, R375). -/
def msgEnded (s : State) (owner : Option (Nat × Nat)) (st : Status) : State :=
  match owner with
  | none => s
  | some (k, vi) =>
    modCon s k fun c => { c with verbs := c.verbs.map fun e =>
      if e.vi = vi then
        let sp := lget ⟨0, none, false, []⟩ e.streams 0
        let sp := { sp with left := sp.left - 1, fail := if sp.fail = none ∧ st ≠ .ok then some (0, st) else sp.fail }
        let e := { e with streams := [sp] }
        if sp.left = 0 then
          { e with parts := List.replicate 20 (some (match sp.fail with
            | some (_, x) => x
            | none => .ok)) }
        else e
      else e }

/-- Ends every message of a QP with a status and drops its frames. -/
def endMsgs (s : State) (q : Nat) (st : Status) : State :=
  let v := qp s q
  let s := setQp s q { v with frames := [], msgs := [] }
  v.msgs.foldl (fun s m => msgEnded s m.owner st) s

/-- The peer's bit in `peer_slow_map` follows its QPs (R376). -/
def slowBit (s : State) (p i : Nat) : State :=
  let m := odN s (kPeerSlowMap p)
  if s.qps.any fun x => x.2.isOpen && x.2.part = p && x.2.peer = i && x.2.slow then odSet s (kPeerSlowMap p) (bitSet m i)
  else odSet s (kPeerSlowMap p) (bitClr m i)

/-- Takes frames out of a port's buffer and of those that wait for it; one that was sealed as it was built stays. -/
def dropFrames (s : State) (n : Nat) (sel : MacFrame → Bool) : State :=
  let keep (f : MacFrame) : Bool := f.stamp ≠ none || !sel f
  setPort s n { port s n with txq := (port s n).txq.filter keep, wait := (port s n).wait.filter keep }

/-- A QP that is slow no longer counts as such once nothing more is sent on it (R376). -/
def slowGone (s : State) (q : Nat) : State :=
  let v := qp s q
  if v.slow then slowBit (setQp s q { v with slow := false }) v.part v.peer else s

/-- Closes a QP and ends what it held. -/
def closeQp (s : State) (q : Nat) (st : Status) : State :=
  let s := slowGone (dropFrames (endMsgs s q st) (qpPort q) fun f => f.qp = q) q
  setQp s q Qp.reset

/-! ### Partner faults (R376, R377) -/

/-- The peer is absent on a QP: the QP is closed until the next job-map latch. -/
def peerAbsent (s : State) (q : Nat) : State :=
  let v := qp s q
  if !v.isOpen ∨ v.absent then s
  else
    let s := slowGone (dropFrames (endMsgs s q .partnerAbsent) (qpPort q) fun f => f.qp = q) q
    let s := setQp s q { qp s q with absent := true, ackDue := none }
    let m := odN s (kPeerAbsentMap v.part)
    bump (odSet s (kPeerAbsentMap v.part) (bitSet m v.peer)) kHrtPartnerAbsent 1 (some v.part)

def isQuarantined (s : State) (p i : Nat) : Bool := bitOf (odN s (kPeerQuarantineMap p)) i

/-- Quarantines a peer (R377). -/
def quarantine (s : State) (p i : Nat) : State :=
  if isQuarantined s p i then s
  else
    let mine := (s.qps.filter fun x => x.2.isOpen ∧ x.2.part = p ∧ x.2.peer = i).map (·.1)
    let s := mine.foldl (fun s q => closeQp s q .quarantined) s
    let s := (List.range 8).foldl (fun s n => dropFrames s n fun f => f.part = p && f.peer = i) s
    let s := { s with chans := s.chans.filter fun x => !(x.1 / 64 / 8 = p && x.1 % 64 = i) }
    let s := countChannels s p
    let s := odSet s (kPeerQuarantineMap p) (bitSet (odN s (kPeerQuarantineMap p)) i)
    event (bump s kHrtQuarantines 1 (some p)) p .quarantined i

/-! ### Frames -/

/-- A frame of a QP as it is built in the port's transmit buffer (R328, R335). -/
def macFrame (s : State) (v : Qp) (q : Nat) (f : TxFrame) : MacFrame :=
  ⟨v.part, v.peer, q, f.hdr.timetabled, f.cls, f.hdr, f.payload, cTag s v.part f.hdr.timetabled, false, none⟩

/-- Frames of a QP that are sent and not yet acknowledged. -/
def inFlightFrames (v : Qp) : List TxFrame := v.frames.filter fun f => f.sent ≠ none

/-- Whether a frame lies within the congestion window, which only free-running frames keep (R372). -/
def fitsWindow (v : Qp) (f : TxFrame) : Bool :=
  let fl := inFlightFrames v
  f.hdr.timetabled || fl = [] || decide ((fl.map (·.payload.length)).foldl (· + ·) 0 + f.payload.length ≤ v.cwnd)

/-- Whether the transmit buffer of a QP's port has room for a whole frame, and nothing waits for it (R328). -/
def txRoom (s : State) (q : Nat) (v : Qp) (f : TxFrame) : Bool :=
  (port s (qpPort q)).wait = [] && decide (txUsed s (qpPort q) + frameLen s (qpPort q) (macFrame s v q f) ≤ txHalf)

/-- Whether a port takes frames of a QP: its link is up, the peer is there, and in hold no data frame goes (R333, R376, R379). -/
def takesFrame (s : State) (q : Nat) (v : Qp) (f : TxFrame) : Bool :=
  odN s (kLinkUp (qpPort q)) = 1 && !v.absent && !(held s && f.hdr.opcode ≠ 3)

/-- Whether a frame may be handed to the port: 256 frames, the congestion window (R363, R372), room in the port's buffer (R328), and
no data frame in hold (R379). -/
def mayHand (s : State) (q : Nat) (v : Qp) (f : TxFrame) : Bool :=
  decide ((inFlightFrames v).length < 256) && txRoom s q v f && takesFrame s q v f && fitsWindow v f

/-- Of the frames that wait to be sent again, oldest first, those that the port's buffer has room for. -/
def againNow (s : State) (q : Nat) (v : Qp) : List TxFrame :=
  ((v.frames.filter fun f => f.again && takesFrame s q v f).foldl (fun (x : List TxFrame × Nat × Bool) f =>
    let (l, used, full) := x
    let u := used + frameLen s (qpPort q) (macFrame s v q f)
    if full ∨ txHalf < u then (l, used, true) else (l ++ [f], u, false)) ([], txUsed s (qpPort q), (port s (qpPort q)).wait ≠ [])).1

/-- Sends again what waits for it, before frames that have not been sent (R363, R369). -/
def pumpAgain (s : State) (q : Nat) : State :=
  let v := qp s q
  let l := againNow s q v
  if l = [] then s
  else
    let hit (g : TxFrame) : Bool := l.any fun f => f.hdr.psn = g.hdr.psn
    let s := setQp s q { v with frames := v.frames.map fun g => if hit g then { g with sent := some s.now, again := false, retx := g.retx + 1 } else g }
    let n := qpPort q
    bump (setPort s n { port s n with txq := l.map (macFrame s v q) ++ (port s n).txq }) kHrtRetransmits l.length (some v.part)

/-- Hands waiting frames of a QP to its port's transmit buffer, in order, those that are sent again first: a free-running frame that the
congestion window keeps back keeps the later free-running ones back too, and one that finds no room keeps all behind it back. -/
def pump (s : State) (q : Nat) : State :=
  let s := pumpAgain s q
  let blocked := (qp s q).frames.any fun f => f.again && takesFrame s q (qp s q) f
  ((qp s q).frames.foldl (fun (x : State × Bool × Bool) f =>
    let (s, stop, full) := x
    let v := qp s q
    if f.sent ≠ none then x
    else if mayHand s q v f ∧ !full ∧ (f.hdr.timetabled ∨ !stop) then
      let s := setQp s q { v with frames := v.frames.map fun g => if g.hdr.psn = f.hdr.psn then { g with sent := some s.now } else g }
      let n := qpPort q
      (setPort s n { port s n with txq := (port s n).txq ++ [macFrame s v q f] }, stop, full)
    else (s, stop || !fitsWindow v f, full || !txRoom s q v f)) (s, false, blocked)).1

/-- A frame waits to be sent again (R363): it goes as soon as its link is up and the buffer has room. -/
def resend (s : State) (q psn : Nat) : State :=
  setQp s q { qp s q with frames := (qp s q).frames.map fun g => if g.hdr.psn = psn then { g with again := true } else g }

/-- What a message asks of its frames. -/
structure MsgSpec where
  opcode : Nat
  timetabled : Bool
  cls : Nat
  code : Nat
  addType : Nat
  window : Nat
  offset : Nat
  sem : Option Nat
  epoch : Nat
  bad : List (Nat × Nat)
  owner : Option (Nat × Nat)
  deriving DecidableEq, Repr

/-- Cuts a payload into frames of 8,192 bytes (R351, R360). -/
def chunks (b : List Byte) : List (List Byte) :=
  if b = [] then [[]] else (List.range (ceilDiv b.length 8192)).map fun i => (b.drop (8192 * i)).take 8192

/-- Why a send to a peer on a QP cannot begin (R343, R376, R377). -/
def sendBlocked (s : State) (p i n q : Nat) : Status :=
  if isQuarantined s p i then .quarantined
  else if (qp s q).absent then .partnerAbsent
  else if (chan s p n i).failed then .authFail
  else if !(qp s q).isOpen then .notReady
  else .ok

/-- Sends a message to peer entry i: queued on the QP of the lowest-numbered port with a route. One of more than 2^24 frames is malformed
(R360). -/
def sendMsg (s : State) (p i : Nat) (m : MsgSpec) (payload : List Byte) : State × Status :=
  match jobOf s p with
  | none => (s, .notReady)
  | some j =>
    match routePort j i with
    | none => (s, .malformed)
    | some n =>
      let pp := peerPort j i n
      let q := pp.localQp
      let st := sendBlocked s p i n q
      if st ≠ .ok then (s, st)
      else if 2 ^ 24 < (chunks payload).length then (s, .malformed)
      else
        let v := qp s q
        let cs := chunks payload
        let fs := cs.zipIdx.map fun (b, x) =>
          let last := decide (x + 1 = cs.length)
          ({ hdr := { hdr0 with
              opcode := m.opcode, last := last, timetabled := m.timetabled, ackNow := last, poisoned := m.bad.any fun o => overlaps (8192 * x) b.length o.1 o.2
              semOp := if last ∧ m.sem ≠ none then 1 else 0, addType := m.addType, code := m.code, dstQp := pp.remoteQp
              srcQp := q, psn := (v.txPsn + x) % 2 ^ 32, window := m.window, offset := m.offset + 8192 * x
              payloadLen := b.length, sem := if last then m.sem.getD 0 else 0, epoch := m.epoch
              frameIndex := if m.opcode = 3 then 0 else x }
             payload := b, sent := none, again := false, retx := 0, cls := m.cls, msg := v.nextMsg } : TxFrame)
        let s := setQp s q { v with txPsn := (v.txPsn + cs.length) % 2 ^ 32, frames := v.frames ++ fs,
                                    msgs := v.msgs ++ [⟨v.nextMsg, cs.length, .ok, m.owner⟩], nextMsg := v.nextMsg + 1
                                    progress := if v.frames = [] then s.now else v.progress }
        (pump s q, .ok)

/-- Whether a frame of a QP still stands in its port's transmit buffer. -/
def inBuffer (s : State) (q psn : Nat) : Bool := (port s (qpPort q)).txq.any fun f => f.qp = q && f.hdr.psn = psn && f.hdr.opcode ≠ 2

/-- Whether a channel may send: keyed and not failed; the shadow SA is taken at the next frame (R344). -/
def chanReady (c : Chan) : Chan :=
  match c.shadow with
  | some (an, k) => { c with txAn := some an, txKey := k, txPn := 1, shadow := none }
  | none => c

/-- Whether a frame has never left its port. -/
def unsent (s : State) (q : Nat) (f : TxFrame) : Bool := f.sent = none || (f.retx = 0 && inBuffer s q f.hdr.psn)

/-- Whether a frame carries a commit record. -/
def commitRecord (h : HrtHdr) : Bool := h.opcode = 3 && 0x10 ≤ h.code && h.code ≤ 0x12

/-- Discards the newest frames of a QP as far back as none has been sent; PSNs continue from the last that has (R379). Commit
records among them stay and take the next PSNs. A message that loses frames ends aborted. -/
def dropTail (s : State) (q : Nat) : State :=
  let v := qp s q
  let n := (v.frames.reverse.zipIdx.takeWhile fun x => unsent s q x.1 && (x.1.hdr.psn + 1 + x.2) % 2 ^ 32 = v.txPsn).length
  let tail := v.frames.drop (v.frames.length - n)
  let first := (v.txPsn + 2 ^ 32 - n % 2 ^ 32) % 2 ^ 32
  let gone := tail.filter fun f => !commitRecord f.hdr
  let hit := v.msgs.filter fun m => gone.any fun f => f.msg = m.id
  let kept := (tail.filter fun f => commitRecord f.hdr).zipIdx.map fun x =>
    { x.1 with hdr := { x.1.hdr with psn := (first + x.2) % 2 ^ 32 }, sent := none }
  let w := port s (qpPort q)
  let s := setPort s (qpPort q) { w with txq := w.txq.filter fun f => !(f.qp = q && f.hdr.opcode ≠ 2 && tail.any fun g => g.hdr.psn = f.hdr.psn) }
  let s := setQp s q { v with frames := v.frames.take (v.frames.length - n) ++ kept, txPsn := (first + kept.length) % 2 ^ 32,
                              msgs := v.msgs.filter fun m => !hit.contains m }
  pump (hit.foldl (fun s m => msgEnded s m.owner .aborted) s) q

/-- The same for every QP of a partition. -/
def dropUnsent (s : State) (p : Nat) : State :=
  (s.qps.filter fun x => x.2.part = p ∧ x.2.isOpen).foldl (fun s x => dropTail s x.1) s

/-! ### Acknowledgements at the receiver (R362) -/

/-- Sends an ack of a QP: the next PSN expected, the 32 PSNs above it, the CE echo; or a refusal of one PSN. -/
def sendAck (s : State) (q : Nat) (refused : Option (Nat × Status)) : State :=
  let v := qp s q
  let sack := (List.range 32).foldl (fun m i => if v.seen.contains ((v.expect + 1 + i) % 2 ^ 32) then bitSet m i else m) 0
  let h := { hdr0 with opcode := 2, dstQp := v.remote, srcQp := q, ecnEcho := v.echo, sack := sack, ackPsn := v.expect }
  let h := match refused with
    | some (psn, st) => { h with ackPsn := psn, code := stCode st, sack := 0, ecnEcho := false }
    | none => h
  let s := enqueue s (qpPort q) ⟨v.part, v.peer, q, false, 3, h, [], cTag s v.part false, false, none⟩
  match refused with
  | some _ => bump (bump s kHrtRefusalsSent 1 (some v.part)) kHrtAcksSent 1 (some v.part)
  | none => bump (setQp s q { v with sinceAck := 0, ackDue := none, echo := false }) kHrtAcksSent 1 (some v.part)

end Sys2Proof.Machine
end

