-- ==== Sys2Proof/Machine/Infl.lean ====
section
/-! DEFINITION. The inflector (R98 to R107) and the watch (R113 to R121). -/

namespace Sys2Proof.Machine

/-! ### Walks (R102 to R104, R516) -/

def clampScale (x : Int) : Nat := if x < 0 then 0 else if 254 < x then 254 else x.toNat

/-- One block at commit (Table 2 of 04): the new scale and state. -/
def commitBlock (op : Option ScaleOp) (e st : Nat) : Nat × Nat :=
  if e = 255 then (255, 2)
  else if st = 2 then (e, 2)
  else if st = 1 then
    match op with
    | none => (clampScale (e + 1), 0)
    | some (.shift x) => (clampScale (e + 1 + max x 0), 0)
    | some .fresh => (clampScale (e + 1), 2)
  else
    match op with
    | none => (e, 0)
    | some (.shift x) => (clampScale (e + x), 0)
    | some .fresh => (e, 2)

/-- One block at abort (R104). -/
def abortBlock (e st : Nat) : Nat × Nat := if e = 255 then (255, 2) else if st = 1 then (e, 0) else (e, st)

/-- What a walk leaves: the state, the scale entries and map bytes written, and the pieces that failed or were poisoned. -/
structure Walked where
  s : State
  scales : List (Nat × Nat)
  maps : List (Nat × Nat)
  fails : List (Nat × Status)
  deriving DecidableEq, Repr

/-- One block of a noun in one core's view: scale entry and map byte rewritten. -/
def walkBlock (commit : Bool) (op : Option ScaleOp) (p : Option Nat) (r : RNoun) (core b : Nat) (x : Walked) : Walked :=
  let s := x.s
  let c := r.n.format
  let sa := scaleAddr r core b
  let ma := mapAddr r core b
  if badAt s.mem ma then
    let (s, st) := storePoison s sa (scaleBytes c) p
    { x with s := s, fails := x.fails ++ [(sa, if st = .ok then .poisoned else st)] }
  else if badAt s.mem sa then { x with fails := x.fails ++ [(sa, .poisoned)] }
  else
    let mapv := memNat s ma 1
    let st := bits mapv (2 * (b % 4)) 2
    let word := memNat s sa (scaleBytes c)
    let e := word % 256
    let (e', st') := if commit then commitBlock op e st else abortBlock e st
    let s := if commit ∧ st = 1 ∧ e < 254 then bump s kScaleDoublings 1 p else s
    let x := { x with s := s }
    let x := if e' = e then x
      else { x with s := putCells x.s sa (leBytes (scaleBytes c) (word - e + e')), scales := x.scales ++ [(sa, scaleBytes c)] }
    if st' = st then x
    else { x with s := putCells x.s ma (leBytes 1 (mapv - st * 4 ^ (b % 4) + st' * 4 ^ (b % 4))), maps := x.maps ++ [(ma, 1)] }

/-- The walk of one noun-table entry by a descriptor: skipped where its scale array or map lies outside the allotment (R102); else
every block is updated, in every core's scratch for a scratch noun. Op and dirty bit are cleared. Answers the status of the
lowest-addressed entry that failed or read poisoned (R221, R222). -/
def walkBy (commit : Bool) (k h : Nat) (d : Option RNoun) (s : State) : State × Status :=
  match tget none (con s k).nouns h with
  | none => (s, .ok)
  | some e =>
    let p := conPart s k
    let clear (s : State) (walk : Bool) : State :=
      modCon s k fun c => { c with nouns := tset none c.nouns h (some { e with dirty := false, op := none, walk := walk }) }
    match d with
    | none => (clear s false, .ok)
    | some r =>
      let n := nounBlocks r.n
      let inside := rangeInTier s (p.getD 40) r.n.tier r.n.scalePtr (n * scaleBytes r.n.format) true &&
        rangeInTier s (p.getD 40) r.n.tier r.map (ceilDiv n 4) true
      if !isBlockFmt r.n.format then (clear s false, .ok)
      else if !inside then (clear (bump s kScaleWalksSkipped 1 p) false, .ok)
      else
        let one (core : Nat) (x : Walked) : Walked := upto n (walkBlock commit (e.op.map (·.1)) p r core) x
        let x : Walked := ⟨s, [], [], []⟩
        let x := if r.n.tier = 0 then upto 20 (fun i x => one (20 * k + i) x) x else one 0 x
        (clear (endWrite (endWrite x.s x.scales x.scales p) x.maps x.maps p) commit, lowestFail x.fails)

/-- The walk of an entry as the table holds it (R102). DESIGN CHOICE: of an entry with a loop advance, the view at loop indices 0 is
walked; R102 does not say which iterations' arrays it covers. -/
def walkNoun (commit : Bool) (k h : Nat) (s : State) : State :=
  match tget none (con s k).nouns h with
  | none => s
  | some e => (walkBy commit k h (effective h e.noun []) s).1

/-- The consists of a partition. -/
def consistsOf (s : State) (p : Nat) : List Nat := bitList 40 (grantOf s p).consists

/-- Walks every dirty noun of a partition's consists (R102, R104). -/
def walkAll (commit : Bool) (p : Nat) (s : State) : State :=
  (consistsOf s p).foldl (fun s k =>
    ((con s k).nouns.filter fun x => match x.2 with
      | some e => e.dirty
      | none => false).foldl (fun s x => walkNoun commit k x.1 s) s) s

/-- INFLECTOR_WALK_END (R103): verbs stalled on the noun may issue; one that its tokens alone hold now waits from this tick (R191). -/
def execInflectorWalkEnd (k handle : Nat) (s : State) : Host.Outcome State Fault Refusal :=
  guardWf (decide (k < 40 ∧ handle < 4096))
    (match tget none (con s k).nouns handle with
    | some e => if e.walk then markWaits k (modCon s k fun c => { c with nouns := tset none c.nouns handle (some { e with walk := false }) }) else s
    | none => s)

/-! ### scale_adjust (R106, R107) -/

/-- Whether verb number a stands after b in the consist's stream, by the shorter way round the 2^32 numbers. -/
def verbAfter (a b : Nat) : Bool := decide ((a + 2 ^ 32 - b % 2 ^ 32) % 2 ^ 32 < 2 ^ 31)

/-- Runs verb `vi`, a `scale_adjust`, on the inflector by the descriptor that it carries (R128): `none` is `apply`. Of several in
one step the last of the stream stays recorded, whichever runs last. -/
def scaleAdjust (k vi h : Nat) (r : RNoun) (op : Option ScaleOp) (open' : Bool) (s : State) : State × Status :=
  match tget none (con s k).nouns h with
  | none => (s, .malformed)
  | some e =>
    let p := conPart s k
    if !isBlockFmt r.n.format then (s, .malformed)
    else
      match op with
      | none => if open' then (s, .malformed) else walkBy true k h (some r) (bump s kScaleAdjusts 1 p)
      | some o =>
        let bad := match o with
          | .shift x => x = 0 || x < -15 || 15 < x
          | .fresh => false
        if bad then (s, .malformed)
        else
          let late : Bool := match e.op with
            | some (_, v) => verbAfter v vi
            | none => false
          let op := if late then e.op else some (o, vi)
          (bump (modCon s k fun c => { c with nouns := tset none c.nouns h (some { e with dirty := true, op := op }) })
            kScaleAdjusts 1 p, .ok)

/-! ### The watch (R114 to R119) -/

def fAdd (a b : Nat) : Nat := c32 ((v32 a).add (v32 b))
def fSub (a b : Nat) : Nat := c32 ((v32 a).sub (v32 b))
def fMul (a b : Nat) : Nat := c32 ((v32 a).mul (v32 b))
def fDiv (a b : Nat) : Nat := c32 ((v32 a).div (v32 b))
def fSqrt (a : Nat) : Nat := c32 (v32 a).sqrt
def fFma (a b c : Nat) : Nat := c32 (((v32 a).mul (v32 b)).add (v32 c))
def fOne : Nat := 0x3F800000

/-- The test of R116 at submission. -/
def watchSpike (s : State) (p loss : Nat) : Bool :=
  let sg := c32 ((v32 (fSqrt (odN s (kLossVar p)))).max (v32 (odN s (kSigmaFloor p))))
  let d := fSub loss (odN s (kLossMean p))
  let lim := fMul (odN s (kSpikeK p)) sg
  (v32 loss).isFin && decide (odN s (kWarmupSteps p) ≤ odN s (kStepsAbsorbed p)) &&
    (v32 lim).lt (if odN s (kSpikeSided p) = 0 then v32 d else (v32 d).abs)

/-- Submits the step's loss (R114, R115). -/
def watchSubmit (s : State) (p loss : Nat) : State × Status :=
  match (part s p).watch.loss with
  | some _ => (s, .malformed)
  | none =>
    let sp := odN s (kWatchEnable p) = 1 && watchSpike s p loss
    let s := modPart s p fun q => { q with watch := { q.watch with loss := some (BitVec.ofNat 32 loss), spike := sp } }
    (odSet s (kLossLast p) loss, .ok)

/-- Absorbs the loss of a committed step (R116). -/
def watchAbsorb (s : State) (p : Nat) : State :=
  match (part s p).watch.loss with
  | none => s
  | some l =>
    if odN s (kWatchEnable p) = 0 then s
    else
      let loss := l.toNat
      let n := odN s (kStepsAbsorbed p)
      let b := odN s (kEwmaBeta p)
      let s := if n = 0 then odSet (odSet s (kLossMean p) loss) (kLossVar p) 0
        else
          let mu := odN s (kLossMean p)
          let d := fSub loss mu
          let g := fSub fOne b
          let s' := odSet s (kLossMean p) (fAdd mu (fMul g d))
          odSet s' (kLossVar p) (fMul b (fAdd (odN s (kLossVar p)) (fMul (fMul g d) d)))
      odSet s (kStepsAbsorbed p) ((n + 1) % 2 ^ 32)

/-- Latches the step's counts, forms the flags and the outcome at the module's vote (R113, R117, R121). Writes that waited
for the vote, all of the watch's own objects (0x81pp), take effect first. -/
def watchVote (s : State) (p : Nat) : State × Nat :=
  let w := (part s p).watch
  let s := w.shadow.foldl (fun s x => match x.2 with
    | some v => if x.1 / 65536 = 0x81 then odPut s x.1 v else s
    | none => s) s
  let s := odSet (odSet (odSet s (kNonfiniteLastStep p) w.nonfinite) (kZeroedLastStep p) w.zeroed) (kOverflowedLastStep p) w.overflowed
  let on := odN s (kWatchEnable p) = 1
  let nf := match w.loss with
    | some l => !(v32 l.toNat).isFin
    | none => false
  let lim := odN s (kOverflowLimit p)
  let f0 := on && w.spike
  let f1 := on && nf
  let f2 := on && decide (0 < w.nonfinite)
  let f3 := on && decide (0 < lim ∧ lim < w.overflowed)
  let f4 := on && w.loss = none
  let b (x : Bool) (v : Nat) : Nat := if x then v else 0
  let flags := b f0 1 + b f1 2 + b f2 4 + b f3 8 + b f4 16
  let outcome := max (max (b f0 (odN s (kPolicySpike p))) (b (f1 || f4) (odN s (kPolicyNonfiniteLoss p))))
    (max (b f2 (odN s (kPolicyNonfiniteCount p))) (b f3 (odN s (kPolicyOverflow p))))
  let s := odSet s (kFlagsLastStep p) flags
  (modPart s p fun q => { q with watch := { q.watch with shadow := [] } }, outcome)

/-- The watch of the next step. -/
def watchNext (s : State) (p : Nat) : State :=
  modPart s p fun q => { q with watch := { q.watch with loss := none, spike := false, nonfinite := 0, zeroed := 0, overflowed := 0 } }

end Sys2Proof.Machine
end

