-- ==== Sys2Proof/Machine/Yard.lean ====
section
/-! DEFINITION. The yard units (R269 to R288, R293 to R295): state layout, shard and layer records, acceptance, rules, the
apply of a shard. -/

namespace Sys2Proof.Machine

/-! ### Records (Tables 1 to 3 of 10) -/

def parseShard (bs : List Byte) : Shard × Nat :=
  let v := leNat bs
  ({ counter := bits v 448 64, stateBase := bits v 400 48, gradAddr := bits v 352 48, wcAddr := bits v 304 48,
     wcScale := bits v 256 48, freeze := bits v 208 48, paramBase := bits v 160 48, count := bits v 128 32,
     layer := bits v 112 16, readySem := bits v 96 16, gradFormat := bits v 88 8, state := bits v 80 8 }, bits v 0 80)

def parseLayer (bs : List Byte) : Layer × Nat :=
  let v := leNat bs
  ({ lrMult := bits v 224 32, decay := bits v 192 32, user0 := bits v 160 32, user1 := bits v 128 32, k := bits v 8 8,
     wcFormat := bits v 4 4, frozen := bits v 0 1 = 1 }, bits v 16 112 + bits v 1 3)

def parseCmd (bs : List Byte) : UpdCmd × Nat :=
  let v := leNat bs
  ({ step := bits v 448 64, lr := bits v 416 32, beta1 := bits v 384 32, beta2 := bits v 352 32, epsilon := bits v 320 32,
     gradMult := bits v 288 32, user2 := bits v 256 32, user3 := bits v 224 32, table := bits v 176 48,
     first := bits v 160 16, count := bits v 144 16, rule := bits v 136 8, jobTag := bits v 96 32 },
   bits v 128 8 + bits v 0 96)

/-- The layer's k as an integer (R108). -/
def layerK (l : Layer) : Int := codeInt 8 l.k

/-- Whether an entry may stand in the shadow copy (R276). -/
def layerOk (l : Layer) (res : Nat) : Bool :=
  res = 0 && decide (-32 ≤ layerK l ∧ layerK l ≤ 32) && [1, 3, 4, 6, 7, 8, 9, 10, 11].contains l.wcFormat

/-- Address of a committed or shadow layer entry (R275). -/
def layerAddr (s : State) (p l : Nat) (shadow : Bool) : Nat :=
  odN s (kLayerTableAddr p) + 32 * l + (if shadow then 0x2_0000 else 0)

/-- Reset bytes of a layer entry (Table 2 of 10). -/
def layerReset : List Byte := leBytes 32 (0x3F80_0000 * 2 ^ 224 + 0x3 * 16)

/-- Sets both copies to the reset values (R275): 8,192 entries. -/
def layerTableReset (s : State) (a : Nat) : State := poke s a ((List.replicate 8192 layerReset).flatten)

/-- Writes a shadow entry and marks it changed (R276): refused where it breaks Table 2. -/
def layerWrite (s : State) (p l : Nat) (bs : List Byte) : State × Status :=
  let (e, res) := parseLayer bs
  if odN s (kLayerTableAddr p) = 0 ∨ 4096 ≤ l ∨ !layerOk e res then (s, .malformed)
  else
    let s := poke s (layerAddr s p l true) bs
    (modStep s p fun x => { x with layersChanged := setAdd x.layersChanged l }, .ok)

/-- Copies the changed entries into the committed copy (R276). -/
def layerCommit (s : State) (p : Nat) : State :=
  let s := (part s p).step.layersChanged.foldl (fun s l =>
    poke s (layerAddr s p l false) (memRead s.mem (layerAddr s p l true) 32)) s
  modStep s p fun x => { x with layersChanged := [] }

/-! ### State layout (R272) -/

def dataChunks (s : State) (a : Nat) : Nat := if farProtected s ((a - farBase) / 0x20_0000_0000) then 7 else 8

/-- Address of quantity r (0 w, 1 m, 2 v) of parameter p. -/
def stateAddr (d base p r : Nat) : Nat :=
  let pb := 4096 * d
  let b := p / pb
  let x := p % pb
  let q := x / (512 * d)
  let i := x % (512 * d) / 512
  base + b * (24 * 2048 * d) + ((8 * r + q) * d + i) * 2048 + 4 * (x % 512)

/-- The group of a shard's state, and whether all of it lies in one group (R269, R272). -/
def shardGroup (sh : Shard) : Nat := (sh.stateBase - farBase) / 0x20_0000_0000

def stateInGroup (s : State) (sh : Shard) : Bool :=
  isFar sh.stateBase && isFar (sh.stateBase + shardStateBytes s sh - 1) &&
  (sh.stateBase + shardStateBytes s sh - 1 - farBase) / 0x20_0000_0000 = shardGroup sh &&
  (sh.stateBase - farBase) % 0x20_0000_0000 % (2048 * dataChunks s sh.stateBase) = 0

/-! ### Acceptance (R277 to R281) -/

/-- Scalars of a command in range (Table 3 of 10), which gives `lr` and `grad_mult` none. -/
def scalarsOk (c : UpdCmd) : Bool :=
  let beta (b : Nat) : Bool := match v32 b with
    | .fin sg m _ => (!sg || m = 0) && (v32 b).lt (v32 fOne)
    | _ => false
  beta c.beta1 && beta c.beta2 && (match v32 c.epsilon with
    | .fin sg m _ => !sg && m ≠ 0
    | .inf sg => !sg
    | .nan => false) && decide (c.rule < 8) && 1 ≤ c.count

/-- Whether a shard's ranges lie where Table 1 of 10 puts them (R199, R274): its descriptor, gradient, working copy, scale array and
freeze mask in the near tier, its state in the far tier. -/
def shardPlaced (s : State) (x : Accepted) : Bool :=
  (shardRanges s x).zipIdx.all fun r => region s r.1.1 = (if r.2 = 1 then .far else .near)

/-- The status of one shard's checks (R279), in their order; a table that does not lie on 64 bytes is malformed (R274). What can be
malformed of the command is looked at first; the contents of a record that lies out of reach or reads poisoned are not looked at. -/
def shardCheck (s : State) (p : Nat) (c : UpdCmd) (res : Nat) (a : Nat) : Status × Accepted :=
  let (sh, sres) := parseShard (memRead s.mem a 64)
  let (ly, lres) := parseLayer (memRead s.mem (layerAddr s p sh.layer false) 32)
  let acc : Accepted := ⟨c, a, sh, ly, odN s (kSrSeed p), false, 0, false⟩
  let command := res ≠ 0 || !scalarsOk c || !bitOf (odN s (kRuleSlotsLoaded p)) c.rule || a % 64 ≠ 0 || odN s (kLayerTableAddr p) = 0
  let malformed := sres ≠ 0 || lres ≠ 0 || sh.count = 0 || 4096 ≤ sh.layer || 1 < sh.gradFormat || 2 < sh.state ||
    !stateInGroup s sh || (isBlockFmt ly.wcFormat && sh.wcScale = 0) || (!isBlockFmt ly.wcFormat && sh.wcScale ≠ 0)
  if command then (.malformed, acc)
  else if region s a ≠ .near then (.denied, acc)
  else if rangeLost s a 64 || rangeLost s (layerAddr s p sh.layer false) 32 then (.poisoned, acc)
  else if malformed then (.malformed, acc)
  else if !shardPlaced s acc || (shardRanges s acc).any fun r => !allotted s p r.1 r.2 true || !(touch s r.1 r.2).2 then (.denied, acc)
  else if sh.state = 2 then (.poisoned, acc)
  else if sh.counter ≠ c.step then (.counterSkew, acc)
  else (.ok, acc)

/-- Writes the `shard_state` octet of a descriptor. -/
def setShardState (s : State) (a st : Nat) : State := poke s (a + 10) (leBytes 1 st)

/-- Accepted shards that are not yet applied return to clean (R280, R290). -/
def shardsClean (s : State) (p : Nat) : State :=
  let s := ((part s p).step.shards.filter fun x => !x.applying).foldl (fun s x => setShardState s x.addr 0) s
  modStep s p fun x => { x with shards := x.shards.filter (·.applying), cmd := none, checked := [], owner := none, cmds := [] }

/-- The apply of the accepted shards begins (R290). -/
def shardsApply (s : State) (p : Nat) : State :=
  modStep s p fun x => { x with shards := x.shards.map fun a => { a with applying := true }, cmd := none, checked := [], owner := none, cmds := [] }

/-- Whether the command in hand has shards that are not decided. -/
def undecided (x : StepSt) : Bool := match x.cmd with
  | some c => decide (x.checked.length < c.count)
  | none => false

/-- The command of a partition is taken up by the yard units: every pair checks the shards it names, one by one. A
command waits while an earlier one is undecided. -/
def updateHand (s : State) (p : Nat) (c : UpdCmd) (owner : Nat × Nat) : State :=
  modStep s p fun x =>
    if undecided x then { x with cmds := x.cmds ++ [(c, owner)] } else { x with cmd := some c, checked := [], owner := some owner }

/-- The next command that waits. -/
def updateNext (s : State) (p : Nat) : State :=
  modStep s p fun x => match x.cmds with
    | (c, o) :: r => { x with cmd := some c, checked := [], owner := some o, cmds := r }
    | [] => x

/-- Marks all parts of a verb ended. -/
def endVerb (s : State) (k vi : Nat) (st : Status) : State :=
  modCon s k fun c => { c with verbs := c.verbs.map fun e => if e.vi = vi then { e with parts := List.replicate 20 (some st) } else e }

/-- The yard's decision on a whole command: the status of the lowest-numbered failing shard (R279). -/
def firstRefused (l : List (Nat × Status)) : Status :=
  match l.foldl (fun (m : Option (Nat × Status)) x =>
      if x.2 = .ok then m
      else match m with
        | none => some x
        | some y => if x.1 < y.1 then some x else m) none with
  | some (_, st) => st
  | none => .ok

/-- One shard's check (R279): waits while an earlier apply of the shard runs. -/
def updateShardCheck (s : State) (p d : Nat) : State :=
  match (part s p).step.cmd with
  | none => s
  | some c =>
    let a := c.table + 64 * d
    if d < c.first ∨ c.first + c.count ≤ d ∨ (part s p).step.checked.any (·.1 = d) then s
    else if (part s p).step.shards.any fun x => x.addr = a ∧ x.applying then s
    else
      let (st, acc) := shardCheck s p c 0 a
      let s := if st = .ok then (shardRanges s acc).foldl (fun s r => (touch s r.1 r.2).1) s else s
      let s := if st = .ok then
          modStep (setShardState s a 1) p fun x => { x with shards := x.shards ++ [{ acc with shard := { acc.shard with state := 1 } }] }
        else if st = .counterSkew then bump s kYardCounterSkews 1 (some p)
        else if st = .denied then countDenied s (some p) else s
      let s := modStep s p fun x => { x with checked := x.checked ++ [(d, st)] }
      let x := (part s p).step
      if x.checked.length < c.count then s
      else
        match x.owner with
        | some (k, vi) => updateNext (endVerb s k vi (firstRefused x.checked)) p
        | none => updateNext s p

/-- UPDATE_SHARD_CHECK (R279). -/
def execUpdateShardCheck (p shard : Nat) (s : State) : Host.Outcome State Fault Refusal :=
  guardWf (decide (p < 40)) (updateShardCheck s p shard)

/-! ### Rules (R282, R286 to R288) -/

def yadd (a b : Nat) : Nat := fAdd a b

/-- Scalars of a shard's apply. -/
structure YScal where
  lrEff : Nat
  b1 : Nat
  b2 : Nat
  eps : Nat
  lam : Nat
  ibc1 : Nat
  ibc2 : Nat
  t : Nat
  user0 : Nat
  user1 : Nat
  user2 : Nat
  user3 : Nat
  deriving DecidableEq, Repr

def yscal (x : Accepted) : YScal :=
  let t := c32 (ofInt (x.cmd.step + 1))
  let bc (b : Nat) : Nat := fSub fOne (c32 (v32 (fMul t (c32 (v32 b).log2))).exp2)
  { lrEff := fMul x.cmd.lr x.layer.lrMult, b1 := x.cmd.beta1, b2 := x.cmd.beta2, eps := x.cmd.epsilon, lam := x.layer.decay,
    ibc1 := fDiv fOne (bc x.cmd.beta1), ibc2 := fDiv fOne (bc x.cmd.beta2), t := t, user0 := x.layer.user0,
    user1 := x.layer.user1, user2 := x.cmd.user2, user3 := x.cmd.user3 }

def fNeg (a : Nat) : Nat := c32 (v32 a).neg

/-- One instruction of a custom rule. -/
def yinstr (r : List Nat) (i : YInstr) : List Nat :=
  let g (n : Nat) : Nat := lget 0 r n
  match i with
  | .add d a b => lset r d (fAdd (g a) (g b))
  | .sub d a b => lset r d (fSub (g a) (g b))
  | .mul d a b => lset r d (fMul (g a) (g b))
  | .fma d a b c => lset r d (fFma (g a) (g b) (g c))
  | .div d a b => lset r d (fDiv (g a) (g b))
  | .sqrt d a => lset r d (fSqrt (g a))
  | .exp2 d a => lset r d (c32 (v32 (g a)).exp2)
  | .log2 d a => lset r d (c32 (v32 (g a)).log2)
  | .fmin d a b => lset r d (c32 ((v32 (g a)).min (v32 (g b))))
  | .fmax d a b => lset r d (c32 ((v32 (g a)).max (v32 (g b))))
  | .mov d a => lset r d (g a)
  | .imm d v => lset r d v.toNat

/-- The rule: (w′, m′, v′) from (g, w, m, v). Table 4 marks no line fma: g + λw and the lines of slot 2 round every operation
(R286); slot 1 keeps the marks of slot 0's lines. -/
def runRule (rules : Tab (List YInstr)) (slot : Nat) (q : YScal) (g w m v : Nat) : Nat × Nat × Nat :=
  let adam (g : Nat) : Nat × Nat × Nat :=
    let m1 := fFma q.b1 m (fMul (fSub fOne q.b1) g)
    let v1 := fFma q.b2 v (fMul (fMul (fSub fOne q.b2) g) g)
    (m1, v1, fDiv (fMul m1 q.ibc1) (fAdd (fSqrt (fMul v1 q.ibc2)) q.eps))
  let gd := fAdd g (fMul q.lam w)
  match slot with
  | 0 =>
    let (m1, v1, u) := adam g
    (fFma (fNeg q.lrEff) (fFma q.lam w u) w, m1, v1)
  | 1 =>
    let (m1, v1, u) := adam gd
    (fFma (fNeg q.lrEff) u w, m1, v1)
  | 2 =>
    let m1 := fAdd (fMul q.b1 m) gd
    (fSub w (fMul q.lrEff m1), m1, v)
  | n =>
    let r := (tget [] rules n).foldl yinstr
      [g, w, m, v, q.lrEff, q.b1, q.b2, q.eps, q.lam, q.ibc1, q.ibc2, q.t, q.user0, q.user1, q.user2, q.user3]
    (lget 0 r 1, lget 0 r 2, lget 0 r 3)

/-! ### Stochastic rounding (R59, R284) -/

def srRandom (seed t j : Nat) : Nat :=
  let m := 2 ^ 64
  let x := (seed ^^^ (t * 0x9E3779B97F4A7C15 % m)) ^^^ (j * 0xD1B54A32D192ED03 % m)
  let x := (x ^^^ (x >>> 30)) * 0xBF58476D1CE4E5B9 % m
  let x := (x ^^^ (x >>> 27)) * 0x94D049BB133111EB % m
  (x ^^^ (x >>> 31)) % 2 ^ 16

/-- Stochastic rounding of a finite value to a format with a 16-bit random number (R59). DESIGN CHOICE: where "R48 then applies",
overflow is looked for in the stochastically rounded value. -/
def stochEncode (f : Fmt) (v : Val) (r : Nat) : Nat :=
  match v with
  | .fin neg m e =>
    if m = 0 then signed f neg 0
    else
      let (n, d) := dyadic m e
      let emin : Int := 1 - (f.bias : Int)
      let e0 := max (floorLog2 n d) emin
      let sh := (f.mb : Int) - e0
      let (n, d) := if 0 ≤ sh then (n * 2 ^ sh.toNat, d) else (n, d * 2 ^ (-sh).toNat)
      let q := n / d
      let dd := n % d * 2 ^ 16 / d
      let body := (e0 - emin).toNat * 2 ^ f.mb + (if 2 ^ 16 ≤ dd + r then q + 1 else q)
      let body := if f.maxBody < body then (if f.wide then f.infBody.getD f.maxBody else f.maxBody) else body
      signed f neg body
  | v => (encodeVal f v).code

/-! ### The apply of one shard (R283, R285, R286, R293 to R295) -/

/-- The block-scaled working copy of 32 parameters (R285): the block and its scale entry. A master that is not finite makes a block
of +0 under scale 0xFF (R50). -/
def wcBlock (c : Nat) (ws : List Nat) (rnd : Nat → Nat) : Nat × Nat :=
  if ws.any fun w => !(v32 w).isFin then (0, 0xFF)
  else
    let e := freshScale c (amaxOf (ws.map v32))
    let offs := (List.range 4).map fun j => if c = 11 then hs4Offset e (amaxOf (((ws.drop (8 * j)).take 8).map v32)) else 0
    let blk := ws.zipIdx.foldl (fun b w =>
      let u := unscaleBy e (v32 w.1)
      let u := if c = 11 then u.mul (.fin false 1 (lget 0 offs (w.2 / 8) : Int)) else u
      setBlockElem c b w.2 (stochEncode (elemFmt c) u (rnd w.2))) 0
    (blk, if c = 11 then e + (lget 0 offs 0) * 2 ^ 8 + (lget 0 offs 1) * 2 ^ 10 + (lget 0 offs 2) * 2 ^ 12 + (lget 0 offs 3) * 2 ^ 14 else e)

/-- The bytes of the working copy that 32 parameters take. -/
def wcSpan (x : Accepted) (first n : Nat) : Nat × Nat :=
  let c := x.layer.wcFormat
  if isBlockFmt c then (x.shard.wcAddr + first / 32 * blockBytes c, blockBytes c)
  else (x.shard.wcAddr + first * elemBytes c, n * elemBytes c)

/-- Working-copy elements, and scale entry, of the parameters from `first` on, from their masters; answers what it has written. -/
def wcWrite (s : State) (x : Accepted) (first : Nat) (ws : List Nat) : State × List (Nat × Nat) :=
  let c := x.layer.wcFormat
  let rnd (i : Nat) : Nat := srRandom x.seed (x.cmd.step + 1) (x.shard.paramBase + first + i)
  let span := wcSpan x first ws.length
  if isBlockFmt c then
    let (blk, word) := wcBlock c ws rnd
    let sa := x.shard.wcScale + first / 32 * scaleBytes c
    (putCells (putCells s span.1 (leBytes (blockBytes c) blk)) sa (leBytes (scaleBytes c) word), [span, (sa, scaleBytes c)])
  else
    (putCells s span.1 (ws.zipIdx.flatMap fun w => leBytes (elemBytes c) (stochEncode (elemFmt c) (v32 w.1) (rnd w.2))), [span])

/-- Address of the freeze mask's byte for the 32 parameters of group z. -/
def freezeAddr (x : Accepted) (z : Nat) : Nat := x.shard.freeze + z / 8

/-- Whether the 32 parameters of group z are frozen (R283). -/
def groupFrozen (s : State) (x : Accepted) (z : Nat) : Bool :=
  x.layer.frozen || (x.shard.freeze ≠ 0 && bitOf (memNat s (freezeAddr x z) 1) (z % 8))

/-- Bytes of one gradient element. -/
def gradBytes (x : Accepted) : Nat := if x.shard.gradFormat = 0 then 4 else 2

/-- The quantities of a parameter that the rule reads and writes: slot 2 neither reads nor writes v (Table 4 of 10). -/
def quantities (x : Accepted) : List Nat := if x.cmd.rule = 2 then [0, 1] else [0, 1, 2]

/-- The lines that the apply of some groups reads: the freeze mask's, and state and gradient of the parameters that are not frozen
(R283). -/
def applyLines (s : State) (x : Accepted) (zs : List Nat) : List Nat :=
  let sh := x.shard
  let d := dataChunks s sh.stateBase
  (zs.flatMap fun z =>
    (if x.layer.frozen ∨ sh.freeze = 0 then [] else [lineOf (freezeAddr x z)]) ++
    (if groupFrozen s x z then []
     else (List.range (min 32 (sh.count - 32 * z))).flatMap fun i =>
      lineOf (sh.gradAddr + (32 * z + i) * gradBytes x) ::
        (quantities x).map fun r => lineOf (stateAddr d sh.stateBase (32 * z + i) r))).eraseDups

/-- What the apply of some groups has done: the state, whether a bad line was met, the runs of the working copy written, and those
that are to be marked poisoned once every group is done. -/
structure Applied where
  s : State
  bad : Bool
  runs : List (Nat × Nat)
  marks : List (Nat × Nat)

/-- One group of 32 parameters (one lane each). `before` is the state whose marks the apply reads, so that what it poisons itself is
not taken for a bad line. -/
def applyGroup (before : State) (p : Nat) (x : Accepted) (q : YScal) (z : Nat) (y : Applied) : Applied :=
  let s := y.s
  let sh := x.shard
  let first := 32 * z
  let n := min 32 (sh.count - first)
  let badMask : Bool := !x.layer.frozen && sh.freeze ≠ 0 && rangeLost before (freezeAddr x z) 1
  if !badMask && groupFrozen s x z then { y with s := bump s kYardParamsFrozen n (some p) }
  else
    let d := dataChunks s sh.stateBase
    let res := (List.range n).map fun i =>
      let pi := first + i
      let at' (r : Nat) : Nat := stateAddr d sh.stateBase pi r
      let ag := sh.gradAddr + pi * gradBytes x
      let bad := badMask || ((quantities x).any fun r => rangeLost before (at' r) 4) || rangeLost before ag (gradBytes x)
      let old := (List.range 3).map fun r => memNat s (at' r) 4
      let gr := if sh.gradFormat = 0 then v32 (memNat s ag 4) else decodeVal fmtBf16 (memNat s ag 2)
      let g := fMul (c32 (gr.mul (.fin false 1 (-(layerK x.layer))))) x.cmd.gradMult
      let (w', m', v') := runRule (part s p).step.rules x.cmd.rule q g (lget 0 old 0) (lget 0 old 1) (lget 0 old 2)
      let new := [w', m', v']
      let keep := !((v32 g).isFin && (quantities x).all fun r => (v32 (lget 0 new r)).isFin)
      (bad, keep, (if keep then old else new), (quantities x).map fun r => (at' r, r))
    let s := res.foldl (fun s (bad, keep, vals, at') =>
      if bad then s
      else
        let s := bump (bump s kYardNonfiniteKept (if keep then 1 else 0) (some p)) kYardParamsUpdated 1 (some p)
        at'.foldl (fun s a => putCells s a.1 (leBytes 4 (lget 0 vals a.2))) s) s
    if res.any (·.1) then
      -- R294: the working-copy elements derived from the bad line are written poisoned, with the scale entry made of them (R222)
      let c := x.layer.wcFormat
      let scale := if isBlockFmt c then [(x.shard.wcScale + z * scaleBytes c, scaleBytes c)] else []
      let state := (res.filter (·.1)).flatMap fun r => r.2.2.2.map fun a => (a.1, 4)
      ⟨s, true, y.runs, y.marks ++ wcSpan x first n :: scale ++ state⟩
    else
      let (s, runs) := wcWrite s x first (res.map fun r => lget 0 r.2.2.1 0)
      ⟨s, y.bad, y.runs ++ runs, y.marks⟩

/-- Applies the groups of a shard from the first that is not done up to `last`, under what the error correction finds (R212, R213,
R294); lines of the working copy written whole lose their marks (R220). What is poisoned is marked unit by unit: the units write whole
stripes, so a mark causes no read-modify-write (R273). -/
def applyRange (s : State) (p : Nat) (x : Accepted) (last : Nat) (e : Ecc) : State × Bool :=
  let zs := (List.range last).filter fun z => decide (x.done ≤ z)
  let lines := applyLines s x zs
  let far := lines.filter fun l => isFar (l * 64)
  let (s, lost1) := eccLines s x.shard.stateBase far e (some p)
  let (s, lost2) := eccLines s x.shard.gradAddr (lines.filter fun l => !isFar (l * 64)) e (some p)
  let before := { s with mem := { s.mem with unread := lost1 ++ lost2 } }
  let y := zs.foldl (fun y z => applyGroup before p x (yscal x) z y) ⟨s, x.bad, [], []⟩
  let s := (mergeRuns y.runs).foldl (fun s r => clearMarks s r.1 r.2) y.s
  let unit (a : Nat) : Nat := if isFar a then chunkOf a * 2048 else lineOf a * 64
  ((((y.marks.flatMap fun r => pieces r.1 r.2).map fun q => unit q.1).eraseDups).foldl (fun s a => (poisonPiece s a (some p)).1) s, y.bad)

/-- Groups of 32 parameters in a stripe of each quantity (R272). -/
def stripeGroups (s : State) (x : Accepted) : Nat := 16 * dataChunks s x.shard.stateBase

/-- The stripes that the last, partly filled block reads and modifies, one for each quantity, where it holds a parameter that is not
frozen (R211, R273). -/
def tailStripes (s : State) (x : Accepted) : Nat :=
  let n := ceilDiv x.shard.count 32
  let tail := x.shard.count / (32 * stripeGroups s x) * stripeGroups s x
  if dataChunks s x.shard.stateBase = 7 ∧ x.shard.count % (32 * stripeGroups s x) ≠ 0 ∧
    ((List.range n).any fun z => decide (tail ≤ z) && !groupFrozen s x z) then (quantities x).length else 0

/-- Whether a shard is the next that its pair applies: the first of the earliest command, and in it the lowest descriptor (R293). -/
def applyNext (l : List Accepted) (x : Accepted) : Bool :=
  x.applying &&
  let mine := l.filter fun y => y.applying && shardGroup y.shard = shardGroup x.shard
  match mine.head? with
  | some h => h.cmd = x.cmd && mine.all fun y => y.cmd ≠ x.cmd || decide (x.addr ≤ y.addr)
  | none => false

/-- An apply is over: lock, ready post, and the step's state once it was the last (R293). -/
def shardDone (s : State) (p : Nat) (x : Accepted) (st : Nat) : State :=
  let s := modStep s p fun y => { y with shards := y.shards.filter fun a => !(a.applying && a.addr = x.addr) }
  let s := (enginePost s x.shard.readySem st (0xA0 + 2 * shardGroup x.shard) (some p)).1
  if (part s p).step.shards.any (·.applying) then s
  else if odN s (kStepState p) = 4 then odSet s (kStepState p) 0 else s

/-- The shard's apply to its end, then counter, state, lock and ready post (R293, R294). DESIGN CHOICE (R199, R216): a shard of which
a byte has left the allotment since its acceptance is not applied at all, its descriptor neither; its `ready_sem` carries denied. -/
def shardApply (s : State) (p d : Nat) (e : Ecc) : State :=
  match (part s p).step.shards.find? fun x => x.applying ∧ x.addr = x.cmd.table + 64 * d with
  | none => s
  | some x =>
    if !applyNext (part s p).step.shards x then s
    else if (shardRanges s x).any fun r => !allotted s p r.1 r.2 true then shardDone (countDenied s (some p)) p x 0x07
    else
      let tail := tailStripes s x
      let (s, bad) := applyRange s p x (ceilDiv x.shard.count 32) e
      let s := bumpFree s kYardBusyUs (some p)
      let s := bump s kFarRmwWrites tail (some p)
      let s := if bad then bump (setShardState s x.addr 2) kYardApplyFaults 1 (some p)
        else setShardState (poke s (x.addr + 56) (leBytes 8 (x.cmd.step + 1))) x.addr 0
      shardDone s p x (if bad then 0x02 else 0)

/-- The module enters hold during an apply: the pair finishes the stripe in progress and stops (R295). How many stripes it has done
by then no command says: a free number. -/
def shardPause (s : State) (p : Nat) (x : Accepted) : State :=
  let left := ceilDiv (ceilDiv x.shard.count 32 - x.done) (stripeGroups s x)
  let n := Config.freeCount kYardBusyUs s.free % (left + 1)
  let last := min (ceilDiv x.shard.count 32) (x.done + n * stripeGroups s x)
  let (s, bad) := applyRange { s with free := s.free + 1 } p x last Ecc.clean
  modStep s p fun y => { y with shards := y.shards.map fun a => if a.applying && a.addr = x.addr then { a with done := last, bad := bad } else a }

/-- The same for every apply of the module. -/
def pauseApplies (s : State) : State :=
  s.parts.foldl (fun s y => ((y.2.step.shards.filter fun x => applyNext y.2.step.shards x)).foldl (fun s x => shardPause s y.1 x) s) s

end Sys2Proof.Machine
end

