-- ==== Sys2Proof/Machine/Commit.lean ====
section
/-! DEFINITION. The step: opening, votes, decisions and their effect (R178, R289 to R292, R520), rollback (R519 to R526),
and the stop of a consist with its slot-log record (R182, R193). -/

namespace Sys2Proof.Machine

/-! ### Stopping a consist -/

/-- Bytes of a slot-log record (Table 3 of 06). -/
def slotBytes (serial target start busy slot status used wait late : Nat) : List Byte :=
  let sat (n w : Nat) : Nat := min n (2 ^ w - 1)
  leBytes 4 (sat late 32) ++ leBytes 4 (sat wait 32) ++ leBytes 1 (sat used 8) ++ leBytes 1 status ++ leBytes 2 slot ++
  leBytes 4 (sat busy 32) ++ leBytes 6 start ++ leBytes 6 target ++ leBytes 4 serial

/-- Ends the slot that runs with one record in the slot log (R182). -/
def slotRecord (s : State) (k status busy wait : Nat) : State :=
  let c := con s k
  match c.slot with
  | none => s
  | some r =>
    let n := c.slotSerial
    let a := stagingBase + conDie k * 0x1000_0000 + 0x02FA_4000 + k % 5 * 0x800 + 32 * (n % 64)
    let used := (tickNow s + 2 ^ 48 - r.start % 2 ^ 48) % 2 ^ 48 + 1
    let late := (r.start + 2 ^ 48 - r.target % 2 ^ 48) % 2 ^ 48
    let s := poke s a (slotBytes ((n + 1) % 2 ^ 32) r.target r.start busy r.number status used wait late)
    setCon s k { c with slot := none, slotSerial := (n + 1) % 2 ^ 32 }

/-- Removes the porter blocks of a consist that are not dispatched (R521). -/
def dropPending (s : State) (k : Nat) : State :=
  let s := { s with casts := s.casts.filter fun c => c.consist ≠ k }
  { s with pools := s.pools.map fun x => (x.1, { x.2 with pending := x.2.pending.filter fun b => b.consist ≠ k }) }

/-- The consist goes over to another program: what the porters have of the old one is none of its verbs' parts. Blocks that wait are
discarded, those in flight run to completion (R124, R141). -/
def forsake (s : State) (k : Nat) : State :=
  let s := dropPending s k
  { s with pools := s.pools.map fun x => (x.1, { x.2 with flight := x.2.flight.map fun f =>
      if f.block.consist = k then { f with block := { f.block with stale := true } } else f }) }

/-- Whether a full queue has stopped a consist's broadcast (R126). -/
def queueStopped (c : Consist) : Bool :=
  c.stall ≠ none || (match c.hold with
    | some (.queue _ _) => true
    | _ => false)

/-- The cycles of a stop on a full queue that ends in some other way than by room in the queue: no command carries them (R126). -/
def countStall (s : State) (k : Nat) : State := if queueStopped (con s k) then bumpFree s kQueueFullStalls (conPart s k) else s

/-- The record of a slot that a stop or a rollback ends (R182). Its cycles are free numbers, and its waits reach the counter like
those of any other slot (R181). -/
def slotCut (s : State) (k status : Nat) : State :=
  if (con s k).slot = none then s
  else
    let busy := Config.freeCount 0 s.free
    let wait := Config.freeCount kSignalWaitCycles (s.free + 1)
    let s := slotRecord s k status busy wait
    { bump s kSignalWaitCycles wait (conPart s k) with free := s.free + 2 }

/-- A consist stops (R124, R193): broadcast and issue end. Verbs that every core has issued run to completion and post; the others
stay in their queues, and never issue. A slot that runs is logged with the given status. -/
def stopConsist (s : State) (k status : Nat) : State :=
  modCon (slotCut (countStall s k) k status) k fun c =>
    { c with pstate := .stopped, hold := none, ahead := [], ending := false, draining := none, sidingRuns := [], stall := none, judged := none }

/-! ### Records (Table 5 of 10) -/

def voteBytes (v : VoteRec) : List Byte :=
  leBytes 6 0 ++ leBytes 4 v.jobTag ++ leBytes 1 v.round ++ leBytes 1 v.outcome ++ leBytes 1 v.status ++ leBytes 1 v.kind ++
  leBytes 2 v.size ++ leBytes 2 v.rank ++ leBytes 6 v.anchor ++ leBytes 8 v.step

def parseVote (bs : List Byte) : VoteRec × Nat :=
  let v := leNat bs
  ({ step := bits v 192 64, anchor := bits v 144 48, rank := bits v 128 16, size := bits v 112 16, kind := bits v 104 8,
     status := bits v 96 8, outcome := bits v 88 8, round := bits v 80 8, jobTag := bits v 48 32 }, bits v 0 48)

/-- Sends a commit record to a member, free-running (R370, R373). -/
def sendRecordAt (s : State) (p i code epoch : Nat) (v : VoteRec) : State :=
  (sendMsg s p i { opcode := 3, timetabled := false, cls := 2, code := code, addType := 0, window := 0, offset := 0, sem := none,
                   epoch := epoch, bad := [], owner := none } (voteBytes v)).1

/-- The same with the sender's step epoch (R522). -/
def sendRecord (s : State) (p i code : Nat) (v : VoteRec) : State := sendRecordAt s p i code (part s p).step.epoch v

/-- Whether a decision frame of the partition has still to be sent (R290). -/
def decisionWaits (s : State) (p : Nat) : Bool :=
  s.qps.any fun x => x.2.isOpen && x.2.part = p && x.2.frames.any fun f => f.hdr.opcode = 3 && f.hdr.code = 0x11 && unsent s x.1 f

/-! ### Opening (R107, R289) -/

/-- Whether a step of the partition is open. -/
def stepOpen (s : State) (p : Nat) : Bool := (part s p).step.isOpen
def anyOpen (s : State) : Bool := s.parts.any fun x => x.2.step.isOpen

/-- The first verb broadcast of a partition after its program's start or its last decision opens its step (R289). -/
def openStep (s : State) (p : Nat) : State :=
  if (part s p).step.isOpen then s else modStep s p fun x => { x with isOpen := true }

/-- Whether a program calls `step_vote` (R520). -/
def callsVote (c : Consist) : Bool := match c.prog with
  | some g => g.stream.contains (.call 0x30)
  | none => false

/-- Whether a partition is inside a step for an `apply` (R106, R107). DEDUCED: outside is "while the partition runs no step commit", so
one none of whose programs calls `step_vote` stands outside, although its first verb has opened a step by R289. -/
def insideStep (s : State) (p : Nat) : Bool := stepOpen s p && (consistsOf s p).any fun k => callsVote (con s k)

/-- The step mark of one consist and of the partition's semaphores (R520). -/
def markConsist (s : State) (k : Nat) : State :=
  modCon s k fun c =>
    if callsVote c then
      let (pos, vi) := c.afterVote.getD (c.pos, c.vi)
      { c with mark := some ⟨pos, vi, c.loops, c.slots, c.nouns.map fun x => (x.1, x.2.map (·.noun))⟩ }
    else c

def markSems (s : State) (p : Nat) : State :=
  modPart s p fun q => { q with semMarks := (s.sems.filter fun x => x.2.part = p).map fun x =>
    (x.1, some ⟨x.2.status, x.2.producer, x.2.seq, x.2.arrivals, x.2.round⟩) }

def stepMark (s : State) (p : Nat) : State := markSems ((consistsOf s p).foldl markConsist s) p

/-! ### Decisions of the leader (R290, R292) -/

def votesOf (n : Nat) (t : Tab (Option VoteRec)) : List VoteRec := (List.range n).filterMap fun r => tget none t r
def allVotes (s : State) (p n : Nat) : List VoteRec := votesOf n (part s p).step.votes

/-- The decision record over the votes held (R290): it decides what the rules say in their order. -/
def decisionOf (j : JobMap) (t : Tab (Option VoteRec)) (round : Nat) (timeout : Bool) : VoteRec :=
  let n := jobSize j
  let vs := votesOf n t
  let no := vs.find? fun v => v.status ≠ 0
  let skew := vs.any fun v => v.step ≠ (vs.head?.map (·.step)).getD 0
  let (status, outcome) := match no with
    | some v => (v.status, 3)
    | none => if skew then (0x03, 3) else if timeout then (0x04, 3) else (0, (vs.map VoteRec.outcome).foldl max 0)
  let own := tget none t j.rank
  { step := (own.map VoteRec.step).getD ((vs.head?.map (·.step)).getD 0), anchor := (vs.map VoteRec.anchor).foldl max 0, rank := j.rank,
    size := n, kind := 2, status := status, outcome := outcome, round := round, jobTag := (own.map VoteRec.jobTag).getD j.tag }

/-- Writes the decision and posts the base semaphore of `step_vote` (R290): the leader's own by the module. A step that is in
doubt stays locked until the operator resolves it (R291); without an open step only an abort counts. -/
def decisionArrived (s : State) (p : Nat) (v : VoteRec) (producer : Nat) : State :=
  let s := odPut s (kDecisionLast p) (.octets (voteBytes v))
  let s := if odN s (kStepState p) = 3 ∨ (!stepOpen s p ∧ v.outcome ≠ 3) then s else modStep s p fun x => { x with decision := some v }
  match (part s p).step.group with
  | some (_, _, b) => (enginePost s b 0 producer (some p)).1
  | none => s

/-- The leader's decision: sent to every other member, then its own. -/
def decide' (s : State) (p : Nat) (j : JobMap) (timeout : Bool) : State :=
  let x := (part s p).step
  let d := decisionOf j x.votes x.round timeout
  let s := ((List.range (jobSize j)).filter (· ≠ j.rank)).foldl (fun s r => sendRecord s p r 0x11 d) s
  let s := modStep s p fun y => { y with round := y.round + 1 }
  decisionArrived s p d 0xFF

/-- A leader whose wait for votes ends after it has rolled the attempt back decides it under the attempt's epoch (R290, R522):
its own no vote makes the decision an abort. -/
def decideAttempt (s : State) (p : Nat) (j : JobMap) (a : Nat × Nat × Tab (Option VoteRec)) : State :=
  let d := decisionOf j a.2.2 0 true
  let s := ((List.range (jobSize j)).filter (· ≠ j.rank)).foldl (fun s r => sendRecordAt s p r 0x11 a.1 d) s
  odPut (modStep s p fun y => { y with attempts := y.attempts.erase a }) (kDecisionLast p) (.octets (voteBytes d))

/-- The leader decides once it holds a vote of every rank and none of them still holds (R290, R292). -/
def leaderCheck (s : State) (p : Nat) : State :=
  match jobOf s p with
  | none => s
  | some j =>
    let x := (part s p).step
    let vs := allVotes s p (jobSize j)
    if vs.length < jobSize j ∨ x.decision ≠ none then s
    else if x.round ≠ 0 ∧ vs.any (·.outcome = 2) then s
    else decide' s p j false

/-! ### Votes (R289, R513, R523) -/

/-- Casts the module's vote: status 0 yes, with the watch's outcome. Once cast it stands. -/
def castVote (s : State) (p st : Nat) : State :=
  match jobOf s p with
  | none => s
  | some j =>
    let x := (part s p).step
    if !x.isOpen ∨ x.vote ≠ none then s
    else
      let (s, outcome) := watchVote s p
      let (stepNo, tag) := match x.cmd with
        | some c => (c.step, c.jobTag)
        | none => match x.shards.filter (!·.applying) with
          | a :: _ => (a.cmd.step, a.cmd.jobTag)
          | [] => (0, j.tag)
      let v : VoteRec :=
        { step := stepNo, anchor := (tickNow s + odN s kAnchorLead) % 2 ^ 48, rank := j.rank, size := jobSize j, kind := 1,
          status := st, outcome := if st = 0 then outcome else 0, round := 0, jobTag := tag }
      let s := odSet (odSet s (kVoteStatusLast p) st) (kStepState p) 1
      let s := if st = 0 then s else bump s kVotesNo 1 (some p)
      let s := modStep s p fun y => { y with vote := some v, since := some (tickNow s) }
      if j.rank = j.leader then leaderCheck (modStep s p fun y => { y with votes := tset none y.votes j.rank (some v) }) p
      else sendRecord s p j.leader 0x10 v

/-- An error token in an open step makes the module vote no (R289); outside one nothing happens (R526). -/
def errorToken (s : State) (p : Option Nat) (st : Nat) : State :=
  match p with
  | some p => if errCode st then castVote s p st else s
  | none => s

/-- The votes that error tokens of the module's engines call for (R289). -/
def castOwed (s : State) : State :=
  s.parts.foldl (fun s x => match (part s x.1).step.owed with
    | some st => castVote (modStep s x.1 fun y => { y with owed := none }) x.1 st
    | none => s) s

/-! ### Tokens of verbs and fault records (R138 to R146) -/

/-- Bytes of a fault-ring record (Table 5 of 05). -/
def faultBytes (serial token vi ok first osem oseq q cls tick : Nat) : List Byte :=
  leBytes 32 (serial * 2 ^ 224 + token * 2 ^ 160 + vi * 2 ^ 128 + ok * 2 ^ 108 + first * 2 ^ 96 + osem * 2 ^ 80 + oseq * 2 ^ 48 +
    q * 2 ^ 40 + cls * 2 ^ 32 + tick % 2 ^ 32)

/-- Device address of record n of a consist's fault ring. -/
def faultAddr (k n : Nat) : Nat := stagingBase + conDie k * 0x1000_0000 + 0x02FA_0000 + k % 5 * 0x800 + 32 * (n % 64)

/-- Writes one fault-ring record (R146). -/
def faultRecord (s : State) (k vi q cls token : Nat) (parts : List (Option Status)) (st : Nat) (origin : Option (Nat × Nat)) : State :=
  let n := (con s k).faultSerial
  let some' := parts.filterMap id
  let ok := partOk (parts.map fun x => x.getD .malformed)
  let first := if st = 0x0E then 0x0E else match firstFailing some' with
    | .ok => st
    | x => stCode x
  let (os, oq) := if st = 0x0E then origin.getD (0, 0) else (0, 0)
  let s := poke s (faultAddr k n) (faultBytes ((n + 1) % 2 ^ 32) token vi ok first os oq q cls (tickNow s))
  bump (modCon s k fun c => { c with faultSerial := (n + 1) % 2 ^ 32 }) kFaultRecordsWritten 1 (conPart s k)

/-- The 64 bits of a token (Table 3 of 05). -/
def tokenBits (sem st producer seq : Nat) : Nat := sem * 2 ^ 48 + st * 2 ^ 40 + producer * 2 ^ 32 + seq

/-- Posts a verb's token with a status, and records an error in the fault ring, whether the verb names a post or not (R140, R144 to
R146): a refused post ends the verb with the refusal's status. Answers the status in which the verb ends. DESIGN CHOICE (R165): an
error without a post, or whose post is refused, counts in `tokens_error`, although `tokens_posted` does not count it. -/
def endToken (s : State) (k vi q cls : Nat) (post : Option Nat) (st : Nat) (parts : List (Option Status))
    (origin : Option (Nat × Nat)) : State × Nat :=
  let p := conPart s k
  let (s, st, token) := match post with
    | none => (s, st, tokenBits 0 st (queueCode k q) 0)
    | some i =>
      let (s', r) := queuePost s k q i st
      let st := if r = .ok then st else stCode r
      (s', st, tokenBits i st (queueCode k q) (semGet s' i).seq)
  let s := bump s kVerbsPartial (if st = 0x01 then 1 else 0) p
  let s := bump s kVerbsAbortedInput (if st = 0x0E ∧ origin ≠ none then 1 else 0) p
  (if errCode st then faultRecord (bump s kTokensError 1 p) k vi q cls token parts st origin else s, st)

/-- The same; an error makes an open step vote no (R289). -/
def postToken (s : State) (k vi q cls : Nat) (post : Option Nat) (st : Nat) (parts : List (Option Status))
    (origin : Option (Nat × Nat)) : State :=
  match endToken s k vi q cls post st parts origin with
  | (s, st) => errorToken s (conPart s k) st

def noParts : List (Option Status) := List.replicate 20 none

/-! ### Rollback (R521) -/

/-- Posts deferred to an epoch that has come (R524). -/
def latePosts (s : State) (p : Nat) : State :=
  let x := (part s p).step
  let now := x.late.filter fun l => l.epoch = x.epoch
  let s := modStep s p fun y => { y with late := y.late.filter fun l => l.epoch ≠ x.epoch }
  now.foldl (fun s l => (enginePost s l.sem l.status l.port (some p)).1) s

/-- What the end of a step leaves: the epoch advances (R365), deferred writes act (R296), the next step is not open. -/
def stepClose (s : State) (p : Nat) : State :=
  let x := (part s p).step
  let s := x.deferred.foldl (fun s y => match y.2 with
    | some v => if y.1 / 65536 = 0x82 then odPut s y.1 v else s
    | none => s) s
  let s := modStep s p fun y => { y with isOpen := false, vote := none, group := none, votes := [], round := 0, since := none,
                                         decision := none, epoch := (y.epoch + 1) % 256, deferred := [], voters := [],
                                         owed := none }
  watchNext s p

/-- Restores the partition's semaphores to the step mark (R520, R521 step 5). -/
def restoreSems (s : State) (p : Nat) : State :=
  let marks := (part s p).semMarks
  { s with sems := s.sems.filterMap fun x =>
      if x.2.part = p then
        let m := (tget none marks x.1).getD ⟨0, 0, 0, 0, 0⟩
        some (x.1, { x.2 with status := m.status, producer := m.producer, seq := m.seq, arrivals := m.arrivals, round := m.round, awaited := m.seq })
      else some x }

/-- Discards what a consist's siding holds, and counts it (R315). -/
def discardSiding (s : State) (k : Nat) : State :=
  if (con s k).siding = [] then s
  else modCon (bump s kSidingDiscarded (con s k).siding.length (conPart s k)) k fun c => { c with siding := [] }

/-- One consist returns to its step mark, or stops for want of one (R521 steps 1 and 6); one that does not run only loses its siding
(R315). -/
def restoreConsist (s : State) (k : Nat) : State :=
  let s := discardSiding s k
  if (con s k).pstate ≠ .running then s
  else
    let s := dropPending s k
    let s := slotCut (countStall s k) k 0x0E
    let c := con s k
    let c :=
      { c with
        ahead := []
        verbs := []
        sidingRuns := []
        draining := none
        ending := false
        hold := none
        stall := none
        judged := none
        gathered := [] }
    match c.mark with
    | none => setCon s k { c with pstate := .stopped }
    | some m => setCon s k
        { c with pos := m.pos, vi := m.vi, loops := m.loops, slots := m.slots, hold := some .boundary,
                 nouns := m.nouns.map fun x => (x.1, x.2.map fun n => ⟨n, false, none, false⟩) }

/-- A leader that has not decided the attempt keeps the votes it holds (R290). -/
def keepAttempt (s : State) (p : Nat) : State :=
  match jobOf s p, (part s p).step.since with
  | some j, some t =>
    if j.rank = j.leader ∧ (part s p).step.decision = none ∧ (part s p).step.round = 0 then
      modStep s p fun y => { y with attempts := y.attempts ++ [(y.epoch, t, y.votes)] }
    else s
  | _, _ => s

/-- Writes the anchor record of each `step_vote` that waits (R290). -/
def writeAnchors (s : State) (p anchor : Nat) : State :=
  (part s p).step.voters.foldl (fun s v => match v.2.2 with
    | some a => poke s a (leBytes 8 (anchor % 2 ^ 48))
    | none => s) s

/-- On abort each `step_vote` that waits writes the decision's anchor, where a decision has come, and posts its token with status
aborted (R290). -/
def votersAborted (s : State) (p : Nat) : State :=
  let x := (part s p).step
  let s := match x.decision with
    | some d => writeAnchors s p d.anchor
    | none => s
  x.voters.foldl (fun s v => match findVerb s v.1 v.2.1 with
    | some e => (endToken s v.1 v.2.1 e.queue e.cls e.post 0x0E (List.replicate 20 (some .aborted)) none).1
    | none => s) s

/-- Rolls a partition back (R521): blocks not dispatched are discarded, those in flight and the unsent frames end, then the inflector
walks what they have left. Held modules roll back after adoption. Nothing more than the discard is done while a block in flight
waits for depot space (R258): the rollback stays due. -/
def rollback (s : State) (p : Nat) : State :=
  let cs := consistsOf s p
  let s := cs.foldl dropPending s
  if flightsWait s cs then s
  else
  let s := drainFlights (dropUnsent (keepAttempt s p) p) cs
  let s := votersAborted s p
  let s := walkAll false p s
  let s := shardsClean s p
  let s := odSet s (kStepOutcomeLast p) 3
  let s := cs.foldl restoreConsist s
  let s := restoreSems s p
  let s := stepClose s p
  let s := odSet s (kStepState p) (if (part s p).step.shards.any (·.applying) then 4 else 0)
  let s := latePosts s p
  let s := bump s kDecisionsAbort 1 (some p)
  event s p .aborted 0

/-! ### Applying a decision (R276, R290 to R292) -/

/-- Ends the `step_vote`s that wait: their anchor records are written and their parts end ok (R290). -/
def endVote (s : State) (p anchor : Nat) : State :=
  (part s p).step.voters.foldl (fun s v => endVerb s v.1 v.2.1 .ok) (writeAnchors s p anchor)

def applyDecision (s : State) (p : Nat) : State :=
  let x := (part s p).step
  match x.decision with
  | none => s
  | some d =>
    if held s ∨ (part s p).leaves ∨ decisionWaits s p then s
    else if d.outcome = 3 then rollback s p
    else if !x.isOpen then s
    else if d.outcome = 2 then
      -- a vote revised before the leader applies its own hold counts at once
      leaderCheck (odSet (odSet (modStep s p fun y => { y with decision := none }) (kStepState p) 2) (kStepOutcomeLast p) 2) p
    else
      let s := walkAll true p s
      let s := if d.outcome = 0 then
          odSet (bump (shardsApply (watchAbsorb (layerCommit s p) p) p) kDecisionsCommit 1 (some p)) (kStepOutcomeLast p) 0
        else
          odSet (bump (bump (shardsClean s p) kDecisionsSkip 1 (some p)) (kSkippedSteps p) 1 (some p)) (kStepOutcomeLast p) 1
      let s := endVote s p d.anchor
      let s := stepMark (stepClose s p) p
      let s := latePosts s p
      odSet s (kStepState p) (if (part s p).step.shards.any (·.applying) then 4 else 0)

/-! ### Arrivals of records (R290, R292, R522) -/

/-- A vote reaches the leader. -/
def voteArrive (s : State) (p epoch : Nat) (v : VoteRec) : State :=
  match jobOf s p with
  | none => s
  | some j =>
    if j.rank ≠ j.leader ∨ epoch ≠ (part s p).step.epoch ∨ jobSize j ≤ v.rank then s
    else if tget none (part s p).step.votes v.rank ≠ none then s
    else leaderCheck (modStep s p fun x => { x with votes := tset none x.votes v.rank (some v) }) p

/-- A revised vote reaches the leader: it replaces the member's vote (R289, R292). -/
def revisedArrive (s : State) (p epoch : Nat) (v : VoteRec) : State :=
  match jobOf s p with
  | none => s
  | some j =>
    match tget none (part s p).step.votes v.rank with
    | none => s
    | some _ =>
      if j.rank ≠ j.leader ∨ epoch ≠ (part s p).step.epoch then s
      else leaderCheck (modStep s p fun x => { x with votes := tset none x.votes v.rank (some v) }) p

/-- A decision reaches a member: applied at a later boundary, or only stored where its attempt is over (R522). -/
def decisionArrive (s : State) (p epoch : Nat) (v : VoteRec) (producer : Nat) : State :=
  let own := (part s p).step.epoch
  if epoch = own then decisionArrived s p v producer
  else if (epoch + 1) % 256 = own then odPut s (kDecisionLast p) (.octets (voteBytes v))
  else s

/-! ### Commands -/

/-- DECISION_APPLY (R290). -/
def execDecisionApply (p : Nat) (s : State) : Host.Outcome State Fault Refusal :=
  guardWf (decide (p < 40)) (applyDecision s p)

/-- ROLLBACK (R521): at the first boundary after a no vote or an abort decision. -/
def execRollback (p : Nat) (s : State) : Host.Outcome State Fault Refusal :=
  guardWf (decide (p < 40)) (if rollbackDue s p ∧ !held s ∧ !decisionWaits s p then rollback s p else s)

/-- STEP_WAIT_EXPIRY (R290): `step_wait_ticks` have passed since the leader's vote and a vote is missing. None runs while
the step is held or the module is (R120, R530). -/
def execStepWaitExpiry (p : Nat) (s : State) : Host.Outcome State Fault Refusal :=
  guardWf (decide (p < 40))
    (match jobOf s p with
    | none => s
    | some j =>
      if j.rank ≠ j.leader ∨ held s then s
      else match (part s p).step.attempts.find? fun a => tickAfter (tickNow s) (a.2.1 + odN s (kStepWaitTicks p)) with
      | some a => decideAttempt s p j a
      | none => match (part s p).step.since with
        | some t =>
          if (part s p).step.decision = none ∧ (part s p).step.round = 0 ∧ tickAfter (tickNow s) (t + odN s (kStepWaitTicks p)) then decide' s p j true
          else s
        | none => s)

/-- IN_DOUBT_ENTRY (R291). -/
def execInDoubtEntry (p : Nat) (s : State) : Host.Outcome State Fault Refusal :=
  guardWf (decide (p < 40))
    (match (part s p).step.vote, (part s p).step.since with
    | some v, some t =>
      if v.status = 0 ∧ (part s p).step.decision = none ∧ odN s (kStepState p) = 1 ∧ !held s ∧
        tickAfter (tickNow s) (t + odN s (kStepWaitTicks p) + odN s (kDecisionWaitTicks p)) then
        event (bump (odSet s (kStepState p) 3) kInDoubtEvents 1 (some p)) p .timeout 0
      else s
    | _, _ => s)

/-- IN_DOUBT_RESOLVE (R291, R296): the operator's outcome, applied at the next boundary. -/
def execInDoubtResolve (who : Who) (p v : Nat) (s : State) : Host.Outcome State Fault Refusal :=
  guardWf (decide (p < 40))
    (dictWrite s who (kInDoubtResolve p) (.num v)
      (fun s => opOnly who (if odN s (kStepState p) ≠ 3 then .denied else if 3 < v then .malformed else .ok))
      (fun s =>
        let d : VoteRec := match (part s p).step.vote with
          | some o => { o with kind := 2, status := 0, outcome := v }
          | none => ⟨0, 0, 0, 0, 2, 0, v, 0, 0⟩
        modStep s p fun x => { x with decision := some d }))

/-- HOLD_DECISION (R120, R292): the operator ends a watch hold; the module sends its revised vote, whatever it had voted. -/
def execHoldDecision (who : Who) (p v : Nat) (s : State) : Host.Outcome State Fault Refusal :=
  guardWf (decide (p < 40))
    (dictWrite s who (kHoldDecision p) (.num v)
      (fun s => opOnly who (if odN s (kStepState p) ≠ 2 then .denied else if 1 < v then .malformed else .ok))
      (fun s =>
        match (part s p).step.vote, jobOf s p with
        | some o, some j =>
          let r := { o with kind := 3, outcome := v, round := (part s p).step.round }
          let s := modStep s p fun x => { x with vote := some r }
          if j.rank = j.leader then revisedArrive s p (part s p).step.epoch r else sendRecord s p j.leader 0x12 r
        | _, _ => s))

/-! ### Commands of engines whose posts can make the module vote (R289) -/

/-- SHARD_APPLY_END (R293). -/
def execShardApplyEnd (p shard : Nat) (ecc : Ecc) (s : State) : Host.Outcome State Fault Refusal :=
  guardWf (decide (p < 40)) (if held s then s else castOwed (shardApply s p shard ecc))

/-- BLOCK_DISPATCH (R233). -/
def execBlockDispatch (die : Nat) (ecc : Ecc) (s : State) : Host.Outcome State Fault Refusal :=
  guardWf (decide (die < 8)) (castOwed (dispatch s die ecc))

/-- BLOCK_COMPLETE (R234). -/
def execBlockComplete (die id : Nat) (receivers : List Nat) (s : State) : Host.Outcome State Fault Refusal :=
  guardWf (decide (die < 8)) (castOwed (complete s die id receivers))

/-- MULTICAST_UNCOUPLE (R240): the sample of one tick boundary. -/
def execMulticastUncouple (s : State) : Host.Outcome State Fault Refusal := .next (castOwed (castSample s))

end Sys2Proof.Machine
end

