-- ==== Sys2Proof/Machine/Routine.lean ====
section
/-! DEFINITION. The phrasebook's routines (R156 to R159, R300 to R308, R317, R373 to R375, R380): what a call does once
all its cores have issued it. The spec fixes the roles of nouns and scalars but does not list them; the model's roles are
in an assumption row. -/

namespace Sys2Proof.Machine

/-! ### Operands of a call -/

/-- Scalar j of a call; an absent one reads 0. DESIGN CHOICE (R22, R131): a routine that reads a scalar once for the whole consist
takes a `core_index` there as core 0's, 0. -/
def callScalar (k : Nat) (e : VEntry) (o : CallOps) (j : Nat) : Nat := scalVal k 0 e.loopIx (lget (.imm 0) o.scalars j)

/-- The port on which a member's records reach this module. -/
def arrivalPort (j : JobMap) (i : Nat) : Nat := (routePort j i).getD 0

/-- Whether a setter is the engine that posts a step's decision (R156, R373): the receive engine of the port of the leader's
records. A leader receives none; any receive engine's code serves there (DESIGN CHOICE). -/
def decisionSetter (s : State) (p setter : Nat) : Bool :=
  match jobOf s p with
  | some j => if j.rank = j.leader then decide (0xC0 ≤ setter ∧ setter ≤ 0xC7) else setter = 0xC0 + (routePort j j.leader).getD 0
  | none => false

/-- The check of the 16 semaphores of a call: in the partition's range, on the consist's die, of the right setter (R156, R185). -/
def callSems (s : State) (p k q r base : Nat) : Status :=
  if 65536 < base + 16 ∨ ((List.range 16).any fun i =>
      let v := semGet s (base + i)
      v.part ≠ p || semDie (base + i) ≠ conDie k || (if r = 0x30 ∧ i = 0 then !decisionSetter s p v.setter else v.setter ≠ queueCode k q)) then .denied
  else .ok

/-- The routine's verbs post their internal tokens on the semaphores of its call that its queue sets (R156). How many, the spec does
not say: a free number each. -/
def internalPosts (s : State) (p k q r base : Nat) : State :=
  ((List.range 16).filter fun i => !(r = 0x30 && i = 0)).foldl (fun s i =>
    let v := semGet s (base + i)
    let n := if v.kind = 0 then Config.freeCount kTokensPosted s.free else 0
    let s := bump { s with free := s.free + 1 } kTokensPosted n (some p)
    if n = 0 then s else semSet s (base + i) { v with seq := (v.seq + n) % 2 ^ 32, producer := queueCode k q, lastTick := tickNow s }) s

/-- Sets the parts of a verb one by one. -/
def setParts (s : State) (k vi : Nat) (l : List Status) : State := modVerb s k vi fun e => { e with parts := l.map some }

/-- Runs a part on each of the 20 cores in turn. -/
def eachCore (f : Nat → State → State × Status) (s : State) : State × List Status :=
  upto 20 (fun i (x : State × List Status) =>
    let (s, st) := f i x.1
    (s, x.2 ++ [st])) (s, [])

/-- Ends a call by its cores' parts. -/
def runCores (k vi : Nat) (f : Nat → State → State × Status) (s : State) : State :=
  let (s, l) := eachCore f s
  setParts s k vi l

def sameShape (a b : Noun) : Bool := a.rank = b.rank && (List.range a.rank).all fun d => ext a d = ext b d

/-- The first check of a routine's nouns again as its parts are about to use them: outputs that may be written, inputs that may be
read (R199, R216). -/
def callNouns (s : State) (p : Nat) (outs ins : List RNoun) : State × Status :=
  let (s, st) := (outs.filter fun r => r.handle ≠ 0).foldl (fun (x : State × Status) r =>
    if x.2 ≠ .ok then x else nounWritable x.1 p r) (s, .ok)
  if st = .ok ∧ ins.any (fun r => r.handle ≠ 0 && !nounInside s p r false) then (countDenied s (some p), .denied) else (s, st)

/-- Elements of a core's part of a routine, none where one is poisoned: those whose accesses stay in the masks are made, and the part
ends denied where there are others (R151). -/
def writePart (u : Writer) (k i : Nat) (e : VEntry) (out : RNoun) (idx : List (List Nat)) (reads : State → Nat → List Nat → Bool)
    (f : State → Nat → List Nat → Option Val) (s : State) : State × Status :=
  let core := 20 * k + i
  let ok := idx.filter fun ix => inMask (idxBanks out true [ix]) e.wmask && reads s core ix
  let (s, st) := if ok = [] then (s, .ok) else writeElems s u k core out (ok.map fun ix => (ix, f s core ix))
  (s, lowestStatus [st, if ok.length < idx.length then .denied else .ok])

/-- The same for every element that the core selects. -/
def mapPart (u : Writer) (k : Nat) (e : VEntry) (out : RNoun) (reads : State → Nat → List Nat → Bool)
    (f : State → Nat → List Nat → Option Val) (i : Nat) (s : State) : State × Status :=
  writePart u k i e out (coreIdx out.n i) reads f s

/-- Whether a core may read an element (R151). -/
def readIn (e : VEntry) (r : RNoun) (ix : List Nat) : Bool := inMask (idxBanks r false [ix]) e.rmask

/-- An input element, none where it is poisoned. -/
def inElem (s : State) (r : RNoun) (core : Nat) (ix : List Nat) : Option Val :=
  let (v, bad) := readElem s r core ix
  if bad then none else some v

/-- An elementwise routine from an input of the same shape. -/
def mapCall (u : Writer) (k p : Nat) (e : VEntry) (g : Val → Val) (s : State) : State :=
  let out := lgetN e.nouns 0
  let src := lgetN e.nouns 1
  if out.handle = 0 ∨ src.handle = 0 ∨ !sameShape out.n src.n then endVerb s k e.vi .malformed
  else
    let (s, st) := callNouns s p [out] [src]
    if st ≠ .ok then endVerb s k e.vi st
    else runCores k e.vi (mapPart u k e out (fun _ _ ix => readIn e src ix) fun s core ix => (inElem s src core ix).map g) s

/-! ### Routines whose results the spec does not state -/

/-- Every index of a noun. -/
def allIdx (n : Noun) : List (List Nat) := selIdx { n with splitMode := 2 } 0 n.rank

/-- How many of a call's first nouns are outputs. -/
def callOutputs (r : Nat) : Nat := if r = 0x18 ∨ r = 0x36 then 2 else if r = 0x37 then 3 else 1

/-- The FP32 words of all inputs of a routine, and whether any is poisoned. -/
def inputWords (s : State) (core : Nat) (ns : List RNoun) : List Word × Bool :=
  ns.foldl (fun x r =>
    if r.handle = 0 then x
    else (allIdx r.n).foldl (fun x ix =>
      let (v, bad) := readElem s r core ix
      (x.1 ++ [BitVec.ofNat 32 (c32 v)], x.2 || bad)) x) ([], false)

/-- Place of an index in a noun's element order. -/
def flatIdx (n : Noun) (ix : List Nat) : Nat :=
  (((lget 0 ix 4 * dimExt n 3 + lget 0 ix 3) * dimExt n 2 + lget 0 ix 2) * dimExt n 1 + lget 0 ix 1) * dimExt n 0 + lget 0 ix 0

/-- A core's part of such a routine: every output element is a free value of the inputs and the scalars. -/
def freePart (r k : Nat) (e : VEntry) (o : CallOps) (i : Nat) (s : State) : State × Status :=
  let core := 20 * k + i
  let ins := e.nouns.drop (callOutputs r)
  let (ws, bad) := inputWords s core ins
  let readable := ins.all fun n => n.handle = 0 || inMask (idxBanks n false (allIdx n.n)) e.rmask
  let ws := ws ++ (List.range 4).flatMap fun j =>
    let c := scalVal k i e.loopIx (lget (.imm 0) o.scalars j)
    [BitVec.ofNat 32 c, BitVec.ofNat 32 (c / 2 ^ 32)]
  (e.nouns.take (callOutputs r)).zipIdx.foldl (fun (x : State × Status) on =>
    if on.1.handle = 0 then x
    else
      let (s, st) := mapPart .vector k e on.1 (fun _ _ _ => readable) (fun _ _ ix =>
        if bad then none else some (v32 (Config.routineWord r ws (on.2 * 2 ^ 48 + flatIdx on.1.n ix)).toNat)) i x.1
      (s, if x.2 ≠ .ok then x.2 else st)) (s, .ok)

def freeCall (r k p : Nat) (e : VEntry) (o : CallOps) (s : State) : State :=
  if (lgetN e.nouns 0).handle = 0 then endVerb s k e.vi .malformed
  else
    let (s, st) := callNouns s p (e.nouns.take (callOutputs r)) (e.nouns.drop (callOutputs r))
    if st ≠ .ok then endVerb s k e.vi st else runCores k e.vi (freePart r k e o) s

/-! ### Row statistics (R87) -/

def statAddr (r : RNoun) (core tn row : Nat) : Nat := tierAddr r.n.tier core (r.n.base + 8 * tn + strideOf r.n 1 * row)

/-- Whether the 8 bytes of an entry lie in a mask's banks (R151). -/
def statIn (r : RNoun) (tn row mask : Nat) : Bool := r.n.tier ≠ 0 || inMask (bankSpan 0 (r.n.base + 8 * tn + strideOf r.n 1 * row) 8) mask

/-- The merge of two entries (m, l). DESIGN CHOICE (R87): the spec gives the formula and no order of rounding. Each operation is
rounded to FP32 by itself, nothing is fused. -/
def mergeStat (alpha : Val) (a b : Val × Val) : Val × Val :=
  let m := a.1.max b.1
  if m = .inf true then (m, .fin false 0 0)
  else
    let t (x : Val × Val) : Val := r32 (x.2.mul (r32 (Val.exp2 (r32 (alpha.mul (r32 (x.1.sub m)))))))
    (m, r32 ((t a).add (t b)))

/-- Reads an entry: (m, l), poisoned or not. -/
def readStat (s : State) (a : Nat) : (Val × Val) × Bool :=
  let (bs, bad) := loadBytes s a 8
  let v := leNat bs
  ((v32 (bits v 0 32), v32 (bits v 32 32)), bad)

/-- Writes the merge of a list of entries at an address. -/
def putStat (s : State) (a : Nat) (alpha : Val) (l : List ((Val × Val) × Bool)) (p : Nat) : State × Status :=
  if l.any (·.2) then
    let (s, st) := storePoison s a 8 (some p)
    (s, if st ≠ .ok then st else .poisoned)
  else
    match l.map (·.1) with
    | [] => (s, .ok)
    | x :: r =>
      let (m, v) := r.foldl (mergeStat alpha) x
      storeBytes s a (leBytes 4 (c32 m) ++ leBytes 4 (c32 v)) (some p)

/-- `stat_merge`: the entries of all tiles of a row of noun 1 become entry 0 of that row of noun 0; scalar 0 is α. -/
def statMergeCall (k p : Nat) (e : VEntry) (o : CallOps) (s : State) : State :=
  let out := lgetN e.nouns 0
  let src := lgetN e.nouns 1
  if out.handle = 0 ∨ src.handle = 0 ∨ out.n.rank ≠ 2 ∨ src.n.rank ≠ 2 ∨ ext out.n 1 ≠ ext src.n 1 then endVerb s k e.vi .malformed
  else
    let (s, st) := callNouns s p [out] [src]
    if st ≠ .ok then endVerb s k e.vi st
    else
      let alpha := v32 (callScalar k e o 0)
      let tns := List.range (ext src.n 0)
      runCores k e.vi (fun i s => (dimSel out.n i 1).foldl (fun (x : State × Status) row =>
        let core := 20 * k + i
        let l := tns.map fun tn => readStat x.1 (statAddr src core tn row)
        let (s, st) := if statIn out 0 row e.wmask && tns.all (fun tn => statIn src tn row e.rmask) then
            putStat x.1 (statAddr out core 0 row) alpha l p
          else (x.1, .denied)
        (s, if x.2 ≠ .ok then x.2 else st)) (s, .ok)) s

/-- The factor that takes an `exp_rel` output from its tile's `row_max` to the merged one (R87, R308): 2^(α · (m_tile − m)) as R84
takes a power, from the exact argument; +0 where the whole row is −∞ (R86). -/
def mergeFactor (alpha mTile m : Val) : Val := if m = .inf true then .fin false 0 0 else r32 (Val.exp2 (alpha.mul (mTile.sub m)))

/-- `attention_merge`: noun 0 is noun 1, `exp_rel` outputs, rescaled from the row statistics of their tiles (noun 2) to the merged ones
(noun 3, entry 0); scalar 0 is α. The product is rounded once, to the output's format. -/
def attentionMergeCall (k p : Nat) (e : VEntry) (o : CallOps) (s : State) : State :=
  let out := lgetN e.nouns 0
  let src := lgetN e.nouns 1
  let tile := lgetN e.nouns 2
  let all := lgetN e.nouns 3
  if out.handle = 0 ∨ src.handle = 0 ∨ tile.handle = 0 ∨ all.handle = 0 ∨ !sameShape out.n src.n ∨ out.n.rank ≠ 2 ∨ tile.n.rank ≠ 2 ∨
    all.n.rank ≠ 2 ∨ ext tile.n 0 < ceilDiv (ext out.n 0) 48 ∨ ext tile.n 1 < ext out.n 1 ∨ ext all.n 1 < ext out.n 1 then
    endVerb s k e.vi .malformed
  else
    let (s, st) := callNouns s p [out] [src, tile, all]
    if st ≠ .ok then endVerb s k e.vi st
    else
      let alpha := v32 (callScalar k e o 0)
      let tn (ix : List Nat) : Nat := lget 0 ix 0 / 48
      runCores k e.vi (mapPart .vector k e out
        (fun _ _ ix => readIn e src ix && statIn tile (tn ix) (lget 0 ix 1) e.rmask && statIn all 0 (lget 0 ix 1) e.rmask)
        fun s core ix =>
          let (t, bad) := readStat s (statAddr tile core (tn ix) (lget 0 ix 1))
          let (m, bad') := readStat s (statAddr all core 0 (lget 0 ix 1))
          if bad || bad' then none else (inElem s src core ix).map fun x => x.mul (mergeFactor alpha t.1 m.1)) s

/-! ### Rows by index -/

/-- The U32 word of index element i. -/
def indexWord (s : State) (r : RNoun) (core i : Nat) : Nat × Bool :=
  let (bs, bad) := loadBytes s (elemAddr r core [i]) 4
  (leNat bs, bad)

/-- Whether an index names no row of a table of `n`. -/
def indexBeyond (s : State) (r : RNoun) (core i n : Nat) : Bool := !(indexWord s r core i).2 && decide (n ≤ (indexWord s r core i).1)

/-- `gather_rows`: row i of noun 0 is row idx[i] of noun 1; noun 2 holds the indices. An index beyond the table ends the
core's part malformed. -/
def gatherRowsCall (k p : Nat) (e : VEntry) (s : State) : State :=
  let out := lgetN e.nouns 0
  let tab := lgetN e.nouns 1
  let ids := lgetN e.nouns 2
  if out.handle = 0 ∨ tab.handle = 0 ∨ ids.handle = 0 ∨ out.n.rank ≠ 2 ∨ tab.n.rank ≠ 2 ∨ ids.n.format ≠ 0 ∨
    ext out.n 0 ≠ ext tab.n 0 ∨ dimExt ids.n 0 < ext out.n 1 then endVerb s k e.vi .malformed
  else
    let (s, st) := callNouns s p [out] [tab, ids]
    if st ≠ .ok then endVerb s k e.vi st
    else
      runCores k e.vi (fun i s =>
        let core := 20 * k + i
        if (dimSel out.n i 1).any fun x => readIn e ids [x] && indexBeyond s ids core x (ext tab.n 1) then (s, .malformed)
        else mapPart .vector k e out
          (fun s core ix => readIn e ids [lget 0 ix 1] && ((indexWord s ids core (lget 0 ix 1)).2 ||
            readIn e tab [lget 0 ix 0, (indexWord s ids core (lget 0 ix 1)).1]))
          (fun s core ix =>
            let (row, bad) := indexWord s ids core (lget 0 ix 1)
            if bad then none else inElem s tab core [lget 0 ix 0, row]) i s) s

/-- `scatter_add_rows`: row i of noun 1 is added to row idx[i] of noun 0, in rising order of i. -/
def scatterAddRowsCall (k p : Nat) (e : VEntry) (s : State) : State :=
  let out := lgetN e.nouns 0
  let src := lgetN e.nouns 1
  let ids := lgetN e.nouns 2
  if out.handle = 0 ∨ src.handle = 0 ∨ ids.handle = 0 ∨ out.n.rank ≠ 2 ∨ src.n.rank ≠ 2 ∨ ids.n.format ≠ 0 ∨
    ext out.n 0 ≠ ext src.n 0 ∨ dimExt ids.n 0 < ext src.n 1 then endVerb s k e.vi .malformed
  else
    let (s, st) := callNouns s p [out] [out, src, ids]
    if st ≠ .ok then endVerb s k e.vi st
    else
      runCores k e.vi (fun i s =>
        let core := 20 * k + i
        let rows := dimSel src.n i 1
        if rows.any fun x => readIn e ids [x] && indexBeyond s ids core x (ext out.n 1) then (s, .malformed)
        else rows.foldl (fun (x : State × Status) row =>
          let (d, bad) := indexWord x.1 ids core row
          let (s, st) :=
            if !readIn e ids [row] then (x.1, .denied)
            else if bad then (x.1, .poisoned)
            else writePart .vector k i e out ((dimSel src.n i 0).map fun c => [c, d])
              (fun _ _ y => readIn e src [lget 0 y 0, row] && readIn e out y)
              (fun s core y => match inElem s src core [lget 0 y 0, row], inElem s out core y with
                | some a, some b => some (a.add b)
                | _, _ => none) x.1
          (s, if x.2 ≠ .ok then x.2 else st)) (s, .ok)) s

/-! ### Moves through the porters -/

/-- Hands blocks of a routine to the porters of the consist's die, each core's as its part; a core without any ends ok. -/
def porterCall (k : Nat) (e : VEntry) (bs : List Block) (s : State) : State :=
  let bs := bs.map (maskBlock s e)
  let count (i : Nat) : Nat := (bs.filter fun b => b.core = i).length
  let s := modVerb s k e.vi fun e =>
    { e with
      parts := (List.range 20).map fun i => if count i = 0 then some .ok else none
      streams := (List.range 20).map fun i => ⟨count i, none, false, []⟩ }
  submit (couple s k e.vi (bs.flatMap castReceivers).eraseDups) (conDie k) bs

/-- Blocks of a byte move between two endpoints, at most 64 KiB each, on behalf of core 0; `cast` are a multicast's consists. -/
def moveBlocks (k vi len : Nat) (cast : List Nat) (src dst : Nat → Endpoint) : List Block :=
  (List.range (ceilDiv len 65536)).map fun j =>
    newBlock k vi 0 j j (.raw (src j) (dst j) (min 65536 (len - 65536 * j)) false 0) false cast

def devAt (a : Nat) (j : Nat) : Endpoint := .dev (a + 65536 * j)
def depotAt (b : Nat) (j : Nat) : Endpoint := .depot (b + j)

/-- Whether two ends go together: the depot's other end is in the near tier, the far tier or a staging buffer (R252). -/
def endsFit (s : State) (src dst : Endpoint) : Bool :=
  match src, dst with
  | .depot _, .dev a => devTier s a
  | .dev a, .depot _ => devTier s a
  | .depot _, .depot _ => false
  | _, _ => true

/-- A move between two places as a routine: scalar 2 is its length, 0 malformed. -/
def moveCall (k : Nat) (e : VEntry) (o : CallOps) (src dst : Nat → Endpoint) (s : State) : State :=
  if callScalar k e o 2 = 0 ∨ !endsFit s (src 0) (dst 0) then endVerb s k e.vi .malformed else porterCall k e (moveBlocks k e.vi (callScalar k e o 2) [] src dst) s

/-- The bytes of a range, and the parts of it that read poisoned. -/
def spanBytes (s : State) (a n : Nat) : List Byte × List (Nat × Nat) :=
  (memRead s.mem a n, lineRanges a n fun l => badAt s.mem (l * 64) || farLost s (l * 64))

/-- `spill_to_near` and `resume_from_near`: scalars are the near-tier address, the scratch offset and the records of each
core; core i's records stand in the near tier at i × records. -/
def spillCall (toNear : Bool) (k p : Nat) (e : VEntry) (o : CallOps) (s : State) : State :=
  let a := callScalar k e o 0
  let off := callScalar k e o 1
  let n := callScalar k e o 2 * recStride
  if n = 0 ∨ a % 64 ≠ 0 ∨ off % 64 ≠ 0 ∨ 0x20_0000 < off + n then endVerb s k e.vi .malformed
  else
    runCores k e.vi (fun i s =>
      let near := a + i * n
      let scr := scratchBase + (20 * k + i) * 0x40_0000 + off
      let (src, dst) := if toNear then (scr, near) else (near, scr)
      let (s, up) := touch s near n
      if !(region s near = .near) ∨ !allotted s p near n true then (countDenied s (some p), .denied)
      else if !up ∨ !inMask (bankSpan 0 off n) (if toNear then e.rmask else e.wmask) then (s, .denied)
      else
        let (s, wst) := writeAllowed s p dst n
        if wst ≠ .ok then (s, wst)
        else
          let (bs, bads) := spanBytes s src n
          copyBytes s dst bs bads (some p)) s

/-! ### Groups and messages (R300, R373, R374) -/

/-- One message to a member. -/
structure Outgoing where
  peer : Nat
  spec : MsgSpec
  bytes : List Byte
  deriving DecidableEq, Repr

/-- Sends the messages of a call's part: it ends when every one has ended (R375); `st` is the status of what the part has done before
(R222). -/
def startSends (k : Nat) (e : VEntry) (p : Nat) (st : Status) (l : List Outgoing) (s : State) : State :=
  if l = [] then endVerb s k e.vi st
  else
    let s := modVerb s k e.vi fun e =>
      { e with parts := List.replicate 20 none
               streams := lset e.streams 0 ⟨l.length, if st = .ok then none else some (0, st), false, []⟩ }
    l.foldl (fun s m =>
      let (s, st) := sendMsg s p m.peer m.spec m.bytes
      if st = .ok then s else msgEnded s (some (k, e.vi)) st) s

/-- Notes one message that a call awaits from a member on the semaphore of its arrival port (R373, R375). -/
def expectFrom (k : Nat) (e : VEntry) (j : JobMap) (s : State) (i : Nat) : State :=
  let sem := j.baseSem + arrivalPort j i
  let v := semGet s sem
  let s := semSet s sem { v with awaited := (v.awaited + 1) % 2 ^ 32 }
  modVerb s k e.vi fun e => { e with recv := e.recv ++ [(sem, (v.awaited + 1) % 2 ^ 32)] }

/-- A collective's frames to one member: the semaphore is that of the port on which they arrive there. -/
def dataSpec (s : State) (p : Nat) (j : JobMap) (i : Nat) (add : Bool) (ty window off cls : Nat) (timed : Bool)
    (bad : List (Nat × Nat)) (owner : Nat × Nat) : MsgSpec :=
  let rport := match routePort j i with
    | some n => qpPort (peerPort j i n).remoteQp
    | none => 0
  { opcode := if add then 1 else 0, timetabled := timed, cls := cls, code := 0, addType := if add then ty else 0,
    window := window, offset := off, sem := some (j.baseSem + rport), epoch := (part s p).step.epoch, bad := bad, owner := some owner }

/-- A `buffer_free` message (R307, Table 3 of 13). -/
def freeSpec (s : State) (p : Nat) (timed : Bool) (owner : Nat × Nat) : MsgSpec :=
  { opcode := 3, timetabled := timed, cls := 3, code := 0x20, addType := 0, window := 0, offset := 0, sem := none,
    epoch := (part s p).step.epoch, bad := [], owner := some owner }

/-- The members after group rank g, in rotating order. -/
def rotated (g : List Nat) (me : Nat) : List Nat :=
  let r := groupRank g me
  g.drop (r + 1) ++ g.take r

/-- What a collective needs of its operands. -/
structure Coll where
  j : JobMap
  g : List Nat
  r : Nat
  window : Nat
  timed : Bool
  out : RNoun
  src : RNoun
  addTy : Nat
  deriving DecidableEq, Repr

/-- Byte length of a noun's elements. -/
def nounLen (r : RNoun) : Nat := nounSpan r.n (r.n.rank - 1)

/-- Byte length of a noun of row statistics: entries of 8 bytes, whatever format the noun names (R84). -/
def statLen (r : RNoun) : Nat := strideOf r.n 1 * (ext r.n 1 - 1) + 8 * ext r.n 0

/-- Number of members. -/
def Coll.n (c : Coll) : Nat := c.g.length

/-- The consists to which `gather_layer` delivers its buffer (R303): those of scalar 2, where the buffer lies in a staging buffer. -/
def gatherCast (k : Nat) (e : VEntry) (o : CallOps) : Nat := if (lgetN e.nouns 0).n.tier = 1 then callScalar k e o 2 else 0

/-- Whether the anchor record of `cluster_barrier` or `step_vote` may be written (R199); address 0 names none. -/
def anchorOk (s : State) (p a : Nat) : Bool := a = 0 || (listRegionOk s a && allotted s p a 8 true)

/-- Reads a collective's operands: mask, window, mode; a mask or nouns that cannot be are malformed. What `gather_layer` delivers
to must be consists of the partition that are on (R238), and the anchor record of `cluster_barrier` the partition's. -/
def collOf (r k p : Nat) (e : VEntry) (o : CallOps) (s : State) : Except Status Coll :=
  match jobOf s p with
  | none => .error .malformed
  | some j =>
    let mask := callScalar k e o 0
    let out := lgetN e.nouns 0
    let src := lgetN e.nouns 1
    let g := groupOf j j.rank mask
    if !maskOk mask ∨ out.handle = 0 ∨ out.n.tier = 0 ∨ (src.handle ≠ 0 ∧ src.n.tier = 0) ∨
      (r = 0x09 ∧ 2 ^ 40 ≤ gatherCast k e o) then .error .malformed
    else if (r = 0x09 ∧ (bitList 40 (gatherCast k e o)).any fun c => !bitOf (grantOf s p).consists c || !conOn s c) ∨
      (r = 0x08 ∧ !anchorOk s p (callScalar k e o 2)) then .error .denied
    else .ok { j := j, g := g, r := groupRank g j.rank, window := callScalar k e o 1 % 256,
               timed := if r = 0 then true else if r = 1 then false else callScalar k e o 3 = 0, out := out,
               src := if src.handle = 0 then out else src, addTy := src.n.format }

/-- What the other members write to, and with what: the range of the noun, writes, adds, and who (R373, R374). -/
def collTarget (r : Nat) (e : VEntry) (c : Coll) (root : Nat) : Option (RNoun × Bool × Bool × List Nat) :=
  let others := c.g.filter (· ≠ c.j.rank)
  let mine := c.j.rank = root
  match r with
  | 0x00 | 0x01 => some (c.out, true, true, others)
  | 0x02 => some (c.out, false, true, others)
  | 0x04 => if mine then none else some (c.out, true, false, [root])
  | 0x05 => if mine then some (c.out, false, true, others) else none
  | 0x07 | 0x0E => some (lgetN e.nouns 2, true, false, others)
  | 0x0D => some (c.out, true, false, [lget 0 c.g ((c.r + c.n - 1) % c.n)].filter (· ≠ c.j.rank))
  | _ => some (c.out, true, false, others)

/-- Whether a noun lies wholly within a committed window that lets these members write or add. R373 says that it must, so by R5 the
call is malformed where it does not. -/
def inWindow (s : State) (p : Nat) (t : RNoun × Bool × Bool × List Nat) : Bool :=
  let (n, wr, ad, who) := t
  who = [] || (part s p).windows.any fun x => match x.2 with
    | some w => who.all (bitOf w.peers) && (!wr || bitOf w.access 0) && (!ad || bitOf w.access 1) &&
        decide (w.base ≤ n.n.base ∧ n.n.base + nounLen n ≤ w.base + w.length)
    | none => false

/-- Sends to members: (peer, add, window offset, source address, length). What is read must still lie in the allotment (R199, R216);
a part that reads poison ends poisoned, and its frames pass it on (R222). -/
def collSend (k : Nat) (e : VEntry) (p : Nat) (c : Coll) (st : Status) (l : List (Nat × Bool × Nat × Nat × Nat)) (s : State) : State :=
  if l.any fun x => !allotted s p x.2.2.2.1 x.2.2.2.2 false then endVerb (countDenied s (some p)) k e.vi .denied
  else
    let bad := l.any fun x => (spanBytes s x.2.2.2.1 x.2.2.2.2).2 ≠ []
    startSends k e p (if st = .ok ∧ bad then .poisoned else st) (l.map fun (i, add, off, a, n) =>
      let (bs, bad) := spanBytes s a n
      ⟨i, dataSpec s p c.j i add c.addTy c.window off 0 c.timed bad (k, e.vi), bs⟩) s

/-- A local copy of a range, as a porter makes it: checked as it is made (R199, R216), poisoned lines passed on (R222). -/
def localCopy (p dst src n : Nat) (s : State) : State × Status :=
  if !allotted s p src n false then (countDenied s (some p), .denied)
  else
    let (s, st) := writeAllowed s p dst n
    if st ≠ .ok then (s, st)
    else
      let (bs, bad) := spanBytes s src n
      copyBytes s dst bs bad (some p)

/-- A local atomic add of a range (R374). -/
def localAdd (p ty dst src n : Nat) (s : State) : State × Status :=
  if !allotted s p src n false then (countDenied s (some p), .denied)
  else
    let (s, st) := writeAllowed s p dst n
    if st ≠ .ok then (s, st)
    else
      let (bs, bad) := spanBytes s src n
      addBytes s ty dst bs bad Ecc.clean (some p)

/-- The reduce-scatter pattern (R374): shard m of the input to member m as add frames at `off m` of its window, the own shard added
locally. -/
def scatterPhase (k p : Nat) (e : VEntry) (c : Coll) (off : Nat → Nat) (s : State) : State :=
  let w := nounLen c.src / c.n
  let (s, st) := localAdd p c.addTy (c.out.n.base + off c.r) (c.src.n.base + c.r * w) w s
  let s := (c.g.filter (· ≠ c.j.rank)).foldl (expectFrom k e c.j) s
  collSend k e p c st ((rotated c.g c.j.rank).map fun i => (i, true, off (groupRank c.g i), c.src.n.base + groupRank c.g i * w, w)) s

/-- The all-gather pattern (R374): the own shard of `w` bytes at `src` to every member at offset g × w. -/
def gatherPhase (k p : Nat) (e : VEntry) (c : Coll) (src w : Nat) (s : State) : State :=
  let (s, st) := if src = c.out.n.base + c.r * w then (s, .ok) else localCopy p (c.out.n.base + c.r * w) src w s
  let s := (c.g.filter (· ≠ c.j.rank)).foldl (expectFrom k e c.j) s
  collSend k e p c st ((rotated c.g c.j.rank).map fun i => (i, false, c.r * w, src, w)) s

def setPhase (s : State) (k vi n : Nat) : State := modVerb s k vi fun e => { e with phase := n }

/-- The stage that a pipeline routine sends to or receives from: scalar 2 is 0 forward, 1 backward. -/
def stagePeer (j : JobMap) (next : Bool) : Option Nat :=
  let (_, _, _, q) := coords j j.rank
  let st := j.sizeT * j.sizeS * j.sizeD
  if next then (if q + 1 < j.sizeP then some (j.rank + st) else none) else (if 0 < q then some (j.rank - st) else none)

/-- Why nothing can be sent to the stage of a pipeline call; ok where something can (R343, R376, R377). -/
def sendTo (k p : Nat) (e : VEntry) (o : CallOps) (s : State) : Status :=
  match jobOf s p with
  | none => .ok
  | some j =>
    match stagePeer j (callScalar k e o 2 = 0) with
    | none => .ok
    | some i => match routePort j i with
      | none => .malformed
      | some n => sendBlocked s p i n (peerPort j i n).localQp

/-- Sends a microbatch once the receiver has a free buffer (R307). -/
def trySend (k p : Nat) (e : VEntry) (o : CallOps) (s : State) : State :=
  match jobOf s p with
  | none => endVerb s k e.vi .malformed
  | some j =>
    let src := lgetN e.nouns 0
    match stagePeer j (callScalar k e o 2 = 0) with
    | none => endVerb s k e.vi .malformed
    | some i =>
      let mb := callScalar k e o 0
      match (part s p).buffers.find? fun b => b.1 = i * 2 ^ 32 + mb with
      | none => if sendTo k p e o s = .ok then setPhase s k e.vi 3 else endVerb s k e.vi (sendTo k p e o s)
      | some b =>
        let n := nounLen src
        let s := setPhase (modPart s p fun q => { q with buffers := q.buffers.erase b }) k e.vi 0
        let (s, st) := callNouns s p [] [src]
        if st ≠ .ok then endVerb s k e.vi st else
        let (bs, bad) := spanBytes s src.n.base n
        startSends k e p (if bad = [] then .ok else .poisoned) [⟨i, dataSpec s p j i false 0 (callScalar k e o 1 % 256) (b.2 * n) 1 (callScalar k e o 3 = 0) bad (k, e.vi), bs⟩] s

/-- Whether a buffer of the partition is held since a `gather_layer` (R304). -/
def bufferHeld (s : State) (p a : Nat) : Bool := (consistsOf s p).any fun k => (con s k).gathered.contains a

/-- What the token of a `gather_layer` or a `drop_layer` does to the buffer that it names (R304). -/
def bufferToken (k p r : Nat) (e : VEntry) (fine : Bool) (s : State) : State :=
  let a := (lgetN e.nouns 0).n.base
  if (lgetN e.nouns 0).handle = 0 ∨ !fine then s
  else if r = 0x09 then modCon s k fun c => { c with gathered := setAdd c.gathered a }
  else if r = 0x0A then (consistsOf s p).foldl (fun s j => if (con s j).gathered.contains a then
    modCon s j fun c => { c with gathered := setDel c.gathered a } else s) s
  else s

/-- The collectives and pipeline routines. A `gather_layer` into a buffer that is held is malformed (R5, R304). -/
def collCall (r k p : Nat) (e : VEntry) (o : CallOps) (s : State) : State :=
  if r = 0x0B then (if (lgetN e.nouns 0).handle = 0 ∨ (lgetN e.nouns 0).n.tier = 0 then endVerb s k e.vi .malformed else trySend k p e o s)
  else if r = 0x0C then
    match jobOf s p with
    | none => endVerb s k e.vi .malformed
    | some j =>
      match stagePeer j (callScalar k e o 2 = 1) with
      | none => endVerb s k e.vi .malformed
      | some i =>
        let out := lgetN e.nouns 0
        if out.handle = 0 ∨ out.n.tier = 0 ∨ !inWindow s p (out, true, false, [i]) then endVerb s k e.vi .malformed
        else
          let s := expectFrom k e j s i
          startSends k e p .ok [⟨i, freeSpec s p (callScalar k e o 3 = 0) (k, e.vi), leBytes 4 (callScalar k e o 0) ++ leBytes 4 (callScalar k e o 1)⟩] s
  else
    match collOf r k p e o s with
    -- the anchor record of `cluster_barrier` is an access of its own (R199)
    | .error st => endVerb (if r = 0x08 ∧ st = .denied then countDenied s (some p) else s) k e.vi st
    | .ok c =>
      let w := if r = 0x0E then statLen c.src else nounLen c.src
      let others := c.g.filter (· ≠ c.j.rank)
      let root := lget c.j.rank c.g (callScalar k e o 2)
      let add := r = 0 ∨ r = 1 ∨ r = 2 ∨ r = 5
      if (add ∧ 2 < c.addTy) ∨ (r = 0x09 ∧ bufferHeld s p c.out.n.base) ∨ ((r = 0 ∨ r = 1 ∨ r = 2 ∨ r = 6) ∧ w % c.n ≠ 0) ∨ ((r = 4 ∨ r = 5) ∧ c.n ≤ callScalar k e o 2) ∨
        (collTarget r e c root).any (fun t => !inWindow s p t) then
        endVerb s k e.vi .malformed
      else
        let (s, st) := callNouns s p [c.out] [c.src]
        if st ≠ .ok then endVerb s k e.vi st
        else
          match r with
          -- all_reduce, all_reduce_free: reduce-scatter into the own shard of the output, then all-gather
          | 0x00 | 0x01 => scatterPhase k p e c (fun m => m * (w / c.n)) (setPhase s k e.vi 1)
          | 0x02 => scatterPhase k p e c (fun _ => 0) s
          | 0x03 | 0x09 => gatherPhase k p e c c.src.n.base w (setPhase s k e.vi (if r = 9 then 2 else 0))
          | 0x04 =>
            if c.j.rank = root then
              let (s, st) := if c.src = c.out then (s, .ok) else localCopy p c.out.n.base c.src.n.base w s
              collSend k e p c st (others.map fun i => (i, false, 0, c.src.n.base, w)) s
            else startSends k e p .ok [] (expectFrom k e c.j s root)
          | 0x05 =>
            if c.j.rank = root then
              let (s, st) := if c.src = c.out then (s, .ok) else localAdd p c.addTy c.out.n.base c.src.n.base w s
              startSends k e p st [] (others.foldl (expectFrom k e c.j) s)
            else collSend k e p c .ok [(root, true, 0, c.src.n.base, w)] s
          | 0x06 =>
            let q := w / c.n
            let (s, st) := localCopy p (c.out.n.base + c.r * q) (c.src.n.base + c.r * q) q s
            let s := others.foldl (expectFrom k e c.j) s
            collSend k e p c st ((rotated c.g c.j.rank).map fun i => (i, false, c.r * q, c.src.n.base + groupRank c.g i * q, q)) s
          | 0x0D =>
            if c.n = 1 then
              let (s, st) := localCopy p c.out.n.base c.src.n.base w s
              startSends k e p st [] s
            else
              let s := expectFrom k e c.j s (lget 0 c.g ((c.r + c.n - 1) % c.n))
              collSend k e p c .ok [(lget 0 c.g ((c.r + 1) % c.n), false, 0, c.src.n.base, w)] s
          -- cluster_barrier: the proposals are exchanged in the output noun, 8 bytes a member
          | 0x08 =>
            if nounLen c.out < 8 * c.n then endVerb s k e.vi .malformed
            else
              let prop := (tickNow s + odN s kAnchorLead) % 2 ^ 48
              let (s, st) := storeBytes s (c.out.n.base + 8 * c.r) (leBytes 8 prop) (some p)
              let s := others.foldl (expectFrom k e c.j) (setPhase s k e.vi 2)
              collSend k e p c st ((rotated c.g c.j.rank).map fun i => (i, false, 8 * c.r, c.out.n.base + 8 * c.r, 8)) s
          -- max_reduce, stat_merge_all: every member's input is gathered in noun 2, then merged into noun 0
          | _ =>
            let buf := lgetN e.nouns 2
            let (s, st) := callNouns s p [buf] []
            if buf.handle = 0 ∨ buf.n.tier = 0 ∨ nounLen buf < w * c.n then endVerb s k e.vi .malformed
            else if st ≠ .ok then endVerb s k e.vi st
            else gatherPhase k p e { c with out := buf } c.src.n.base w (setPhase s k e.vi 2)

/-- The anchor record of `cluster_barrier`: the largest proposal, poisoned where one of them is (R222). -/
def writeBarrier (p n src a : Nat) (s : State) : State × Status :=
  if a = 0 then (s, if rangeLost s src (8 * n) then .poisoned else .ok)
  else if rangeLost s src (8 * n) then
    let (s, st) := storePoison s a 8 (some p)
    (s, if st = .ok then .poisoned else st)
  else storeBytes s a (leBytes 8 ((List.range n).foldl (fun m i => max m (memNat s (src + 8 * i) 8)) 0 % 2 ^ 48)) (some p)

/-- The multicast blocks of a gathered buffer: its bytes, and a block-scaled one's scale array and state map, to the same offsets of
the staging buffers of the consists' dies (R238, R303). -/
def gatherBlocks (k vi cast : Nat) (r : RNoun) : List Block :=
  let bs := (nounRanges r).flatMap fun x => moveBlocks k vi x.2 (bitList 40 cast) (devAt x.1)
    (fun j => .castStaging ((x.1 - stagingBase) % 0x1000_0000 + 65536 * j))
  bs.zipIdx.map fun b => { b.1 with order := b.2, entry := b.2 }

/-- The ranges that a collective's last work reads. -/
def finishRanges (r : Nat) (e : VEntry) (c : Coll) : List (Nat × Nat) :=
  if r = 0x08 then nounRanges c.out else if r = 0x07 ∨ r = 0x0E then nounRanges (lgetN e.nouns 2) else []

/-- The last local work of a collective whose messages have all arrived; its nouns are checked again as it is made (R216). -/
def collFinish (r k p : Nat) (e : VEntry) (o : CallOps) (s : State) : State :=
  match collOf r k p e o s with
  | .error st => endVerb s k e.vi st
  | .ok c =>
    let w := if r = 0x0E then statLen c.src else nounLen c.src
    let (s, st) := callNouns s p [c.out] (if r = 0x07 ∨ r = 0x0E then [lgetN e.nouns 2] else [])
    if st ≠ .ok then endVerb s k e.vi st else
    match r with
    | 0x08 =>
      match writeBarrier p c.n c.out.n.base (callScalar k e o 2) s with
      | (s, .ok) => s
      | (s, st) => endVerb s k e.vi st
    | 0x09 => if gatherCast k e o = 0 then s else porterCall k e (gatherBlocks k e.vi (gatherCast k e o) c.out) (setPhase s k e.vi 0)
    | 0x07 =>
      let buf := lgetN e.nouns 2
      let member (g : Nat) : RNoun := { c.src with n := { c.src.n with base := buf.n.base + g * w } }
      (runCores k e.vi (mapPart .vector k e c.out (fun _ _ _ => true) fun s core ix =>
        (List.range c.n).foldl (fun m g => match m, inElem s (member g) core ix with
          | some a, some b => some (a.max b)
          | _, _ => none) (inElem s (member 0) core ix)) s)
    | 0x0E =>
      let buf := lgetN e.nouns 2
      let alpha := v32 (callScalar k e o 2)
      let row (g r : Nat) : Nat := buf.n.base + g * w + strideOf c.src.n 1 * r
      runCores k e.vi (fun i s => (dimSel c.out.n i 1).foldl (fun (x : State × Status) r =>
        let l := (List.range c.n).map fun g => readStat x.1 (row g r)
        let (s, st) := putStat x.1 (statAddr c.out (20 * k + i) 0 r) alpha l p
        (s, if x.2 ≠ .ok then x.2 else st)) (s, .ok)) s
    | _ => s

/-! ### Windows (R380) -/

/-- A window descriptor (Table 8 of 13): number, window, the reserved bits. -/
def parseWindow (bs : List Byte) : Nat × Window × Nat :=
  let v := leNat bs
  (bits v 80 8, { base := bits v 208 48, length := bits v 168 40, peers := bits v 104 64, notifySem := bits v 88 16,
                  access := bits v 78 2, notify := bits v 77 1 = 1 }, bits v 0 77)

/-- Whether a range lies wholly inside one tier of the staging buffers, near tier or far tier, and the allotment. -/
def windowInside (s : State) (p : Nat) (w : Window) : Bool :=
  [1, 2, 3].any fun t => rangeInTier s p t w.base w.length true

/-- Waits for the swap that makes a window change committed. -/
def windowWait (k vi p : Nat) (s : State) : State :=
  modPart s p fun q => { q with winReady := true, winCalls := q.winCalls ++ [(k, vi)] }

def windowRegister (k p : Nat) (e : VEntry) (o : CallOps) (s : State) : State :=
  let a := callScalar k e o 0
  if !listRegionOk s a ∨ !allotted s p a 32 false then endVerb (countDenied s (some p)) k e.vi .denied
  else
    let (bs, bad) := loadBytes s a 32
    let (n, w, res) := parseWindow bs
    if bad then endVerb s k e.vi .poisoned
    else
      let st : Status :=
        -- the rule gives the refusals no order: the lowest status decides (R514)
        if w.length ≠ 0 ∧ (!windowInside s p w ∨ (semGet s w.notifySem).part ≠ p) then .denied
        else if res ≠ 0 ∨ w.access = 0 ∨ w.length = 0 ∨ tget none (part s p).winShadow n ≠ none then .malformed else .ok
      if st ≠ .ok then endVerb s k e.vi st
      else windowWait k e.vi p (modPart s p fun q => { q with winShadow := tset none q.winShadow n (some w) })

def windowRelease (k p : Nat) (e : VEntry) (o : CallOps) (s : State) : State :=
  let n := callScalar k e o 0
  if 255 < n ∨ tget none (part s p).winShadow n = none then endVerb s k e.vi .malformed
  else windowWait k e.vi p (modPart s p fun q => { q with winShadow := tset none q.winShadow n none })

/-! ### Points changes (R317, R319) -/

/-- A change goes behind those whose targets are not later than its own (R317). -/
def pointsInsert (r : PointsReq) : List PointsReq → List PointsReq
  | [] => [r]
  | x :: t => if tickAfter r.target x.target then x :: pointsInsert r t else r :: x :: t

/-- The changes that wait, with one more: a deferred one stays first (R319). -/
def pointsAdd (s : State) (p : Nat) (r : PointsReq) : List PointsReq :=
  match (part s p).points with
  | x :: t => if odN s (kPointsState p) = 0x0B then x :: pointsInsert r t else pointsInsert r (x :: t)
  | [] => [r]

/-- `points_change` (R317); scalar 0 is the phase, scalar 1 the offset from the anchor. -/
def pointsChange (k p : Nat) (e : VEntry) (o : CallOps) (s : State) : State :=
  match jobOf s p with
  | none => endVerb s k e.vi .malformed
  | some j =>
    let ph := callScalar k e o 0
    if j.phases ≤ ph then endVerb s k e.vi .malformed
    else
      let target := ((con s k).anchor.getD (Config.noAnchor k) + callScalar k e o 1) % 2 ^ 48
      let s := modPart s p fun q => { q with points := pointsAdd s p ⟨k, e.vi, ph, tickMax target (tickNow s + 1)⟩ }
      match (part s p).points with
      | x :: _ => odSet s (kPointsPending p) x.phase
      | [] => s

/-! ### The step's routines -/

/-- Whether a verb calls `step_vote`. -/
def isVote (e : VEntry) : Bool := match e.verb with
  | .call r _ => r = 0x30
  | _ => false

/-- A `step_vote` waits until every earlier verb of the step has posted and the sidings are empty (R289, R315): those before it in its
own consist, and in another those before that one's own `step_vote`. -/
def earlierDone (s : State) (p k vi : Nat) : Bool :=
  (consistsOf s p).all fun j =>
    let c := con s j
    c.siding = [] && c.sidingRuns = [] && ((openVerbs c).takeWhile fun e => if j = k then e.vi ≠ vi else !isVote e) = []

/-- The module votes yes once the earlier verbs of a `step_vote` have posted (R289). -/
def tryVote (s : State) (p : Nat) : State :=
  let x := (part s p).step
  if x.vote = none ∧ x.voters.any (fun v => earlierDone s p v.1 v.2.1) then castVote s p 0 else s

/-- `step_vote` (R289, R290); scalar 0 is the address of the anchor record, 0 none. DESIGN CHOICE: where several consists call it in one
step, the base semaphore of the first carries the decision, and every call ends by it. -/
def stepVote (k p : Nat) (e : VEntry) (o : CallOps) (s : State) : State :=
  match jobOf s p with
  | none => endVerb s k e.vi .malformed
  | some j =>
    let a := callScalar k e o 0
    if !anchorOk s p a then endVerb (countDenied s (some p)) k e.vi .denied
    else
      let s := modStep s p fun x =>
        { x with group := some (x.group.getD (j.rank, jobSize j, o.baseSem))
                 voters := x.voters ++ [(k, e.vi, if a = 0 then none else some a)] }
      tryVote s p

/-- The update routines (R278, R279): scalar 0 is the command's address (`update_custom`: scalar 1, the slot is scalar 0). -/
def updateCall (r k p : Nat) (e : VEntry) (o : CallOps) (s : State) : State :=
  let a := callScalar k e o (if r = 0x2F then 1 else 0)
  let slot := if r = 0x2F then callScalar k e o 0 else r - 0x2C
  if !listRegionOk s a ∨ !allotted s p a 64 false then endVerb (countDenied s (some p)) k e.vi .denied
  else
    let (bs, bad) := loadBytes s a 64
    let (c, res) := parseCmd bs
    if bad then endVerb s k e.vi .poisoned
    else if c.rule ≠ slot ∨ (r = 0x2F ∧ slot < 3) ∨ res ≠ 0 ∨ !scalarsOk c then endVerb s k e.vi .malformed
    else updateHand s p c (k, e.vi)

/-- `step_counter_read`: the 8 bytes of the counter of the descriptor at scalar 0, in the near tier (R274), go to the address in scalar
1. -/
def counterRead (k p : Nat) (e : VEntry) (o : CallOps) (s : State) : State :=
  let a := callScalar k e o 0
  let d := callScalar k e o 1
  if a % 64 ≠ 0 then endVerb s k e.vi .malformed
  else if !rangeInTier s p 2 a 64 false then endVerb (countDenied s (some p)) k e.vi .denied
  else
    let (s, st) := writeAllowed s p d 8
    if st ≠ .ok then endVerb s k e.vi st
    else
      let (bs, bad) := loadBytes s (a + 56) 8
      let (s, st) := copyBytes s d bs (if bad then [(0, 8)] else []) (some p)
      endVerb s k e.vi st

/-- `layer_scale_set`: scalar 0 is the layer, scalar 1 its k (R110, R276). -/
def layerScaleSet (k p : Nat) (e : VEntry) (o : CallOps) (s : State) : State :=
  let l := callScalar k e o 0
  let kk := callScalar k e o 1
  if odN s (kLayerTableAddr p) = 0 ∨ 4096 ≤ l then endVerb s k e.vi .malformed
  else
    let x := codeInt 32 kk
    let old := memRead s.mem (layerAddr s p l true) 32
    if x < -32 ∨ 32 < x then endVerb s k e.vi .malformed
    else if rangeLost s (layerAddr s p l true) 32 then endVerb s k e.vi .poisoned
    else
      let (s, st) := layerWrite s p l (lset old 1 (BitVec.ofNat 8 kk))
      endVerb s k e.vi st

/-- `loss_submit` (R114): one element of a one-module job is the step's loss; how a job's losses are reduced is not stated. -/
def lossSubmit (k p : Nat) (e : VEntry) (o : CallOps) (s : State) : State :=
  let r := lgetN e.nouns 0
  if r.handle = 0 then endVerb s k e.vi .malformed
  else
    let (ws, bad) := inputWords s (20 * k) [r]
    let (s, st) := callNouns s p [] [r]
    if st ≠ .ok ∨ !inMask (idxBanks r false (allIdx r.n)) e.rmask then endVerb s k e.vi .denied
    else if bad then endVerb s k e.vi .poisoned
    else
      let alone : Bool := match jobOf s p with
        | some j => jobSize j = 1
        | none => true
      let loss := match ws with
        | [w] => if alone then w else Config.routineWord 0x19 ws 0
        | _ => Config.routineWord 0x19 (ws ++ o.scalars.map fun x => BitVec.ofNat 32 (scalVal k 0 e.loopIx x)) 0
      let (s, st) := watchSubmit s p loss.toNat
      endVerb s k e.vi st

/-- `histogram_clear` (R89). -/
def histClear (k : Nat) (e : VEntry) (o : CallOps) (s : State) : State :=
  let slot := callScalar k e o 2
  if slot = 0 ∨ 255 < slot then endVerb s k e.vi .malformed
  else
    let s := poke s (histTable k + 256 * slot) (zeros 256)
    let s := if callScalar k e o 0 = 0 then s else poke s (histTable k + slot) (leBytes 1 (callScalar k e o 1))
    endVerb s k e.vi .ok

/-! ### Matrix products by a routine -/

/-- `matmul_bias` and `matmul_fp32`: output, A (dimension 0 is K), B (dimension 1 is K), and the bias as initial value. -/
def matmulCall (kind : MatKind) (k p : Nat) (e : VEntry) (o : CallOps) (s : State) : State :=
  let h (i : Nat) : Nat := lget 0 o.nouns i
  let a := (lgetN e.nouns 1).n
  let kt := dimExt a 0
  let bd := if isBlockFmt (lgetN e.nouns 2).n.format then 0 else 1
  let m : MmaOps :=
    { a := h 1, b := h 2, out := h 0, init := if kind = .plain then h 3 else 0, stats := 0, k0 := 0, k1 := stepCount kind kt,
      kTotal := kt, aKDim := 0, bKDim := bd, spill := none, resume := none, recPerCore := 0, jobTag := 0, alpha := .imm 0,
      statMode := .none, outForm := .raw, parity := [] }
  let ns := [lgetN e.nouns 1, lgetN e.nouns 2, lgetN e.nouns 0, lgetN e.nouns 3, lgetN [] 0]
  let st := matrixCheck s k p e.loopIx kind m ns
  if st ≠ .ok then endVerb s k e.vi st
  else runCores k e.vi (fun i s => matrixPart kind m k i { e with nouns := ns } s) s

/-! ### The phrasebook -/

/-- The status codes in rising order (R512). -/
def allStatuses : List Status :=
  [.ok, .partly, .poisoned, .counterSkew, .timeout, .overrun, .deadlock, .denied, .authFail, .hostLost, .staleManifest,
   .notReady, .nonfinite, .uncoupled, .aborted, .malformed, .capacity, .partnerAbsent, .quarantined]

/-- The ranges that a call's first work reads: its input nouns, the outputs that it reads too, the records that its scalars name. -/
def callRanges (r k : Nat) (e : VEntry) (o : CallOps) : List (Nat × Nat) :=
  let ns := if r ≤ 0x0E ∨ r = 0x19 ∨ r = 0x23 then e.nouns else e.nouns.drop (callOutputs r)
  let used := ns.filter fun x => x.handle ≠ 0
  (if used.any fun x => x.n.tier = 0 then [(scratchBase + 20 * k * 0x40_0000, 20 * 0x40_0000)] else []) ++
  (used.filter fun x => x.n.tier ≠ 0).flatMap nounRanges ++
  (if r = 0x24 then [(scratchBase + 20 * k * 0x40_0000, 20 * 0x40_0000)]
   else if r = 0x25 then [(callScalar k e o 0, 20 * callScalar k e o 2 * recStride)]
   else if r = 0x2A ∨ (0x2C ≤ r ∧ r ≤ 0x2F) ∨ r = 0x31 then [(callScalar k e o (if r = 0x2F then 1 else 0), 64)] else [])

/-- What a call does once its cores have issued it (R156, R159). DESIGN CHOICE (R165): this is where `phrasebook_calls` counts it,
whatever its status; a call refused at its broadcast or aborted by its input does not count. -/
def runCall (r : Nat) (k p : Nat) (e : VEntry) (o : CallOps) (s : State) : State :=
  let s := bump s kPhrasebookCalls 1 (some p)
  let st : Status := if 8 < o.nouns.length ∨ 4 < o.scalars.length then .malformed else callSems s p k e.queue r o.baseSem
  let (s, up) := if st = .ok then touchNouns s e.nouns else (s, true)
  if st ≠ .ok then endVerb s k e.vi st
  else if !up then endVerb s k e.vi .denied
  else
    let s := internalPosts s p k e.queue r o.baseSem
    match r with
    | 0x00 | 0x01 | 0x02 | 0x03 | 0x04 | 0x05 | 0x06 | 0x07 | 0x08 | 0x09 | 0x0B | 0x0C | 0x0D | 0x0E => collCall r k p e o s
    -- the buffer is released by the token (R304)
    | 0x0A => endVerb s k e.vi .ok
    | 0x0F => pointsChange k p e o s
    | 0x10 => statMergeCall k p e o s
    | 0x19 => lossSubmit k p e o s
    | 0x1C => mapCall .vector k p e (fun v => v.mul (.fin false 1 (codeInt 32 (callScalar k e o 0)))) s
    | 0x1D => histClear k e o s
    | 0x1E | 0x21 => mapCall .vector k p e id s
    | 0x1F =>
      let out := lgetN e.nouns 0
      let src := lgetN e.nouns 1
      let a := callScalar k e o 0
      let b := callScalar k e o 1
      let swap (ix : List Nat) : List Nat := lset (lset ix a (lget 0 ix b)) b (lget 0 ix a)
      if out.handle = 0 ∨ src.handle = 0 ∨ out.n.rank ≠ src.n.rank ∨ a = b ∨ src.n.rank ≤ a ∨ src.n.rank ≤ b ∨
        ((List.range src.n.rank).any fun d => ext out.n d ≠ ext src.n (if d = a then b else if d = b then a else d)) then
        endVerb s k e.vi .malformed
      else
        let (s, st) := callNouns s p [out] [src]
        if st ≠ .ok then endVerb s k e.vi st
        else runCores k e.vi (mapPart .vector k e out (fun _ _ ix => readIn e src (swap ix)) fun s core ix => inElem s src core (swap ix)) s
    | 0x20 =>
      let out := lgetN e.nouns 0
      if out.handle = 0 then endVerb s k e.vi .malformed
      else
        let (s, st) := callNouns s p [out] []
        if st ≠ .ok then endVerb s k e.vi st
        else runCores k e.vi (fun i s =>
          mapPart .vector k e out (fun _ _ _ => true) (fun _ _ _ => some (v32 (scalVal k i e.loopIx (lget (.imm 0) o.scalars 0)))) i s) s
    | 0x22 => gatherRowsCall k p e s
    | 0x23 => scatterAddRowsCall k p e s
    | 0x24 => spillCall true k p e o s
    | 0x25 => spillCall false k p e o s
    | 0x26 =>
      let so : StreamOps := ⟨0, lget 0 o.nouns 1, lget 0 o.nouns 0, 0, 0, 1, 0, 0, 0⟩
      let ns := [lgetN e.nouns 1, lgetN e.nouns 0]
      let st := streamCheck s p false so ns
      if st ≠ .ok then endVerb s k e.vi st
      else
        porterCall k e ((List.range 20).flatMap fun i => nounBlocksOf so k e.vi i (lgetN ns 0) (lgetN ns 1) false) s
    | 0x27 => moveCall k e o (devAt (callScalar k e o 0)) (depotAt (callScalar k e o 1)) s
    | 0x28 | 0x29 => moveCall k e o (depotAt (callScalar k e o 1)) (devAt (callScalar k e o 0)) s
    | 0x2A => windowRegister k p e o s
    | 0x2B => windowRelease k p e o s
    | 0x2C | 0x2D | 0x2E | 0x2F => updateCall r k p e o s
    | 0x30 => stepVote k p e o s
    | 0x31 => counterRead k p e o s
    | 0x32 => moveCall k e o (devAt (callScalar k e o 1)) (devAt (callScalar k e o 0)) s
    | 0x33 => layerScaleSet k p e o s
    | 0x38 =>
      let out := lgetN e.nouns 0
      if out.handle = 0 then endVerb s k e.vi .malformed
      else
        let (s, st) := callNouns s p [out] []
        if st ≠ .ok then endVerb s k e.vi st
        else runCores k e.vi (fun i => writePart .vector k i e out ((coreIdx out.n i).filter fun ix => lget 0 ix 1 < lget 0 ix 0)
          (fun _ _ _ => true) (fun _ _ _ => some (Val.inf true))) s
    | 0x39 => attentionMergeCall k p e o s
    | 0x3A => matmulCall .plain k p e o s
    | 0x3B => matmulCall .split3 k p e o s
    -- self_test: what it finds, and the status of a failure, are not stated: a free value names the status
    | 0x3F => endVerb { s with free := s.free + 1 } k e.vi (lget .ok allStatuses ((Config.routineWord 0x3F [] s.free).toNat % 19))
    | _ => freeCall r k p e o s

end Sys2Proof.Machine
end

