-- ==== Sys2Proof/Machine/Seq.lean ====
section
/-! DEFINITION. The group sequencer and the scoreboards (R123 to R158), slots (R177 to R182) and the siding (R309 to R315):
how a verb that the sequencer reaches is broadcast, issued, run, and how its token is posted. -/

namespace Sys2Proof.Machine

/-! ### What every verb carries (R130, R155) -/

/-- An awaited token's ranges: a base and four signed 16-bit steps (R155). -/
def awaitOk (w : Await) : Bool :=
  decide (w.sem < 65536 ∧ w.base < 2 ^ 32 ∧ w.step.length = 4) && w.step.all fun x => decide (-32768 ≤ x ∧ x < 32768)

/-- Ranges of what every verb carries. -/
def hdrOk (h : VerbHdr) : Bool :=
  h.consist < 40 && h.queue < 16 && h.waits.length ≤ 4 && h.waits.all awaitOk &&
  h.rmask < 65536 && h.wmask < 65536 && (match h.post with
    | some i => i < 65536
    | none => true)

/-- Ranges of the numbers that a verb names. -/
def verbOk : Verb → Bool
  | .post i => decide (i < 65536)
  | .signalArrive i c => decide (i < 65536 ∧ c < 2 ^ 32)
  | .semReset i c => decide (i < 65536 ∧ c < 2 ^ 32)
  | .slotMark o => decide (o.slot < 65536 ∧ o.offset < 65536)
  | .call _ o => decide (o.baseSem < 65536)
  | _ => true

/-- The indices of the four loop levels; 0 outside a level (R131). -/
def loopIndices (c : Consist) : List Nat := (List.range 4).map fun l => (lget ⟨0, 0, 0⟩ c.loops l).index

/-- The awaited sequences of a verb at its broadcast (R155). -/
def awaited (h : VerbHdr) (ix : List Nat) : List (Nat × Nat) :=
  h.waits.map fun w =>
    (w.sem, (((w.base : Int) + ((List.range 4).map fun l => lget 0 w.step l * (lget 0 ix l : Int)).foldl (· + ·) 0) % 2 ^ 32).toNat)

/-- The noun handles that a verb resolves at broadcast (R128); 0 names none. -/
def verbHandles : Verb → List Nat
  | .matrix _ o => [o.a, o.b, o.out, o.init, o.stats]
  | .vector o => o.nouns
  | .stream o => if o.form = 0 then [o.src, o.dst] else []
  | .atomicAdd o => if o.form = 0 then [o.src, o.dst] else []
  | .scaleAdjust n _ => [n]
  | .scaleApply n => [n]
  | .call _ o => o.nouns
  | _ => []

/-- Resolves the nouns of a verb: the descriptors and the lowest status that any of them gives. -/
def resolveAll (s : State) (k : Nat) (hs ix : List Nat) : List RNoun × Status :=
  let l := hs.map fun h => if h = 0 then (Status.ok, lgetN [] 0) else resolveNoun s k h ix
  (l.map fun x => x.2, lowestStatus (l.map fun x => x.1))

/-- The scalar operands of a verb. -/
def verbScalars : Verb → List Scal
  | .matrix _ o => [o.alpha]
  | .vector o => o.scalars
  | .call _ o => o.scalars
  | .park o => o.scalars
  | _ => []

/-- A class's own checks at broadcast, at the loop indices in force. -/
def classCheck (s : State) (k p : Nat) (ix : List Nat) (v : Verb) (ns : List RNoun) : Status :=
  match v with
  | .matrix kind o => matrixCheck s k p ix kind o ns
  | .vector o => vrunCheck s k o ns
  | .stream o => streamCheck s p false o ns
  | .atomicAdd o => streamCheck s p true o ns
  | _ => .ok

/-! ### The place in the stream -/

/-- The next number in the expanded stream (R146). -/
def nextNumber (k : Nat) (s : State) : State := modCon s k fun c => { c with vi := (c.vi + 1) % 2 ^ 32 }

/-- Moves to a position of the stream; a stream's end acts as `halt` (R124). -/
def placeAt (k pos : Nat) (s : State) : State :=
  modCon s k fun c =>
    let last := match c.prog with
      | some g => decide (g.stream.length ≤ pos)
      | none => true
    { c with pos := pos, ending := c.ending || last }

/-- Moves to a position of the stream and to the next number. DESIGN CHOICE (R146): `loop_begin`, `loop_end` and a whole call each take
one position of the expanded stream. -/
def moveTo (k pos : Nat) (s : State) : State := nextNumber k (placeAt k pos s)

def advance (k : Nat) (s : State) : State := moveTo k ((con s k).pos + 1) s

/-- Position after the `loop_end` that matches a `loop_begin` whose body starts at a position. -/
def skipLoop : List StreamItem → Nat → Nat → Nat
  | [], pos, _ => pos
  | .loopBegin :: r, pos, d => skipLoop r (pos + 1) (d + 1)
  | .loopEnd :: r, pos, d => if d = 0 then pos + 1 else skipLoop r (pos + 1) (d - 1)
  | _ :: r, pos, d => skipLoop r (pos + 1) d

/-- A consist whose stream has ended enters `stopped` once its last verb has completed (R124). -/
def finishCheck (k : Nat) (s : State) : State :=
  let c := con s k
  if c.ending ∧ c.pstate = .running ∧ c.verbs = [] ∧ c.sidingRuns = [] then
    setCon s k { c with pstate := .stopped, ending := false, hold := none, ahead := [] }
  else s

/-! ### Issue (R148, R149) -/

/-- The ranges that a core's part of a verb reads, for what the error correction finds there; a vector part may read all of its
scratch. -/
def partRanges (k core : Nat) (e : VEntry) (s : State) : List (Nat × Nat) :=
  match e.verb with
  | .matrix kind o => matrixRanges kind o k core e s
  | .vector _ => [(scratchBase + (20 * k + core) * 0x40_0000, 0x20_0000)]
  | .stream o => listRanges o core
  | .atomicAdd o => listRanges o core
  | _ => []

/-- A core's part as it is issued: it ends, or its blocks go to the porters. Sync and scale verbs and calls run once all cores have
issued them. -/
def runPart (k core : Nat) (e : VEntry) (s : State) : State :=
  let rs := partRanges k core e s
  let p := conPart s k
  match e.verb with
  | .matrix kind o =>
    let (s, st) := underEcc rs e.ecc p (matrixPart kind o k core e) s
    endPart s k e.vi core st
  | .vector o =>
    let (s, st, _) := underEcc rs e.ecc p (vectorPart o k core e) s
    endPart s k e.vi core st
  | .stream o =>
    match underEcc rs e.ecc p (streamPart false o k core e) s with
    | (s, some st) => endPart s k e.vi core st
    | (s, none) => s
  | .atomicAdd o =>
    match underEcc rs e.ecc p (streamPart true o k core e) s with
    | (s, some st) => endPart s k e.vi core st
    | (s, none) => s
  | .signalArrive _ _ => s
  | .semReset _ _ => s
  | .scaleAdjust _ _ => s
  | .scaleApply _ => s
  | .call _ _ => s
  | _ => endPart s k e.vi core .ok

/-- Whether the parts of a verb run together once every core has issued it: what ends the whole verb without a write is then found
before a core writes. DEDUCED (R21, R81): a `vrun` whose kernel forms scratch offsets, and a verb that resumes from records. -/
def runsWhole (k : Nat) (e : VEntry) (s : State) : Bool :=
  match e.verb with
  | .matrix _ o => o.resume.isSome
  | .vector o => formsOffsets (kernelOf s k o)
  | _ => false

/-- Whether a verb's parts run only once every core has issued it: sync and scale verbs and calls (R132), and parts that run together. -/
def runsTogether (k : Nat) (e : VEntry) (s : State) : Bool :=
  match e.verb with
  | .signalArrive _ _ => true
  | .semReset _ _ => true
  | .scaleAdjust _ _ => true
  | .scaleApply _ => true
  | .call _ _ => true
  | _ => runsWhole k e s

/-- Whether a verb still runs though no core issues it any more (R406, R420): some part that it has on a core has not ended. -/
def stillRuns (k : Nat) (e : VEntry) (s : State) : Bool :=
  if e.issued = allCores then e.parts.any (· = none)
  else !runsTogether k e s && (bitList 20 e.issued).any fun i => lget none e.parts i = none

/-- Whether it ends by the module's own engines: a call that has no block with the porters waits for others (messages, decisions,
swaps, shards), which need not come in hold or after a release (R379, R406, R422). -/
def endsAlone (k : Nat) (e : VEntry) (s : State) : Bool :=
  let mine (b : Block) : Bool := b.consist = k && b.vi = e.vi && !b.stale
  stillRuns k e s && (match e.verb with
    | .call _ _ => s.pools.any fun x => x.2.pending.any mine || x.2.flight.any fun f => mine f.block
    | _ => true)

/-- Parts that run together (R21, R81): all are made, or none writes. A part that has ended before stands. -/
def wholeRun (k : Nat) (e : VEntry) (s : State) : State :=
  let p := conPart s k
  let open' (i : Nat) : Bool := lget none e.parts i = none
  let run (s : State) : State := upto 20 (fun i s => if open' i then runPart k i e s else s) s
  let refuse (st : Status) (s : State) : State := upto 20 (fun i s => if open' i then endPart s k e.vi i st else s) s
  match e.verb with
  | .matrix kind o =>
    let n := matrixReject kind o k e s
    if n = 0 then run s else refuse .malformed (bump s kResumeRejects n p)
  | .vector o =>
    if (List.range 20).any fun i => open' i && (underEcc (partRanges k i e s) e.ecc p (vectorPart o k i e) s).2.2 then
      -- the reads have been made all the same
      let s := upto 20 (fun i s => if open' i then (underEcc (partRanges k i e s) e.ecc p (fun s => (s, ())) s).1 else s) s
      refuse .denied (countDenied s p)
    else run s
  | _ => s

/-- What a verb does once all 20 cores have issued it (R132): the sync and scale classes and calls, and parts that run together. -/
def runOnce (k vi : Nat) (s : State) : State :=
  match findVerb s k vi, conPart s k with
  | some e, some p =>
    let aborted := e.origin ≠ none
    match e.verb with
    | .signalArrive sem c =>
      -- R189: an arrival that does not run is still delivered, with status aborted
      let (s, st) := arrivePost s p sem c (if aborted then 0x0E else 0) (queueCode k e.queue)
      let s := castOwed s
      if aborted then s else endVerb s k vi st
    | .semReset sem n =>
      if aborted then s
      else
        let v := semGet s sem
        if v.part ≠ p ∨ semDie sem ≠ conDie k ∨ v.setter ≠ queueCode k e.queue then endVerb s k vi .denied
        else endVerb (semReset s sem (v.clear n)) k vi .ok
    | .scaleAdjust h op =>
      if aborted then s
      else
        let (s, st) := scaleAdjust k vi h (lgetN e.nouns 0) (some op) (stepOpen s p) s
        endVerb s k vi st
    | .scaleApply h =>
      if aborted then s
      else
        let (s, st) := scaleAdjust k vi h (lgetN e.nouns 0) none (insideStep s p) s
        endVerb s k vi st
    | .call r o => if aborted then s else (underEcc (callRanges r k e o) e.ecc (some p) (fun s => (runCall r k p e o s, ())) s).1
    | _ => if aborted ∨ !runsWhole k e s then s else wholeRun k e s
  | _, _ => s

/-- Issues a verb on one core and runs its part there (R132, R144, R145), unless all parts run together. -/
def issueOne (k core vi : Nat) (s : State) : State :=
  match findVerb s k vi with
  | none => s
  | some e =>
    let s := modVerb s k vi fun e => { e with issued := bitSet e.issued core }
    let s := if e.origin ≠ none then endPart s k vi core .aborted else if runsWhole k e s then s else runPart k core e s
    if bitSet e.issued core = allCores then runOnce k vi s else s

/-- The ready head that was broadcast earliest on a core. -/
def readyHead (c : Consist) (core : Nat) : Option VEntry := c.verbs.find? (canIssue c core)

/-- Issues one verb on every core on which it is the earliest ready head. -/
def issueReady (k vi : Nat) (s : State) : State :=
  if !live s k ∨ stepLocked s k then s
  else upto 20 (fun core s =>
    match readyHead (con s k) core with
    | some e => if e.vi = vi then issueOne k core vi s else s
    | none => s) s

/-! ### Broadcast (R125 to R128, R134) -/

/-- The post of a verb: a `post` verb's own semaphore (R132). -/
def verbPost (x : VerbIn) : Option Nat := match x.v with
  | .post i => some i
  | _ => x.h.post

/-- Why a verb is not broadcast: an awaited semaphore outside the partition's range (R140, R184), a `post` verb with a
second post, a scalar of an enclosing call where none encloses it (R131, DESIGN CHOICE: malformed), a noun, or the class's own
checks (R134, R162). -/
def broadcastCheck (s : State) (p : Nat) (ix : List Nat) (x : VerbIn) (waits : List (Nat × Nat)) (ns : List RNoun) (nst : Status) : Status :=
  let second : Bool := match x.v, x.h.post with
    | .post i, some j => decide (i ≠ j)
    | _, _ => false
  if waits.any fun w => (semGet s w.1).part ≠ p then .denied
  else if second ∨ (verbScalars x.v).any scalOpen then .malformed
  else if nst ≠ .ok then nst
  else classCheck s x.h.consist p ix x.v ns

/-- A verb with a function applied to its scalar operands. -/
def mapScalars (f : Scal → Scal) : Verb → Verb
  | .matrix kind o => .matrix kind { o with alpha := f o.alpha }
  | .vector o => .vector { o with scalars := o.scalars.map f }
  | .call r o => .call r { o with scalars := o.scalars.map f }
  | .park o => .park { o with scalars := o.scalars.map f }
  | v => v

/-- A scalar as it is broadcast: the stage coordinate (R300, R305) is put in as a number, 0 without a job map. -/
def bindStage (s : State) (k : Nat) : Scal → Scal
  | .stage => .imm (BitVec.ofNat 64 (match (conPart s k).bind (jobOf s) with
    | some j => (coords j j.rank).2.2.2
    | none => 0))
  | x => x

/-- Broadcasts a verb that runs on cores, with the given loop indices, or posts its failure at once; answers the code in which one
that is not broadcast has ended. DESIGN CHOICE (R165): a phrasebook call adds one to `verbs_broadcast`, and a `siding_park` none. -/
def enter (x : VerbIn) (ix : List Nat) (s : State) : State × Option Nat :=
  let k := x.h.consist
  match conPart s k with
  | none => (s, some 0x07)
  | some p =>
    let s := openStep s p
    let x := { x with v := mapScalars (bindStage s k) x.v }
    let vi := (con s k).vi
    let waits := awaited x.h ix
    let (ns, nst) := resolveAll s k (verbHandles x.v) ix
    let st := broadcastCheck s p ix x waits ns nst
    if st ≠ .ok then
      let (s, c) := endToken s k vi x.h.queue (verbClass x.v) (verbPost x) (stCode st) noParts none
      (errorToken s (some p) c, some c)
    else
      let e : VEntry :=
        { vi := vi, cls := verbClass x.v, queue := x.h.queue, verb := x.v, nouns := ns, loopIx := ix, waits := waits,
          post := verbPost x, rmask := x.h.rmask, wmask := x.h.wmask, issued := 0, parts := noParts,
          streams := List.replicate 20 ⟨0, none, false, []⟩, since := none, origin := none, judged := false, recv := [], phase := 0,
          ecc := x.h.ecc }
      let s := modCon s k fun c => { c with verbs := c.verbs ++ [judge s.sems e] }
      (markWaits k (issueReady k vi (bump s kVerbsBroadcast 1 (some p))), none)

/-! ### The siding (R309 to R315) -/

/-- A noun operand of a segment's verb: 1 to 8 name the entry's nouns. -/
def parkNoun (ns : List Nat) (h : Nat) : Nat := if h = 0 then 0 else lget 0 ns (h - 1)

/-- A segment's scalar operand: one that names a scalar of the enclosing call takes the entry's (R131). -/
def parkScalar (e : SidingEntry) : Scal → Scal
  | .call i => .imm (lget 0 e.scalars i)
  | x => x

/-- A segment's verb with the entry's queue, nouns and scalars in place; a `vrun` that names no scalars takes all of the entry's. -/
def parkVerb (e : SidingEntry) (x : VerbIn) : VerbIn :=
  let nn := parkNoun e.nouns
  let sc (l : List Scal) : List Scal := if l = [] then e.scalars.map Scal.imm else l.map (parkScalar e)
  { h := { x.h with queue := e.queue }
    v := match x.v with
      | .matrix kind o => .matrix kind
          { o with
            a := nn o.a
            b := nn o.b
            out := nn o.out
            init := nn o.init
            stats := nn o.stats
            alpha := parkScalar e o.alpha }
      | .vector o => .vector { o with nouns := o.nouns.map nn, scalars := sc o.scalars }
      | .stream o => .stream { o with src := nn o.src, dst := nn o.dst }
      | .atomicAdd o => .atomicAdd { o with src := nn o.src, dst := nn o.dst }
      | .scaleAdjust n op => .scaleAdjust (nn n) op
      | .scaleApply n => .scaleApply (nn n)
      | v => v }

/-- Status gathered by an entry or a drain (R158, R313). -/
def gatherStatus (old st : Nat) : Nat := if errCode old then old else if errCode st then st else max old st

/-- The next verb of a running siding entry is broadcast, if its queue has room; a full queue stops the whole broadcast, from this
tick (R126, R191). One that is refused at its broadcast has ended, and the entry gathers its status (R158). -/
def sidingNext (k i : Nat) (x : VerbIn) (s : State) : State :=
  let c := con s k
  match c.sidingRuns[i]? with
  | none => s
  | some run =>
    if run.rest = [] ∨ !live s k ∨ queueStopped c then s
    else if 64 ≤ queueUsed c run.entry.queue then setCon s k { c with stall := some (run.entry.queue, tickNow s) }
    else
      let (s, st) := enter (parkVerb run.entry { x with h := { x.h with consist := k } }) run.entry.loopIx s
      let run := { run with rest := run.rest.drop 1 }
      nextNumber k (modCon s k fun d => { d with sidingRuns := lset d.sidingRuns i (match st with
        | none => { run with out := run.out ++ [c.vi] }
        | some st => { run with status := gatherStatus run.status st }) })

/-- Broadcasts the verbs of running siding entries while their queues have room (R312); the numbers follow on. -/
def sidingFeed (k : Nat) (s : State) : State :=
  (con s k).sidingRuns.zipIdx.foldl (fun s r => r.1.rest.foldl (fun s x => sidingNext k r.2 x s) s) s

/-- Posts an entry's token under the number of its park, and lets a drain that is under way note it (R146, R313). -/
def sidingEnd (k : Nat) (e : SidingEntry) (st : Nat) (drain : Bool) (origin : Option (Nat × Nat)) (s : State) : State :=
  let s := if (con s k).draining = none then s else modCon s k fun c => { c with drainStatus := gatherStatus c.drainStatus st }
  -- cycles for which the main stream found an engine taken (R312)
  let s := if drain ∨ origin ≠ none then s else bumpFree s kSidingInterferenceCycles (conPart s k)
  if st = 0 ∧ e.post = none then s else postToken s k e.vi e.queue 6 e.post st noParts origin

/-- Removes running entries whose verbs have all completed. -/
def sidingSweep (k : Nat) (s : State) : State :=
  let done := (con s k).sidingRuns.filter fun r => r.rest = [] ∧ r.out = []
  let s := modCon s k fun c => { c with sidingRuns := c.sidingRuns.filter fun r => !(r.rest = [] && r.out = []) }
  done.foldl (fun s r => sidingEnd k r.entry r.status r.drain none s) s

/-- Starts an entry: its verbs are broadcast whole (R312). A first verb takes over tokens that are still awaited. -/
def sidingBegin (k : Nat) (e : SidingEntry) (waits : List Await) (drain : Bool) (s : State) : State :=
  let seg := match (con s k).prog with
    | some g => lget [] g.segments e.segment
    | none => []
  let seg := match seg with
    | x :: r => { x with h := { x.h with waits := x.h.waits ++ waits } } :: r
    | [] => []
  sidingSweep k (sidingFeed k (modCon s k fun c => { c with sidingRuns := c.sidingRuns ++ [⟨e, seg, [], 0, drain⟩] }))

/-- Runs one parked entry whose tokens have arrived, or posts it aborted (R311). -/
def sidingRun (k : Nat) (e : SidingEntry) (drain : Bool) (s : State) : State :=
  let s := modCon s k fun c => { c with siding := c.siding.erase e }
  match e.judged.getD (errorOrigin s.sems e.waits) with
  | some o => sidingEnd k e 0x0E drain (some o) s
  | none => sidingBegin k e [] drain (bump s (if drain then kSidingDrainRuns else kSidingBubbleRuns) 1 (conPart s k))

def waitsArrived (s : State) (w : List (Nat × Nat)) : Bool := w.all fun x => arrived (semGet s x.1) x.2

/-- A park: an entry behind the others, or the segment at once where the siding is full (R309, R314); it takes a number of the
stream (R146). DESIGN CHOICE (R22, R131): a
`core_index` among its scalars, which are read once for the consist, is core 0's. -/
def parkAt (x : VerbIn) (o : ParkOps) (ix : List Nat) (s : State) : State :=
  let k := x.h.consist
  let p := conPart s k
  let nseg := match (con s k).prog with
    | some g => g.segments.length
    | none => 0
  let vi := (con s k).vi
  let s := nextNumber k s
  if nseg ≤ o.segment ∨ o.cost = 0 ∨ 2 ^ 32 ≤ o.cost ∨ 8 < o.nouns.length ∨ 4 < o.scalars.length ∨ o.scalars.any scalOpen then
    postToken s k vi x.h.queue 6 x.h.post 0x0F noParts none
  else
    let e : SidingEntry :=
      { segment := o.segment, queue := x.h.queue, cost := o.cost, nouns := o.nouns, loopIx := ix, post := x.h.post,
        scalars := o.scalars.map fun c => BitVec.ofNat 64 (scalVal k 0 ix (bindStage s k c)), waits := awaited x.h ix, vi := vi,
        judged := judgeWaits s.sems (awaited x.h ix) none }
    let s := match p with
      | some p => openStep (bump s kPhrasebookCalls 1 (some p)) p
      | none => s
    if odN s (kSidingLimit (p.getD 40)) ≤ (con s k).siding.length then
      sidingBegin k e (e.waits.map fun w => ⟨w.1, w.2, [0, 0, 0, 0]⟩) false (bump s kSidingFullRuns 1 p)
    else
      let s := bump (modCon s k fun c => { c with siding := c.siding ++ [e] }) kSidingParks 1 p
      match p with
      | some p => odSet s (kSidingParkedMax p) (max (odN s (kSidingParkedMax p)) (con s k).siding.length)
      | none => s

/-- The work of a drain (R313): entries run in park order while their tokens have arrived; the broadcast is held until the
siding is empty. -/
def drainWork (k : Nat) (s : State) : State :=
  let s := (con s k).siding.foldl (fun s _ =>
    match (con s k).siding with
    | h :: _ => if waitsArrived s h.waits then sidingRun k h true s else s
    | [] => s) s
  let c := con s k
  match c.draining with
  | none => s
  | some (x, vi) =>
    match c.siding, c.sidingRuns with
    | [], [] =>
      let s := setCon s k { c with draining := none, hold := none, judged := none }
      let s := if x.h.post ≠ none ∨ c.drainStatus ≠ 0 then postToken s k vi x.h.queue 6 x.h.post c.drainStatus noParts none else s
      placeAt k (c.pos + 1) s
    | [], _ => setCon s k { c with hold := some (.control [] none) }
    | h :: _, _ =>
      let since := match c.hold with
        | some (.control w t) => if w = h.waits then t.getD (tickNow s) else tickNow s
        | _ => tickNow s
      setCon s k { c with hold := some (.control h.waits (some since)) }

/-! ### Control verbs (R127, R137, R152 to R154, R177 to R179) -/

/-- Whether the sequencer itself runs a verb (Table 1 of 05). A `call` stands in its queue for the verbs that it expands to, and its
awaited tokens are those of their first (R156). -/
def isControl : Verb → Bool
  | .loopBegin _ => true
  | .loopEnd => true
  | .slotWrite _ _ => true
  | .nounSet _ _ _ => true
  | .slotMark _ => true
  | .nop => true
  | .halt => true
  | .drain => true
  | _ => false

/-- Reads bytes of the partition's near tier or staging buffer for the sequencer (R199, R219). -/
def seqRead (s : State) (p a n : Nat) (e : Ecc) : State × Status × List Byte :=
  if !listRegionOk s a ∨ !allotted s p a n false then (countDenied s (some p), .denied, [])
  else
    let (s, lost) := if e = Ecc.clean then (s, []) else eccRead s a n e (some p)
    let (bs, bad) := loadBytes s a n
    (s, if bad ∨ lost ≠ [] then .poisoned else .ok, bs)

/-- Replaces an entry's noun; `dirty` and what the inflector keeps stay (R137). -/
def putNoun (s : State) (k h : Nat) (n : Noun) : State :=
  modCon s k fun c =>
    let old := (tget none c.nouns h).getD ⟨n, false, none, false⟩
    { c with nouns := tset none c.nouns h (some { old with noun := n }) }

/-- The checks of R134 on an entry image at the loop indices in force. -/
def nounStatus (s : State) (p h : Nat) (n : Noun) (ix : List Nat) : Status :=
  if h = 0 ∨ 4095 < h ∨ nounMalformed n then .malformed
  else match effective h n ix with
    | none => .denied
    | some r => if n.partition ≠ p ∨ !nounInside s p r false then .denied else .ok

/-- A control verb whose tokens have arrived: `st` is aborted where one of them holds an error (R145). -/
def runControl (x : VerbIn) (st : Status) (origin : Option (Nat × Nat)) (s : State) : State :=
  let k := x.h.consist
  let c := con s k
  let p := (conPart s k).getD 40
  let pt := conPart s k
  let tok (st : Status) (s : State) : State :=
    if st ≠ .ok ∨ x.h.post ≠ none then postToken s k c.vi x.h.queue 6 x.h.post (stCode st) noParts origin else s
  match x.v with
  | .loopBegin slot =>
    let st := if st ≠ .ok then st else if 63 < slot ∨ 4 ≤ c.loops.length then .malformed else .ok
    let n := if st = .ok then tget 0 c.slots slot else 0
    if n = 0 then
      let items := match c.prog with
        | some g => g.stream.drop (c.pos + 1)
        | none => []
      tok st (moveTo k (skipLoop items (c.pos + 1) 0) (if st = .ok then bump s kLoopsZeroCount 1 pt else s))
    else tok st (advance k (setCon s k { c with loops := c.loops ++ [⟨n, 0, c.pos + 1⟩] }))
  | .loopEnd =>
    match c.loops.getLast? with
    | none => tok .malformed (advance k s)
    | some l =>
      if st = .ok ∧ l.index + 1 < l.count then
        tok st (moveTo k l.start (setCon s k { c with loops := c.loops.dropLast ++ [{ l with index := l.index + 1 }] }))
      else tok st (advance k (setCon s k { c with loops := c.loops.dropLast }))
  | .slotWrite a slot =>
    if st ≠ .ok then tok st (advance k s)
    else if 63 < slot ∨ a % 4 ≠ 0 then tok .malformed (advance k s)
    else
      let (s, st, bs) := seqRead s p a 4 x.h.ecc
      tok st (advance k (if st = .ok then setCon s k { c with slots := tset 0 c.slots slot (leNat bs) } else s))
  | .nounSet h a image =>
    if st ≠ .ok then tok st (advance k s)
    else
      let (s, st, _) := if a % 64 ≠ 0 then (s, Status.malformed, []) else seqRead s p a 64 x.h.ecc
      let st := if st ≠ .ok then st else nounStatus s p h image (loopIndices c)
      tok st (advance k (if st = .ok then putNoun s k h image else s))
  | .slotMark o =>
    if st ≠ .ok then tok st (advance k s)
    else
      let (s, st, a) : State × Status × Option Nat := match o.anchor with
        | none => (s, .ok, c.anchor)
        | some a =>
          let (s, st, bs) := seqRead s p a 8 x.h.ecc
          if st ≠ .ok then (s, st, none) else if bits (leNat bs) 48 16 ≠ 0 then (s, .malformed, none) else (s, .ok, some (leNat bs))
      if st ≠ .ok then stopConsist (tok st s) k 0x0E
      else
        -- without an anchor the spec gives no target: a free tick stands for it
        let target := (a.getD (Config.noAnchor k) + o.offset) % 2 ^ 48
        let s := setCon s k { c with anchor := a, hold := some (.slot o.slot target (some (tickMax target (tickNow s + 1)))) }
        tok st (advance k s)
  | .drain =>
    if st ≠ .ok then tok st (advance k s)
    else
      let c := { c with draining := some (x, c.vi), drainStatus := 0, hold := some (.control [] none) }
      drainWork k (nextNumber k (setCon (bump s kPhrasebookCalls 1 pt) k c))
  | .nop => tok st (advance k s)
  | .halt => modCon (tok st (advance k s)) k fun c => { c with ending := c.ending || decide (st = .ok) }
  | _ => s

/-! ### The stream (R125 to R127) -/

/-- Keeps a verb that the broadcast cannot pass. -/
def holdAt (x : VerbIn) (h : Hold) (s : State) : State :=
  modCon s x.h.consist fun c => { c with hold := some h, ahead := x :: c.ahead }

/-- Whether every verb of the slot before has completed and the slot is closed (R177, R180). -/
def slotClear (c : Consist) : Bool := c.verbs = [] && c.sidingRuns = [] && c.slot = none

/-- What the tokens of a control verb held before have been judged to be is used up with the verb (R145). -/
def clearJudged (k : Nat) (s : State) : State := if (con s k).judged = none then s else modCon s k fun c => { c with judged := none }

/-- The sequencer reaches a verb. -/
def reach (x : VerbIn) (s : State) : State :=
  let k := x.h.consist
  let c := con s k
  let ix := loopIndices c
  let waits := awaited x.h ix
  match x.v with
  | .park o => placeAt k (c.pos + 1) (parkAt x o ix s)
  | v =>
    if isControl v then
      let denied := waits.any fun w => some (semGet s w.1).part ≠ conPart s k
      if !denied ∧ !waitsArrived s waits then holdAt x (.control waits (some (tickNow s))) (clearJudged k s)
      else
        let origin := c.judged.getD (errorOrigin s.sems waits)
        let st : Status := if denied then .denied else if origin ≠ none then .aborted else .ok
        let s := clearJudged k s
        match v with
        | .slotMark _ =>
          if slotClear c ∨ st ≠ .ok then runControl x st origin s
          else modCon (holdAt x (.slot 0 0 none) s) k fun c => { c with judged := some none }
        | _ => runControl x st origin s
    else if 64 ≤ queueUsed c x.h.queue then holdAt x (.queue x.h.queue (tickNow s)) s
    else
      let s := advance k (enter x ix s).1
      match v with
      | .call r _ => if r = 0x30 then modCon s k fun c => { c with afterVote := some (c.pos, c.vi) } else s
      | _ => s

/-- A verb comes from the stream: broadcast, or kept while the broadcast is held or stopped. A consist that does not run takes none. -/
def take (x : VerbIn) (s : State) : State :=
  let c := con s x.h.consist
  if c.pstate ≠ .running ∨ c.ending then s
  else if c.hold ≠ none ∨ c.stall ≠ none ∨ c.ahead ≠ [] ∨ !live s x.h.consist then setCon s x.h.consist { c with ahead := c.ahead ++ [x] }
  else reach x s

/-- The broadcast goes on with the verbs that were held. -/
def resume (k : Nat) (s : State) : State :=
  let l := (con s k).ahead
  finishCheck k (l.foldl (fun s x => take x s) (modCon s k fun c => { c with ahead := [], hold := none }))

/-- A `slot_mark` that waited for the slot before it goes on (R177, R179). -/
def slotReady (k : Nat) (s : State) : State :=
  let c := con s k
  match c.hold with
  | some (.slot _ _ none) => if slotClear c then resume k s else s
  | _ => s

/-- One verb of a stream. -/
def verb (h : VerbHdr) (v : Verb) (s : State) : Host.Outcome State Fault Refusal :=
  guardWf (hdrOk h && verbOk v) (finishCheck h.consist (take ⟨h, v⟩ s))

/-! ### Tokens of verbs in flight (R144, R158, R375) -/

/-- What follows once a verb of a consist has posted: the siding, a drain, a held `slot_mark`, a yes vote, the end. -/
def settle (k : Nat) (s : State) : State :=
  let s := sidingSweep k (sidingFeed k s)
  let s := if (con s k).draining ≠ none then
      let s := drainWork k s
      if (con s k).draining = none then resume k s else s
    else s
  let s := match conPart s k with
    | some p => tryVote s p
    | none => s
  markWaits k (finishCheck k (slotReady k s))

/-- Notes a siding verb's end. -/
def sidingNote (k vi st : Nat) (s : State) : State :=
  modCon s k fun c => { c with sidingRuns := c.sidingRuns.map fun r =>
    if (r.out.contains vi) then { r with out := r.out.erase vi, status := gatherStatus r.status st } else r }

/-- A verb's token is posted and the verb is gone; what follows sees the status in which it has ended. -/
def finishVerb (k : Nat) (e : VEntry) (st : Nat) (parts : List (Option Status)) (origin : Option (Nat × Nat)) (s : State) : State :=
  let s := modCon s k fun c => { c with verbs := c.verbs.filter fun f => f.vi ≠ e.vi }
  let (s, st) := endToken s k e.vi e.queue e.cls e.post st parts origin
  settle k (sidingNote k e.vi st (errorToken s (conPart s k) st))

/-- The last report of a verb has come: its token is posted, or its routine goes on (R144). What a stopped consist had issued on
every core still posts (R193). A collective of which a part has failed waits for no message (R375). -/
def tokenPost (k vi : Nat) (s : State) : State :=
  match findVerb s k vi with
  | none => s
  | some e =>
    let failed : Bool := (e.parts.filterMap id).any fun st => !partFine st
    if e.parts.any (· = none) ∨ (!waitsArrived s e.recv ∧ !failed) ∨ e.issued ≠ allCores then s
    else
      -- cycles in which the verb was blocked only by tokens or by a walk; a slot's share comes with SLOT_COMPLETE (R181)
      let s := if (con s k).slot = none then bumpFree s kSignalWaitCycles (conPart s k) else s
      let fine := (e.parts.filterMap id).all partFine && (errorOrigin s.sems e.recv).isNone
      match e.verb, conPart s k with
      | .call r o, some p =>
        if fine ∧ e.phase = 1 then
          match collOf r k p e o s with
          | .error st => endVerb (setPhase s k vi 0) k vi st
          | .ok c =>
            let w := nounLen c.src / c.n
            let a := c.out.n.base + c.r * w
            (underEcc [(a, w)] e.ecc (some p) (fun s =>
              (gatherPhase k p e c a w (modVerb s k vi fun e => { e with phase := 0, recv := [] }), ())) s).1
        else
          let s := if fine ∧ e.phase = 2 then
              let rs := match collOf r k p e o s with
                | .ok c => finishRanges r e c
                | .error _ => []
              (underEcc rs e.ecc (some p) (fun s => (collFinish r k p e o s, ())) s).1
            else s
          let parts := match findVerb s k vi with
            | some f => f.parts
            | none => e.parts
          -- a gathered buffer is still on its way to its receivers (R303)
          if parts.any (· = none) then s else
          let origin := errorOrigin s.sems e.recv
          let st := if origin ≠ none ∧ (parts.filterMap id).all partFine then 0x0E else stCode (tokenStatus (parts.filterMap id))
          let org := if e.origin ≠ none then e.origin else origin
          finishVerb k e st parts org (bufferToken k p r e ((parts.filterMap id).all partFine) s)
      | _, _ =>
        let st := stCode (tokenStatus (e.parts.filterMap id))
        finishVerb k e st e.parts e.origin s

/-! ### Commands of the verb classes -/

/-- MMA (R66 to R86). -/
def execMma (h : VerbHdr) (o : MmaOps) (s : State) : Host.Outcome State Fault Refusal := verb h (.matrix .plain o) s
/-- MMA_SPLIT2 (R72). -/
def execMmaSplit2 (h : VerbHdr) (o : MmaOps) (s : State) : Host.Outcome State Fault Refusal := verb h (.matrix .split2 o) s
/-- MMA_SPLIT3 (R72). -/
def execMmaSplit3 (h : VerbHdr) (o : MmaOps) (s : State) : Host.Outcome State Fault Refusal := verb h (.matrix .split3 o) s
/-- VRUN (R160). -/
def execVrun (h : VerbHdr) (o : VrunOps) (s : State) : Host.Outcome State Fault Refusal := verb h (.vector o) s
/-- STREAM (R227). -/
def execStream (h : VerbHdr) (o : StreamOps) (s : State) : Host.Outcome State Fault Refusal := verb h (.stream o) s
/-- ATOMIC_ADD (R244). -/
def execAtomicAdd (h : VerbHdr) (o : StreamOps) (s : State) : Host.Outcome State Fault Refusal := verb h (.atomicAdd o) s
/-- POST (R132). -/
def execPost (h : VerbHdr) (sem : Nat) (s : State) : Host.Outcome State Fault Refusal := verb h (.post sem) s
/-- WAIT (Table 6 of 06). -/
def execWait (h : VerbHdr) (s : State) : Host.Outcome State Fault Refusal := verb h .wait s
/-- SIGNAL_ARRIVE (R188). -/
def execSignalArrive (h : VerbHdr) (sem count : Nat) (s : State) : Host.Outcome State Fault Refusal := verb h (.signalArrive sem count) s
/-- SEM_RESET (Table 6 of 06). -/
def execSemReset (h : VerbHdr) (sem count : Nat) (s : State) : Host.Outcome State Fault Refusal := verb h (.semReset sem count) s
/-- SCALE_ADJUST_SHIFT (R106). -/
def execScaleAdjustShift (h : VerbHdr) (noun : Nat) (amount : Int) (s : State) : Host.Outcome State Fault Refusal := verb h (.scaleAdjust noun (.shift amount)) s
/-- SCALE_ADJUST_FRESH (R106). -/
def execScaleAdjustFresh (h : VerbHdr) (noun : Nat) (s : State) : Host.Outcome State Fault Refusal := verb h (.scaleAdjust noun .fresh) s
/-- SCALE_ADJUST_APPLY (R106). -/
def execScaleAdjustApply (h : VerbHdr) (noun : Nat) (s : State) : Host.Outcome State Fault Refusal := verb h (.scaleApply noun) s
/-- LOOP_BEGIN (R152). -/
def execLoopBegin (h : VerbHdr) (slot : Nat) (s : State) : Host.Outcome State Fault Refusal := verb h (.loopBegin slot) s
/-- LOOP_END (R152). -/
def execLoopEnd (h : VerbHdr) (s : State) : Host.Outcome State Fault Refusal := verb h .loopEnd s
/-- SLOT_WRITE (R154). -/
def execSlotWrite (h : VerbHdr) (addr slot : Nat) (s : State) : Host.Outcome State Fault Refusal := verb h (.slotWrite addr slot) s
/-- NOUN_SET (R137). -/
def execNounSet (h : VerbHdr) (handle addr : Nat) (image : Noun) (s : State) : Host.Outcome State Fault Refusal := verb h (.nounSet handle addr image) s
/-- SLOT_MARK (R177). -/
def execSlotMark (h : VerbHdr) (o : MarkOps) (s : State) : Host.Outcome State Fault Refusal := verb h (.slotMark o) s
/-- NOP (Table 1 of 05). -/
def execNop (h : VerbHdr) (s : State) : Host.Outcome State Fault Refusal := verb h .nop s
/-- HALT (R124). -/
def execHalt (h : VerbHdr) (s : State) : Host.Outcome State Fault Refusal := verb h .halt s
/-- SIDING_PARK (R309). -/
def execSidingPark (h : VerbHdr) (o : ParkOps) (s : State) : Host.Outcome State Fault Refusal := verb h (.park o) s
/-- SIDING_DRAIN (R313). -/
def execSidingDrain (h : VerbHdr) (s : State) : Host.Outcome State Fault Refusal := verb h .drain s

/-- VERB_ISSUE (R148): one core issues its earliest ready head; `cycles` were lost to a full scoreboard. -/
def execVerbIssue (k core cycles : Nat) (s : State) : Host.Outcome State Fault Refusal :=
  guardWf (decide (k < 40 ∧ core < 20))
    (let s := bump s kScoreboardFullCycles cycles (conPart s k)
     if (con s k).pstate ≠ .running ∨ !live s k ∨ stepLocked s k then s
     else match readyHead (con s k) core with
      | some e => markWaits k (issueOne k core e.vi s)
      | none => s)

/-- VERB_TOKEN_POST (R144). -/
def execVerbTokenPost (k vi : Nat) (s : State) : Host.Outcome State Fault Refusal :=
  guardWf (decide (k < 40)) (tokenPost k vi s)

/-- The queue on which the broadcast has stopped. -/
def fullQueue (c : Consist) : Option Nat :=
  match c.stall, c.hold with
  | some (q, _), _ => some q
  | none, some (.queue q _) => some q
  | none, _ => none

/-- The main stream goes on, unless a control verb holds it, and takes the slots that it can use; a siding entry has the rest
(R312). -/
def broadcastGo (k : Nat) (s : State) : State :=
  let s := if (con s k).hold = none then resume k s else s
  sidingSweep k (sidingFeed k s)

/-- BROADCAST_RESUME (R126): an entry of the full queue is free; the stop lasted `cycles`. -/
def execBroadcastResume (k cycles : Nat) (s : State) : Host.Outcome State Fault Refusal :=
  guardWf (decide (k < 40))
    (if !live s k then s
    else match fullQueue (con s k) with
    | none => sidingSweep k (sidingFeed k s)
    | some q =>
      if 64 ≤ queueUsed (con s k) q then s
      else
        let s := bump s kQueueFullStalls cycles (conPart s k)
        broadcastGo k (modCon s k fun c => { c with stall := none, hold := if c.stall = none then none else c.hold }))

/-- CONTROL_VERB_RELEASE (R127, R313): the awaited tokens of the verb that holds the broadcast have arrived. -/
def execControlVerbRelease (k : Nat) (s : State) : Host.Outcome State Fault Refusal :=
  guardWf (decide (k < 40))
    (match (con s k).hold with
    | some (.control w _) =>
      if !waitsArrived s w ∨ !live s k ∨ (con s k).stall ≠ none then s
      else if (con s k).draining ≠ none then settle k s
      else resume k s
    | _ => s)

/-- SIDING_ENTRY_START (R311): every queue has been empty or held by tokens for `idle` cycles; `left` cycles of the slot
remain. The oldest entry that qualifies starts. -/
def execSidingEntryStart (k idle left : Nat) (s : State) : Host.Outcome State Fault Refusal :=
  guardWf (decide (k < 40))
    (let c := con s k
     let bubble := (List.range 20).all fun core => (List.range 16).all fun q =>
       match c.verbs.find? fun e => e.queue = q && !bitOf e.issued core with
       | some e => !e.judged && otherReady c core e
       | none => true
     if c.pstate ≠ .running ∨ !live s k ∨ c.draining ≠ none ∨ idle < 64 ∨ !bubble then s
     else match c.siding.find? fun e => waitsArrived s e.waits && (c.slot = none || decide (e.cost ≤ left)) with
      | some e => settle k (sidingRun k e false s)
      | none => s)

end Sys2Proof.Machine
end

