-- ==== Sys2Proof/Machine/Clock.lean ====
section
/-! DEFINITION. Module time and the tick (R166 to R175, R345, R346, R537), slots (R177 to R182), deadlock detection (R191 to
R196). -/

namespace Sys2Proof.Machine

/-! ### The tick (R166 to R169) -/

/-- The tick number of a module time under R167; none before the epoch. -/
def tickAt (s : State) (mt : Nat) : Option Nat :=
  let p := tickPeriod s
  if p = 0 then none else (sinceEpoch s mt).map fun d => d / p % 2 ^ 48

/-- How far tick n lies ahead of the tick in force, by the shorter way round; 0 where it does not. -/
def ticksAhead (s : State) (n : Nat) : Nat :=
  if tickAfter n (tickNow s) then (n + 2 ^ 48 - tickNow s) % 2 ^ 48 else 0

/-- Cycles of a tick at the clock in force (R168). -/
def setCyclesPerTick (s : State) : State := odSet s kCyclesPerTickNow (tickPeriod s * odN s kClockNow / 1000)

/-- TICK_CHANGE_AT_WRITE (R169, R170). -/
def execTickChangeAtWrite (who : Who) (v : Nat) (s : State) : Host.Outcome State Fault Refusal :=
  guardWf (decide (v < 2 ^ 64))
    (dictWrite s who kTickChangeAt (.num v)
      (fun s => opOnly who (if anyOpen s then .denied else if v ≤ tickNow s + 1 then .malformed else .ok))
      (fun s => { (odSet s kTickChangeAt v) with time := { s.time with change := some v } }))

/-- TICK_EPOCH_WRITE (R169): the tick number is recomputed at once. -/
def execTickEpochWrite (who : Who) (v : Nat) (s : State) : Host.Outcome State Fault Refusal :=
  guardWf (decide (v < 2 ^ 64))
    (dictWrite s who kTickEpoch (.num v) (fun s => opOnly who (if anyOpen s then .denied else .ok))
      (fun s =>
        let s := odSet { s with time := { s.time with rebased := false } } kTickEpoch v
        { s with time := { s.time with tick := (tickAt s (moduleTime s)).getD 0 } }))

/-- TICK_CHANGE (R169): at boundary `tick_change_at` the period takes `tick_cycles_next` and the epoch is rebased. -/
def execTickChange (s : State) : Host.Outcome State Fault Refusal :=
  .next (match s.time.change with
    | some v =>
      if tickNow s ≠ v % 2 ^ 48 then s
      else
        let start := odN s kTickEpoch + v * tickPeriod s
        let s := odSet s kTickCycles (odN s kTickCyclesNext)
        let s := odSet s kTickEpoch (((start : Int) - (v * tickPeriod s : Nat)) % 2 ^ 64).toNat
        setCyclesPerTick { s with time := { s.time with change := none, rebased := true } }
    | none => s)

/-! ### Alignment (R171 to R174) -/

/-- Alignment is lost (R172). -/
def loseAlign (s : State) : State :=
  if odN s kTickAligned = 1 then bump (odSet s kTickAligned 0) kAlignmentLosses 1 none else s

/-- A new measured offset from the time source: `offset_bound`, the count towards a loss, and the correction, slewed at
±50 ppm or held back as a step (R172, R173). -/
def applyOffset (s : State) (d : Int) (elapsed : Nat) : State :=
  let bound := min (d.natAbs + 8) 0xFFFF_FFFF
  let s := odSet s kOffsetBound bound
  let x := s.time
  let bad := odN s kAlignLimit < bound
  let x := { x with filtered := d, overRun := if bad then x.overRun + 1 else 0, withinSince := if bad then none else some (x.withinSince.getD s.now) }
  if 1000 < d.natAbs then loseAlign { s with time := { x with pendingStep := some (-d) } }
  else
    let lim : Int := (elapsed * 50 / 1_000_000 : Nat)
    let c := max (-lim) (min lim (-d))
    let s := { s with time := { x with offset := x.offset + c, pendingStep := none } }
    if 4 ≤ x.overRun then loseAlign s else s

/-- Four expected signals in a row have not come (R345, R537). -/
def sourceLost (s : State) : State := loseAlign { s with time := { s.time with overRun := 4, withinSince := none } }

/-- ALIGNMENT_REGAIN (R172): the bound has stayed within the limit for 1 s. -/
def execAlignmentRegain (t : Nat) (s : State) : Host.Outcome State Fault Refusal :=
  let s := atTime s t
  .next (match s.time.withinSince with
    | some w =>
      if w + 1_000_000_000 ≤ s.now ∧ odN s kOffsetBound ≤ odN s kAlignLimit ∧ s.time.pendingStep = none ∧ odN s kTimeSource ≠ 2 ∧ odN s kTickAligned = 0 then
        { (odSet s kTickAligned 1) with time := { s.time with resumePaths := true } }
      else s
    | none => s)

/-- Slots that run past the boundary after their start (R180): of the `d` boundaries after tick `old`, one is S + 1. -/
def countOverruns (s : State) (old d : Nat) : State :=
  s.consists.foldl (fun s x => match x.2.slot with
    | some r =>
      let i := (r.start + 1 + 2 ^ 48 - old % 2 ^ 48) % 2 ^ 48
      if 1 ≤ i ∧ i ≤ d then bump s kSlotOverruns 1 (conPart s x.1) else s
    | none => s) s

/-- TIME_STEP (R173): the correction is applied once no step is open. A forward step moves the tick ahead. -/
def execTimeStep (t : Nat) (s : State) : Host.Outcome State Fault Refusal :=
  let s := atTime s t
  .next (match s.time.pendingStep with
    | some d =>
      if anyOpen s then s
      else
        let s := { s with time := { s.time with offset := s.time.offset + d, pendingStep := none, filtered := 0, withinSince := some s.now } }
        let s := bump (odSet s kOffsetBound 8) kTimeSteps 1 none
        match tickAt s (moduleTime s) with
        | some n =>
          let ahead := ticksAhead s n
          if ahead = 0 then s
          else
            let s := countOverruns s (tickNow s) ahead
            bump { s with time := { s.time with tick := n } } kTicksSkipped ahead none
        | none => s
    | none => s)

/-! ### PTP (R345, R346) -/

def ingressLatency (s : State) (n : Nat) : Int := codeInt 32 (odN s (kPtpIngressLatency n))
def egressLatency (s : State) (n : Nat) : Int := codeInt 32 (odN s (kPtpEgressLatency n))

/-- Whether a message reaches the engine: the source is PTP and the port its own; elsewhere row 7 of Table 2 of 12 has dropped it. -/
def ptpHeard (s : State) (port : Nat) : Bool := odN s kTimeSource = 0 && port = odN s kPtpPort

/-- Whether the engine takes it: the header is good and the domain its own. -/
def ptpOk (s : State) (ok : Bool) (domain : Nat) : Bool := ok && domain = odN s kPtpDomain

/-- Drops and counts a bad message. -/
def ptpBad (s : State) (port : Nat) : State := bump s (kPtpBadMessages port) 1 none

/-- A complete Sync measurement: `t1` at the master, `t2` here. -/
def ptpMeasure (s : State) (t1 t2 : Int) : State :=
  let prev := match s.time.measured with
    | some (t, _) => t
    | none => s.now
  let d := t2 - t1 - s.time.pathDelay
  let s := applyOffset s d (s.now - prev)
  { s with time := { s.time with measured := some (s.now, t2 - t1) } }

def ptpIsMaster (s : State) (m : Nat) : Bool := match s.time.master with
  | some (x, _) => x = m
  | none => false

/-- PTP_SYNC_RX. -/
def execPtpSyncRx (m : PtpMsg) (s : State) : Host.Outcome State Fault Refusal :=
  guardWf (decide (m.port < 8))
    (let s := bump (atTime s m.ingress) (kPtpEventRx m.port) 1 none
     if !ptpHeard s m.port then s
     else if !ptpOk s m.ok m.domain ∨ m.intervalNs < 7_812_500 ∨ 1_000_000_000 < m.intervalNs then ptpBad s m.port
     else if !ptpIsMaster s m.master then s
     else
       let t2 : Int := (moduleTime s : Int) + ingressLatency s m.port
       let s := { s with time := { s.time with lastSync := some (s.now, m.intervalNs) } }
       if m.twoStep then { s with time := { s.time with twoStep := some (m.seq, t2) } }
       else ptpMeasure s ((m.originTime : Int) + m.correction) t2)

/-- PTP_FOLLOW_UP_RX. -/
def execPtpFollowUpRx (m : PtpMsg) (s : State) : Host.Outcome State Fault Refusal :=
  guardWf (decide (m.port < 8))
    (if !ptpHeard s m.port then s
     else if !ptpOk s m.ok m.domain then ptpBad s m.port
     else match s.time.twoStep with
      | some (seq, t2) =>
        if seq = m.seq ∧ ptpIsMaster s m.master then
          ptpMeasure { s with time := { s.time with twoStep := none } } ((m.originTime : Int) + m.correction) t2
        else s
      | none => s)

/-- The best master of those announced: the lowest rank; between equal ranks the order is a free value. -/
def bestMaster (l : Tab Nat) : Option (Nat × Nat) :=
  l.foldl (fun b x => match b with
    | none => some x
    | some y => if x.2 < y.2 ∨ (x.2 = y.2 ∧ Config.masterTie x.1 y.1 = true) then some x else some y) none

/-- PTP_ANNOUNCE_RX. -/
def execPtpAnnounceRx (m : PtpAnnounce) (s : State) : Host.Outcome State Fault Refusal :=
  guardWf (decide (m.port < 8))
    (if !ptpHeard s m.port then s
     else if !ptpOk s m.ok m.domain then ptpBad s m.port
     else
       let a := tins (tdel s.time.announces m.master) m.master m.rank
       { s with time := { s.time with announces := a, master := bestMaster a } })

/-- PTP_DELAY_REQ_TX. -/
def execPtpDelayReqTx (t : Nat) (s : State) : Host.Outcome State Fault Refusal :=
  let s := atTime s t
  .next (if odN s kTimeSource ≠ 0 ∨ s.time.master = none then s
    else
      let n := odN s kPtpPort
      let t3 := ((moduleTime s : Int) + egressLatency s n).toNat
      let seq := match s.time.delayReq with
        | some (q, _) => (q + 1) % 65536
        | none => 0
      emit (bump { s with time := { s.time with delayReq := some (seq, t3) } } (kPtpEventTx n) 1 none) (.delayReq n t3 (odN s kPtpVid) (odN s kPtpDomain)))

/-- PTP_DELAY_RESP_RX: the mean of the two directions is the path delay. -/
def execPtpDelayRespRx (m : PtpMsg) (s : State) : Host.Outcome State Fault Refusal :=
  guardWf (decide (m.port < 8))
    (if !ptpHeard s m.port then s
     else if !ptpOk s m.ok m.domain then ptpBad s m.port
     else match s.time.delayReq, s.time.measured with
      | some (seq, t3), some (_, ms) =>
        if seq = m.seq ∧ ptpIsMaster s m.master then
          let back : Int := (m.originTime : Int) - m.correction - t3
          { s with time := { s.time with pathDelay := (ms + back) / 2 } }
        else s
      | _, _ => s)

/-- PTP_SYNC_TIMEOUT (R345). -/
def execPtpSyncTimeout (t : Nat) (s : State) : Host.Outcome State Fault Refusal :=
  let s := atTime s t
  .next (match s.time.lastSync with
    | some (u, iv) => if odN s kTimeSource = 0 ∧ u + 4 * iv ≤ s.now then sourceLost s else s
    | none => s)

/-! ### The reference input (R537) -/

/-- TOD_FRAME. -/
def execTodFrame (bytes : List Byte) (t : Nat) (s : State) : Host.Outcome State Fault Refusal :=
  let s := atTime s t
  .next (if odN s kTimeSource ≠ 1 then s
    else
      let x := (bytes.take 10).foldl (fun x b => x ^^^ b.toNat) 0
      let g (i : Nat) : Nat := (lget 0 bytes i).toNat
      if bytes.length ≠ 12 ∨ g 0 ≠ 0x54 ∨ g 1 ≠ 0x44 ∨ g 11 ≠ 0x0A ∨ g 10 ≠ x then bump s kRefTodBad 1 none
      else
        let sec := leNat ((bytes.drop 2).take 8)
        let differs : Bool := match s.time.ppsSecond with
          | some y => y ≠ sec
          | none => false
        let s := bump s kRefTodSteps (if differs then 1 else 0) none
        { s with time := { s.time with todPending := some sec } })

/-- PPS_EDGE. -/
def execPpsEdge (t : Nat) (s : State) : Host.Outcome State Fault Refusal :=
  let s := atTime s t
  .next (if odN s kTimeSource ≠ 1 then s
    else
      let sec := match s.time.todPending with
        | some x => some x
        | none => s.time.ppsSecond
      let prev := s.time.lastPps.getD s.now
      let s := { s with time := { s.time with ppsMissed := 0, todPending := none, ppsSecond := sec.map (· + 1), lastPps := some s.now } }
      match sec with
      | some x => applyOffset s ((moduleTime s : Int) - (x * 1_000_000_000 : Nat)) (s.now - prev)
      | none => s)

/-- PPS_MISSING. -/
def execPpsMissing (t : Nat) (s : State) : Host.Outcome State Fault Refusal :=
  let s := atTime s t
  .next (if odN s kTimeSource ≠ 1 then s
    else
      let n := s.time.ppsMissed + 1
      let s := bump { s with time := { s.time with ppsMissed := n, ppsSecond := s.time.ppsSecond.map (· + 1), todPending := none } } kRefPpsMissing 1 none
      if n = 4 then sourceLost s else s)

/-! ### Slots (R177 to R182) -/

/-- SLOT_START (R175, R179): the broadcast goes on at the slot's start boundary. A slot that starts only after the boundary behind
it, because a step of time or a power state has passed over its start, has overrun already (R180). -/
def execSlotStart (k : Nat) (s : State) : Host.Outcome State Fault Refusal :=
  guardWf (decide (k < 40))
    (let c := con s k
     match c.hold with
     | some (.slot n target (some start)) =>
       if c.pstate ≠ .running ∨ !tickAfter (tickNow s) start ∨ !live s k ∨ sinceEpoch s (moduleTime s) = none then s
       else
         let s := bump s kSlotsLate (if start = target then 0 else 1) (conPart s k)
         let s := bump s kSlotOverruns (if tickAfter (tickNow s) (start + 1) then 1 else 0) (conPart s k)
         resume k (modCon s k fun c => { c with slot := some ⟨n, target, start⟩ })
     | _ => s)

/-- SLOT_COMPLETE (R180, R182): the record, and the next `slot_mark` where one waits. -/
def execSlotComplete (k busy wait : Nat) (s : State) : Host.Outcome State Fault Refusal :=
  guardWf (decide (k < 40))
    (let c := con s k
     let reached : Bool := match c.hold with
       | some (.slot _ _ none) => true
       -- the next `slot_mark` waits for its own tokens
       | some (.control _ _) => (match c.ahead with
         | x :: _ => (match x.v with
           | .slotMark _ => true
           | _ => false)
         | [] => false)
       | _ => c.pstate ≠ .running
     match c.slot with
     | none => s
     | some r =>
       if c.verbs ≠ [] ∨ c.sidingRuns ≠ [] ∨ !reached then s
       else
         let s := slotRecord s k (if tickNow s = r.start then 0 else 0x05) busy wait
         slotReady k (bump (bump s kSlotsCompleted 1 (conPart s k)) kSignalWaitCycles wait (conPart s k)))

/-! ### Deadlock detection (R191 to R196) -/

/-- What waits: queue q of a consist, or (16) its broadcast. -/
abbrev Waiter := Nat × Nat

/-- A wait: who, since when, the awaited tokens that have not arrived, and a full queue. -/
structure WaitRec where
  who : Waiter
  since : Nat
  vi : Nat
  waits : List (Nat × Nat)
  full : Option Nat
  deriving DecidableEq, Repr

/-- The awaited tokens that have not arrived. -/
def missing (s : State) (w : List (Nat × Nat)) : List (Nat × Nat) := w.filter fun x => !arrived (semGet s x.1) x.2

/-- The oldest verb of a queue that some core has not issued (R191). -/
def oldest (c : Consist) (q : Nat) : Option VEntry := c.verbs.find? fun e => e.queue = q && e.issued ≠ 2 ^ 20 - 1

/-- The waits of one consist (R191): its queues, and its broadcast with every queue that holds no verb. -/
def consistWaits (s : State) (k : Nat) : List WaitRec :=
  let c := con s k
  if c.pstate ≠ .running then []
  else
    -- a siding entry's full queue may stop a broadcast that a control verb holds besides
    let stalled : Option WaitRec := c.stall.map fun x => ⟨(k, 16), x.2, c.vi, [], some x.1⟩
    let held : Option WaitRec := match c.hold with
      | some (.control w t) =>
        if missing s w = [] then stalled else some ⟨(k, 16), t.getD (tickNow s), c.vi, missing s w, c.stall.map fun x => x.1⟩
      | some (.queue q t) => some ⟨(k, 16), t, c.vi, [], some q⟩
      | _ => stalled
    let qs := (List.range 16).filterMap fun q => match oldest c q with
      | some e => if heldByTokens c e then some ⟨(k, q), e.since.getD (tickNow s), e.vi, missing s e.waits, none⟩ else none
      | none => held.map fun h => { h with who := (k, q) }
    qs ++ held.toList

/-- The members on which a wait depends (R192). -/
def depends (s : State) (all : List WaitRec) (w : WaitRec) : List Waiter :=
  (w.full.map fun q => (w.who.1, q)).toList ++
  w.waits.flatMap fun x =>
    let v := semGet s x.1
    if v.kind = 0 then (if v.setter < 0x50 then [(5 * semDie x.1 + v.setter / 16, v.setter % 16)] else [])
    else (all.map fun a => a.who).filter fun a => a.2 < 16 &&
      (con s a.1).verbs.any fun e => e.queue = a.2 && e.issued ≠ 2 ^ 20 - 1 && (match e.verb with
        | .signalArrive i _ => i = x.1
        | _ => false)

/-- Everything that can be reached from a list of members along dependences of old waits. -/
def reachFrom (edges : Waiter → List Waiter) : Nat → List Waiter → List Waiter → List Waiter
  | 0, _, seen => seen
  | _ + 1, [], seen => seen
  | n + 1, x :: r, seen => if seen.contains x then reachFrom edges n r seen else reachFrom edges n (edges x ++ r) (seen ++ [x])

/-- A deadlock record entry (Table 8 of 06). -/
def lockEntry (s : State) (w : Option WaitRec) (inLoop : Bool) : List Byte :=
  match w with
  | none => leBytes 32 (0xFE * 2 ^ 136)
  | some w =>
    let (sem, seq) := lget (0, 0) w.waits 0
    let v := if w.waits = [] then Sem.reset else semGet s sem
    let kind := if w.full ≠ none ∨ w.who.2 = 16 then 3 else if v.kind = 1 then 2 else 1
    let pend := if v.kind = 1 then v.expected - v.arrivals else 0
    leBytes 32 (w.vi * 2 ^ 224 + seq * 2 ^ 192 + v.seq * 2 ^ 160 + sem * 2 ^ 144 + v.setter * 2 ^ 136 + kind * 2 ^ 128 +
      w.since % 2 ^ 48 * 2 ^ 80 + (if inLoop then 2 ^ 79 else 0) + pend * 2 ^ 32)

/-- Writes a consist's deadlock record (Tables 7 and 8 of 06). -/
def lockRecord (s : State) (k : Nat) (ws : List WaitRec) (loop : List Waiter) : State :=
  let n := (con s k).lockSerial + 1
  let a := stagingBase + conDie k * 0x1000_0000 + 0x02FA_8000 + k % 5 * 0x800
  let held := ws.any fun w => w.who = (k, 16)
  let rows := (List.range 16).flatMap fun q =>
    let w := ws.find? fun w => w.who = (k, q)
    let w := match w, oldest (con s k) q with
      | some w, none => some { w with who := (k, 16) }
      | w, _ => w
    lockEntry s w (loop.contains (k, q) || (held && oldest (con s k) q = none && loop.contains (k, 16)))
  let qs := (List.range 16).foldl (fun m q => if loop.contains (k, q) then m + 2 ^ q else m) 0
  let cs := ((loop.map fun x => x.1).eraseDups).foldl (fun m j => m + 2 ^ j) 0
  let hdr := leBytes 32 (n % 2 ^ 32 * 2 ^ 224 + tickNow s * 2 ^ 176 + k * 2 ^ 168 + ((conPart s k).getD 0xFF) * 2 ^ 160 + 6 * 2 ^ 152 +
    min loop.length 255 * 2 ^ 144 + qs * 2 ^ 128 + cs * 2 ^ 88)
  let s := poke (poke s (a + 32) rows) a hdr
  modCon s k fun c => { c with lockSerial := n }

/-- One loop: records, stops, the event, the vote (R193). -/
def lockStop (s : State) (all : List WaitRec) (loop : List Waiter) : State :=
  let ks := (loop.map fun x => x.1).eraseDups
  let s := ks.foldl (fun s k => lockRecord s k (all.filter fun w => w.who.1 = k) loop) s
  let s := ks.foldl (fun s k =>
    let p := conPart s k
    let s := stopConsist s k 0x06
    match p with
    | some p => castVote (event s p .deadlock k) p 0x06
    | none => s) s
  bump s kDeadlocksDetected 1 (match ks with
    | k :: _ => conPart s k
    | [] => none)

/-- DEADLOCK_SEARCH (R191 to R195). -/
def execDeadlockSearch (s : State) : Host.Outcome State Fault Refusal :=
  let all := (List.range 40).flatMap fun k => consistWaits s k
  let old := all.filter fun w => 2 < (tickNow s + 2 ^ 48 - w.since % 2 ^ 48) % 2 ^ 48
  let members := old.map fun w => w.who
  let edges (x : Waiter) : List Waiter := match old.find? fun w => w.who = x with
    | some w => (depends s all w).filter fun y => members.contains y
    | none => []
  let reach (x : Waiter) : List Waiter := reachFrom edges (2000 + members.length * members.length) (edges x) []
  let looped := members.filter fun x => (reach x).contains x
  -- the members of one loop reach each other
  let loops := (looped.map fun x => looped.filter fun y => (reach x).contains y && (reach y).contains x).eraseDups
  .next (loops.foldl (fun s l => lockStop s all l) s)

end Sys2Proof.Machine
end

