-- ==== Sys2Proof/Machine/HrtRx.lean ====
section
/-! DEFINITION. The rail transport's receiving side (R353 to R366, R376 to R382), acknowledgements and retransmission at the
sender (R362, R363, R372), key agreement (R342, R343), and the commit records and buffer messages that HRT carries. -/

namespace Sys2Proof.Machine

/-! ### The checks on a header (R353 to R355) -/

/-- A frame that can reach HRT: its numbers exist and its header is 32 octets (R353). -/
def frameOk (f : HrtFrame) : Bool := decide (f.part < 40 ∧ f.port < 8 ∧ f.peer < 64 ∧ f.pcp < 8 ∧ f.wire.length = 32)

/-- Payload octets of a control subtype (Table 3 of 13); none for a subtype that does not exist. -/
def controlLen (code : Nat) : Option Nat :=
  match code with
  | 0x01 => some 1112
  | 0x02 => some 40
  | 0x10 | 0x11 | 0x12 => some 32
  | 0x20 => some 8
  | _ => none

def isRecord (code : Nat) : Bool := code = 0x10 || code = 0x11 || code = 0x12

/-- A malformed frame (R355). -/
def hrtMalformed (f : HrtFrame) : Bool :=
  let h := f.hdr
  h.version ≠ 1 || 4 < h.opcode || 1 < h.semOp || h.reserved ≠ 0 || 255 < h.window || h.payloadLen ≠ f.payload.length ||
  8192 < h.payloadLen ||
  (h.opcode = 1 && (3 < h.addType || h.offset % addSize h.addType ≠ 0 || h.payloadLen % addSize h.addType ≠ 0)) ||
  (h.opcode = 2 && 0x12 < h.code) ||
  (h.opcode = 3 && (controlLen h.code ≠ some f.payload.length || (isRecord h.code && (parseVote f.payload).2 ≠ 0)))

/-- What each kind of peer may send (Tables 2 and 3 of 13). -/
def permitted (kind : Nat) (h : HrtHdr) : Bool :=
  if kind = 1 then h.opcode ≤ 3
  else h.opcode = 2 || h.opcode = 4 || (h.opcode = 3 && (h.code = 1 || h.code = 2))

/-! ### Partner faults at the receiver (R376) -/

/-- Ends the sends that wait for a free buffer of a peer to which nothing can be sent any more (R376, R377). -/
def endBlocked (s : State) (p : Nat) : State :=
  (consistsOf s p).foldl (fun s k =>
    ((con s k).verbs.filter fun e => e.phase = 3).foldl (fun s e => match e.verb with
      | .call _ o => let st := sendTo k p e o s
        if st = .ok then s else endVerb (setPhase s k e.vi 0) k e.vi st
      | _ => s) s) s

/-- A malformed frame of an authenticated peer: at `quarantine_threshold` within 1 s it becomes hostile. -/
def faultyFrame (s : State) (p i : Nat) : State :=
  let l := (s.now :: tget [] (part s p).faulty i).filter fun t => s.now < t + 1_000_000_000
  let s := modPart s p fun q => { q with faulty := tset [] q.faulty i l }
  if odN s kQuarantineThreshold ≤ l.length then endBlocked (quarantine s p i) p else s

/-- Refuses a hostile frame with status denied on the peer's own QP of the port, then quarantines the peer (R376). The refusal is sealed
as it enters the transmit buffer, since the channel goes; a channel that has no packet number left sends none (R344). -/
def hostileFrame (s : State) (f : HrtFrame) : State :=
  let q := match jobOf s f.part with
    | some j => (peerPort j f.peer f.port).localQp
    | none => f.hdr.dstQp
  let h := { hdr0 with opcode := 2, dstQp := f.hdr.srcQp, srcQp := q, code := stCode .denied, ackPsn := f.hdr.psn }
  let c := chanReady (chan s f.part f.port f.peer)
  let s := match c.txAn with
    | none => s
    | some an =>
      if 0xFFFF_FFF0 ≤ c.txPn then bump s (kMacsecPnStalls f.port) 1 (some f.part)
      else
        enqueue (bump (bump s kHrtRefusalsSent 1 (some f.part)) kHrtAcksSent 1 (some f.part)) f.port
          ⟨f.part, f.peer, q, false, 3, h, [], cTag s f.part false, false, some (an, c.txPn)⟩
  endBlocked (quarantine s f.part f.peer) f.part

/-! ### Packet sequence numbers and acknowledgements at the receiver (R361, R362) -/

/-- E moves past every PSN that has been received or refused. -/
def psnAdvance : Nat → Nat → List Nat → Nat × List Nat
  | 0, e, l => (e, l)
  | n + 1, e, l => if l.contains e then psnAdvance n ((e + 1) % 2 ^ 32) (l.filter (· ≠ e)) else (e, l)

/-- Marks a PSN received. -/
def psnTake (v : Qp) (psn : Nat) : Qp :=
  let (e, l) := psnAdvance 257 v.expect (v.seen ++ [psn])
  { v with expect := e, seen := l }

/-- How far above E a PSN lies. -/
def psnDistance (e psn : Nat) : Nat := (psn + 2 ^ 32 - e) % 2 ^ 32

/-- Whether a PSN now has a hole below it. -/
def hasHole (v : Qp) (psn : Nat) : Bool := decide (psnDistance v.expect psn < 256)

/-- The acknowledgement that a frame calls for: at once, after sixteen, or later (R362). -/
def ackPolicy (s : State) (q : Nat) (h : HrtHdr) (counted : Bool) : State :=
  let v := qp s q
  if h.ackNow ∨ hasHole v h.psn then sendAck s q none
  else if !counted then s
  else if 16 ≤ v.sinceAck + 1 then sendAck s q none
  else setQp s q { v with sinceAck := v.sinceAck + 1, ackDue := some (v.ackDue.getD s.now) }

/-! ### Windows and placement (R364 to R366, R381) -/

/-- What a check answers: the frame is refused with a status, and whether that is hostile. -/
abbrev Refused := Option (Status × Bool)

/-- The checks of R381, in order. -/
def windowCheck (s : State) (f : HrtFrame) : Refused :=
  let h := f.hdr
  let q := part s f.part
  if held s then some (.notReady, false)
  else match tget none q.windows h.window with
  | none =>
    let rel := tget 0 q.winReleased h.window
    some (.denied, !(rel ≠ 0 && s.now + 1 ≤ rel + 1_000_000))
  | some w =>
    if !bitOf w.peers f.peer ∨ !bitOf w.access (if h.opcode = 1 then 1 else 0) then some (.denied, true)
    else if w.length < h.offset + h.payloadLen then some (.denied, true)
    else
      let v := semGet s h.sem
      let semBad : Bool := h.semOp = 1 &&
        (if h.opcode = 4 then !w.notify || h.sem ≠ w.notifySem
         else v.kind ≠ 0 || v.setter ≠ 0xC0 + f.port || v.part ≠ f.part)
      if semBad then some (.denied, true)
      else if h.opcode = 4 ∧ f.pcp = odN s kPcpTimetabled then some (.denied, true)
      else if !allotted s f.part (w.base + h.offset) h.payloadLen true then some (.denied, false)
      else none

/-- Places a frame's payload. A poisoned frame writes every line poisoned (R366). -/
def placeFrame (s : State) (f : HrtFrame) : State × Status :=
  match tget none (part s f.part).windows f.hdr.window with
  | none => (s, .denied)
  | some w =>
    let a := w.base + f.hdr.offset
    let offs := if f.hdr.poisoned then [(0, f.payload.length)] else []
    let (s, st) := if f.hdr.opcode = 1 then addBytes s f.hdr.addType a f.payload offs Ecc.clean (some f.part)
      else copyBytes s a f.payload offs (some f.part)
    (bump s kHrtWindowBytes (if f.hdr.opcode = 4 then f.payload.length else 0) (some f.part), st)

/-- Whether a message's epoch is ahead of the partition's (R524). -/
def epochAhead (s : State) (p epoch : Nat) : Bool := epoch = ((part s p).step.epoch + 1) % 256

/-- A message is whole: the semaphore is posted, or later where the message's epoch has not come (R364, R524). -/
def messageDone (s : State) (f : HrtFrame) (m : RxMsg) : State :=
  match m.sem with
  | none => s
  | some i =>
    let st := if m.poisoned then 0x02 else 0
    let code := 0xC0 + f.port
    if f.hdr.opcode ≠ 4 ∧ epochAhead s f.part m.epoch then
      modStep s f.part fun x => { x with late := x.late ++ [⟨i, st, code, none, m.epoch⟩] }
    else castOwed (enginePost s i st code (some f.part)).1

/-- Notes a placed frame of its message. -/
def noteFrame (s : State) (q : Nat) (f : HrtFrame) (bad : Bool) : State :=
  let h := f.hdr
  let v := qp s q
  let start := (h.psn + 2 ^ 32 - h.frameIndex) % 2 ^ 32
  let old := (v.rx.find? fun m => m.start = start).getD ⟨start, [], none, none, false, h.epoch⟩
  let m := { old with got := setAdd old.got h.frameIndex, poisoned := old.poisoned || bad }
  let m := if h.last then { m with last := some h.frameIndex, sem := if h.semOp = 1 then some h.sem else none } else m
  let rest := v.rx.filter fun x => x.start ≠ start
  if m.last.any fun n => n + 1 = m.got.length then messageDone (setQp s q { v with rx := rest }) f m
  else setQp s q { v with rx := rest ++ [m] }

/-- A module that has not voted in an open step votes no on a frame of the next epoch (R523). -/
def aheadVote (s : State) (p epoch : Nat) : State := if epochAhead s p epoch then castVote s p (stCode .aborted) else s

/-- Applies a data frame: the epoch (R365), the window's checks, placement, the message. -/
def applyData (s : State) (q : Nat) (f : HrtFrame) : State × Refused :=
  let own := (part s f.part).step.epoch
  if f.hdr.opcode ≠ 4 ∧ f.hdr.epoch ≠ own ∧ !epochAhead s f.part f.hdr.epoch then
    (bump s kHrtRxStaleEpoch 1 (some f.part), none)
  else
    match windowCheck s f with
    | some r => (s, some r)
    | none =>
      let (s, up) := match tget none (part s f.part).windows f.hdr.window with
        | some w => touch s (w.base + f.hdr.offset) f.hdr.payloadLen
        | none => (s, true)
      if !up then (s, some (.denied, false))
      else
        let (s, st) := placeFrame s f
        let s := noteFrame s q f (f.hdr.poisoned || st ≠ .ok)
        (if f.hdr.opcode = 4 then s else aheadVote s f.part f.hdr.epoch, none)

/-! ### The pipeline of a received frame -/

/-- A frame that has passed the MAC: counts, quarantine (R377), form (R355), the peer's QP and permission (R354, R359), CE,
then its own effect on QP q. A frame of an SCI that the latched table does not hold, or of a closed QP, has none. -/
def hrtFrame (f : HrtFrame) (act : Nat → State → State) (s : State) : State :=
  let s := { s with now := max s.now f.t }
  match jobOf s f.part with
  | none => s
  | some j =>
    if !routed j f.peer f.port then s
    else
      let s := bump s kHrtRxFrames 1 (some f.part)
      if isQuarantined s f.part f.peer then bump s kHrtRxQuarantinedDrops 1 (some f.part)
      else if hrtMalformed f then faultyFrame (bump s kHrtRxMalformed 1 (some f.part)) f.part f.peer
      else
        let q := f.hdr.dstQp
        let v := qp s q
        if !v.isOpen ∨ v.part ≠ f.part ∨ v.peer ≠ f.peer ∨ qpPort q ≠ f.port ∨ !permitted (peerOf j f.peer).kind f.hdr then
          hostileFrame s f
        else if v.absent then s
        else act q (if f.ce then setQp s q { v with echo := true } else s)

/-- A data or control frame: the PSN's place decides (R361), then the effect, then the acknowledgement (R362). -/
def sequenced (f : HrtFrame) (effect : Nat → State → State × Refused) (q : Nat) (s : State) : State :=
  let v := qp s q
  let d := psnDistance v.expect f.hdr.psn
  if (d < 256 ∧ v.seen.contains f.hdr.psn) ∨ 2 ^ 31 ≤ d then sendAck (bump s kHrtRxDuplicates 1 (some f.part)) q none
  else if 256 ≤ d then bump s kHrtRxOutOfWindow 1 (some f.part)
  else
    let (s, r) := effect q s
    match r with
    | some (_, true) => hostileFrame s f
    | some (st, false) =>
      let s := sendAck (setQp s q (psnTake (qp s q) f.hdr.psn)) q (some (f.hdr.psn, st))
      ackPolicy s q f.hdr false
    | none => ackPolicy (setQp s q (psnTake (qp s q) f.hdr.psn)) q f.hdr true

/-- Whether a frame can stand in a row: its own opcode, or a reserved one. -/
def rowOpcode (f : HrtFrame) (op : Nat) : Bool := frameOk f && (f.hdr.opcode = op || 5 ≤ f.hdr.opcode)

/-- HRT_WRITE_RX (R360 to R366, R381). -/
def execHrtWriteRx (f : HrtFrame) (s : State) : Host.Outcome State Fault Refusal :=
  guardWf (rowOpcode f 0) (hrtFrame f (sequenced f fun q s => applyData s q f) s)

/-- HRT_ADD_RX (R244, R381). -/
def execHrtAddRx (f : HrtFrame) (s : State) : Host.Outcome State Fault Refusal :=
  guardWf (rowOpcode f 1) (hrtFrame f (sequenced f fun q s => applyData s q f) s)

/-- HRT_WINDOW_WRITE_RX (R380 to R382). -/
def execHrtWindowWriteRx (f : HrtFrame) (s : State) : Host.Outcome State Fault Refusal :=
  guardWf (rowOpcode f 4) (hrtFrame f (sequenced f fun q s => applyData s q f) s)

/-- Whether a frame can stand in the row of a control subtype. -/
def rowControl (f : HrtFrame) (code : Nat) : Bool := frameOk f && f.hdr.opcode = 3 && f.hdr.code = code

/-- A control frame, whose effect is never refused; a frame of the next epoch makes the vote of R523. -/
def controlFrame (f : HrtFrame) (effect : State → State) (s : State) : State :=
  hrtFrame f (sequenced f fun _ s => (effect (aheadVote s f.part f.hdr.epoch), none)) s

/-- Whether a commit record is of its subtype's kind, its sender's own, and its outcome one that the kind may carry (Table 5 of 10);
any other changes nothing. -/
def recordGood (f : HrtFrame) (kind most : Nat) : Bool :=
  let v := (parseVote f.payload).1
  v.kind = kind && v.rank = f.peer && decide (v.outcome ≤ most)

/-- Whether a frame comes from the leader of the partition's job. -/
def fromLeader (s : State) (f : HrtFrame) : Bool := match jobOf s f.part with
  | some j => f.peer = j.leader
  | none => false

/-- VOTE_RX (R290, R522). -/
def execVoteRx (f : HrtFrame) (s : State) : Host.Outcome State Fault Refusal :=
  guardWf (rowControl f 0x10) (controlFrame f (fun s =>
    if recordGood f 1 2 then voteArrive s f.part f.hdr.epoch (parseVote f.payload).1 else s) s)

/-- DECISION_RX (R290, R522). -/
def execDecisionRx (f : HrtFrame) (s : State) : Host.Outcome State Fault Refusal :=
  guardWf (rowControl f 0x11)
    (controlFrame f (fun s =>
      if recordGood f 2 3 ∧ fromLeader s f = true then decisionArrive s f.part f.hdr.epoch (parseVote f.payload).1 (0xC0 + f.port) else s) s)

/-- REVISED_VOTE_RX (R292). -/
def execRevisedVoteRx (f : HrtFrame) (s : State) : Host.Outcome State Fault Refusal :=
  guardWf (rowControl f 0x12) (controlFrame f (fun s =>
    if recordGood f 3 1 then revisedArrive s f.part f.hdr.epoch (parseVote f.payload).1 else s) s)

/-- The sends of a partition that wait for a free buffer try again (R307). -/
def retrySends (s : State) (p : Nat) : State :=
  (consistsOf s p).foldl (fun s k =>
    ((con s k).verbs.filter fun e => e.phase = 3).foldl (fun s e => match e.verb with
      | .call _ o => trySend k p e o s
      | _ => s) s) s

/-- BUFFER_FREE_RX (R307). Control frames of a subtype that does not exist stand in this row. -/
def execBufferFreeRx (f : HrtFrame) (s : State) : Host.Outcome State Fault Refusal :=
  guardWf (frameOk f && f.hdr.opcode = 3 && (f.hdr.code = 0x20 || controlLen f.hdr.code = none))
    (controlFrame f (fun s =>
      let mb := leNat (f.payload.take 4)
      let b := leNat (f.payload.drop 4)
      retrySends (modPart s f.part fun q => { q with buffers := q.buffers ++ [(f.peer * 2 ^ 32 + mb, b)] }) f.part) s)

/-! ### Acknowledgements at the sender (R362, R363, R372) -/

/-- The status that a code names. -/
def statusOf (code : Nat) : Status := (allStatuses.find? fun x => stCode x = code).getD .malformed

/-- Whether an ack covers a PSN. -/
def ackCovers (h : HrtHdr) (psn : Nat) : Bool :=
  decide (psnDistance (psn + 1) h.ackPsn < 2 ^ 31) ||
  (let d := psnDistance (h.ackPsn + 1) psn
   decide (d < 32) && bitOf h.sack d)

/-- Whether a later PSN than this one is shown as received. -/
def sackAbove (h : HrtHdr) (psn : Nat) : Bool := (bitList 32 h.sack).any fun i => decide (psnDistance psn (h.ackPsn + 1 + i) < 256) && psnDistance psn (h.ackPsn + 1 + i) ≠ 0

/-- Ends the messages of a QP of which no frame is left (R363). -/
def endWhole (s : State) (q : Nat) : State :=
  let v := qp s q
  let left (m : TxMsg) : Nat := (v.frames.filter fun f => f.msg = m.id).length
  let done := v.msgs.filter fun m => left m = 0
  let s := setQp s q { v with msgs := (v.msgs.filter fun m => left m ≠ 0).map fun m => { m with left := left m } }
  done.foldl (fun s m => msgEnded s m.owner m.fail) s

/-- A frame waits to be sent again, or the peer is absent at `retx_limit` (R363, R376); on a link that is down the partner's timeout
decides (R378). -/
def retransmit (s : State) (q psn : Nat) : State :=
  match (qp s q).frames.find? fun f => f.hdr.psn = psn with
  | none => s
  | some f =>
    if f.retx < odN s kRetxLimit then resend s q psn
    else if odN s (kLinkUp (qpPort q)) = 0 then s
    else endBlocked (peerAbsent s q) (qp s q).part

/-- The congestion window after an ack (R372). -/
def windowAfter (s : State) (q : Nat) (echo : Bool) : State :=
  let v := qp s q
  if !echo then setQp s q { v with cwnd := min (v.cwnd + 8192) 4194304 }
  else
    let may : Bool := match v.lastCut with
      | some t => decide (t + 1000 * odN s kRtoUs ≤ s.now)
      | none => true
    if may then
      bump (setQp s q { v with cwnd := max (v.cwnd / 2) 16384, lastCut := some s.now }) kHrtCwndCuts 1 (some v.part)
    else s

/-- The slow mark goes once the window has drained. -/
def slowDrain (s : State) (q : Nat) : State :=
  let v := qp s q
  if v.slow ∧ inFlightFrames v = [] then slowGone (setQp s q { v with full := 0 }) q else s

/-- What an ack does on its QP. -/
def ackArrived (h : HrtHdr) (q : Nat) (s : State) : State :=
  let v := qp s q
  let gone (f : TxFrame) : Bool := f.sent ≠ none && (if h.code ≠ 0 then f.hdr.psn = h.ackPsn else ackCovers h f.hdr.psn)
  let acked := v.frames.filter gone
  let msgs := if h.code = 0 then v.msgs else v.msgs.map fun m =>
    if m.fail = .ok ∧ acked.any (fun f => f.msg = m.id) then { m with fail := statusOf h.code } else m
  let v := { v with frames := v.frames.filter (fun f => !gone f), msgs := msgs,
                    progress := if acked = [] then v.progress else s.now }
  let n := qpPort q
  let s := setQp s q v
  let s := setPort s n { port s n with txq := (port s n).txq.filter fun f => !(f.qp = q && f.hdr.opcode ≠ 2 && acked.any fun a => a.hdr.psn = f.hdr.psn) }
  let s := endWhole s q
  let lost := if h.code ≠ 0 then [] else v.frames.filter fun f => f.sent ≠ none && !f.again && sackAbove h f.hdr.psn && !inBuffer s q f.hdr.psn
  let s := lost.foldl (fun s f => retransmit s q f.hdr.psn) s
  let s := if (qp s q).absent then s else windowAfter s q h.ecnEcho
  slowDrain (pump s q) q

/-- HRT_ACK_RX (R363, R372). -/
def execHrtAckRx (f : HrtFrame) (s : State) : Host.Outcome State Fault Refusal :=
  guardWf (rowOpcode f 2) (hrtFrame f (ackArrived f.hdr) s)

/-- HRT_ACK_DELAY (R362): `ack_delay_ns` after the oldest frame not yet acknowledged; on a link that is down the ack stays due. -/
def execHrtAckDelay (q : Nat) (s : State) : Host.Outcome State Fault Refusal :=
  guardWf (decide (q < 4096))
    (match (qp s q).ackDue with
    | some u => if (qp s q).isOpen ∧ !(qp s q).absent ∧ odN s (kLinkUp (qpPort q)) = 1 ∧ u + odN s kAckDelayNs ≤ s.now then sendAck s q none else s
    | none => s)

/-- HRT_RTO_EXPIRY (R363): `rto_us` has passed since a frame was last sent. -/
def execHrtRtoExpiry (q psn t : Nat) (s : State) : Host.Outcome State Fault Refusal :=
  let s := atTime s t
  guardWf (decide (q < 4096 ∧ psn < 2 ^ 32))
    (match (qp s q).frames.find? fun f => f.hdr.psn = psn with
    | none => s
    | some f => match f.sent with
      | none => s
      | some u => if u + 1000 * odN s kRtoUs ≤ s.now ∧ !f.again ∧ !inBuffer s q psn then pumpAgain (retransmit s q psn) q else s)

/-- PARTNER_TIMEOUT (R363, R376): no progress for `partner_timeout_ms` on a QP that has sent and not been answered, or whose
link is down. -/
def execPartnerTimeout (q t : Nat) (s : State) : Host.Outcome State Fault Refusal :=
  let s := atTime s t
  guardWf (decide (q < 4096))
    (let v := qp s q
     let open' : Bool := v.frames ≠ [] && (odN s (kLinkUp (qpPort q)) = 0 || v.frames.any fun f => f.sent ≠ none && !inBuffer s q f.hdr.psn)
     if v.isOpen ∧ open' ∧ v.progress + 1_000_000 * odN s kPartnerTimeoutMs ≤ s.now then endBlocked (peerAbsent s q) v.part else s)

/-- PEER_SLOW_DETECT (R376): the window has been full at four boundaries in a row while acknowledgements progressed; counted once an
episode. -/
def execPeerSlowDetect (q : Nat) (s : State) : Host.Outcome State Fault Refusal :=
  guardWf (decide (q < 4096))
    (let v := qp s q
     if v.isOpen ∧ !v.absent ∧ !v.slow ∧ 4 ≤ v.full ∧ v.fullSince < v.progress then
       slowBit (bump (setQp s q { v with slow := true }) kHrtPartnerSlow 1 (some v.part)) v.part v.peer
     else s)

/-- PEER_QUARANTINE_CLEAR (R377, R383): effective at the next latch. -/
def execPeerQuarantineClear (who : Who) (p i : Nat) (s : State) : Host.Outcome State Fault Refusal :=
  guardWf (decide (p < 40 ∧ i < 256))
    (dictWrite s who (kPeerQuarantineClear p) (.num i) (fun _ => opOnly who (if 63 < i then .malformed else .ok))
      (fun s => if isQuarantined s p i then modPart s p fun q => { q with quarantineClear := bitSet q.quarantineClear i } else s))

/-! ### Key agreement (R342, R343) -/

/-- An exchange has failed: counted; the channel carries no frames and its sends end with auth_fail. -/
def keyFailed (s : State) (p n i : Nat) : State :=
  let s := bump s (kMacsecAuthFailures n) 1 (some p)
  let s := setChan s p n i { chan s p n i with offer := none, failed := true }
  match jobOf s p with
  | some j =>
    let q := (peerPort j i n).localQp
    endBlocked (if (qp s q).isOpen ∧ (qp s q).part = p ∧ (qp s q).peer = i then endMsgs s q .authFail else s) p
  | none => s

/-- Whether a message can stand in the row of a key subtype: recognised by its `dst_qp` (R352). -/
def keyRow (f : HrtFrame) (code : Nat) : Bool := rowControl f code && f.hdr.dstQp = 0xFFFF

/-- A key message's SCIs, AN and the octets after them (Table 3 of 13). -/
def keySci (f : HrtFrame) (i : Nat) : List Byte := (f.payload.drop (8 * i)).take 8
def keyAn (f : HrtFrame) : Nat := leNat ((f.payload.drop 16).take 1)
def keyRest (f : HrtFrame) : List Byte := f.payload.drop 24

/-- Whether a key message is malformed (R355): its zero octets are a reserved field, its AN is 0 to 3. -/
def keyMalformed (f : HrtFrame) : Bool := hrtMalformed f || 3 < keyAn f || (f.payload.drop 17).take 7 ≠ zeros 7

/-- A key message of a routed peer: counted; that of a quarantined peer is dropped (R352, R377), and so is a malformed one (R355), which
nobody is charged with, since nothing authenticates it. -/
def keyFrame (s : State) (f : HrtFrame) (act : JobMap → State → State) : State :=
  match jobOf s f.part with
  | none => s
  | some j =>
    if !routed j f.peer f.port then s
    else
      let s := bump s kHrtRxFrames 1 (some f.part)
      if isQuarantined s f.part f.peer then bump s kHrtRxQuarantinedDrops 1 (some f.part)
      else if keyMalformed f then bump s kHrtRxMalformed 1 (some f.part)
      else act j s

/-- KEY_OFFER_RX (R342, R343): the responder installs its SAs as it replies. An offer for another channel has no effect. -/
def execKeyOfferRx (o : KeyOffer) (s : State) : Host.Outcome State Fault Refusal :=
  let s := atTime s o.t
  let f := o.frame
  guardWf (keyRow f 1)
    (keyFrame s f fun j s =>
      let own := ownSci s o.part o.port
      let peer := peerSci j o.peer o.port
      if keySci f 0 ≠ peer ∨ keySci f 1 ≠ own then s
      else if (chan s o.part o.port o.peer).offer ≠ none ∧ initiates s j o.part o.peer o.port then s
      else match o.secret with
        | none => bump s (kMacsecAuthFailures o.port) 1 (some o.part)
        | some k =>
          let an := keyAn f
          let s := installSas s o.part o.port o.peer an (sak k own peer an) (sak k peer own an)
          sendKey s o.part o.port o.peer 2 (peer ++ own ++ leBytes 1 an ++ zeros 7 ++ confirmOf k peer own an))

/-- KEY_ACCEPT_RX (R342, R343): the initiator installs its SAs when C checks. -/
def execKeyAcceptRx (o : KeyAccept) (s : State) : Host.Outcome State Fault Refusal :=
  let s := atTime s o.t
  let f := o.frame
  guardWf (keyRow f 2)
    (keyFrame s f fun j s => match (chan s o.part o.port o.peer).offer with
    | none => s
    | some (an, _, k, _) =>
      let own := ownSci s o.part o.port
      let peer := peerSci j o.peer o.port
      if an ≠ keyAn f ∨ keySci f 0 ≠ own ∨ keySci f 1 ≠ peer then s
      else if keyRest f = confirmOf k own peer an then
        installSas s o.part o.port o.peer an (sak k own peer an) (sak k peer own an)
      else keyFailed s o.part o.port o.peer)

/-- KEY_ACCEPT_TIMEOUT (R343): up to three repeats with a new encapsulation, then the exchange has failed. -/
def execKeyAcceptTimeout (p n peer t : Nat) (s : State) : Host.Outcome State Fault Refusal :=
  let s := atTime s t
  guardWf (decide (p < 40 ∧ n < 8 ∧ peer < 64))
    (match (chan s p n peer).offer with
    | some (_, attempt, _, u) =>
      -- 10 ms after the offer
      if s.now < u + 10_000_000 then s
      else if attempt < 3 then sendOffer s p n peer (attempt + 1) else keyFailed s p n peer
    | none => s)

end Sys2Proof.Machine
end

