-- ==== Sys2Proof/Machine/Ether.lean ====
section
/-! DEFINITION. The Ethernet ports (R325 to R349): the receive checks, frame starts in and between the timetabled paths (R332,
R369, R370), MACsec's packet numbers (R340, R344), flow control (R338), links and modes. -/

namespace Sys2Proof.Machine

/-! ### Ports -/

/-- Whether a port exists under the active cage modes (R325). -/
def portExists (s : State) (n : Nat) : Bool := n < 8 && !(n % 2 = 1 && bitOf (odN s kCageModeActive) (n / 2))

/-- Speed of a port in Gb/s. -/
def modeSpeed (s : State) (n : Nat) : Nat := if bitOf (odN s kCageModeActive) (n / 2) then 800 else 400

/-- A port's link goes down (R333): the frame on the wire ends short, those queued are discarded and counted. A port already down stays
as it is. -/
def linkDown (s : State) (n : Nat) : State :=
  if odN s (kLinkUp n) = 0 then s
  else
    let v := port s n
    let s := (v.txq ++ v.wait).foldl (fun s f => bump s (kTxLinkDownDrops n) 1 (some f.part)) s
    let s := setPort s n { v with txq := [], wait := [], lastEnd := 0 }
    let s := if s.now < v.lastEnd then emit s (.cut n) else s
    bump (odSet (odSet s (kLinkUp n) 0) (kPortSpeed n) 0) (kLinkDownEvents n) 1 none

/-- Frames of the module that wait for room enter the transmit buffer, in order (R328). -/
def feedWait (s : State) (n : Nat) : State :=
  (port s n).wait.foldl (fun s f =>
    let v := port s n
    if v.wait.head? = some f ∧ txUsed s n + frameLen s n f ≤ txHalf then setPort s n { v with txq := v.txq ++ [f], wait := v.wait.drop 1 } else s) s

/-- What waits for room in a port's buffer enters it: frames of the module, then those of the open QPs. -/
def pumpPort (s : State) (n : Nat) : State :=
  (s.qps.filter fun x => x.2.isOpen && qpPort x.1 = n).foldl (fun s x => pump s x.1) (feedWait s n)

/-- The management port's link (R347): its loss counts once. -/
def mgmtDown (s : State) : State :=
  if (port s 8).noLink then s else bump (setPort s 8 { port s 8 with noLink := true }) (kLinkDownEvents 8) 1 none

/-- LINK_DOWN (R333, R347); port 8 is the management port. -/
def execLinkDown (n : Nat) (s : State) : Host.Outcome State Fault Refusal :=
  guardWf (decide (n < 9)) (if n = 8 then mgmtDown s else linkDown s n)

/-- Brings a port's link up where it may come up (R333, R538 to R540): the port exists and is enabled, its cage holds a module out of low power, `VOSFP` is there, its
SerDes domain is on. -/
def linkUp (s : State) (n : Nat) : State :=
  if !s.boot.portsOff ∧ portExists s n ∧ odN s (kPortEnable n) = 1 ∧ odN s (kLinkUp n) = 0 ∧ odN s kVosfpPresent = 1 ∧
      bitOf (odN s kOsfpPresent) (n / 2) ∧ !bitOf s.pow.lowPower (n / 2) ∧ domState s (0x60 + n) = 0 then
    pumpPort (odSet (odSet s (kLinkUp n) 1) (kPortSpeed n) (modeSpeed s n)) n
  else s

/-- LINK_UP. -/
def execLinkUp (n : Nat) (s : State) : Host.Outcome State Fault Refusal :=
  guardWf (decide (n < 9)) (if n = 8 then setPort s 8 { port s 8 with noLink := false } else linkUp s n)

/-- CAGE_MODE_WRITE (R327): the cages whose bit changes are retrained. -/
def execCageModeWrite (who : Who) (v : Nat) (s : State) : Host.Outcome State Fault Refusal :=
  guardWf (decide (v < 256))
    (dictWrite s who kCageMode (.num v)
      (fun s => opOnly who (if anyOpen s then .denied
        else if 15 < v ∨ (odN s kPtpPort % 2 = 1 ∧ bitOf v (odN s kPtpPort / 2) ∧ !bitOf (odN s kCageMode) (odN s kPtpPort / 2)) then .malformed
        else .ok))
      (fun s =>
        let changed := (List.range 4).filter fun c => bitOf v c ≠ bitOf (odN s kCageModeActive) c
        let s := changed.foldl (fun s c => linkDown (linkDown s (2 * c)) (2 * c + 1)) s
        odSet (odSet s kCageMode v) kCageModeActive v))

/-- PORT_ENABLE_WRITE (R348): a port that is not enabled is down. Of the statuses of R325 and R446 for a port that does not exist the lower
decides (R514). -/
def execPortEnableWrite (who : Who) (n v : Nat) (s : State) : Host.Outcome State Fault Refusal :=
  guardWf (decide (n < 8 ∧ v < 256))
    (dictWrite s who (kPortEnable n) (.num v) (fun s => opOnly who (if !portExists s n then .denied else .ok))
      (fun s => let s := odSet s (kPortEnable n) v
        if v = 0 then linkDown s n else s))

/-! ### Flow control (R338) -/

/-- A received pause: free-running frames stop for the quanta of 512 bit times. -/
def pauseFor (s : State) (n quanta : Nat) : State :=
  if odN s kFlowControl = 0 then s
  else if quanta = 0 then setPort s n { port s n with pausedUntil := none }
  else setPort s n { port s n with pausedUntil := some (s.now + ceilDiv (512 * quanta) (max 1 (odN s (kPortSpeed n)))) }

def pauseRx (s : State) (n quanta : Nat) : State := pauseFor (bump s (kRxPauseFrames n) 1 none) n quanta

def pfcRx (s : State) (n classes : Nat) (quanta : List Nat) : State :=
  let s := bump s (kRxPfcFrames n) 1 none
  let c := odN s kPcpFree
  if bitOf classes c then pauseFor s n (lget 0 quanta c) else s

/-- PAUSE_RX. -/
def execPauseRx (n quanta : Nat) (s : State) : Host.Outcome State Fault Refusal :=
  guardWf (decide (n < 8 ∧ quanta < 65536)) (pauseRx s n quanta)

/-- PFC_RX. -/
def execPfcRx (n classes : Nat) (quanta : List Nat) (s : State) : Host.Outcome State Fault Refusal :=
  guardWf (decide (n < 8 ∧ classes < 256 ∧ quanta.length = 8) && quanta.all fun q => q < 65536) (pfcRx s n classes quanta)

/-- PAUSE_QUANTA_EXPIRY: once the quanta have passed. -/
def execPauseQuantaExpiry (n : Nat) (s : State) : Host.Outcome State Fault Refusal :=
  guardWf (decide (n < 8))
    (match (port s n).pausedUntil with
    | some u => if u ≤ s.now then setPort s n { port s n with pausedUntil := none } else s
    | none => s)

/-- Each part of the receive buffer. -/
def bufferHalf : Nat := 2 * 1024 * 1024

/-- The octets of a PAUSE or PFC frame before its FCS: destination, the port's address, EtherType, opcode, the classes of a PFC, quanta (R9,
R331), zeros to 60 octets. -/
def pauseOctets (s : State) (n : Nat) (pfc : Bool) (quanta : Nat) : List Byte :=
  let c := odN s kPcpFree
  fit 60 (beBytes 6 0x0180_C200_0001 ++ fit 6 (odB s (kMacAddress n)) ++ beBytes 2 0x8808 ++ beBytes 2 (if pfc then 0x0101 else 1) ++
    (if pfc then beBytes 2 (2 ^ c) ++ (List.range 8).flatMap fun i => beBytes 2 (if i = c then quanta else 0) else beBytes 2 quanta))

/-- Sends a pause frame and notes when. -/
def sendPause (s : State) (n quanta : Nat) : State :=
  let pfc : Bool := odN s kFlowControl = 2
  let s := setPort s n { port s n with lastPause := s.now }
  emit (bump s (if pfc then kTxPfcFrames n else kTxPauseFrames n) 1 none) (.pause n pfc quanta (pauseOctets s n pfc quanta))

/-- The shared part of the receive buffer passes 75 %: the first pause. The reserved part never counts. -/
def pauseStart (s : State) (n shared : Nat) : State :=
  let v := port s n
  if odN s kFlowControl ≠ 0 ∧ odN s (kLinkUp n) ≠ 0 ∧ !v.pausing ∧ 3 * bufferHalf < 4 * shared then
    sendPause (setPort s n { v with pausing := true }) n 0xFFFF
  else s

/-- PAUSE_REFRESH: by how full the shared part of the receive buffer is; above 50 % every 40 µs. -/
def execPauseRefresh (n shared reserved : Nat) (s : State) : Host.Outcome State Fault Refusal :=
  guardWf (decide (n < 8 ∧ shared ≤ bufferHalf ∧ reserved ≤ bufferHalf))
    (let v := port s n
     if odN s kFlowControl = 0 ∨ odN s (kLinkUp n) = 0 then s
     else if v.pausing then
       if bufferHalf < 2 * shared then (if v.lastPause + 40_000 ≤ s.now then sendPause s n 0xFFFF else s)
       else if 2 * shared < bufferHalf then sendPause (setPort s n { v with pausing := false }) n 0
       else s
     else pauseStart s n shared)

/-! ### Receive (R331, R340, R352) -/

/-- The partition whose committed grant holds a VID and the port (R334, R337). -/
def vidPart (s : State) (vid n : Nat) : Option Nat :=
  (s.parts.find? fun x => match x.2.grant with
    | some g => g.vid = vid && g.vid ≠ 0 && bitOf g.portMap n
    | none => false).map (·.1)

/-- The peer entry that an SCI names on a port, of those whose channel exists. -/
def sciPeer (s : State) (p n sci : Nat) : Option Nat :=
  match jobOf s p with
  | none => none
  | some j => (List.range 64).find? fun i => routed j i n && beNat (peerSci j i n) = sci && (chan s p n i).rx ≠ []

/-- Whether a channel's SA is to be replaced: the next PN of this side, or of the peer's newest, has reached 0xC000_0000 and no exchange
is under way (R344). -/
def rekeyDue (c : Chan) : Bool :=
  c.txAn ≠ none && c.offer = none && c.shadow = none && !c.failed &&
  (0xC000_0000 ≤ c.txPn || (c.rx.getLast?.map RxSa.pn).any fun x => decide (0xC000_0000 ≤ x))

/-- The initiator replaces an SA in time (R344). -/
def rekey (s : State) (p n i : Nat) : State := match jobOf s p with
  | some j => if rekeyDue (chan s p n i) ∧ initiates s j p i n then sendOffer s p n i 0 else s
  | none => s

/-- The MACsec checks of R340, in order. A frame that passes moves the lowest acceptable PN on; the first under the newest AN
retires the old SA (R344). -/
def macsecRx (s : State) (p n : Nat) (f : RxFrame) : State × Bool :=
  if f.keyAgreement ∧ !f.hasSecTag then (s, true)
  else if !f.hasSecTag then (bump s (kMacsecRxUnprotected n) 1 (some p), false)
  else match (if f.hasSci then sciPeer s p n f.sci else none) with
  | none => (bump s (kMacsecRxUnknownSci n) 1 (some p), false)
  | some i =>
    let c := chan s p n i
    match c.rx.find? fun a => a.an = f.an with
    | none => (bump s (kMacsecRxUnknownSci n) 1 (some p), false)
    | some a =>
      if !f.icvOk then (bump s (kMacsecRxNotValid n) 1 (some p), false)
      else if f.pn < a.pn then (bump s (kMacsecRxLate n) 1 (some p), false)
      else
        let a' : RxSa := { a with pn := f.pn + 1 }
        let newest : Bool := (c.rx.getLast?.map RxSa.an) = some f.an
        let rx := if newest then [a'] else c.rx.map fun x => if x.an = f.an then a' else x
        (rekey (bump (setChan s p n i { c with rx := rx }) (kMacsecRxOk n) 1 (some p)) p n i, true)

/-- What is left after the MAC: the IP and UDP checks (R352). -/
def ipRx (s : State) (p n : Nat) (f : RxFrame) : State :=
  let s := bump s kHrtCeReceived (if f.ce then 1 else 0) (some p)
  if f.ipOk ∧ f.dstIp = odB s (kLocalIp p (n + 1)) ∧ f.udpPort = odN s kHrtUdpPort then s
  else bump s kHrtIpDrops 1 (some p)

/-- Table 2 of 12, rows 6 to 10. -/
def macRx (s : State) (n : Nat) (f : RxFrame) : State :=
  if !f.tagged ∧ f.etherType = 0x8808 then
    if f.macOpcode = 0x0001 then pauseRx s n (f.macWord 0)
    else if f.macOpcode = 0x0101 then pfcRx s n (f.macWord 0) ((List.range 8).map fun i => f.macWord (i + 1))
    else bump s (kRxMacControlOther n) 1 none
  else if !f.tagged ∨ (f.tpid = 0x8100 ∧ f.vid ≠ 0 ∧ f.vid = odN s kPtpVid) then
    if f.etherType = 0x88F7 ∧ n = odN s kPtpPort then s else bump s (kRxUntaggedDrops n) 1 none
  else if f.tpid ≠ 0x8100 ∨ f.etherType = 0x8100 ∨ f.etherType = 0x88A8 then bump s (kRxVlanUnknown n) 1 none
  else match vidPart s f.vid n with
  | none => bump s (kRxVlanUnknown n) 1 none
  | some p =>
    if f.dstMac ≠ odB s (kMacAddress n) then bump s (kRxDaDrops n) 1 none
    else
      let (s, ok) := macsecRx s p n f
      if !ok then s else ipRx (bump (bump s (kRxFrames n) 1 (some p)) (kRxBytes n) f.length (some p)) p n f

def rxFits (f : RxFrame) : Bool := decide (f.shared ≤ bufferHalf ∧ f.reserved ≤ bufferHalf)

/-- A frame on the management port: rows 1 and 3 to 5 of Table 2 of 12 (R347). -/
def mgmtRx (s : State) (f : RxFrame) : State :=
  if (port s 8).noLink then s
  else if Config.mgmtBuffer < f.shared + 9216 then bump s (kRxBufferDrops 8) 1 none
  else if f.length < 64 then bump s (kRxUndersize 8) 1 none
  else if 9216 < f.length then bump s (kRxOversize 8) 1 none
  else if !f.fcsOk then bump s (kRxFcsErrors 8) 1 none
  else bump (bump s (kRxFrames 8) 1 none) (kRxBytes 8) f.length none

/-- FRAME_RX (R331): the checks in order; the first that fails decides. What PTP, HRT or key agreement then does with the frame
is a command of its own. A shared part that is more than three quarters full sends the first pause (R338). Port 8 is the management
port. -/
def execFrameRx (n : Nat) (f : RxFrame) (s : State) : Host.Outcome State Fault Refusal :=
  guardWf (decide (n < 9) && rxFits f)
    (if n = 8 then mgmtRx s f
     else if odN s (kLinkUp n) = 0 then s
     else
       let s := bump (bump s (kFecCorrectedCodewords n) f.fecCorrected none) (kFecSymbolErrors n) f.fecSymbols none
       let s := pauseStart (bump s (kFecUncorrectedCodewords n) f.fecBad none) n f.shared
       let used := if f.tagged ∧ f.pcp = odN s kPcpTimetabled then f.reserved else f.shared
       if bufferHalf < used + 9216 then bump s (kRxBufferDrops n) 1 none
       else if f.fecBad ≠ 0 then bump s (kRxFecFrameDrops n) 1 none
       else if f.length < 64 then bump s (kRxUndersize n) 1 none
       else if 9216 < f.length then bump s (kRxOversize n) 1 none
       else if !f.fcsOk then bump s (kRxFcsErrors n) 1 none
       else macRx s n f)

/-! ### Transmit (R332, R344, R369, R370) -/

/-- Whether a points change of a partition is deferred past its target (R318). -/
def pointsHeld (s : State) (p : Nat) : Bool := odN s (kPointsState p) = 0x0B || (match (part s p).points with
  | r :: _ => tickAfter (tickNow s) r.target
  | [] => false)

/-- Whether a committed path opens in a tick (R174, R318, R368, R369). -/
def pathOpens (s : State) (p : Nat) (e : PathEnt) (tick : Nat) : Bool :=
  odN s kTickAligned = 1 && !s.time.resumePaths && !pointsHeld s p && tick % (e.tickMod + 1) = e.tickRes &&
  e.start + e.length ≤ tickPeriod s

/-- The paths of a port that open in a tick, with their partitions. -/
def pathsOf (s : State) (n tick : Nat) : List (Nat × PathEnt) :=
  s.parts.flatMap fun x => (x.2.paths.filter fun e => e.port = n && e.length ≠ 0 && pathOpens s x.1 e tick).map fun e => (x.1, e)

/-- Bits of a frame on the wire, with preamble, SFD and gap. -/
def wireBits (s : State) (n : Nat) (f : MacFrame) : Nat := 8 * (frameLen s n f + 20)

/-- The association and packet number under which a frame leaves: none for a key message, those of its seal, or its channel's next. -/
def secOf (s : State) (n : Nat) (f : MacFrame) : Option (Nat × Nat) :=
  let c := chanReady (chan s f.part n f.peer)
  if isKey f.hdr then none else some (f.stamp.getD (c.txAn.getD 0, c.txPn))

/-- Whether a frame takes the next packet number of its channel. -/
def takesPn (f : MacFrame) : Bool := !isKey f.hdr && f.stamp = none

/-- Sends one frame of the transmit buffer: PN, counters, what the sender's QP notes; the room that it leaves is taken by frames that
wait for it (R328). -/
def transmit (s : State) (n : Nat) (f : MacFrame) (rest : List MacFrame) : State :=
  let sec := secOf s n f
  let c := chanReady (chan s f.part n f.peer)
  let len := frameLen s n f
  let dur := ceilDiv (wireBits s n f) (max 1 (odN s (kPortSpeed n)))
  let s := setPort s n { port s n with txq := rest, lastEnd := s.now + dur }
  let s := emit s (.frame n f sec (frameOctets s f.part n f.peer f.qp f.tag sec f.hdr f.payload))
  let s := if takesPn f then setChan s f.part n f.peer { c with txPn := c.txPn + 1 } else s
  let s := bump (countTx s f.part n len (!isKey f.hdr)) kHrtTimetabledFrames (if f.timetabled then 1 else 0) (some f.part)
  let s := if f.hdr.opcode = 2 ∨ isKey f.hdr then s
    else
      let v := qp s f.qp
      let first := !(v.frames.any fun g => g.sent ≠ none && g.hdr.psn ≠ f.hdr.psn && !inBuffer s f.qp g.hdr.psn)
      setQp s f.qp { v with frames := v.frames.map (fun g => if g.hdr.psn = f.hdr.psn then { g with sent := some s.now } else g),
                            progress := if first then s.now else v.progress }
  pumpPort (if takesPn f then rekey s f.part n f.peer else s) n

/-- The frame whose turn it is, with the frames before and after it. -/
def firstFrame (ok : MacFrame → Bool) : List MacFrame → List MacFrame → Option (List MacFrame × MacFrame × List MacFrame)
  | _, [] => none
  | pre, f :: r => if ok f then some (pre, f, r) else firstFrame ok (pre ++ [f]) r

/-- Whether a partition may send on a port at all (R334), and hold lets the frame go (R379). -/
def maySend (s : State) (n : Nat) (f : MacFrame) : Bool :=
  mayUse s f.part n && !(held s && f.hdr.opcode ≠ 2 && f.hdr.opcode ≠ 3) &&
  (!takesPn f || ((chan s f.part n f.peer).txAn ≠ none && !(chan s f.part n f.peer).failed))

/-- Whether a frame's channel has no packet number left (R344). -/
def pnStalled (s : State) (n : Nat) (f : MacFrame) : Bool :=
  let c := chan s f.part n f.peer
  takesPn f && c.shadow = none && 0xFFFF_FFF0 ≤ c.txPn

/-- Counts each frame that a channel without packet numbers holds, once. -/
def countStalls (s : State) (n : Nat) : State :=
  let q := (port s n).txq
  let hit (f : MacFrame) : Bool := !f.held && maySend s n f && pnStalled s n f
  let s := (q.filter hit).foldl (fun s f => bump s (kMacsecPnStalls n) 1 (some f.part)) s
  setPort s n { port s n with txq := q.map fun f => if hit f then { f with held := true } else f }

/-- FRAME_TX: at time t a port starts the frame whose turn it is, if its wire time fits: in an open path, a timetabled frame of
the path's peer and classes or an ack to that peer; outside, a free-running frame that ends before the next guard. -/
def frameTx (s : State) (n : Nat) : State :=
  let v := port s n
  let speed := odN s (kPortSpeed n)
  if odN s (kLinkUp n) = 0 ∨ speed = 0 ∨ s.now < v.lastEnd then s
  else
    let s := countStalls s n
    let q := (port s n).txq
    let since := sinceEpoch s (moduleTime s)
    let off : Nat := (since.getD 0 + 2 ^ 48 * tickPeriod s - s.time.tick * tickPeriod s) % (2 ^ 48 * tickPeriod s)
    let now := if since = none then [] else pathsOf s n (tickNow s)
    let can (f : MacFrame) : Bool := maySend s n f && !pnStalled s n f
    match now.find? fun x => x.2.start ≤ off && off < x.2.start + x.2.length with
    | some (p, e) =>
      match firstFrame (fun f => can f && f.part = p && f.peer = e.peer &&
          (f.hdr.opcode = 2 || (f.timetabled && bitOf e.classes f.cls))) [] q with
      | some (pre, f, r) => if wireBits s n f ≤ (e.start + e.length - off) * speed then transmit s n f (pre ++ r) else s
      | none => s
    | none =>
      let next := pathsOf s n ((tickNow s + 1) % 2 ^ 48)
      let guards := (now.filter fun x => off ≤ x.2.start).map (fun x => x.2.start - 250) ++ next.map (fun x => tickPeriod s + x.2.start - 250)
      let paused : Bool := match v.pausedUntil with
        | some t => decide (s.now < t)
        | none => false
      if paused then s
      else match firstFrame (fun f => can f && !f.timetabled) [] q with
      | some (pre, f, r) => if guards.all fun g => decide (off ≤ g) && decide (wireBits s n f ≤ (g - off) * speed) then transmit s n f (pre ++ r) else s
      | none => s

def execFrameTx (n t : Nat) (s : State) : Host.Outcome State Fault Refusal :=
  guardWf (decide (n < 8)) (frameTx (atTime s t) n)

end Sys2Proof.Machine
end

