-- ==== Sys2Proof/Machine/Job.lean ====
section
/-! DEFINITION. The job map and its peer table (R298, R299, R357, R358), the timetabled mapping (R316 to R319, R367, R368), the
window table's swap (R380) and the layer table's address (R275). -/

namespace Sys2Proof.Machine

/-! ### Records -/

/-- The job map record (Table 1 of 11), the peer table's address and the reserved bits. -/
def parseJob (bs : List Byte) : JobMap × Nat × Nat :=
  let v := leNat bs
  ({ tag := bits v 480 32, sizeT := bits v 472 8, sizeS := bits v 464 8, sizeD := bits v 456 8, sizeP := bits v 448 8,
     rank := bits v 440 8, leader := bits v 432 8, phases := bits v 424 8, baseSem := bits v 400 16, peers := [] },
   bits v 352 48, bits v 416 8 + bits v 0 352)

/-- A port entry (Table 5 of 13). -/
def parsePort (bs : List Byte) : PeerPort :=
  let v := leNat bs
  { ip := bits v 128 128, nextHop := bits v 80 48, mac := bits v 32 48, localQp := bits v 16 16, remoteQp := bits v 0 16 }

/-- A peer entry of 1,536 bytes (R357), and whether it keeps to Tables 4 and 5 of 13: of a module the SCI's port identifier is that of one
of the peer's 40 partitions, and an IPv4 address of a routed port has the form ::ffff:a.b.c.d. -/
def parsePeer (i : Nat) (bs : List Byte) : Peer × Bool :=
  let v := leNat (bs.take 32)
  let e : Peer :=
    { kind := bits v 248 8, rank := bits v 240 8, sciPort := bits v 224 16, ipVersion := bits v 216 8,
      udpPort := bits v 200 16, ports := ((List.range 8).map fun n => parsePort ((bs.drop (32 + 32 * n)).take 32)),
      kem := (bs.drop 288).take 1184 }
  let good := e.kind ≤ 2 && bits v 0 200 = 0 && (bs.drop 1472).all (· = 0) && e.rank = (if e.kind = 1 then i else 0) &&
    (e.kind = 0 || e.ipVersion = 6 || (e.ipVersion = 4 && e.ports.all fun x => x.remoteQp = 0xFFFF || x.ip / 2 ^ 32 = 0xFFFF)) &&
    (e.kind ≠ 1 || (1 ≤ e.sciPort && e.sciPort ≤ 40))
  (e, good)

/-- Routed port entries of a table: peer, port, entry. -/
def routes (ps : List Peer) : List (Nat × Nat × PeerPort) :=
  ps.zipIdx.flatMap fun (e, i) => if e.kind = 0 then [] else
    (e.ports.zipIdx.filter fun x => x.1.remoteQp ≠ 0xFFFF).map fun (x, n) => (i, n, x)

/-- Whether a QP lies in a partition's range: blocks of 32 (R416). -/
def qpOwned (s : State) (p q : Nat) : Bool := q < 4096 && bitOf (grantOf s p).qps (q / 32)

/-- Secure channels that the other partitions' latched tables hold on a port (R358). -/
def otherChannels (s : State) (p n : Nat) : Nat :=
  ((s.parts.filter fun x => x.1 ≠ p).map fun x => match x.2.job with
    | some j => ((routes j.peers).filter fun r => r.2.1 = n).length
    | none => 0).foldl (· + ·) 0

/-- Reads the job map and its table, and the lowest of the statuses that apply (R299, R358, R514). -/
def readJob (s : State) (p a : Nat) : Status × JobMap :=
  let none' : JobMap := ⟨0, 0, 0, 0, 0, 0, 0, 0, 0, []⟩
  if stepOpen s p ∨ !listRegionOk s a ∨ !allotted s p a 64 false then (.denied, none')
  else
    let (bs, bad) := loadBytes s a 64
    let (j, pa, res) := parseJob bs
    if bad then (.poisoned, none')
    else if !allotted s p pa 98304 false then (.denied, none')
    else
      let tab := (List.range 64).map fun i => parsePeer i (memRead s.mem (pa + 1536 * i) 1536)
      let bad := rangeLost s pa 98304
      let ps := tab.map (·.1)
      let n := jobSize j
      let rs := routes ps
      let sizes := [j.sizeT, j.sizeS, j.sizeD, j.sizeP]
      let malformed := res ≠ 0 || sizes.any (· = 0) || 64 < n || n ≤ j.rank || n ≤ j.leader ||
        (tab.any fun x => !x.2) || (ps.zipIdx.any fun x => (x.1.kind = 1) ≠ (x.2 < n)) ||
        (rs.any fun r => 4095 < r.2.2.remoteQp || !portExists s r.2.1) ||
        ((rs.map fun r => r.2.2.localQp).eraseDups.length ≠ rs.length)
      let denied := rs.any fun r => !qpOwned s p r.2.2.localQp || qpPort r.2.2.localQp ≠ r.2.1
      let full := (List.range 8).any fun q => 256 < otherChannels s p q + (rs.filter fun r => r.2.1 = q).length
      (lowestStatus [if bad then .poisoned else .ok, if denied then .denied else .ok, if malformed then .malformed else .ok,
         if full then .capacity else .ok], { j with peers := ps })

/-- Takes the partition's QPs and channels away. -/
def dropTable (s : State) (p : Nat) (st : Status) : State :=
  let s := ((s.qps.filter fun x => x.2.isOpen ∧ x.2.part = p).map fun x => x.1).foldl (fun s q => closeQp s q st) s
  { s with chans := s.chans.filter fun x => x.1 / 64 / 8 ≠ p }

/-- Transport objects written while a step was open act now (R383). -/
def takeHrtNext (s : State) : State :=
  let s := s.hrtNext.foldl (fun s x => match x.2 with
    | some v => odSet s x.1 v
    | none => s) s
  { s with hrtNext := [] }

/-- Latches a job map (R298, R358): the old table's QPs close, each routed entry of a peer that is not quarantined gets a QP and
a channel, whose keying this module starts where its SCI is the lower. -/
def latchJob (s : State) (p a : Nat) (j : JobMap) : State :=
  let s := takeHrtNext (dropTable s p .aborted)
  let s := odSet s (kJobMapAddr p) a
  let s := odSet s (kPeerQuarantineMap p) ((bitList 64 (part s p).quarantineClear).foldl bitClr (odN s (kPeerQuarantineMap p)))
  let s := odSet (odSet s (kPeerAbsentMap p) 0) (kPeerSlowMap p) 0
  let s := modPart s p fun q => { q with job := some j, quarantineClear := 0, buffers := [],
                                         step := { q.step with votes := [], decision := none, attempts := [] } }
  let s := (routes j.peers).foldl (fun s (i, n, x) =>
    if isQuarantined s p i then s
    else
      let s := setQp s x.localQp { Qp.reset with isOpen := true, part := p, peer := i, remote := x.remoteQp, cwnd := odN s kCwndInitial }
      if initiates s j p i n then sendOffer s p n i 0 else s) s
  countChannels s p

/-- JOB_MAP_ADDR_WRITE. -/
def execJobMapAddrWrite (who : Who) (p addr : Nat) (s : State) : Host.Outcome State Fault Refusal :=
  guardWf (decide (p < 40 ∧ addr < 2 ^ 64))
    (dictWrite s who (kJobMapAddr p) (.num addr) (fun s => opOrTenant who p (readJob s p addr).1)
      (fun s => latchJob s p addr (readJob s p addr).2))

/-! ### The timetabled mapping -/

/-- A path entry of the mapping's image (Table 6 of 13), and its reserved bits. -/
def parsePath (n : Nat) (bs : List Byte) : PathEnt × Nat :=
  let v := leNat bs
  ({ port := n, start := bits v 96 32, length := bits v 64 32, peer := bits v 56 8, classes := bits v 52 4, tickMod := bits v 46 6,
     tickRes := bits v 40 6 }, bits v 0 40)

/-- Whether two paths can open in one tick. -/
def sameTick (a b : PathEnt) : Bool := a.tickRes % Nat.gcd (a.tickMod + 1) (b.tickMod + 1) = b.tickRes % Nat.gcd (a.tickMod + 1) (b.tickMod + 1)

/-- Whether two paths of one port, guards included, could be open at once. -/
def pathClash (a b : PathEnt) : Bool := a.port = b.port && sameTick a b && overlaps (a.start - 250) (a.length + 250) (b.start - 250) (b.length + 250)

/-- Pairs of a list, each once. -/
def pairs {α : Type} : List α → List (α × α)
  | [] => []
  | a :: r => r.map (fun b => (a, b)) ++ pairs r

/-- A path with the copy that holds it: 2p is the committed copy of partition p, 2p + 1 its ready copy. -/
abbrev CopyPath := Nat × PathEnt

/-- Whether two paths can open in one tick: they share one, and are not of a committed copy and of the ready one that takes its place. -/
def together (a b : CopyPath) : Bool := sameTick a.2 b.2 && (a.1 = b.1 || a.1 / 2 ≠ b.1 / 2)

/-- Whether paths of a port that can open together with all of `took` can be added until less than 1,000 ns are left. Residues that
agree pair by pair have a common tick. A path that can open with every other candidate is added without a choice. -/
def fullWith (period : Nat) (took : List CopyPath) (used : Nat) : List CopyPath → Bool
  | [] => decide (period < used + 1000)
  | x :: r =>
    if !took.all (together x) then fullWith period took used r
    else if r.all fun y => together x y || !took.all (together y) then fullWith period (x :: took) (used + x.2.length + 250) r
    else fullWith period took used r || fullWith period (x :: took) (used + x.2.length + 250) r

/-- Whether some tick leaves less than 1,000 ns of a port outside all paths and guards. -/
def tooFull (l : List CopyPath) (period : Nat) : Bool :=
  (List.range 8).any fun n => fullWith period [] 0 (l.filter fun e => e.2.port = n)

/-- Checks an image (R368). -/
def pathCheck (s : State) (p : Nat) (img : List (PathEnt × Nat)) : Status :=
  let used := (img.map fun x => x.1).filter fun e => e.length ≠ 0
  let P := tickPeriod s
  let routedOk (e : PathEnt) : Bool := match jobOf s p with
    | some j => e.peer < 64 && routed j e.peer e.port
    | none => false
  let malformed := (img.any fun x => x.2 ≠ 0 || x.1.tickMod < x.1.tickRes) ||
    (used.any fun e => e.length < 400 || e.start < 250 || P < e.start + e.length || !routedOk e) ||
    ((pairs used).any fun x => pathClash x.1 x.2)
  let others : List CopyPath := (s.parts.flatMap fun x => if x.1 = p then [] else
    x.2.paths.map (fun e => (2 * x.1, e)) ++ (if x.2.pathReady ≠ none then x.2.pathShadow.map fun e => (2 * x.1 + 1, e) else [])).filter
      fun o => o.2.length ≠ 0
  let denied := used.any fun e => others.any fun o => pathClash e o.2
  if denied then .denied else if malformed || tooFull (used.map (fun e => (2 * p, e)) ++ others) P then .malformed else .ok

/-- Loads the shadow copy: ready with its phase, or the refusal in `path_shadow_state` (R367). -/
def loadPaths (s : State) (p a : Nat) : State :=
  let s := modPart s p fun q => { q with pathReady := none }
  if !listRegionOk s a ∨ !allotted s p a 4096 false then odSet s (kPathShadowState p) (stCode .denied)
  else
    let (bs, bad) := loadBytes s a 4096
    let img := (List.range 8).flatMap fun n => (List.range 32).map fun e => parsePath n ((bs.drop (512 * n + 16 * e)).take 16)
    let st := if bad then .malformed else pathCheck s p img
    if st ≠ .ok then odSet s (kPathShadowState p) (stCode st)
    else
      let ph := odN s (kPathShadowPhase p)
      odSet (modPart s p fun q => { q with pathShadow := (img.map fun x => x.1).filter (fun e => e.length ≠ 0), pathReady := some ph })
        (kPathShadowState p) 0

/-- PATH_SHADOW_LOAD (R367, R368). -/
def execPathShadowLoad (who : Who) (p addr : Nat) (s : State) : Host.Outcome State Fault Refusal :=
  guardWf (decide (p < 40 ∧ addr < 2 ^ 64))
    (dictWrite s who (kPathShadowLoad p) (.num addr) (fun _ => opOrTenant who p .ok) (fun s => loadPaths s p addr))

/-- What `points_pending` and `points_state` show once the first change has gone. -/
def pointsNext (s : State) (p : Nat) : State :=
  odSet (odSet s (kPointsPending p) (match (part s p).points with
    | r :: _ => r.phase
    | [] => 0xFF)) (kPointsState p) 0

/-- POINTS_SWAP (R317, R319): at the target boundary, or at each later one until the shadow copy is ready with the phase. -/
def execPointsSwap (p : Nat) (s : State) : Host.Outcome State Fault Refusal :=
  guardWf (decide (p < 40))
    (match (part s p).points with
    | [] => s
    | r :: rest =>
      if !tickAfter (tickNow s) r.target then s
      else if (part s p).pathReady = some r.phase then
        let s := modPart s p fun q => { q with paths := q.pathShadow, pathReady := none, points := rest }
        let s := odSet (odSet s (kPointsPhase p) r.phase) (kPathShadowState p) (stCode .notReady)
        let s := bump s kPointsChanges 1 (some p)
        endVerb (pointsNext s p) r.consist r.vi .ok
      else
        let s := modPart s p fun q => { q with points := { r with target := (tickNow s + 1) % 2 ^ 48 } :: rest }
        bump (odSet s (kPointsState p) (stCode .notReady)) kPointsDeferrals 1 (some p))

/-! ### Windows and the layer table -/

/-- WINDOW_TABLE_SWAP (R380): the shadow copy of the partition's windows becomes committed; the calls that waited end. -/
def execWindowTableSwap (p : Nat) (s : State) : Host.Outcome State Fault Refusal :=
  guardWf (decide (p < 40))
    (let q := part s p
     if !q.winReady then s
     else
       let gone := (q.windows.filter fun x => tget none q.winShadow x.1 = none).map (·.1)
       let rel := gone.foldl (fun r w => tset 0 r w (s.now + 1)) q.winReleased
       let s := setPart s p { q with windows := q.winShadow, winReady := false, winReleased := rel, winCalls := [] }
       let s := odSet s (kWindowsRegistered p) q.winShadow.length
       q.winCalls.foldl (fun s c => endVerb s c.1 c.2 .ok) s)

/-- LAYER_TABLE_ADDR_WRITE (R275): both copies take the reset values. -/
def execLayerTableAddrWrite (who : Who) (p addr : Nat) (s : State) : Host.Outcome State Fault Refusal :=
  guardWf (decide (p < 40 ∧ addr < 2 ^ 64))
    (dictWrite s who (kLayerTableAddr p) (.num addr)
      (fun s => opOrTenant who p (if stepOpen s p ∨ !allotted s p addr 0x4_0000 true then .denied
        else if addr % 4096 ≠ 0 ∨ region s addr ≠ .near then .malformed else .ok))
      (fun s => layerTableReset (modStep (odSet s (kLayerTableAddr p) addr) p fun x => { x with layersChanged := [] }) addr))

end Sys2Proof.Machine
end

