-- ==== Sys2Proof/Machine/Manifest.lean ====
section
/-! DEFINITION. Manifests (R394 to R400) from the fetch to the completion: the checks, each opcode's parts and effect, the
status, the token and the vote. -/

namespace Sys2Proof.Machine

/-! ### The record (Tables 6 and 8 of 14) -/

/-- Field of `n` bytes at byte `off` of a manifest. -/
def mB (b : List Byte) (off n : Nat) : Nat := leNat ((b.drop off).take n)

def mOp (b : List Byte) : Nat := mB b 62 1
def mFence (b : List Byte) : Bool := bitOf (mB b 61 1) 0
def mPost (b : List Byte) : Bool := bitOf (mB b 61 1) 1
def mIrq (b : List Byte) : Bool := bitOf (mB b 61 1) 2
def mPostSem (b : List Byte) : Nat := mB b 48 2

/-- Operand bytes that an opcode uses, as (first, count). -/
def mUsed : Nat → List (Nat × Nat)
  | 0x01 => [(4, 17)]
  | 0x02 => [(4, 6)]
  | 0x03 => [(4, 3), (8, 8)]
  | 0x04 => [(4, 2), (8, 4)]
  | 0x05 => [(4, 8)]
  | 0x06 => [(4, 2), (8, 4)]
  | 0x07 => [(4, 21)]
  | 0x08 => [(4, 16)]
  | 0x09 => [(4, 16)]
  | 0x0A => [(4, 1), (8, 12)]
  | 0x0B => [(4, 2), (8, 8)]
  | _ => []

/-- Whether a reserved field of a manifest is set (R8, R398). -/
def mReserved (b : List Byte) : Bool :=
  8 ≤ mB b 61 1 || mB b 60 1 ≠ 0 || mB b 50 2 ≠ 0 ||
  ((List.range 44).any fun i => mB b (4 + i) 1 ≠ 0 && !(mUsed (mOp b)).any fun u => u.1 ≤ 4 + i && 4 + i < u.1 + u.2)

/-- The three checks of a fetched manifest (R396). -/
def mValid (b : List Byte) (seq : Nat) : Bool :=
  b.length = 64 && mB b 63 1 = 0x5A && mB b 56 4 = seq && mB b 0 4 = crc32c ((b.drop 4).take 59)

/-! ### Fetching (R394, R396, R402) -/

/-- Whether the module is in hold, from host loss to the end of the adoption. -/
def holding (s : State) : Bool := held s

/-- A manifest that checks is fetched and reserves its completion slot. -/
def fetched (s : State) (q : Nat) (b : List Byte) : State :=
  let v := queue s q
  bump (setQueue s q { v with started := v.started ++ [⟨v.seqExpected, b, none, .ok, [], [], []⟩],
                              seqExpected := (v.seqExpected + 1) % 2 ^ 32, retry := none }) kManifestsFetched 1 none

/-- Where the manifest of a sequence lies (R394). -/
def slotAddr (v : HQueue) (seq : Nat) : Nat := v.sqBase + 64 * (seq % 2 ^ v.sqOrder)

/-- How many consecutive slots one read may take: at most 16, of those that the host has written, up to the ring's end. -/
def fetchCount (v : HQueue) : Nat :=
  min 16 (min ((v.sqTail + 2 ^ 32 - v.seqExpected) % 2 ^ 32) (2 ^ v.sqOrder - v.seqExpected % 2 ^ v.sqOrder))

/-- Whether a completion slot is free and nothing waits for one (R400, R402). -/
def slotFree (v : HQueue) : Bool := v.waiting = [] && v.retained = [] && decide (slotsUsed v < 2 ^ v.cqOrder)

/-- Fetches slots in order until one fails its check or no completion slot is free. -/
def fetchSlots (q : Nat) : List (List Byte) → State → State
  | [], s => s
  | b :: r, s =>
    let v := queue s q
    if !slotFree v then s
    else if mValid b v.seqExpected then fetchSlots q r (fetched s q b)
    else setQueue s q { v with retry := some 0 }

/-- Stops a queue with a completion for the sequence expected (R394, R396). -/
def queueStop (s : State) (q : Nat) (st : Status) : State :=
  let v := queue s q
  let s := setQueue s q { v with state := 2, lastError := stCode st, retry := none }
  deliver s q ⟨stCode st, 0, v.seqExpected, 0, 0, 0, false⟩ false

/-- MANIFEST_FETCH: one read of 1 to 16 slots, whose contents are `bytes` (R394). -/
def execManifestFetch (q : Nat) (bytes : List Byte) (s : State) : Host.Outcome State Fault Refusal :=
  guardWf (decide (q < 256 ∧ bytes.length % 64 = 0 ∧ 64 ≤ bytes.length ∧ bytes.length ≤ 1024))
    (let v := queue s q
     if v.state ≠ 1 ∨ v.seqExpected = v.sqTail ∨ v.retry ≠ none ∨ !slotFree v then s
     else
       let n := min (bytes.length / 64) (fetchCount v)
       fetchSlots q ((List.range n).map fun i => (bytes.drop (64 * i)).take 64) (emit s (.hostRead (slotAddr v v.seqExpected) (64 * n))))

/-- MANIFEST_REREAD. -/
def execManifestReread (q : Nat) (bytes : List Byte) (s : State) : Host.Outcome State Fault Refusal :=
  guardWf (decide (q < 256 ∧ bytes.length = 64))
    (let v := queue s q
     match v.retry with
     | none => s
     | some n =>
       if v.state ≠ 1 ∨ !slotFree v then s
       else
         let s := bump (emit s (.hostRead (slotAddr v v.seqExpected) 64)) kManifestRereads 1 none
         if mValid bytes v.seqExpected then fetched s q bytes
         else if n + 1 < 16 then setQueue s q { v with retry := some (n + 1) }
         else bump (queueStop s q .staleManifest) kStaleManifests 1 none)

/-! ### Starting and ending (R399, R400) -/

/-- Whether a depot write has begun and waits with some of its blocks (R258). -/
def begun (x : Started) : Bool := x.blocks ≠ [] || x.held ≠ []

/-- Whether a manifest that was fetched earlier has started. -/
def hasStarted (x : Started) : Bool := x.parts ≠ none || begun x

/-- The manifest of a sequence, if it may start now. -/
def startable (s : State) (q seq : Nat) (sel : List Byte → Bool) : Option Started :=
  let v := queue s q
  let before := v.started.takeWhile fun x => x.seq ≠ seq
  match v.started.find? fun x => x.seq = seq with
  | none => none
  | some x =>
    if x.parts ≠ none ∨ !sel x.bytes ∨ !before.all hasStarted ∨ (mFence x.bytes ∧ before ≠ []) ∨ holding s ∨
      (v.state = 3 ∧ 1024 ≤ v.retained.length) then none
    else some x

/-- Changes what is kept of a manifest that has been fetched. -/
def modStarted (s : State) (q seq : Nat) (f : Started → Started) : State :=
  let v := queue s q
  setQueue s q { v with started := v.started.map fun x => if x.seq = seq then f x else x }

/-- Records the parts of a manifest and its status. -/
def manifestParts (s : State) (q seq : Nat) (parts : List (Nat × Status)) (st : Status) : State :=
  modStarted s q seq fun x => { x with parts := some parts, status := st }

/-- Notes a refusal, which `last_error` shows (R393). -/
def noteRefusal (s : State) (q : Nat) (st : Status) : State := setQueue s q { queue s q with lastError := stCode st }

/-- The checks that every manifest meets (R399). -/
def commonCheck (s : State) (p : Nat) (b : List Byte) : Status :=
  let v := semGet s (mPostSem b)
  lowestStatus [if mReserved b || (mPost b && (v.kind ≠ 0 || v.setter ≠ 0xE0)) then .malformed else .ok,
    if mPost b && v.part ≠ p then .denied else .ok]

/-- Checks a manifest, refuses it, or runs its parts. `reach` says whether it may reach the device ranges that it names; one that may
not is a refused access (R199). `act` answers no parts where the manifest waits (R258); one that goes on is not checked anew. -/
def runManifest (s : State) (q seq : Nat) (sel : List Byte → Bool) (reach : Nat → List Byte → Bool) (check : Nat → List Byte → Status)
    (act : Nat → List Byte → State × Option (List (Nat × Status))) : State :=
  match startable s q seq sel with
  | none => s
  | some x =>
    let p := (queue s q).part
    let inside := reach p x.bytes
    let st := lowestStatus [commonCheck s p x.bytes, if inside then .ok else .denied, check p x.bytes]
    if st ≠ .ok ∧ !begun x then manifestParts (noteRefusal (if inside then s else countDenied s (some p)) q st) q seq [] st
    else
      match act p x.bytes with
      | (s, none) => s
      | (s, some parts) => manifestParts s q seq parts (tokenStatus (parts.map (·.2)))

/-- The rows' range of operands. -/
def rowOk (q seq : Nat) : Bool := decide (q < 256 ∧ seq < 2 ^ 32)

/-- A manifest that names no device range. -/
def noReach (_ : Nat) (_ : List Byte) : Bool := true

def one (st : Status) : Option (List (Nat × Status)) := some [(0, st)]

def isOp (op : Nat) (b : List Byte) : Bool := mOp b = op

/-- MANIFEST_NOP: opcode 0x00; an opcode that Table 8 does not list is malformed. -/
def execManifestNop (q seq : Nat) (s : State) : Host.Outcome State Fault Refusal :=
  guardWf (rowOk q seq)
    (runManifest s q seq (fun b => mOp b = 0 || 0x0C ≤ mOp b) noReach (fun _ b => if mOp b = 0 then .ok else .malformed) (fun _ _ => (s, one .ok)))

/-! ### Programs (R36, R123, R124, R153, R157, R163, R184) -/

/-- Whether a declaration keeps to R184. -/
def declOk (d : SemDecl) : Bool :=
  if d.kind = 0 then
    d.expected = 0 && (d.setter < 0x50 || (0xA0 ≤ d.setter && d.setter < 0xB1) || (0xC0 ≤ d.setter && d.setter < 0xC8) || d.setter = 0xE0)
  else d.kind = 1 && (d.setter < 0x50 || d.setter = 0xFE) && 1 ≤ d.expected && d.expected < 2 ^ 32

/-- A declaration resets the slot and writes setter, kind and expected. -/
def declare (s : State) (d : SemDecl) : State :=
  semReset s d.sem { (semGet s d.sem).clear 0 with setter := d.setter, kind := d.kind, expected := d.expected }

/-- Nesting of a stream (R153, R157): whether it keeps to the rules from a depth on. -/
def nestOk : List StreamItem → Nat → Bool
  | [], d => d = 0
  | .loopBegin :: r, d => d < 4 && nestOk r (d + 1)
  | .loopEnd :: r, d => 0 < d && nestOk r (d - 1)
  | .halt :: r, d => d = 0 && nestOk r d
  | .call x :: r, d => (x = 0x34 || d ≤ 2) && nestOk r d
  | .verb :: r, d => nestOk r d

/-- Whether an image was built for this part and for an OVI version that it takes. -/
def builtFor (s : State) (part ovi : Nat) : Bool := part = 9680 && odN s kOviMajorMin ≤ ovi && ovi ≤ odN s kOviMajorMax

/-- Whether a kernel's instruction names a loop level and a format that exist (R131, Table 8 of 03). -/
def vopOk : VOp → Bool
  | .movLoop _ l => decide (l < 4)
  | .cvtTo _ _ f => decide (f < 6)
  | .cvtFrom _ _ f => decide (f < 6)
  | _ => true

/-- Ranges of what a verb of a segment carries (R155); its consist is the entry's. -/
def segmentVerbOk (x : VerbIn) : Bool := hdrOk { x.h with consist := 0 } && verbOk x.v

/-- Whether a segment is a straight run of at most 256 verbs with no control verb other than `nop` (Table 3 of 11, R310). -/
def segmentOk (l : List VerbIn) : Bool := l.length ≤ 256 && l.all fun x => (verbClass x.v ≠ 6 || x.v = .nop) && segmentVerbOk x

/-- Why an image is not loaded into the consists of a mask. -/
def imageCheck (s : State) (p : Nat) (b : List Byte) (img : Image) : Status :=
  let ks := bitList 40 (mB b 16 5)
  let own (k : Nat) : Bool := bitOf (grantOf s p).consists k
  lowestStatus
    [if !ks.all own || (img.consists.any fun c => !own c.consist) || (img.sems.any fun d => (semGet s d.sem).part ≠ p) then
        .denied else .ok,
     if ks.any fun k => (con s k).pstate = .running then .notReady else .ok,
     if !builtFor s img.part img.oviMajor || (ks.any fun k => !img.consists.any fun c => c.consist = k) ||
        (img.consists.any fun c => !nestOk c.stream 0) || (img.kernels.any fun l => l.any fun i => !vopOk i.op) ||
        (img.segments.any fun l => !segmentOk l) || (img.consists.any fun c => c.nouns.any fun x => x.1 = 0 || 4095 < x.1) || (img.sems.any fun d => !declOk d || 65536 ≤ d.sem) then .malformed else .ok]

/-- A consist with an image's program, idle: its records count anew (R146, R182, R196), and its histogram bases read 0 (R89). -/
def loadConsist (s : State) (k : Nat) (img : Image) : State :=
  match img.consists.find? fun c => c.consist = k with
  | none => s
  | some ci =>
    setCon (poke (forsake s k) (histTable k) (zeros 256)) k { Consist.reset with
      prog := some ⟨ci.stream, img.kernels, img.segments, ci.nouns⟩
      nouns := ci.nouns.foldl (fun t x => tset none t x.1 (some ⟨x.2, false, none, false⟩)) [] }

/-- Keeps the digest of an image as it is loaded (R431). -/
def noteImage (s : State) (q seq a n : Nat) : State := modStarted s q seq fun x => { x with digest := shake256 (memRead s.mem a n) 64 }

/-- IMAGE_LOAD: `img` is the image that stands at the manifest's address. -/
def execImageLoad (q seq : Nat) (img : Image) (s : State) : Host.Outcome State Fault Refusal :=
  guardWf (rowOk q seq)
    (runManifest s q seq (isOp 0x01) (fun p b => rangeInTier s p 2 (mB b 4 8) (mB b 12 4) false) (fun p b => imageCheck s p b img) (fun _ b =>
      let ks := bitList 40 (mB b 16 5)
      if rangeLost s (mB b 4 8) (mB b 12 4) then (s, some (ks.map fun k => (k, .poisoned)))
      else
        let s := ks.foldl (fun s k => loadConsist s k img) (noteImage s q seq (mB b 4 8) (mB b 12 4))
        (img.sems.foldl declare s, some (ks.map fun k => (k, .ok)))))

/-- Starts a loaded program from its first verb; one without a verb has stopped with its start (R124). -/
def startConsist (s : State) (k : Nat) : State :=
  finishCheck k <| modCon s k fun c =>
    { c with
      pstate := .running
      pos := 0
      vi := 0
      loops := []
      hold := none
      ahead := []
      afterVote := none
      ending := (match c.prog with
        | some g => g.stream = []
        | none => true) }

/-- Loads the noun table and the loop slots anew from the image. -/
def reload (s : State) (k : Nat) : State :=
  modCon s k fun c => match c.prog with
    | none => c
    | some g => { Consist.reset with
        prog := c.prog, nouns := g.nouns.foldl (fun t x => tset none t x.1 (some ⟨x.2, false, none, false⟩)) []
        faultSerial := c.faultSerial, slotSerial := c.slotSerial, lockSerial := c.lockSerial }

/-- One consist's part of a `consist_control` (R124): 0 start, 1 restart, 2 stop, 3 unload. -/
def controlPart (s : State) (k action : Nat) : State × Status :=
  let c := con s k
  let halt (s : State) : State := if c.pstate = .running then stopConsist s k 0x0E else s
  match action with
  | 0 =>
    if c.pstate = .running then (s, .ok)
    else if c.pstate = .idle ∧ c.prog ≠ none then (startConsist s k, .ok)
    else (s, .malformed)
  | 1 => if c.prog = none then (s, .malformed) else (startConsist (reload (forsake (halt s) k) k) k, .ok)
  | 2 => (halt s, .ok)
  | _ =>
    (setCon (forsake (halt s) k) k Consist.reset, .ok)

/-- A `consist_control` with one action. -/
def control (q seq action : Nat) (sel : Nat → Bool) (s : State) : State :=
  runManifest s q seq (fun b => mOp b = 0x02 && sel (mB b 9 1)) noReach
    (fun p b => lowestStatus
      [if (bitList 40 (mB b 4 5)).all fun k => bitOf (grantOf s p).consists k then .ok else .denied,
       if 3 < mB b 9 1 then .malformed else .ok])
    (fun _ b =>
      let x := (bitList 40 (mB b 4 5)).foldl (fun (x : State × List (Nat × Status)) k =>
        let (s, st) := controlPart x.1 k action
        (s, x.2 ++ [(k, st)])) (s, [])
      (x.1, some x.2))

/-- CONSIST_CONTROL_START; an action that Table 8 does not list is malformed. -/
def execConsistControlStart (q seq : Nat) (s : State) : Host.Outcome State Fault Refusal :=
  guardWf (rowOk q seq) (control q seq 0 (fun a => a = 0 || 3 < a) s)
/-- CONSIST_CONTROL_RESTART. -/
def execConsistControlRestart (q seq : Nat) (s : State) : Host.Outcome State Fault Refusal :=
  guardWf (rowOk q seq) (control q seq 1 (fun a => a = 1) s)
/-- CONSIST_CONTROL_STOP. -/
def execConsistControlStop (q seq : Nat) (s : State) : Host.Outcome State Fault Refusal :=
  guardWf (rowOk q seq) (control q seq 2 (fun a => a = 2) s)
/-- CONSIST_CONTROL_UNLOAD. -/
def execConsistControlUnload (q seq : Nat) (s : State) : Host.Outcome State Fault Refusal :=
  guardWf (rowOk q seq) (control q seq 3 (fun a => a = 3) s)

/-- NOUN_WRITE (R137): `image` is the entry that stands at the manifest's address. -/
def execNounWrite (q seq : Nat) (image : Noun) (s : State) : Host.Outcome State Fault Refusal :=
  guardWf (rowOk q seq)
    (runManifest s q seq (isOp 0x03)
      (fun p b => listRegionOk s (mB b 8 8) && allotted s p (mB b 8 8) 64 false)
      (fun p b =>
        let k := mB b 4 1
        lowestStatus [if bitOf (grantOf s p).consists k then .ok else .denied,
          if mB b 8 8 % 64 ≠ 0 then .malformed else .ok,
          if rangeLost s (mB b 8 8) 64 then .ok else nounStatus s p (mB b 5 2) image (loopIndices (con s k))])
      (fun _ b =>
        if rangeLost s (mB b 8 8) 64 then (s, one .poisoned) else (putNoun s (mB b 4 1) (mB b 5 2) image, one .ok)))

/-- MANIFEST_SLOT_WRITE (R154). -/
def execManifestSlotWrite (q seq : Nat) (s : State) : Host.Outcome State Fault Refusal :=
  guardWf (rowOk q seq)
    (runManifest s q seq (isOp 0x04) noReach
      (fun p b => lowestStatus [if bitOf (grantOf s p).consists (mB b 4 1) then .ok else .denied, if 63 < mB b 5 1 then .malformed else .ok])
      (fun _ b => (modCon s (mB b 4 1) fun c => { c with slots := tset 0 c.slots (mB b 5 1) (mB b 8 4) }, one .ok)))

/-- SEM_DECLARE (R184). -/
def execSemDeclare (q seq : Nat) (s : State) : Host.Outcome State Fault Refusal :=
  guardWf (rowOk q seq)
    (let d (b : List Byte) : SemDecl := ⟨mB b 4 2, mB b 6 1, mB b 7 1, mB b 8 4⟩
     runManifest s q seq (isOp 0x05) noReach
      (fun p b => lowestStatus [if (semGet s (mB b 4 2)).part = p then .ok else .denied, if declOk (d b) then .ok else .malformed])
      (fun _ b => (declare s (d b), one .ok)))

/-- MANIFEST_SEM_RESET (Table 6 of 06). -/
def execManifestSemReset (q seq : Nat) (s : State) : Host.Outcome State Fault Refusal :=
  guardWf (rowOk q seq)
    (runManifest s q seq (isOp 0x06) noReach
      (fun p b => if (semGet s (mB b 4 2)).part = p then .ok else .denied)
      (fun _ b => (semReset s (mB b 4 2) ((semGet s (mB b 4 2)).clear (mB b 8 4)), one .ok)))

/-! ### Copies and the depot (Table 8 of 14, R252 to R258) -/

/-- Device bytes that the Brynq link reaches (Table 2 of 07), in the partition and in domains that serve them (R496). -/
def linkReach (s : State) (p a n : Nat) (write : Bool) : Bool :=
  (match region s a with
    | .near => true
    | .far => true
    | .staging _ _ => true
    | .scratch _ _ => true
    | _ => false) && allotted s p a n write && (touch s a n).2

/-- A read of device bytes through the link: the bytes and the ranges of them that are poisoned. -/
def devRead (s : State) (a len : Nat) (e : Ecc) (p : Nat) : State × List Byte × List (Nat × Nat) :=
  let s := (touch s a len).1
  let (s, lost) := eccRead s a len e (some p)
  (s, memRead s.mem a len, lineRanges a len fun l => lost.contains l || badAt s.mem (l * 64) || farLost s (l * 64))

/-- A write of device bytes for a partition; locked ranges refuse it (R281). -/
def devWrite (s : State) (p a : Nat) (bs : List Byte) (bads : List (Nat × Nat)) : State × Status :=
  let (s, st) := writeAllowed s p a bs.length
  if st ≠ .ok then (s, st) else copyBytes (touch s a bs.length).1 a bs bads (some p)

/-- Ranges of the parts of a copy: offset and length. -/
def copyParts (len : Nat) : List (Nat × Nat) :=
  let n := min 64 (ceilDiv len 0x10_0000)
  let size := ceilDiv (ceilDiv len (max n 1)) 4096 * 4096
  (List.range n).map fun i => (i * size, min size (len - i * size))

/-- Whether host bytes lie in a queue's data range. -/
def hostRange (v : HQueue) (a n : Nat) : Bool := v.dataBase ≤ a && a + n ≤ v.dataBase + v.dataLength

/-- One part of a copy. `data` are the host's bytes of the whole range. -/
def copyPart (p dir src dst : Nat) (data : List Byte) (e : Ecc) (r : Nat × Nat) (s : State) : State × Status :=
  match dir with
  | 0 => devWrite s p (dst + r.1) (fit r.2 (data.drop r.1)) []
  | 1 =>
    let (s, bs, bad) := devRead s (src + r.1) r.2 e p
    if bad = [] then (hostPost s ⟨dst + r.1, bs, none⟩, .ok)
    else
      let n := s.free
      (hostPost { s with free := n + r.2 } ⟨dst + r.1, (List.range r.2).map fun i => Config.freeByte (n + i), none⟩, .poisoned)
  | _ =>
    let (s, bs, bad) := devRead s (src + r.1) r.2 e p
    devWrite s p (dst + r.1) bs bad

/-- Whether a copy may reach the device ranges that it names. -/
def copyReach (s : State) (p : Nat) (b : List Byte) : Bool :=
  let (src, dst, len) := (mB b 4 8, mB b 12 8, mB b 20 4)
  match mB b 24 1 with
  | 0 => linkReach s p dst len true
  | 1 => linkReach s p src len false
  | 2 => linkReach s p src len false && linkReach s p dst len true
  | _ => true

/-- The other checks of a copy of a queue: its direction and its host range. -/
def copyCheck (v : HQueue) (b : List Byte) : Status :=
  let (src, dst, len, dir) := (mB b 4 8, mB b 12 8, mB b 20 4, mB b 24 1)
  if 2 < dir then .malformed
  else if (dir = 0 && !hostRange v src len) || (dir = 1 && !hostRange v dst len) then .denied else .ok

/-- MANIFEST_COPY: `data` are the host bytes that a copy from the host reads. -/
def execManifestCopy (q seq : Nat) (data : List Byte) (ecc : Ecc) (s : State) : Host.Outcome State Fault Refusal :=
  guardWf (rowOk q seq)
    (runManifest s q seq (isOp 0x07) (copyReach s) (fun _ => copyCheck (queue s q))
      (fun p b =>
        let x := (copyParts (mB b 20 4)).foldl (fun (x : State × List Status) r =>
          let (s, st) := copyPart p (mB b 24 1) (mB b 4 8) (mB b 12 8) data ecc r x.1
          (s, x.2 ++ [st])) (s, [])
        (x.1, some (x.2.zipIdx.map fun y => (y.2, y.1)))))

/-- Runs of blocks of the parts of a depot manifest: first block and count. -/
def depotParts (first count : Nat) : List (Nat × Nat) :=
  let n := min 64 count
  let w := ceilDiv count (max n 1)
  (List.range n).map fun i => (first + i * w, min w (count - i * w))

/-- Whether the device range of a depot manifest is the partition's (R250). -/
def depotReach (s : State) (write : Bool) (p : Nat) (b : List Byte) : Bool :=
  allotted s p (mB b 12 8) (mB b 8 4 * 65536) write && (touch s (mB b 12 8) (mB b 8 4 * 65536)).2

/-- The other checks of a depot manifest: its blocks, and the device end in the near tier, the far tier or a staging buffer (R252). -/
def depotCheck (s : State) (p : Nat) (b : List Byte) : Status :=
  let (first, count, a) := (mB b 4 4, mB b 8 4, mB b 12 8)
  lowestStatus [if !depotAllowed s p first (count * 65536) || !(touchDepot s).2 then .denied else .ok,
    if s.boot.depotOffline then .notReady else .ok,
    match region s a with
    | .near => .ok
    | .far => .ok
    | .staging _ _ => .ok
    | _ => .malformed]

/-- DEPOT_READ. -/
def execDepotRead (q seq : Nat) (ecc : Ecc) (s : State) : Host.Outcome State Fault Refusal :=
  guardWf (rowOk q seq)
    (runManifest s q seq (isOp 0x08) (depotReach s true) (depotCheck s)
      (fun p b =>
        let first := mB b 4 4
        let s := (touchDepot s).1
        let x := (depotParts first (mB b 8 4)).foldl (fun (x : State × List Status) r =>
          let (s, bs, bad) := depotReadBytes x.1 r.1 (r.2 * 65536) ecc (some p)
          let (s, st) := devWrite s p (mB b 12 8 + (r.1 - first) * 65536) bs (bad.map fun y => ((y - r.1) * 65536, 65536))
          (s, x.2 ++ [st])) (s, [])
        (x.1, some (x.2.zipIdx.map fun y => (y.2, y.1)))))

/-- One block of a depot write, whose bytes stand at `a`. -/
def depotWriteBlock (p a block : Nat) (ecc : Ecc) (s : State) : State × Status :=
  if !allotted s p a 65536 false ∨ !depotAllowed s p block 65536 then (countDenied s (some p), .denied)
  else
    let (s, bs, bad) := devRead s a 65536 ecc p
    let (s, st) := depotWriteBytes s block bs bad Ecc.clean (some p)
    (s, if st ≠ .ok then st else if bad ≠ [] then .poisoned else .ok)

/-- Writes the blocks of a depot manifest that have not been written. One whose channel lacks erased blocks waits, and counts once
(R258); a read-only depot makes none wait (R263). -/
def depotWriteBlocks (p first count a : Nat) (ecc : Ecc) (x : Started) (s : State) : State × Started :=
  (List.range count).foldl (fun (y : State × Started) i =>
    let (s, x) := y
    if x.blocks.any fun d => d.1 = first + i then y
    else if channelLow s (depotChannel (first + i)) ∧ odN s kDepotReadOnly = 0 then
      if x.held.contains (first + i) then y else (bump s kDepotWriteWaits 1 (some p), { x with held := x.held ++ [first + i] })
    else
      let (s, st) := depotWriteBlock p (a + i * 65536) (first + i) ecc s
      (s, { x with blocks := x.blocks ++ [(first + i, st)] })) (s, x)

/-- The status of a part of a depot write: that of its lowest-numbered block that failed. -/
def blocksStatus (x : Started) (r : Nat × Nat) : Status :=
  firstBad ((List.range r.2).map fun i => match x.blocks.find? fun d => d.1 = r.1 + i with
    | some d => d.2
    | none => .ok)

/-- DEPOT_WRITE: as many blocks as their channels have room for (R258). -/
def execDepotWrite (q seq : Nat) (ecc : Ecc) (s : State) : Host.Outcome State Fault Refusal :=
  guardWf (rowOk q seq)
    (runManifest s q seq (isOp 0x09) (depotReach s false) (depotCheck s)
      (fun p b =>
        let (first, count) := (mB b 4 4, mB b 8 4)
        match (queue s q).started.find? fun x => x.seq = seq with
        | none => (s, none)
        | some x =>
          let (s, x) := depotWriteBlocks p first count (mB b 12 8) ecc x (touchDepot s).1
          (modStarted s q seq fun y => { y with blocks := x.blocks, held := x.held },
            if x.blocks.length < count then none
            else some ((depotParts first count).zipIdx.map fun r => (r.2, blocksStatus x r.1)))))

/-- RULE_LOAD (R288): `rule` is the image that stands at the manifest's address. -/
def execRuleLoad (q seq : Nat) (rule : RuleImage) (s : State) : Host.Outcome State Fault Refusal :=
  guardWf (rowOk q seq)
    (runManifest s q seq (isOp 0x0A) (fun p b => linkReach s p (mB b 8 8) (mB b 16 4) false)
      (fun _ b => lowestStatus [if mB b 4 1 < 3 || 7 < mB b 4 1 || !builtFor s rule.part rule.oviMajor || 128 < rule.code.length then .malformed else .ok])
      (fun p b =>
        if rangeLost s (mB b 8 8) (mB b 16 4) then (s, one .poisoned)
        else
          let s := modStep (noteImage s q seq (mB b 8 8) (mB b 16 4)) p fun x => { x with rules := tins (tdel x.rules (mB b 4 1)) (mB b 4 1) rule.code }
          (odSet s (kRuleSlotsLoaded p) (bitSet (odN s (kRuleSlotsLoaded p)) (mB b 4 1)), one .ok)))

/-- LAYER_WRITE (R276). -/
def execLayerWrite (q seq : Nat) (s : State) : Host.Outcome State Fault Refusal :=
  guardWf (rowOk q seq)
    (let entry (p : Nat) (b : List Byte) : State × Status := layerWrite s p (mB b 4 2) (memRead s.mem (mB b 8 8) 32)
     runManifest s q seq (isOp 0x0B) (fun p b => linkReach s p (mB b 8 8) 32 false)
      (fun p b => if rangeLost s (mB b 8 8) 32 then .ok else (entry p b).2)
      (fun p b => if rangeLost s (mB b 8 8) 32 then (s, one .poisoned) else ((entry p b).1, one .ok)))

/-! ### Completion (R399, R401, R431) -/

/-- Extends a partition's image digest with the bytes of an image that was loaded (R429, R431). -/
def extendImage (s : State) (p : Nat) (x : Started) : State :=
  if (mOp x.bytes = 0x01 ∨ mOp x.bytes = 0x0A) ∧ (x.status = .ok ∨ x.status = .partly) then
    odPut s (kImageDigest p) (.octets (shake256 (odB s (kImageDigest p) ++ x.digest) 64))
  else s

/-- A queue that drains is disabled once nothing is left of it (R392). -/
def drained (s : State) (q : Nat) : State :=
  let v := queue s q
  if v.state = 4 ∧ v.started = [] ∧ v.waiting = [] ∧ v.retained = [] then setQueue s q { v with state := 0 } else s

/-- Whether the host writes of part i of a copy to the host have not been acknowledged. -/
def partUnacked (s : State) (b : List Byte) (i : Nat) : Bool :=
  mOp b = 0x07 && mB b 24 1 = 1 && s.link.unacked.any fun w => w.done = none && w.addr = mB b 12 8 + (lget (0, 0) (copyParts (mB b 20 4)) i).1

/-- MANIFEST_COMPLETE: the token, the vote, then the record, once every host write of the manifest is visible (R401). -/
def execManifestComplete (q seq : Nat) (s : State) : Host.Outcome State Fault Refusal :=
  guardWf (rowOk q seq)
    (let v := queue s q
     match v.started.find? fun x => x.seq = seq && x.parts ≠ none && !(x.parts.getD []).any fun y => partUnacked s x.bytes y.1 with
     | none => s
     | some x =>
       let parts := x.parts.getD []
       let p := v.part
       let s := setQueue s q { v with started := v.started.filter fun y => y.seq ≠ seq }
       -- a refused manifest acts on nothing: it has no parts and an error
       let s := if mPost x.bytes ∧ (parts ≠ [] ∨ x.status = .ok) then castOwed (enginePost s (mPostSem x.bytes) (stCode x.status) 0xE0 (some p)).1 else s
       let s := if x.status = .partly ∨ x.status = .poisoned then castVote s p (stCode x.status) else s
       let s := extendImage s p x
       let result := (parts.filter fun y => partFine y.2).foldl (fun r y => bitSet r y.1) 0
       let c : Completion := ⟨stCode x.status, mOp x.bytes, seq, mB x.bytes 52 4, parts.length, result, mIrq x.bytes⟩
       drained (deliver s q c true) q)

end Sys2Proof.Machine
end

