-- ==== Sys2Proof/Machine/Host.lean ====
section
/-! DEFINITION. The Brynq link and the host region (R385 to R393), host queues (R392 to R394, R402), host loss, hold, adoption and
run-through (R405 to R413, R530, R531, R533). -/

namespace Sys2Proof.Machine

/-! ### Queue descriptors and doorbells -/

/-- The 64 bytes of a queue descriptor (Table 4 of 14); its reserved fields read zero, whatever was written to them (R8). -/
def descBytes (v : HQueue) : List Byte :=
  leBytes 64 (v.sqBase * 2 ^ 448 + v.cqBase * 2 ^ 384 + v.dataBase * 2 ^ 320 + v.dataLength * 2 ^ 256 + v.irqAddr * 2 ^ 192 +
    v.irqData * 2 ^ 160 + v.seqNext * 2 ^ 128 + v.sqOrder * 2 ^ 120 + v.cqOrder * 2 ^ 112 + v.part * 2 ^ 104 +
    (if v.events then 2 ^ 96 else 0) + (if v.enable then 1 else 0))

/-- A queue with the fields of a descriptor other than `enable`. -/
def withDesc (v : HQueue) (bs : List Byte) : HQueue :=
  let n := leNat bs
  { v with sqBase := bits n 448 64, cqBase := bits n 384 64, dataBase := bits n 320 64, dataLength := bits n 256 64
           irqAddr := bits n 192 64, irqData := bits n 160 32, seqNext := bits n 128 32, sqOrder := bits n 120 8
           cqOrder := bits n 112 8, part := bits n 104 8, reserved := bits n 97 7 + bits n 1 95 * 2 ^ 7, events := bits n 96 1 = 1 }

/-- The first 32 bytes of a doorbell page (Table 5 of 14). -/
def doorbellBytes (v : HQueue) : List Byte :=
  leBytes 32 (v.lastError * 2 ^ 136 + v.state * 2 ^ 128 + v.cqWritten * 2 ^ 96 + v.seqExpected * 2 ^ 64 + v.cqHead * 2 ^ 32 + v.sqTail)

/-- Bytes with some of them replaced from an offset on. -/
def patch (b : List Byte) (off : Nat) (bs : List Byte) : List Byte := b.take off ++ bs ++ b.drop (off + bs.length)

/-- Counts the queues that run (Table 12 of 14). -/
def countQueues (s : State) : State :=
  odSet s kHostQueuesEnabled (s.queues.filter fun x => x.2.enable ∧ x.2.state ≠ 3).length

/-- A write of `sq_tail`: a tail too far ahead stops the queue (R394). Dropped in hold (R408). -/
def sqTail (s : State) (q v : Nat) : State :=
  if holding s then s
  else
    let x := queue s q
    let s := setQueue s q { x with sqTail := v }
    if x.state = 1 ∧ 2 ^ x.sqOrder < (v + 2 ^ 32 - x.seqExpected) % 2 ^ 32 then queueStop s q .malformed else s

/-- A write of `cq_head` (R394, R402). -/
def cqHead (s : State) (q v : Nat) : State :=
  if holding s then s
  else
    let x := queue s q
    if 2 ^ x.cqOrder < (x.cqWritten + 2 ^ 32 - v) % 2 ^ 32 then bump s kDoorbellErrors 1 none
    else drained (flushWaiting (setQueue s q { x with cqHead := v }) q) q

/-- DOORBELL_SQ_TAIL. -/
def execDoorbellSqTail (q v : Nat) (s : State) : Host.Outcome State Fault Refusal :=
  guardWf (decide (q < 256 ∧ v < 2 ^ 32)) (sqTail s q v)
/-- DOORBELL_CQ_HEAD. -/
def execDoorbellCqHead (q v : Nat) (s : State) : Host.Outcome State Fault Refusal :=
  guardWf (decide (q < 256 ∧ v < 2 ^ 32)) (cqHead s q v)

/-- Whether a partition is assigned (R416). -/
def assigned (s : State) (p : Nat) : Bool := p < 40 && (part s p).grant ≠ none

/-- Writing `enable` 1 (R392, R410; never in a start-up without a host, R477): the checks, then the queue runs, and its retained
completions come first. DESIGN CHOICE: a queue that still drains is not enabled. -/
def enableQueue (s : State) (q : Nat) : State :=
  let v := queue s q
  if holding s ∨ s.boot.noHost ∨ (v.enable ∧ v.state ≠ 3) ∨ v.state = 4 then s
  else
    let bad := v.sqBase % 4096 ≠ 0 || v.cqBase % 4096 ≠ 0 || v.sqOrder < 6 || 16 < v.sqOrder || v.cqOrder < 6 || 16 < v.cqOrder || v.reserved ≠ 0
    let st := lowestStatus [if bad then .malformed else .ok, if assigned s v.part then .ok else .denied]
    if st ≠ .ok then countQueues (setQueue s q { v with enable := false, lastError := stCode st })
    else
      let s := setQueue s q { v with enable := true, state := 1, cqWritten := 0, seqExpected := v.seqNext, sqTail := v.seqNext, cqHead := 0,
                                     retry := none, lastError := 0 }
      countQueues (flushWaiting s q)

/-- Writing `enable` 0 (R392): the queue drains. -/
def disableQueue (s : State) (q : Nat) : State :=
  let v := queue s q
  if holding s ∨ !v.enable then s
  else if v.state = 3 then countQueues (setQueue s q { v with enable := false })
  else countQueues (drained (setQueue s q { v with enable := false, state := 4, retry := none }) q)

/-- QUEUE_ENABLE. -/
def execQueueEnable (q : Nat) (s : State) : Host.Outcome State Fault Refusal := guardWf (decide (q < 256)) (enableQueue s q)
/-- QUEUE_DISABLE. -/
def execQueueDisable (q : Nat) (s : State) : Host.Outcome State Fault Refusal := guardWf (decide (q < 256)) (disableQueue s q)

/-- The descriptor's bytes as they were written, reserved fields and all. -/
def descRaw (v : HQueue) : List Byte :=
  leBytes 64 (leNat (descBytes v) + v.reserved % 2 ^ 7 * 2 ^ 97 + v.reserved / 2 ^ 7 * 2)

/-- A write of descriptor bytes other than `enable`: dropped and counted while `enable` is 1 (R392); an orphaned queue takes a
new descriptor (R410). -/
def descWrite (s : State) (q off : Nat) (bs : List Byte) : State :=
  let v := queue s q
  if holding s then s
  else if v.enable ∧ v.state ≠ 3 then bump s kDoorbellErrors 1 none
  else setQueue s q (withDesc v (patch (descRaw v) off bs))

/-- QUEUE_DESCRIPTOR_WRITE. -/
def execQueueDescriptorWrite (q off : Nat) (bytes : List Byte) (s : State) : Host.Outcome State Fault Refusal :=
  guardWf (decide (q < 256 ∧ off + bytes.length ≤ 64)) (descWrite s q off bytes)

/-! ### Apertures (R391) -/

def aperture (s : State) (a : Nat) : Aperture := tget Aperture.reset s.apertures a

/-- The 32 bytes of an aperture descriptor (Table 3 of 14). -/
def apertureBytes (x : Aperture) : List Byte :=
  leBytes 32 (x.base * 2 ^ 208 + x.pages * 2 ^ 176 + x.part * 2 ^ 168 + (if x.read then 2 ^ 167 else 0) + (if x.write then 2 ^ 166 else 0) +
    (if x.enable then 2 ^ 165 else 0))

/-- A descriptor as it reads back. -/
def parseAperture (s : State) (bs : List Byte) : Aperture :=
  let n := leNat bs
  let x : Aperture := { base := bits n 208 48, pages := bits n 176 32, part := bits n 168 8, read := bits n 167 1 = 1
                        write := bits n 166 1 = 1, enable := bits n 165 1 = 1 }
  { x with enable := x.enable && bits n 0 165 = 0 && 1 ≤ x.pages && x.pages ≤ 2_097_152 && assigned s x.part }

def apertureWrite (s : State) (a : Nat) (bs : List Byte) : State :=
  { s with apertures := tset Aperture.reset s.apertures a (parseAperture s bs) }

/-- APERTURE_DESCRIPTOR_WRITE. -/
def execApertureDescriptorWrite (a : Nat) (bytes : List Byte) (s : State) : Host.Outcome State Fault Refusal :=
  guardWf (decide (1 ≤ a ∧ a < 32 ∧ bytes.length = 32)) (if holding s then bump s kApertureRefused 1 none else apertureWrite s a bytes)

/-! ### The host region (R389, Table 1 of 14) -/

inductive HostPlace
  | linkPage (x : Nat) | apertureTable (x : Nat) | queueTable (x : Nat) | doorbell (q x : Nat) | mailbox (x : Nat) | semaphores (x : Nat)
  | window (a x : Nat) | reserved
  deriving DecidableEq, Repr

/-- Where an offset of the region falls; mailboxes 42 to 63 are reserved (R457). -/
def hostPlace (off : Nat) : HostPlace :=
  if off < 0x1000 then .linkPage off
  else if off < 0x2000 then (if off < 0x1020 then .reserved else if off < 0x1400 then .apertureTable (off - 0x1000) else .reserved)
  else if 0x1_0000 ≤ off ∧ off < 0x1_4000 then .queueTable (off - 0x1_0000)
  else if 0x10_0000 ≤ off ∧ off < 0x20_0000 then .doorbell ((off - 0x10_0000) / 0x1000) (off % 0x1000)
  else if 0x20_0000 ≤ off ∧ off < 0x20_0000 + 42 * 0x4000 then .mailbox (off - 0x20_0000)
  else if 0x100_0000 ≤ off ∧ off < 0x140_0000 then .semaphores (off - 0x100_0000)
  else if 0x2_0000_0000 ≤ off ∧ off < 32 * 0x2_0000_0000 then .window (off / 0x2_0000_0000) (off % 0x2_0000_0000)
  else .reserved

/-- Bytes of the link page (Table 2 of 14); a write-only field reads 0. -/
def linkPage (s : State) : List Byte :=
  let l := s.link
  zeros 37 ++ leBytes 1 (odN s kBrynqLinksUp) ++ leBytes 1 l.lossCause ++ leBytes 1 (odN s kHoldState) ++ leBytes 1 l.adoptStatus ++ zeros 1 ++
  leBytes 6 l.holdEntryTick ++ leBytes 8 l.holdEpoch ++ fit 32 l.holdDigest ++ zeros 40

/-- Answers host data. -/
def hostData (s : State) (bs : List Byte) (poison : Bool) : State := emit s (.hostData bs poison)

/-- Bytes that a refused read returns (R389). -/
def allOnes (n : Nat) : List Byte := List.replicate n 0xFF

/-- A refused host read or write (R389). -/
def hostRefused (s : State) (len : Nat) (write : Bool) : State :=
  let s := bump s kApertureRefused 1 none
  if write then s else hostData s (allOnes len) false

/-- What a part of a host read answers: its bytes, whether the response carries the poison indication, whether it is refused. -/
def refusedRead (s : State) (len : Nat) : State × List Byte × Bool × Bool := (s, allOnes len, false, true)

/-- A host read through an aperture (R391): poisoned lines read 0xFF. -/
def windowRead (s : State) (a x len : Nat) (e : Ecc) : State × List Byte × Bool × Bool :=
  let d := aperture s a
  let ad := d.base + x
  if holding s ∨ !d.enable ∨ d.pages * 4096 < x + len ∨ !d.read then refusedRead s len
  else if !linkReach s d.part ad len false then refusedRead (countDenied s (some d.part)) len
  else
    let (s, bs, bad) := devRead s ad len e d.part
    let badLines := (linesOf ad len).filter fun l => bad.any fun b => overlaps (l * 64) 64 (ad + b.1) b.2
    let out := bs.zipIdx.map fun y => if badLines.contains (lineOf (ad + y.2)) then 0xFF else y.1
    (bump s kAperturePoisonReads badLines.length none, out, badLines ≠ [], false)

/-- A host write through an aperture, and whether it is refused; a locked range takes none (R281). -/
def windowWrite (s : State) (a x : Nat) (bs : List Byte) : State × Bool :=
  let d := aperture s a
  let ad := d.base + x
  if holding s ∨ !d.enable ∨ d.pages * 4096 < x + bs.length ∨ !d.write then (s, true)
  else if !linkReach s d.part ad bs.length true then (countDenied s (some d.part), true)
  else ((devWrite s d.part ad bs []).1, false)

/-- A slice of bytes; what lies past them reads 0. -/
def slice (b : List Byte) (x len : Nat) : List Byte := fit len (b.drop x)

/-- A host transaction reaches the Brynq domain (R496). -/
def brynqTouch (s : State) : State := (touchDomain s 0x70).1

/-- The recovery page (Table 8 of 17). -/
def recoveryPage (s : State) : List Byte :=
  leBytes 32 (s.boot.recoveryLength * 2 ^ 64 + odN s kFwMinSecurityVersion * 2 ^ 32 + s.boot.recoveryStatus * 2 ^ 16 + s.boot.recoveryState * 2 ^ 8)

/-- A host access in ROM recovery (R487): the recovery page and the write-only buffer. -/
def recoveryRead (s : State) (off len : Nat) : State :=
  if off + len ≤ 32 then hostData s (slice (recoveryPage s) off len) false else hostRefused s len false
def recoveryWrite (s : State) (off : Nat) (bs : List Byte) : State :=
  if off = 8 ∧ bs.length = 4 then { s with boot := { s.boot with recoveryLength := leNat bs } }
  else if 0x2_0000_0000 ≤ off ∧ off + bs.length ≤ 0x2_0000_0000 + 2 ^ 26 then
    let buf := bs.zipIdx.foldl (fun m y => tset 0 m (off - 0x2_0000_0000 + y.2) y.1) s.boot.recBuf
    { s with boot := { s.boot with recBuf := buf } }
  else hostRefused s bs.length true

/-- The first offset after one at which another row, descriptor, page or window begins. -/
def placeEnd (off : Nat) : Nat :=
  let up (u : Nat) : Nat := (off / u + 1) * u
  if off < 0x1000 then 0x1000
  else if off < 0x1400 then up 32
  else if off < 0x1_0000 then 0x1_0000
  else if off < 0x1_4000 then up 64
  else if off < 0x10_0000 then 0x10_0000
  else if off < 0x20_0000 then up 0x1000
  else if off < 0x20_0000 + 42 * 0x4000 then up 0x4000
  else if off < 0x100_0000 then 0x100_0000
  else if off < 0x140_0000 then 0x140_0000
  else up 0x2_0000_0000

/-- The parts of an access, each of which falls in one place: offset and length. `n` bounds their number. -/
def hostParts : Nat → Nat → Nat → List (Nat × Nat)
  | 0, _, _ => []
  | n + 1, off, len =>
    if len = 0 then []
    else
      let l := min len (placeEnd off - off)
      (off, l) :: hostParts n (off + l) (len - l)

/-- One part of a host read. In hold the link page, the queue descriptors, the doorbell pages and the mailboxes may be read (R408). -/
def hostPartRead (off len : Nat) (e : Ecc) (s : State) : State × List Byte × Bool × Bool :=
  let got (b : List Byte) (x : Nat) : State × List Byte × Bool × Bool := (s, slice b x len, false, false)
  match hostPlace off with
  | .linkPage x => got (linkPage s) x
  | .apertureTable x => if holding s then refusedRead s len else got (apertureBytes (aperture s (x / 32))) (x % 32)
  | .queueTable x => got (descBytes (queue s (x / 64))) (x % 64)
  | .doorbell q x => got (doorbellBytes (queue s q)) x
  | .mailbox x => (s, (List.range len).map fun i => tget 0 s.link.mail (x + i), false, false)
  | .semaphores x => if holding s then refusedRead s len else (s, viewBytes s (semBase + x) len, false, false)
  | .window a x => windowRead s a x len e
  | .reserved => refusedRead s len

/-- HOST_APERTURE_READ: a host read anywhere in the region; a part that no row serves reads 0xFF, and the access counts once (R389). -/
def execHostApertureRead (off len : Nat) (ecc : Ecc) (s : State) : Host.Outcome State Fault Refusal :=
  guardWf (decide (len ≤ 4096 ∧ off + len ≤ 2 ^ 38))
    (let s := brynqTouch s
     if s.boot.inRecovery then recoveryRead s off len
     else
       let (s, bs, bad, refused) := (hostParts 256 off len).foldl (fun (x : State × List Byte × Bool × Bool) r =>
         let (s, bs, bad, refused) := hostPartRead r.1 r.2 ecc x.1
         (s, x.2.1 ++ bs, x.2.2.1 || bad, x.2.2.2 || refused)) (s, [], false, false)
       hostData (bump s kApertureRefused (if refused then 1 else 0) none) bs bad)

/-- A write into the link page: `adopt_epoch` and `adopt_digest` take it, at bytes 88 to 127 (Table 2 of 14). -/
def linkWrite (s : State) (x : Nat) (bs : List Byte) : State :=
  let old := leBytes 8 s.link.adoptEpoch ++ fit 32 s.link.adoptDigest
  let b := old.zipIdx.map fun y => if x ≤ 88 + y.2 ∧ 88 + y.2 < x + bs.length then lget 0 bs (88 + y.2 - x) else y.1
  { s with link := { s.link with adoptEpoch := leNat (b.take 8), adoptDigest := b.drop 8 } }

/-- A write into queue q's descriptor from byte o: its fields, then `enable` where byte 0 is written (R392). -/
def queueWrite (s : State) (q o : Nat) (bs : List Byte) : State :=
  let b0 := lget 0 bs 0
  let only := decide (o = 0 ∧ bs.length = 1) && (queue s q).enable && decide (b0.toNat < 2)
  let s := if only then s else descWrite s q o bs
  if o ≠ 0 ∨ bs = [] then s else if bitOf b0.toNat 0 then enableQueue s q else disableQueue s q

/-- One part of a host write, and whether it is refused; `whole` says that it is the whole access. `adopt_command` is written by commands
of its own. -/
def hostPartWrite (off : Nat) (bs : List Byte) (whole : Bool) (s : State) : State × Bool :=
  match hostPlace off with
  | .linkPage x => (linkWrite s x bs, false)
  | .apertureTable x =>
    if holding s then (s, true)
    else (apertureWrite s (x / 32) (fit 32 (patch (apertureBytes (aperture s (x / 32))) (x % 32) bs)), false)
  | .queueTable x => (queueWrite s (x / 64) (x % 64) bs, false)
  | .doorbell q x =>
    (if holding s then s
    else if whole ∧ bs.length = 4 ∧ x = 0 then sqTail s q (leNat bs)
    else if whole ∧ bs.length = 4 ∧ x = 4 then cqHead s q (leNat bs)
    else bump s kDoorbellErrors 1 none, false)
  | .mailbox x =>
    -- the request buffer and its length (R457)
    let take (y : Byte × Nat) : Bool := (x + y.2) % 0x4000 < 0x2000 || (0x3FF0 ≤ (x + y.2) % 0x4000 && (x + y.2) % 0x4000 < 0x3FF4)
    ({ s with link := { s.link with mail := ((bs.zipIdx.filter take).foldl (fun m y => tset 0 m (x + y.2) y.1) s.link.mail) } }, false)
  | .semaphores _ => (s, true)
  | .window a x => windowWrite s a x bs
  | .reserved => (s, true)

/-- HOST_APERTURE_WRITE: a host write anywhere in the region; a part that no row takes is dropped, and the access counts once (R389). -/
def execHostApertureWrite (off : Nat) (bytes : List Byte) (s : State) : Host.Outcome State Fault Refusal :=
  guardWf (decide (bytes.length ≤ 4096 ∧ off + bytes.length ≤ 2 ^ 38))
    (let s := brynqTouch s
     if s.boot.inRecovery then recoveryWrite s off bytes
     else
       let (s, refused) := (hostParts 256 off bytes.length).foldl (fun (x : State × Bool) r =>
         let (s, refused) := hostPartWrite r.1 ((bytes.drop (r.1 - off)).take r.2) (decide (r.2 = bytes.length)) x.1
         (s, x.2 || refused)) (s, false)
       bump s kApertureRefused (if refused then 1 else 0) none)

/-- HOST_RESERVED_ACCESS (R389): an offset in no row, or in a reserved one. -/
def execHostReservedAccess (off len : Nat) (write : Bool) (s : State) : Host.Outcome State Fault Refusal :=
  guardWf (decide (len ≤ 4096 ∧ off < 2 ^ 38)) (if hostPlace off = .reserved then hostRefused s len write else s)

/-! ### Host loss (R405 to R407, Table 10 of 14) -/

/-- Whether a manifest has a host endpoint. -/
def touchesHost (b : List Byte) : Bool := mOp b = 0x07 && mB b 24 1 < 2

/-- The destination lines of a copy from the host whose bytes have not come are poisoned (R399, R405). -/
def loseCopy (s : State) (p : Nat) (b : List Byte) : State :=
  if mB b 24 1 ≠ 0 then s
  else (copyParts (mB b 20 4)).foldl (fun s r =>
    let a := mB b 12 8 + r.1
    if r.2 = 0 then s
    else
      let (s, st) := writeAllowed s p a r.2
      if st = .ok then (storePoison (touch s a r.2).1 a r.2 (some p)).1 else s) s

/-- A manifest with a host endpoint that is not complete ends at once (Table 10 of 14): parts without every host transfer done end
host_lost, or it carries the refusal of its checks. -/
def loseManifest (s : State) (q : Nat) (x : Started) : State :=
  if !touchesHost x.bytes then s
  else match x.parts with
  | some l =>
    let l := l.map fun y => (y.1, if partUnacked s x.bytes y.1 then .hostLost else y.2)
    if l = [] then s else manifestParts s q x.seq l (tokenStatus (l.map (·.2)))
  | none =>
    let v := queue s q
    let inside := copyReach s v.part x.bytes
    let st := lowestStatus [commonCheck s v.part x.bytes, if inside then .ok else .denied, copyCheck v x.bytes]
    if st ≠ .ok then manifestParts (noteRefusal (if inside then s else countDenied s (some v.part)) q st) q x.seq [] st
    else manifestParts (loseCopy s v.part x.bytes) q x.seq
      ((copyParts (mB x.bytes 20 4)).zipIdx.map fun y => (y.2, .hostLost)) .hostLost

/-- One queue that is not disabled becomes orphaned, one that drains too: copies that have not run end, completions that waited or had not
become visible are retained. -/
def orphan (s : State) (q : Nat) : State :=
  let v := queue s q
  if v.state = 0 ∨ v.state = 3 then s
  else
    let s := v.started.foldl (fun s x => loseManifest s q x) s
    let unseen := s.link.unacked.filterMap fun w => match w.done with
      | some (i, c) => if i = q then some c else none
      | none => none
    retain (setQueue s q { queue s q with state := 3, retry := none, waiting := [] }) q (unseen ++ v.waiting)

/-- Every queue is orphaned, and the host writes that no acknowledgement has reached are dropped (R405, Table 10 of 14). -/
def orphanAll (s : State) : State :=
  let s := s.queues.foldl (fun s x => orphan s x.1) s
  countQueues { bump s kHostWritesDropped s.link.unacked.length none with link := { s.link with unacked := [] } }

/-- Hold begins (R406 step 1): a new epoch, and a no vote in every open step. -/
def beginHold (s : State) (cause : Nat) : State :=
  let s := { s with link := { s.link with holdEpoch := (s.link.holdEpoch + 1) % 2 ^ 64, lossCause := cause, holdEntryTick := tickNow s,
                                          quiesced := false, relost := false, recordGone := false } }
  s.parts.foldl (fun s x => castVote s x.1 0x09) (odSet (pauseApplies s) kHoldState 1)

/-- Host loss in service (R405, R406 step 1). -/
def enterLoss (s : State) (cause : Nat) : State :=
  let s := orphanAll (bump s kHostLosses 1 none)
  if odN s kHostLossMode = 1 then odSet { s with link := { s.link with lossCause := cause, holdEntryTick := tickNow s } } kHoldState 3
  else beginHold s cause

/-- Host loss by the module's state (R387, R531, R533): one while adopting waits for the adoption's end. -/
def hostLoss (s : State) (cause : Nat) : State :=
  if odN s kHoldState = 4 then
    if s.link.relost then s else bump { s with link := { s.link with relost := true, lossCause := cause } } kHostLosses 1 none
  else if odN s kHoldState ≠ 0 ∨ starting s then s
  else enterLoss s cause

/-! ### The links (R385 to R387, R533) -/

def linkErr (s : State) (l : Nat) : Option Nat := if l = 0 then s.link.error0 else s.link.error1
def setLinkErr (s : State) (l : Nat) (e : Option Nat) : State :=
  { s with link := if l = 0 then { s.link with error0 := e } else { s.link with error1 := e } }

/-- LINK_ERROR. -/
def execLinkError (l t : Nat) (s : State) : Host.Outcome State Fault Refusal :=
  guardWf (decide (l < 2))
    (let s := atTime s t
     if !bitOf (odN s kBrynqLinksUp) l then s
     else
       let s := odSet s kBrynqLinksUp (bitClr (odN s kBrynqLinksUp) l)
       bump (setLinkErr s l (some s.now)) kLinkRetrains 1 none)

/-- LINK_RETRAIN_DONE: the link is up again, unless the host reset or the Brynq domain holds the lanes idle, and what no acknowledgement
has reached is replayed (R386). -/
def execLinkRetrainDone (l t : Nat) (s : State) : Host.Outcome State Fault Refusal :=
  guardWf (decide (l < 2))
    (let s := atTime s t
     if s.link.resetLow ∨ domState s 0x70 ≠ 0 ∨ s.boot.noHost then s
     else
       let s := setLinkErr (odSet s kBrynqLinksUp (bitSet (odN s kBrynqLinksUp) l)) l none
       replay { s with link := { s.link with degraded := bitClr s.link.degraded l } })

/-- LINK_RETRY_EXPIRY: the retry window of a link that is down has ended (R386). -/
def execLinkRetryExpiry (t : Nat) (s : State) : Host.Outcome State Fault Refusal :=
  let s := atTime s t
  let w := odN s kBrynqRetryWindow * 1000
  let expired (l : Nat) : Bool := match linkErr s l with
    | some u => u + w ≤ s.now
    | none => false
  .next (if odN s kBrynqLinksUp = 0 then (if expired 0 || expired 1 then hostLoss s 1 else s)
    else [0, 1].foldl (fun s l =>
      if expired l && !bitOf s.link.degraded l then
        bump { s with link := { s.link with degraded := bitSet s.link.degraded l } } kLinkDegradedEvents 1 none
      else s) s)

/-- HOST_RST_ASSERT (R533): the lanes go idle; in service host loss at once, in ROM recovery the recovery restarts. -/
def execHostRstAssert (t : Nat) (s : State) : Host.Outcome State Fault Refusal :=
  let s := atTime s t
  let s := odSet s kBrynqLinksUp 0
  let s := { s with link := { s.link with resetLow := true, error0 := none, error1 := none, degraded := 0 } }
  .next (if s.boot.inRecovery then { s with boot := { s.boot with recoveryState := 0, recoveryStatus := 0, recoveryLength := 0, recBuf := [] } }
    else hostLoss s 2)

/-- HOST_RST_RELEASE (R533): BYPASS replaces EXTEST; the links then train. -/
def execHostRstRelease (t : Nat) (s : State) : Host.Outcome State Fault Refusal :=
  let s := atTime s t
  .next { s with link := { s.link with resetLow := false }, sec := { s.sec with tap := if s.sec.tap = 3 then 0 else s.sec.tap } }

/-! ### Hold and adoption (R406 to R410, R530, R531) -/

/-- HOLD_QUIESCE (R406 step 2): at the first boundary after host loss every sequencer stops broadcasting. -/
def execHoldQuiesce (s : State) : Host.Outcome State Fault Refusal :=
  .next (if odN s kHoldState ≠ 1 ∨ s.link.quiesced then s
    else
      let s := { s with link := { s.link with quiesced := true } }
      { s with consists := s.consists.map fun x =>
          (x.1, if x.2.pstate = .running ∧ x.2.hold = none then { x.2 with hold := some .boundary } else x.2) })

/-- Whether all that had been issued has ended (R406 step 2). DESIGN CHOICE (R379, R408): what waits for the network, for a decision or
for another verb does not end in hold, and is not waited for; nor is a verb that some cores have still to issue. -/
def drainedAll (s : State) : Bool :=
  s.consists.all (fun x => x.2.verbs.all fun e => !endsAlone x.1 e s) && s.pools.all (fun x => x.2.flight = [])

/-- The domains that hold puts into retention (R406 step 4): consists, HBM stacks, far-tier groups and the depot (R267). -/
def holdDomains : List Nat := List.range 40 ++ (List.range 24).map (· + 0x40) ++ [0x71]

/-- Moves those of them that are in one state to another. -/
def moveDomains (s : State) (src dst : Nat) : State :=
  holdDomains.foldl (fun s d => if odN s (kDomainState (d + 1)) = src ∧ (d < 40 → bitOf (odN s kConsistAvailableMap) d)
    then odSet s (kDomainState (d + 1)) dst else s) s

/-- A window descriptor as the table holds it (Table 8 of 13). -/
def windowBytes (n : Nat) (w : Window) : List Byte :=
  leBytes 32 (w.base * 2 ^ 208 + w.length * 2 ^ 168 + w.peers * 2 ^ 104 + w.notifySem * 2 ^ 88 + n * 2 ^ 80 + w.access * 2 ^ 78 +
    (if w.notify then 2 ^ 77 else 0))

/-- The hold record (R407). What a date of the model's own says of a wait is no part of it. DESIGN CHOICE: the numbers are
little-endian in the widths of Table 2 of 14, the windows stand by partition and number. -/
def holdRecord (s : State) : List Byte :=
  let c (k : Nat) : Consist := { con s k with verbs := (con s k).verbs.map fun e => { e with since := none } }
  leBytes 8 s.link.holdEpoch ++ leBytes 6 s.link.holdEntryTick ++ leBytes 1 s.link.lossCause ++
  ((List.range 256).flatMap fun q => descBytes (queue s q)) ++ ((List.range 256).flatMap fun q => doorbellBytes (queue s q)) ++
  (s.parts.flatMap fun x => x.2.windows.flatMap fun w => match w.2 with
    | some v => windowBytes w.1 v
    | none => []) ++
  ((List.range 40).flatMap fun k => Config.consistOctets k (c k))

/-- The digest of the hold record as it stands. -/
def recordDigest (s : State) : List Byte := shake256 (holdRecord s) 32

/-- HOLD_RECORD_WRITE (R406 steps 3 and 4, R407). -/
def execHoldRecordWrite (s : State) : Host.Outcome State Fault Refusal :=
  .next (if odN s kHoldState ≠ 1 ∨ !s.link.quiesced ∨ !drainedAll s then s
    else odSet (moveDomains (depotProgrammed { s with link := { s.link with holdDigest := recordDigest s } }) 0 1) kHoldState 2)

/-- ADOPT (R409): the first failing check decides. -/
def execAdopt (epoch : Nat) (digest : List Byte) (s : State) : Host.Outcome State Fault Refusal :=
  guardWf (decide (epoch < 2 ^ 64 ∧ digest.length = 32))
    (let s := { s with link := { s.link with adoptEpoch := epoch, adoptDigest := digest } }
     let st : Status := if odN s kHoldState ≠ 2 then .notReady
       else if epoch ≠ s.link.holdEpoch ∨ digest ≠ s.link.holdDigest ∨ s.link.recordGone ∨ recordDigest s ≠ s.link.holdDigest then .authFail
       else .ok
     if st ≠ .ok then bump { s with link := { s.link with adoptStatus := stCode st } } kAdoptionFailures 1 none
     else odSet s kHoldState 4)

/-- The step timers start afresh (R530). -/
def timersAfresh (s : State) : State :=
  s.parts.foldl (fun s x => modStep s x.1 fun y =>
    { y with since := y.since.map fun _ => tickNow s + 1, attempts := y.attempts.map fun a => (a.1, tickNow s + 1, a.2.2) }) s

/-- ADOPTION_END (R410); the frames that hold kept back go out (R379); a loss during the adoption brings the hold back at once (R531). -/
def execAdoptionEnd (s : State) : Host.Outcome State Fault Refusal :=
  .next (if odN s kHoldState ≠ 4 then s
    else
      let again := s.link.relost
      let cause := s.link.lossCause
      let s := timersAfresh (odSet (moveDomains s 1 0) kHoldState 0)
      let s := bump { s with link := { s.link with adoptStatus := 0, quiesced := false, relost := false } } kAdoptions 1 none
      if again then beginHold (orphanAll s) cause else s.qps.foldl (fun s x => pump s x.1) s)

/-- RE_ATTACH (R413). -/
def execReAttach (s : State) : Host.Outcome State Fault Refusal :=
  .next (let st : Status := if odN s kHoldState ≠ 3 then .notReady else if s.link.adoptEpoch ≠ s.link.holdEpoch then .authFail else .ok
    let s := { s with link := { s.link with adoptStatus := stCode st } }
    if st = .ok then odSet s kHoldState 0 else s)

end Sys2Proof.Machine
end

