-- ==== Sys2Proof/Machine/Grants.lean ====
section
/-! DEFINITION. Partitions (R416 to R422, R334, R337), the scrubs (R216, R217, R265, R420), preserved granules (R266, R268, R428)
and the patrol (R223). -/

namespace Sys2Proof.Machine

def noGrant : Grant := ⟨0, 0, 0, 0, 0, 0, 0, 0, 0⟩

/-- The shadow copy of a partition's grant: the committed copy until something is written (R417). -/
def shadowOf (s : State) (p : Nat) : Grant := (part s p).shadow.getD (grantOf s p)

/-- Writes the shadow copy; the ready mark goes. -/
def putShadow (s : State) (p : Nat) (g : Grant) : State := modPart s p fun q => { q with shadow := some g, ready := false }

/-- Octets of the grant object of a subindex, 0 for none. -/
def grantLen (sub : Nat) : Nat :=
  match sub with
  | 2 => 8 | 3 => 72 | 4 => 32 | 5 => 768 | 6 => 800 | 7 => 32 | 8 => 16 | _ => 0

/-- A grant object of a copy (Table 12 of 15). -/
def grantField (g : Grant) (sub : Nat) : Nat :=
  match sub with
  | 2 => g.consists | 3 => g.near | 4 => g.far | 5 => g.staging | 6 => g.depot | 7 => g.sems | _ => g.qps

def setGrantField (g : Grant) (sub v : Nat) : Grant :=
  match sub with
  | 2 => { g with consists := v } | 3 => { g with near := v } | 4 => { g with far := v } | 5 => { g with staging := v }
  | 6 => { g with depot := v } | 7 => { g with sems := v } | _ => { g with qps := v }

def valNat : OdVal → Nat
  | .num n => n
  | .octets b => leNat b

/-- GRANT_OBJECT_WRITE (R417, R419). -/
def execGrantObjectWrite (who : Who) (p sub : Nat) (val : OdVal) (s : State) : Host.Outcome State Fault Refusal :=
  guardWf (decide (p < 40 ∧ 2 ≤ sub ∧ sub ≤ 8))
    (let lenOk : Bool := match val with
       | .num n => sub = 2 && n < 2 ^ 64
       | .octets b => sub ≠ 2 && b.length = grantLen sub
     dictWrite s who (0x610000 + 256 * p + sub) val (fun _ => opOnly who (if lenOk then .ok else .malformed))
       (fun s => putShadow s p (setGrantField (shadowOf s p) sub (valNat val))))

/-- Whether another partition's committed or shadow VID is v; 0 is none. -/
def vidTaken (s : State) (p v : Nat) : Bool :=
  v ≠ 0 && s.parts.any fun x => x.1 ≠ p && ((grantOf s x.1).vid = v || (shadowOf s x.1).vid = v)

/-- VID_WRITE (R334). -/
def execVidWrite (who : Who) (p v : Nat) (s : State) : Host.Outcome State Fault Refusal :=
  guardWf (decide (p < 40 ∧ v < 65536))
    (dictWrite s who (kVid p) (.num v)
      (fun s => opOnly who (if vidTaken s p v then .denied else if v = 0 ∨ 4095 ≤ v ∨ v = odN s kPtpVid then .malformed else .ok))
      (fun s => putShadow s p { shadowOf s p with vid := v }))

/-- PORT_MAP_WRITE (R334). -/
def execPortMapWrite (who : Who) (p v : Nat) (s : State) : Host.Outcome State Fault Refusal :=
  guardWf (decide (p < 40 ∧ v < 256))
    (dictWrite s who (kPortMap p) (.num v)
      (fun s => opOnly who (if (bitList 8 v).all (portExists s) then .ok else .malformed))
      (fun s => putShadow s p { shadowOf s p with portMap := v }))

/-! ### The checks of a commit (R418) -/

/-- Bits of `a` that `b` lacks, as a list below n. -/
def gained (n a b : Nat) : List Nat := (bitList n a).filter fun i => !bitOf b i

def stagingBits (g : Grant) (d : Nat) : Nat := bits g.staging (768 * d) 768

def depotGranules (s : State) : Nat := odN s kDepotLogicalBlocks / 65536

/-- Whether a copy is malformed. -/
def grantMalformed (s : State) (g : Grant) : Bool :=
  decide (2 ^ 40 ≤ g.consists ∨ 2 ^ depotGranules s ≤ g.depot) || g.consists = 0 ||
  ((List.range 8).any fun d => decide (2 ^ 762 ≤ stagingBits g d) || (stagingBits g d ≠ 0 && bits g.consists (5 * d) 5 = 0)) ||
  ((bitList 128 g.qps).any fun b => !bitOf g.portMap (b / 16))

/-- Whether two copies share a resource that `a` gains over `old`. -/
def sharesGain (a old o : Grant) : Bool :=
  let hit (x y z : Nat) : Bool := (x &&& z) &&& (x ^^^ (x &&& y)) ≠ 0
  hit a.consists old.consists o.consists || hit a.near old.near o.near || hit a.far old.far o.far ||
  hit a.staging old.staging o.staging || hit a.depot old.depot o.depot || hit a.sems old.sems o.sems || hit a.qps old.qps o.qps ||
  (a.vid ≠ 0 && a.vid = o.vid)

/-- Whether a near granule lies in a mapped region, a far granule in mapped offsets (R214, R224). -/
def nearGrantable (s : State) (q : Nat) : Bool := !bitOf (odN s kNearRegionFaultMap) (q / 72)
def farGrantable (s : State) (q : Nat) : Bool := !farProtected s (q / 32) || q % 32 < 28

/-- Whether a commit is denied. -/
def grantDenied (s : State) (p : Nat) (g : Grant) : Bool :=
  let old := grantOf s p
  (s.parts.any fun x => x.1 ≠ p && (sharesGain g old (grantOf s x.1) || (x.2.ready && sharesGain g old (shadowOf s x.1)))) ||
  !(bitList 576 g.near).all (nearGrantable s) || !(bitList 256 g.far).all (farGrantable s) ||
  ((bitList 40 g.consists).any fun k => !bitOf (odN s kConsistAvailableMap) k) ||
  (s.depot.preserved.any fun x => bitOf g.depot x.1 && !bitOf old.depot x.1 &&
    !(odN s (kDepotKeyMode p) = 1 && odB s (kDepotKeyCheck p) = x.2)) ||
  (stepOpen s p && (gained 40 old.consists g.consists ≠ [] || gained 256 old.sems g.sems ≠ [] || gained 128 old.qps g.qps ≠ []))

/-- Whether the module is in hold or in debug erase. -/
def grantsClosed (s : State) : Bool := holding s || odN s kDebugState = 1

def commitCheck (s : State) (p : Nat) : Status :=
  let g := shadowOf s p
  if grantsClosed s then .notReady else if grantMalformed s g then .malformed else if grantDenied s p g then .denied else .ok

/-- GRANT_COMMIT: the result also shows in `grant_status`. -/
def execGrantCommit (who : Who) (p : Nat) (s : State) : Host.Outcome State Fault Refusal :=
  guardWf (decide (p < 40))
    (let st := commitCheck s p
     let counted := who.role = .operator ∧ dictUp s ∧ !starting s ∧ !bookFull s 1024
     let s := dictWrite s who (kGrantCommit p) (.num 1) (fun s => opOnly who (commitCheck s p))
       (fun s => odSet (modPart s p fun q => { q with shadow := some (shadowOf s p), ready := true }) (kGrantStatus p) (stCode .notReady))
     if counted ∧ st ≠ .ok then
       bump (odSet (modPart s p fun q => { q with ready := false }) (kGrantStatus p) (stCode st)) kGrantRefusals 1 none
     else s)

/-- GRANT_DISCARD. -/
def execGrantDiscard (who : Who) (p : Nat) (s : State) : Host.Outcome State Fault Refusal :=
  guardWf (decide (p < 40))
    (dictWrite s who (kGrantCommit p) (.num 3) (fun _ => opOnly who .ok)
      (fun s => modPart s p fun q => { q with shadow := none, ready := false }))

/-- A release is accepted: the partition is releasing and leaves at the next boundary. A free partition has nothing to release. -/
def beginRelease (s : State) (p : Nat) : State :=
  if (part s p).grant = none then s
  else odSet (modPart s p fun q => { q with leaves := true, ready := false, shadow := none }) (kPartState p) 2

/-- GRANT_RELEASE (R422). -/
def execGrantRelease (who : Who) (p : Nat) (s : State) : Host.Outcome State Fault Refusal :=
  guardWf (decide (p < 40))
    (dictWrite s who (kGrantCommit p) (.num 2)
      (fun s => opOnly who (if grantsClosed s then .notReady else if stepOpen s p then .denied else .ok))
      (fun s => beginRelease s p))

/-- A forced release: a no vote, then every consist of the partition stops (R422). -/
def forceRelease (s : State) (p : Nat) : State :=
  let ks := consistsOf s p
  let s := castVote s p 0x0E
  let s := ks.foldl (fun s k => if (con s k).pstate = .running then stopConsist s k 0x0E else s) s
  beginRelease s p

/-- GRANT_FORCE_RELEASE. -/
def execGrantForceRelease (who : Who) (p : Nat) (s : State) : Host.Outcome State Fault Refusal :=
  guardWf (decide (p < 40))
    (dictWrite s who (kGrantCommit p) (.num 4) (fun s => opOnly who (if grantsClosed s then .notReady else .ok)) (fun s => forceRelease s p))

/-! ### Free resources -/

def isLeaving (s : State) (tier no : Nat) : Bool := s.health.leaving.any fun l => l.tier = tier && l.no = no

def heldBy (s : State) (f : Grant → Nat) (i : Nat) : Bool := s.parts.any fun x => match x.2.grant with
  | some g => bitOf (f g) i
  | none => false

/-- The objects that count free granules (Table 3 of 07, Table 3 of 09). -/
def freeCounts (s : State) : State :=
  let cnt (n tier : Nat) (f : Grant → Nat) (ok : Nat → Bool) : Nat :=
    ((List.range n).filter fun i => ok i && !heldBy s f i && !isLeaving s tier i).length
  let s := odSet s kNearGranulesFree (cnt 576 0 (·.near) (nearGrantable s))
  let s := odSet s kFarGranulesFree (cnt 256 1 (·.far) (farGrantable s))
  let s := odSet s kStagingGranulesFree (cnt 6144 2 (·.staging) fun i => i % 768 < 762)
  odSet s kDepotGranulesFree (cnt (depotGranules s) 3 (·.depot) fun i => !s.depot.preserved.any fun x => x.1 = i)

/-- A released partition becomes free once nothing of it is left to scrub (R422). -/
def settleFree (s : State) (p : Nat) : State :=
  if p < 40 ∧ (part s p).grant = none ∧ odN s (kPartState p) = 2 ∧ !s.health.leaving.any (fun l => l.part = p) then
    odClearIndex s (0x6100 + p)
  else s

/-! ### The swap (R215, R417, R420) -/

/-- Whether everything that the ready copy adds is free. -/
def addsFree (s : State) (p : Nat) : Bool :=
  let g := shadowOf s p
  let o := grantOf s p
  let ok (n tier : Nat) (f : Grant → Nat) : Bool := (gained n (f g) (f o)).all fun i => !heldBy s f i && !isLeaving s tier i
  ok 40 4 (·.consists) && ok 576 0 (·.near) && ok 256 1 (·.far) && ok 6144 2 (·.staging) && ok (depotGranules s) 3 (·.depot) &&
  ((gained 256 g.sems o.sems).all fun b => !heldBy s (·.sems) b) && ((gained 128 g.qps o.qps).all fun b => !heldBy s (·.qps) b)

/-- Whether an issued verb of a consist that leaves still runs to completion (Table 2 of 15). DESIGN CHOICE (R422): where its partition goes
with it, what waits for the network, for a decision or for another verb of the partition does not. -/
def runsOn (k : Nat) (released : Bool) (e : VEntry) (s : State) : Bool := if released then endsAlone k e s else stillRuns k e s

/-- A consist leaves: it is idle with nothing loaded; verbs already issued run to completion and post no token (Table 2 of 15). -/
def leaveConsist (released : Bool) (s : State) (k : Nat) : State :=
  let s := if (con s k).pstate = .running then stopConsist s k 0x0E else s
  setCon s k { Consist.reset with verbs := ((con s k).verbs.filter fun e => runsOn k released e s).map fun e => { e with post := none } }

/-- Whether verbs that a consist had issued still run. -/
def consistBusy (s : State) (k : Nat) (released : Bool) : Bool :=
  ((con s k).verbs.any fun e => runsOn k released e s) ||
  s.pools.any fun x => (x.2.pending.any fun b => b.consist = k) || x.2.flight.any fun f => f.block.consist = k

/-- A semaphore block changes hands: every slot at its reset values. -/
def giveSems (s : State) (b p : Nat) : State :=
  { s with sems := (List.range 256).foldl (fun t i => tset Sem.reset t (256 * b + i) { Sem.reset with part := p }) s.sems }

/-- Closes the QPs of a block (R420). -/
def closeBlock (s : State) (b : Nat) : State :=
  ((s.qps.filter fun x => x.1 / 32 = b ∧ x.2.isOpen).map (·.1)).foldl (fun s q => closeQp s q .aborted) s

/-- A random 512-bit XTS key: its two AES-256 keys are distinct (R425). DESIGN CHOICE: a draw whose halves are equal has its last octet
changed. -/
def xtsKey (s : State) (label : Nat) : State × List Byte :=
  let (s, k) := freshOctets s label 64
  (s, if k.take 32 = k.drop 32 then k.take 63 ++ (k.drop 63).map (· ^^^ 1) else k)

/-- Keys at a partition's first commit (Table 5 of 15, R341, R431). -/
def firstKeys (s : State) (p : Nat) : State :=
  let (s, far) := xtsKey s 4
  let (s, dep) := xtsKey s 5
  let (s, dk) := freshOctets s 6 32
  let (s, ek) := freshOctets s 7 1184
  let (s, ch) := freshOctets s 8 32
  let s := { s with sec := { s.sec with keys := tset none s.sec.keys p (some ⟨far, dep, dk⟩) } }
  odPut (odPut (odPut s (kKemPublicKey p) (.octets ek)) (kKeyChallenge p) (.octets ch)) (kImageDigest p) (.octets (zeros 64))

/-- Moves the tables of a partition to a new grant: what leaves and what comes. -/
def moveTables (s : State) (p : Nat) (o g : Grant) (owner : Nat) : State :=
  let lost (n : Nat) (f : Grant → Nat) : List Nat := gained n (f o) (f g)
  let ks := lost 40 (·.consists)
  let s := ks.foldl (leaveConsist (decide (owner < 40))) s
  let depots := (lost (depotGranules s) (·.depot)).filter fun q => !s.depot.preserved.any fun x => x.1 = q
  let mk (tier : Nat) (l : List Nat) (run : Bool) : List Leaving := l.map fun i => ⟨tier, i, owner, run⟩
  let out := mk 4 ks true ++ mk 0 (lost 576 (·.near)) false ++ mk 1 (lost 256 (·.far)) false ++
    mk 2 (lost 6144 (·.staging)) false ++ mk 3 depots false
  let s := { s with health := { s.health with leaving := s.health.leaving ++ out } }
  let s := (lost 256 (·.sems)).foldl (fun s b => giveSems s b 0xFF) s
  let s := (lost 128 (·.qps)).foldl closeBlock s
  (gained 256 g.sems o.sems).foldl (fun s b => giveSems s b p) s

/-- Ends the sessions of a tenant (R459). -/
def closeSessions (s : State) (gone : Session → Bool) : State :=
  let l := s.book.sessions.filter fun x => !(gone x.2 && x.1 < 2 ^ 32)
  odSet { s with book := { s.book with sessions := l } } kLmpSessionsOpen (l.filter fun x => x.2.proved ∧ x.1 < 2 ^ 32).length

/-- What else a release swap does (R337, R422). -/
def releaseRest (s : State) (p : Nat) : State :=
  let qs := (s.queues.filter fun x => x.2.part = p ∧ x.2.enable).map (·.1)
  let s := qs.foldl (fun s q =>
    let v := queue s q
    countQueues (drained (setQueue s q { v with enable := false, state := if v.state = 3 then 3 else 4, retry := none }) q)) s
  let shut (x : Aperture) : Aperture := if x.part = p then { x with enable := false } else x
  let s := { s with apertures := s.apertures.map fun (x : Nat × Aperture) => (x.1, shut x.2) }
  let s := { s with sec := { s.sec with keys := tdel s.sec.keys p }, chans := s.chans.filter fun x => x.1 / 64 / 8 ≠ p }
  let s := dropTable s p .aborted
  let s := closeSessions s fun x => x.role = .tenant && x.part = p
  let s := [0x4200, 0x5100, 0x6100, 0x8100, 0x8200, 0x8300].foldl (fun s i => odClearIndex s (i + p)) s
  let portCtr (k : Nat) : Bool := k % 64 = 3 + p && k / 64 / 256 / 16 = 0xA0C
  -- `skipped_steps` is a watch object (R121)
  { s with ctr := s.ctr.filter fun x => !portCtr x.1 && x.1 / 64 ≠ kSkippedSteps p }

/-- The swap of a ready copy, or of a release; a copy that is ready while the scrubs of a release run waits for their end (R422). -/
def swap (s : State) (p : Nat) : State :=
  let q := part s p
  if q.leaves then
    let epoch := odN s (kGrantEpoch p)
    let s := releaseRest (moveTables s p (grantOf s p) noGrant p) p
    let s := setPart s p Part.reset
    let s := odSet (odSet s (kGrantEpoch p) (epoch + 1)) (kPartState p) 2
    settleFree (freeCounts (bump s kGrantSwaps 1 none)) p
  else if q.ready ∧ addsFree s p ∧ odN s (kPartState p) ≠ 2 then
    let g := shadowOf s p
    let first := q.grant = none
    let s := moveTables s p (grantOf s p) g 255
    let s := modPart s p fun x => { x with grant := some g, shadow := none, ready := false }
    let s := if first then firstKeys s p else s
    let s := odSet (odSet (odSet s (kGrantEpoch p) (odN s (kGrantEpoch p) + 1)) (kGrantStatus p) 0) (kPartState p) 1
    freeCounts (bump s kGrantSwaps 1 none)
  else s

/-- GRANT_SWAP: at a tick boundary. -/
def execGrantSwap (p : Nat) (s : State) : Host.Outcome State Fault Refusal :=
  guardWf (decide (p < 40)) (swap s p)

/-! ### Scrubs (R216, R217, R265, R420) -/

/-- Zeros a range of memory and clears its marks; far-tier bytes become unreadable (R217). -/
def zeroRange (s : State) (a n : Nat) : State :=
  let inn (x : Nat) : Bool := decide (a ≤ x ∧ x < a + n)
  let m := { s.mem with cells := s.mem.cells.filter (fun c => !inn c.1), poison := s.mem.poison.filter (fun l => !inn (l * 64)),
                        farPoison := s.mem.farPoison.filter (fun c => !inn (c * 2048)) }
  if m.farPoison.length = s.mem.farPoison.length then { s with mem := m } else odSet { s with mem := m } kFarPoisonEntries m.farPoison.length

def tierCode : ScrubTier → Nat
  | .near => 0 | .far => 1 | .staging => 2 | .depot => 3

/-- The bytes of a granule of a tier: base and length. -/
def granuleRange (t : ScrubTier) (g : Nat) : Nat × Nat :=
  match t with
  | .near => (g * 2 ^ 30, 2 ^ 30)
  | .far => (farBase + g * 2 ^ 32, 2 ^ 32)
  | .staging => (stagingBase + g / 768 * 0x1000_0000 + g % 768 * 65536, 65536)
  | .depot => (0, 0)

/-- The contents of a granule go. -/
def scrubGranule (s : State) (t : ScrubTier) (g : Nat) : State :=
  match t with
  | .near => bump (zeroRange s (granuleRange t g).1 (2 ^ 30)) kScrubBytes (2 ^ 30) none
  | .far =>
    let s := zeroRange s (granuleRange t g).1 (2 ^ 32)
    bump { s with mem := { s.mem with farGen := tmod 0 s.mem.farGen g (· + 1) } } kScrubBytes (2 ^ 32) none
  | .staging => bump (zeroRange s (granuleRange t g).1 65536) kScrubBytes 65536 none
  | .depot => depotDiscard s g

/-- Whether blocks that passed their check before the swap have still to write a granule (R216 item 3). -/
def granuleBusy (s : State) (t : ScrubTier) (g : Nat) : Bool :=
  s.pools.any fun x => x.2.flight.any fun f =>
    if t = .depot then flightDepot f g else flightReaches f (granuleRange t g).1 (granuleRange t g).2

/-- GRANULE_SCRUB: staging granules are named 768 · die + q here. The scrub begins once the accesses in flight have drained. -/
def execGranuleScrub (tier : ScrubTier) (g : Nat) (s : State) : Host.Outcome State Fault Refusal :=
  guardWf (decide (g < 6400))
    (if (s.health.leaving.any fun l => l.tier = tierCode tier && l.no = g && !l.running) && !granuleBusy s tier g then
      let s := scrubGranule s tier g
      let run (l : Leaving) : Leaving := if l.tier = tierCode tier ∧ l.no = g then { l with running := true } else l
      { s with health := { s.health with leaving := s.health.leaving.map run } }
    else s)

/-- Takes an entry whose work is complete away. -/
def leftDone (s : State) (tier no : Nat) : State :=
  match s.health.leaving.find? fun l => l.tier = tier && l.no = no && l.running with
  | none => s
  | some x =>
    let s := { s with health := { s.health with leaving := s.health.leaving.filter fun l => !(l.tier = tier && l.no = no) } }
    settleFree (freeCounts s) x.part

/-- GRANULE_SCRUB_END. -/
def execGranuleScrubEnd (tier : ScrubTier) (g : Nat) (s : State) : Host.Outcome State Fault Refusal :=
  guardWf (decide (g < 6400)) (leftDone s (tierCode tier) g)

/-- Zeros what follows a consist: scratch, fault ring, slot log, deadlock record, histogram table (R420). -/
def clearConsist (s : State) (k : Nat) : State :=
  let s := upto 20 (fun i s => zeroRange s (scratchBase + (20 * k + i) * 0x40_0000) 0x20_0000) s
  let rec' (o : Nat) (s : State) : State := zeroRange s (stagingBase + conDie k * 0x1000_0000 + o + k % 5 * 0x800) 0x800
  setCon (zeroRange (rec' 0x02FA_8000 (rec' 0x02FA_4000 (rec' 0x02FA_0000 s))) (histTable k) 0x1_0000) k Consist.reset

/-- CONSIST_CLEAR_END: once the verbs issued before the swap have ended. -/
def execConsistClearEnd (k : Nat) (s : State) : Host.Outcome State Fault Refusal :=
  guardWf (decide (k < 40))
    (let released := s.health.leaving.any fun l => l.tier = 4 && l.no = k && decide (l.part < 40)
     if isLeaving s 4 k && !consistBusy s k released then leftDone (bump (clearConsist (dropPending s k) k) kConsistScrubs 1 none) 4 k else s)

/-! ### Preserved granules -/

def preservedCount (s : State) : State := odSet s kDepotPreservedGranules s.depot.preserved.length

/-- DEPOT_PRESERVE_SET (R266, R428): the mark records the key check of the partition that holds the granule. -/
def execDepotPreserveSet (who : Who) (q : Nat) (s : State) : Host.Outcome State Fault Refusal :=
  guardWf (decide (q < 65536))
    (let holder := (s.parts.find? fun x => bitOf (grantOf s x.1).depot q).map (·.1)
     dictWrite s who kDepotPreserveSet (.num q)
      (fun s => opOnly who (if depotGranules s ≤ q then .malformed
        else match holder with
          | some p => if odN s (kDepotKeyMode p) = 0 then .denied else .ok
          | none => .ok))
      (fun s =>
        -- a preserved granule that nobody holds stays tied to the key that sealed it
        let check := match holder with
          | some p => odB s (kDepotKeyCheck p)
          | none => tget (zeros 16) s.depot.preserved q
        freeCounts (preservedCount { s with depot := { s.depot with preserved := tins (tdel s.depot.preserved q) q check } })))

/-- DEPOT_PRESERVE_CLEAR (R266): a granule that no partition holds is then scrubbed. -/
def execDepotPreserveClear (who : Who) (q : Nat) (s : State) : Host.Outcome State Fault Refusal :=
  guardWf (decide (q < 65536))
    (dictWrite s who kDepotPreserveClear (.num q) (fun s => opOnly who (if depotGranules s ≤ q then .malformed else .ok))
      (fun s =>
        let marked := s.depot.preserved.any fun x => x.1 = q
        let s := preservedCount { s with depot := { s.depot with preserved := tdel s.depot.preserved q } }
        let s := if marked && !heldBy s (·.depot) q && !isLeaving s 3 q then
            { s with health := { s.health with leaving := s.health.leaving ++ [⟨3, q, 255, false⟩] } }
          else s
        freeCounts s))

/-! ### The patrol -/

/-- The last mapped line of the tier of an address. -/
def lastLine (s : State) (far : Bool) : Nat :=
  if far then farBase + 7 * 0x20_0000_0000 + (if farProtected s 7 then 0x1C_0000_0000 else 0x20_0000_0000) - 64
  else ((List.range 8).foldl (fun m r => if bitOf (odN s kNearRegionFaultMap) r then m else (r + 1) * 0x12_0000_0000) 64) - 64

/-- PATROL_READ: one mapped line of the near or far tier. -/
def execPatrolRead (addr : Nat) (ecc : Ecc) (s : State) : Host.Outcome State Fault Refusal :=
  let far := isFar addr
  guardWf (decide (addr < 2 ^ 64))
    (if region s addr ≠ .near ∧ region s addr ≠ .far then s else
     let a := addr / 64 * 64
     -- a chunk that an unprotected group cannot give is entered in the poison table by the read itself (R219, R223)
     let s := (eccRead s a 64 ecc none).1
     let wraps := decide (a = lastLine s far)
     let pos := if wraps then 0 else a + 64
     let s := bump s kPatrolPasses (if wraps then 1 else 0) none
     { s with health := if far then { s.health with patrolFar := pos } else { s.health with patrolNear := pos } })

end Sys2Proof.Machine
end

