-- ==== Sys2Proof/Machine/Secure.lean ====
section
/-! DEFINITION. Measurements, quotes, key import, debug access and the role keys (R427 to R443, R459). -/

namespace Sys2Proof.Machine

/-! ### Measurements (R429, R430) -/

/-- Extends a slot with a component's digest d and logs it. -/
def extendSlot (s : State) (slot : Nat) (d : List Byte) : State :=
  let m := fit 1024 (odB s kMeasurementSlots)
  let v := shake256 ((m.drop (64 * slot)).take 64 ++ d) 64
  let s := odPut s kMeasurementSlots (.octets (patch m (64 * slot) v))
  let log := odB s kMeasurementLog
  if 256 * 72 ≤ log.length then s else odPut s kMeasurementLog (.octets (log ++ leBytes 1 slot ++ zeros 7 ++ d))

/-- Measures a component. -/
def measure (s : State) (slot : Nat) (component : List Byte) : State := extendSlot s slot (shake256 component 64)

/-- Slot 5: the lifecycle record, at each start-up and each change of `debug_state`. -/
def measureLife (s : State) : State :=
  measure s 5 (leBytes 1 (odN s kDebugState) ++ fit 32 (odB s kOrderingCode) ++ leBytes 4 (odN s kSparesUsed))

/-! ### Quotes (R433 to R435) -/

/-- The grant's values as the digest takes them. -/
def grantOctets (g : Grant) : List Byte :=
  leBytes 8 g.consists ++ leBytes 72 g.near ++ leBytes 32 g.far ++ leBytes 768 g.staging ++ leBytes 800 g.depot ++ leBytes 32 g.sems ++
  leBytes 16 g.qps ++ leBytes 2 g.vid ++ leBytes 1 g.portMap

/-- The quote header (Table 7 of 15). -/
def quoteHeader (s : State) (nonce : List Byte) (p : Nat) : List Byte :=
  let flags := (if odN s kDebugState = 2 then 1 else 0) + (if odN s kAvailableConsists < 40 then 2 else 0) + (if odN s kHoldState = 0 then 0 else 4)
  fit 32 (odB s kOrderingCode) ++ fit 32 (odB s kIdentityFingerprint) ++ leBytes 4 (if p = 0xFF then 1152 else 1408) ++ leBytes 2 1 ++
  leBytes 2 16 ++ leBytes 4 s.sec.quoteSerial ++ leBytes 4 (odN s kBootCount) ++ leBytes 1 flags ++ leBytes 1 p ++ leBytes 6 (tickNow s) ++
  leBytes 8 (moduleTime s) ++ fit 32 nonce

/-- The partition block (Table 8 of 15). -/
def quoteBlock (s : State) (p : Nat) : List Byte :=
  let g := grantOf s p
  zeros 40 ++ leBytes 4 (odN s (kGrantEpoch p)) ++ leBytes 1 (popCount 40 g.consists) ++ leBytes 1 g.portMap ++ leBytes 2 g.vid ++
  fit 16 (odB s (kDepotKeyCheck p)) ++ shake256 (odB s (kTenantKey p)) 32 ++ shake256 (odB s (kKemPublicKey p)) 32 ++
  fit 64 (odB s (kImageDigest p)) ++ shake256 (grantOctets g) 64

/-- "HSK-QUOTE", "HSK-CERT" and "HSK-BOOKKEY" (R435, R436, R465). -/
def ctxQuote : List Byte := ascii [72, 83, 75, 45, 81, 85, 79, 84, 69]
def ctxCert : List Byte := ascii [72, 83, 75, 45, 67, 69, 82, 84]
def ctxBookKey : List Byte := ascii [72, 83, 75, 45, 66, 79, 79, 75, 75, 69, 89]

/-- QUOTE_REQUEST: signed at once. DESIGN CHOICE (R433): a request counts as outstanding for the 5 ms that its quote may take. -/
def execQuoteRequest (who : Who) (bytes : List Byte) (s : State) : Host.Outcome State Fault Refusal :=
  .next (let n := (lget 0 bytes 32).toNat
    let st : Status := if bytes.length ≠ 33 then .malformed
      else if n = 0xFF then .ok else if 40 ≤ n then .denied else if who.role = .tenant ∧ n ≠ who.part then .denied else .ok
    let out := s.sec.quotes.filter fun t => s.now < t
    let st := lowestStatus [st, if 8 ≤ out.length then .capacity else .ok]
    let ready := dictUp s && (!starting s || bootWritable s kQuoteRequest) && !bookFull s 1024
    let s := dictWrite s who kQuoteRequest (.octets bytes) (fun _ => st)
      (fun s =>
        let s := { s with sec := { s.sec with quoteSerial := s.sec.quoteSerial + 1, quotes := out ++ [s.now + 5_000_000] } }
        let body := quoteHeader s (bytes.take 32) n ++ fit 1024 (odB s kMeasurementSlots) ++ (if n = 0xFF then [] else quoteBlock s n)
        let (s, sig) := sign s s.sec.identity ctxQuote body
        emit (bump s kQuotesSigned 1 none) (.quote 0 (body ++ sig)))
    if ready ∧ st ≠ .ok then emit (bump s kQuoteRefusals 1 none) (.quote (stCode st) []) else s)

/-! ### Key import (R427) -/

/-- "HSK-UNLOCK", "HSK-DEPOT" and "HSK-KCV". -/
def labelUnlock : List Byte := ascii [72, 83, 75, 45, 85, 78, 76, 79, 67, 75]
def labelDepot : List Byte := ascii [72, 83, 75, 45, 68, 69, 80, 79, 84]
def labelKcv : List Byte := ascii [72, 83, 75, 45, 75, 67, 86]

/-- The 32-octet secret that the device KEM key decapsulates from the ciphertext of an import (R427). -/
def importSecret (s : State) (bytes : List Byte) : List Byte := (List.range 32).map (Config.kemSecret s.sec.deviceKem (bytes.take 1088))

/-- The proof that a secret gives for a partition's challenge. -/
def importProof (s : State) (p : Nat) (k : List Byte) : List Byte := shake256 (labelUnlock ++ k ++ odB s (kKeyChallenge p) ++ leBytes 1 p) 32

/-- Why an import is refused. -/
def importCheck (s : State) (who : Who) (p : Nat) (bytes : List Byte) : Status :=
  let good : Bool := bytes.drop 1088 = importProof s p (importSecret s bytes)
  if who.role ≠ .tenant ∨ who.part ≠ p ∨ (part s p).grant = none then .denied
  else lowestStatus [if (grantOf s p).depot ≠ 0 ∨ (shadowOf s p).depot ≠ 0 then .denied else .ok,
    if bytes.length ≠ 1120 then .malformed else .ok, if good then .ok else .authFail]

/-- A write of `depot_key_import` (R427). -/
def importWrite (who : Who) (p : Nat) (bytes : List Byte) (s : State) : State :=
  let st := importCheck s who p bytes
  let attempt := who.role = .tenant ∧ who.part = p ∧ (part s p).grant ≠ none ∧ dictUp s ∧ !starting s ∧ !bookFull s 1024
  let s := dictWrite s who (kDepotKeyImport p) (.octets bytes) (fun s => importCheck s who p bytes)
    (fun s =>
      let k := importSecret s bytes
      let ks := (tget none s.sec.keys p).getD ⟨[], [], []⟩
      let s := { s with sec := { s.sec with keys := tset none s.sec.keys p (some { ks with depot := shake256 (labelDepot ++ k) 64 }) } }
      odSet (odPut s (kDepotKeyCheck p) (.octets (shake256 (labelKcv ++ k) 16))) (kDepotKeyMode p) 1)
  if attempt then
    let s := bump s kKeyImportFailures (if st = .authFail then 1 else 0) none
    let (s, ch) := freshOctets s 8 32
    odPut s (kKeyChallenge p) (.octets ch)
  else s

/-- DEPOT_KEY_IMPORT: the value written is the ciphertext, then the proof. -/
def execDepotKeyImport (who : Who) (p : Nat) (cipher proof : List Byte) (s : State) : Host.Outcome State Fault Refusal :=
  guardWf (decide (p < 40)) (importWrite who p (cipher ++ proof) s)

/-- Empties the candidate buffer (R482). -/
def dropCandidate (s : State) : State :=
  let s := { s with boot := { s.boot with candLength := 0, candChunks := [], candHeader := none, candDigest := [], candKey := [] } }
  odSet (odSet (odSet s kFwCandidateState 0) kFwCandidateStatus 0) kFwCandidateVersion 0

/-! ### Debug access (R438 to R441) -/

/-- The erase begins: state 1, the entry, every key zeroised (Table 10 of 15); private instructions wait for its end (R439). -/
def debugBegin (s : State) (origin role : Nat) (fp : List Byte) : State :=
  let s := odSet ((List.range 40).foldl countChannels { s with chans := [] }) kDebugState 1
  let s := appendEntry s ⟨4, origin, role, 0xFF, 0, 0, 0, 0, 0, fp, zeros 32⟩
  let s := dropCandidate (measureLife s)
  { s with sec := { s.sec with keys := [], identity := zeros 32, deviceKem := zeros 32, bookKey := zeros 32, release := true, tapOpen := false } }

/-- DEBUG_OPEN (R439): the service role, with the operator's consent. -/
def execDebugOpen (who : Who) (v : Nat) (s : State) : Host.Outcome State Fault Refusal :=
  guardWf (decide (v < 256))
    (dictWrite s who kDebugOpen (.num v)
      (fun s => if who.role ≠ .service ∨ odN s kDebugConsent = 0 then .denied else if v ≠ 1 then .malformed else .ok)
      (fun s => if odN s kDebugState = 1 then s else debugBegin s who.origin 3 who.keyFp))

/-- Codes of the port's instruction register. -/
def tapCode : TapInstr → Nat
  | .bypass => 0 | .idcode => 1 | .samplePreload => 2 | .extest => 3 | .unlock => 4 | .privateInstr => 5

/-- TAP_INSTRUCTION_LOAD (R438). -/
def execTapInstructionLoad (i : TapInstr) (s : State) : Host.Outcome State Fault Refusal :=
  let ok : Bool := match i with
    | .extest => s.link.resetLow
    | .privateInstr => s.sec.tapOpen
    | _ => true
  .next (if ok then
      let s := { s with sec := { s.sec with tap := tapCode i } }
      if i = .unlock then emit s (.tap s.sec.tapChallenge) else s
    else bump { s with sec := { s.sec with tap := 0 } } kTapRefused 1 none)

/-- TAP_UNLOCK (R439). -/
def execTapUnlock (sigOk : Bool) (s : State) : Host.Outcome State Fault Refusal :=
  .next (if s.sec.tap ≠ 4 then s
    else if sigOk then (if odN s kDebugState = 1 then s else debugBegin s 2 0xFF [])
    else
      let (s, ch) := freshOctets s 18 32
      bump { s with sec := { s.sec with tapChallenge := ch } } kDebugUnlockFailures 1 none)

/-- DEBUG_ERASE_RELEASE (R440): every partition leaves at the first boundary. In hold the near tier leaves self-refresh for the scrub, and
the hold can then only be discarded (R409). -/
def execDebugEraseRelease (s : State) : Host.Outcome State Fault Refusal :=
  .next (if !s.sec.release then s
    else
      let ps := (s.parts.filter fun x => x.2.grant ≠ none).map (·.1)
      let s := ps.foldl (fun s p => swap (forceRelease s p) p) s
      let woken := if holding s then ((List.range 16).map (· + 0x40)).filter fun d => domState s d = 1 else []
      let s := woken.foldl (fun s d => setDom s d 0) s
      { s with sec := { s.sec with release := false }, link := { s.link with recordGone := s.link.recordGone || holding s } })

/-- The fingerprint of a public key (R424). -/
def fingerprint (k : List Byte) : List Byte := shake256 k 32

/-- New identity, KEM and book keys, and the certificate request that holds them: kind 0x01, its own fingerprint as issuer (R436, R440,
R441, R465). -/
def newKeys (s : State) : State :=
  let (s, id) := freshOctets s 10 32
  let (s, pk) := freshOctets s 11 1952
  let (s, dk) := freshOctets s 12 32
  let (s, ek) := freshOctets s 13 1184
  let (s, serial) := freshOctets s 14 16
  let (s, use) := freshOctets s 21 1
  let (s, bk) := freshOctets s 15 32
  let (s, bp) := freshOctets s 16 1952
  let s := { s with sec := { s.sec with identity := id, deviceKem := dk, bookKey := bk } }
  let fp := fingerprint pk
  let body := zeros 4 ++ use ++ leBytes 1 1 ++ leBytes 2 1 ++ leBytes 8 (moduleTime s) ++ fp ++ serial ++ pk ++ ek
  let (s, sig) := sign s id ctxCert body
  let (s, be) := sign s id ctxBookKey (bp ++ fp)
  let s := odPut (odPut (odPut s kIdentityFingerprint (.octets fp)) kDeviceKemPublicKey (.octets ek)) kReprovisionCsr (.octets (body ++ sig))
  odPut (odPut s kBookPublicKey (.octets bp)) kBookKeyEndorsement (.octets be)

/-- Scratch, staging and the near tier hold zeros; the far tier's contents cannot be decrypted any more (R440). -/
def eraseMemory (s : State) : State :=
  let gens := (List.range 256).foldl (fun t g => tmod 0 t g (· + 1)) s.mem.farGen
  { s with mem := { s.mem with cells := [], poison := [], farGen := gens }
           health := { s.health with leaving := s.health.leaving.filter fun l => l.tier = 1 } }

/-- DEBUG_ERASE_END (R440): once the released consists' blocks have ended (R216, R420), the depot maps are discarded, new keys are made, the port opens. -/
def execDebugEraseEnd (s : State) : Host.Outcome State Fault Refusal :=
  .next (if odN s kDebugState ≠ 1 ∨ s.sec.release ∨ (s.pools.any fun x => x.2.flight ≠ [] || x.2.pending ≠ []) then s
    else
      let gone := (s.health.leaving.map fun l => l.part).eraseDups
      let s := eraseMemory { s with consists := [], sems := [], casts := [] }
      let s := ((s.depot.mapped.map fun b => b / 65536).eraseDups).foldl depotDiscard s
      let s := measureLife (odSet (newKeys s) kDebugState 2)
      let s := { s with sec := { s.sec with tapOpen := true } }
      gone.foldl settleFree (freeCounts s))

/-- Whether the keys of a device certificate (R436) are the module's own: the identity key by its fingerprint, and the KEM key. -/
def ownKeys (s : State) (cert : List Byte) : Bool :=
  fingerprint ((cert.drop 64).take 1952) = odB s kIdentityFingerprint && (cert.drop 2016).take 1184 = odB s kDeviceKemPublicKey

/-- Whether a public key, if there is one, has a fused fingerprint. -/
def fusedKey (fp : List Byte) (key : Option (List Byte)) : Bool := match key with
  | some k => fingerprint k = fp
  | none => false

/-- IDENTITY_CERT_WRITE (R441): `rootKey` is the public key under which the signature of the CA certificate verifies, if any does. -/
def execIdentityCertWrite (who : Who) (bytes : List Byte) (rootKey : Option (List Byte)) (s : State) : Host.Outcome State Fault Refusal :=
  .next (dictWrite s who kIdentityCertWrite (.octets bytes)
    (fun s => if who.role ≠ .service then .denied
      else lowestStatus [if bytes.length ≠ 11834 then .malformed else .ok,
        if ownKeys s bytes && fusedKey s.sec.rootKey rootKey then .ok else .authFail])
    (fun s =>
      let s := odPut s kIdentityChain (.octets bytes)
      { s with sec := { s.sec with relock := s.sec.relock || odN s kDebugState = 2 } }))

/-! ### Role keys (R442, R443, R459) -/

/-- Keys of 1,952 octets in a list. -/
def keysIn (b : List Byte) : List (List Byte) := (List.range (b.length / 1952)).map fun i => (b.drop (1952 * i)).take 1952

/-- KEY_LIST_WRITE: subindex 0x0C `operator_keys`, 0x0D `observer_keys`; 0x0E stands for the `tenant_key` of partition p. -/
def execKeyListWrite (who : Who) (sub p : Nat) (bytes : List Byte) (s : State) : Host.Outcome State Fault Refusal :=
  guardWf (decide (0x0C ≤ sub ∧ sub ≤ 0x0E ∧ p < 40))
    (let key := if sub = 0x0C then kOperatorKeys else if sub = 0x0D then kObserverKeys else kTenantKey p
     let role : Role := if sub = 0x0C then .operator else if sub = 0x0D then .observer else .tenant
     let lenOk := if sub = 0x0E then bytes.length = 1952 else bytes.length % 1952 = 0 && bytes.length ≤ 4 * 1952
     dictWrite s who key (.octets bytes) (fun _ => opOnly who (if lenOk then .ok else .malformed))
       (fun s =>
         let fps := (keysIn bytes).map fingerprint
         closeSessions (odPut s key (.octets bytes)) fun x =>
           x.role = role && (role ≠ .tenant || x.part = p) && !fps.contains x.keyFp))

end Sys2Proof.Machine
end

