-- ==== Sys2Proof/Machine/Power.lean ====
section
/-! DEFINITION. Power domains (R490 to R500), the cap, the clock and the duty (R501 to R503), inlet, airflow and the thermal
backstop (R504 to R509). -/

namespace Sys2Proof.Machine

/-! ### Domains (R490 to R494) -/

/-- The domains of Table 1 of 18. -/
def isDomain (d : Nat) : Bool :=
  d < 40 || (0x30 ≤ d && d < 0x38) || (0x40 ≤ d && d < 0x50) || (0x50 ≤ d && d < 0x58) || (0x60 ≤ d && d < 0x68) || d = 0x70 || d = 0x71 ||
  d = 0x7F

def allDomains : List Nat := (List.range 128).filter isDomain

/-- Whether a domain is the second of a cage in 800GbE mode (R491). -/
def isMate (s : State) (d : Nat) : Bool := 0x60 ≤ d && d < 0x68 && d % 2 = 1 && bitOf (odN s kCageModeActive) ((d - 0x60) / 2)

/-- The domains that move on a request to d (R491). -/
def moved (s : State) (d : Nat) : List Nat := if 0x60 ≤ d ∧ d < 0x68 ∧ isMate s (d + 1) then [d, d + 1] else [d]

/-- The die that contains a domain, and the domains that a die contains (R494). -/
def dieOf (d : Nat) : Option Nat := if d < 40 then some (0x30 + d / 5) else if 0x40 ≤ d ∧ d < 0x50 then some (0x30 + (d - 0x40) / 2) else none
def inDie (d : Nat) : List Nat :=
  if 0x30 ≤ d ∧ d < 0x38 then (List.range 5).map (fun i => 5 * (d - 0x30) + i) ++ [0x40 + 2 * (d - 0x30), 0x41 + 2 * (d - 0x30)] else []

/-- How deep a domain is now: 1 in retention, 2 off. -/
def depth (s : State) (d : Nat) : Nat := match domState s d with
  | 1 => 1 | 2 => 2 | _ => 0

/-- Who may ask a domain for a state (R492). -/
def domainRole (s : State) (who : Who) (d v : Nat) : Bool :=
  who.role = .operator || (who.role = .tenant && d < 40 && v ≠ 2 && bitOf (grantOf s who.part).consists d)

def anyHeld (s : State) (n : Nat) (f : Grant → Nat) (ok : Nat → Bool) : Bool := (List.range n).any fun i => ok i && heldBy s f i

/-- Whether a partition has the port in its map, or PTP uses it (R493). -/
def portUsed (s : State) (n : Nat) : Bool :=
  odN s kPtpPort = n || s.parts.any fun x => bitOf (grantOf s x.1).portMap n

/-- What keeps a domain from leaving on (R493, R494). -/
def mustStay (s : State) (d v : Nat) : Bool :=
  (d < 40 && ((con s d).pstate = .running || (match conPart s d with
    | some p => stepOpen s p
    | none => false))) ||
  (0x40 ≤ d && d < 0x50 && v = 2 && anyHeld s 576 (·.near) fun q => q / 72 = (d - 0x40) / 2) ||
  (0x50 ≤ d && d < 0x58 && v = 2 && anyHeld s 256 (·.far) fun q => q / 32 = d - 0x50) ||
  (d = 0x71 && v = 2 && s.parts.any fun x => (grantOf s x.1).depot ≠ 0) ||
  (0x60 ≤ d && d < 0x68 && portUsed s (d - 0x60)) ||
  (d = 0x70 && odN s kHostQueuesEnabled ≠ 0) ||
  ((inDie d).any fun c => depth s c < v) ||
  (match dieOf d with
    | some n => v < depth s n
    | none => false)

/-- The checks of a write of `domain_state`, in their order. -/
def domainCheck (s : State) (who : Who) (d v : Nat) : Status :=
  let st := domState s d
  if !isDomain d ∨ !domainRole s who d v then .denied
  else if 2 < v ∨ (d = 0x7F ∧ v ≠ 0) ∨ isMate s d then .malformed
  else if holding s ∨ st = 4 ∨ (st = 3 ∧ v ≠ 0) ∨ st = 5 then .notReady
  else if d < 40 ∧ !bitOf (odN s kConsistAvailableMap) d then .denied
  else if st = v then .ok
  else if v ≠ 0 ∧ mustStay s d v then .denied
  else .ok

/-- A wake event meets one domain. -/
def wakeOne (s : State) (d : Nat) : State := match domState s d with
  | 1 => beginWake s d
  | 2 => beginWake s d
  | 3 => meetEntry s d
  | _ => s

/-- A request for on: the die first (R494), then the domain. -/
def requestOn (s : State) (d : Nat) : State :=
  let s := match dieOf d with
    | some n => wakeOne s n
    | none => s
  (moved s d).foldl wakeOne s

/-- A request for retention or off: the entry begins. -/
def requestDeep (s : State) (d v : Nat) : State :=
  if domState s d = v then s
  else (moved s d).foldl (fun s d => setDom { s with pow := { s.pow with entering := tset 0 s.pow.entering d v, wakeMet := setDel s.pow.wakeMet d } } d 3) s

def domainWrite (who : Who) (d v : Nat) (s : State) : State :=
  dictWrite s who (kDomainState (d + 1)) (.num v) (fun s => domainCheck s who d v) (fun s => if v = 0 then requestOn s d else requestDeep s d v)

/-- DOMAIN_ON_REQUEST. -/
def execDomainOnRequest (who : Who) (d : Nat) (s : State) : Host.Outcome State Fault Refusal := guardWf (decide (d < 128)) (domainWrite who d 0 s)
/-- DOMAIN_RETENTION_REQUEST. -/
def execDomainRetentionRequest (who : Who) (d : Nat) (s : State) : Host.Outcome State Fault Refusal :=
  guardWf (decide (d < 128)) (domainWrite who d 1 s)
/-- DOMAIN_OFF_REQUEST. -/
def execDomainOffRequest (who : Who) (d : Nat) (s : State) : Host.Outcome State Fault Refusal := guardWf (decide (d < 128)) (domainWrite who d 2 s)

/-! ### Ends of entries and wakes (R495 to R499) -/

/-- The 4 KiB blocks of a stack read zero (R204). -/
def zeroStack (s : State) (k : Nat) : State :=
  let inn (a : Nat) : Bool := decide (a < nearEnd) && a / 0x12_0000_0000 = k / 2 && a % 0x12_0000_0000 / 4096 % 2 = k % 2
  let m : MemSt := { s.mem with cells := s.mem.cells.filter (fun c => !inn c.1), poison := s.mem.poison.filter (fun l => !inn (l * 64)) }
  { s with mem := m }

/-- What a domain loses off (Table 1 of 18). -/
def offLoss (s : State) (d : Nat) : State :=
  if d < 40 then
    let s := upto 20 (fun i s => zeroRange s (scratchBase + (20 * d + i) * 0x40_0000) 0x20_0000) (dropPending s d)
    setCon s d Consist.reset
  else if 0x30 ≤ d ∧ d < 0x38 then
    let n := d - 0x30
    let s := zeroRange s (stagingBase + n * 0x1000_0000) 0x300_0000
    let lost : Tab Sem := s.sems.filterMap fun x =>
      if semDie x.1 ≠ n then some x else if x.2.part = 0xFF then none else some (x.1, { Sem.reset with part := x.2.part })
    { setPool s n Pool.reset with sems := lost, casts := s.casts.filter fun c => conDie c.consist ≠ n }
  else if 0x40 ≤ d ∧ d < 0x50 then zeroStack s (d - 0x40)
  else if 0x50 ≤ d ∧ d < 0x58 then
    let g := d - 0x50
    let s := zeroRange s (farBase + g * 0x20_0000_0000) 0x20_0000_0000
    let gens := (List.range 32).foldl (fun t i => tmod 0 t (32 * g + i) (· + 1)) s.mem.farGen
    { s with mem := { s.mem with farGen := gens } }
  else if 0x60 ≤ d ∧ d < 0x68 then linkDown s (d - 0x60)
  else if d = 0x70 then
    let e0 := if bitOf (odN s kBrynqLinksUp) 0 then some s.now else s.link.error0
    let e1 := if bitOf (odN s kBrynqLinksUp) 1 then some s.now else s.link.error1
    odSet { s with link := { s.link with error0 := e0, error1 := e1 } } kBrynqLinksUp 0
  else if d = 0x71 then depotProgrammed s
  else s

/-- One domain completes its entry; a wake event that it met begins the wake at once (R497). -/
def endEntry (s : State) (d : Nat) : State :=
  let v := tget 0 s.pow.entering d
  let met := s.pow.wakeMet.contains d
  let s := if v = 2 then offLoss s d else if d = 0x71 then depotProgrammed s else s
  let s := setDom { s with pow := { s.pow with entering := tdel s.pow.entering d, wakeMet := setDel s.pow.wakeMet d } } d v
  if met then beginWake s d else s

/-- DOMAIN_ENTRY_END: a wake event that an abortable entry met after AP4 counts here. -/
def execDomainEntryEnd (d : Nat) (s : State) : Host.Outcome State Fault Refusal :=
  guardWf (decide (d < 128))
    (if domState s d ≠ 3 ∨ isMate s d then s
     else
       let late := abortable s && s.pow.wakeMet.contains d
       let s := bump (bump s kEntriesCompleted 1 none) kWakesDuringEntry (if late then 1 else 0) none
       (moved s d).foldl endEntry s)

/-- One domain completes its wake: on from retention, on with latched pads from off (R499). -/
def endWake (s : State) (d : Nat) : State :=
  let src := tget 0 s.pow.waking d
  setDom { s with pow := { s.pow with waking := tdel s.pow.waking d } } d (if src = 2 then 5 else 0)

/-- DOMAIN_WAKE_END: a contained domain's wake ends after its die's. -/
def execDomainWakeEnd (d : Nat) (s : State) : Host.Outcome State Fault Refusal :=
  guardWf (decide (d < 128))
    (let dieUp : Bool := match dieOf d with
       | some n => domState s n = 0 || domState s n = 5
       | none => true
     if domState s d ≠ 4 ∨ isMate s d ∨ !dieUp then s else (moved s d).foldl endWake s)

/-- ENTRY_ABANDONED (R498). -/
def execEntryAbandoned (d : Nat) (s : State) : Host.Outcome State Fault Refusal :=
  guardWf (decide (d < 128))
    (if domState s d ≠ 3 ∨ !s.pow.wakeMet.contains d ∨ !abortable s ∨ isMate s d then s
     else
       let undo (s : State) (d : Nat) : State :=
         setDom { s with pow := { s.pow with entering := tdel s.pow.entering d, wakeMet := setDel s.pow.wakeMet d } } d 0
       bump ((moved s d).foldl undo s) kEntriesAbandoned 1 none)

/-- PAD_RELEASE (R500). -/
def execPadRelease (who : Who) (d : Nat) (s : State) : Host.Outcome State Fault Refusal :=
  guardWf (decide (d < 256))
    (dictWrite s who kPadRelease (.num d)
      (fun s => if !domainRole s who d 0 then .denied else if isMate s d then .malformed else if !isDomain d ∨ domState s d ≠ 5 then .notReady else .ok)
      (fun s => bump ((moved s d).foldl (fun s d => setDom s d 0) s) kPadReleases 1 none))

/-! ### Caps (R501, R505, R506, R509) -/

/-- The airflow cap. -/
def airflowCap (s : State) : Nat := min 1800 (1800 * odN s kAirflowAssuredCfm / 170 / 50 * 50)

/-- `thermal_state` (R509): a trip stays until the next start-up. -/
def thermal (s : State) : State :=
  if odN s kThermalState = 4 then s
  else odSet s kThermalState
    (if s.pow.throttle then 3 else if s.pow.outside then 2 else if s.pow.inletCap < 1800 ∨ airflowCap s < 1800 then 1 else 0)

/-- The cap in force and `thermal_state` after a change. -/
def recap (s : State) : State :=
  thermal (odSet s kPowerCapEffective (min s.pow.capNow (min s.pow.inletCap (airflowCap s))))

/-- POWER_CAP_WRITE: acts at the next tick boundary. -/
def execPowerCapWrite (who : Who) (v : Nat) (s : State) : Host.Outcome State Fault Refusal :=
  guardWf (decide (v < 65536))
    (dictWrite s who kPowerCap (.num v) (fun _ => opOnly who (if v < 900 ∨ 1800 < v ∨ v % 50 ≠ 0 then .malformed else .ok))
      (fun s => odSet s kPowerCap v))

/-- AIRFLOW_WRITE. -/
def execAirflowWrite (who : Who) (v : Nat) (s : State) : Host.Outcome State Fault Refusal :=
  guardWf (decide (v < 65536))
    (dictWrite s who kAirflowAssuredCfm (.num v) (fun _ => opOnly who (if v < 120 ∨ 400 < v then .malformed else .ok))
      (fun s => recap (odSet s kAirflowAssuredCfm v)))

/-! ### The clock and the duty (R502, R503) -/

/-- Lowers the clock to at most f MHz and counts the steps. -/
def clockTo (s : State) (f : Nat) : State :=
  let c := odN s kClockNow
  if c ≤ f then s else bump (odSet s kClockNow f) kClockStepsDown ((c - f) / 100) none

/-- POWER_GUARD: the 100 µs mean exceeds the effective cap. -/
def execPowerGuard (draw : Nat) (s : State) : Host.Outcome State Fault Refusal :=
  .next (if odN s kPowerCapEffective < draw then bump (clockTo s (max 800 (odN s kClockNow - 200))) kGuardSteps 1 none else s)

/-- ARRAY_DUTY_ADJUST: the end of a 1 ms window with its mean draw. -/
def execArrayDutyAdjust (draw : Nat) (s : State) : Host.Outcome State Fault Refusal :=
  guardWf (decide (draw < 65536))
    (let d := odN s kArrayDuty
     let s := bump (odSet s kPowerDraw draw) kDutyLimitedMs (if d < 16 then 1 else 0) none
     let ms (s : State) (n : Nat) : State := { s with pow := { s.pow with lastMs := n } }
     if odN s kPowerCapEffective < draw then
       ms (if odN s kClockNow = 800 then odSet s kArrayDuty (max 4 (d - 1)) else s) 0
     else if d = 16 then ms s 0
     else if s.pow.lastMs = 9 then ms (odSet s kArrayDuty (d + 1)) 0
     else ms s (s.pow.lastMs + 1))

/-! ### Temperatures (R504 to R508) -/

/-- The largest whole number not above a finite FP32 value, and the smallest not below it. -/
def floorF32 (w : Nat) : Int := match decodeVal fmtFp32 w with
  | .fin sg m e =>
    let v : Int := if sg then -(m : Int) else m
    if 0 ≤ e then v * 2 ^ e.toNat else v / 2 ^ (-e).toNat
  | _ => 0
def ceilF32 (w : Nat) : Int := match decodeVal fmtFp32 w with
  | .fin sg m e =>
    let v : Int := if sg then -(m : Int) else m
    if 0 ≤ e then v * 2 ^ e.toNat else -(-v / 2 ^ (-e).toNat)
  | _ => 0

def isF32 (w : Nat) : Bool := w < 2 ^ 32 && (decodeVal fmtFp32 w).isFin

/-- A trip (R508): the partitions vote no, every domain but the always-on one goes off and is latched. -/
def trip (s : State) : State :=
  let s := s.parts.foldl (fun s x => castVote s x.1 0x0E) s
  let s := ((allDomains.filter (· ≠ 0x7F)).filter fun d => domState s d ≠ 2).foldl (fun s d => setDom (offLoss s d) d 2) s
  let s := { s with pow := { s.pow with entering := [], wakeMet := [], waking := [] } }
  bump (odSet (odSet s kThermalState 4) kBootState 3) kThermalTrips 1 none

/-- The throttle (R507): a step down each millisecond until the hottest die is below 97 °C, then a step up each 10 ms. -/
def throttleStep (s : State) (m : Int) : State :=
  let p := s.pow
  if 100 ≤ m ∨ (p.throttle ∧ 97 ≤ m) then
    let top := if p.throttle then min p.clock (odN s kClockNow) else odN s kClockNow
    let c := max 800 (top - 100)
    bump (clockTo { s with pow := { p with throttle := true, clock := c, riseMs := 0 } } c) kThermalThrottleMs 1 none
  else if p.throttle then
    let up := p.riseMs = 9
    let c := if up then min 1800 (p.clock + 100) else p.clock
    let p' := { p with clock := c, riseMs := if up then 0 else p.riseMs + 1, throttle := decide (c < 1800) }
    bump { s with pow := p' } kThermalThrottleMs 1 none
  else s

/-- THERMAL_SAMPLE: the junctions of the dies as FP32 words. -/
def execThermalSample (temps : List Nat) (t : Nat) (s : State) : Host.Outcome State Fault Refusal :=
  guardWf (temps ≠ [] && temps.all isF32)
    (let top := temps.foldl (fun m w => if (decodeVal fmtFp32 m).lt (decodeVal fmtFp32 w) then w else m) (lget 0 temps 0)
     let s := odSet (atTime s t) kDieTempMax top
     let m := floorF32 top
     if odN s kThermalState = 4 ∨ s.pow.stopped then s
     else
       let hot := if 110 ≤ m then s.pow.hot + 1 else 0
       let s := { s with pow := { s.pow with hot := hot } }
       if 2 ≤ hot then trip s else thermal (throttleStep s m))

/-- The inlet cap at an inlet temperature of c °C, rounded up (R505); 900 beyond the code's rating. -/
def inletCapAt (s : State) (c : Int) : Nat :=
  let code := odB s kOrderingCode
  let e : Bool := code.drop (code.length - 2) = [0x2D, 0x45]
  if c ≤ 35 then 1800 else if e ∧ c ≤ 45 then 1800 - 50 * (c - 35).toNat else 900

/-- The caps that an inlet can rise to. -/
def inletLevels : List Nat := (List.range 11).map fun i => 1800 - 50 * i

/-- INLET_SAMPLE: the cap falls at once; each higher cap whose threshold T stays 1 °C below is timed. -/
def execInletSample (temp t : Nat) (s : State) : Host.Outcome State Fault Refusal :=
  guardWf (isF32 temp)
    (let s := odSet (atTime s t) kInletTemp temp
     let c := ceilF32 temp
     let cap := inletCapAt s c
     let soon := inletCapAt s (c + 1)
     let since := inletLevels.foldl (fun (x : Tab Nat) l =>
       if l ≤ soon then (if tget 0 x l = 0 then tset 0 x l (s.now + 1) else x) else tdel x l) s.pow.inletBelow
     recap { s with pow := { s.pow with inletCap := min s.pow.inletCap cap, outside := cap = 900, inletBelow := since } })

/-- INLET_CAP_RISE: after 60 s at least 1 °C below its threshold a cap comes back. -/
def execInletCapRise (t : Nat) (s : State) : Host.Outcome State Fault Refusal :=
  let s := atTime s t
  let ok (l : Nat) : Bool := tget 0 s.pow.inletBelow l ≠ 0 && decide (tget 0 s.pow.inletBelow l + 60_000_000_000 ≤ s.now + 1)
  .next (match inletLevels.find? ok with
    | some l => if s.pow.inletCap < l then recap { s with pow := { s.pow with inletCap := l } } else s
    | none => s)

end Sys2Proof.Machine
end

