-- ==== Sys2Proof/Machine/Boot.lean ====
section
/-! DEFINITION. Start-up, the boot ledger and firmware update (R471 to R488), the discard of a hold (R411), input power (R536). -/

namespace Sys2Proof.Machine

/-! ### Checkpoints of the register book (R464) -/

/-- Appends a checkpoint entry. -/
def appendCheckpoint (s : State) : State :=
  let n := nextSerial s
  let prev := match s.book.lastCheckpoint with
    | some x => x
    | none => 2 ^ 64 - 1
  let s' := appendEntry s ⟨2, 3, 0xFF, 0xFF, 0, 0, 0, s.book.since, prev, fingerprint (odB s kBookPublicKey),
    shake256 (fit 1024 (odB s kMeasurementSlots)) 32⟩
  let s' := bump s' kBookCheckpoints 1 none
  { s' with book := { s'.book with since := 0, lastCheckpoint := some n, lastTime := s.now, unsigned := s'.book.unsigned ++ [n] } }

/-! ### A start-up begins (R448, R471) -/

/-- Objects that show what stands around the module, not a value it holds. -/
def physicalObject (key : Nat) : Bool := key = kVosfpPresent || key = kOsfpPresent || key = kVinVoltage

def odPersists (key : Nat) : Bool := match odRow key with
  | some r => r.persists
  | none => false

/-- Writes taken and not yet in force are values that persisting objects keep. -/
def settleWrites (s : State) : State :=
  let put (s : State) (l : Tab (Option OdVal)) : State := l.foldl (fun s y => match y.2 with
    | some v => odPut s y.1 v
    | none => s) s
  let s := s.parts.foldl (fun s x => put (put s x.2.step.deferred) x.2.watch.shadow) s
  let s := s.book.settings.foldl (fun s y => odPut s y.2.1 y.2.2) s
  s.hrtNext.foldl (fun s y => match y.2 with
    | some v => odSet s y.1 v
    | none => s) s

/-- Whether the steps of a start-up can run. -/
def booting (s : State) : Bool := odN s kBootState = 0 && !s.boot.inRecovery && !s.pow.stopped

/-- A start-up begins: every volatile content goes (R471). -/
def beginStart (s : State) (cause : Nat) : State :=
  let s := settleWrites s
  let gens := (List.range 256).foldl (fun t g => tmod 0 t g (· + 1)) s.mem.farGen
  let od := s.od.filter fun x => odPersists x.1 || physicalObject x.1
  let dep : DepotSt := { s.depot with shadow := [], waiting := [], window := [], buffer := [] }
  let x := s.boot
  let boot : BootSt := { BootSt.reset with failCounts := if x.clearLedger then [] else x.failCounts, watchdogs := x.watchdogs, flash := x.flash
                                           flashDigest := x.flashDigest, flashKey := x.flashKey, restoreDefaults := x.restoreDefaults, openStep := x.openStep
                                           fuseSpares := x.fuseSpares }
  let y := s.sec
  let sec : SecSt := { SecSt.reset with identity := y.identity, deviceKem := y.deviceKem, bookKey := y.bookKey, relock := y.relock
                                        tapOpen := y.tapOpen, romDigest := y.romDigest, firmwareKey := y.firmwareKey, rootKey := y.rootKey }
  let z := s.book
  let book : BookSt := { z with sessions := [], nextSession := 1, segs := [], settings := [] }
  let pow : PowSt := { PowSt.reset with lowPower := s.pow.lowPower, cageSince := s.pow.cageSince }
  let link : LinkSt := { LinkSt.reset with resetLow := s.link.resetLow, holdEpoch := s.link.holdEpoch }
  let n : State := { State.reset with pending := s.pending, now := s.now, free := s.free, out := s.out, od := od, depot := dep, boot := boot
                                      sec := sec, book := book, pow := pow, link := link, mem := { MemSt.reset with farGen := gens }
                                      time := { TimeSt.reset with rebased := s.time.rebased } }
  odSet n kBootCause cause

/-! ### The ledger (R479) -/

def entryOctets (e : LedgerEntry) : List Byte :=
  leBytes 32 (e.startUs / 1000 * 2 ^ 224 + min e.us 0xFFFF_FFFF * 2 ^ 192 + e.detail % 2 ^ 64 * 2 ^ 128 + e.step * 2 ^ 120 + e.mode * 2 ^ 112 +
    e.status * 2 ^ 104 + min e.failCount 255 * 2 ^ 96)

/-- Stacks that the start-up's tests found faulty. -/
def stacksFailed (s : State) : Nat :=
  (s.boot.entries.filter fun e => e.step = 5 || e.step = 8).foldl (fun m e => m ||| e.detail % 2 ^ 16) 0

/-- A record's header (Table 4 of 17). -/
def ledgerHeader (s : State) (totalUs outcome halt : Nat) : List Byte :=
  let l := s.boot.entries
  let (v, sv) := match s.boot.flash with
    | some h => (h.version, h.securityVersion)
    | none => (0, 0)
  let ran (st : Nat) : Bool := l.any fun e => e.step = st && e.mode ≠ 2
  let flags := (if s.boot.unclean then 1 else 0) + (if s.boot.unclean && ran 9 then 2 else 0) + (if l.any fun e => e.mode ≠ 0 then 4 else 0) +
    (if odN s kDebugState = 0 then 0 else 8)
  shake256 (l.flatMap entryOctets) 32 ++
  leBytes 32 (flags + odN s kAvailableConsists * 2 ^ 8 + l.length * 2 ^ 16 + halt * 2 ^ 24 + outcome * 2 ^ 32 + odN s kBootCause * 2 ^ 40 +
    stacksFailed s * 2 ^ 48 + odN s kFarChannelFailed * 2 ^ 64 + totalUs / 1000 % 2 ^ 32 * 2 ^ 128 + sv * 2 ^ 160 + v * 2 ^ 192 +
    odN s kBootCount * 2 ^ 224)

/-- A header that is not yet stored. -/
def emptyHeader : List Byte := leBytes 64 (0xFF * 2 ^ 280)

/-- Stores the newest record with a header. -/
def putRecord (s : State) (hdr : List Byte) : State := odPut s (kLedgerRecord 1) (.octets (hdr ++ s.boot.entries.flatMap entryOctets))

/-- The header of an unfinished record reads halted at the last step begun. -/
def closeOld (s : State) : State := match s.boot.openStep with
  | none => s
  | some st =>
    let old := odB s (kLedgerRecord 1)
    let n := leNat (old.take 64)
    let n := n - bits n 280 16 * 2 ^ 280 + (2 * 2 ^ 288 + st * 2 ^ 280)
    odPut s (kLedgerRecord 1) (.octets (leBytes 64 n ++ old.drop 64))

/-- Opens a record: the earlier ones move one place on, the oldest of 16 goes. -/
def openRecord (s : State) : State :=
  let s := closeOld s
  let s := ((List.range 15).reverse).foldl (fun s i => match odVal s (kLedgerRecord (i + 1)) with
    | some v => odPut s (kLedgerRecord (i + 2)) v
    | none => s) s
  let s := putRecord s emptyHeader
  { s with boot := { s.boot with openStep := some 1 } }

/-- The record's header is stored and slot 7 extended. -/
def closeRecord (s : State) (endUs outcome halt : Nat) : State :=
  let h := ledgerHeader s endUs outcome halt
  let s := measure (putRecord s h) 7 h
  { s with boot := { s.boot with openStep := none } }

/-! ### The steps (R473 to R478) -/

/-- Limits of Table 2 of 17 in microseconds. -/
def stepLimit (i : Nat) : Nat :=
  lget 0 [1_000_000, 500_000, 1_000_000, 200_000, 200_000, 1_000_000, 1_000_000, 1_000_000, 6_000_000, 10_000_000, 3_000_000, 2_000_000,
    100_000, 100_000] i

/-- When step i starts, in microseconds from the start of step 0. -/
def stepStart (s : State) (i : Nat) : Nat :=
  let fin (j : Nat) : Nat := match s.boot.entries.find? fun e => e.step = j with
    | some e => e.startUs + e.us
    | none => 0
  let after : List Nat := match i with
    | 0 => [] | 6 => [4] | 7 => [5, 6] | 9 => [7] | 10 => [7] | 11 => [7] | 12 => [8, 9, 10, 11] | n => [n - 1]
  (after.map fin).foldl max 0

/-- Why the image in flash does not start (R432, R480); `none`: it does. -/
def imageRefused (s : State) : Option Status := match s.boot.flash with
  | none => some .malformed
  | some h => if s.boot.flashKey ≠ s.sec.firmwareKey then some .authFail else if h.securityVersion < odN s kFwMinSecurityVersion then some .denied else none

/-- The objects of a row of the dictionary: index and subindex as one number, and type. -/
def rowKeys (r : OdRow) : List (Nat × OdTy) :=
  (List.range r.count).flatMap fun i => (List.range (r.hi + 1 - r.lo)).map fun j => ((r.base + i) * 256 + r.lo + j, r.ty)

/-- Objects in index order. -/
def inOrder (l : List (Nat × OdTy)) : List (Nat × OdTy) :=
  l.foldl (fun a x => a.takeWhile (·.1 < x.1) ++ x :: a.dropWhile (·.1 < x.1)) []

/-- Every persisting object as it stands, in index order (slot 6). -/
def persistedOctets (s : State) : List Byte :=
  (inOrder ((odTable.filter (·.persists)).flatMap rowKeys)).flatMap fun x => match odVal s x.1 with
    | some v => valOctets x.2 v
    | none => []

/-- Objects whose default is the value set at manufacture, or differs between the ordering codes (R1, R3): a return to defaults
leaves them as they are. -/
def madeKey (key : Nat) : Bool :=
  key = kOrderingCode || key = kModuleSerial || key = kDepotRawBytes || key = kDepotLogicalBlocks || key = kDepotEnduranceBytes || key = kMgmtMac ||
  (List.range 8).any (fun n => key = kMacAddress n) || key = kBookPublicKey || key = kBookKeyEndorsement || key = kIdentityChain ||
  key = kIdentityFingerprint || key = kDeviceKemPublicKey || key = kServiceKey

/-- Whether a damaged or restored object goes back to a default that the table gives. -/
def canClear (key : Nat) : Bool := odPersists key && !madeKey key

/-- Spare cores of a die that the fuses have substituted, at most 4 (R28). -/
def fusedSpares (s : State) (die : Nat) : Nat := min 4 (tget 0 s.boot.fuseSpares die)

/-- `spares_used` from one count per die (R30). -/
def sparesWord (l : List Nat) : Nat := (l.zipIdx.map fun x => x.1 * 2 ^ (4 * x.2)).foldl (· + ·) 0

/-- Step 0x01: what is loaded, restored, measured and counted. -/
def dictLoad (s : State) (e : BootEnv) : State :=
  let keep (key : Nat) : Bool := !s.boot.restoreDefaults || key / 256 = 0x6000 || key / 256 = 0x1030 || !canClear key
  let s := { s with od := s.od.filter fun x => keep x.1, boot := { s.boot with restoreDefaults := false } }
  let s := (e.badObjects.filter canClear).foldl odClear s
  let s := odSet s kSparesUsed (sparesWord ((List.range 8).map (fusedSpares s)))
  let s := if s.sec.relock then odSet { s with sec := { s.sec with relock := false, tapOpen := false } } kDebugState 0 else s
  -- the request for a certificate is there only while the module stands opened (R442)
  let s := if odN s kDebugState = 0 then odClear s kReprovisionCsr else s
  let s := match s.boot.flash with
    | some h => odSet (odSet s kFwVersion h.version) kFwSecurityVersion h.securityVersion
    | none => s
  let s := odPut s kFwImageDigest (.octets s.boot.flashDigest)
  let s := odSet s kBootCount (odN s kBootCount + 1)
  let s := openRecord s
  let s := [2, 3, 4].foldl (fun s i => measure s i (lget [] e.components i)) s
  let s := measure (measureLife s) 6 (persistedOctets s)
  let (s, ch) := freshOctets s 18 32
  recap { s with sec := { s.sec with tapChallenge := ch }, pow := { s.pow with capNow := odN s kPowerCap } }

/-- Regions of dies that are not mapped (R224). -/
def failRegions (s : State) (dies : Nat) : State := odSet s kNearRegionFaultMap (odN s kNearRegionFaultMap ||| dies)

/-- Consists that cannot be filled: failed cores take the spares that the fuses have left, consist by consist (R28, R30); and the
die's substitutions by fuse and at start-up. -/
def unfilled (s : State) (e : BootEnv) (die : Nat) : List Nat × Nat :=
  let spare := 4 - fusedSpares s die - lget 0 e.failedSpares die
  let (out, left) := (List.range 5).foldl (fun (x : List Nat × Nat) i =>
    let k := 5 * die + i
    let f := lget 0 e.failedCores k
    if f ≤ x.2 then (x.1, x.2 - f) else (x.1 ++ [k], x.2)) ([], spare)
  (out, fusedSpares s die + (spare - left))

/-- Consists go unavailable; their domains stay off. -/
def loseConsists (s : State) (ks : List Nat) : State :=
  let m := ks.foldl bitClr (odN s kConsistAvailableMap)
  let s := odSet (odSet s kConsistAvailableMap m) kAvailableConsists (popCount 40 m)
  ks.foldl (fun s k => setDom s k 2) s

/-- Channels fail (R213). -/
def failChannels (s : State) (m : Nat) : State :=
  let all := odN s kFarChannelFailed ||| m
  let groups := ((List.range 8).filter fun g => farProtected s g && bits all (8 * g) 8 ≠ 0).foldl bitSet 0
  odSet (odSet s kFarChannelFailed all) kFarDegradedGroups groups

/-- The dies of a set of stacks. -/
def diesOf (m : Nat) : Nat := ((List.range 8).filter fun n => bits m (2 * n) 2 ≠ 0).foldl bitSet 0

/-- The memory objects that follow from what is mapped. -/
def capacities (s : State) : State :=
  let near := (8 - popCount 8 (odN s kNearRegionFaultMap)) * 0x12_0000_0000
  let far := ((List.range 8).map fun g => if farProtected s g then 0x1C_0000_0000 else 0x20_0000_0000).foldl (· + ·) 0
  freeCounts (odSet (odSet s kNearCapacity near) kFarCapacity far)

/-- What a step that did not fail does, and the parts that it fenced. -/
def stepWork (s : State) (e : BootEnv) (i mode fenced : Nat) : State × Nat :=
  match i with
  | 0 => (measure (extendSlot (bump s kStartups 1 none) 0 s.sec.romDigest) 1 (lget [] e.components 1), 0)
  | 1 => (dictLoad s e, (e.badObjects.filter odPersists).length)
  | 2 => (appendCheckpoint (appendEntry s ⟨3, 3, 0xFF, 0xFF, 0, 0, 0, 0, odN s kBootCount, [], zeros 32⟩), 0)
  | 3 =>
    let ds := bitList 8 fenced
    let s := ds.foldl (fun s n => setDom (setDom (setDom s (0x30 + n) 2) (0x40 + 2 * n) 2) (0x41 + 2 * n) 2) s
    (failRegions (loseConsists s (ds.flatMap fun n => (List.range 5).map fun j => 5 * n + j)) fenced,
      (ds.map fun n => 0x1F * 2 ^ (5 * n)).foldl (· + ·) 0)
  | 4 => (s, fenced)
  | 5 => (failRegions s (diesOf fenced), fenced)
  | 6 => (failChannels (odSet s kFarParityActive (odN s kFarParityMap)) fenced, fenced)
  | 7 =>
    let r := (List.range 8).map fun n => unfilled s e n
    let lost := (r.flatMap fun x => x.1)
    (loseConsists (odSet s kSparesUsed (sparesWord (r.map fun x => x.2))) lost, lost.foldl bitSet 0)
  | 8 => if mode = 1 then (capacities s, 0) else (capacities (failChannels (failRegions s (diesOf fenced)) e.memChannels), fenced)
  | 9 =>
    let gs := ((s.depot.mapped.map fun b => b / 65536).eraseDups).filter fun q => !s.depot.preserved.any fun x => x.1 = q
    let s := gs.foldl depotDiscard s
    (freeCounts (preservedCount { s with boot := { s.boot with unclean := e.unclean } }), 0)
  | 10 =>
    let s := odSet s kCageModeActive (odN s kCageMode)
    (((List.range 8).filter fun n => !bitOf fenced (n / 2)).foldl linkUp s, fenced)
  | 11 => (odSet s kBrynqLinksUp (3 - fenced % 4), fenced)
  | 12 =>
    let s := setCyclesPerTick (odSet s kTickCycles (odN s kTickCyclesNext))
    ({ s with time := { s.time with tick := (tickAt s (moduleTime s)).getD 0 } }, 0)
  | _ => (s, 0)

/-- Steps with an alternate (Table 3 of 17), and those whose failure halts or starts the module again. -/
def hasAlternate (i : Nat) : Bool := i = 4 || i = 8 || i = 9
def haltsOn (i : Nat) : Bool := i = 1 || (3 ≤ i && i ≤ 7) || i = 12

/-- The effect of a failure at this start-up where it goes on. -/
def stepLoss (s : State) (i : Nat) : State :=
  match i with
  | 8 => capacities s
  | 9 => { s with boot := { s.boot with depotOffline := true } }
  | 10 => (List.range 8).foldl linkDown { s with boot := { s.boot with portsOff := true } }
  | 11 => odSet { s with boot := { s.boot with noHost := true } } kBrynqLinksUp 0
  | _ => s

/-- The module halts at step i (R478). -/
def haltAt (s : State) (i endUs : Nat) : State := closeRecord (odSet s kBootState 3) endUs 2 i

/-- A watchdog start-up, or a halt after three in a row (R474). -/
def watchdog (s : State) (i endUs : Nat) : State :=
  if 3 ≤ s.boot.watchdogs then haltAt s i endUs
  else bump (beginStart { s with boot := { s.boot with watchdogs := s.boot.watchdogs + 1 } } 5) kWatchdogStartups 1 none

/-- The end of the last step: the outcome, `boot_state`, the anti-rollback level (R481). -/
def startDone (s : State) (endUs : Nat) : State :=
  let degraded := s.boot.entries.any fun e => e.status ≠ 0 || e.mode ≠ 0
  let s := closeRecord s endUs (if degraded then 1 else 0) 0xFF
  let s := odSet s kFwMinSecurityVersion (max (odN s kFwMinSecurityVersion) (odN s kFwSecurityVersion))
  odSet { s with boot := { s.boot with watchdogs := 0 } } kBootState (if degraded then 2 else 1)

/-- Runs the step that comes next to its end. -/
def runStep (e : BootEnv) (f : StepFinding) (s : State) : State :=
  let i := s.boot.entries.length
  let cnt := tget 0 s.boot.failCounts i
  let mode := if 1 ≤ cnt ∧ hasAlternate i then (if i = 9 then 2 else 1) else 0
  let start := stepStart s i
  -- step 0x0B waits while the host reset input is asserted, up to its limit (R475)
  let late := decide (stepLimit i < f.us) || (i = 11 && s.link.resetLow)
  let us := if mode = 2 then 0 else if late then stepLimit i else f.us
  let fail : Option Status := if mode = 2 then none else if late then some .timeout
    else match f.fail with
      | some st => some st
      | none => if i = 0 then imageRefused s else none
  let s := odSet s kBootStep i
  let (s, detail) := match fail with
    | some _ => (if i = 1 then openRecord s else s, f.fenced)
    | none => if mode = 2 then (stepLoss s i, 0) else stepWork s e i mode f.fenced
  let partial' := detail ≠ 0 || (i = 7 && e.failedCores.any (· ≠ 0)) || (i = 8 && mode = 0 && e.memChannels ≠ 0)
  let status := match fail with
    | some st => stCode st
    | none => if mode = 2 then 0 else if partial' then 1 else 0
  let cnt' := match fail with
    | some _ => min 255 (cnt + 1)
    | none => if mode = 0 then 0 else cnt
  let ent : LedgerEntry := ⟨start, us, detail, i, mode, status, cnt'⟩
  let s := { s with boot := { s.boot with entries := s.boot.entries ++ [ent], failCounts := tset 0 s.boot.failCounts i cnt'
                                          openStep := s.boot.openStep.map fun _ => min 13 (i + 1) } }
  let s := bump (bump s kAlternatesRun (if mode = 0 then 0 else 1) none) kStepsPartial (if status = 1 then 1 else 0) none
  let s := if 1 ≤ i then putRecord s ((odB s (kLedgerRecord 1)).take 64) else s
  match fail with
  | none => if i = 13 then startDone s (start + us) else s
  | some _ =>
    if i = 0 then
      { s with boot := { s.boot with inRecovery := true, recoveryState := 0, recoveryStatus := 0, recoveryLength := 0, entries := [] } }
    else if i = 2 ∨ i = 13 then watchdog s i (start + us)
    else if haltsOn i then haltAt s i (start + us)
    else stepLoss s i

/-- Runs steps while the same start-up goes on. -/
def runSteps (e : BootEnv) : List StepFinding → State → State
  | [], s => s
  | f :: r, s =>
    if booting s ∧ s.boot.entries.length < 14 then
      let s' := runStep e f s
      if s'.boot.entries.length = s.boot.entries.length + 1 then runSteps e r s' else s'
    else s

def findingOk (f : StepFinding) : Bool := f.fenced < 2 ^ 64

/-- START_UP: the steps that follow, as many as there are findings. -/
def execStartUp (e : BootEnv) (s : State) : Host.Outcome State Fault Refusal :=
  guardWf (e.findings.all findingOk && decide (e.failedCores.length = 40 ∧ e.failedSpares.length = 8 ∧ e.memChannels < 2 ^ 64) &&
      e.failedSpares.all (· ≤ 4) && decide (e.components.length = 5))
    (runSteps e e.findings (atTime s e.t))

/-- STARTUP_STEP_TIMEOUT (R474). -/
def execStartupStepTimeout (step t : Nat) (s : State) : Host.Outcome State Fault Refusal :=
  guardWf (decide (step < 14))
    (let s := atTime s t
     if booting s ∧ s.boot.entries.length = step then
       runStep ⟨s.now, [], [], [], 0, false, [], []⟩ ⟨some .timeout, 0, stepLimit step⟩ s
     else s)

/-! ### What raises a start-up (R471, R472, R411) -/

/-- Partitions that are not free. -/
def anyPart (s : State) : Bool := (List.range 40).any fun p => odN s (kPartState p) ≠ 0

/-- The checks of a restart and of an activation (R472). -/
def restartCheck (s : State) (w : Who) (more : List Status) : Status :=
  opOnly w (lowestStatus ([if odN s kHoldState ≠ 0 then .notReady else .ok, if anyPart s then .denied else .ok] ++ more))

/-- MODULE_RESTART. -/
def execModuleRestart (who : Who) (s : State) : Host.Outcome State Fault Refusal :=
  .next (dictWrite s who kModuleRestart (.num 1) (fun s => restartCheck s who []) (fun s => beginStart s 2))

/-- MODULE_RESTART_FORCE: every granted partition is force-released first. -/
def execModuleRestartForce (who : Who) (s : State) : Host.Outcome State Fault Refusal :=
  .next (dictWrite s who kModuleRestart (.num 2) (fun _ => opOnly who .ok)
    (fun s => beginStart (((s.parts.filter fun x => x.2.grant ≠ none).map fun x => x.1).foldl forceRelease s) 2))

/-- LEDGER_CLEAR. -/
def execLedgerClear (who : Who) (v : Nat) (s : State) : Host.Outcome State Fault Refusal :=
  guardWf (decide (v < 256))
    (dictWrite s who kLedgerClear (.num v) (fun _ => opOnly who (if v ≠ 1 then .malformed else .ok))
      (fun s => { s with boot := { s.boot with clearLedger := true } }))

/-- HOLD_DISCARD (R411): in any hold state. -/
def execHoldDiscard (s : State) : Host.Outcome State Fault Refusal :=
  .next (if s.boot.inRecovery ∨ s.pow.stopped then s else beginStart s 3)

/-- RESTORE_DEFAULTS (R448). -/
def execRestoreDefaults (who : Who) (v : Nat) (s : State) : Host.Outcome State Fault Refusal :=
  guardWf (decide (v < 256))
    (dictWrite s who kRestoreDefaults (.num v) (fun _ => if who.role ≠ .service then .denied else if v ≠ 1 then .malformed else .ok)
      (fun s => { s with boot := { s.boot with restoreDefaults := true } }))

/-! ### The firmware image (R480 to R487) -/

/-- The header in the first 64 octets of an image. -/
def parseFw (b : List Byte) : FwHeader :=
  let n := leNat (fit 64 b)
  { magic := bits n 480 32, imageLength := bits n 448 32, version := bits n 416 32, securityVersion := bits n 384 32
    part := (fit 64 b).drop 32 |>.take 16, loaderLength := bits n 224 32, sigboxLength := bits n 192 32, firmwareLength := bits n 160 32
    phrasebookLength := bits n 128 32, reserved := bits n 16 112, format := bits n 0 16 }

/-- "HSK-9680", zero-padded. -/
def fwPart : List Byte := fit 16 (ascii [72, 83, 75, 45, 57, 54, 56, 48])

/-- The checks of R483 on an image of `have'` octets, of which none is missing when `whole`; the first failure decides. -/
def fwCheck (s : State) (h : FwHeader) (whole sigOk : Bool) : Status :=
  if !whole ∨ h.magic ≠ 0x46534B48 ∨ h.format ≠ 1 ∨ h.reserved ≠ 0 ∨ 67_108_864 < h.imageLength ∨
    64 + h.loaderLength + h.sigboxLength + h.firmwareLength + h.phrasebookLength + 3309 ≠ h.imageLength then .malformed
  else if h.part ≠ fwPart then .malformed
  else if !sigOk then .authFail
  else if h.securityVersion < odN s kFwMinSecurityVersion then .denied
  else .ok

/-- What refuses a chunk (R482, R484). -/
def chunkCheck (s : State) (bytes : List Byte) : Status :=
  let (off, len) := (leNat (bytes.take 4), leNat ((bytes.drop 4).take 4))
  lowestStatus [if s.boot.committing then .notReady else .ok,
    if bytes.length < 9 ∨ 32776 < bytes.length ∨ off % 32768 ≠ 0 ∨ len < off + (bytes.length - 8) ∨
      (off ≠ 0 ∧ s.boot.candLength ≠ 0 ∧ s.boot.candLength ≠ len) then .malformed else .ok]

/-- FW_CHUNK: a chunk at offset 0 starts a new candidate. -/
def execFwChunk (who : Who) (bytes : List Byte) (s : State) : Host.Outcome State Fault Refusal :=
  .next (dictWrite s who kFwChunk (.octets bytes) (fun s => opOnly who (chunkCheck s bytes))
    (fun s =>
      let (off, len) := (leNat (bytes.take 4), leNat ((bytes.drop 4).take 4))
      let s := if off = 0 then dropCandidate s else s
      let c := tset [] s.boot.candChunks (off / 32768) (bytes.drop 8)
      odSet { s with boot := { s.boot with candLength := len, candChunks := c } } kFwCandidateState 1))

/-- Whether every octet of the candidate has come. -/
def candWhole (s : State) : Bool :=
  let n := s.boot.candLength
  n ≠ 0 && (List.range (ceilDiv n 32768)).all fun i => (tget [] s.boot.candChunks i).length = min 32768 (n - 32768 * i)

def candBytes (s : State) : List Byte := s.boot.candChunks.flatMap fun x => x.2

/-- FW_VERIFY: `sigKey` is the public key under which the image's signature verifies, if any does; its fingerprint must be the fused one
(R432). -/
def execFwVerify (who : Who) (sigKey : Option (List Byte)) (s : State) : Host.Outcome State Fault Refusal :=
  .next (dictWrite s who kFwControl (.num 1) (fun s => opOnly who (if s.boot.committing then .notReady else .ok))
    (fun s =>
      let h := parseFw (candBytes s)
      let st := fwCheck s h (candWhole s && h.imageLength = s.boot.candLength) (fusedKey s.sec.firmwareKey sigKey)
      let s := odSet s kFwCandidateStatus (stCode st)
      if st = .ok then
        let s := { s with boot := { s.boot with candHeader := some h, candDigest := shake256 (candBytes s) 64, candKey := s.sec.firmwareKey } }
        odSet (odSet s kFwCandidateState 2) kFwCandidateVersion h.version
      else bump (odSet s kFwCandidateState 5) kFwRefusals 1 none))

/-- FW_COMMIT: the header's block is erased first, so the flash holds no startable image until the end (R485). -/
def execFwCommit (who : Who) (s : State) : Host.Outcome State Fault Refusal :=
  .next (dictWrite s who kFwControl (.num 2)
    (fun s => opOnly who (if s.boot.committing ∨ odN s kFwCandidateState ≠ 2 ∨ odN s kBootState = 0 ∨ holding s then .notReady else .ok))
    (fun s => odSet { s with boot := { s.boot with committing := true, commitRetry := false, flash := none } } kFwCandidateState 3))

/-- FW_COMMIT_END: `ok` says that the read-back matches; a first mismatch programs the area once more. -/
def execFwCommitEnd (ok : Bool) (s : State) : Host.Outcome State Fault Refusal :=
  .next (if !s.boot.committing then s
    else if ok then
      let b :=
        { s.boot with
          committing := false
          flash := s.boot.candHeader
          flashDigest := s.boot.candDigest
          flashKey := s.boot.candKey }
      bump (odPut (odSet (odSet { s with boot := b } kFwCandidateState 4) kFwCandidateStatus 0) kFwImageDigest (.octets b.flashDigest)) kFwCommits 1 none
    else if !s.boot.commitRetry then { s with boot := { s.boot with commitRetry := true } }
    else bump (odSet (odSet { s with boot := { s.boot with committing := false } } kFwCandidateState 5) kFwCandidateStatus 2) kFwRefusals 1 none)

/-- FW_ACTIVATE (R486). -/
def execFwActivate (who : Who) (s : State) : Host.Outcome State Fault Refusal :=
  .next (dictWrite s who kFwControl (.num 3)
    (fun s => restartCheck s who [if s.boot.committing ∨ odN s kFwCandidateState ≠ 4 then .notReady else .ok]) (fun s => beginStart s 4))

/-- FW_DROP. -/
def execFwDrop (who : Who) (s : State) : Host.Outcome State Fault Refusal :=
  .next (dictWrite s who kFwControl (.num 4) (fun s => opOnly who (if s.boot.committing then .notReady else .ok)) dropCandidate)

/-- RECOVERY_COMMAND (R487): the image in the recovery buffer, whose signature verifies under `sigKey`, if under any; `programmed` says that its commit succeeds. -/
def execRecoveryCommand (cmd : Nat) (sigKey : Option (List Byte)) (programmed : Bool) (s : State) : Host.Outcome State Fault Refusal :=
  guardWf (decide (cmd < 256))
    (if !s.boot.inRecovery ∨ cmd ≠ 1 then s
     else
       let n := s.boot.recoveryLength
       let img := (List.range n).map fun i => tget 0 s.boot.recBuf i
       let h := parseFw img
       let st := fwCheck s h (h.imageLength = n) (fusedKey s.sec.firmwareKey sigKey)
       let st := if st ≠ .ok then st else if programmed then .ok else .poisoned
       if st = .ok then
         let b := { s.boot with flash := some h, flashDigest := shake256 img 64, flashKey := s.sec.firmwareKey, inRecovery := false }
         bump (beginStart { s with boot := b } 6) kRecoveries 1 none
       else
         -- a commit that fails has erased the header (R484, R485)
         let flash := if st = .poisoned then none else s.boot.flash
         bump { s with boot := { s.boot with recoveryState := 4, recoveryStatus := stCode st, flash := flash } } kFwRefusals 1 none)

/-! ### Input power (R536) -/

/-- FP32 words of 39.0 and 36.0. -/
def vinStart : Nat := 0x421C0000
def vinLoss : Nat := 0x42100000

def f32Lt (a b : Nat) : Bool := (decodeVal fmtFp32 a).lt (decodeVal fmtFp32 b)

/-- VIN_START: the input has stayed above 39.0 V for 100 ms. -/
def execVinStart (v t : Nat) (s : State) : Host.Outcome State Fault Refusal :=
  guardWf (isF32 v)
    (let s := odSet (atTime s t) kVinVoltage v
     if s.pow.stopped ∧ f32Lt vinStart v then beginStart { s with pow := { s.pow with stopped := false } } 1 else s)

/-- VIN_LOSS: the input has stayed below 36.0 V for 50 µs; every domain but the always-on one and the depot goes off, the buffers
are programmed, the module stops. -/
def execVinLoss (v t : Nat) (s : State) : Host.Outcome State Fault Refusal :=
  guardWf (isF32 v)
    (let s := odSet (atTime s t) kVinVoltage v
     if s.pow.stopped ∨ !f32Lt v vinLoss then s
     else
       let ds := allDomains.filter fun d => d ≠ 0x7F && d ≠ 0x71 && domState s d ≠ 2
       let s := ds.foldl (fun s d => setDom (offLoss s d) d 2) s
       let s := { depotProgrammed s with pow := { s.pow with entering := [], wakeMet := [], waking := [], stopped := true } }
       bump (odSet s kBootState 0) kInputPowerLosses 1 none)

end Sys2Proof.Machine
end

