-- ==== Sys2Proof/Machine/Calls.lean ====
section
/-! DEFINITION. The phrasebook calls (Table 8 of 05): each is a verb of class control that names its routine. -/

namespace Sys2Proof.Machine

/-- ALL_REDUCE, routine 0x00 (R159). -/
def execAllReduce (h : VerbHdr) (c : CallOps) (s : State) : Host.Outcome State Fault Refusal := verb h (.call 0x00 c) s
/-- ALL_REDUCE_FREE, routine 0x01 (R159). -/
def execAllReduceFree (h : VerbHdr) (c : CallOps) (s : State) : Host.Outcome State Fault Refusal := verb h (.call 0x01 c) s
/-- REDUCE_SCATTER, routine 0x02 (R159). -/
def execReduceScatter (h : VerbHdr) (c : CallOps) (s : State) : Host.Outcome State Fault Refusal := verb h (.call 0x02 c) s
/-- ALL_GATHER, routine 0x03 (R159). -/
def execAllGather (h : VerbHdr) (c : CallOps) (s : State) : Host.Outcome State Fault Refusal := verb h (.call 0x03 c) s
/-- BROADCAST, routine 0x04 (R159). -/
def execBroadcast (h : VerbHdr) (c : CallOps) (s : State) : Host.Outcome State Fault Refusal := verb h (.call 0x04 c) s
/-- REDUCE_TO_ROOT, routine 0x05 (R159). -/
def execReduceToRoot (h : VerbHdr) (c : CallOps) (s : State) : Host.Outcome State Fault Refusal := verb h (.call 0x05 c) s
/-- ALL_TO_ALL, routine 0x06 (R159). -/
def execAllToAll (h : VerbHdr) (c : CallOps) (s : State) : Host.Outcome State Fault Refusal := verb h (.call 0x06 c) s
/-- MAX_REDUCE, routine 0x07 (R159). -/
def execMaxReduce (h : VerbHdr) (c : CallOps) (s : State) : Host.Outcome State Fault Refusal := verb h (.call 0x07 c) s
/-- CLUSTER_BARRIER, routine 0x08 (R159). -/
def execClusterBarrier (h : VerbHdr) (c : CallOps) (s : State) : Host.Outcome State Fault Refusal := verb h (.call 0x08 c) s
/-- GATHER_LAYER, routine 0x09 (R159). -/
def execGatherLayer (h : VerbHdr) (c : CallOps) (s : State) : Host.Outcome State Fault Refusal := verb h (.call 0x09 c) s
/-- DROP_LAYER, routine 0x0A (R159). -/
def execDropLayer (h : VerbHdr) (c : CallOps) (s : State) : Host.Outcome State Fault Refusal := verb h (.call 0x0A c) s
/-- SEND_ACTIVATIONS, routine 0x0B (R159). -/
def execSendActivations (h : VerbHdr) (c : CallOps) (s : State) : Host.Outcome State Fault Refusal := verb h (.call 0x0B c) s
/-- RECV_ACTIVATIONS, routine 0x0C (R159). -/
def execRecvActivations (h : VerbHdr) (c : CallOps) (s : State) : Host.Outcome State Fault Refusal := verb h (.call 0x0C c) s
/-- RING_EXCHANGE, routine 0x0D (R159). -/
def execRingExchange (h : VerbHdr) (c : CallOps) (s : State) : Host.Outcome State Fault Refusal := verb h (.call 0x0D c) s
/-- STAT_MERGE_ALL, routine 0x0E (R159). -/
def execStatMergeAll (h : VerbHdr) (c : CallOps) (s : State) : Host.Outcome State Fault Refusal := verb h (.call 0x0E c) s
/-- POINTS_CHANGE, routine 0x0F (R159). -/
def execPointsChange (h : VerbHdr) (c : CallOps) (s : State) : Host.Outcome State Fault Refusal := verb h (.call 0x0F c) s
/-- STAT_MERGE, routine 0x10 (R159). -/
def execStatMerge (h : VerbHdr) (c : CallOps) (s : State) : Host.Outcome State Fault Refusal := verb h (.call 0x10 c) s
/-- SOFTMAX_ROWS, routine 0x11 (R159). -/
def execSoftmaxRows (h : VerbHdr) (c : CallOps) (s : State) : Host.Outcome State Fault Refusal := verb h (.call 0x11 c) s
/-- LAYER_NORM, routine 0x12 (R159). -/
def execLayerNorm (h : VerbHdr) (c : CallOps) (s : State) : Host.Outcome State Fault Refusal := verb h (.call 0x12 c) s
/-- RMS_NORM, routine 0x13 (R159). -/
def execRmsNorm (h : VerbHdr) (c : CallOps) (s : State) : Host.Outcome State Fault Refusal := verb h (.call 0x13 c) s
/-- GELU, routine 0x14 (R159). -/
def execGelu (h : VerbHdr) (c : CallOps) (s : State) : Host.Outcome State Fault Refusal := verb h (.call 0x14 c) s
/-- SILU_GATE, routine 0x15 (R159). -/
def execSiluGate (h : VerbHdr) (c : CallOps) (s : State) : Host.Outcome State Fault Refusal := verb h (.call 0x15 c) s
/-- ROTARY_EMBED, routine 0x16 (R159). -/
def execRotaryEmbed (h : VerbHdr) (c : CallOps) (s : State) : Host.Outcome State Fault Refusal := verb h (.call 0x16 c) s
/-- DROPOUT_MASK, routine 0x17 (R159). -/
def execDropoutMask (h : VerbHdr) (c : CallOps) (s : State) : Host.Outcome State Fault Refusal := verb h (.call 0x17 c) s
/-- CROSS_ENTROPY, routine 0x18 (R159). -/
def execCrossEntropy (h : VerbHdr) (c : CallOps) (s : State) : Host.Outcome State Fault Refusal := verb h (.call 0x18 c) s
/-- LOSS_SUBMIT, routine 0x19 (R159). -/
def execLossSubmit (h : VerbHdr) (c : CallOps) (s : State) : Host.Outcome State Fault Refusal := verb h (.call 0x19 c) s
/-- GRAD_NORM, routine 0x1A (R159). -/
def execGradNorm (h : VerbHdr) (c : CallOps) (s : State) : Host.Outcome State Fault Refusal := verb h (.call 0x1A c) s
/-- GRAD_CLIP, routine 0x1B (R159). -/
def execGradClip (h : VerbHdr) (c : CallOps) (s : State) : Host.Outcome State Fault Refusal := verb h (.call 0x1B c) s
/-- SCALE_LAYER, routine 0x1C (R159). -/
def execScaleLayer (h : VerbHdr) (c : CallOps) (s : State) : Host.Outcome State Fault Refusal := verb h (.call 0x1C c) s
/-- HISTOGRAM_CLEAR, routine 0x1D (R159). -/
def execHistogramClear (h : VerbHdr) (c : CallOps) (s : State) : Host.Outcome State Fault Refusal := verb h (.call 0x1D c) s
/-- CONVERT, routine 0x1E (R159). -/
def execConvert (h : VerbHdr) (c : CallOps) (s : State) : Host.Outcome State Fault Refusal := verb h (.call 0x1E c) s
/-- TRANSPOSE, routine 0x1F (R159). -/
def execTranspose (h : VerbHdr) (c : CallOps) (s : State) : Host.Outcome State Fault Refusal := verb h (.call 0x1F c) s
/-- FILL, routine 0x20 (R159). -/
def execFill (h : VerbHdr) (c : CallOps) (s : State) : Host.Outcome State Fault Refusal := verb h (.call 0x20 c) s
/-- COPY, routine 0x21 (R159). -/
def execCopy (h : VerbHdr) (c : CallOps) (s : State) : Host.Outcome State Fault Refusal := verb h (.call 0x21 c) s
/-- GATHER_ROWS, routine 0x22 (R159). -/
def execGatherRows (h : VerbHdr) (c : CallOps) (s : State) : Host.Outcome State Fault Refusal := verb h (.call 0x22 c) s
/-- SCATTER_ADD_ROWS, routine 0x23 (R159). -/
def execScatterAddRows (h : VerbHdr) (c : CallOps) (s : State) : Host.Outcome State Fault Refusal := verb h (.call 0x23 c) s
/-- SPILL_TO_NEAR, routine 0x24 (R159). -/
def execSpillToNear (h : VerbHdr) (c : CallOps) (s : State) : Host.Outcome State Fault Refusal := verb h (.call 0x24 c) s
/-- RESUME_FROM_NEAR, routine 0x25 (R159). -/
def execResumeFromNear (h : VerbHdr) (c : CallOps) (s : State) : Host.Outcome State Fault Refusal := verb h (.call 0x25 c) s
/-- PREFETCH_LAYER, routine 0x26 (R159). -/
def execPrefetchLayer (h : VerbHdr) (c : CallOps) (s : State) : Host.Outcome State Fault Refusal := verb h (.call 0x26 c) s
/-- CHECKPOINT_WRITE, routine 0x27 (R159). -/
def execCheckpointWrite (h : VerbHdr) (c : CallOps) (s : State) : Host.Outcome State Fault Refusal := verb h (.call 0x27 c) s
/-- CHECKPOINT_READ, routine 0x28 (R159). -/
def execCheckpointRead (h : VerbHdr) (c : CallOps) (s : State) : Host.Outcome State Fault Refusal := verb h (.call 0x28 c) s
/-- DATASET_READ, routine 0x29 (R159). -/
def execDatasetRead (h : VerbHdr) (c : CallOps) (s : State) : Host.Outcome State Fault Refusal := verb h (.call 0x29 c) s
/-- WINDOW_REGISTER, routine 0x2A (R159). -/
def execWindowRegister (h : VerbHdr) (c : CallOps) (s : State) : Host.Outcome State Fault Refusal := verb h (.call 0x2A c) s
/-- WINDOW_RELEASE, routine 0x2B (R159). -/
def execWindowRelease (h : VerbHdr) (c : CallOps) (s : State) : Host.Outcome State Fault Refusal := verb h (.call 0x2B c) s
/-- UPDATE_ADAMW, routine 0x2C (R159). -/
def execUpdateAdamw (h : VerbHdr) (c : CallOps) (s : State) : Host.Outcome State Fault Refusal := verb h (.call 0x2C c) s
/-- UPDATE_ADAM_L2, routine 0x2D (R159). -/
def execUpdateAdamL2 (h : VerbHdr) (c : CallOps) (s : State) : Host.Outcome State Fault Refusal := verb h (.call 0x2D c) s
/-- UPDATE_SGD_MOMENTUM, routine 0x2E (R159). -/
def execUpdateSgdMomentum (h : VerbHdr) (c : CallOps) (s : State) : Host.Outcome State Fault Refusal := verb h (.call 0x2E c) s
/-- UPDATE_CUSTOM, routine 0x2F (R159). -/
def execUpdateCustom (h : VerbHdr) (c : CallOps) (s : State) : Host.Outcome State Fault Refusal := verb h (.call 0x2F c) s
/-- STEP_VOTE, routine 0x30 (R159). -/
def execStepVote (h : VerbHdr) (c : CallOps) (s : State) : Host.Outcome State Fault Refusal := verb h (.call 0x30 c) s
/-- STEP_COUNTER_READ, routine 0x31 (R159). -/
def execStepCounterRead (h : VerbHdr) (c : CallOps) (s : State) : Host.Outcome State Fault Refusal := verb h (.call 0x31 c) s
/-- FREEZE_SET, routine 0x32 (R159). -/
def execFreezeSet (h : VerbHdr) (c : CallOps) (s : State) : Host.Outcome State Fault Refusal := verb h (.call 0x32 c) s
/-- LAYER_SCALE_SET, routine 0x33 (R159). -/
def execLayerScaleSet (h : VerbHdr) (c : CallOps) (s : State) : Host.Outcome State Fault Refusal := verb h (.call 0x33 c) s
/-- ATTENTION_FWD, routine 0x36 (R159). -/
def execAttentionFwd (h : VerbHdr) (c : CallOps) (s : State) : Host.Outcome State Fault Refusal := verb h (.call 0x36 c) s
/-- ATTENTION_BWD, routine 0x37 (R159). -/
def execAttentionBwd (h : VerbHdr) (c : CallOps) (s : State) : Host.Outcome State Fault Refusal := verb h (.call 0x37 c) s
/-- CAUSAL_MASK, routine 0x38 (R159). -/
def execCausalMask (h : VerbHdr) (c : CallOps) (s : State) : Host.Outcome State Fault Refusal := verb h (.call 0x38 c) s
/-- ATTENTION_MERGE, routine 0x39 (R159). -/
def execAttentionMerge (h : VerbHdr) (c : CallOps) (s : State) : Host.Outcome State Fault Refusal := verb h (.call 0x39 c) s
/-- MATMUL_BIAS, routine 0x3A (R159). -/
def execMatmulBias (h : VerbHdr) (c : CallOps) (s : State) : Host.Outcome State Fault Refusal := verb h (.call 0x3A c) s
/-- MATMUL_FP32, routine 0x3B (R159). -/
def execMatmulFp32 (h : VerbHdr) (c : CallOps) (s : State) : Host.Outcome State Fault Refusal := verb h (.call 0x3B c) s
/-- TOPK_ROUTE, routine 0x3C (R159). -/
def execTopkRoute (h : VerbHdr) (c : CallOps) (s : State) : Host.Outcome State Fault Refusal := verb h (.call 0x3C c) s
/-- EXPERT_DISPATCH, routine 0x3D (R159). -/
def execExpertDispatch (h : VerbHdr) (c : CallOps) (s : State) : Host.Outcome State Fault Refusal := verb h (.call 0x3D c) s
/-- EXPERT_COMBINE, routine 0x3E (R159). -/
def execExpertCombine (h : VerbHdr) (c : CallOps) (s : State) : Host.Outcome State Fault Refusal := verb h (.call 0x3E c) s
/-- SELF_TEST, routine 0x3F (R159). -/
def execSelfTest (h : VerbHdr) (c : CallOps) (s : State) : Host.Outcome State Fault Refusal := verb h (.call 0x3F c) s

end Sys2Proof.Machine
end

