-- ==== Sys2Proof/Machine/Physical.lean ====
section
/-! DEFINITION. The tick boundary (R168, R502), control-state errors (R517), the OSFP cages and their supply (R538 to R540). -/

namespace Sys2Proof.Machine

/-! ### The tick boundary -/

/-- The highest clock step whose predicted draw fits the effective cap; 800 MHz where none does (R502). `draws` are the
predictions for 1800, 1700, …, 800 MHz. -/
def fitClock (s : State) (draws : List Nat) : Nat :=
  match (draws.zipIdx.find? fun x => x.1 ≤ odN s kPowerCapEffective) with
  | some x => 1800 - 100 * x.2
  | none => 800

/-- Chooses the clock of the coming tick: at most one step up, at most the throttle's ceiling. A throttle that no longer
lowers the clock has ended (R507). -/
def chooseClock (s : State) (draws : List Nat) : State :=
  let fit := fitClock s draws
  let done := s.pow.throttle && decide (fit ≤ s.pow.clock) && decide (floorF32 (odN s kDieTempMax) < 97)
  let s := if done then thermal { s with pow := { s.pow with throttle := false } } else s
  let top := if s.pow.throttle then min fit s.pow.clock else fit
  let c := odN s kClockNow
  setCyclesPerTick (if c < top then odSet s kClockNow (c + 100) else clockTo s top)

/-- QPs whose window is full at this boundary (R376): 256 frames unacknowledged, or a frame that the congestion window holds. -/
def sendWindowFull (v : Qp) : Bool :=
  let fl := inFlightFrames v
  decide (256 ≤ fl.length) || (fl ≠ [] && v.frames.any fun f => f.sent = none && !f.hdr.timetabled &&
    decide (v.cwnd < (fl.map (·.payload.length)).foldl (· + ·) 0 + f.payload.length))

/-- What a boundary finds of a QP's window. -/
def sampleWindow (now : Nat) (v : Qp) : Qp :=
  if !v.isOpen || !sendWindowFull v then { v with full := 0 }
  else { v with full := v.full + 1, fullSince := if v.full = 0 then now else v.fullSince }

def sampleWindows (s : State) : State := { s with qps := s.qps.map fun x => (x.1, sampleWindow s.now x.2) }

/-- Whether a partition holds timetabled frames for which no path can open in this tick's mapping (R370); one that ends beyond the tick
period cannot (R368). -/
def waitsForPath (s : State) (p : Nat) : Bool :=
  let shut := odN s kTickAligned = 0 || s.time.resumePaths || pointsHeld s p
  let none' (i : Nat) : Bool := shut || !(part s p).paths.any fun e => e.peer = i && e.length ≠ 0 && decide (e.start + e.length ≤ tickPeriod s)
  (s.ports.any fun x => x.2.txq.any fun f => f.part = p && f.timetabled && none' f.peer) ||
  (s.qps.any fun x => x.2.isOpen && x.2.part = p && x.2.frames.any fun f => f.sent = none && f.hdr.timetabled && none' x.2.peer)

/-- Paths that open in the new tick, and ticks without one (R369, R370). -/
def countPaths (s : State) : State :=
  (List.range 40).foldl (fun s p =>
    let open' := (part s p).paths.filter fun e => e.length ≠ 0 && pathOpens s p e (tickNow s)
    bump (bump s kHrtPathsOpened open'.length (some p)) kHrtNoPathWaitTicks (if waitsForPath s p then 1 else 0) (some p)) s

/-- Broadcasts that waited for a boundary go on once the module is not held (R410, R521). -/
def releaseBoundaries (s : State) : State :=
  if holding s then s
  else ((s.consists.filter fun x => x.2.hold = some .boundary).map fun x => x.1).foldl (fun s k => if live s k then resume k s else s) s

/-- One boundary: tick n begins. -/
def boundary (s : State) (n : Nat) (draws : List Nat) : State :=
  let old := tickNow s
  let s := { s with time := { s.time with tick := n, resumePaths := false } }
  let s := countOverruns s old ((n + 2 ^ 48 - old) % 2 ^ 48)
  let s := depotSwap (recap { s with pow := { s.pow with capNow := odN s kPowerCap } })
  let s := sampleWindows (chooseClock s draws)
  let s := countPaths (releaseBoundaries s)
  (s.consists.map fun x => x.1).foldl (fun s k => markWaits k s) s

/-- TICK_BOUNDARY: the tick number of R167 at time t, if a boundary has come since the last one. Swaps, decisions, slots and the
other events of a boundary are commands of their own. -/
def execTickBoundary (t : Nat) (draws : List Nat) (s : State) : Host.Outcome State Fault Refusal :=
  guardWf (decide (draws.length = 11))
    (let s := atTime s t
     match tickAt s (moduleTime s) with
     | none => s
     | some n =>
       let d := (n + 2 ^ 48 - s.time.tick % 2 ^ 48) % 2 ^ 48
       if d = 0 ∨ 2 ^ 47 ≤ d ∨ s.pow.stopped then s else boundary (bump s kTickBoundaries d none) n draws)

/-! ### Control-state errors (R517) -/

/-- The nouns that a verb writes, by its place in the verb's list. -/
def outNouns (s : State) (k : Nat) (e : VEntry) : List RNoun := match e.verb with
  | .matrix _ _ => [lgetN e.nouns 2, lgetN e.nouns 4]
  | .vector o => (kernelOuts (kernelOf s k o)).map fun i => lgetN e.nouns i
  | .stream _ => [lgetN e.nouns 1]
  | .atomicAdd _ => [lgetN e.nouns 1]
  | .call r _ => e.nouns.take (callOutputs r)
  | _ => []

/-- A scoreboard error: the part ends poisoned and writes its outputs poisoned. -/
def scoreboardError (s : State) (k core vi : Nat) : State :=
  match findVerb s k vi with
  | none => s
  | some e =>
    let outs := (outNouns s k e).filter fun r => r.handle ≠ 0
    let s := outs.foldl (fun s r => (writeElems s .porter k (20 * k + core) r ((coreIdx r.n core).map fun ix => (ix, none))).1) s
    endPart (modVerb s k vi fun x => { x with issued := bitSet x.issued core }) k vi core .poisoned

/-- A consist's control state is lost: it stops as a deadlock stops it, with a record of class 0. -/
def sequencerError (s : State) (k : Nat) : State :=
  if (con s k).pstate ≠ .running then s
  else
    let s := faultRecord s k (con s k).vi 0 0 0 noParts 0x02 none
    errorToken (stopConsist s k 0x0E) (conPart s k) 0x02

/-- CONTROL_STATE_ERROR. -/
def execControlStateError (f : CtrlFault) (s : State) : Host.Outcome State Fault Refusal :=
  match f with
  | .semaphore i => guardWf (decide (i < 65536))
      (let p := (semGet s i).part
       bump (castOwed (enginePost s i 0x02 0xFF (if p = 0xFF then none else some p)).1) kSramUncorrectable 1 (if p = 0xFF then none else some p))
  | .sequencer k => guardWf (decide (k < 40)) (bump (sequencerError s k) kSramUncorrectable 1 (conPart s k))
  | .scoreboard k core vi => guardWf (decide (k < 40 ∧ core < 20)) (bump (scoreboardError s k core vi) kSramUncorrectable 1 (conPart s k))

/-! ### The module's own outputs (Table 1 of 20, R534) -/

/-- `PWR_OK`: high while `boot_state` is 1 or 2. -/
def pwrOk (s : State) : Bool := !s.pow.stopped && (odN s kBootState = 1 || odN s kBootState = 2)

/-- `ALERT_N` asserted (low): `thermal_state` 2, 3 or 4, `boot_state` halted, or `hold_state` not 0 (R534). -/
def alertAsserted (s : State) : Bool :=
  !s.pow.stopped && ((2 ≤ odN s kThermalState && odN s kThermalState ≤ 4) || odN s kBootState = 3 || odN s kHoldState ≠ 0)

/-- `PRSNT_N` is tied to signal ground: the module is present. -/
def prsntN : Bool := false

/-! ### Cages (R538 to R540) -/

/-- The ports of a cage go down. -/
def cageDown (s : State) (c : Nat) : State := linkDown (linkDown s (2 * c)) (2 * c + 1)

/-- OSFP_PRESENT: the cage is held in low power. -/
def execOsfpPresent (c t : Nat) (s : State) : Host.Outcome State Fault Refusal :=
  guardWf (decide (c < 4))
    (let s := atTime s t
     if bitOf (odN s kOsfpPresent) c then s
     else
       let p := { s.pow with lowPower := bitSet s.pow.lowPower c, cageSince := tset 0 s.pow.cageSince c (s.now + 1) }
       { (odSet s kOsfpPresent (bitSet (odN s kOsfpPresent) c)) with pow := p })

/-- OSFP_LOW_POWER_RELEASE: 100 ms after the presence, if a port of the cage exists and is enabled. -/
def execOsfpLowPowerRelease (c t : Nat) (s : State) : Host.Outcome State Fault Refusal :=
  guardWf (decide (c < 4))
    (let s := atTime s t
     let use (n : Nat) : Bool := portExists s n && odN s (kPortEnable n) = 1
     if bitOf (odN s kOsfpPresent) c ∧ tget 0 s.pow.cageSince c + 100_000_000 ≤ s.now + 1 ∧ (use (2 * c) || use (2 * c + 1)) then
       { s with pow := { s.pow with lowPower := bitClr s.pow.lowPower c, cageSince := tdel s.pow.cageSince c } }
     else s)

/-- OSFP_PRESENCE_DEASSERT. -/
def execOsfpPresenceDeassert (c : Nat) (s : State) : Host.Outcome State Fault Refusal :=
  guardWf (decide (c < 4))
    (let s := cageDown (odSet s kOsfpPresent (bitClr (odN s kOsfpPresent) c)) c
     { s with pow := { s.pow with lowPower := bitClr s.pow.lowPower c, cageSince := tdel s.pow.cageSince c } })

/-- VOSFP_LOSS: every port is down. -/
def execVosfpLoss (s : State) : Host.Outcome State Fault Refusal := .next ((List.range 8).foldl linkDown (odSet s kVosfpPresent 0))

/-- VOSFP_RETURN. -/
def execVosfpReturn (s : State) : Host.Outcome State Fault Refusal := .next (odSet s kVosfpPresent 1)

end Sys2Proof.Machine
end

