-- ==== Sys2Proof/Machine/Dict.lean ====
section
/-! DEFINITION. The management protocol (R446, R450 to R461, R467, R469): who may read and write what, requests and sessions,
and the register book's checkpoints (R464) and export mark (R466). -/

namespace Sys2Proof.Machine

/-! ### Objects (R445, R446) -/

/-- `sub_count` of an index: the highest subindex under it, 0 for an index that is not implemented. The management port has the
counters of R347 alone. -/
def subCount (index : Nat) : Nat :=
  if index = 0xA0C8 then 0x15 else odTable.foldl (fun m r => if r.base ≤ index ∧ index < r.base + r.count then max m r.hi else m) 0

/-- Whether an object of the table is there: a port of the active cage modes (R325), a power domain (R490), a counter of the
management port (R347), the certificate request of an opened module (R442). -/
def present (s : State) (key : Nat) : Bool :=
  let index := key / 256
  let sub := key % 256
  (if sub = 0 then subCount index ≠ 0 else (odRow key).isSome) &&
  (if 0x4100 ≤ index ∧ index < 0x4108 then portExists s (index - 0x4100) else true) &&
  (if 0xA0C0 ≤ index ∧ index < 0xA0C8 then portExists s (index - 0xA0C0) else true) &&
  (if index = 0xA0C8 ∧ sub ≠ 0 then sub ≤ 7 || sub = 9 || sub = 0x15 else true) &&
  (if index = 0x2010 ∧ sub ≠ 0 then isDomain (sub - 1) else true) && (key ≠ kReprovisionCsr || odN s kDebugState = 2)

/-- The partition whose scope holds an index (R446). -/
def scopeOf (index : Nat) : Option Nat :=
  if index % 256 < 40 ∧ [0x42, 0x51, 0x61, 0x81, 0x82, 0x83].contains (index / 256) then some (index % 256) else none

/-! ### Roles (R423, R452, R469) -/

/-- The indices that every role may read whole: R170, R225, R268, R348, R383, R414, R488, R510, R544. -/
def everyRoleIndex (index : Nat) : Bool :=
  [0x1010, 0x2000, 0x2010, 0x3000, 0x3010, 0x3020, 0x3030, 0x4000, 0x5000, 0x7000, 0x9000, 0x9001, 0x9010].contains index ||
    (0x4100 ≤ index && index < 0x4108) || (0x4200 ≤ index && index < 0x4228)

/-- The objects of a partition that the service role may read (R383, R423). -/
def serviceScope (index sub : Nat) : Bool := index / 256 = 0x51 || (index / 256 = 0x61 && sub = 1)

/-- The counters that only some views show: R349, R415, R444, R470, R489, R511, R544. -/
def counterRole (w : Who) (index sub : Nat) : Bool :=
  match w.role with
  | .operator => true
  | .observer => true
  | .service => !(index = 0xA0E0 || index = 0xA0F0)
  | .tenant =>
    if index = 0xA010 ∨ index = 0xA020 ∨ index = 0xA0E0 ∨ index = 0xA0F0 ∨ index = 0xA100 ∨ index = 0xA0C8 then false
    else if 0xA0C0 ≤ index ∧ index < 0xA0C8 then sub ≤ 4 || sub = 0x11 || (0x19 ≤ sub && sub ≤ 0x21)
    else !(index = 0xA070 && 0x0C ≤ sub)

/-- Whether a role may read an object that is there. -/
def mayRead (w : Who) (key : Nat) : Bool :=
  let index := key / 256
  let sub := key % 256
  let readOnly : Bool := match odRow key with
    | some r => r.acc = .ro
    | none => true
  match w.role with
  | .operator => true
  | .observer => true
  | .service =>
    if 0xA000 ≤ index ∧ index < 0xA200 then counterRole w index sub
    else index = 0x1000 || index = 0x1030 || everyRoleIndex index ||
      (index = 0x6000 && [0x00, 0x01, 0x02, 0x03, 0x05, 0x06, 0x0A].contains sub) || (scopeOf index ≠ none && serviceScope index sub)
  | .tenant =>
    if 0xA000 ≤ index ∧ index < 0xA200 then counterRole w index sub
    else match scopeOf index with
      | some p => p = w.part || everyRoleIndex index
      | none => index = 0x1000 || (index = 0x1030 && readOnly) || everyRoleIndex index ||
          (index = 0x6000 && [0x00, 0x01, 0x02, 0x03, 0x05, 0x06].contains sub)

/-! ### Reading (R450, R453, R454) -/

/-- The view of a role. -/
def viewOf (w : Who) : Nat := match w.role with
  | .operator => 0
  | .observer => 1
  | .service => 2
  | .tenant => 3 + w.part

/-- The value that an object shows. -/
def shown (s : State) (key : Nat) : Option OdVal :=
  let index := key / 256
  let sub := key % 256
  let p := index % 256
  if sub = 0 then some (.num (subCount index))
  else if key = kTickNow then some (.num (tickNow s))
  else if index / 256 = 0x61 ∧ sub = 2 then some (.num (shadowOf s p).consists)
  else if index / 256 = 0x61 ∧ 3 ≤ sub ∧ sub ≤ 8 then some (.octets (leBytes (grantLen sub) (grantField (shadowOf s p) sub)))
  else if index / 256 = 0x42 ∧ sub = 1 then some (.num (shadowOf s p).vid)
  else if index / 256 = 0x42 ∧ sub = 2 then some (.num (shadowOf s p).portMap)
  else odVal s key

/-- The octets that a read in a role returns; none where the object is absent, write-only or out of the role's reach. -/
def readOctets (s : State) (w : Who) (key : Nat) : Option (List Byte) :=
  if !present s key ∨ !mayRead w key then none
  else match odRow key with
    | none => (shown s key).map (valOctets .u8)
    | some r => match r.acc with
      | .wo => none
      | .rc => some (valOctets r.ty (.num (ctrGet s key (viewOf w))))
      | _ => (shown s key).map (valOctets r.ty)

/-- A read of an RC object clears the reader's view. -/
def clearView (s : State) (w : Who) (key : Nat) : State :=
  match odRow key with
  | some r => if r.acc = .rc then { s with ctr := tset 0 s.ctr (key * 64 + viewOf w) 0 } else s
  | none => s

/-- The values of one index in subindex order, all at one instant; subindices that the role cannot read are left out. -/
def readWhole (s : State) (w : Who) (index : Nat) : State × Option (List Byte) :=
  let keys := ((List.range (subCount index)).map fun i => index * 256 + i + 1).filter fun k => (readOctets s w k).isSome
  if keys = [] then (s, none)
  else (keys.foldl (fun s k => clearView s w k) s, some (keys.flatMap fun k => (readOctets s w k).getD []))

/-! ### Sessions and mailboxes (R457, R459) -/

def session? (s : State) (k : Nat) : Option Session := (s.book.sessions.find? fun x => x.1 = k).map (·.2)

def putSession (s : State) (k : Nat) (v : Session) : State :=
  { s with book := { s.book with sessions := (s.book.sessions.filter fun x => x.1 ≠ k) ++ [(k, v)] } }

/-- `lmp_sessions_open` counts the sessions of the management port. -/
def countSessions (s : State) : State := closeSessions s fun _ => false

def dropSession (s : State) (k : Nat) : State :=
  countSessions { s with book := { s.book with sessions := s.book.sessions.filter fun x => x.1 ≠ k } }

/-- The number under which mailbox m keeps its responses and snapshots. -/
def mailKey (m : Nat) : Nat := 2 ^ 32 + m

/-- A mailbox before its first request: 0 the operator, 1 the observer, 2 + p the tenant of partition p. -/
def mailSession (m : Nat) : Session :=
  { role := if m = 0 then .operator else if m = 1 then .observer else .tenant, part := if m < 2 then 0xFF else m - 2, keyFp := []
    clientNonce := [], moduleNonce := [], secret := [], proved := true, last := 0, rxSeq := 0, txSeq := 0, answers := [], snapshots := [] }

/-- Who sends, for the register book (Table 8). -/
def whoOf (k : Nat) (v : Session) : Who :=
  { role := v.role, part := v.part, origin := if k < 2 ^ 32 then 1 else 0x10 + (k - 2 ^ 32), keyFp := v.keyFp }

/-! ### Answers (R458) -/

structure LmpAns where
  status : Status
  value : List Byte
  total : Nat
  offset : Nat
  final : Bool
  deriving DecidableEq, Repr

/-- An answer without a value, or with a whole one. -/
def plainAns (st : Status) (v : List Byte) : LmpAns := ⟨st, v, v.length, 0, true⟩

/-- A response frame before its protection: the header of Table 5 and the value. -/
def lmpOctets (op index sub requestId session frameSeq : Nat) (a : LmpAns) : List Byte :=
  leBytes 32 (a.total % 2 ^ 32 * 2 ^ 224 + a.value.length * 2 ^ 192 + a.offset % 2 ^ 32 * 2 ^ 160 + sub % 256 * 2 ^ 144 + index % 2 ^ 16 * 2 ^ 128 +
    frameSeq % 2 ^ 32 * 2 ^ 96 + session % 2 ^ 32 * 2 ^ 64 + requestId % 2 ^ 32 * 2 ^ 32 + (if a.final then 2 ^ 24 else 0) +
    stCode a.status * 2 ^ 16 + (op + 0x80) * 2 ^ 8 + 1) ++ a.value

/-- A response of a mailbox: the frame, then `resp_seq` (R457). -/
def mailAnswer (s : State) (m : Nat) (frame : List Byte) : State :=
  let base := m * 0x4000
  let put (l : List Host.Cell) (a : Nat) (bs : List Byte) := bs.zipIdx.foldl (fun l y => tset 0 l (a + y.2) y.1) l
  let req := (List.range 4).map fun i => tget 0 s.link.mail (base + 0x3FF0 + i)
  { s with link := { s.link with mail := put (put s.link.mail (base + 0x2000) frame) (base + 0x3FF4) req } }

/-- A response that leaves on the management port, counted with its octets there (R330, R347). -/
def sendMgmt (s : State) (k requestId st : Nat) (frame : List Byte) (tag : Nat) : State :=
  let ip := if (odB s kMgmtIp).take 12 = zeros 10 ++ [0xFF, 0xFF] then 20 else 40
  emit (bump (bump s (kTxFrames 8) 1 none) (kTxBytes 8) (max 64 (14 + ip + 8 + frame.length + tag + 4)) none) (.answer k requestId st frame)

/-- Sends a response frame. Octets 12 to 15 take the number that follows in its direction; a session that reaches the last
number closes (R460). -/
def sendFrame (s : State) (k requestId st : Nat) (frame : List Byte) : State :=
  if 2 ^ 32 ≤ k then mailAnswer (emit s (.answer 0 requestId st frame)) (k - 2 ^ 32) frame
  else match session? s k with
    | some v =>
      let n := v.txSeq + 1
      let s := sendMgmt (putSession s k { v with txSeq := n }) k requestId st (patch frame 12 (leBytes 4 n)) 16
      if n = 2 ^ 32 - 1 then dropSession s k else s
    | none => sendMgmt s k requestId st frame 0

/-- Keeps a response for repeats of its request: the last 16 (R461). -/
def keepAnswer (s : State) (k requestId st : Nat) (frame : List Byte) : State :=
  match session? s k with
  | some v => putSession s k { v with answers := (v.answers ++ [(requestId, st, frame)]).drop (v.answers.length - 15) }
  | none => s

/-! ### Requests -/

/-- Whether a request reaches the dictionary, with its session: the checks of R456, R459 and R460, each counted. -/
def gate (s : State) (r : LmpReq) : State × Option (Nat × Session) :=
  if !dictUp s then (s, none)
  else if r.session = 0 ∧ r.mailbox < 64 then
    if s.boot.noHost ∨ odN s kBrynqLinksUp = 0 then (s, none)
    else
      let k := mailKey r.mailbox
      let v := { (session? s k).getD (mailSession r.mailbox) with last := s.now }
      (putSession s k v, some (k, v))
  else if !r.datagramOk ∨ odB s kMgmtIp = zeros 16 then (bump s kLmpDropped 1 none, none)
  else match session? s r.session with
    | none => (bump s kLmpDropped 1 none, none)
    | some v =>
      if !v.proved ∨ 2 ^ 32 ≤ r.session then (bump s kLmpDropped 1 none, none)
      else if !r.tagOk then (bump s kLmpAuthFailures 1 none, none)
      else if r.frameSeq ≤ v.rxSeq then (bump s kLmpReplayDrops 1 none, none)
      else
        let v := { v with rxSeq := r.frameSeq, last := s.now }
        (putSession s r.session v, some (r.session, v))

/-- Whether a frame keeps Table 5. -/
def reqForm (r : LmpReq) : Bool :=
  r.formOk && decide (r.value.length ≤ 8144) && (r.session ≠ 0 || r.frameSeq = 0)

/-- What a request does in a role for a session. -/
abbrev LmpWork := State → Who → Nat → State × LmpAns

/-- One request: passed by `gate`, answered from store when repeated, else counted, carried out by `work` and answered. A write of
the addresses closes every session after its answer (R469). -/
def serve (op : Nat) (r : LmpReq) (closes : Bool) (work : LmpWork) (s : State) : State :=
  let s := atTime s r.t
  match gate s r with
  | (s, none) => s
  | (s, some (k, v)) =>
    match v.answers.find? fun x => x.1 = r.requestId with
    | some (_, st, frame) => sendFrame s k r.requestId st frame
    | none =>
      let before := bump s kLmpRequests 1 none
      let (s, a) := if reqForm r then work before (whoOf k v) k else (before, plainAns .malformed [])
      let bad : Bool := a.status = .denied || a.status = .malformed
      let s := if bad && ctrGet s kLmpRefused 0 = ctrGet before kLmpRefused 0 then bump s kLmpRefused 1 none else s
      let frame := lmpOctets op r.index r.sub r.requestId r.session 0 a
      let s := sendFrame (keepAnswer s k r.requestId (stCode a.status) frame) k r.requestId (stCode a.status) frame
      let s := if r.session ≠ 0 ∧ r.frameSeq = 2 ^ 32 - 1 then dropSession s k else s
      if closes ∧ a.status = .ok then closeSessions s fun _ => true else s

/-- The ranges of a request's fields. -/
def reqWf (r : LmpReq) : Bool :=
  decide (r.session < 2 ^ 32 ∧ (r.mailbox < 42 ∨ r.mailbox = 64) ∧ r.frameSeq < 2 ^ 32 ∧ r.requestId < 2 ^ 32 ∧ r.index < 2 ^ 16 ∧ r.sub < 256 ∧
    r.offset < 2 ^ 32 ∧ r.total < 2 ^ 32 ∧ r.length < 2 ^ 32)

/-- Answers a value from offset 0, latching a snapshot where it is longer than the answer, or a part of the snapshot (R454). -/
def readPart (s : State) (k key : Nat) (r : LmpReq) (value : State → State × Option (List Byte)) (reach : Bool) : State × LmpAns :=
  if !reach then (s, plainAns .denied [])
  else
    let most := min 8144 r.length
    let set (s : State) (f : List (Nat × Nat × List Byte) → List (Nat × Nat × List Byte)) : State := match session? s k with
      | some v => putSession s k { v with snapshots := f v.snapshots }
      | none => s
    if r.offset = 0 then
      match value s with
      | (s, none) => (s, plainAns .denied [])
      | (s, some b) =>
        let part := b.take most
        let rest : List (Nat × Nat × List Byte) := if part.length < b.length then [(key, s.now, b)] else []
        (set s fun l => (l.filter fun x => x.1 ≠ key) ++ rest, ⟨.ok, part, b.length, 0, part.length = b.length⟩)
    else
      match ((session? s k).getD (mailSession 0)).snapshots.find? fun x => x.1 = key with
      | none => (s, plainAns .notReady [])
      | some (_, _, b) =>
        if b.length < r.offset then (s, plainAns .malformed [])
        else
          let part := (b.drop r.offset).take most
          (s, ⟨.ok, part, b.length, r.offset, r.offset + part.length = b.length⟩)

/-- A read request carries no value and total 0. -/
def readForm (r : LmpReq) : Bool := r.total = 0 && r.value = []

/-- LMP_READ (R450, R453, R454). -/
def execLmpRead (r : LmpReq) (s : State) : Host.Outcome State Fault Refusal :=
  guardWf (reqWf r)
    (serve 1 { r with formOk := r.formOk && readForm r } false (fun s w k =>
      let key := r.index * 256 + r.sub
      readPart s k key r (fun s => match readOctets s w key with
        | some b => (clearView s w key, some b)
        | none => (s, none)) (readOctets s w key).isSome) s)

/-- LMP_READ_INDEX (R454). -/
def execLmpReadIndex (r : LmpReq) (s : State) : Host.Outcome State Fault Refusal :=
  guardWf (reqWf r)
    (serve 3 { r with formOk := r.formOk && readForm r } false (fun s w k =>
      readPart s k (r.index * 256) r (fun s => readWhole s w r.index) (readWhole s w r.index).2.isSome) s)

/-! ### Writes (R447, R450 to R452) -/

/-- Who may write an object that has no row of its own, or whose value has not its type's length. -/
def writeRole (s : State) (w : Who) (key : Nat) : Bool :=
  let index := key / 256
  let sub := key % 256
  if key = kQuoteRequest then true
  else if index = 0x2010 ∧ sub ≠ 0 then domainRole s w (sub - 1) 0
  else if key = kPadRelease then w.role = .operator || w.role = .tenant
  else if index = 0xF000 ∨ key = kDebugOpen ∨ key = kIdentityCertWrite then w.role = .service
  else match scopeOf index with
    | some p =>
      let own : Bool := w.role = .tenant && w.part = p
      if index / 256 = 0x61 ∧ sub = 0x0F then own
      else w.role = .operator ||
        (own && ((index / 256 = 0x51 && (sub = 9 || sub = 0x0A)) || (index / 256 = 0x81 && sub ≠ 0x11) || (index / 256 = 0x82 && sub ≠ 8) || index / 256 = 0x83))
    | none => w.role = .operator

/-- The range of a number, by object. -/
def numOk (key n : Nat) : Bool :=
  let index := key / 256
  let sub := key % 256
  if key = kTickCyclesNext then 3600 ≤ n && n ≤ 115200 && n % 9 = 0
  else if key = kTimeSource then n ≤ 2
  else if key = kPtpPort then n ≤ 7
  else if key = kAlignLimit then 10 ≤ n && n ≤ 100
  else if key = kAnchorLead then 1 ≤ n && n ≤ 16
  else if key = kPatrolPeriod then 1 ≤ n && n ≤ 168
  else if key = kPtpVid then n ≤ 4094
  else if key = kPcpTimetabled ∨ key = kPcpFree then n ≤ 7
  else if key = kFlowControl then n ≤ 2
  else if key = kHostLossMode then n ≤ 1
  else if key = kMgmtPrefix then n ≤ 128
  else if key = kLmpIdleS then 10 ≤ n && n ≤ 3600
  else if key = kBookCheckpointInterval then 16 ≤ n && n ≤ 65536
  else if key = kBookCheckpointPeriod then 1 ≤ n && n ≤ 3600
  else if key = kRtoUs then 10 ≤ n && n ≤ 10000
  else if key = kRetxLimit then 1 ≤ n && n ≤ 32
  else if key = kPartnerTimeoutMs then 1 ≤ n && n ≤ 10000
  else if key = kAckDelayNs then 200 ≤ n && n ≤ 50000
  else if key = kQuarantineThreshold then 1 ≤ n && n ≤ 1000
  else if key = kCwndInitial then 16384 ≤ n && n ≤ 4194304
  else if 0x4100 ≤ index ∧ index < 0x4108 ∧ (sub = 4 ∨ sub = 5) then decide (-10000 ≤ codeInt 32 n ∧ codeInt 32 n ≤ 10000)
  else match scopeOf index with
    | none => true
    | some _ =>
      -- DESIGN CHOICE: `spike_sided` above 2 is malformed; the manual names 0 and 1 and no range (R121)
      if index / 256 = 0x81 ∧ (sub = 6 ∨ 0x0C ≤ sub ∧ sub ≤ 0x0F) then n ≤ 2
      else if index / 256 = 0x82 ∧ (sub = 3 ∨ sub = 4) then 1000 ≤ n
      else if index / 256 = 0x83 ∧ sub = 2 then 1 ≤ n && n ≤ 256
      else true

/-- The objects that come into force 1 s after their answer (R469). -/
def settingKey (key : Nat) : Bool := key = kMgmtIp || key = kMgmtPrefix || key = kMgmtGateway || key = kLmpUdpPort

/-- The check of a write of an object without a row of its own. -/
def plainCheck (s : State) (w : Who) (key : Nat) (v : OdVal) : Status :=
  let rw : Bool := match odRow key with
    | some r => r.acc = .rw || r.acc = .wo
    | none => false
  if !present s key ∨ key % 256 = 0 ∨ !rw ∨ !writeRole s w key then .denied
  else match v with
    | .num n => if numOk key n && (key ≠ kPtpPort || portExists s n) then .ok else .malformed
    | .octets b =>
      let want := (odB s key).length
      if b.length = want then .ok else .malformed

/-- The effect of a write of an object without a row of its own: at once, at the next vote (R121), step (R296) or job-map latch
(R383), or 1 s after the answer (R469). -/
def plainTake (s : State) (key : Nat) (v : OdVal) : State :=
  let index := key / 256
  let n := match v with
    | .num n => n
    | .octets _ => 0
  if settingKey key then { s with book := { s.book with settings := s.book.settings ++ [(s.now + 1_000_000_000, key, v)] } }
  else if key = kTimeSource then
    -- a pending step and the time within the limit belong to the source that goes (R171, R172)
    let s := if n = odN s key then s else odSet { s with time := { s.time with pendingStep := none, withinSince := none, overRun := 0 } } key n
    if n = 2 then loseAlign s else s
  else if key = kAlignLimit then
    odSet (if n < odN s kOffsetBound then { s with time := { s.time with withinSince := none } } else s) key n
  else if index = 0x5000 then
    -- a later write takes the place of one that waits (R383)
    if anyOpen s then { s with hrtNext := tset none s.hrtNext key (some n) } else odPut { s with hrtNext := tset none s.hrtNext key none } key v
  else match scopeOf index with
    | some p =>
      if index / 256 = 0x81 ∧ stepOpen s p then modPart s p fun x => { x with watch := { x.watch with shadow := tset none x.watch.shadow key (some v) } }
      else if index / 256 = 0x82 ∧ stepOpen s p then modStep s p fun x => { x with deferred := tset none x.deferred key (some v) }
      else odPut s key v
    | none => odPut s key v

def plainWrite (s : State) (w : Who) (key : Nat) (v : OdVal) : State :=
  dictWrite s w key v (fun s => plainCheck s w key v) (fun s => plainTake s key v)

/-- BOOK_EXPORT_MARK_WRITE (R466): the mark may only rise. -/
def execBookExportMarkWrite (who : Who) (v : Nat) (s : State) : Host.Outcome State Fault Refusal :=
  guardWf (decide (v < 2 ^ 64))
    (dictWrite s who kBookExportMark (.num v) (fun s => opOnly who (if v < odN s kBookExportMark then .malformed else .ok))
      (fun s => odSet s kBookExportMark v))

/-- A number that a command object does not name. -/
def badCommand (s : State) (w : Who) (key n : Nat) : State :=
  dictWrite s w key (.num n) (fun s => if writeRole s w key then .malformed else .denied) id

/-- A write of a number, where the object has a row of its own by that row's command. -/
def numWrite (s : State) (w : Who) (key n : Nat) (found : Option (List Byte)) : Host.Outcome State Fault Refusal :=
  let index := key / 256
  let sub := key % 256
  if key = kTickChangeAt then execTickChangeAtWrite w n s
  else if key = kTickEpoch then execTickEpochWrite w n s
  else if key = kDepotPreserveSet then execDepotPreserveSet w n s
  else if key = kDepotPreserveClear then execDepotPreserveClear w n s
  else if key = kCageMode then execCageModeWrite w n s
  else if key = kDebugOpen then execDebugOpen w n s
  else if key = kBookExportMark then execBookExportMarkWrite w n s
  else if key = kRestoreDefaults then execRestoreDefaults w n s
  else if key = kModuleRestart then
    (if n = 1 then execModuleRestart w s else if n = 2 then execModuleRestartForce w s else .next (badCommand s w key n))
  else if key = kLedgerClear then execLedgerClear w n s
  else if key = kFwControl then
    (if n = 1 then execFwVerify w found s else if n = 2 then execFwCommit w s else if n = 3 then execFwActivate w s
     else if n = 4 then execFwDrop w s else .next (badCommand s w key n))
  else if key = kPowerCap then execPowerCapWrite w n s
  else if key = kAirflowAssuredCfm then execAirflowWrite w n s
  else if key = kPadRelease then execPadRelease w n s
  else if index = 0x2010 then .next (domainWrite w (sub - 1) n s)
  else if 0x4100 ≤ index ∧ index < 0x4108 ∧ sub = 6 then execPortEnableWrite w (index - 0x4100) n s
  else match scopeOf index with
    | none => .next (plainWrite s w key (.num n))
    | some p =>
      if key = kVid p then execVidWrite w p n s
      else if key = kPortMap p then execPortMapWrite w p n s
      else if key = kPathShadowLoad p then execPathShadowLoad w p n s
      else if key = kPeerQuarantineClear p then execPeerQuarantineClear w p n s
      else if key = kGrantConsists p then execGrantObjectWrite w p 2 (.num n) s
      else if key = kGrantCommit p then
        (if n = 1 then execGrantCommit w p s else if n = 2 then execGrantRelease w p s else if n = 3 then execGrantDiscard w p s
         else if n = 4 then execGrantForceRelease w p s else .next (badCommand s w key n))
      else if key = kHoldDecision p then execHoldDecision w p n s
      else if key = kLayerTableAddr p then execLayerTableAddrWrite w p n s
      else if key = kInDoubtResolve p then execInDoubtResolve w p n s
      else if key = kJobMapAddr p then execJobMapAddrWrite w p n s
      else .next (plainWrite s w key (.num n))

/-- A write of octets. -/
def octetWrite (s : State) (w : Who) (key : Nat) (b : List Byte) (found : Option (List Byte)) : Host.Outcome State Fault Refusal :=
  if key = kQuoteRequest then execQuoteRequest w b s
  else if key = kIdentityCertWrite then execIdentityCertWrite w b found s
  else if key = kOperatorKeys then execKeyListWrite w 0x0C 0 b s
  else if key = kObserverKeys then execKeyListWrite w 0x0D 0 b s
  else if key = kFwChunk then execFwChunk w b s
  else match scopeOf (key / 256) with
    | none => .next (plainWrite s w key (.octets b))
    | some p =>
      if key = kTenantKey p then execKeyListWrite w 0x0E p b s
      else if key = kDepotKeyImport p then execDepotKeyImport w p (b.take 1088) (b.drop 1088) s
      else if key / 256 / 256 = 0x61 ∧ 3 ≤ key % 256 ∧ key % 256 ≤ 8 then execGrantObjectWrite w p (key % 256) (.octets b) s
      else .next (plainWrite s w key (.octets b))

/-- A whole written value reaches the dictionary: one write with one entry. -/
def wholeWrite (s : State) (w : Who) (key : Nat) (b : List Byte) (found : Option (List Byte)) : State :=
  let o : Host.Outcome State Fault Refusal := match odRow key with
    | none => .next (plainWrite s w key (.octets b))
    | some r =>
      if (r.acc ≠ .rw ∧ r.acc ≠ .wo) ∨ !present s key then .next (plainWrite s w key (.octets b))
      else match octetsVal r.ty b with
        | some (.num n) => numWrite s w key n found
        | some (.octets b) => octetWrite s w key b found
        | none => .next (plainWrite s w key (.octets b))
  match o with
  | .next s => s
  | _ => s

/-- What a write left in the output: its status, and a quote where it returns one (R433). -/
def writeAnswer (before s : State) (key : Nat) : LmpAns :=
  let fresh := s.out.take (s.out.length - before.out.length)
  let st := (fresh.findSome? fun o => match o with
    | .written k c => if k = key then some c else none
    | _ => none).getD (stCode .denied)
  let quote := (fresh.findSome? fun o => match o with
    | .quote _ b => some b
    | _ => none).getD []
  plainAns (statusOf st) quote

/-- LMP_WRITE: a value in one frame, or a segment of one (R451, R455). -/
def lmpWrite (r : LmpReq) : LmpWork := fun s w k =>
  let key := r.index * 256 + r.sub
  let others := s.book.segs.filter fun x => x.key ≠ key
  let put (s : State) (l : List SegWrite) : State := { s with book := { s.book with segs := l } }
  let finish (s : State) (b : List Byte) : State × LmpAns :=
    if b.length ≠ r.total then (s, plainAns .malformed [])
    else
      let s' := wholeWrite s w key b r.found
      (s', writeAnswer s s' key)
  match s.book.segs.find? fun x => x.key = key with
  | some g =>
    if g.session ≠ k then (s, plainAns .notReady [])
    else if r.offset ≠ g.bytes.length ∨ r.total ≠ g.total then (put s others, plainAns .malformed [])
    else if r.final then finish (put s others) (g.bytes ++ r.value)
    else (put s (others ++ [{ g with bytes := g.bytes ++ r.value, t := s.now }]), plainAns .ok [])
  | none =>
    if r.offset ≠ 0 ∨ 65535 < r.total then (s, plainAns .malformed [])
    else if r.final then finish s r.value
    else (put s (others ++ [⟨key, k, r.value, r.total, s.now⟩]), plainAns .ok [])

def execLmpWrite (r : LmpReq) (s : State) : Host.Outcome State Fault Refusal :=
  guardWf (reqWf r)
    (serve 2 { r with formOk := r.formOk && r.length = r.value.length } (settingKey (r.index * 256 + r.sub) && r.final) (lmpWrite r) s)

/-! ### The register book (R464, R467) -/

/-- The newest entry's serial, none in an empty book. -/
def headSerial (s : State) : Option Nat := if s.book.entries = [] then none else some (odN s kBookHeadSerial)

/-- Entry n of the book. -/
def entryAt (s : State) (n : Nat) : List Byte := lget [] s.book.entries (odN s kBookHeadSerial - n)

/-- An entry as a role receives it: a tenant gets its own writes, checkpoints and start-ups whole, and of others the serial, the
kind and the hashes. -/
def masked (w : Who) (e : List Byte) : List Byte :=
  let kind := (lget 0 e 21).toNat
  let own : Bool := kind = 1 && (lget 0 e 29).toNat = 1 && (lget 0 e 30).toNat = w.part
  if w.role ≠ .tenant ∨ own ∨ kind = 2 ∨ kind = 3 then e else patch (patch e 8 (zeros 13)) 22 (zeros 90)

/-- Whether a serial can be read: below the oldest capacity, above the newest malformed. -/
def serialCheck (s : State) (n : Nat) : Status :=
  match headSerial s with
  | none => .malformed
  | some h => if n < odN s kBookOldestSerial then .capacity else if h < n then .malformed else .ok

/-- BOOK_READ. -/
def execBookRead (r : LmpReq) (s : State) : Host.Outcome State Fault Refusal :=
  guardWf (reqWf r)
    (serve 4 { r with formOk := r.formOk && r.value.length = 12 && r.length = 12 } false (fun s w _ =>
      let first := leNat (r.value.take 8)
      let count := leNat (r.value.drop 8)
      let st := if count = 0 ∨ 46 < count then .malformed else serialCheck s first
      if st ≠ .ok then (s, plainAns st [])
      else
        let n := min count (odN s kBookHeadSerial + 1 - first)
        (s, plainAns .ok ((List.range n).flatMap fun i => masked w (entryAt s (first + i))))) s)

/-- LMP_CHECKPOINT_READ. -/
def execLmpCheckpointRead (r : LmpReq) (s : State) : Host.Outcome State Fault Refusal :=
  guardWf (reqWf r)
    (serve 5 { r with formOk := r.formOk && r.value.length = 8 && r.length = 8 } false (fun s _ _ =>
      let n := leNat r.value
      let st := serialCheck s n
      if st ≠ .ok then (s, plainAns st [])
      else if lget 0 (entryAt s n) 21 ≠ 2 then (s, plainAns .malformed [])
      else if tget [] s.book.sigs n = [] then (s, plainAns .notReady [])
      else (s, plainAns .ok (entryAt s n ++ tget [] s.book.sigs n))) s)

/-- BOOK_CHECKPOINT: the interval or the period has been reached. -/
def execBookCheckpoint (t : Nat) (s : State) : Host.Outcome State Fault Refusal :=
  .next (let s := atTime s t
    let due : Bool := odN s kBookCheckpointInterval ≤ s.book.since ||
      (1 ≤ s.book.since && s.book.lastTime + odN s kBookCheckpointPeriod * 1_000_000_000 ≤ s.now)
    if dictUp s && due then appendCheckpoint s else s)

/-- "HSK-BOOK" (R464). -/
def ctxBook : List Byte := ascii [72, 83, 75, 45, 66, 79, 79, 75]

/-- BOOK_CHECKPOINT_SIGN: the oldest unsigned checkpoint takes its signature over octets 0 to 175, made with the book key; signatures go
with their entries. -/
def execBookCheckpointSign (s : State) : Host.Outcome State Fault Refusal :=
  .next (match s.book.unsigned with
    | [] => s
    | n :: rest =>
      let (s, sig) := sign s s.sec.bookKey ctxBook (entryAt s n)
      let sigs := (tins s.book.sigs n sig).filter fun x => odN s kBookOldestSerial ≤ x.1
      { s with book := { s.book with sigs := sigs, unsigned := rest } })

/-! ### Sessions (R459) -/

def roleOf (c : Nat) : Role := if c = 0 then .operator else if c = 1 then .tenant else if c = 2 then .observer else .service

/-- Whether a fingerprint names a key of a role, and a tenant's partition is granted. -/
def keyNamed (s : State) (role : Role) (p : Nat) (fp : List Byte) : Bool :=
  match role with
  | .operator => ((keysIn (odB s kOperatorKeys)).map fingerprint).contains fp
  | .observer => ((keysIn (odB s kObserverKeys)).map fingerprint).contains fp
  | .tenant => (part s p).grant ≠ none && ((keysIn (odB s (kTenantKey p))).map fingerprint).contains fp
  | .service => ((keysIn (odB s kServiceKey)).map fingerprint).contains fp

/-- Whether an `open` keeps its form. -/
def openForm (r : LmpOpenReq) : Bool :=
  r.datagramOk && r.formOk && r.zeros && decide (r.role < 4) && (if r.role = 1 then r.part < 40 else r.part = 0xFF) && r.keyFp.length = 32 &&
    r.clientNonce.length = 32

/-- The number of a new session: non-zero, 32 bits, in use by no other. -/
def freshSession (s : State) : Nat :=
  ((List.range 17).map fun i => (s.book.nextSession + i - 1) % (2 ^ 32 - 1) + 1).find? (fun k => (session? s k).isNone) |>.getD 1

/-- LMP_OPEN: steps 1 and 2. Outside a session an ill-formed frame is dropped (R458). -/
def execLmpOpen (r : LmpOpenReq) (s : State) : Host.Outcome State Fault Refusal :=
  guardWf (decide (r.requestId < 2 ^ 32 ∧ r.role < 256 ∧ r.part < 256))
    (let s := atTime s r.t
     if !dictUp s then s
     else if !openForm r ∨ odB s kMgmtIp = zeros 16 then bump s kLmpDropped 1 none
     else
      let s := bump s kLmpRequests 1 none
      let answer (s : State) (k : Nat) (st : Status) (v : List Byte) : State :=
        sendMgmt s k r.requestId (stCode st) (lmpOctets 6 0 0 r.requestId k 0 (plainAns st v)) 0
      if 16 ≤ (s.book.sessions.filter fun x => x.1 < 2 ^ 32).length then answer s 0 .capacity []
      else
        let k := freshSession s
        let (s, nonce) := freshOctets s 19 32
        let v : Session := { role := roleOf r.role, part := r.part, keyFp := r.keyFp, clientNonce := r.clientNonce, moduleNonce := nonce
                             secret := r.secret, proved := false, last := s.now, rxSeq := 0, txSeq := 0, answers := [], snapshots := [] }
        let s := putSession { s with book := { s.book with nextSession := k + 1 } } k v
        answer s k .ok nonce)

/-- LMP_OPEN_PROOF: steps 3 and 4. `proof` says whether the signature verifies; none, that the frame does not keep its form, its reserved
fields zero among it: it is dropped (R8, R458). -/
def execLmpOpenProof (session requestId : Nat) (proof : Option Bool) (t : Nat) (s : State) : Host.Outcome State Fault Refusal :=
  guardWf (decide (session < 2 ^ 32 ∧ requestId < 2 ^ 32))
    (let s := atTime s t
     if !dictUp s then s
     else match session? s session with
      | none => bump s kLmpDropped 1 none
      | some v =>
        if v.proved ∨ proof = none then bump s kLmpDropped 1 none
        else
          let s := bump s kLmpRequests 1 none
          if proof = some true ∧ keyNamed s v.role v.part v.keyFp then
            let s := countSessions (putSession s session { v with proved := true, last := s.now })
            sendFrame s session requestId 0 (lmpOctets 7 0 0 requestId session 0 (plainAns .ok []))
          else
            let s := bump (dropSession s session) kLmpAuthFailures 1 none
            let info : BookInfo := ⟨5, 1, 0xFF, 0xFF, 0, 0, 8, 0, roleCode v.role, v.keyFp, zeros 32⟩
            let s := if bookFull s 1024 then s else appendEntry s info
            sendMgmt s session requestId 8 (lmpOctets 7 0 0 requestId session 0 (plainAns .authFail [])) 0)

/-- LMP_CLOSE: answered, then closed; a mailbox has no session to close. -/
def execLmpClose (r : LmpReq) (s : State) : Host.Outcome State Fault Refusal :=
  guardWf (reqWf r)
    (let r := { r with formOk := r.formOk && r.value = [] && r.length = 0 }
     let ok : Bool := reqForm r && (gate (atTime s r.t) r).2.isSome
     let s := serve 8 r false (fun s _ _ => (s, plainAns .ok [])) s
     if ok ∧ r.session ≠ 0 then dropSession s r.session else s)

/-- LMP_OPEN_TIMEOUT: 5 s without the proof. -/
def execLmpOpenTimeout (session t : Nat) (s : State) : Host.Outcome State Fault Refusal :=
  .next (let s := atTime s t
    match session? s session with
    | some v => if !v.proved ∧ v.last + 5_000_000_000 ≤ s.now then dropSession s session else s
    | none => s)

/-- LMP_IDLE_TIMEOUT. -/
def execLmpIdleTimeout (session t : Nat) (s : State) : Host.Outcome State Fault Refusal :=
  .next (let s := atTime s t
    match session? s session with
    | some v => if session < 2 ^ 32 ∧ v.proved ∧ v.last + odN s kLmpIdleS * 1_000_000_000 ≤ s.now then dropSession s session else s
    | none => s)

/-- LMP_SNAPSHOT_EXPIRY: `session` is a session or, from 2^32 on, a mailbox. -/
def execLmpSnapshotExpiry (session t : Nat) (s : State) : Host.Outcome State Fault Refusal :=
  .next (let s := atTime s t
    match session? s session with
    | some v => putSession s session { v with snapshots := v.snapshots.filter fun x => s.now < x.2.1 + 10_000_000_000 }
    | none => s)

/-- LMP_SEGMENT_TIMEOUT. -/
def execLmpSegmentTimeout (key t : Nat) (s : State) : Host.Outcome State Fault Refusal :=
  .next (let s := atTime s t
    { s with book := { s.book with segs := s.book.segs.filter fun x => x.key ≠ key || s.now < x.t + 10_000_000_000 } })

/-- MGMT_SETTINGS_APPLY (R469). -/
def execMgmtSettingsApply (t : Nat) (s : State) : Host.Outcome State Fault Refusal :=
  .next (let s := atTime s t
    let due := s.book.settings.filter fun x => x.1 ≤ s.now
    let s := { s with book := { s.book with settings := s.book.settings.filter fun x => s.now < x.1 } }
    due.foldl (fun s x => odPut s x.2.1 x.2.2) s)

end Sys2Proof.Machine
end

