-- ==== Sys2Proof/Machine/Dispatch.lean ====
section
/-! DEFINITION. One arm per command: each calls its own meaning. -/

namespace Sys2Proof.Machine

def exec (i : Instr) (s : State) : Host.Outcome State Fault Refusal :=
  match i with
  | .mma h o => Sys2Proof.Machine.execMma h o s
  | .mmaSplit2 h o => Sys2Proof.Machine.execMmaSplit2 h o s
  | .mmaSplit3 h o => Sys2Proof.Machine.execMmaSplit3 h o s
  | .vrun h o => Sys2Proof.Machine.execVrun h o s
  | .stream h o => Sys2Proof.Machine.execStream h o s
  | .atomicAdd h o => Sys2Proof.Machine.execAtomicAdd h o s
  | .post h sem => Sys2Proof.Machine.execPost h sem s
  | .wait h => Sys2Proof.Machine.execWait h s
  | .signalArrive h sem count => Sys2Proof.Machine.execSignalArrive h sem count s
  | .semReset h sem count => Sys2Proof.Machine.execSemReset h sem count s
  | .scaleAdjustShift h noun amount => Sys2Proof.Machine.execScaleAdjustShift h noun amount s
  | .scaleAdjustFresh h noun => Sys2Proof.Machine.execScaleAdjustFresh h noun s
  | .scaleAdjustApply h noun => Sys2Proof.Machine.execScaleAdjustApply h noun s
  | .loopBegin h slot => Sys2Proof.Machine.execLoopBegin h slot s
  | .loopEnd h => Sys2Proof.Machine.execLoopEnd h s
  | .slotWrite h addr slot => Sys2Proof.Machine.execSlotWrite h addr slot s
  | .nounSet h handle addr image => Sys2Proof.Machine.execNounSet h handle addr image s
  | .slotMark h o => Sys2Proof.Machine.execSlotMark h o s
  | .nop h => Sys2Proof.Machine.execNop h s
  | .halt h => Sys2Proof.Machine.execHalt h s
  | .verbIssue k core cycles => Sys2Proof.Machine.execVerbIssue k core cycles s
  | .verbTokenPost k vi => Sys2Proof.Machine.execVerbTokenPost k vi s
  | .broadcastResume k cycles => Sys2Proof.Machine.execBroadcastResume k cycles s
  | .controlVerbRelease k => Sys2Proof.Machine.execControlVerbRelease k s
  | .allReduce h c => Sys2Proof.Machine.execAllReduce h c s
  | .allReduceFree h c => Sys2Proof.Machine.execAllReduceFree h c s
  | .reduceScatter h c => Sys2Proof.Machine.execReduceScatter h c s
  | .allGather h c => Sys2Proof.Machine.execAllGather h c s
  | .broadcast h c => Sys2Proof.Machine.execBroadcast h c s
  | .reduceToRoot h c => Sys2Proof.Machine.execReduceToRoot h c s
  | .allToAll h c => Sys2Proof.Machine.execAllToAll h c s
  | .maxReduce h c => Sys2Proof.Machine.execMaxReduce h c s
  | .clusterBarrier h c => Sys2Proof.Machine.execClusterBarrier h c s
  | .gatherLayer h c => Sys2Proof.Machine.execGatherLayer h c s
  | .dropLayer h c => Sys2Proof.Machine.execDropLayer h c s
  | .sendActivations h c => Sys2Proof.Machine.execSendActivations h c s
  | .recvActivations h c => Sys2Proof.Machine.execRecvActivations h c s
  | .ringExchange h c => Sys2Proof.Machine.execRingExchange h c s
  | .statMergeAll h c => Sys2Proof.Machine.execStatMergeAll h c s
  | .pointsChange h c => Sys2Proof.Machine.execPointsChange h c s
  | .statMerge h c => Sys2Proof.Machine.execStatMerge h c s
  | .softmaxRows h c => Sys2Proof.Machine.execSoftmaxRows h c s
  | .layerNorm h c => Sys2Proof.Machine.execLayerNorm h c s
  | .rmsNorm h c => Sys2Proof.Machine.execRmsNorm h c s
  | .gelu h c => Sys2Proof.Machine.execGelu h c s
  | .siluGate h c => Sys2Proof.Machine.execSiluGate h c s
  | .rotaryEmbed h c => Sys2Proof.Machine.execRotaryEmbed h c s
  | .dropoutMask h c => Sys2Proof.Machine.execDropoutMask h c s
  | .crossEntropy h c => Sys2Proof.Machine.execCrossEntropy h c s
  | .lossSubmit h c => Sys2Proof.Machine.execLossSubmit h c s
  | .gradNorm h c => Sys2Proof.Machine.execGradNorm h c s
  | .gradClip h c => Sys2Proof.Machine.execGradClip h c s
  | .scaleLayer h c => Sys2Proof.Machine.execScaleLayer h c s
  | .histogramClear h c => Sys2Proof.Machine.execHistogramClear h c s
  | .convert h c => Sys2Proof.Machine.execConvert h c s
  | .transpose h c => Sys2Proof.Machine.execTranspose h c s
  | .fill h c => Sys2Proof.Machine.execFill h c s
  | .copy h c => Sys2Proof.Machine.execCopy h c s
  | .gatherRows h c => Sys2Proof.Machine.execGatherRows h c s
  | .scatterAddRows h c => Sys2Proof.Machine.execScatterAddRows h c s
  | .spillToNear h c => Sys2Proof.Machine.execSpillToNear h c s
  | .resumeFromNear h c => Sys2Proof.Machine.execResumeFromNear h c s
  | .prefetchLayer h c => Sys2Proof.Machine.execPrefetchLayer h c s
  | .checkpointWrite h c => Sys2Proof.Machine.execCheckpointWrite h c s
  | .checkpointRead h c => Sys2Proof.Machine.execCheckpointRead h c s
  | .datasetRead h c => Sys2Proof.Machine.execDatasetRead h c s
  | .windowRegister h c => Sys2Proof.Machine.execWindowRegister h c s
  | .windowRelease h c => Sys2Proof.Machine.execWindowRelease h c s
  | .updateAdamw h c => Sys2Proof.Machine.execUpdateAdamw h c s
  | .updateAdamL2 h c => Sys2Proof.Machine.execUpdateAdamL2 h c s
  | .updateSgdMomentum h c => Sys2Proof.Machine.execUpdateSgdMomentum h c s
  | .updateCustom h c => Sys2Proof.Machine.execUpdateCustom h c s
  | .updateShardCheck p shard => Sys2Proof.Machine.execUpdateShardCheck p shard s
  | .stepVote h c => Sys2Proof.Machine.execStepVote h c s
  | .stepCounterRead h c => Sys2Proof.Machine.execStepCounterRead h c s
  | .freezeSet h c => Sys2Proof.Machine.execFreezeSet h c s
  | .layerScaleSet h c => Sys2Proof.Machine.execLayerScaleSet h c s
  | .sidingPark h o => Sys2Proof.Machine.execSidingPark h o s
  | .sidingDrain h => Sys2Proof.Machine.execSidingDrain h s
  | .attentionFwd h c => Sys2Proof.Machine.execAttentionFwd h c s
  | .attentionBwd h c => Sys2Proof.Machine.execAttentionBwd h c s
  | .causalMask h c => Sys2Proof.Machine.execCausalMask h c s
  | .attentionMerge h c => Sys2Proof.Machine.execAttentionMerge h c s
  | .matmulBias h c => Sys2Proof.Machine.execMatmulBias h c s
  | .matmulFp32 h c => Sys2Proof.Machine.execMatmulFp32 h c s
  | .topkRoute h c => Sys2Proof.Machine.execTopkRoute h c s
  | .expertDispatch h c => Sys2Proof.Machine.execExpertDispatch h c s
  | .expertCombine h c => Sys2Proof.Machine.execExpertCombine h c s
  | .selfTest h c => Sys2Proof.Machine.execSelfTest h c s
  | .sidingEntryStart k idle left => Sys2Proof.Machine.execSidingEntryStart k idle left s
  | .tickBoundary t draws => Sys2Proof.Machine.execTickBoundary t draws s
  | .tickChange => Sys2Proof.Machine.execTickChange s
  | .tickChangeAtWrite who v => Sys2Proof.Machine.execTickChangeAtWrite who v s
  | .tickEpochWrite who v => Sys2Proof.Machine.execTickEpochWrite who v s
  | .slotStart k => Sys2Proof.Machine.execSlotStart k s
  | .slotComplete k busy wait => Sys2Proof.Machine.execSlotComplete k busy wait s
  | .deadlockSearch => Sys2Proof.Machine.execDeadlockSearch s
  | .ptpSyncRx m => Sys2Proof.Machine.execPtpSyncRx m s
  | .ptpFollowUpRx m => Sys2Proof.Machine.execPtpFollowUpRx m s
  | .ptpAnnounceRx m => Sys2Proof.Machine.execPtpAnnounceRx m s
  | .ptpDelayReqTx t => Sys2Proof.Machine.execPtpDelayReqTx t s
  | .ptpDelayRespRx m => Sys2Proof.Machine.execPtpDelayRespRx m s
  | .ptpSyncTimeout t => Sys2Proof.Machine.execPtpSyncTimeout t s
  | .alignmentRegain t => Sys2Proof.Machine.execAlignmentRegain t s
  | .timeStep t => Sys2Proof.Machine.execTimeStep t s
  | .granuleScrub tier g => Sys2Proof.Machine.execGranuleScrub tier g s
  | .granuleScrubEnd tier g => Sys2Proof.Machine.execGranuleScrubEnd tier g s
  | .patrolRead addr ecc => Sys2Proof.Machine.execPatrolRead addr ecc s
  | .blockDispatch die ecc => Sys2Proof.Machine.execBlockDispatch die ecc s
  | .blockComplete die id receivers => Sys2Proof.Machine.execBlockComplete die id receivers s
  | .multicastUncouple => Sys2Proof.Machine.execMulticastUncouple s
  | .depotWriteResume channel => Sys2Proof.Machine.execDepotWriteResume channel s
  | .depotBackgroundOp op us t => Sys2Proof.Machine.execDepotBackgroundOp op us t s
  | .depotDisturbRefresh block => Sys2Proof.Machine.execDepotDisturbRefresh block s
  | .depotAgeRefresh block => Sys2Proof.Machine.execDepotAgeRefresh block s
  | .depotPreserveSet who q => Sys2Proof.Machine.execDepotPreserveSet who q s
  | .depotPreserveClear who q => Sys2Proof.Machine.execDepotPreserveClear who q s
  | .layerTableAddrWrite who p addr => Sys2Proof.Machine.execLayerTableAddrWrite who p addr s
  | .voteRx f => Sys2Proof.Machine.execVoteRx f s
  | .stepWaitExpiry p => Sys2Proof.Machine.execStepWaitExpiry p s
  | .decisionRx f => Sys2Proof.Machine.execDecisionRx f s
  | .decisionApply p => Sys2Proof.Machine.execDecisionApply p s
  | .inflectorWalkEnd k handle => Sys2Proof.Machine.execInflectorWalkEnd k handle s
  | .shardApplyEnd p shard ecc => Sys2Proof.Machine.execShardApplyEnd p shard ecc s
  | .inDoubtEntry p => Sys2Proof.Machine.execInDoubtEntry p s
  | .inDoubtResolve who p v => Sys2Proof.Machine.execInDoubtResolve who p v s
  | .holdDecision who p v => Sys2Proof.Machine.execHoldDecision who p v s
  | .revisedVoteRx f => Sys2Proof.Machine.execRevisedVoteRx f s
  | .rollback p => Sys2Proof.Machine.execRollback p s
  | .jobMapAddrWrite who p addr => Sys2Proof.Machine.execJobMapAddrWrite who p addr s
  | .pointsSwap p => Sys2Proof.Machine.execPointsSwap p s
  | .pathShadowLoad who p addr => Sys2Proof.Machine.execPathShadowLoad who p addr s
  | .frameRx n f => Sys2Proof.Machine.execFrameRx n f s
  | .frameTx n t => Sys2Proof.Machine.execFrameTx n t s
  | .pauseRx n quanta => Sys2Proof.Machine.execPauseRx n quanta s
  | .pfcRx n classes quanta => Sys2Proof.Machine.execPfcRx n classes quanta s
  | .pauseRefresh n shared reserved => Sys2Proof.Machine.execPauseRefresh n shared reserved s
  | .pauseQuantaExpiry n => Sys2Proof.Machine.execPauseQuantaExpiry n s
  | .linkDown n => Sys2Proof.Machine.execLinkDown n s
  | .linkUp n => Sys2Proof.Machine.execLinkUp n s
  | .cageModeWrite who v => Sys2Proof.Machine.execCageModeWrite who v s
  | .vidWrite who p v => Sys2Proof.Machine.execVidWrite who p v s
  | .portMapWrite who p v => Sys2Proof.Machine.execPortMapWrite who p v s
  | .portEnableWrite who n v => Sys2Proof.Machine.execPortEnableWrite who n v s
  | .keyOfferRx o => Sys2Proof.Machine.execKeyOfferRx o s
  | .keyAcceptRx o => Sys2Proof.Machine.execKeyAcceptRx o s
  | .keyAcceptTimeout p n peer t => Sys2Proof.Machine.execKeyAcceptTimeout p n peer t s
  | .hrtWriteRx f => Sys2Proof.Machine.execHrtWriteRx f s
  | .hrtAddRx f => Sys2Proof.Machine.execHrtAddRx f s
  | .hrtAckRx f => Sys2Proof.Machine.execHrtAckRx f s
  | .hrtWindowWriteRx f => Sys2Proof.Machine.execHrtWindowWriteRx f s
  | .bufferFreeRx f => Sys2Proof.Machine.execBufferFreeRx f s
  | .hrtAckDelay qp => Sys2Proof.Machine.execHrtAckDelay qp s
  | .hrtRtoExpiry qp psn t => Sys2Proof.Machine.execHrtRtoExpiry qp psn t s
  | .partnerTimeout qp t => Sys2Proof.Machine.execPartnerTimeout qp t s
  | .peerSlowDetect qp => Sys2Proof.Machine.execPeerSlowDetect qp s
  | .peerQuarantineClear who p peer => Sys2Proof.Machine.execPeerQuarantineClear who p peer s
  | .linkError l t => Sys2Proof.Machine.execLinkError l t s
  | .linkRetrainDone l t => Sys2Proof.Machine.execLinkRetrainDone l t s
  | .linkRetryExpiry t => Sys2Proof.Machine.execLinkRetryExpiry t s
  | .hostRstAssert t => Sys2Proof.Machine.execHostRstAssert t s
  | .hostRstRelease t => Sys2Proof.Machine.execHostRstRelease t s
  | .holdQuiesce => Sys2Proof.Machine.execHoldQuiesce s
  | .holdRecordWrite => Sys2Proof.Machine.execHoldRecordWrite s
  | .adopt epoch digest => Sys2Proof.Machine.execAdopt epoch digest s
  | .adoptionEnd => Sys2Proof.Machine.execAdoptionEnd s
  | .reAttach => Sys2Proof.Machine.execReAttach s
  | .holdDiscard => Sys2Proof.Machine.execHoldDiscard s
  | .doorbellSqTail q v => Sys2Proof.Machine.execDoorbellSqTail q v s
  | .doorbellCqHead q v => Sys2Proof.Machine.execDoorbellCqHead q v s
  | .manifestFetch q bytes => Sys2Proof.Machine.execManifestFetch q bytes s
  | .manifestReread q bytes => Sys2Proof.Machine.execManifestReread q bytes s
  | .manifestNop q seq => Sys2Proof.Machine.execManifestNop q seq s
  | .imageLoad q seq img => Sys2Proof.Machine.execImageLoad q seq img s
  | .consistControlStart q seq => Sys2Proof.Machine.execConsistControlStart q seq s
  | .consistControlRestart q seq => Sys2Proof.Machine.execConsistControlRestart q seq s
  | .consistControlStop q seq => Sys2Proof.Machine.execConsistControlStop q seq s
  | .consistControlUnload q seq => Sys2Proof.Machine.execConsistControlUnload q seq s
  | .nounWrite q seq image => Sys2Proof.Machine.execNounWrite q seq image s
  | .manifestSlotWrite q seq => Sys2Proof.Machine.execManifestSlotWrite q seq s
  | .semDeclare q seq => Sys2Proof.Machine.execSemDeclare q seq s
  | .manifestSemReset q seq => Sys2Proof.Machine.execManifestSemReset q seq s
  | .manifestCopy q seq data ecc => Sys2Proof.Machine.execManifestCopy q seq data ecc s
  | .depotRead q seq ecc => Sys2Proof.Machine.execDepotRead q seq ecc s
  | .depotWrite q seq ecc => Sys2Proof.Machine.execDepotWrite q seq ecc s
  | .ruleLoad q seq rule => Sys2Proof.Machine.execRuleLoad q seq rule s
  | .layerWrite q seq => Sys2Proof.Machine.execLayerWrite q seq s
  | .manifestComplete q seq => Sys2Proof.Machine.execManifestComplete q seq s
  | .queueEnable q => Sys2Proof.Machine.execQueueEnable q s
  | .queueDisable q => Sys2Proof.Machine.execQueueDisable q s
  | .apertureDescriptorWrite a bytes => Sys2Proof.Machine.execApertureDescriptorWrite a bytes s
  | .hostApertureRead off len ecc => Sys2Proof.Machine.execHostApertureRead off len ecc s
  | .hostApertureWrite off bytes => Sys2Proof.Machine.execHostApertureWrite off bytes s
  | .hostReservedAccess off len write => Sys2Proof.Machine.execHostReservedAccess off len write s
  | .grantObjectWrite who p sub val => Sys2Proof.Machine.execGrantObjectWrite who p sub val s
  | .grantCommit who p => Sys2Proof.Machine.execGrantCommit who p s
  | .grantRelease who p => Sys2Proof.Machine.execGrantRelease who p s
  | .grantDiscard who p => Sys2Proof.Machine.execGrantDiscard who p s
  | .grantForceRelease who p => Sys2Proof.Machine.execGrantForceRelease who p s
  | .grantSwap p => Sys2Proof.Machine.execGrantSwap p s
  | .windowTableSwap p => Sys2Proof.Machine.execWindowTableSwap p s
  | .consistClearEnd k => Sys2Proof.Machine.execConsistClearEnd k s
  | .quoteRequest who bytes => Sys2Proof.Machine.execQuoteRequest who bytes s
  | .depotKeyImport who p cipher proof => Sys2Proof.Machine.execDepotKeyImport who p cipher proof s
  | .debugOpen who v => Sys2Proof.Machine.execDebugOpen who v s
  | .tapUnlock sigOk => Sys2Proof.Machine.execTapUnlock sigOk s
  | .tapInstructionLoad load => Sys2Proof.Machine.execTapInstructionLoad load s
  | .debugEraseRelease => Sys2Proof.Machine.execDebugEraseRelease s
  | .debugEraseEnd => Sys2Proof.Machine.execDebugEraseEnd s
  | .identityCertWrite who bytes rootKey => Sys2Proof.Machine.execIdentityCertWrite who bytes rootKey s
  | .keyListWrite who sub p bytes => Sys2Proof.Machine.execKeyListWrite who sub p bytes s
  | .lmpRead r => Sys2Proof.Machine.execLmpRead r s
  | .lmpWrite r => Sys2Proof.Machine.execLmpWrite r s
  | .lmpReadIndex r => Sys2Proof.Machine.execLmpReadIndex r s
  | .bookRead r => Sys2Proof.Machine.execBookRead r s
  | .lmpCheckpointRead r => Sys2Proof.Machine.execLmpCheckpointRead r s
  | .lmpOpen r => Sys2Proof.Machine.execLmpOpen r s
  | .lmpOpenProof session requestId proof t => Sys2Proof.Machine.execLmpOpenProof session requestId proof t s
  | .lmpClose r => Sys2Proof.Machine.execLmpClose r s
  | .lmpOpenTimeout session t => Sys2Proof.Machine.execLmpOpenTimeout session t s
  | .lmpIdleTimeout session t => Sys2Proof.Machine.execLmpIdleTimeout session t s
  | .lmpSnapshotExpiry session t => Sys2Proof.Machine.execLmpSnapshotExpiry session t s
  | .lmpSegmentTimeout key t => Sys2Proof.Machine.execLmpSegmentTimeout key t s
  | .mgmtSettingsApply t => Sys2Proof.Machine.execMgmtSettingsApply t s
  | .bookCheckpoint t => Sys2Proof.Machine.execBookCheckpoint t s
  | .bookCheckpointSign => Sys2Proof.Machine.execBookCheckpointSign s
  | .bookExportMarkWrite who v => Sys2Proof.Machine.execBookExportMarkWrite who v s
  | .restoreDefaults who v => Sys2Proof.Machine.execRestoreDefaults who v s
  | .startUp e => Sys2Proof.Machine.execStartUp e s
  | .startupStepTimeout step t => Sys2Proof.Machine.execStartupStepTimeout step t s
  | .moduleRestart who => Sys2Proof.Machine.execModuleRestart who s
  | .moduleRestartForce who => Sys2Proof.Machine.execModuleRestartForce who s
  | .ledgerClear who v => Sys2Proof.Machine.execLedgerClear who v s
  | .fwChunk who bytes => Sys2Proof.Machine.execFwChunk who bytes s
  | .fwVerify who sigKey => Sys2Proof.Machine.execFwVerify who sigKey s
  | .fwCommit who => Sys2Proof.Machine.execFwCommit who s
  | .fwCommitEnd ok => Sys2Proof.Machine.execFwCommitEnd ok s
  | .fwActivate who => Sys2Proof.Machine.execFwActivate who s
  | .fwDrop who => Sys2Proof.Machine.execFwDrop who s
  | .recoveryCommand cmd sigKey programmed => Sys2Proof.Machine.execRecoveryCommand cmd sigKey programmed s
  | .domainOnRequest who d => Sys2Proof.Machine.execDomainOnRequest who d s
  | .domainRetentionRequest who d => Sys2Proof.Machine.execDomainRetentionRequest who d s
  | .domainOffRequest who d => Sys2Proof.Machine.execDomainOffRequest who d s
  | .domainEntryEnd d => Sys2Proof.Machine.execDomainEntryEnd d s
  | .domainWakeEnd d => Sys2Proof.Machine.execDomainWakeEnd d s
  | .padRelease who d => Sys2Proof.Machine.execPadRelease who d s
  | .powerCapWrite who v => Sys2Proof.Machine.execPowerCapWrite who v s
  | .airflowWrite who v => Sys2Proof.Machine.execAirflowWrite who v s
  | .powerGuard draw => Sys2Proof.Machine.execPowerGuard draw s
  | .arrayDutyAdjust draw => Sys2Proof.Machine.execArrayDutyAdjust draw s
  | .thermalSample temps t => Sys2Proof.Machine.execThermalSample temps t s
  | .inletSample temp t => Sys2Proof.Machine.execInletSample temp t s
  | .inletCapRise t => Sys2Proof.Machine.execInletCapRise t s
  | .vinStart v t => Sys2Proof.Machine.execVinStart v t s
  | .vinLoss v t => Sys2Proof.Machine.execVinLoss v t s
  | .ppsEdge t => Sys2Proof.Machine.execPpsEdge t s
  | .todFrame bytes t => Sys2Proof.Machine.execTodFrame bytes t s
  | .ppsMissing t => Sys2Proof.Machine.execPpsMissing t s
  | .osfpPresent c t => Sys2Proof.Machine.execOsfpPresent c t s
  | .osfpLowPowerRelease c t => Sys2Proof.Machine.execOsfpLowPowerRelease c t s
  | .controlStateError f => Sys2Proof.Machine.execControlStateError f s
  | .vosfpLoss => Sys2Proof.Machine.execVosfpLoss s
  | .vosfpReturn => Sys2Proof.Machine.execVosfpReturn s
  | .osfpPresenceDeassert c => Sys2Proof.Machine.execOsfpPresenceDeassert c s
  | .queueDescriptorWrite q off bytes => Sys2Proof.Machine.execQueueDescriptorWrite q off bytes s
  | .entryAbandoned d => Sys2Proof.Machine.execEntryAbandoned d s

end Sys2Proof.Machine
end

