-- ==== Sys2Proof/WellFormed.lean ====
section
/-! DEFINITION. Which commands can exist: their operands fit the hardware's numbers (40 consists and partitions, 8 dies and
ports, 16 queues, 65,536 semaphores, 4,096 QPs, 256 host queues) and the widths of the fields that carry them. Everything
else is for the meanings to judge: a command that the module refuses is well formed. -/

namespace Sys2Proof

/-- A finite FP32 word. -/
def f32Ok (w : Nat) : Bool := decide (w < 2 ^ 32 ∧ w / 2 ^ 23 % 256 ≠ 255)

/-- An awaited token (R155): its semaphore, a base of 32 bits, four signed steps of 16 bits. -/
def Await.wf (w : Await) : Bool :=
  decide (w.sem < 65536 ∧ w.base < 2 ^ 32 ∧ w.step.length = 4) && w.step.all fun x => decide (-32768 ≤ x ∧ x < 32768)

/-- What every verb carries (R130): the consist (R27), its queue, at most four awaited tokens, bank masks of 16 bits. -/
def VerbHdr.wf (h : VerbHdr) : Bool :=
  decide (h.consist < 40 ∧ h.queue < 16 ∧ h.waits.length ≤ 4 ∧ h.rmask < 65536 ∧ h.wmask < 65536) &&
    h.waits.all Await.wf && (match h.post with
      | some i => decide (i < 65536)
      | none => true)

/-- A frame that reaches HRT: its numbers exist, its header is 32 octets (R353). -/
def HrtFrame.wf (f : HrtFrame) : Bool := decide (f.part < 40 ∧ f.port < 8 ∧ f.peer < 64 ∧ f.pcp < 8 ∧ f.wire.length = 32)

/-- A key message, recognised by its QP and its subtype (R352). -/
def HrtFrame.keyWf (f : HrtFrame) (code : Nat) : Bool := f.wf && f.hdr.opcode = 3 && f.hdr.code = code && f.hdr.dstQp = 0xFFFF

/-- A control subtype that Table 3 of 13 does not list. -/
def ctrlReserved (code : Nat) : Bool := decide (code ≠ 0x01 ∧ code ≠ 0x02 ∧ code ≠ 0x10 ∧ code ≠ 0x11 ∧ code ≠ 0x12 ∧ code ≠ 0x20)

/-- A frame at the MAC: fills of a receive buffer of 2 MiB a part. -/
def RxFrame.wf (f : RxFrame) : Bool := decide (f.shared ≤ 2097152 ∧ f.reserved ≤ 2097152)

/-- A management frame: the widths of Table 5 of 16; a mailbox that exists, or 64. -/
def LmpReq.wf (r : LmpReq) : Bool :=
  decide (r.session < 2 ^ 32 ∧ (r.mailbox < 42 ∨ r.mailbox = 64) ∧ r.frameSeq < 2 ^ 32 ∧ r.requestId < 2 ^ 32 ∧ r.index < 65536 ∧ r.sub < 256 ∧
    r.offset < 2 ^ 32 ∧ r.total < 2 ^ 32 ∧ r.length < 2 ^ 32)

/-- What a start-up finds: 40 consists, 8 dies with 4 spares each, 64 channels, a component for each of 5 slots. -/
def BootEnv.wf (e : BootEnv) : Bool :=
  (e.findings.all fun f => decide (f.fenced < 2 ^ 64)) && decide (e.failedCores.length = 40 ∧ e.failedSpares.length = 8 ∧ e.memChannels < 2 ^ 64 ∧
    e.components.length = 5) && e.failedSpares.all fun n => decide (n ≤ 4)

def CtrlFault.wf : CtrlFault → Bool
  | .semaphore i => decide (i < 65536)
  | .sequencer k => decide (k < 40)
  | .scoreboard k core _ => decide (k < 40 ∧ core < 20)

/-- The depot channel of a background operation: a block's channel is its number modulo 16. -/
def DepotBg.channel : DepotBg → Nat
  | .collect c => c
  | .erase c => c
  | .exhaust c => c
  | .relocate b => b % 16
  | .level b => b % 16

/-- Whether a command's operands are in range. -/
def Instr.wf (i : Instr) : Bool :=
  match i with
  | .mma h _ => h.wf
  | .mmaSplit2 h _ => h.wf
  | .mmaSplit3 h _ => h.wf
  | .vrun h _ => h.wf
  | .stream h _ => h.wf
  | .atomicAdd h _ => h.wf
  | .post h sem => h.wf && decide (sem < 65536)
  | .wait h => h.wf
  | .signalArrive h sem count => h.wf && decide (sem < 65536 ∧ count < 2 ^ 32)
  | .semReset h sem count => h.wf && decide (sem < 65536 ∧ count < 2 ^ 32)
  | .scaleAdjustShift h _ _ => h.wf
  | .scaleAdjustFresh h _ => h.wf
  | .scaleAdjustApply h _ => h.wf
  | .loopBegin h _ => h.wf
  | .loopEnd h => h.wf
  | .slotWrite h _ _ => h.wf
  | .nounSet h _ _ _ => h.wf
  | .slotMark h o => h.wf && decide (o.slot < 65536 ∧ o.offset < 65536)
  | .nop h => h.wf
  | .halt h => h.wf
  | .verbIssue k core _ => decide (k < 40 ∧ core < 20)
  | .verbTokenPost k _ => decide (k < 40)
  | .broadcastResume k _ => decide (k < 40)
  | .controlVerbRelease k => decide (k < 40)
  | .allReduce h c => h.wf && decide (c.baseSem < 65536)
  | .allReduceFree h c => h.wf && decide (c.baseSem < 65536)
  | .reduceScatter h c => h.wf && decide (c.baseSem < 65536)
  | .allGather h c => h.wf && decide (c.baseSem < 65536)
  | .broadcast h c => h.wf && decide (c.baseSem < 65536)
  | .reduceToRoot h c => h.wf && decide (c.baseSem < 65536)
  | .allToAll h c => h.wf && decide (c.baseSem < 65536)
  | .maxReduce h c => h.wf && decide (c.baseSem < 65536)
  | .clusterBarrier h c => h.wf && decide (c.baseSem < 65536)
  | .gatherLayer h c => h.wf && decide (c.baseSem < 65536)
  | .dropLayer h c => h.wf && decide (c.baseSem < 65536)
  | .sendActivations h c => h.wf && decide (c.baseSem < 65536)
  | .recvActivations h c => h.wf && decide (c.baseSem < 65536)
  | .ringExchange h c => h.wf && decide (c.baseSem < 65536)
  | .statMergeAll h c => h.wf && decide (c.baseSem < 65536)
  | .pointsChange h c => h.wf && decide (c.baseSem < 65536)
  | .statMerge h c => h.wf && decide (c.baseSem < 65536)
  | .softmaxRows h c => h.wf && decide (c.baseSem < 65536)
  | .layerNorm h c => h.wf && decide (c.baseSem < 65536)
  | .rmsNorm h c => h.wf && decide (c.baseSem < 65536)
  | .gelu h c => h.wf && decide (c.baseSem < 65536)
  | .siluGate h c => h.wf && decide (c.baseSem < 65536)
  | .rotaryEmbed h c => h.wf && decide (c.baseSem < 65536)
  | .dropoutMask h c => h.wf && decide (c.baseSem < 65536)
  | .crossEntropy h c => h.wf && decide (c.baseSem < 65536)
  | .lossSubmit h c => h.wf && decide (c.baseSem < 65536)
  | .gradNorm h c => h.wf && decide (c.baseSem < 65536)
  | .gradClip h c => h.wf && decide (c.baseSem < 65536)
  | .scaleLayer h c => h.wf && decide (c.baseSem < 65536)
  | .histogramClear h c => h.wf && decide (c.baseSem < 65536)
  | .convert h c => h.wf && decide (c.baseSem < 65536)
  | .transpose h c => h.wf && decide (c.baseSem < 65536)
  | .fill h c => h.wf && decide (c.baseSem < 65536)
  | .copy h c => h.wf && decide (c.baseSem < 65536)
  | .gatherRows h c => h.wf && decide (c.baseSem < 65536)
  | .scatterAddRows h c => h.wf && decide (c.baseSem < 65536)
  | .spillToNear h c => h.wf && decide (c.baseSem < 65536)
  | .resumeFromNear h c => h.wf && decide (c.baseSem < 65536)
  | .prefetchLayer h c => h.wf && decide (c.baseSem < 65536)
  | .checkpointWrite h c => h.wf && decide (c.baseSem < 65536)
  | .checkpointRead h c => h.wf && decide (c.baseSem < 65536)
  | .datasetRead h c => h.wf && decide (c.baseSem < 65536)
  | .windowRegister h c => h.wf && decide (c.baseSem < 65536)
  | .windowRelease h c => h.wf && decide (c.baseSem < 65536)
  | .updateAdamw h c => h.wf && decide (c.baseSem < 65536)
  | .updateAdamL2 h c => h.wf && decide (c.baseSem < 65536)
  | .updateSgdMomentum h c => h.wf && decide (c.baseSem < 65536)
  | .updateCustom h c => h.wf && decide (c.baseSem < 65536)
  | .updateShardCheck p _ => decide (p < 40)
  | .stepVote h c => h.wf && decide (c.baseSem < 65536)
  | .stepCounterRead h c => h.wf && decide (c.baseSem < 65536)
  | .freezeSet h c => h.wf && decide (c.baseSem < 65536)
  | .layerScaleSet h c => h.wf && decide (c.baseSem < 65536)
  | .sidingPark h _ => h.wf
  | .sidingDrain h => h.wf
  | .attentionFwd h c => h.wf && decide (c.baseSem < 65536)
  | .attentionBwd h c => h.wf && decide (c.baseSem < 65536)
  | .causalMask h c => h.wf && decide (c.baseSem < 65536)
  | .attentionMerge h c => h.wf && decide (c.baseSem < 65536)
  | .matmulBias h c => h.wf && decide (c.baseSem < 65536)
  | .matmulFp32 h c => h.wf && decide (c.baseSem < 65536)
  | .topkRoute h c => h.wf && decide (c.baseSem < 65536)
  | .expertDispatch h c => h.wf && decide (c.baseSem < 65536)
  | .expertCombine h c => h.wf && decide (c.baseSem < 65536)
  | .selfTest h c => h.wf && decide (c.baseSem < 65536)
  | .sidingEntryStart k _ _ => decide (k < 40)
  | .tickBoundary _ draws => decide (draws.length = 11)
  | .tickChange => true
  | .tickChangeAtWrite _ v => decide (v < 2 ^ 64)
  | .tickEpochWrite _ v => decide (v < 2 ^ 64)
  | .slotStart k => decide (k < 40)
  | .slotComplete k _ _ => decide (k < 40)
  | .deadlockSearch => true
  | .ptpSyncRx m => decide (m.port < 8)
  | .ptpFollowUpRx m => decide (m.port < 8)
  | .ptpAnnounceRx m => decide (m.port < 8)
  | .ptpDelayReqTx _ => true
  | .ptpDelayRespRx m => decide (m.port < 8)
  | .ptpSyncTimeout _ => true
  | .alignmentRegain _ => true
  | .timeStep _ => true
  | .granuleScrub _ g => decide (g < 6400)
  | .granuleScrubEnd _ g => decide (g < 6400)
  | .patrolRead addr _ => decide (addr < 2 ^ 64)
  | .blockDispatch die _ => decide (die < 8)
  | .blockComplete die _ _ => decide (die < 8)
  | .multicastUncouple => true
  | .depotWriteResume channel => decide (channel < 16)
  | .depotBackgroundOp op _ _ => decide (op.channel < 16)
  | .depotDisturbRefresh block => decide (block < 2 ^ 32)
  | .depotAgeRefresh block => decide (block < 2 ^ 32)
  | .depotPreserveSet _ q => decide (q < 65536)
  | .depotPreserveClear _ q => decide (q < 65536)
  | .layerTableAddrWrite _ p addr => decide (p < 40 ∧ addr < 2 ^ 64)
  | .voteRx f => f.wf && decide (f.hdr.opcode = 3 ∧ f.hdr.code = 0x10)
  | .stepWaitExpiry p => decide (p < 40)
  | .decisionRx f => f.wf && decide (f.hdr.opcode = 3 ∧ f.hdr.code = 0x11)
  | .decisionApply p => decide (p < 40)
  | .inflectorWalkEnd k handle => decide (k < 40 ∧ handle < 4096)
  | .shardApplyEnd p _ _ => decide (p < 40)
  | .inDoubtEntry p => decide (p < 40)
  | .inDoubtResolve _ p _ => decide (p < 40)
  | .holdDecision _ p _ => decide (p < 40)
  | .revisedVoteRx f => f.wf && decide (f.hdr.opcode = 3 ∧ f.hdr.code = 0x12)
  | .rollback p => decide (p < 40)
  | .jobMapAddrWrite _ p addr => decide (p < 40 ∧ addr < 2 ^ 64)
  | .pointsSwap p => decide (p < 40)
  | .pathShadowLoad _ p addr => decide (p < 40 ∧ addr < 2 ^ 64)
  | .frameRx n f => f.wf && decide (n < 9)
  | .frameTx n _ => decide (n < 8)
  | .pauseRx n quanta => decide (n < 8 ∧ quanta < 65536)
  | .pfcRx n classes quanta => (quanta.all fun q => q < 65536) && decide (n < 8 ∧ classes < 256 ∧ quanta.length = 8)
  | .pauseRefresh n shared reserved => decide (n < 8 ∧ shared ≤ 2097152 ∧ reserved ≤ 2097152)
  | .pauseQuantaExpiry n => decide (n < 8)
  | .linkDown n => decide (n < 9)
  | .linkUp n => decide (n < 9)
  | .cageModeWrite _ v => decide (v < 256)
  | .vidWrite _ p v => decide (p < 40 ∧ v < 65536)
  | .portMapWrite _ p v => decide (p < 40 ∧ v < 256)
  | .portEnableWrite _ n v => decide (n < 8 ∧ v < 256)
  | .keyOfferRx o => o.frame.keyWf 1
  | .keyAcceptRx o => o.frame.keyWf 2
  | .keyAcceptTimeout p n peer _ => decide (p < 40 ∧ n < 8 ∧ peer < 64)
  | .hrtWriteRx f => f.wf && (f.hdr.opcode = 0 || 5 ≤ f.hdr.opcode)
  | .hrtAddRx f => f.wf && (f.hdr.opcode = 1 || 5 ≤ f.hdr.opcode)
  | .hrtAckRx f => f.wf && (f.hdr.opcode = 2 || 5 ≤ f.hdr.opcode)
  | .hrtWindowWriteRx f => f.wf && (f.hdr.opcode = 4 || 5 ≤ f.hdr.opcode)
  | .bufferFreeRx f => f.wf && (f.hdr.code = 0x20 || ctrlReserved f.hdr.code) && decide (f.hdr.opcode = 3)
  | .hrtAckDelay qp => decide (qp < 4096)
  | .hrtRtoExpiry qp psn _ => decide (qp < 4096 ∧ psn < 2 ^ 32)
  | .partnerTimeout qp _ => decide (qp < 4096)
  | .peerSlowDetect qp => decide (qp < 4096)
  | .peerQuarantineClear _ p peer => decide (p < 40 ∧ peer < 256)
  | .linkError l _ => decide (l < 2)
  | .linkRetrainDone l _ => decide (l < 2)
  | .linkRetryExpiry _ => true
  | .hostRstAssert _ => true
  | .hostRstRelease _ => true
  | .holdQuiesce => true
  | .holdRecordWrite => true
  | .adopt epoch digest => decide (epoch < 2 ^ 64 ∧ digest.length = 32)
  | .adoptionEnd => true
  | .reAttach => true
  | .holdDiscard => true
  | .doorbellSqTail q v => decide (q < 256 ∧ v < 2 ^ 32)
  | .doorbellCqHead q v => decide (q < 256 ∧ v < 2 ^ 32)
  | .manifestFetch q bytes => decide (q < 256 ∧ bytes.length % 64 = 0 ∧ 64 ≤ bytes.length ∧ bytes.length ≤ 1024)
  | .manifestReread q bytes => decide (q < 256 ∧ bytes.length = 64)
  | .manifestNop q seq => decide (q < 256 ∧ seq < 2 ^ 32)
  | .imageLoad q seq _ => decide (q < 256 ∧ seq < 2 ^ 32)
  | .consistControlStart q seq => decide (q < 256 ∧ seq < 2 ^ 32)
  | .consistControlRestart q seq => decide (q < 256 ∧ seq < 2 ^ 32)
  | .consistControlStop q seq => decide (q < 256 ∧ seq < 2 ^ 32)
  | .consistControlUnload q seq => decide (q < 256 ∧ seq < 2 ^ 32)
  | .nounWrite q seq _ => decide (q < 256 ∧ seq < 2 ^ 32)
  | .manifestSlotWrite q seq => decide (q < 256 ∧ seq < 2 ^ 32)
  | .semDeclare q seq => decide (q < 256 ∧ seq < 2 ^ 32)
  | .manifestSemReset q seq => decide (q < 256 ∧ seq < 2 ^ 32)
  | .manifestCopy q seq _ _ => decide (q < 256 ∧ seq < 2 ^ 32)
  | .depotRead q seq _ => decide (q < 256 ∧ seq < 2 ^ 32)
  | .depotWrite q seq _ => decide (q < 256 ∧ seq < 2 ^ 32)
  | .ruleLoad q seq _ => decide (q < 256 ∧ seq < 2 ^ 32)
  | .layerWrite q seq => decide (q < 256 ∧ seq < 2 ^ 32)
  | .manifestComplete q seq => decide (q < 256 ∧ seq < 2 ^ 32)
  | .queueEnable q => decide (q < 256)
  | .queueDisable q => decide (q < 256)
  | .apertureDescriptorWrite a bytes => decide (1 ≤ a ∧ a < 32 ∧ bytes.length = 32)
  | .hostApertureRead off len _ => decide (len ≤ 4096 ∧ off + len ≤ 2 ^ 38)
  | .hostApertureWrite off bytes => decide (bytes.length ≤ 4096 ∧ off + bytes.length ≤ 2 ^ 38)
  | .hostReservedAccess off len _ => decide (len ≤ 4096 ∧ off < 2 ^ 38)
  | .grantObjectWrite _ p sub _ => decide (p < 40 ∧ 2 ≤ sub ∧ sub ≤ 8)
  | .grantCommit _ p => decide (p < 40)
  | .grantRelease _ p => decide (p < 40)
  | .grantDiscard _ p => decide (p < 40)
  | .grantForceRelease _ p => decide (p < 40)
  | .grantSwap p => decide (p < 40)
  | .windowTableSwap p => decide (p < 40)
  | .consistClearEnd k => decide (k < 40)
  | .quoteRequest _ _ => true
  | .depotKeyImport _ p _ _ => decide (p < 40)
  | .debugOpen _ v => decide (v < 256)
  | .tapUnlock _ => true
  | .tapInstructionLoad _ => true
  | .debugEraseRelease => true
  | .debugEraseEnd => true
  | .identityCertWrite _ _ _ => true
  | .keyListWrite _ sub p _ => decide (0x0C ≤ sub ∧ sub ≤ 0x0E ∧ p < 40)
  | .lmpRead r => r.wf
  | .lmpWrite r => r.wf
  | .lmpReadIndex r => r.wf
  | .bookRead r => r.wf
  | .lmpCheckpointRead r => r.wf
  | .lmpOpen r => decide (r.requestId < 2 ^ 32 ∧ r.role < 256 ∧ r.part < 256)
  | .lmpOpenProof session requestId _ _ => decide (session < 2 ^ 32 ∧ requestId < 2 ^ 32)
  | .lmpClose r => r.wf
  | .lmpOpenTimeout _ _ => true
  | .lmpIdleTimeout _ _ => true
  | .lmpSnapshotExpiry _ _ => true
  | .lmpSegmentTimeout _ _ => true
  | .mgmtSettingsApply _ => true
  | .bookCheckpoint _ => true
  | .bookCheckpointSign => true
  | .bookExportMarkWrite _ v => decide (v < 2 ^ 64)
  | .restoreDefaults _ v => decide (v < 256)
  | .startUp e => e.wf
  | .startupStepTimeout step _ => decide (step < 14)
  | .moduleRestart _ => true
  | .moduleRestartForce _ => true
  | .ledgerClear _ v => decide (v < 256)
  | .fwChunk _ _ => true
  | .fwVerify _ _ => true
  | .fwCommit _ => true
  | .fwCommitEnd _ => true
  | .fwActivate _ => true
  | .fwDrop _ => true
  | .recoveryCommand cmd _ _ => decide (cmd < 256)
  | .domainOnRequest _ d => decide (d < 128)
  | .domainRetentionRequest _ d => decide (d < 128)
  | .domainOffRequest _ d => decide (d < 128)
  | .domainEntryEnd d => decide (d < 128)
  | .domainWakeEnd d => decide (d < 128)
  | .padRelease _ d => decide (d < 256)
  | .powerCapWrite _ v => decide (v < 65536)
  | .airflowWrite _ v => decide (v < 65536)
  | .powerGuard _ => true
  | .arrayDutyAdjust draw => decide (draw < 65536)
  | .thermalSample temps _ => (temps.all f32Ok) && decide (temps ≠ [])
  | .inletSample temp _ => f32Ok temp
  | .inletCapRise _ => true
  | .vinStart v _ => f32Ok v
  | .vinLoss v _ => f32Ok v
  | .ppsEdge _ => true
  | .todFrame _ _ => true
  | .ppsMissing _ => true
  | .osfpPresent c _ => decide (c < 4)
  | .osfpLowPowerRelease c _ => decide (c < 4)
  | .controlStateError f => f.wf
  | .vosfpLoss => true
  | .vosfpReturn => true
  | .osfpPresenceDeassert c => decide (c < 4)
  | .queueDescriptorWrite q off bytes => decide (q < 256 ∧ off + bytes.length ≤ 64)
  | .entryAbandoned d => decide (d < 128)

/-- The consist that a command names. -/
def Instr.consist? (i : Instr) : Option Nat :=
  match i with
  | .mma h _ => some h.consist
  | .mmaSplit2 h _ => some h.consist
  | .mmaSplit3 h _ => some h.consist
  | .vrun h _ => some h.consist
  | .stream h _ => some h.consist
  | .atomicAdd h _ => some h.consist
  | .post h _ => some h.consist
  | .wait h => some h.consist
  | .signalArrive h _ _ => some h.consist
  | .semReset h _ _ => some h.consist
  | .scaleAdjustShift h _ _ => some h.consist
  | .scaleAdjustFresh h _ => some h.consist
  | .scaleAdjustApply h _ => some h.consist
  | .loopBegin h _ => some h.consist
  | .loopEnd h => some h.consist
  | .slotWrite h _ _ => some h.consist
  | .nounSet h _ _ _ => some h.consist
  | .slotMark h _ => some h.consist
  | .nop h => some h.consist
  | .halt h => some h.consist
  | .verbIssue k _ _ => some k
  | .verbTokenPost k _ => some k
  | .broadcastResume k _ => some k
  | .controlVerbRelease k => some k
  | .allReduce h _ => some h.consist
  | .allReduceFree h _ => some h.consist
  | .reduceScatter h _ => some h.consist
  | .allGather h _ => some h.consist
  | .broadcast h _ => some h.consist
  | .reduceToRoot h _ => some h.consist
  | .allToAll h _ => some h.consist
  | .maxReduce h _ => some h.consist
  | .clusterBarrier h _ => some h.consist
  | .gatherLayer h _ => some h.consist
  | .dropLayer h _ => some h.consist
  | .sendActivations h _ => some h.consist
  | .recvActivations h _ => some h.consist
  | .ringExchange h _ => some h.consist
  | .statMergeAll h _ => some h.consist
  | .pointsChange h _ => some h.consist
  | .statMerge h _ => some h.consist
  | .softmaxRows h _ => some h.consist
  | .layerNorm h _ => some h.consist
  | .rmsNorm h _ => some h.consist
  | .gelu h _ => some h.consist
  | .siluGate h _ => some h.consist
  | .rotaryEmbed h _ => some h.consist
  | .dropoutMask h _ => some h.consist
  | .crossEntropy h _ => some h.consist
  | .lossSubmit h _ => some h.consist
  | .gradNorm h _ => some h.consist
  | .gradClip h _ => some h.consist
  | .scaleLayer h _ => some h.consist
  | .histogramClear h _ => some h.consist
  | .convert h _ => some h.consist
  | .transpose h _ => some h.consist
  | .fill h _ => some h.consist
  | .copy h _ => some h.consist
  | .gatherRows h _ => some h.consist
  | .scatterAddRows h _ => some h.consist
  | .spillToNear h _ => some h.consist
  | .resumeFromNear h _ => some h.consist
  | .prefetchLayer h _ => some h.consist
  | .checkpointWrite h _ => some h.consist
  | .checkpointRead h _ => some h.consist
  | .datasetRead h _ => some h.consist
  | .windowRegister h _ => some h.consist
  | .windowRelease h _ => some h.consist
  | .updateAdamw h _ => some h.consist
  | .updateAdamL2 h _ => some h.consist
  | .updateSgdMomentum h _ => some h.consist
  | .updateCustom h _ => some h.consist
  | .updateShardCheck _ _ => none
  | .stepVote h _ => some h.consist
  | .stepCounterRead h _ => some h.consist
  | .freezeSet h _ => some h.consist
  | .layerScaleSet h _ => some h.consist
  | .sidingPark h _ => some h.consist
  | .sidingDrain h => some h.consist
  | .attentionFwd h _ => some h.consist
  | .attentionBwd h _ => some h.consist
  | .causalMask h _ => some h.consist
  | .attentionMerge h _ => some h.consist
  | .matmulBias h _ => some h.consist
  | .matmulFp32 h _ => some h.consist
  | .topkRoute h _ => some h.consist
  | .expertDispatch h _ => some h.consist
  | .expertCombine h _ => some h.consist
  | .selfTest h _ => some h.consist
  | .sidingEntryStart k _ _ => some k
  | .tickBoundary _ _ => none
  | .tickChange => none
  | .tickChangeAtWrite _ _ => none
  | .tickEpochWrite _ _ => none
  | .slotStart k => some k
  | .slotComplete k _ _ => some k
  | .deadlockSearch => none
  | .ptpSyncRx _ => none
  | .ptpFollowUpRx _ => none
  | .ptpAnnounceRx _ => none
  | .ptpDelayReqTx _ => none
  | .ptpDelayRespRx _ => none
  | .ptpSyncTimeout _ => none
  | .alignmentRegain _ => none
  | .timeStep _ => none
  | .granuleScrub _ _ => none
  | .granuleScrubEnd _ _ => none
  | .patrolRead _ _ => none
  | .blockDispatch _ _ => none
  | .blockComplete _ _ _ => none
  | .multicastUncouple => none
  | .depotWriteResume _ => none
  | .depotBackgroundOp _ _ _ => none
  | .depotDisturbRefresh _ => none
  | .depotAgeRefresh _ => none
  | .depotPreserveSet _ _ => none
  | .depotPreserveClear _ _ => none
  | .layerTableAddrWrite _ _ _ => none
  | .voteRx _ => none
  | .stepWaitExpiry _ => none
  | .decisionRx _ => none
  | .decisionApply _ => none
  | .inflectorWalkEnd k _ => some k
  | .shardApplyEnd _ _ _ => none
  | .inDoubtEntry _ => none
  | .inDoubtResolve _ _ _ => none
  | .holdDecision _ _ _ => none
  | .revisedVoteRx _ => none
  | .rollback _ => none
  | .jobMapAddrWrite _ _ _ => none
  | .pointsSwap _ => none
  | .pathShadowLoad _ _ _ => none
  | .frameRx _ _ => none
  | .frameTx _ _ => none
  | .pauseRx _ _ => none
  | .pfcRx _ _ _ => none
  | .pauseRefresh _ _ _ => none
  | .pauseQuantaExpiry _ => none
  | .linkDown _ => none
  | .linkUp _ => none
  | .cageModeWrite _ _ => none
  | .vidWrite _ _ _ => none
  | .portMapWrite _ _ _ => none
  | .portEnableWrite _ _ _ => none
  | .keyOfferRx _ => none
  | .keyAcceptRx _ => none
  | .keyAcceptTimeout _ _ _ _ => none
  | .hrtWriteRx _ => none
  | .hrtAddRx _ => none
  | .hrtAckRx _ => none
  | .hrtWindowWriteRx _ => none
  | .bufferFreeRx _ => none
  | .hrtAckDelay _ => none
  | .hrtRtoExpiry _ _ _ => none
  | .partnerTimeout _ _ => none
  | .peerSlowDetect _ => none
  | .peerQuarantineClear _ _ _ => none
  | .linkError _ _ => none
  | .linkRetrainDone _ _ => none
  | .linkRetryExpiry _ => none
  | .hostRstAssert _ => none
  | .hostRstRelease _ => none
  | .holdQuiesce => none
  | .holdRecordWrite => none
  | .adopt _ _ => none
  | .adoptionEnd => none
  | .reAttach => none
  | .holdDiscard => none
  | .doorbellSqTail _ _ => none
  | .doorbellCqHead _ _ => none
  | .manifestFetch _ _ => none
  | .manifestReread _ _ => none
  | .manifestNop _ _ => none
  | .imageLoad _ _ _ => none
  | .consistControlStart _ _ => none
  | .consistControlRestart _ _ => none
  | .consistControlStop _ _ => none
  | .consistControlUnload _ _ => none
  | .nounWrite _ _ _ => none
  | .manifestSlotWrite _ _ => none
  | .semDeclare _ _ => none
  | .manifestSemReset _ _ => none
  | .manifestCopy _ _ _ _ => none
  | .depotRead _ _ _ => none
  | .depotWrite _ _ _ => none
  | .ruleLoad _ _ _ => none
  | .layerWrite _ _ => none
  | .manifestComplete _ _ => none
  | .queueEnable _ => none
  | .queueDisable _ => none
  | .apertureDescriptorWrite _ _ => none
  | .hostApertureRead _ _ _ => none
  | .hostApertureWrite _ _ => none
  | .hostReservedAccess _ _ _ => none
  | .grantObjectWrite _ _ _ _ => none
  | .grantCommit _ _ => none
  | .grantRelease _ _ => none
  | .grantDiscard _ _ => none
  | .grantForceRelease _ _ => none
  | .grantSwap _ => none
  | .windowTableSwap _ => none
  | .consistClearEnd k => some k
  | .quoteRequest _ _ => none
  | .depotKeyImport _ _ _ _ => none
  | .debugOpen _ _ => none
  | .tapUnlock _ => none
  | .tapInstructionLoad _ => none
  | .debugEraseRelease => none
  | .debugEraseEnd => none
  | .identityCertWrite _ _ _ => none
  | .keyListWrite _ _ _ _ => none
  | .lmpRead _ => none
  | .lmpWrite _ => none
  | .lmpReadIndex _ => none
  | .bookRead _ => none
  | .lmpCheckpointRead _ => none
  | .lmpOpen _ => none
  | .lmpOpenProof _ _ _ _ => none
  | .lmpClose _ => none
  | .lmpOpenTimeout _ _ => none
  | .lmpIdleTimeout _ _ => none
  | .lmpSnapshotExpiry _ _ => none
  | .lmpSegmentTimeout _ _ => none
  | .mgmtSettingsApply _ => none
  | .bookCheckpoint _ => none
  | .bookCheckpointSign => none
  | .bookExportMarkWrite _ _ => none
  | .restoreDefaults _ _ => none
  | .startUp _ => none
  | .startupStepTimeout _ _ => none
  | .moduleRestart _ => none
  | .moduleRestartForce _ => none
  | .ledgerClear _ _ => none
  | .fwChunk _ _ => none
  | .fwVerify _ _ => none
  | .fwCommit _ => none
  | .fwCommitEnd _ => none
  | .fwActivate _ => none
  | .fwDrop _ => none
  | .recoveryCommand _ _ _ => none
  | .domainOnRequest _ _ => none
  | .domainRetentionRequest _ _ => none
  | .domainOffRequest _ _ => none
  | .domainEntryEnd _ => none
  | .domainWakeEnd _ => none
  | .padRelease _ _ => none
  | .powerCapWrite _ _ => none
  | .airflowWrite _ _ => none
  | .powerGuard _ => none
  | .arrayDutyAdjust _ => none
  | .thermalSample _ _ => none
  | .inletSample _ _ => none
  | .inletCapRise _ => none
  | .vinStart _ _ => none
  | .vinLoss _ _ => none
  | .ppsEdge _ => none
  | .todFrame _ _ => none
  | .ppsMissing _ => none
  | .osfpPresent _ _ => none
  | .osfpLowPowerRelease _ _ => none
  | .controlStateError _ => none
  | .vosfpLoss => none
  | .vosfpReturn => none
  | .osfpPresenceDeassert _ => none
  | .queueDescriptorWrite _ _ _ => none
  | .entryAbandoned _ => none

/-- The partition that a command names. -/
def Instr.part? (i : Instr) : Option Nat :=
  match i with
  | .mma _ _ => none
  | .mmaSplit2 _ _ => none
  | .mmaSplit3 _ _ => none
  | .vrun _ _ => none
  | .stream _ _ => none
  | .atomicAdd _ _ => none
  | .post _ _ => none
  | .wait _ => none
  | .signalArrive _ _ _ => none
  | .semReset _ _ _ => none
  | .scaleAdjustShift _ _ _ => none
  | .scaleAdjustFresh _ _ => none
  | .scaleAdjustApply _ _ => none
  | .loopBegin _ _ => none
  | .loopEnd _ => none
  | .slotWrite _ _ _ => none
  | .nounSet _ _ _ _ => none
  | .slotMark _ _ => none
  | .nop _ => none
  | .halt _ => none
  | .verbIssue _ _ _ => none
  | .verbTokenPost _ _ => none
  | .broadcastResume _ _ => none
  | .controlVerbRelease _ => none
  | .allReduce _ _ => none
  | .allReduceFree _ _ => none
  | .reduceScatter _ _ => none
  | .allGather _ _ => none
  | .broadcast _ _ => none
  | .reduceToRoot _ _ => none
  | .allToAll _ _ => none
  | .maxReduce _ _ => none
  | .clusterBarrier _ _ => none
  | .gatherLayer _ _ => none
  | .dropLayer _ _ => none
  | .sendActivations _ _ => none
  | .recvActivations _ _ => none
  | .ringExchange _ _ => none
  | .statMergeAll _ _ => none
  | .pointsChange _ _ => none
  | .statMerge _ _ => none
  | .softmaxRows _ _ => none
  | .layerNorm _ _ => none
  | .rmsNorm _ _ => none
  | .gelu _ _ => none
  | .siluGate _ _ => none
  | .rotaryEmbed _ _ => none
  | .dropoutMask _ _ => none
  | .crossEntropy _ _ => none
  | .lossSubmit _ _ => none
  | .gradNorm _ _ => none
  | .gradClip _ _ => none
  | .scaleLayer _ _ => none
  | .histogramClear _ _ => none
  | .convert _ _ => none
  | .transpose _ _ => none
  | .fill _ _ => none
  | .copy _ _ => none
  | .gatherRows _ _ => none
  | .scatterAddRows _ _ => none
  | .spillToNear _ _ => none
  | .resumeFromNear _ _ => none
  | .prefetchLayer _ _ => none
  | .checkpointWrite _ _ => none
  | .checkpointRead _ _ => none
  | .datasetRead _ _ => none
  | .windowRegister _ _ => none
  | .windowRelease _ _ => none
  | .updateAdamw _ _ => none
  | .updateAdamL2 _ _ => none
  | .updateSgdMomentum _ _ => none
  | .updateCustom _ _ => none
  | .updateShardCheck p _ => some p
  | .stepVote _ _ => none
  | .stepCounterRead _ _ => none
  | .freezeSet _ _ => none
  | .layerScaleSet _ _ => none
  | .sidingPark _ _ => none
  | .sidingDrain _ => none
  | .attentionFwd _ _ => none
  | .attentionBwd _ _ => none
  | .causalMask _ _ => none
  | .attentionMerge _ _ => none
  | .matmulBias _ _ => none
  | .matmulFp32 _ _ => none
  | .topkRoute _ _ => none
  | .expertDispatch _ _ => none
  | .expertCombine _ _ => none
  | .selfTest _ _ => none
  | .sidingEntryStart _ _ _ => none
  | .tickBoundary _ _ => none
  | .tickChange => none
  | .tickChangeAtWrite _ _ => none
  | .tickEpochWrite _ _ => none
  | .slotStart _ => none
  | .slotComplete _ _ _ => none
  | .deadlockSearch => none
  | .ptpSyncRx _ => none
  | .ptpFollowUpRx _ => none
  | .ptpAnnounceRx _ => none
  | .ptpDelayReqTx _ => none
  | .ptpDelayRespRx _ => none
  | .ptpSyncTimeout _ => none
  | .alignmentRegain _ => none
  | .timeStep _ => none
  | .granuleScrub _ _ => none
  | .granuleScrubEnd _ _ => none
  | .patrolRead _ _ => none
  | .blockDispatch _ _ => none
  | .blockComplete _ _ _ => none
  | .multicastUncouple => none
  | .depotWriteResume _ => none
  | .depotBackgroundOp _ _ _ => none
  | .depotDisturbRefresh _ => none
  | .depotAgeRefresh _ => none
  | .depotPreserveSet _ _ => none
  | .depotPreserveClear _ _ => none
  | .layerTableAddrWrite _ p _ => some p
  | .voteRx f => some f.part
  | .stepWaitExpiry p => some p
  | .decisionRx f => some f.part
  | .decisionApply p => some p
  | .inflectorWalkEnd _ _ => none
  | .shardApplyEnd p _ _ => some p
  | .inDoubtEntry p => some p
  | .inDoubtResolve _ p _ => some p
  | .holdDecision _ p _ => some p
  | .revisedVoteRx f => some f.part
  | .rollback p => some p
  | .jobMapAddrWrite _ p _ => some p
  | .pointsSwap p => some p
  | .pathShadowLoad _ p _ => some p
  | .frameRx _ _ => none
  | .frameTx _ _ => none
  | .pauseRx _ _ => none
  | .pfcRx _ _ _ => none
  | .pauseRefresh _ _ _ => none
  | .pauseQuantaExpiry _ => none
  | .linkDown _ => none
  | .linkUp _ => none
  | .cageModeWrite _ _ => none
  | .vidWrite _ p _ => some p
  | .portMapWrite _ p _ => some p
  | .portEnableWrite _ _ _ => none
  | .keyOfferRx o => some o.part
  | .keyAcceptRx o => some o.part
  | .keyAcceptTimeout p _ _ _ => some p
  | .hrtWriteRx f => some f.part
  | .hrtAddRx f => some f.part
  | .hrtAckRx f => some f.part
  | .hrtWindowWriteRx f => some f.part
  | .bufferFreeRx f => some f.part
  | .hrtAckDelay _ => none
  | .hrtRtoExpiry _ _ _ => none
  | .partnerTimeout _ _ => none
  | .peerSlowDetect _ => none
  | .peerQuarantineClear _ p _ => some p
  | .linkError _ _ => none
  | .linkRetrainDone _ _ => none
  | .linkRetryExpiry _ => none
  | .hostRstAssert _ => none
  | .hostRstRelease _ => none
  | .holdQuiesce => none
  | .holdRecordWrite => none
  | .adopt _ _ => none
  | .adoptionEnd => none
  | .reAttach => none
  | .holdDiscard => none
  | .doorbellSqTail _ _ => none
  | .doorbellCqHead _ _ => none
  | .manifestFetch _ _ => none
  | .manifestReread _ _ => none
  | .manifestNop _ _ => none
  | .imageLoad _ _ _ => none
  | .consistControlStart _ _ => none
  | .consistControlRestart _ _ => none
  | .consistControlStop _ _ => none
  | .consistControlUnload _ _ => none
  | .nounWrite _ _ _ => none
  | .manifestSlotWrite _ _ => none
  | .semDeclare _ _ => none
  | .manifestSemReset _ _ => none
  | .manifestCopy _ _ _ _ => none
  | .depotRead _ _ _ => none
  | .depotWrite _ _ _ => none
  | .ruleLoad _ _ _ => none
  | .layerWrite _ _ => none
  | .manifestComplete _ _ => none
  | .queueEnable _ => none
  | .queueDisable _ => none
  | .apertureDescriptorWrite _ _ => none
  | .hostApertureRead _ _ _ => none
  | .hostApertureWrite _ _ => none
  | .hostReservedAccess _ _ _ => none
  | .grantObjectWrite _ p _ _ => some p
  | .grantCommit _ p => some p
  | .grantRelease _ p => some p
  | .grantDiscard _ p => some p
  | .grantForceRelease _ p => some p
  | .grantSwap p => some p
  | .windowTableSwap p => some p
  | .consistClearEnd _ => none
  | .quoteRequest _ _ => none
  | .depotKeyImport _ p _ _ => some p
  | .debugOpen _ _ => none
  | .tapUnlock _ => none
  | .tapInstructionLoad _ => none
  | .debugEraseRelease => none
  | .debugEraseEnd => none
  | .identityCertWrite _ _ _ => none
  | .keyListWrite _ _ _ _ => none
  | .lmpRead _ => none
  | .lmpWrite _ => none
  | .lmpReadIndex _ => none
  | .bookRead _ => none
  | .lmpCheckpointRead _ => none
  | .lmpOpen _ => none
  | .lmpOpenProof _ _ _ _ => none
  | .lmpClose _ => none
  | .lmpOpenTimeout _ _ => none
  | .lmpIdleTimeout _ _ => none
  | .lmpSnapshotExpiry _ _ => none
  | .lmpSegmentTimeout _ _ => none
  | .mgmtSettingsApply _ => none
  | .bookCheckpoint _ => none
  | .bookCheckpointSign => none
  | .bookExportMarkWrite _ _ => none
  | .restoreDefaults _ _ => none
  | .startUp _ => none
  | .startupStepTimeout _ _ => none
  | .moduleRestart _ => none
  | .moduleRestartForce _ => none
  | .ledgerClear _ _ => none
  | .fwChunk _ _ => none
  | .fwVerify _ _ => none
  | .fwCommit _ => none
  | .fwCommitEnd _ => none
  | .fwActivate _ => none
  | .fwDrop _ => none
  | .recoveryCommand _ _ _ => none
  | .domainOnRequest _ _ => none
  | .domainRetentionRequest _ _ => none
  | .domainOffRequest _ _ => none
  | .domainEntryEnd _ => none
  | .domainWakeEnd _ => none
  | .padRelease _ _ => none
  | .powerCapWrite _ _ => none
  | .airflowWrite _ _ => none
  | .powerGuard _ => none
  | .arrayDutyAdjust _ => none
  | .thermalSample _ _ => none
  | .inletSample _ _ => none
  | .inletCapRise _ => none
  | .vinStart _ _ => none
  | .vinLoss _ _ => none
  | .ppsEdge _ => none
  | .todFrame _ _ => none
  | .ppsMissing _ => none
  | .osfpPresent _ _ => none
  | .osfpLowPowerRelease _ _ => none
  | .controlStateError _ => none
  | .vosfpLoss => none
  | .vosfpReturn => none
  | .osfpPresenceDeassert _ => none
  | .queueDescriptorWrite _ _ _ => none
  | .entryAbandoned _ => none

end Sys2Proof
end

