-- ==== Sys2Proof/Safety.lean ====
section
/-! DEFINITION. The words of the statements: canonical memory, a well-formed queue, a dictionary that takes writes, what a
taken write leaves in the book, what stays. -/

namespace Sys2Proof.Machine

/-- The memory holds its canonical form: rising addresses, no byte equal to what an unlisted address reads as. -/
def Memory.wf (m : MemSt) : Bool := cellsWf m.cells

/-- Every waiting command is well formed. -/
def queueWf (s : State) : Bool := s.pending.all Instr.wf

/-- The type of a dictionary object. -/
def keyTy (key : Nat) : OdTy := match odRow key with
  | some r => r.ty
  | none => .octets

/-- The dictionary takes a write of `v` to `key` now if the object's own checks pass: the signal box runs and the module has
started (R475), the book has room (R466), the value is of the object's type (R447). -/
def writeOpen (s : State) (key : Nat) (v : OdVal) : Bool :=
  dictUp s && !bookFull s 1024 && (!starting s || bootWritable s key) && typeOk (keyTy key) v

/-- The state with the book's entry of a taken write (R462, R463). -/
def entered (s : State) (w : Who) (key : Nat) (v : OdVal) : State :=
  appendEntry s (writeInfo w key (valOctets (keyTy key) v) (if tyOctets (keyTy key) = 0 then 0 else leNat (valOctets (keyTy key) v)) .ok)

/-- The answer that a write of `key` was taken. -/
def answered (s : State) (key : Nat) : State := emit s (.written key 0)

/-- The objects that every entry of the book changes. -/
def bookKeys : List Nat := [kBookHeadSerial, kBookHeadHash, kBookOldestSerial]

/-- Every object keeps its value, the listed ones apart. -/
def OdKept (keys : List Nat) (s t : State) : Prop := ∀ k, k ∉ keys → odVal t k = odVal s k

/-- Every view of every counter keeps its value, the listed counters apart. -/
def CtrKept (keys : List Nat) (s t : State) : Prop := ∀ k v, v < 64 → k ∉ keys → ctrGet t k v = ctrGet s k v

/-- The operator's view of a counter has gone up by `n`. -/
def Counted (s t : State) (k n : Nat) : Prop := ctrGet t k 0 = (ctrGet s k 0 + n) % 2 ^ 64

/-- Every byte of memory outside `n` bytes from `a` reads as before. -/
def MemKept (s t : State) (a n : Nat) : Prop := ∀ x, (x < a ∨ a + n ≤ x) → memGet t.mem x = memGet s.mem x

/-- A verb as it is broadcast: a scalar that names the stage coordinate is put in as a number (R131, R300). -/
def bound (x : VerbIn) (s : State) : VerbIn := { x with v := mapScalars (bindStage s x.h.consist) x.v }

/-- The entry that the broadcast of a verb makes (R128, R131, R155): nothing issued, no part ended. -/
def entryOf (x : VerbIn) (s : State) : VEntry :=
  let c := con s x.h.consist
  let x := bound x s
  { vi := c.vi, cls := verbClass x.v, queue := x.h.queue, verb := x.v,
    nouns := (resolveAll s x.h.consist (verbHandles x.v) (loopIndices c)).1, loopIx := loopIndices c,
    waits := awaited x.h (loopIndices c), post := verbPost x, rmask := x.h.rmask, wmask := x.h.wmask, issued := 0,
    parts := noParts, streams := List.replicate 20 ⟨0, none, false, []⟩, since := none, origin := none, judged := false,
    recv := [], phase := 0, ecc := x.h.ecc }

/-- The sequencer of the verb's consist, held by partition `p`, reaches a verb at once: it runs, neither a held verb nor a full queue that
a siding entry has met holds the broadcast, and no judgement of a verb held before is left (R125, R126, R145). -/
def reaches (x : VerbIn) (p : Nat) (s : State) : Bool :=
  let c := con s x.h.consist
  decide (c.pstate = .running) && !c.ending && decide (c.hold = none) && decide (c.ahead = []) && live s x.h.consist &&
  decide (conPart s x.h.consist = some p) && decide (c.stall = none) && decide (c.judged = none)

/-- A verb that runs on the cores passes the checks of its broadcast (R126, R134). -/
def broadcasts (x : VerbIn) (p : Nat) (s : State) : Bool :=
  let c := con s x.h.consist
  let b := bound x s
  let ns := resolveAll s x.h.consist (verbHandles b.v) (loopIndices c)
  reaches x p s && decide (p < 40) && !isControl x.v && (match x.v with
    | .park _ => false
    | _ => true) && decide (queueUsed c x.h.queue < 64) && (c.verbs.all fun e => e.vi ≠ c.vi) &&
  decide (broadcastCheck s p (loopIndices c) b (awaited b.h (loopIndices c)) ns.1 ns.2 = .ok)

/-- The state in which a verb has been broadcast and no core has issued it. -/
def admitted (x : VerbIn) (p : Nat) (s : State) : State :=
  bump (modCon s x.h.consist fun c => { c with verbs := c.verbs ++ [judge s.sems (entryOf x s)] }) kVerbsBroadcast 1 (some p)

/-- What the place after the verb notes: the verb after the latest `step_vote` (R520). -/
def passed (x : VerbIn) (s : State) : State :=
  match x.v with
  | .call r _ => if r = 0x30 then modCon s x.h.consist fun c => { c with afterVote := some (c.pos, c.vi) } else s
  | _ => s

/-- A broadcast verb finds its consist with no verb in flight, its partition's step neither held nor in doubt, and every awaited
token arrived without an error. -/
def runsAtOnce (x : VerbIn) (p : Nat) (s : State) : Bool :=
  let c := con s x.h.consist
  broadcasts x p s && !stepLocked s x.h.consist && decide (c.verbs = []) && waitsArrived s (entryOf x s).waits &&
  decide (errorOrigin s.sems (entryOf x s).waits = none) &&
  ((entryOf x s).nouns.all fun r => !(isBlockFmt r.n.format && (match tget none c.nouns r.handle with
    | some y => y.walk
    | none => false)))

/-- The entry of such a verb once all twenty cores have issued it. -/
def issuedEntry (x : VerbIn) (s : State) : VEntry := { entryOf x s with judged := true, issued := 2 ^ 20 - 1 }

/-- The state in which that entry alone is in flight. -/
def issuedAll (x : VerbIn) (p : Nat) (s : State) : State :=
  bump (modCon s x.h.consist fun c => { c with verbs := [issuedEntry x s] }) kVerbsBroadcast 1 (some p)

/-- A verb that does its work once, when all twenty cores have issued it (R132). -/
def isOnce : Verb → Bool
  | .signalArrive _ _ => true
  | .semReset _ _ => true
  | .scaleAdjust _ _ => true
  | .scaleApply _ => true
  | .call _ _ => true
  | _ => false

/-- A verb that does nothing on a core. -/
def isBare : Verb → Bool
  | .wait => true
  | .post _ => true
  | _ => false

/-- A control verb runs at once: reached, its awaited tokens arrived without an error, and it names no post (R127). -/
def controlRuns (x : VerbIn) (p : Nat) (s : State) : Bool :=
  let w := awaited x.h (loopIndices (con s x.h.consist))
  reaches x p s && isControl x.v && decide (x.h.post = none) && (w.all fun y => (semGet s y.1).part = p) && waitsArrived s w &&
  decide (errorOrigin s.sems w = none)

/-- No partition's step owes a no-vote for an error token that an engine posted (R289). -/
def nothingOwed (s : State) : Bool := s.parts.all fun x => (part s x.1).step.owed = none

/-- No byte of a range is byte 0 of a histogram base array, which reads as zero and takes no write (R88). -/
def NoHistZero (a n : Nat) : Prop := ∀ x, a ≤ x → x < a + n → histZero x = false

/-- A frame reaches the effect of its opcode on its own QP: a routed peer, not quarantined, well formed, permitted, on the QP's
own port, which is open and not absent (R353 to R359, R376). -/
def frameHeard (f : HrtFrame) (s : State) : Bool :=
  let v := qp s f.hdr.dstQp
  match jobOf s f.part with
  | none => false
  | some j => routed j f.peer f.port && !isQuarantined s f.part f.peer && !hrtMalformed f && v.isOpen && v.part = f.part &&
      v.peer = f.peer && qpPort f.hdr.dstQp = f.port && permitted (peerOf j f.peer).kind f.hdr && !v.absent

/-- A frame is the next that its QP expects, alone in its message, of the partition's own epoch, and calls for no ack yet. -/
def frameNext (f : HrtFrame) (s : State) : Bool :=
  let v := qp s f.hdr.dstQp
  frameHeard f s && !f.ce && v.expect = f.hdr.psn && decide (v.seen = []) && decide (v.rx = []) && f.hdr.frameIndex = 0 && f.hdr.last &&
  !f.hdr.ackNow && decide (v.sinceAck + 1 < 16) && f.hdr.epoch = (part s f.part).step.epoch

/-- Its QP once a frame that came at `t` has been taken (R361, R362). -/
def qpTaken (v : Qp) (psn t : Nat) : Qp :=
  { v with expect := (psn + 1) % 2 ^ 32, sinceAck := v.sinceAck + 1, ackDue := some (v.ackDue.getD t) }

/-- The verb that a command of a stream carries, with what every verb carries (Table 1 and Table 8 of 05). -/
def verbOf : Instr → Option VerbIn
  | .mma h o => some ⟨h, .matrix .plain o⟩
  | .mmaSplit2 h o => some ⟨h, .matrix .split2 o⟩
  | .mmaSplit3 h o => some ⟨h, .matrix .split3 o⟩
  | .vrun h o => some ⟨h, .vector o⟩
  | .stream h o => some ⟨h, .stream o⟩
  | .atomicAdd h o => some ⟨h, .atomicAdd o⟩
  | .post h sem => some ⟨h, .post sem⟩
  | .wait h => some ⟨h, .wait⟩
  | .signalArrive h sem count => some ⟨h, .signalArrive sem count⟩
  | .semReset h sem count => some ⟨h, .semReset sem count⟩
  | .scaleAdjustShift h noun amount => some ⟨h, .scaleAdjust noun (.shift amount)⟩
  | .scaleAdjustFresh h noun => some ⟨h, .scaleAdjust noun .fresh⟩
  | .scaleAdjustApply h noun => some ⟨h, .scaleApply noun⟩
  | .loopBegin h slot => some ⟨h, .loopBegin slot⟩
  | .loopEnd h => some ⟨h, .loopEnd⟩
  | .slotWrite h addr slot => some ⟨h, .slotWrite addr slot⟩
  | .nounSet h handle addr image => some ⟨h, .nounSet handle addr image⟩
  | .slotMark h o => some ⟨h, .slotMark o⟩
  | .nop h => some ⟨h, .nop⟩
  | .halt h => some ⟨h, .halt⟩
  | .allReduce h c => some ⟨h, .call 0x00 c⟩
  | .allReduceFree h c => some ⟨h, .call 0x01 c⟩
  | .reduceScatter h c => some ⟨h, .call 0x02 c⟩
  | .allGather h c => some ⟨h, .call 0x03 c⟩
  | .broadcast h c => some ⟨h, .call 0x04 c⟩
  | .reduceToRoot h c => some ⟨h, .call 0x05 c⟩
  | .allToAll h c => some ⟨h, .call 0x06 c⟩
  | .maxReduce h c => some ⟨h, .call 0x07 c⟩
  | .clusterBarrier h c => some ⟨h, .call 0x08 c⟩
  | .gatherLayer h c => some ⟨h, .call 0x09 c⟩
  | .dropLayer h c => some ⟨h, .call 0x0A c⟩
  | .sendActivations h c => some ⟨h, .call 0x0B c⟩
  | .recvActivations h c => some ⟨h, .call 0x0C c⟩
  | .ringExchange h c => some ⟨h, .call 0x0D c⟩
  | .statMergeAll h c => some ⟨h, .call 0x0E c⟩
  | .pointsChange h c => some ⟨h, .call 0x0F c⟩
  | .statMerge h c => some ⟨h, .call 0x10 c⟩
  | .softmaxRows h c => some ⟨h, .call 0x11 c⟩
  | .layerNorm h c => some ⟨h, .call 0x12 c⟩
  | .rmsNorm h c => some ⟨h, .call 0x13 c⟩
  | .gelu h c => some ⟨h, .call 0x14 c⟩
  | .siluGate h c => some ⟨h, .call 0x15 c⟩
  | .rotaryEmbed h c => some ⟨h, .call 0x16 c⟩
  | .dropoutMask h c => some ⟨h, .call 0x17 c⟩
  | .crossEntropy h c => some ⟨h, .call 0x18 c⟩
  | .lossSubmit h c => some ⟨h, .call 0x19 c⟩
  | .gradNorm h c => some ⟨h, .call 0x1A c⟩
  | .gradClip h c => some ⟨h, .call 0x1B c⟩
  | .scaleLayer h c => some ⟨h, .call 0x1C c⟩
  | .histogramClear h c => some ⟨h, .call 0x1D c⟩
  | .convert h c => some ⟨h, .call 0x1E c⟩
  | .transpose h c => some ⟨h, .call 0x1F c⟩
  | .fill h c => some ⟨h, .call 0x20 c⟩
  | .copy h c => some ⟨h, .call 0x21 c⟩
  | .gatherRows h c => some ⟨h, .call 0x22 c⟩
  | .scatterAddRows h c => some ⟨h, .call 0x23 c⟩
  | .spillToNear h c => some ⟨h, .call 0x24 c⟩
  | .resumeFromNear h c => some ⟨h, .call 0x25 c⟩
  | .prefetchLayer h c => some ⟨h, .call 0x26 c⟩
  | .checkpointWrite h c => some ⟨h, .call 0x27 c⟩
  | .checkpointRead h c => some ⟨h, .call 0x28 c⟩
  | .datasetRead h c => some ⟨h, .call 0x29 c⟩
  | .windowRegister h c => some ⟨h, .call 0x2A c⟩
  | .windowRelease h c => some ⟨h, .call 0x2B c⟩
  | .updateAdamw h c => some ⟨h, .call 0x2C c⟩
  | .updateAdamL2 h c => some ⟨h, .call 0x2D c⟩
  | .updateSgdMomentum h c => some ⟨h, .call 0x2E c⟩
  | .updateCustom h c => some ⟨h, .call 0x2F c⟩
  | .stepVote h c => some ⟨h, .call 0x30 c⟩
  | .stepCounterRead h c => some ⟨h, .call 0x31 c⟩
  | .freezeSet h c => some ⟨h, .call 0x32 c⟩
  | .layerScaleSet h c => some ⟨h, .call 0x33 c⟩
  | .sidingPark h o => some ⟨h, .park o⟩
  | .sidingDrain h => some ⟨h, .drain⟩
  | .attentionFwd h c => some ⟨h, .call 0x36 c⟩
  | .attentionBwd h c => some ⟨h, .call 0x37 c⟩
  | .causalMask h c => some ⟨h, .call 0x38 c⟩
  | .attentionMerge h c => some ⟨h, .call 0x39 c⟩
  | .matmulBias h c => some ⟨h, .call 0x3A c⟩
  | .matmulFp32 h c => some ⟨h, .call 0x3B c⟩
  | .topkRoute h c => some ⟨h, .call 0x3C c⟩
  | .expertDispatch h c => some ⟨h, .call 0x3D c⟩
  | .expertCombine h c => some ⟨h, .call 0x3E c⟩
  | .selfTest h c => some ⟨h, .call 0x3F c⟩
  | _ => none

end Sys2Proof.Machine
end

