-- ==== Sys2Proof/Certificates/Slice0/Obligations.lean ====
section
/-! DEFINITION. The statements for the provers: what the machine does with any command, then family by family what a command
does when it is carried out. -/

open Sys2Proof Sys2Proof.Machine

/-- For every command c and state s with c at the front of its queue, a step answers what c answers on s with the queue's rest. The queue of waiting commands is the model's own interface (assumption 1). -/
def Obligations.StepRunsFront : Prop :=
  ∀ (c : Instr) (rest : List Instr) (s : State), s.pending = c :: rest → step s = exec c { s with pending := rest }

/-- A step of a state whose queue is empty answers that state unchanged (the model's choice, assumption 1). -/
def Obligations.StepIdles : Prop :=
  ∀ s : State, s.pending = [] → step s = .next s

/-- For every command and every state: if the operands fit the hardware's ranges the command answers a next state, and otherwise it is refused by the name illFormed. No command faults, and none is refused for its data, its mode or its sender (the module answers with statuses). -/
def Obligations.WellFormedRuns : Prop :=
  ∀ (i : Instr) (s : State), (i.wf = true → ∃ t, exec i s = .next t) ∧ (i.wf = false → exec i s = .refused .illFormed)

/-- From every state whose waiting commands are all well formed, a step answers a next state (never a fault or a refusal), and in it the waiting commands are the rest of the queue: again all well formed. The queue is the model's own (assumption 1). -/
def Obligations.QueueKept : Prop :=
  ∀ s : State, queueWf s = true → ∃ t, step s = .next t ∧ t.pending = s.pending.drop 1 ∧ queueWf t = true

/-- From every state whose memory holds its canonical form (rising addresses, no byte equal to what an unlisted address reads as), whenever a step answers a next state its memory holds the form again. The form is the model's own (assumption 2). -/
def Obligations.MemoryKept : Prop :=
  ∀ s t : State, Memory.wf s.mem = true → step s = .next t → Memory.wf t.mem = true

/-- Whenever a step answers a next state, the time of its latest command is no earlier than before (the model's own clock of commands, assumption 3). -/
def Obligations.TimeNeverBack : Prop :=
  ∀ s t : State, step s = .next t → s.now ≤ t.now

/-- In the reset state no command waits, the memory holds its canonical form and lists nothing, every consist is idle with nothing loaded, every semaphore holds the reset values of its table, and every dictionary object holds its default. -/
def Obligations.ResetHolds : Prop :=
  queueWf State.reset = true ∧ State.reset.pending = [] ∧ Memory.wf State.reset.mem = true ∧ State.reset.mem.cells = [] ∧
    (∀ k, (con State.reset k).pstate = .idle ∧ (con State.reset k).prog = none) ∧
    (∀ i, semGet State.reset i = Sem.reset) ∧ (∀ k, odVal State.reset k = odDefault k)

/-- After a clean store of bytes into memory that every channel can take and that holds no byte 0 of a histogram base array (which reads as zero whatever is written, R88), a read of that range gives exactly those bytes, the store ends ok, and every byte outside the range reads as before; a store to such a byte 0 alone changes no byte of memory. -/
def Obligations.MemoryReadsBack : Prop :=
  ∀ (s : State) (a : Nat) (bs : List Byte) (p : Option Nat),
    ((linesOf a bs.length).all fun l => farWritable s (max a (l * 64))) = true →
    (storeBytes s a bs p).2 = .ok ∧ MemKept s (storeBytes s a bs p).1 a bs.length ∧
    (NoHistZero a bs.length → memRead (storeBytes s a bs p).1.mem a bs.length = bs) ∧
    (histZero a = true → bs.length = 1 → ∀ x, memGet (storeBytes s a bs p).1.mem x = memGet s.mem x)

/-- Setting a dictionary object makes it read the new value, whatever the table held, leaves every other object and every counter as it was, and changes nothing else of the state. -/
def Obligations.ObjectReadsBack : Prop :=
  ∀ (s : State) (k : Nat) (v : OdVal),
    odVal (odPut s k v) k = some v ∧ OdKept [k] s (odPut s k v) ∧ odPut s k v = { s with od := (odPut s k v).od }

/-- Counting n events attributed to partition p adds n, modulo 2^64, to the operator's, the observer's and the service role's view and to the view of tenant p, leaves the views of every other tenant as they were, and touches no other counter and nothing else of the state. -/
def Obligations.CounterViews : Prop :=
  ∀ (s : State) (k n p : Nat), 0 < n → p < 40 →
    ctrGet (bump s k n (some p)) k 0 = (ctrGet s k 0 + n) % 2 ^ 64 ∧ ctrGet (bump s k n (some p)) k 1 = (ctrGet s k 1 + n) % 2 ^ 64 ∧
    ctrGet (bump s k n (some p)) k 2 = (ctrGet s k 2 + n) % 2 ^ 64 ∧
    ctrGet (bump s k n (some p)) k (3 + p) = (ctrGet s k (3 + p) + n) % 2 ^ 64 ∧
    (∀ q, q < 40 → q ≠ p → ctrGet (bump s k n (some p)) k (3 + q) = ctrGet s k (3 + q)) ∧
    CtrKept [k] s (bump s k n (some p)) ∧ bump s k n (some p) = { s with ctr := (bump s k n (some p)).ctr }

/-- Entering a write puts one entry of 176 octets at the head of the book, its body followed by the 32 octets of its SHAKE256 digest, keeps the earlier ones up to the book's capacity, and changes no object but the book's head and oldest serial, no counter but the book's two, no memory and nothing else of the state. -/
def Obligations.EntryAppended : Prop :=
  ∀ (s : State) (w : Who) (k : Nat) (v : OdVal),
    (∃ b, b = entryBody s (nextSerial s) (writeInfo w k (valOctets (keyTy k) v)
        (if tyOctets (keyTy k) = 0 then 0 else leNat (valOctets (keyTy k) v)) .ok) ∧ b.length = 144 ∧
      (entered s w k v).book.entries = ((b ++ shake256 b 32) :: s.book.entries).take (odN s kBookCapacity)) ∧
    odN (entered s w k v) kBookHeadSerial = nextSerial s ∧
    OdKept bookKeys s (entered s w k v) ∧ CtrKept [kBookEntries, kBookEntriesOverwritten] s (entered s w k v) ∧
    entered s w k v = { s with od := (entered s w k v).od, ctr := (entered s w k v).ctr, book := (entered s w k v).book }

/-- Whatever the object, a write whose checks end with another status than ok changes no dictionary object but the book's, no memory, no consist, no semaphore and no partition: only the book, counters and the answer sent, and the effect of the object is not made. -/
def Obligations.RefusedWriteChangesNothing : Prop :=
  ∀ (s : State) (w : Who) (k : Nat) (v : OdVal) (check : State → Status) (take : State → State),
    (check s ≠ .ok ∨ typeOk (keyTy k) v = false ∨ (starting s = true ∧ bootWritable s k = false)) →
    ∃ t, dictWrite s w k v check take = t ∧ OdKept bookKeys s t ∧
      CtrKept [kBookEntries, kBookEntriesOverwritten, kLmpRefused, kBookFullRefusals] s t ∧
      t = { s with od := t.od, ctr := t.ctr, book := t.book, out := t.out }

/-- AIRFLOW_WRITE by the operator of a value from 120 to 400 completes: the object holds the value and the airflow cap is 1,800 x value / 170 rounded down to a multiple of 50 and limited to 1,800; the effective cap is the least of the three caps. Every other 16-bit value is answered with status malformed (0x0F) and the object keeps its value. -/
def Obligations.AirflowCap : Prop :=
  (∀ (who : Who) (v : Nat) (s : State), who.role = .operator → writeOpen s kAirflowAssuredCfm (.num v) = true → 120 ≤ v → v ≤ 400 →
    ∃ t, exec (.airflowWrite who v) s = .next t ∧ odN t kAirflowAssuredCfm = v ∧
      airflowCap t = min 1800 (50 * (1800 * v / 170 / 50)) ∧
      odN t kPowerCapEffective = min s.pow.capNow (min s.pow.inletCap (airflowCap t)) ∧
      OdKept (kAirflowAssuredCfm :: kPowerCapEffective :: kThermalState :: bookKeys) s t ∧
      t = { s with od := t.od, ctr := t.ctr, book := t.book, out := .written kAirflowAssuredCfm 0 :: s.out }) ∧
  (∀ (who : Who) (v : Nat) (s : State), who.role = .operator → dictUp s = true → bookFull s 1024 = false → starting s = false →
    v < 65536 → (v < 120 ∨ 400 < v) →
    ∃ t, exec (.airflowWrite who v) s = .next t ∧ OdKept bookKeys s t ∧ t.out = .written kAirflowAssuredCfm 0x0F :: s.out)

/-- POWER_CAP_WRITE by the operator of a multiple of 50 W from 900 to 1,800 completes: `power_cap` holds it, the cap in force and every other object keep their values. PAD_RELEASE by the operator of a domain that is on_latched makes every domain that moves with it read on and counts one release. -/
def Obligations.PowerCapWritten : Prop :=
  (∀ (who : Who) (v : Nat) (s : State), who.role = .operator → writeOpen s kPowerCap (.num v) = true → 900 ≤ v → v ≤ 1800 → v % 50 = 0 →
    ∃ t, exec (.powerCapWrite who v) s = .next t ∧ odN t kPowerCap = v ∧ OdKept (kPowerCap :: bookKeys) s t ∧
      t = { s with od := t.od, ctr := t.ctr, book := t.book, out := .written kPowerCap 0 :: s.out }) ∧
  (∀ (who : Who) (d : Nat) (s : State), who.role = .operator → writeOpen s kPadRelease (.num d) = true → isDomain d = true →
    isMate s d = false → domState s d = 5 →
    ∃ t, exec (.padRelease who d) s = .next t ∧ (∀ e ∈ moved s d, domState t e = 0) ∧
      OdKept ((moved s d).map (fun e => kDomainState (e + 1)) ++ bookKeys) s t ∧ Counted s t kPadReleases 1 ∧
      t = { s with od := t.od, ctr := t.ctr, book := t.book, out := .written kPadRelease 0 :: s.out })

/-- A request that passes the checks of R493 completes. For on, every domain that the request moves and that was in retention or off reads waking and remembers what it wakes from, as does the die that contains it; every other domain keeps its state. For retention or off, every domain moved reads entering with that target, and every other domain keeps its state. Memory, consists and semaphores are unchanged. -/
def Obligations.DomainsMove : Prop :=
  (∀ (who : Who) (d : Nat) (s : State), domainRole s who d 0 = true → writeOpen s (kDomainState (d + 1)) (.num 0) = true → d < 128 →
    isDomain d = true → isMate s d = false → holding s = false → domState s d ≤ 2 →
    (d < 40 → bitOf (odN s kConsistAvailableMap) d = true) →
    ∃ t, exec (.domainOnRequest who d) s = .next t ∧
      (∀ e ∈ moved s d, (domState s e = 1 ∨ domState s e = 2) → domState t e = 4 ∧ tget 0 t.pow.waking e = domState s e) ∧
      (∀ n, dieOf d = some n → (domState s n = 1 ∨ domState s n = 2) → domState t n = 4) ∧
      (∀ e, e < 128 → e ∉ moved s d → dieOf d ≠ some e → domState t e = domState s e) ∧
      t = { s with od := t.od, ctr := t.ctr, book := t.book, pow := t.pow, out := .written (kDomainState (d + 1)) 0 :: s.out }) ∧
  (∀ (who : Who) (d v : Nat) (i : Instr) (s : State), (v = 1 ∧ i = .domainRetentionRequest who d ∨ v = 2 ∧ i = .domainOffRequest who d) →
    domainRole s who d v = true → writeOpen s (kDomainState (d + 1)) (.num v) = true → d < 0x7F →
    isDomain d = true → isMate s d = false → holding s = false → domState s d ≤ 2 → domState s d ≠ v →
    (d < 40 → bitOf (odN s kConsistAvailableMap) d = true) → mustStay s d v = false →
    ∃ t, exec i s = .next t ∧ (∀ e ∈ moved s d, domState t e = 3 ∧ tget 0 t.pow.entering e = v) ∧
      (∀ e, e < 128 → e ∉ moved s d → domState t e = domState s e) ∧
      t = { s with od := t.od, ctr := t.ctr, book := t.book, pow := t.pow, out := .written (kDomainState (d + 1)) 0 :: s.out })

/-- The end of an entry that no wake event met makes each domain moved read its target, and a compute group that goes off comes back with nothing loaded; an entry to retention changes nothing but the domain objects, the entry's record and the counters, and the depot's write buffer, which the entry of the depot's own domain programs (R267). The end of a wake makes each domain read on after retention and on_latched after off. An abandoned entry makes each domain read on again and is counted. -/
def Obligations.DomainsArrive : Prop :=
  (∀ (d : Nat) (s : State), d < 128 → domState s d = 3 → isMate s d = false → (∀ e ∈ moved s d, s.pow.wakeMet.contains e = false) →
    (∀ e ∈ moved s d, tget 0 s.pow.entering e = 1) →
    ∃ t, exec (.domainEntryEnd d) s = .next t ∧ (∀ e ∈ moved s d, domState t e = 1) ∧ Counted s t kEntriesCompleted 1 ∧
      t = { s with od := t.od, ctr := t.ctr, pow := t.pow, depot := t.depot } ∧ (d ≠ 0x71 → t.depot = s.depot) ∧
      (d = 0x71 → t.depot.buffer = [])) ∧
  (∀ (d : Nat) (s : State), d < 40 → domState s d = 3 → s.pow.wakeMet.contains d = false → tget 0 s.pow.entering d = 2 →
    ∃ t, exec (.domainEntryEnd d) s = .next t ∧ domState t d = 2 ∧ con t d = Consist.reset) ∧
  (∀ (d : Nat) (s : State), d < 128 → domState s d = 4 → isMate s d = false →
    (∀ n, dieOf d = some n → domState s n = 0 ∨ domState s n = 5) →
    ∃ t, exec (.domainWakeEnd d) s = .next t ∧ (∀ e ∈ moved s d, domState t e = if tget 0 s.pow.waking e = 2 then 5 else 0) ∧
      OdKept ((moved s d).map fun e => kDomainState (e + 1)) s t ∧ t = { s with od := t.od, pow := t.pow }) ∧
  (∀ (d : Nat) (s : State), d < 128 → domState s d = 3 → s.pow.wakeMet.contains d = true → abortable s = true → isMate s d = false →
    ∃ t, exec (.entryAbandoned d) s = .next t ∧ (∀ e ∈ moved s d, domState t e = 0) ∧
      OdKept ((moved s d).map fun e => kDomainState (e + 1)) s t ∧ Counted s t kEntriesAbandoned 1 ∧
      t = { s with od := t.od, ctr := t.ctr, pow := t.pow })

/-- When the 100 microsecond mean exceeds the effective cap the guard lowers the clock by two steps, not below 800 MHz, and counts the event. At the end of a millisecond whose draw exceeds the cap at 800 MHz the duty falls by 1, down to 4; after ten milliseconds that fit it rises by 1; the draw is shown. Nothing else changes. -/
def Obligations.ClockAndDutyFollowTheCap : Prop :=
  (∀ (draw : Nat) (s : State), odN s kPowerCapEffective < draw →
    ∃ t, exec (.powerGuard draw) s = .next t ∧ odN t kClockNow = min (odN s kClockNow) (max 800 (odN s kClockNow - 200)) ∧
      Counted s t kGuardSteps 1 ∧ OdKept [kClockNow] s t ∧ CtrKept [kGuardSteps, kClockStepsDown] s t ∧
      t = { s with od := t.od, ctr := t.ctr }) ∧
  (∀ (draw : Nat) (s : State), draw < 65536 → odN s kPowerCapEffective < draw → odN s kClockNow = 800 →
    ∃ t, exec (.arrayDutyAdjust draw) s = .next t ∧ odN t kArrayDuty = max 4 (odN s kArrayDuty - 1) ∧ odN t kPowerDraw = draw ∧
      OdKept [kArrayDuty, kPowerDraw] s t ∧ CtrKept [kDutyLimitedMs] s t ∧ t = { s with od := t.od, ctr := t.ctr, pow := t.pow }) ∧
  (∀ (draw : Nat) (s : State), draw < 65536 → draw ≤ odN s kPowerCapEffective → odN s kArrayDuty < 16 → s.pow.lastMs = 9 →
    ∃ t, exec (.arrayDutyAdjust draw) s = .next t ∧ odN t kArrayDuty = odN s kArrayDuty + 1 ∧ odN t kPowerDraw = draw ∧
      Counted s t kDutyLimitedMs 1 ∧ OdKept [kArrayDuty, kPowerDraw] s t ∧ t = { s with od := t.od, ctr := t.ctr, pow := t.pow })

/-- A sample below 97 degrees without a throttle shows the hottest junction and changes nothing else but the count of hot readings and thermal_state. A second reading in a row at or above 110 degrees trips: thermal_state reads 4 and the module halts. An inlet sample shows the temperature and never raises the inlet cap, which falls to the cap of that temperature. After 60 s at least 1 degree below its threshold the highest such cap comes back. -/
def Obligations.TemperaturesAct : Prop :=
  (∀ (temps : List Nat) (u top : Nat) (s : State), temps ≠ [] → temps.all isF32 = true →
    top = temps.foldl (fun m w => if (decodeVal fmtFp32 m).lt (decodeVal fmtFp32 w) then w else m) (lget 0 temps 0) →
    odN s kThermalState ≠ 4 → s.pow.stopped = false → s.pow.throttle = false → floorF32 top < 97 →
    ∃ t, exec (.thermalSample temps u) s = .next t ∧ odN t kDieTempMax = top ∧ t.pow = { s.pow with hot := 0 } ∧
      OdKept [kDieTempMax, kThermalState] s t ∧ t = { s with now := max s.now u, od := t.od, pow := t.pow }) ∧
  (∀ (temps : List Nat) (u top : Nat) (s : State), temps ≠ [] → temps.all isF32 = true →
    top = temps.foldl (fun m w => if (decodeVal fmtFp32 m).lt (decodeVal fmtFp32 w) then w else m) (lget 0 temps 0) →
    odN s kThermalState ≠ 4 → s.pow.stopped = false → 1 ≤ s.pow.hot → 110 ≤ floorF32 top →
    ∃ t, exec (.thermalSample temps u) s = .next t ∧ odN t kThermalState = 4 ∧ odN t kBootState = 3) ∧
  (∀ (temp u : Nat) (s : State), isF32 temp = true →
    ∃ t, exec (.inletSample temp u) s = .next t ∧ odN t kInletTemp = temp ∧
      t.pow.inletCap = min s.pow.inletCap (inletCapAt s (ceilF32 temp)) ∧
      odN t kPowerCapEffective = min s.pow.capNow (min t.pow.inletCap (airflowCap s)) ∧
      OdKept [kInletTemp, kPowerCapEffective, kThermalState] s t ∧ t = { s with now := max s.now u, od := t.od, pow := t.pow }) ∧
  (∀ (u l : Nat) (s : State), inletLevels.find? (fun x => tget 0 s.pow.inletBelow x ≠ 0 &&
      decide (tget 0 s.pow.inletBelow x + 60_000_000_000 ≤ max s.now u + 1)) = some l → s.pow.inletCap < l →
    ∃ t, exec (.inletCapRise u) s = .next t ∧ t.pow = { s.pow with inletCap := l } ∧
      odN t kPowerCapEffective = min s.pow.capNow (min l (airflowCap s)) ∧
      OdKept [kPowerCapEffective, kThermalState] s t ∧ t = { s with now := max s.now u, od := t.od, pow := t.pow })

/-- With no step open, TICK_CHANGE_AT_WRITE of a tick beyond the next one schedules the change, and TICK_EPOCH_WRITE stores the epoch and computes the tick anew, modulo 2^64 (a module time before the epoch by the shorter way round gives tick 0: the model's reading, assumption 88). At the scheduled boundary TICK_CHANGE gives the period the cycles of `tick_cycles_next`, rebases the epoch so that the boundary keeps its number (from then on no module time counts as earlier than the epoch: assumption 88) and ends the schedule. -/
def Obligations.TickIsSet : Prop :=
  (∀ (who : Who) (v : Nat) (s : State), who.role = .operator → writeOpen s kTickChangeAt (.num v) = true → v < 2 ^ 64 →
    anyOpen s = false → tickNow s + 1 < v →
    ∃ t, exec (.tickChangeAtWrite who v) s = .next t ∧ odN t kTickChangeAt = v ∧ t.time = { s.time with change := some v } ∧
      OdKept (kTickChangeAt :: bookKeys) s t ∧
      t = { s with od := t.od, ctr := t.ctr, book := t.book, time := t.time, out := .written kTickChangeAt 0 :: s.out }) ∧
  (∀ (who : Who) (v : Nat) (s : State), who.role = .operator → writeOpen s kTickEpoch (.num v) = true → v < 2 ^ 64 → anyOpen s = false →
    ∃ t, exec (.tickEpochWrite who v) s = .next t ∧ odN t kTickEpoch = v ∧
      t.time = { s.time with rebased := false, tick := if (moduleTime s + 2 ^ 64 - v) % 2 ^ 64 < 2 ^ 63 ∧ tickPeriod s ≠ 0 then
          (moduleTime s + 2 ^ 64 - v) % 2 ^ 64 / tickPeriod s % 2 ^ 48 else 0 } ∧
      OdKept (kTickEpoch :: bookKeys) s t ∧
      t = { s with od := t.od, ctr := t.ctr, book := t.book, time := t.time, out := .written kTickEpoch 0 :: s.out }) ∧
  (∀ (v : Nat) (s : State), s.time.change = some v → tickNow s = v % 2 ^ 48 →
    ∃ t, exec .tickChange s = .next t ∧ odN t kTickCycles = odN s kTickCyclesNext ∧
      (odN t kTickEpoch : Int) = ((odN s kTickEpoch : Int) + v * tickPeriod s - v * tickPeriod t) % 2 ^ 64 ∧
      odN t kCyclesPerTickNow = tickPeriod t * odN s kClockNow / 1000 ∧ t.time = { s.time with change := none, rebased := true } ∧
      OdKept [kTickCycles, kTickEpoch, kCyclesPerTickNow] s t ∧ t = { s with od := t.od, time := t.time })

/-- When module time has passed at least one boundary since the tick in force, TICK_BOUNDARY counts the boundaries passed and carries out the boundary of the new tick; with no consist in use that leaves the new tick's number in force, the time of the boundary noted, and `power_cap` in force for the cap. -/
def Obligations.TickBoundaryPasses : Prop :=
  (∀ (u n d : Nat) (draws : List Nat) (s : State), draws.length = 11 → tickAt (atTime s u) (moduleTime (atTime s u)) = some n →
    d = (n + 2 ^ 48 - s.time.tick % 2 ^ 48) % 2 ^ 48 → d ≠ 0 → d < 2 ^ 47 → s.pow.stopped = false →
    exec (.tickBoundary u draws) s = .next (boundary (bump (atTime s u) kTickBoundaries d none) n draws)) ∧
  (∀ (u n d : Nat) (draws : List Nat) (s : State), draws.length = 11 → tickAt (atTime s u) (moduleTime (atTime s u)) = some n →
    d = (n + 2 ^ 48 - s.time.tick % 2 ^ 48) % 2 ^ 48 → d ≠ 0 → d < 2 ^ 47 → s.pow.stopped = false → s.consists = [] →
    ∃ t, exec (.tickBoundary u draws) s = .next t ∧ t.time = { s.time with tick := n, resumePaths := false } ∧
      t.pow.capNow = odN s kPowerCap ∧ t.mem = s.mem ∧ t.sems = s.sems)

/-- After 1 s within the limit, with the bound now within it, no step of time pending and a source other than free running, the tick reads aligned again. A pending step of time is applied when no step is open: module time moves by it, the tick moves forward or stays, and the event is counted. -/
def Obligations.AlignmentMoves : Prop :=
  (∀ (u w : Nat) (s : State), s.time.withinSince = some w → w + 1_000_000_000 ≤ max s.now u → s.time.pendingStep = none →
    odN s kOffsetBound ≤ odN s kAlignLimit → odN s kTimeSource ≠ 2 → odN s kTickAligned = 0 →
    ∃ t, exec (.alignmentRegain u) s = .next t ∧ odN t kTickAligned = 1 ∧ t.time = { s.time with resumePaths := true } ∧
      OdKept [kTickAligned] s t ∧ t = { s with now := max s.now u, od := t.od, time := t.time }) ∧
  (∀ (u : Nat) (d : Int) (s : State), s.time.pendingStep = some d → anyOpen s = false → (∀ x ∈ s.parts, x.1 < 40) →
    ∃ t, exec (.timeStep u) s = .next t ∧ t.time.offset = s.time.offset + d ∧ t.time.pendingStep = none ∧
      (t.time.tick = s.time.tick ∨ tickAfter t.time.tick (tickNow s) = true) ∧
      Counted s t kTimeSteps 1 ∧ odN t kOffsetBound = 8 ∧ OdKept [kOffsetBound] s t ∧ CtrKept [kTimeSteps, kTicksSkipped, kSlotOverruns] s t ∧
      t = { s with now := max s.now u, od := t.od, ctr := t.ctr, time := t.time })

/-- On the engine's own port and domain and from its master, a Sync is noted with its time and interval; a two-step one leaves its time of arrival to be met by its Follow_Up; a one-step Sync, or a matching Follow_Up, is a measurement. An Announce is remembered with its rank and the best master is chosen again. A delay request leaves with its time, and its response sets the path delay to the mean of both directions. Four silent intervals lose the alignment. -/
def Obligations.PtpMessagesTaken : Prop :=
  (∀ (m : PtpMsg) (s : State), m.port < 8 → ptpHeard s m.port = true → ptpOk s m.ok m.domain = true → 7_812_500 ≤ m.intervalNs →
    m.intervalNs ≤ 1_000_000_000 → ptpIsMaster s m.master = true → m.twoStep = true →
    ∃ t, exec (.ptpSyncRx m) s = .next t ∧ Counted s t (kPtpEventRx m.port) 1 ∧
      t.time = { s.time with lastSync := some (max s.now m.ingress, m.intervalNs),
                             twoStep := some (m.seq, (moduleTime (atTime s m.ingress) : Int) + ingressLatency s m.port) } ∧
      t = { s with now := max s.now m.ingress, ctr := t.ctr, time := t.time }) ∧
  (∀ (m : PtpMsg) (s : State), m.port < 8 → ptpHeard s m.port = true → ptpOk s m.ok m.domain = true → 7_812_500 ≤ m.intervalNs →
    m.intervalNs ≤ 1_000_000_000 → ptpIsMaster s m.master = true → m.twoStep = false →
    ∃ u, exec (.ptpSyncRx m) s = .next (ptpMeasure u ((m.originTime : Int) + m.correction)
        ((moduleTime (atTime s m.ingress) : Int) + ingressLatency s m.port)) ∧
      Counted s u (kPtpEventRx m.port) 1 ∧ u.time = { s.time with lastSync := some (max s.now m.ingress, m.intervalNs) } ∧
      u = { s with now := max s.now m.ingress, ctr := u.ctr, time := u.time }) ∧
  (∀ (m : PtpMsg) (t2 : Int) (s : State), m.port < 8 → ptpHeard s m.port = true → ptpOk s m.ok m.domain = true →
    s.time.twoStep = some (m.seq, t2) → ptpIsMaster s m.master = true →
    (t2 - ((m.originTime : Int) + m.correction) - s.time.pathDelay).natAbs ≤ 1000 →
    ∃ t, exec (.ptpFollowUpRx m) s = .next t ∧
      t.time.filtered = t2 - ((m.originTime : Int) + m.correction) - s.time.pathDelay ∧
      t.time.measured = some (s.now, t2 - ((m.originTime : Int) + m.correction)) ∧ t.time.twoStep = none ∧ t.time.lastSync = s.time.lastSync ∧
      odN t kOffsetBound = (t2 - ((m.originTime : Int) + m.correction) - s.time.pathDelay).natAbs + 8 ∧
      OdKept [kOffsetBound, kTickAligned] s t ∧ t = { s with od := t.od, ctr := t.ctr, time := t.time }) ∧
  (∀ (m : PtpAnnounce) (s : State), m.port < 8 → ptpHeard s m.port = true → ptpOk s m.ok m.domain = true →
    ∃ t, exec (.ptpAnnounceRx m) s = .next t ∧ tget 0 t.time.announces m.master = m.rank ∧ t.time.master = bestMaster t.time.announces ∧
      t = { s with time := { s.time with announces := t.time.announces, master := t.time.master } }) ∧
  (∀ (u : Nat) (s : State), odN s kTimeSource = 0 → s.time.master ≠ none →
    ∃ t x, exec (.ptpDelayReqTx u) s = .next t ∧ x = ((moduleTime (atTime s u) : Int) + egressLatency s (odN s kPtpPort)).toNat ∧
      (∃ q, t.time = { s.time with delayReq := some (q, x) }) ∧ Counted s t (kPtpEventTx (odN s kPtpPort)) 1 ∧
      t = { s with now := max s.now u, ctr := t.ctr, time := t.time, out := .delayReq (odN s kPtpPort) x (odN s kPtpVid) (odN s kPtpDomain) :: s.out }) ∧
  (∀ (m : PtpMsg) (t3 u : Nat) (ms : Int) (s : State), m.port < 8 → ptpHeard s m.port = true → ptpOk s m.ok m.domain = true →
    s.time.delayReq = some (m.seq, t3) → s.time.measured = some (u, ms) → ptpIsMaster s m.master = true →
    exec (.ptpDelayRespRx m) s =
      .next { s with time := { s.time with pathDelay := (ms + ((m.originTime : Int) - m.correction - t3)) / 2 } }) ∧
  (∀ (u v iv : Nat) (s : State), s.time.lastSync = some (v, iv) → odN s kTimeSource = 0 → v + 4 * iv ≤ max s.now u →
    odN s kTickAligned = 1 →
    ∃ t, exec (.ptpSyncTimeout u) s = .next t ∧ odN t kTickAligned = 0 ∧ Counted s t kAlignmentLosses 1 ∧
      t.time = { s.time with overRun := 4, withinSince := none } ∧ OdKept [kTickAligned] s t ∧
      t = { s with now := max s.now u, od := t.od, ctr := t.ctr, time := t.time })

/-- With the reference as the source, a good frame of twelve octets names the second of the coming edge. An edge takes that second, or the one after its last, measures module time against it and ends a run of missing edges. A missing edge is counted and advances the second; the fourth in a row loses the alignment. -/
def Obligations.ReferenceInput : Prop :=
  (∀ (bytes : List Byte) (u : Nat) (s : State), odN s kTimeSource = 1 → bytes.length = 12 → lget 0 bytes 0 = 0x54 → lget 0 bytes 1 = 0x44 →
    lget 0 bytes 11 = 0x0A → (lget 0 bytes 10).toNat = (bytes.take 10).foldl (fun x b => x ^^^ b.toNat) 0 →
    ∃ t, exec (.todFrame bytes u) s = .next t ∧ t.time = { s.time with todPending := some (leNat ((bytes.drop 2).take 8)) } ∧
      CtrKept [kRefTodSteps] s t ∧ t = { s with now := max s.now u, ctr := t.ctr, time := t.time }) ∧
  (∀ (u x : Nat) (s : State), odN s kTimeSource = 1 → s.time.todPending = some x →
    ((moduleTime (atTime s u) : Int) - (x * 1_000_000_000 : Nat)).natAbs ≤ 1000 →
    ∃ t, exec (.ppsEdge u) s = .next t ∧ t.time.ppsSecond = some (x + 1) ∧ t.time.ppsMissed = 0 ∧ t.time.todPending = none ∧
      t.time.filtered = (moduleTime (atTime s u) : Int) - (x * 1_000_000_000 : Nat) ∧ OdKept [kOffsetBound, kTickAligned] s t ∧
      t = { s with now := max s.now u, od := t.od, ctr := t.ctr, time := t.time }) ∧
  (∀ (u : Nat) (s : State), odN s kTimeSource = 1 → s.time.ppsMissed ≠ 3 →
    ∃ t, exec (.ppsMissing u) s = .next t ∧ Counted s t kRefPpsMissing 1 ∧
      t.time = { s.time with ppsMissed := s.time.ppsMissed + 1, ppsSecond := s.time.ppsSecond.map (· + 1), todPending := none } ∧
      t = { s with now := max s.now u, ctr := t.ctr, time := t.time }) ∧
  (∀ (u : Nat) (s : State), odN s kTimeSource = 1 → s.time.ppsMissed = 3 → odN s kTickAligned = 1 →
    ∃ t, exec (.ppsMissing u) s = .next t ∧ odN t kTickAligned = 0 ∧ Counted s t kAlignmentLosses 1 ∧ OdKept [kTickAligned] s t)

/-- At its start boundary a slot that waits begins: it is noted with its number, target and start, counted late where it starts after its target and as an overrun where the boundary behind its start has passed already, and the broadcast goes on. A slot whose verbs have all completed writes its record and is counted. A single wait more than two ticks old that depends on its own queue alone is a deadlock: its consist is stopped as the rule says; with no wait that old the search changes nothing. -/
def Obligations.SlotsAndDeadlocks : Prop :=
  (∀ (k n target start : Nat) (s : State), k < 40 → (con s k).hold = some (.slot n target (some start)) → (con s k).pstate = .running →
    tickAfter (tickNow s) start = true → live s k = true → sinceEpoch s (moduleTime s) ≠ none →
    exec (.slotStart k) s = .next (resume k (modCon (bump (bump s kSlotsLate (if start = target then 0 else 1) (conPart s k))
      kSlotOverruns (if tickAfter (tickNow s) (start + 1) then 1 else 0) (conPart s k)) k
      fun c => { c with slot := some ⟨n, target, start⟩ }))) ∧
  (∀ (k busy wait : Nat) (r : SlotRun) (s : State), k < 40 → (con s k).slot = some r → (con s k).verbs = [] → (con s k).sidingRuns = [] →
    (con s k).hold = some (.slot 0 0 none) →
    exec (.slotComplete k busy wait) s = .next (slotReady k (bump (bump (slotRecord s k (if tickNow s = r.start then 0 else 0x05) busy wait)
      kSlotsCompleted 1 (conPart (slotRecord s k (if tickNow s = r.start then 0 else 0x05) busy wait) k))
      kSignalWaitCycles wait (conPart (slotRecord s k (if tickNow s = r.start then 0 else 0x05) busy wait) k)))) ∧
  (∀ (r : WaitRec) (s : State), ((List.range 40).flatMap fun k => consistWaits s k) = [r] → 2 < (tickNow s + 2 ^ 48 - r.since % 2 ^ 48) % 2 ^ 48 →
    depends s [r] r = [r.who] → exec .deadlockSearch s = .next (lockStop s [r] [r.who])) ∧
  (∀ s : State, (∀ k, k < 40 → ∀ r ∈ consistWaits s k, (tickNow s + 2 ^ 48 - r.since % 2 ^ 48) % 2 ^ 48 ≤ 2) → exec .deadlockSearch s = .next s)

/-- A module that appears in a cage shows in `osfp_present` and is held in low power; 100 ms later it is released if a port of the cage exists and is enabled; when it goes, its bit and its hold go and both ports of the cage are down, a frame on the wire cut short. Without VOSFP every port is down, and its return shows. Memory and consists are unchanged. -/
def Obligations.CagesAndTheirSupply : Prop :=
  (∀ (c u : Nat) (s : State), c < 4 → bitOf (odN s kOsfpPresent) c = false →
    ∃ t, exec (.osfpPresent c u) s = .next t ∧ odN t kOsfpPresent = bitSet (odN s kOsfpPresent) c ∧
      t.pow = { s.pow with lowPower := bitSet s.pow.lowPower c, cageSince := t.pow.cageSince } ∧ tget 0 t.pow.cageSince c = max s.now u + 1 ∧
      OdKept [kOsfpPresent] s t ∧ t = { s with now := max s.now u, od := t.od, pow := t.pow }) ∧
  (∀ (c n u : Nat) (s : State), c < 4 → bitOf (odN s kOsfpPresent) c = true → tget 0 s.pow.cageSince c + 100_000_000 ≤ max s.now u + 1 →
    (n = 2 * c ∨ n = 2 * c + 1) → portExists s n = true → odN s (kPortEnable n) = 1 →
    ∃ t, exec (.osfpLowPowerRelease c u) s = .next t ∧ t.pow.lowPower = bitClr s.pow.lowPower c ∧
      t = { s with now := max s.now u, pow := t.pow }) ∧
  (∀ (c : Nat) (s : State), c < 4 →
    ∃ t, exec (.osfpPresenceDeassert c) s = .next t ∧ odN t kOsfpPresent = bitClr (odN s kOsfpPresent) c ∧ odN t (kLinkUp (2 * c)) = 0 ∧
      odN t (kLinkUp (2 * c + 1)) = 0 ∧ t.pow.lowPower = bitClr s.pow.lowPower c ∧
      (∃ l, (∀ o ∈ l, ∃ n, o = Out.cut n) ∧ t.out = l ++ s.out) ∧
      t = { s with od := t.od, ctr := t.ctr, ports := t.ports, pow := t.pow, out := t.out }) ∧
  (∀ s : State, ∃ t, exec .vosfpLoss s = .next t ∧ odN t kVosfpPresent = 0 ∧ (∀ n, n < 8 → odN t (kLinkUp n) = 0) ∧
    (∃ l, (∀ o ∈ l, ∃ n, o = Out.cut n) ∧ t.out = l ++ s.out) ∧
    t = { s with od := t.od, ctr := t.ctr, ports := t.ports, out := t.out }) ∧
  (∀ s : State, ∃ t, exec .vosfpReturn s = .next t ∧ odN t kVosfpPresent = 1 ∧ OdKept [kVosfpPresent] s t ∧ t = { s with od := t.od })

/-- An error in a semaphore's state posts poisoned by the module's own code, whatever the declared setter, with the error status kept if one stood; the partition's open step then votes no (R289), and where no step is open only semaphores, the verbs that await them and counters change. An error in a running consist's sequencer leaves a fault record and stops the consist. A scoreboard error of a verb in flight ends the core's part poisoned. Each is counted once as an uncorrectable SRAM error. -/
def Obligations.ControlStateErrors : Prop :=
  (∀ (i : Nat) (q : Option Nat) (s : State), i < 65536 → q = (if (semGet s i).part = 0xFF then none else some (semGet s i).part) →
    exec (.controlStateError (.semaphore i)) s = .next (bump (castOwed (enginePost s i 0x02 0xFF q).1) kSramUncorrectable 1 q)) ∧
  (∀ (i : Nat) (s : State), i < 65536 → nothingOwed s = true → stepOpen s (semGet s i).part = false →
    ∃ t, exec (.controlStateError (.semaphore i)) s = .next t ∧
      semGet t i = { semGet s i with seq := ((semGet s i).seq + 1) % 2 ^ 32, producer := 0xFF, lastTick := tickNow s,
                                     status := if errCode (semGet s i).status then (semGet s i).status else 0x02 } ∧
      (∀ j, j ≠ i → semGet t j = semGet s j) ∧ t = { s with sems := t.sems, consists := t.consists, ctr := t.ctr }) ∧
  (∀ (k : Nat) (s : State), k < 40 → (con s k).pstate = .running →
    exec (.controlStateError (.sequencer k)) s = .next (bump (sequencerError s k) kSramUncorrectable 1 (conPart s k))) ∧
  (∀ (k core vi : Nat) (e : VEntry) (s : State), k < 40 → core < 20 → (con s k).verbs = [e] → e.vi = vi → e.parts.length = 20 →
    (outNouns s k e).filter (fun r => r.handle ≠ 0) = [] →
    ∃ t, exec (.controlStateError (.scoreboard k core vi)) s = .next t ∧
      (∃ w, (con t k).verbs = [{ e with issued := bitSet e.issued core, parts := lset e.parts core (some .poisoned), since := w }]) ∧
      t = { s with consists := t.consists, ctr := t.ctr })

/-- A link that goes down reads down with speed 0, ends a frame on the wire short, discards the frames queued on the port and is counted; a port already down stays as it is, and the management port's link goes down once and up again. A link that may come up reads up at the speed of its cage's mode and its queue pairs hand over what they hold. A cage mode is stored and in force at once, with no step open; a port that is disabled is down. -/
def Obligations.PortsGoUpAndDown : Prop :=
  (∀ (n : Nat) (s : State), n < 8 → odN s (kLinkUp n) ≠ 0 → (∀ f ∈ (port s n).txq ++ (port s n).wait, f.part < 40) →
    ∃ t, exec (.linkDown n) s = .next t ∧ odN t (kLinkUp n) = 0 ∧ odN t (kPortSpeed n) = 0 ∧ port t n = { port s n with txq := [], wait := [], lastEnd := 0 } ∧
      t.out = (if s.now < (port s n).lastEnd then [.cut n] else []) ++ s.out ∧
      Counted s t (kLinkDownEvents n) 1 ∧ (∀ m, m ≠ n → port t m = port s m) ∧ OdKept [kLinkUp n, kPortSpeed n] s t ∧
      t = { s with od := t.od, ctr := t.ctr, ports := t.ports, out := t.out }) ∧
  (∀ (n : Nat) (s : State), n < 8 → odN s (kLinkUp n) = 0 → exec (.linkDown n) s = .next s) ∧
  (∀ s : State, (port s 8).noLink = false →
    ∃ t, exec (.linkDown 8) s = .next t ∧ port t 8 = { port s 8 with noLink := true } ∧ (∀ m, m ≠ 8 → port t m = port s m) ∧
      Counted s t (kLinkDownEvents 8) 1 ∧ CtrKept [kLinkDownEvents 8] s t ∧ t = { s with ctr := t.ctr, ports := t.ports }) ∧
  (∀ s : State, (port s 8).noLink = true → exec (.linkDown 8) s = .next s) ∧
  (∀ s : State, ∃ t, exec (.linkUp 8) s = .next t ∧ port t 8 = { port s 8 with noLink := false } ∧ (∀ m, m ≠ 8 → port t m = port s m) ∧
    t = { s with ports := t.ports }) ∧
  (∀ (n : Nat) (s : State), n < 8 → s.boot.portsOff = false → portExists s n = true → odN s (kPortEnable n) = 1 → odN s (kLinkUp n) = 0 →
    odN s kVosfpPresent = 1 → bitOf (odN s kOsfpPresent) (n / 2) = true → bitOf s.pow.lowPower (n / 2) = false → domState s (0x60 + n) = 0 →
    exec (.linkUp n) s = .next (pumpPort (odSet (odSet s (kLinkUp n) 1) (kPortSpeed n) (modeSpeed s n)) n)) ∧
  (∀ (who : Who) (v : Nat) (s : State), who.role = .operator → writeOpen s kCageMode (.num v) = true → anyOpen s = false → v ≤ 15 →
    (odN s kPtpPort % 2 = 1 → bitOf v (odN s kPtpPort / 2) = false ∨ bitOf (odN s kCageMode) (odN s kPtpPort / 2) = true) →
    ∃ t, exec (.cageModeWrite who v) s = .next t ∧ odN t kCageMode = v ∧ odN t kCageModeActive = v ∧
      (∀ c, c < 4 → bitOf v c ≠ bitOf (odN s kCageModeActive) c → odN t (kLinkUp (2 * c)) = 0 ∧ odN t (kLinkUp (2 * c + 1)) = 0) ∧
      (∃ l, (∀ o ∈ l, ∃ n, o = Out.cut n) ∧ t.out = .written kCageMode 0 :: (l ++ s.out)) ∧
      t = { s with od := t.od, ctr := t.ctr, book := t.book, ports := t.ports, out := t.out }) ∧
  (∀ (who : Who) (n v : Nat) (s : State), who.role = .operator → n < 8 → writeOpen s (kPortEnable n) (.num v) = true → portExists s n = true →
    ∃ t, exec (.portEnableWrite who n v) s = .next t ∧ odN t (kPortEnable n) = v ∧ (v = 0 → odN t (kLinkUp n) = 0) ∧
      OdKept (kPortEnable n :: kLinkUp n :: kPortSpeed n :: bookKeys) s t ∧
      t.out = .written (kPortEnable n) 0 ::
        ((if v = 0 ∧ odN s (kLinkUp n) ≠ 0 ∧ s.now < (port s n).lastEnd then [Out.cut n] else []) ++ s.out) ∧
      t = { s with od := t.od, ctr := t.ctr, book := t.book, ports := t.ports, out := t.out })

/-- Each received frame is counted. With flow control on, a pause holds the port's free-running frames for its quanta of 512 bit times at the port's speed, a pause of no quanta releases them, and a PFC frame does so by the quanta of the free-running class if it names that class; with flow control off, or the class not named, the port keeps its state. The end of the quanta releases them, not an earlier event. When the shared part of the receive buffer passes three quarters the port sends a pause of 65,535 quanta and notes it; above one half it sends it again once 40 microseconds have passed since the last, below one half it sends the release, and otherwise, or with flow control off or the link down, it does nothing. The frame is a PFC frame in that mode, and counted. Other ports keep their state. -/
def Obligations.PausesTaken : Prop :=
  (∀ (n q : Nat) (s : State), n < 8 → q < 65536 →
    ∃ t, exec (.pauseRx n q) s = .next t ∧ Counted s t (kRxPauseFrames n) 1 ∧
      port t n = (if odN s kFlowControl = 0 then port s n
        else if q = 0 then { port s n with pausedUntil := none }
        else { port s n with pausedUntil := some (s.now + ceilDiv (512 * q) (max 1 (odN s (kPortSpeed n)))) }) ∧
      (∀ m, m ≠ n → port t m = port s m) ∧ CtrKept [kRxPauseFrames n] s t ∧ t = { s with ctr := t.ctr, ports := t.ports }) ∧
  (∀ (n classes : Nat) (qs : List Nat) (s : State), n < 8 → classes < 256 → qs.length = 8 → (qs.all fun q => decide (q < 65536)) = true →
    ∃ t, exec (.pfcRx n classes qs) s = .next t ∧ Counted s t (kRxPfcFrames n) 1 ∧
      port t n = (if odN s kFlowControl = 0 ∨ bitOf classes (odN s kPcpFree) = false then port s n
        else if lget 0 qs (odN s kPcpFree) = 0 then { port s n with pausedUntil := none }
        else { port s n with pausedUntil := some (s.now + ceilDiv (512 * lget 0 qs (odN s kPcpFree)) (max 1 (odN s (kPortSpeed n)))) }) ∧
      (∀ m, m ≠ n → port t m = port s m) ∧ CtrKept [kRxPfcFrames n] s t ∧ t = { s with ctr := t.ctr, ports := t.ports }) ∧
  (∀ (n : Nat) (s : State), n < 8 → (∀ u, (port s n).pausedUntil = some u → s.now < u) → exec (.pauseQuantaExpiry n) s = .next s) ∧
  (∀ (n u : Nat) (s : State), n < 8 → (port s n).pausedUntil = some u → u ≤ s.now →
    ∃ t, exec (.pauseQuantaExpiry n) s = .next t ∧ port t n = { port s n with pausedUntil := none } ∧
      (∀ m, m ≠ n → port t m = port s m) ∧ t = { s with ports := t.ports }) ∧
  (∀ (n shared reserved : Nat) (s : State), n < 8 → shared ≤ bufferHalf → reserved ≤ bufferHalf → odN s kFlowControl ≠ 0 →
    odN s (kLinkUp n) ≠ 0 → (port s n).pausing = false → 3 * bufferHalf < 4 * shared →
    ∃ t, exec (.pauseRefresh n shared reserved) s = .next t ∧ port t n = { port s n with pausing := true, lastPause := s.now } ∧
      (∀ m, m ≠ n → port t m = port s m) ∧
      Counted s t (if odN s kFlowControl = 2 then kTxPfcFrames n else kTxPauseFrames n) 1 ∧
      t = { s with ctr := t.ctr, ports := t.ports,
                   out := .pause n (odN s kFlowControl = 2) 0xFFFF (pauseOctets s n (odN s kFlowControl = 2) 0xFFFF) :: s.out }) ∧
  (∀ (n shared reserved : Nat) (s : State), n < 8 → shared ≤ bufferHalf → reserved ≤ bufferHalf → odN s kFlowControl ≠ 0 →
    odN s (kLinkUp n) ≠ 0 → (port s n).pausing = true → bufferHalf < 2 * shared → (port s n).lastPause + 40_000 ≤ s.now →
    ∃ t, exec (.pauseRefresh n shared reserved) s = .next t ∧ port t n = { port s n with lastPause := s.now } ∧
      (∀ m, m ≠ n → port t m = port s m) ∧
      Counted s t (if odN s kFlowControl = 2 then kTxPfcFrames n else kTxPauseFrames n) 1 ∧
      t = { s with ctr := t.ctr, ports := t.ports,
                   out := .pause n (odN s kFlowControl = 2) 0xFFFF (pauseOctets s n (odN s kFlowControl = 2) 0xFFFF) :: s.out }) ∧
  (∀ (n shared reserved : Nat) (s : State), n < 8 → reserved ≤ bufferHalf → odN s kFlowControl ≠ 0 → odN s (kLinkUp n) ≠ 0 →
    (port s n).pausing = true → 2 * shared < bufferHalf →
    ∃ t, exec (.pauseRefresh n shared reserved) s = .next t ∧ port t n = { port s n with pausing := false, lastPause := s.now } ∧
      (∀ m, m ≠ n → port t m = port s m) ∧
      Counted s t (if odN s kFlowControl = 2 then kTxPfcFrames n else kTxPauseFrames n) 1 ∧
      t = { s with ctr := t.ctr, ports := t.ports,
                   out := .pause n (odN s kFlowControl = 2) 0 (pauseOctets s n (odN s kFlowControl = 2) 0) :: s.out }) ∧
  (∀ (n shared reserved : Nat) (s : State), n < 8 → shared ≤ bufferHalf → reserved ≤ bufferHalf →
    (odN s kFlowControl = 0 ∨ odN s (kLinkUp n) = 0 ∨ ((port s n).pausing = false ∧ 4 * shared ≤ 3 * bufferHalf) ∨
      ((port s n).pausing = true ∧ (2 * shared = bufferHalf ∨ (bufferHalf < 2 * shared ∧ s.now < (port s n).lastPause + 40_000)))) →
    exec (.pauseRefresh n shared reserved) s = .next s)

/-- A tagged frame of a partition's VID that passes every check of the MAC, whose security tag names a receive association with a valid packet number, is counted with its length, is answered with a pause where the buffer is too full, and moves the lowest acceptable packet number on (the initiator then renews an association that nears its last number); a sound frame of 64 to 9,216 octets on the management port is counted there where that port's buffer has room for it, and dropped and counted as such where not (the size of that buffer is a free value); without a link it does nothing there. Outside every timetabled path, an idle port whose link is up starts the frame at the head of its buffer: the frame leaves with its channel's number (a key message with none, one sealed as it was built with its own) and with the octets that the rules of 12 and 13 give it, and the buffer, when no frame waits for room and no association is to be renewed, is empty. -/
def Obligations.FramesPassThePort : Prop :=
  (∀ (n p i : Nat) (f : RxFrame) (a : RxSa) (s : State), n < 8 → p < 40 → i < 64 → rxFits f = true → odN s (kLinkUp n) ≠ 0 →
    (if f.pcp = odN s kPcpTimetabled then f.reserved else f.shared) + 9216 ≤ bufferHalf → f.fecBad = 0 → 64 ≤ f.length →
    f.length ≤ 9216 → f.fcsOk = true → f.tagged = true → f.tpid = 0x8100 → f.vid ≠ odN s kPtpVid → f.etherType ≠ 0x8100 →
    f.etherType ≠ 0x88A8 → vidPart s f.vid n = some p → f.dstMac = odB s (kMacAddress n) → f.hasSecTag = true → f.hasSci = true → f.icvOk = true →
    sciPeer s p n f.sci = some i → (chan s p n i).rx = [a] → a.an = f.an → a.pn ≤ f.pn → f.ipOk = true →
    f.dstIp = odB s (kLocalIp p (n + 1)) → f.udpPort = odN s kHrtUdpPort →
    ∃ t, exec (.frameRx n f) s = .next t ∧ (chan t p n i).rx = [{ a with pn := f.pn + 1 }] ∧
      Counted s t (kRxFrames n) 1 ∧ Counted s t (kRxBytes n) f.length ∧ Counted s t (kMacsecRxOk n) 1 ∧
      t.out = (pauseStart s n f.shared).out ∧ t.mem = s.mem ∧ t.sems = s.sems ∧ t.consists = s.consists ∧
      (rekeyDue { chan s p n i with rx := [{ a with pn := f.pn + 1 }] } = false →
        chan t p n i = { chan s p n i with rx := [{ a with pn := f.pn + 1 }] } ∧
        t = { s with ctr := t.ctr, chans := t.chans, ports := (pauseStart s n f.shared).ports, out := t.out })) ∧
  (∀ (f : RxFrame) (s : State), rxFits f = true → (port s 8).noLink = true → exec (.frameRx 8 f) s = .next s) ∧
  (∀ (f : RxFrame) (s : State), rxFits f = true → (port s 8).noLink = false → 64 ≤ f.length → f.length ≤ 9216 → f.fcsOk = true →
    ∃ t, exec (.frameRx 8 f) s = .next t ∧ t = { s with ctr := t.ctr } ∧
      (f.shared + 9216 ≤ Config.mgmtBuffer → Counted s t (kRxFrames 8) 1 ∧ Counted s t (kRxBytes 8) f.length ∧
        CtrKept [kRxFrames 8, kRxBytes 8] s t) ∧
      (Config.mgmtBuffer < f.shared + 9216 → Counted s t (kRxBufferDrops 8) 1 ∧ CtrKept [kRxBufferDrops 8] s t)) ∧
  (∀ (n u : Nat) (f : MacFrame) (s : State), n < 8 → odN s (kLinkUp n) ≠ 0 → odN s (kPortSpeed n) ≠ 0 → (port s n).txq = [f] →
    (port s n).lastEnd ≤ max s.now u → (port s n).pausedUntil = none → (∀ x ∈ s.parts, x.2.paths = []) → f.timetabled = false →
    maySend s n f = true → pnStalled s n f = false →
    ∃ t, exec (.frameTx n u) s = .next t ∧
      t.out = .frame n f (secOf s n f) (frameOctets s f.part n f.peer f.qp f.tag (secOf s n f) f.hdr f.payload) :: s.out ∧
      ((port s n).wait = [] → (∀ x ∈ s.qps, ∀ g ∈ x.2.frames, g.sent ≠ none ∧ g.again = false) →
        (takesPn f = true → rekeyDue { chanReady (chan s f.part n f.peer) with txPn := (chanReady (chan s f.part n f.peer)).txPn + 1 } = false) →
        (port t n).txq = []) ∧
      t.mem = s.mem ∧ t.sems = s.sems ∧ t.consists = s.consists)

/-- The operator's writes of a partition's grant objects, VLAN and port map change the shadow copy only: the committed grant stays. A commit whose checks pass marks the copy ready and shows not_ready in `grant_status` until the swap; a discard drops the copy. A release, with no step open, makes the partition leave at the next boundary; a forced release does so after a no vote and a stop of its consists. -/
def Obligations.GrantsWritten : Prop :=
  (∀ (who : Who) (p sub : Nat) (b : List Byte) (s : State), who.role = .operator → p < 40 → 3 ≤ sub → sub ≤ 8 → b.length = grantLen sub →
    writeOpen s (0x610000 + 256 * p + sub) (.octets b) = true →
    ∃ t, exec (.grantObjectWrite who p sub (.octets b)) s = .next t ∧
      part t p = { part s p with shadow := some (setGrantField (shadowOf s p) sub (leNat b)), ready := false } ∧
      (∀ q, q ≠ p → part t q = part s q) ∧ OdKept bookKeys s t ∧
      t = { s with od := t.od, ctr := t.ctr, book := t.book, parts := t.parts, out := .written (0x610000 + 256 * p + sub) 0 :: s.out }) ∧
  (∀ (who : Who) (p v : Nat) (s : State), who.role = .operator → p < 40 → v < 2 ^ 64 → writeOpen s (0x610000 + 256 * p + 2) (.num v) = true →
    ∃ t, exec (.grantObjectWrite who p 2 (.num v)) s = .next t ∧
      part t p = { part s p with shadow := some { shadowOf s p with consists := v }, ready := false } ∧
      (∀ q, q ≠ p → part t q = part s q)) ∧
  (∀ (who : Who) (p v : Nat) (s : State), who.role = .operator → p < 40 → writeOpen s (kVid p) (.num v) = true → vidTaken s p v = false →
    0 < v → v < 4095 → v ≠ odN s kPtpVid →
    ∃ t, exec (.vidWrite who p v) s = .next t ∧ part t p = { part s p with shadow := some { shadowOf s p with vid := v }, ready := false } ∧
      (∀ q, q ≠ p → part t q = part s q) ∧ OdKept bookKeys s t) ∧
  (∀ (who : Who) (p v : Nat) (s : State), who.role = .operator → p < 40 → v < 256 → writeOpen s (kPortMap p) (.num v) = true →
    (bitList 8 v).all (portExists s) = true →
    ∃ t, exec (.portMapWrite who p v) s = .next t ∧ part t p = { part s p with shadow := some { shadowOf s p with portMap := v }, ready := false } ∧
      (∀ q, q ≠ p → part t q = part s q) ∧ OdKept bookKeys s t) ∧
  (∀ (who : Who) (p : Nat) (s : State), who.role = .operator → p < 40 → writeOpen s (kGrantCommit p) (.num 1) = true → commitCheck s p = .ok →
    ∃ t, exec (.grantCommit who p) s = .next t ∧ part t p = { part s p with shadow := some (shadowOf s p), ready := true } ∧
      (∀ q, q ≠ p → part t q = part s q) ∧ odN t (kGrantStatus p) = 0x0B ∧ OdKept (kGrantStatus p :: bookKeys) s t) ∧
  (∀ (who : Who) (p : Nat) (s : State), who.role = .operator → p < 40 → writeOpen s (kGrantCommit p) (.num 3) = true →
    ∃ t, exec (.grantDiscard who p) s = .next t ∧ part t p = { part s p with shadow := none, ready := false } ∧
      (∀ q, q ≠ p → part t q = part s q) ∧ OdKept bookKeys s t) ∧
  (∀ (who : Who) (p : Nat) (s : State), who.role = .operator → p < 40 → writeOpen s (kGrantCommit p) (.num 2) = true → grantsClosed s = false →
    stepOpen s p = false → (part s p).grant ≠ none →
    ∃ t, exec (.grantRelease who p) s = .next t ∧ part t p = { part s p with leaves := true, ready := false, shadow := none } ∧
      (∀ q, q ≠ p → part t q = part s q) ∧ odN t (kPartState p) = 2 ∧ OdKept (kPartState p :: bookKeys) s t) ∧
  (∀ (who : Who) (p : Nat) (s : State), who.role = .operator → p < 40 → writeOpen s (kGrantCommit p) (.num 4) = true → grantsClosed s = false →
    exec (.grantForceRelease who p) s = .next (answered (forceRelease (entered s who (kGrantCommit p) (.num 4)) p) (kGrantCommit p)))

/-- At a boundary, a ready copy whose additions are all free, of a partition that is not releasing, becomes the committed grant and its epoch advances. The scrub of a granule that has left, once no block in flight has still to write it, marks the granule's entry as running: in the near tier and in staging every byte of it then reads zero, in the far tier every byte is a new free value (the model's form of unreadable), in the depot its blocks read zero and are unmapped; bytes outside it, consists, semaphores and partitions stay. While such a block is in flight, and where nothing is leaving, the command changes nothing. The end of a running scrub takes the granule off the list. The end of a consist's clearing, once its verbs have ended, leaves it idle with nothing loaded. -/
def Obligations.GrantsSwap : Prop :=
  (∀ (p : Nat) (s : State), p < 40 → (part s p).leaves = false → (part s p).ready = true → addsFree s p = true →
    odN s (kPartState p) ≠ 2 →
    ∃ t, exec (.grantSwap p) s = .next t ∧ grantOf t p = shadowOf s p ∧ (part t p).ready = false ∧ (part t p).shadow = none ∧
      odN t (kGrantStatus p) = 0 ∧ odN t (kPartState p) = 1) ∧
  (∀ (tier : ScrubTier) (g : Nat) (s : State), g < 6400 →
    (s.health.leaving.any fun l => l.tier = tierCode tier && l.no = g && !l.running) = true → granuleBusy s tier g = false →
    ∃ t, exec (.granuleScrub tier g) s = .next t ∧
      t.health = { s.health with leaving := s.health.leaving.map (fun l =>
        if l.tier = tierCode tier ∧ l.no = g then { l with running := true } else l) } ∧
      ((tier = .near ∨ tier = .staging) →
        ∀ a, (granuleRange tier g).1 ≤ a → a < (granuleRange tier g).1 + (granuleRange tier g).2 → isFar a = false → memGet t.mem a = 0) ∧
      (tier = .far → g < 256 →
        ∀ a, farBase + g * 2 ^ 32 ≤ a → a < farBase + (g + 1) * 2 ^ 32 → memGet t.mem a = Config.farUnwritten (tget 0 s.mem.farGen g + 1) a) ∧
      (tier ≠ .depot → MemKept s t (granuleRange tier g).1 (granuleRange tier g).2 ∧ Counted s t kScrubBytes (granuleRange tier g).2 ∧
        t.depot = s.depot) ∧
      (tier = .depot → t.mem = s.mem ∧ (∀ a, depotByte t.depot a = if a / 65536 / 65536 = g then 0 else depotByte s.depot a) ∧
        (∀ b ∈ t.depot.mapped, b / 65536 ≠ g)) ∧
      t = { s with od := t.od, ctr := t.ctr, mem := t.mem, depot := t.depot, health := t.health }) ∧
  (∀ (tier : ScrubTier) (g : Nat) (s : State), g < 6400 →
    ((s.health.leaving.any fun l => l.tier = tierCode tier && l.no = g && !l.running) = false ∨ granuleBusy s tier g = true) →
    exec (.granuleScrub tier g) s = .next s) ∧
  (∀ (tier : ScrubTier) (g : Nat) (x : Leaving) (s : State), g < 6400 →
    s.health.leaving.find? (fun l => l.tier = tierCode tier && l.no = g && l.running) = some x →
    ∃ t, exec (.granuleScrubEnd tier g) s = .next t ∧ isLeaving t (tierCode tier) g = false ∧
      t.health = { s.health with leaving := s.health.leaving.filter fun l => !(l.tier = tierCode tier && l.no = g) } ∧
      t = { s with od := t.od, health := t.health }) ∧
  (∀ (tier : ScrubTier) (g : Nat) (s : State), g < 6400 →
    s.health.leaving.find? (fun l => l.tier = tierCode tier && l.no = g && l.running) = none →
    exec (.granuleScrubEnd tier g) s = .next s) ∧
  (∀ (k : Nat) (s : State), k < 40 → (s.health.leaving.any fun l => l.tier = 4 && l.no = k && l.running) = true →
    consistBusy s k (s.health.leaving.any fun l => l.tier = 4 && l.no = k && decide (l.part < 40)) = false →
    ∃ t, exec (.consistClearEnd k) s = .next t ∧ con t k = Consist.reset ∧ isLeaving t 4 k = false ∧ Counted s t kConsistScrubs 1) ∧
  (∀ (k : Nat) (s : State), k < 40 →
    (isLeaving s 4 k = false ∨ consistBusy s k (s.health.leaving.any fun l => l.tier = 4 && l.no = k && decide (l.part < 40)) = true) → exec (.consistClearEnd k) s = .next s)

/-- The operator's mark of a depot granule that no partition holds records it as preserved, tied to the key that sealed it where it was preserved before, and clearing the mark takes it away; the count of preserved granules follows. A clean patrol read of a mapped line of the near tier, or of the far tier with no channel failed, moves that tier's patrol past it, and back to the start after the last mapped line, which is counted as a pass; it changes no byte. -/
def Obligations.PreserveAndPatrol : Prop :=
  (∀ (who : Who) (q : Nat) (s : State), who.role = .operator → q < 65536 → q < depotGranules s → writeOpen s kDepotPreserveSet (.num q) = true →
    (s.parts.find? fun x => bitOf (grantOf s x.1).depot q) = none →
    ∃ t, exec (.depotPreserveSet who q) s = .next t ∧ tget (zeros 16) t.depot.preserved q = tget (zeros 16) s.depot.preserved q ∧ (t.depot.preserved.any fun x => x.1 = q) = true ∧
      (∀ r, r ≠ q → tget [] t.depot.preserved r = tget [] s.depot.preserved r) ∧
      odN t kDepotPreservedGranules = t.depot.preserved.length ∧ t.mem = s.mem ∧ t.parts = s.parts) ∧
  (∀ (who : Who) (q : Nat) (s : State), who.role = .operator → q < 65536 → q < depotGranules s → writeOpen s kDepotPreserveClear (.num q) = true →
    ∃ t, exec (.depotPreserveClear who q) s = .next t ∧ (∀ x ∈ t.depot.preserved, x.1 ≠ q) ∧
      odN t kDepotPreservedGranules = t.depot.preserved.length ∧ t.mem = s.mem ∧ t.parts = s.parts) ∧
  (∀ (a : Nat) (s : State), a < nearEnd → region s a = .near →
    ∃ t, exec (.patrolRead a Ecc.clean) s = .next t ∧
      t.health = { s.health with patrolNear := if a / 64 * 64 = lastLine s false then 0 else a / 64 * 64 + 64 } ∧
      (a / 64 * 64 = lastLine s false → Counted s t kPatrolPasses 1) ∧ t = { s with ctr := t.ctr, health := t.health }) ∧
  (∀ (a : Nat) (s : State), region s a = .far → odN s kFarChannelFailed = 0 →
    ∃ t, exec (.patrolRead a Ecc.clean) s = .next t ∧
      t.health = { s.health with patrolFar := if a / 64 * 64 = lastLine s true then 0 else a / 64 * 64 + 64 } ∧
      (a / 64 * 64 = lastLine s true → Counted s t kPatrolPasses 1) ∧ t = { s with ctr := t.ctr, health := t.health })

/-- A quote of the module, with fewer than eight outstanding, is signed with the identity key over its 1,152 octets, returned and counted. A tenant's import whose confirmation verifies under the secret that the device's KEM key decapsulates from it derives the depot key, shows its check value, sets the mode to imported and renews the challenge. A certificate chain of 11,834 octets for the module's own keys, signed under the fused root key, replaces `identity_chain` and relocks an open debug port at the next start-up. A key list of whole keys, at most four, replaces the role's list; a tenant's key is one key. -/
def Obligations.QuotesAndKeys : Prop :=
  (∀ (who : Who) (bytes : List Byte) (s : State), bytes.length = 33 → (lget 0 bytes 32).toNat = 0xFF →
    (s.sec.quotes.filter fun t => s.now < t).length < 8 → writeOpen s kQuoteRequest (.octets bytes) = true →
    ∃ t q, exec (.quoteRequest who bytes) s = .next t ∧ t.out = .written kQuoteRequest 0 :: .quote 0 q :: s.out ∧ q.length = 1152 + 3309 ∧
      (q.drop 96).take 32 = bytes.take 32 ∧
      q.drop 1152 = (List.range 3309).map (Config.signature s.sec.identity ctxQuote (q.take 1152) s.free) ∧
      t.sec = { s.sec with quoteSerial := s.sec.quoteSerial + 1, quotes := (s.sec.quotes.filter fun t => s.now < t) ++ [s.now + 5_000_000] } ∧
      Counted s t kQuotesSigned 1 ∧
      OdKept bookKeys s t ∧ t.mem = s.mem ∧ t.parts = s.parts) ∧
  (∀ (who : Who) (p : Nat) (cipher proof bytes : List Byte) (s : State), bytes = cipher ++ proof → p < 40 → who.role = .tenant → who.part = p → (part s p).grant ≠ none →
    (grantOf s p).depot = 0 → (shadowOf s p).depot = 0 → bytes.length = 1120 →
    bytes.drop 1088 = importProof s p (importSecret s bytes) →
    writeOpen s (kDepotKeyImport p) (.octets bytes) = true →
    ∃ t, exec (.depotKeyImport who p cipher proof) s = .next t ∧ odN t (kDepotKeyMode p) = 1 ∧
      odB t (kDepotKeyCheck p) = shake256 (labelKcv ++ importSecret s bytes) 16 ∧
      (∃ x, tget none t.sec.keys p = some x ∧ x.depot = shake256 (labelDepot ++ importSecret s bytes) 64) ∧
      OdKept (kDepotKeyMode p :: kDepotKeyCheck p :: kKeyChallenge p :: bookKeys) s t ∧ t.mem = s.mem ∧ t.depot = s.depot) ∧
  (∀ (who : Who) (bytes : List Byte) (k : Option (List Byte)) (s : State), who.role = .service → bytes.length = 11834 →
    ownKeys s bytes = true → fusedKey s.sec.rootKey k = true → writeOpen s kIdentityCertWrite (.octets bytes) = true →
    ∃ t, exec (.identityCertWrite who bytes k) s = .next t ∧ odB t kIdentityChain = bytes ∧
      t.sec = { s.sec with relock := s.sec.relock || decide (odN s kDebugState = 2) } ∧ OdKept (kIdentityChain :: bookKeys) s t) ∧
  (∀ (who : Who) (sub p key : Nat) (bytes : List Byte) (s : State), who.role = .operator → p < 40 →
    (sub = 0x0C ∧ key = kOperatorKeys ∧ bytes.length % 1952 = 0 ∧ bytes.length ≤ 4 * 1952 ∨
     sub = 0x0D ∧ key = kObserverKeys ∧ bytes.length % 1952 = 0 ∧ bytes.length ≤ 4 * 1952 ∨
     sub = 0x0E ∧ key = kTenantKey p ∧ bytes.length = 1952) → writeOpen s key (.octets bytes) = true →
    ∃ t, exec (.keyListWrite who sub p bytes) s = .next t ∧ odB t key = bytes ∧ OdKept (key :: kLmpSessionsOpen :: bookKeys) s t ∧
      t = { s with od := t.od, ctr := t.ctr, book := t.book, out := .written key 0 :: s.out })

/-- Opening by the service role with the operator's consent, or by a verified unlock at the port, begins the erase: debug_state reads 1 and every key and channel is gone. A failed unlock draws a new challenge and is counted. An instruction that may be loaded stands in the port's register, and the unlock instruction returns the challenge; one that may not is refused and counted. The release of the erase makes the partitions leave, and in hold wakes the near tier's stacks for the scrub; the erase's end, once no block waits or is in flight, leaves no byte of memory, no consist loaded, no semaphore in use, and debug_state open. -/
def Obligations.DebugOpensByErasing : Prop :=
  (∀ (who : Who) (s : State), who.role = .service → odN s kDebugConsent ≠ 0 → writeOpen s kDebugOpen (.num 1) = true → odN s kDebugState ≠ 1 →
    ∃ t, exec (.debugOpen who 1) s = .next t ∧ odN t kDebugState = 1 ∧ t.sec.keys = [] ∧ t.sec.release = true ∧ t.chans = [] ∧ t.mem = s.mem) ∧
  (∀ s : State, s.sec.tap = 4 → odN s kDebugState ≠ 1 →
    ∃ t, exec (.tapUnlock true) s = .next t ∧ odN t kDebugState = 1 ∧ t.sec.keys = [] ∧ t.sec.release = true ∧ t.chans = []) ∧
  (∀ s : State, s.sec.tap = 4 →
    ∃ t, exec (.tapUnlock false) s = .next t ∧ Counted s t kDebugUnlockFailures 1 ∧ t.sec.tapChallenge.length = 32 ∧
      t = { s with free := s.free + 1, ctr := t.ctr, sec := { s.sec with tapChallenge := t.sec.tapChallenge } }) ∧
  (∀ (l : TapInstr) (s : State), (l = .extest → s.link.resetLow = true) → (l = .privateInstr → s.sec.tapOpen = true) →
    ∃ t, exec (.tapInstructionLoad l) s = .next t ∧
      t = { s with sec := { s.sec with tap := tapCode l }, out := if l = .unlock then .tap s.sec.tapChallenge :: s.out else s.out }) ∧
  (∀ s : State, s.sec.tapOpen = false →
    ∃ t, exec (.tapInstructionLoad .privateInstr) s = .next t ∧ Counted s t kTapRefused 1 ∧
      t = { s with ctr := t.ctr, sec := { s.sec with tap := 0 } }) ∧
  (∀ s : State, s.sec.release = true →
    ∃ t, exec .debugEraseRelease s = .next t ∧ t.sec.release = false ∧ ((∀ x ∈ s.parts, x.2.grant = none) →
      (∀ d, 0x40 ≤ d → d < 0x50 → domState t d = if holding s = true ∧ domState s d = 1 then 0 else domState s d) ∧
      OdKept ((List.range 16).map fun d => kDomainState (d + 0x41)) s t ∧
      t = { s with od := t.od, sec := { s.sec with release := false }, link := { s.link with recordGone := s.link.recordGone || holding s } })) ∧
  (∀ s : State, odN s kDebugState = 1 → s.sec.release = false → (∀ x ∈ s.pools, x.2.flight = [] ∧ x.2.pending = []) →
    ∃ t, exec .debugEraseEnd s = .next t ∧ odN t kDebugState = 2 ∧ t.mem.cells = [] ∧ t.consists = [] ∧ t.sems = [] ∧ t.sec.tapOpen = true)

/-- In any hold state of a module that has input power and is not in ROM recovery (where there is no hold), HOLD_DISCARD completes: the start-up begins with boot_state 0, no byte of memory, no consist, semaphore, partition or queue keeps anything, no command of the host's hold remains in force, and the depot's blocks and preserved granules are as they were. -/
def Obligations.HoldDiscarded : Prop :=
  ∀ s : State, s.boot.inRecovery = false → s.pow.stopped = false →
    ∃ t, exec .holdDiscard s = .next t ∧ odN t kBootState = 0 ∧ odN t kHoldState = 0 ∧ odN t kBootCause = 3 ∧ t.mem.cells = [] ∧
      t.consists = [] ∧ t.sems = [] ∧ t.parts = [] ∧ t.pools = [] ∧ t.qps = [] ∧ t.queues = [] ∧ t.apertures = [] ∧ t.ctr = [] ∧
      t.depot.cells = s.depot.cells ∧ t.depot.mapped = s.depot.mapped ∧ t.depot.preserved = s.depot.preserved ∧
      t.book.entries = s.book.entries

/-- With no hold and every partition free, a restart begins a start-up with cause 2 that loses every volatile content; the forced one begins it whatever is granted. Clearing the ledger and restoring the defaults are noted for the next start-up and change nothing else. -/
def Obligations.RestartsBegin : Prop :=
  (∀ (who : Who) (s : State), who.role = .operator → writeOpen s kModuleRestart (.num 1) = true → odN s kHoldState = 0 → anyPart s = false →
    ∃ t, exec (.moduleRestart who) s = .next t ∧ odN t kBootState = 0 ∧ odN t kBootCause = 2 ∧ t.mem.cells = [] ∧ t.consists = [] ∧
      t.sems = [] ∧ t.parts = [] ∧ t.depot.cells = s.depot.cells ∧ t.out = .written kModuleRestart 0 :: s.out) ∧
  (∀ (who : Who) (s : State), who.role = .operator → writeOpen s kModuleRestart (.num 2) = true →
    ∃ t, exec (.moduleRestartForce who) s = .next t ∧ odN t kBootState = 0 ∧ odN t kBootCause = 2 ∧ t.mem.cells = [] ∧ t.consists = [] ∧
      t.sems = [] ∧ t.parts = []) ∧
  (∀ (who : Who) (s : State), who.role = .operator → writeOpen s kLedgerClear (.num 1) = true →
    ∃ t, exec (.ledgerClear who 1) s = .next t ∧ t.boot = { s.boot with clearLedger := true } ∧ OdKept bookKeys s t ∧
      t = { s with od := t.od, ctr := t.ctr, book := t.book, boot := t.boot, out := .written kLedgerClear 0 :: s.out }) ∧
  (∀ (who : Who) (s : State), who.role = .service → writeOpen s kRestoreDefaults (.num 1) = true →
    ∃ t, exec (.restoreDefaults who 1) s = .next t ∧ t.boot = { s.boot with restoreDefaults := true } ∧ OdKept bookKeys s t ∧
      t = { s with od := t.od, ctr := t.ctr, book := t.book, boot := t.boot, out := .written kRestoreDefaults 0 :: s.out })

/-- Each finding runs the start-up step that comes next; step 0x0B does not end while the host's reset input is asserted, and then runs to its limit and fails with timeout; after a clean fourteenth step following clean ones the module reads running. A step whose failure halts the module does so when it outlasts its limit. The return of the input above 39 V begins a start-up with cause 1; its fall below 36 V stops the module and is counted. -/
def Obligations.StartUpSteps : Prop :=
  (∀ (e : BootEnv) (f : StepFinding) (s : State), e.wf = true → e.findings = [f] → booting s = true → s.boot.entries.length < 14 →
    exec (.startUp e) s = .next (runStep e f (atTime s e.t))) ∧
  (∀ (e : BootEnv) (f : StepFinding) (s : State), e.wf = true → e.findings = [f] → f.fail = none → f.us ≤ 100_000 → booting s = true →
    s.boot.entries.length = 13 → (s.boot.entries.all fun x => x.status = 0 && x.mode = 0) = true →
    ∃ t, exec (.startUp e) s = .next t ∧ odN t kBootState = 1 ∧ t.boot.entries.length = 14 ∧ t.boot.openStep = none ∧ t.mem = s.mem) ∧
  (∀ (e : BootEnv) (f : StepFinding) (s : State), e.wf = true → e.findings = [f] → booting s = true → s.boot.entries.length = 11 →
    s.link.resetLow = true →
    ∃ t x, exec (.startUp e) s = .next t ∧ t.boot.entries = s.boot.entries ++ [x] ∧ x.step = 11 ∧ x.status = 0x04 ∧ x.us = stepLimit 11 ∧
      t.boot.noHost = true ∧ odN t kBrynqLinksUp = 0 ∧ odN t kBootState = 0) ∧
  (∀ (step u : Nat) (s : State), (step = 1 ∨ 3 ≤ step ∧ step ≤ 7 ∨ step = 12) → booting s = true → s.boot.entries.length = step →
    ∃ t, exec (.startupStepTimeout step u) s = .next t ∧ odN t kBootState = 3 ∧ t.boot.entries.length = step + 1 ∧ t.mem = s.mem) ∧
  (∀ (v u : Nat) (s : State), isF32 v = true → s.pow.stopped = true → f32Lt vinStart v = true →
    ∃ t, exec (.vinStart v u) s = .next t ∧ t.pow.stopped = false ∧ odN t kBootCause = 1 ∧ odN t kBootState = 0 ∧ odN t kVinVoltage = v ∧
      t.mem.cells = [] ∧ t.depot.cells = s.depot.cells) ∧
  (∀ (v u : Nat) (s : State), isF32 v = true → s.pow.stopped = false → f32Lt v vinLoss = true →
    ∃ t, exec (.vinLoss v u) s = .next t ∧ t.pow.stopped = true ∧ odN t kBootState = 0)

/-- A first chunk starts a candidate with the length it names. A verification of an image that passes its checks, its signature under the fused firmware key, makes the candidate verified and shows its version. A commit of a verified candidate empties the flash until its end, which puts the candidate into it. An activation of a programmed candidate begins a start-up with cause 4; a drop empties the candidate. In ROM recovery, an image that passes its checks starts the module again with cause 6. -/
def Obligations.FirmwareMoves : Prop :=
  (∀ (who : Who) (bytes : List Byte) (s : State), who.role = .operator → writeOpen s kFwChunk (.octets bytes) = true → s.boot.committing = false →
    9 ≤ bytes.length → bytes.length ≤ 32776 → leNat (bytes.take 4) = 0 → bytes.length - 8 ≤ leNat ((bytes.drop 4).take 4) →
    ∃ t, exec (.fwChunk who bytes) s = .next t ∧ odN t kFwCandidateState = 1 ∧
      t.boot = { s.boot with candLength := leNat ((bytes.drop 4).take 4), candChunks := [(0, bytes.drop 8)], candHeader := none, candDigest := [], candKey := [] } ∧
      OdKept (kFwCandidateState :: kFwCandidateStatus :: kFwCandidateVersion :: bookKeys) s t) ∧
  (∀ (who : Who) (k : Option (List Byte)) (s : State), who.role = .operator → writeOpen s kFwControl (.num 1) = true →
    s.boot.committing = false → fusedKey s.sec.firmwareKey k = true →
    fwCheck s (parseFw (candBytes s)) (candWhole s && (parseFw (candBytes s)).imageLength = s.boot.candLength) true = .ok →
    ∃ t, exec (.fwVerify who k) s = .next t ∧ odN t kFwCandidateState = 2 ∧ odN t kFwCandidateStatus = 0 ∧
      odN t kFwCandidateVersion = (parseFw (candBytes s)).version ∧
      t.boot = { s.boot with candHeader := some (parseFw (candBytes s)), candDigest := shake256 (candBytes s) 64, candKey := s.sec.firmwareKey }) ∧
  (∀ (who : Who) (s : State), who.role = .operator → writeOpen s kFwControl (.num 2) = true → s.boot.committing = false →
    odN s kFwCandidateState = 2 → odN s kBootState ≠ 0 → holding s = false →
    ∃ t, exec (.fwCommit who) s = .next t ∧ odN t kFwCandidateState = 3 ∧
      t.boot = { s.boot with committing := true, commitRetry := false, flash := none }) ∧
  (∀ s : State, s.boot.committing = true →
    ∃ t, exec (.fwCommitEnd true) s = .next t ∧ odN t kFwCandidateState = 4 ∧ odN t kFwCandidateStatus = 0 ∧
      t.boot = { s.boot with committing := false, flash := s.boot.candHeader, flashDigest := s.boot.candDigest, flashKey := s.boot.candKey } ∧ Counted s t kFwCommits 1) ∧
  (∀ (who : Who) (s : State), who.role = .operator → writeOpen s kFwControl (.num 3) = true → s.boot.committing = false →
    odN s kFwCandidateState = 4 → odN s kHoldState = 0 → anyPart s = false →
    ∃ t, exec (.fwActivate who) s = .next t ∧ odN t kBootCause = 4 ∧ odN t kBootState = 0 ∧ t.boot.flash = s.boot.flash ∧ t.mem.cells = []) ∧
  (∀ (who : Who) (s : State), who.role = .operator → writeOpen s kFwControl (.num 4) = true → s.boot.committing = false →
    ∃ t, exec (.fwDrop who) s = .next t ∧ odN t kFwCandidateState = 0 ∧ odN t kFwCandidateStatus = 0 ∧ odN t kFwCandidateVersion = 0 ∧
      t.boot = { s.boot with candLength := 0, candChunks := [], candHeader := none, candDigest := [], candKey := [] }) ∧
  (∀ (k : Option (List Byte)) (s : State), s.boot.inRecovery = true → fusedKey s.sec.firmwareKey k = true →
    fwCheck s (parseFw ((List.range s.boot.recoveryLength).map fun i => tget 0 s.boot.recBuf i))
      ((parseFw ((List.range s.boot.recoveryLength).map fun i => tget 0 s.boot.recBuf i)).imageLength = s.boot.recoveryLength) true = .ok →
    ∃ t, exec (.recoveryCommand 1 k true) s = .next t ∧ t.boot.inRecovery = false ∧ odN t kBootCause = 6 ∧ odN t kBootState = 0 ∧
      t.boot.flash = some (parseFw ((List.range s.boot.recoveryLength).map fun i => tget 0 s.boot.recBuf i)) ∧ Counted State.reset t kRecoveries 1)

/-- A new well-formed request that passes the checks of its session or mailbox is carried out and answered with status ok. A read of an object that fits one answer returns its octets, and a counter's view is cleared by it (one of the management port then counts the answer itself); a read of an index returns the octets of the subindices that the role can read. A whole value written in one frame reaches the dictionary and is answered with the write's status. Entries of the register book, and a signed checkpoint with its signature, are returned as the role sees them. -/
def Obligations.RequestsAnswered : Prop :=
  (∀ (r : LmpReq) (s s1 : State) (k : Nat) (v : Session) (b : List Byte), r.wf = true → reqForm r = true → readForm r = true →
    gate (atTime s r.t) r = (s1, some (k, v)) → v.answers.find? (fun x => x.1 = r.requestId) = none → r.offset = 0 →
    readOctets (bump s1 kLmpRequests 1 none) (whoOf k v) (r.index * 256 + r.sub) = some b → b.length ≤ 8144 → b.length ≤ r.length →
    viewOf (whoOf k v) < 64 →
    ∃ t c f, exec (.lmpRead r) s = .next t ∧ Out.answer c r.requestId 0 f ∈ t.out ∧ f.drop 32 = b ∧
      (∀ row, odRow (r.index * 256 + r.sub) = some row → row.acc = .rc → r.index ≠ 0xA0C8 →
        ctrGet t (r.index * 256 + r.sub) (viewOf (whoOf k v)) = 0) ∧ t.mem = s.mem) ∧
  (∀ (r : LmpReq) (s s1 : State) (k : Nat) (v : Session) (b : List Byte), r.wf = true → reqForm r = true → readForm r = true →
    gate (atTime s r.t) r = (s1, some (k, v)) → v.answers.find? (fun x => x.1 = r.requestId) = none → r.offset = 0 →
    (readWhole (bump s1 kLmpRequests 1 none) (whoOf k v) r.index).2 = some b → b.length ≤ 8144 → b.length ≤ r.length →
    ∃ t c f, exec (.lmpReadIndex r) s = .next t ∧ Out.answer c r.requestId 0 f ∈ t.out ∧ f.drop 32 = b ∧ t.mem = s.mem) ∧
  (∀ (r : LmpReq) (s s1 x : State) (k : Nat) (v : Session), r.wf = true → reqForm r = true → r.length = r.value.length →
    gate (atTime s r.t) r = (s1, some (k, v)) → v.answers.find? (fun x => x.1 = r.requestId) = none → r.offset = 0 → r.total = r.length →
    r.final = true → s1.book.segs.find? (fun x => x.key = r.index * 256 + r.sub) = none →
    x = wholeWrite (bump s1 kLmpRequests 1 none) (whoOf k v) (r.index * 256 + r.sub) r.value r.found →
    (writeAnswer (bump s1 kLmpRequests 1 none) x (r.index * 256 + r.sub)).status = .ok →
    ∃ t c f, exec (.lmpWrite r) s = .next t ∧ Out.answer c r.requestId 0 f ∈ t.out ∧ t.mem = x.mem ∧ OdKept [kLmpSessionsOpen] x t) ∧
  (∀ (w : Who) (n : Nat) (s t : State), n < 65536 → exec (.powerCapWrite w n) s = .next t → wholeWrite s w kPowerCap (leBytes 2 n) none = t) ∧
  (∀ (r : LmpReq) (s s1 : State) (k n m : Nat) (v : Session), r.wf = true → reqForm r = true → r.value.length = 12 → r.length = 12 →
    gate (atTime s r.t) r = (s1, some (k, v)) → v.answers.find? (fun x => x.1 = r.requestId) = none → v.role = .operator →
    n = leNat (r.value.take 8) → m = leNat (r.value.drop 8) → 0 < m → m ≤ 46 → serialCheck s1 n = .ok → n + m ≤ odN s1 kBookHeadSerial + 1 →
    ∃ t c f, exec (.bookRead r) s = .next t ∧ Out.answer c r.requestId 0 f ∈ t.out ∧
      f.drop 32 = (List.range m).flatMap fun i => entryAt s1 (n + i)) ∧
  (∀ (r : LmpReq) (s s1 : State) (k : Nat) (v : Session), r.wf = true → reqForm r = true → r.value.length = 8 → r.length = 8 →
    gate (atTime s r.t) r = (s1, some (k, v)) → v.answers.find? (fun x => x.1 = r.requestId) = none →
    serialCheck s1 (leNat r.value) = .ok → lget 0 (entryAt s1 (leNat r.value)) 21 = 2 → tget [] s1.book.sigs (leNat r.value) ≠ [] →
    ∃ t c f, exec (.lmpCheckpointRead r) s = .next t ∧ Out.answer c r.requestId 0 f ∈ t.out ∧
      f.drop 32 = entryAt s1 (leNat r.value) ++ tget [] s1.book.sigs (leNat r.value))

/-- A well-formed open with room for a session makes one that is not yet proved and answers the module's nonce. A proof that verifies under a key of the role proves it; a failed one ends it and is counted; a proof frame that does not keep its form is dropped and counted. A close answers and ends the session. A session without its proof ends after 5 s, an idle one after its limit; a snapshot goes after 10 s, as does a segmented write without its next segment. -/
def Obligations.SessionsOpenAndEnd : Prop :=
  (∀ (r : LmpOpenReq) (s : State), r.requestId < 2 ^ 32 → openForm r = true → dictUp s = true → odB s kMgmtIp ≠ zeros 16 →
    (s.book.sessions.filter fun x => x.1 < 2 ^ 32).length < 16 →
    ∃ t k v f, exec (.lmpOpen r) s = .next t ∧ session? t k = some v ∧ v.proved = false ∧ v.role = roleOf r.role ∧ v.part = r.part ∧
      v.moduleNonce.length = 32 ∧ t.out = .answer k r.requestId 0 f :: s.out ∧ f.drop 32 = v.moduleNonce ∧ t.mem = s.mem ∧ t.od = s.od) ∧
  (∀ (k q u : Nat) (v : Session) (s : State), k < 2 ^ 32 → q < 2 ^ 32 → dictUp s = true → session? s k = some v → v.proved = false →
    keyNamed s v.role v.part v.keyFp = true → v.txSeq + 1 ≠ 2 ^ 32 - 1 →
    ∃ t c f, exec (.lmpOpenProof k q (some true) u) s = .next t ∧ session? t k = some { v with proved := true, last := max s.now u, txSeq := v.txSeq + 1 } ∧
      Out.answer c q 0 f ∈ t.out ∧ OdKept [kLmpSessionsOpen] s t) ∧
  (∀ (k q u : Nat) (v : Session) (s : State), k < 2 ^ 32 → q < 2 ^ 32 → dictUp s = true → session? s k = some v → v.proved = false →
    ∃ t c f, exec (.lmpOpenProof k q (some false) u) s = .next t ∧ session? t k = none ∧ Counted s t kLmpAuthFailures 1 ∧ Out.answer c q 8 f ∈ t.out) ∧
  (∀ (k q u : Nat) (s : State), k < 2 ^ 32 → q < 2 ^ 32 → dictUp s = true →
    ∃ t, exec (.lmpOpenProof k q none u) s = .next t ∧ Counted s t kLmpDropped 1 ∧ CtrKept [kLmpDropped] s t ∧
      t = { s with now := max s.now u, ctr := t.ctr }) ∧
  (∀ (r : LmpReq) (s s1 : State) (v : Session), r.wf = true → reqForm r = true → r.value = [] → r.length = 0 → r.session ≠ 0 →
    gate (atTime s r.t) r = (s1, some (r.session, v)) → v.answers.find? (fun x => x.1 = r.requestId) = none →
    ∃ t c f, exec (.lmpClose r) s = .next t ∧ session? t r.session = none ∧ Out.answer c r.requestId 0 f ∈ t.out) ∧
  (∀ (k u : Nat) (v : Session) (s : State), session? s k = some v → v.proved = false → v.last + 5_000_000_000 ≤ max s.now u →
    ∃ t, exec (.lmpOpenTimeout k u) s = .next t ∧ session? t k = none ∧ (∀ j, j ≠ k → session? t j = session? s j) ∧ t.mem = s.mem) ∧
  (∀ (k u : Nat) (v : Session) (s : State), k < 2 ^ 32 → session? s k = some v → v.proved = true →
    v.last + odN s kLmpIdleS * 1_000_000_000 ≤ max s.now u →
    ∃ t, exec (.lmpIdleTimeout k u) s = .next t ∧ session? t k = none ∧ (∀ j, j ≠ k → session? t j = session? s j) ∧ t.mem = s.mem) ∧
  (∀ (k u : Nat) (v : Session) (s : State), session? s k = some v →
    ∃ t, exec (.lmpSnapshotExpiry k u) s = .next t ∧
      session? t k = some { v with snapshots := v.snapshots.filter fun x => max s.now u < x.2.1 + 10_000_000_000 } ∧
      (∀ j, j ≠ k → session? t j = session? s j) ∧ t = { s with now := max s.now u, book := t.book }) ∧
  (∀ (key u : Nat) (s : State),
    ∃ t, exec (.lmpSegmentTimeout key u) s = .next t ∧
      (∀ g ∈ t.book.segs, g ∈ s.book.segs ∧ (g.key = key → max s.now u < g.t + 10_000_000_000)) ∧
      (∀ g ∈ s.book.segs, g.key ≠ key → g ∈ t.book.segs) ∧
      t = { s with now := max s.now u, book := { s.book with segs := t.book.segs } })

/-- When the interval or the period is reached, a checkpoint entry goes to the head of the book and waits for its signature. Signing takes the oldest that waits and gives it a signature of 3,309 octets over its entry under the book key. The export mark may only rise; it is taken even where the book is full. A management setting takes effect when its time has come. -/
def Obligations.BookKeepsItself : Prop :=
  (∀ (u : Nat) (s : State), dictUp s = true → odN s kBookCheckpointInterval ≤ s.book.since →
    ∃ t, exec (.bookCheckpoint u) s = .next t ∧ t.book.since = 0 ∧ t.book.lastCheckpoint = some (nextSerial s) ∧
      t.book.unsigned = s.book.unsigned ++ [nextSerial s] ∧ t.book.lastTime = max s.now u ∧ odN t kBookHeadSerial = nextSerial s ∧
      OdKept bookKeys s t ∧ Counted s t kBookCheckpoints 1 ∧ t = { s with now := max s.now u, od := t.od, ctr := t.ctr, book := t.book }) ∧
  (∀ (n : Nat) (rest : List Nat) (s : State), s.book.unsigned = n :: rest → odN s kBookOldestSerial ≤ n →
    ∃ t, exec .bookCheckpointSign s = .next t ∧ t.book.unsigned = rest ∧ (tget [] t.book.sigs n).length = 3309 ∧
      tget [] t.book.sigs n = (List.range 3309).map (Config.signature s.sec.bookKey ctxBook (entryAt s n) s.free) ∧
      t = { s with free := s.free + 1, book := { s.book with unsigned := rest, sigs := t.book.sigs } }) ∧
  (∀ (who : Who) (v : Nat) (s : State), who.role = .operator → dictUp s = true → starting s = false → v < 2 ^ 64 →
    odN s kBookExportMark ≤ v → typeOk (keyTy kBookExportMark) (.num v) = true →
    ∃ t, exec (.bookExportMarkWrite who v) s = .next t ∧ odN t kBookExportMark = v ∧ OdKept (kBookExportMark :: bookKeys) s t ∧
      t = { s with od := t.od, ctr := t.ctr, book := t.book, out := .written kBookExportMark 0 :: s.out }) ∧
  (∀ (u d key : Nat) (v : OdVal) (s : State), s.book.settings = [(d, key, v)] → d ≤ max s.now u →
    ∃ t, exec (.mgmtSettingsApply u) s = .next t ∧ odVal t key = some v ∧ t.book = { s.book with settings := [] } ∧ OdKept [key] s t ∧
      t = { s with now := max s.now u, od := t.od, book := t.book })

/-- In service, with no hold in force, HOST_RST_ASSERT completes as a host loss in the same step, whatever errors the links show and however long their retry window is: the loss is counted with cause 2, and the module is in hold, or running through where that mode is set. -/
def Obligations.HostResetIsHostLoss : Prop :=
  ∀ (u : Nat) (s : State), s.boot.inRecovery = false → odN s kHoldState = 0 → starting s = false → (∀ x ∈ s.parts, x.1 < 40) →
    (∀ x ∈ s.queues, x.2.part < 40) →
    ∃ t, exec (.hostRstAssert u) s = .next t ∧ odN t kHoldState = (if odN s kHostLossMode = 1 then 3 else 1) ∧ odN t kBrynqLinksUp = 0 ∧
      t.link.lossCause = 2 ∧ t.link.resetLow = true ∧ Counted s t kHostLosses 1

/-- An error takes its link down, notes when, and is counted; a retrained link is up again with no error noted, and the host writes that no acknowledgement has reached are replayed in their order. When the retry window ends with the other link up, the link counts as degraded once; with none up it is host loss. The release of the host reset lets the lanes train and drops EXTEST. -/
def Obligations.LinksFailAndReturn : Prop :=
  (∀ (l u : Nat) (s : State), l < 2 → bitOf (odN s kBrynqLinksUp) l = true →
    ∃ t, exec (.linkError l u) s = .next t ∧ odN t kBrynqLinksUp = bitClr (odN s kBrynqLinksUp) l ∧ linkErr t l = some (max s.now u) ∧
      Counted s t kLinkRetrains 1 ∧ OdKept [kBrynqLinksUp] s t ∧ t = { s with now := max s.now u, od := t.od, ctr := t.ctr, link := t.link }) ∧
  (∀ (l u : Nat) (s : State), l < 2 → s.link.resetLow = false → domState s 0x70 = 0 → s.boot.noHost = false →
    ∃ t, exec (.linkRetrainDone l u) s = .next t ∧ odN t kBrynqLinksUp = bitSet (odN s kBrynqLinksUp) l ∧ linkErr t l = none ∧
      t.link.degraded = bitClr s.link.degraded l ∧ t.link.unacked = [] ∧ OdKept [kBrynqLinksUp] s t ∧
      t.out = (s.link.unacked.reverse.map fun w => Out.hostWrite w.addr w.bytes) ++ s.out ∧
      ((∃ w ∈ s.link.unacked, w.done ≠ none) → Counted s t kCompletionsWritten (s.link.unacked.filter fun w => w.done ≠ none).length) ∧
      t = { s with now := max s.now u, od := t.od, ctr := t.ctr, link := t.link, out := t.out }) ∧
  (∀ (u e : Nat) (s : State), odN s kBrynqLinksUp ≠ 0 → s.link.error0 = some e → e + odN s kBrynqRetryWindow * 1000 ≤ max s.now u →
    s.link.error1 = none → bitOf s.link.degraded 0 = false →
    ∃ t, exec (.linkRetryExpiry u) s = .next t ∧ t.link = { s.link with degraded := bitSet s.link.degraded 0 } ∧
      Counted s t kLinkDegradedEvents 1 ∧ t = { s with now := max s.now u, ctr := t.ctr, link := t.link }) ∧
  (∀ (u e : Nat) (s : State), odN s kBrynqLinksUp = 0 → s.link.error0 = some e → e + odN s kBrynqRetryWindow * 1000 ≤ max s.now u →
    odN s kHoldState = 0 → starting s = false → odN s kHostLossMode = 1 → (∀ x ∈ s.queues, x.2.part < 40) →
    ∃ t, exec (.linkRetryExpiry u) s = .next t ∧ odN t kHoldState = 3 ∧ t.link.lossCause = 1 ∧ Counted s t kHostLosses 1) ∧
  (∀ (u : Nat) (s : State),
    exec (.hostRstRelease u) s = .next { s with now := max s.now u, link := { s.link with resetLow := false },
                                                 sec := { s.sec with tap := if s.sec.tap = 3 then 0 else s.sec.tap } })

/-- At the first boundary after host loss every running consist that is not held otherwise is held at the boundary. With everything issued ended, the digest of the hold record stands, the domains that hold puts into retention are there, the depot's write buffer has been programmed, and the module is in hold. An adoption with the epoch and digest of the hold, while the record is as it was, is taken; another is refused as not authentic, is counted, and leaves the hold. Its end leaves no hold, counts it, hands over the frames that hold kept back, and keeps memory. (The record's layout is the model's, its consists' octets are free values.) In run-through a host that names the epoch re-attaches. -/
def Obligations.HoldAndAdoption : Prop :=
  (∀ s : State, odN s kHoldState = 1 → s.link.quiesced = false →
    ∃ t, exec .holdQuiesce s = .next t ∧ t.link = { s.link with quiesced := true } ∧
      (∀ k, (con s k).pstate = .running → (con s k).hold = none → con t k = { con s k with hold := some .boundary }) ∧
      (∀ k, ((con s k).pstate ≠ .running ∨ (con s k).hold ≠ none) → con t k = con s k) ∧
      t = { s with link := t.link, consists := t.consists }) ∧
  (∀ s : State, odN s kHoldState = 1 → s.link.quiesced = true → drainedAll s = true →
    ∃ t, exec .holdRecordWrite s = .next t ∧ odN t kHoldState = 2 ∧ t.link.holdDigest = recordDigest s ∧ t.link.holdDigest.length = 32 ∧
      (∀ d ∈ holdDomains, domState s d = 0 → (d < 40 → bitOf (odN s kConsistAvailableMap) d = true) → domState t d = 1) ∧
      t = { s with od := t.od, link := { s.link with holdDigest := t.link.holdDigest },
                   depot := { s.depot with buffer := [] } }) ∧
  (∀ (e : Nat) (d : List Byte) (s : State), e < 2 ^ 64 → d.length = 32 → odN s kHoldState = 2 → e = s.link.holdEpoch → d = s.link.holdDigest →
    s.link.recordGone = false → recordDigest s = s.link.holdDigest →
    ∃ t, exec (.adopt e d) s = .next t ∧ odN t kHoldState = 4 ∧ OdKept [kHoldState] s t ∧
      t = { s with od := t.od, link := { s.link with adoptEpoch := e, adoptDigest := d } }) ∧
  (∀ (e : Nat) (d : List Byte) (s : State), e < 2 ^ 64 → d.length = 32 → odN s kHoldState = 2 →
    (e ≠ s.link.holdEpoch ∨ d ≠ s.link.holdDigest ∨ s.link.recordGone = true ∨ recordDigest s ≠ s.link.holdDigest) →
    ∃ t, exec (.adopt e d) s = .next t ∧ odN t kHoldState = 2 ∧ t.link.adoptStatus = 0x08 ∧ Counted s t kAdoptionFailures 1 ∧ t.od = s.od) ∧
  (∀ s : State, odN s kHoldState = 4 → s.link.relost = false →
    ∃ t, exec .adoptionEnd s = .next t ∧ odN t kHoldState = 0 ∧ t.link = { s.link with adoptStatus := 0, quiesced := false, relost := false } ∧
      ((∀ x ∈ s.qps, x.2.part < 40) → Counted s t kAdoptions 1) ∧
      t = { s with od := t.od, ctr := t.ctr, link := t.link, parts := t.parts, qps := t.qps, ports := t.ports }) ∧
  (∀ s : State, odN s kHoldState = 3 → s.link.adoptEpoch = s.link.holdEpoch →
    ∃ t, exec .reAttach s = .next t ∧ odN t kHoldState = 0 ∧ OdKept [kHoldState] s t ∧
      t = { s with od := t.od, link := { s.link with adoptStatus := 0 } })

/-- A descriptor of a queue that is not enabled takes the bytes written. Enabling a good descriptor of a granted partition starts the queue at its `seq_next` with an empty completion ring, into which its retained completions go first; disabling an idle one leaves it disabled. A tail within the ring is taken; one too far ahead stops the queue as malformed. A completion head within what was written is taken, and one beyond it is dropped and counted. Other queues keep their state. -/
def Obligations.QueuesRun : Prop :=
  (∀ (q off : Nat) (bs : List Byte) (s : State), q < 256 → off + bs.length ≤ 64 → holding s = false → (queue s q).enable = false →
    ∃ t, exec (.queueDescriptorWrite q off bs) s = .next t ∧ queue t q = withDesc (queue s q) (patch (descRaw (queue s q)) off bs) ∧
      (∀ r, r ≠ q → queue t r = queue s r) ∧ t = { s with queues := t.queues }) ∧
  (∀ (q : Nat) (s : State), q < 256 → holding s = false → s.boot.noHost = false → (queue s q).enable = false → (queue s q).sqBase % 4096 = 0 →
    (queue s q).cqBase % 4096 = 0 → 6 ≤ (queue s q).sqOrder → (queue s q).sqOrder ≤ 16 → 6 ≤ (queue s q).cqOrder → (queue s q).cqOrder ≤ 16 →
    (queue s q).reserved = 0 → assigned s (queue s q).part = true → (queue s q).state ≠ 4 →
    ∃ v u, v = { queue s q with enable := true, state := 1, cqWritten := 0, seqExpected := (queue s q).seqNext, sqTail := (queue s q).seqNext,
                                cqHead := 0, retry := none, lastError := 0 } ∧ u = setQueue s q v ∧
      exec (.queueEnable q) s = .next (countQueues (flushWaiting u q)) ∧
      ((queue s q).retained = [] → (queue s q).waiting = [] → ∃ t, exec (.queueEnable q) s = .next t ∧ queue t q = v ∧
        (∀ r, r ≠ q → queue t r = queue s r) ∧ OdKept [kHostQueuesEnabled] s t ∧ t = { s with od := t.od, queues := t.queues })) ∧
  (∀ (q : Nat) (s : State), q < 256 → holding s = false → (queue s q).enable = true → (queue s q).state ≠ 3 → (queue s q).started = [] →
    (queue s q).waiting = [] → (queue s q).retained = [] →
    ∃ t, exec (.queueDisable q) s = .next t ∧ queue t q = { queue s q with enable := false, state := 0, retry := none } ∧
      (∀ r, r ≠ q → queue t r = queue s r) ∧ OdKept [kHostQueuesEnabled] s t ∧ t = { s with od := t.od, queues := t.queues }) ∧
  (∀ (q v : Nat) (s : State), q < 256 → v < 2 ^ 32 → holding s = false → (queue s q).state = 1 →
    (v + 2 ^ 32 - (queue s q).seqExpected) % 2 ^ 32 ≤ 2 ^ (queue s q).sqOrder →
    ∃ t, exec (.doorbellSqTail q v) s = .next t ∧ queue t q = { queue s q with sqTail := v } ∧ (∀ r, r ≠ q → queue t r = queue s r) ∧
      t = { s with queues := t.queues }) ∧
  (∀ (q v : Nat) (s : State), q < 256 → v < 2 ^ 32 → holding s = false → (queue s q).state = 1 →
    2 ^ (queue s q).sqOrder < (v + 2 ^ 32 - (queue s q).seqExpected) % 2 ^ 32 →
    ∃ t, exec (.doorbellSqTail q v) s = .next t ∧ (queue t q).state = 2 ∧ (queue t q).lastError = 0x0F) ∧
  (∀ (q v : Nat) (s : State), q < 256 → v < 2 ^ 32 → holding s = false → (queue s q).state = 1 → (queue s q).waiting = [] → (queue s q).retained = [] →
    ((queue s q).cqWritten + 2 ^ 32 - v) % 2 ^ 32 ≤ 2 ^ (queue s q).cqOrder →
    ∃ t, exec (.doorbellCqHead q v) s = .next t ∧ queue t q = { queue s q with cqHead := v } ∧ (∀ r, r ≠ q → queue t r = queue s r) ∧
      t = { s with queues := t.queues }) ∧
  (∀ (q v : Nat) (s : State), q < 256 → v < 2 ^ 32 → holding s = false → 2 ^ (queue s q).cqOrder < ((queue s q).cqWritten + 2 ^ 32 - v) % 2 ^ 32 →
    ∃ t, exec (.doorbellCqHead q v) s = .next t ∧ Counted s t kDoorbellErrors 1 ∧ t = { s with ctr := t.ctr })

/-- A descriptor is stored as it reads back. A host read through an enabled aperture of a range that the partition reaches returns the bytes of memory, and changes none; a host write through one that may write stores its bytes, and every byte outside them reads as before. A read of a reserved offset returns 0xFF in every byte and a write there is dropped; both are counted. -/
def Obligations.HostRegionAccessed : Prop :=
  (∀ (a : Nat) (bs : List Byte) (s : State), 1 ≤ a → a < 32 → bs.length = 32 → holding s = false →
    ∃ t, exec (.apertureDescriptorWrite a bs) s = .next t ∧ aperture t a = parseAperture s bs ∧ (∀ b, b ≠ a → aperture t b = aperture s b) ∧
      t = { s with apertures := t.apertures }) ∧
  (∀ (off len a x ad : Nat) (s : State), off + len ≤ 2 ^ 38 → 0 < len → len ≤ 4096 → domState s 0x70 = 0 → s.boot.inRecovery = false →
    hostPlace off = .window a x → holding s = false → (aperture s a).enable = true → (aperture s a).read = true →
    x + len ≤ (aperture s a).pages * 4096 → x + len ≤ 2 ^ 33 → ad = (aperture s a).base + x → linkReach s (aperture s a).part ad len false = true →
    (touch s ad len).1 = s → ((linesOf ad len).all fun l => !badAt s.mem (l * 64) && !farDown s (l * 64)) = true →
    ∃ t, exec (.hostApertureRead off len Ecc.clean) s = .next t ∧ t.out = .hostData (memRead s.mem ad len) false :: s.out ∧ t.mem = s.mem ∧
      t.od = s.od ∧ t.consists = s.consists ∧ t.sems = s.sems) ∧
  (∀ (off a x ad : Nat) (bs : List Byte) (s : State), off + bs.length ≤ 2 ^ 38 → bs.length ≤ 4096 → domState s 0x70 = 0 →
    s.boot.inRecovery = false → hostPlace off = .window a x → holding s = false → (aperture s a).enable = true → (aperture s a).write = true →
    x + bs.length ≤ (aperture s a).pages * 4096 → x + bs.length ≤ 2 ^ 33 → ad = (aperture s a).base + x → linkReach s (aperture s a).part ad bs.length true = true →
    writeAllowed s (aperture s a).part ad bs.length = (s, .ok) → (touch s ad bs.length).1 = s →
    ((linesOf ad bs.length).all fun l => farWritable s (max ad (l * 64))) = true → NoHistZero ad bs.length →
    ∃ t, exec (.hostApertureWrite off bs) s = .next t ∧ memRead t.mem ad bs.length = bs ∧ MemKept s t ad bs.length ∧
      t.consists = s.consists ∧ t.sems = s.sems) ∧
  (∀ (off len : Nat) (s : State), len ≤ 4096 → off < 2 ^ 38 → hostPlace off = .reserved →
    ∃ t, exec (.hostReservedAccess off len false) s = .next t ∧ Counted s t kApertureRefused 1 ∧
      t = { s with ctr := t.ctr, out := .hostData (List.replicate len 0xFF) false :: s.out }) ∧
  (∀ (off len : Nat) (s : State), len ≤ 4096 → off < 2 ^ 38 → hostPlace off = .reserved →
    ∃ t, exec (.hostReservedAccess off len true) s = .next t ∧ Counted s t kApertureRefused 1 ∧ t = { s with ctr := t.ctr })

/-- One read of at most 16 slots, from where the sequence expected lies in the ring, is judged slot by slot. A running queue with room takes a manifest of the sequence expected whose valid byte, sequence and CRC-32C hold: it stands last among the queue's manifests, the sequence moves on, and it is counted. One whose checks fail is read again, up to 16 times; the sixteenth failure stops the queue as stale. -/
def Obligations.ManifestsFetched : Prop :=
  (∀ (q : Nat) (b : List Byte) (s : State), q < 256 → b.length = 64 → (queue s q).state = 1 → (queue s q).seqExpected ≠ (queue s q).sqTail →
    (queue s q).retry = none → slotFree (queue s q) = true → 0 < fetchCount (queue s q) →
    mValid b (queue s q).seqExpected = true →
    ∃ t, exec (.manifestFetch q b) s = .next t ∧
      queue t q = { queue s q with started := (queue s q).started ++ [⟨(queue s q).seqExpected, b, none, .ok, [], [], []⟩],
                                   seqExpected := ((queue s q).seqExpected + 1) % 2 ^ 32, retry := none } ∧
      (∀ r, r ≠ q → queue t r = queue s r) ∧ Counted s t kManifestsFetched 1 ∧
      t = { s with ctr := t.ctr, queues := t.queues, out := .hostRead (slotAddr (queue s q) (queue s q).seqExpected) 64 :: s.out }) ∧
  (∀ (q n : Nat) (bs : List Byte) (s : State), q < 256 → bs.length % 64 = 0 → 64 ≤ bs.length → bs.length ≤ 1024 → (queue s q).state = 1 →
    (queue s q).seqExpected ≠ (queue s q).sqTail → (queue s q).retry = none → slotFree (queue s q) = true →
    n = min (bs.length / 64) (fetchCount (queue s q)) →
    exec (.manifestFetch q bs) s = .next (fetchSlots q ((List.range n).map fun i => (bs.drop (64 * i)).take 64)
      (emit s (.hostRead (slotAddr (queue s q) (queue s q).seqExpected) (64 * n))))) ∧
  (∀ (q n : Nat) (b : List Byte) (s : State), q < 256 → b.length = 64 → (queue s q).state = 1 → (queue s q).retry = some n →
    slotFree (queue s q) = true → mValid b (queue s q).seqExpected = true →
    ∃ t, exec (.manifestReread q b) s = .next t ∧
      queue t q = { queue s q with started := (queue s q).started ++ [⟨(queue s q).seqExpected, b, none, .ok, [], [], []⟩],
                                   seqExpected := ((queue s q).seqExpected + 1) % 2 ^ 32, retry := none } ∧
      (∀ r, r ≠ q → queue t r = queue s r) ∧ Counted s t kManifestRereads 1 ∧ Counted s t kManifestsFetched 1) ∧
  (∀ (q : Nat) (b : List Byte) (s : State), q < 256 → b.length = 64 → (queue s q).state = 1 → (queue s q).retry = some 15 →
    slotFree (queue s q) = true → mValid b (queue s q).seqExpected = false →
    ∃ t, exec (.manifestReread q b) s = .next t ∧ (queue t q).state = 2 ∧ (queue t q).lastError = 0x0A ∧ Counted s t kStaleManifests 1)

/-- MANIFEST_COMPLETE of a manifest of a running queue that asks for no token and whose parts ended ok completes: its completion record of 32 bytes is written into the ring, bytes 28 to 31 after the others, and, where the manifest has `irq` set and `irq_addr` is not 0, `irq_data` is written to `irq_addr` as one 4-byte write after it. An event written to a queue is followed by the same write. Without `irq`, or with `irq_addr` 0, no such write is made. While no link is up, or earlier host writes wait, the same writes wait in that order. -/
def Obligations.NotificationFollows : Prop :=
  (∀ (q seq a : Nat) (x : Started) (parts : List (Nat × Status)) (s : State), q < 256 → seq < 2 ^ 32 → (queue s q).state = 1 →
    (queue s q).started.find? (fun y => y.seq = seq && y.parts ≠ none && !(y.parts.getD []).any fun z => partUnacked s y.bytes z.1) = some x →
    x.parts = some parts → mPost x.bytes = false → x.status = .ok → mOp x.bytes ≠ 0x01 → mOp x.bytes ≠ 0x0A → (queue s q).retained = [] →
    a = (queue s q).cqBase + 32 * ((queue s q).cqWritten % 2 ^ (queue s q).cqOrder) →
    (¬ (odN s kBrynqLinksUp ≠ 0 ∧ s.link.unacked = []) →
      ∃ t c, ∃ rec : List Byte, exec (.manifestComplete q seq) s = .next t ∧ rec.length = 32 ∧
        t.link.unacked = s.link.unacked ++ [⟨a, rec.take 28, none⟩, ⟨a + 28, rec.drop 28, some (q, c)⟩] ++
          (if mIrq x.bytes = true ∧ (queue s q).irqAddr ≠ 0 then [⟨(queue s q).irqAddr, leBytes 4 (queue s q).irqData, none⟩] else []) ∧
        t = { s with queues := t.queues, link := { s.link with unacked := t.link.unacked } }) ∧
    (odN s kBrynqLinksUp ≠ 0 → s.link.unacked = [] →
    ∃ t, ∃ rec : List Byte, exec (.manifestComplete q seq) s = .next t ∧ rec.length = 32 ∧
      t.out = (if mIrq x.bytes = true ∧ (queue s q).irqAddr ≠ 0 then [Out.hostWrite (queue s q).irqAddr (leBytes 4 (queue s q).irqData)] else []) ++
        Out.hostWrite (a + 28) (rec.drop 28) :: Out.hostWrite a (rec.take 28) :: s.out ∧
      (queue t q).cqWritten = (queue s q).cqWritten + 1 ∧ (queue t q).started = (queue s q).started.filter (fun y => y.seq ≠ seq) ∧
      Counted s t kCompletionsWritten 1 ∧ t = { s with ctr := t.ctr, queues := t.queues, out := t.out })) ∧
  (∀ (q p d : Nat) (st : Status) (v : HQueue) (s : State), s.queues = [(q, v)] → v.part = p → v.events = true → v.enable = true → v.state = 1 →
    slotsUsed v < 2 ^ v.cqOrder → v.waiting = [] → v.retained = [] → odN s kBrynqLinksUp ≠ 0 → s.link.unacked = [] →
    ∃ a, ∃ rec : List Byte, rec.length = 32 ∧ a = v.cqBase + 32 * (v.cqWritten % 2 ^ v.cqOrder) ∧
      (event s p st d).out = (if v.irqAddr ≠ 0 then [Out.hostWrite v.irqAddr (leBytes 4 v.irqData)] else []) ++
        Out.hostWrite (a + 28) (rec.drop 28) :: Out.hostWrite a (rec.take 28) :: s.out)

/-- A manifest that may start and passes its checks runs: a nop ends with its one part ok. An image of a readable range is loaded into each consist of the mask, which is idle with the image's stream, its records counted anew and its histogram bases zero. A start sets a loaded idle consist running from its first verb (one whose stream has none has stopped at once); a stop leaves a running one stopped with its queue's contents, an unload leaves it idle with nothing loaded, a restart loads it anew and runs it from its first verb. -/
def Obligations.ManifestsProgramConsists : Prop :=
  (∀ (q seq : Nat) (x : Started) (s : State), q < 256 → seq < 2 ^ 32 → startable s q seq (isOp 0) = some x →
    commonCheck s (queue s q).part x.bytes = .ok →
    exec (.manifestNop q seq) s = .next (manifestParts s q seq [(0, .ok)] .ok)) ∧
  (∀ (q seq k : Nat) (x : Started) (img : Image) (ci : ConsistImage) (s : State), q < 256 → seq < 2 ^ 32 → startable s q seq (isOp 0x01) = some x →
    commonCheck s (queue s q).part x.bytes = .ok → imageCheck s (queue s q).part x.bytes img = .ok →
    rangeInTier s (queue s q).part 2 (mB x.bytes 4 8) (mB x.bytes 12 4) false = true → rangeLost s (mB x.bytes 4 8) (mB x.bytes 12 4) = false → bitList 40 (mB x.bytes 16 5) = [k] →
    img.consists.find? (fun c => c.consist = k) = some ci →
    ∃ t, exec (.imageLoad q seq img) s = .next t ∧ (con t k).pstate = .idle ∧
      (con t k).prog = some ⟨ci.stream, img.kernels, img.segments, ci.nouns⟩ ∧ (con t k).verbs = [] ∧ (con t k).faultSerial = 0 ∧
      MemKept s t (histTable k) 256 ∧ (∀ i, 0 < i → i < 256 → memGet t.mem (histTable k + i) = 0) ∧ t.od = s.od ∧ t.parts = s.parts) ∧
  (∀ (q seq k : Nat) (x : Started) (g : Program) (s : State), q < 256 → seq < 2 ^ 32 → startable s q seq (isOp 0x02) = some x →
    commonCheck s (queue s q).part x.bytes = .ok → bitList 40 (mB x.bytes 4 5) = [k] →
    bitOf (grantOf s (queue s q).part).consists k = true → (con s k).prog = some g →
    (mB x.bytes 9 1 = 0 → (con s k).pstate = .idle → g.stream ≠ [] →
      ∃ t, exec (.consistControlStart q seq) s = .next t ∧ (con t k).pstate = .running ∧ (con t k).pos = 0 ∧ (con t k).vi = 0 ∧
        (con t k).prog = (con s k).prog ∧ t = { s with consists := t.consists, queues := t.queues }) ∧
    (mB x.bytes 9 1 = 0 → (con s k).pstate = .idle → g.stream = [] → (con s k).verbs = [] → (con s k).sidingRuns = [] →
      ∃ t, exec (.consistControlStart q seq) s = .next t ∧ (con t k).pstate = .stopped ∧ (con t k).prog = (con s k).prog) ∧
    (mB x.bytes 9 1 = 1 → (con s k).pstate ≠ .running → g.stream ≠ [] →
      ∃ t, exec (.consistControlRestart q seq) s = .next t ∧ (con t k).pstate = .running ∧ (con t k).pos = 0 ∧ (con t k).vi = 0 ∧
        (con t k).verbs = [] ∧ t.mem = s.mem ∧ t.od = s.od) ∧
    (mB x.bytes 9 1 = 2 → (con s k).pstate = .running →
      ∃ t, exec (.consistControlStop q seq) s = .next t ∧ (con t k).pstate = .stopped ∧ (con t k).verbs = (con s k).verbs ∧
        (con t k).hold = none) ∧
    (mB x.bytes 9 1 = 3 →
      ∃ t, exec (.consistControlUnload q seq) s = .next t ∧ (con t k).pstate = .idle ∧ (con t k).prog = none ∧ (con t k).verbs = []))

/-- A manifest that may start and passes its checks takes effect once: the noun table's entry holds the image; the loop slot holds the value; the declared semaphore stands reset with its setter, kind and expected count; the reset semaphore stands as its reset leaves it; the rule's slot holds its code and shows as loaded; the layer's entry is written. -/
def Obligations.ManifestsWriteState : Prop :=
  (∀ (q seq : Nat) (x : Started) (n : Noun) (s : State), q < 256 → seq < 2 ^ 32 → startable s q seq (isOp 0x03) = some x →
    commonCheck s (queue s q).part x.bytes = .ok → bitOf (grantOf s (queue s q).part).consists (mB x.bytes 4 1) = true → mB x.bytes 8 8 % 64 = 0 →
    listRegionOk s (mB x.bytes 8 8) = true → allotted s (queue s q).part (mB x.bytes 8 8) 64 false = true → rangeLost s (mB x.bytes 8 8) 64 = false →
    nounStatus s (queue s q).part (mB x.bytes 5 2) n (loopIndices (con s (mB x.bytes 4 1))) = .ok →
    ∃ t, exec (.nounWrite q seq n) s = .next t ∧ (tget none (con t (mB x.bytes 4 1)).nouns (mB x.bytes 5 2)).map NounEntry.noun = some n ∧
      (∀ h, h ≠ mB x.bytes 5 2 → tget none (con t (mB x.bytes 4 1)).nouns h = tget none (con s (mB x.bytes 4 1)).nouns h) ∧
      t = { s with consists := t.consists, queues := t.queues }) ∧
  (∀ (q seq : Nat) (x : Started) (s : State), q < 256 → seq < 2 ^ 32 → startable s q seq (isOp 0x04) = some x →
    commonCheck s (queue s q).part x.bytes = .ok → bitOf (grantOf s (queue s q).part).consists (mB x.bytes 4 1) = true → mB x.bytes 5 1 ≤ 63 →
    ∃ t, exec (.manifestSlotWrite q seq) s = .next t ∧ tget 0 (con t (mB x.bytes 4 1)).slots (mB x.bytes 5 1) = mB x.bytes 8 4 ∧
      (∀ h, h ≠ mB x.bytes 5 1 → tget 0 (con t (mB x.bytes 4 1)).slots h = tget 0 (con s (mB x.bytes 4 1)).slots h) ∧
      t = { s with consists := t.consists, queues := t.queues }) ∧
  (∀ (q seq : Nat) (x : Started) (s : State), q < 256 → seq < 2 ^ 32 → startable s q seq (isOp 0x05) = some x →
    commonCheck s (queue s q).part x.bytes = .ok → (semGet s (mB x.bytes 4 2)).part = (queue s q).part →
    declOk ⟨mB x.bytes 4 2, mB x.bytes 6 1, mB x.bytes 7 1, mB x.bytes 8 4⟩ = true →
    ∃ t, exec (.semDeclare q seq) s = .next t ∧
      semGet t (mB x.bytes 4 2) = { semGet s (mB x.bytes 4 2) with status := 0, producer := 0, seq := 0, arrivals := 0, round := 0, awaited := 0, setter := mB x.bytes 7 1, kind := mB x.bytes 6 1, expected := mB x.bytes 8 4 } ∧
      (∀ j, j ≠ mB x.bytes 4 2 → semGet t j = semGet s j) ∧ t = { s with sems := t.sems, consists := t.consists, queues := t.queues }) ∧
  (∀ (q seq : Nat) (x : Started) (s : State), q < 256 → seq < 2 ^ 32 → startable s q seq (isOp 0x06) = some x →
    commonCheck s (queue s q).part x.bytes = .ok → (semGet s (mB x.bytes 4 2)).part = (queue s q).part →
    ∃ t, exec (.manifestSemReset q seq) s = .next t ∧ semGet t (mB x.bytes 4 2) = (semGet s (mB x.bytes 4 2)).clear (mB x.bytes 8 4) ∧
      (∀ j, j ≠ mB x.bytes 4 2 → semGet t j = semGet s j) ∧ t = { s with sems := t.sems, consists := t.consists, queues := t.queues }) ∧
  (∀ (q seq p i : Nat) (x : Started) (rule : RuleImage) (s : State), q < 256 → seq < 2 ^ 32 → startable s q seq (isOp 0x0A) = some x →
    p = (queue s q).part → commonCheck s p x.bytes = .ok → i = mB x.bytes 4 1 → 3 ≤ i → i ≤ 7 →
    linkReach s p (mB x.bytes 8 8) (mB x.bytes 16 4) false = true → builtFor s rule.part rule.oviMajor = true → rule.code.length ≤ 128 →
    rangeLost s (mB x.bytes 8 8) (mB x.bytes 16 4) = false →
    ∃ t, exec (.ruleLoad q seq rule) s = .next t ∧ tget [] (part t p).step.rules i = rule.code ∧
      odN t (kRuleSlotsLoaded p) = bitSet (odN s (kRuleSlotsLoaded p)) i ∧ OdKept [kRuleSlotsLoaded p] s t ∧
      t = { s with od := t.od, parts := t.parts, queues := t.queues }) ∧
  (∀ (q seq p : Nat) (x : Started) (s : State), q < 256 → seq < 2 ^ 32 → startable s q seq (isOp 0x0B) = some x → p = (queue s q).part →
    commonCheck s p x.bytes = .ok → linkReach s p (mB x.bytes 8 8) 32 false = true → rangeLost s (mB x.bytes 8 8) 32 = false →
    (layerWrite s p (mB x.bytes 4 2) (memRead s.mem (mB x.bytes 8 8) 32)).2 = .ok →
    exec (.layerWrite q seq) s = .next (manifestParts (layerWrite s p (mB x.bytes 4 2) (memRead s.mem (mB x.bytes 8 8) 32)).1 q seq [(0, .ok)] .ok))

/-- A copy of up to 1 MiB between host memory and reachable device memory that nothing disturbs moves exactly the bytes: to the host as one write of them (which waits while no link is up or earlier writes wait), from the host into memory and nowhere else. A depot read of one block stores the block's bytes at the device address; a depot write of one block on a channel with room stores the device bytes in the block, and on one without room it waits and is counted. -/
def Obligations.ManifestsMoveData : Prop :=
  (∀ (q seq p src dst len : Nat) (x : Started) (s : State), q < 256 → seq < 2 ^ 32 → startable s q seq (isOp 0x07) = some x → p = (queue s q).part →
    commonCheck s p x.bytes = .ok → mB x.bytes 24 1 = 1 → src = mB x.bytes 4 8 → dst = mB x.bytes 12 8 → len = mB x.bytes 20 4 → 0 < len →
    len ≤ 0x10_0000 → linkReach s p src len false = true → hostRange (queue s q) dst len = true → (touch s src len).1 = s →
    ((linesOf src len).all fun l => !badAt s.mem (l * 64) && !farDown s (l * 64)) = true →
    (odN s kBrynqLinksUp ≠ 0 → s.link.unacked = [] →
      ∃ t, exec (.manifestCopy q seq [] Ecc.clean) s = .next t ∧ t.out = .hostWrite dst (memRead s.mem src len) :: s.out ∧
        t = { s with queues := t.queues, out := t.out }) ∧
    (¬ (odN s kBrynqLinksUp ≠ 0 ∧ s.link.unacked = []) →
      ∃ t, exec (.manifestCopy q seq [] Ecc.clean) s = .next t ∧
        t.link.unacked = s.link.unacked ++ [⟨dst, memRead s.mem src len, none⟩] ∧
        t = { s with queues := t.queues, link := { s.link with unacked := t.link.unacked } })) ∧
  (∀ (q seq p src dst len : Nat) (data : List Byte) (x : Started) (s : State), q < 256 → seq < 2 ^ 32 → startable s q seq (isOp 0x07) = some x →
    p = (queue s q).part → commonCheck s p x.bytes = .ok → mB x.bytes 24 1 = 0 → src = mB x.bytes 4 8 → dst = mB x.bytes 12 8 →
    len = mB x.bytes 20 4 → 0 < len → len ≤ 0x10_0000 → data.length = len → linkReach s p dst len true = true →
    hostRange (queue s q) src len = true → (touch s dst len).1 = s → writeAllowed s p dst len = (s, .ok) →
    ((linesOf dst len).all fun l => farWritable s (max dst (l * 64))) = true → NoHistZero dst len →
    ∃ t, exec (.manifestCopy q seq data Ecc.clean) s = .next t ∧ memRead t.mem dst len = data ∧ MemKept s t dst len ∧ t.consists = s.consists ∧
      t.sems = s.sems ∧ t.out = s.out) ∧
  (∀ (q seq p b a : Nat) (x : Started) (s : State), q < 256 → seq < 2 ^ 32 → startable s q seq (isOp 0x08) = some x → p = (queue s q).part →
    commonCheck s p x.bytes = .ok → b = mB x.bytes 4 4 → mB x.bytes 8 4 = 1 → a = mB x.bytes 12 8 → depotReach s true p x.bytes = true → depotCheck s p x.bytes = .ok →
    domState s 0x71 = 0 → (touch s a 65536).1 = s → writeAllowed s p a 65536 = (s, .ok) → s.depot.poison.contains b = false →
    ((linesOf a 65536).all fun l => farWritable s (max a (l * 64))) = true → NoHistZero a 65536 →
    ∃ t, exec (.depotRead q seq Ecc.clean) s = .next t ∧ memRead t.mem a 65536 = depotBytes s.depot (b * 65536) 65536 ∧ MemKept s t a 65536 ∧
      t.depot.cells = s.depot.cells) ∧
  (∀ (q seq p b a : Nat) (x : Started) (s : State), q < 256 → seq < 2 ^ 32 → startable s q seq (isOp 0x09) = some x → p = (queue s q).part →
    commonCheck s p x.bytes = .ok → b = mB x.bytes 4 4 → mB x.bytes 8 4 = 1 → a = mB x.bytes 12 8 → depotReach s false p x.bytes = true → depotCheck s p x.bytes = .ok →
    domState s 0x71 = 0 → (touch s a 65536).1 = s → channelLow s (depotChannel b) = true → odN s kDepotReadOnly = 0 → x.blocks = [] →
    x.held = [] →
    ∃ t, exec (.depotWrite q seq Ecc.clean) s = .next t ∧ Counted s t kDepotWriteWaits 1 ∧
      startable t q seq (isOp 0x09) = some { x with held := [b] } ∧ t = { s with ctr := t.ctr, queues := t.queues }) ∧
  (∀ (q seq p b a : Nat) (x : Started) (s : State), q < 256 → seq < 2 ^ 32 → startable s q seq (isOp 0x09) = some x → p = (queue s q).part →
    commonCheck s p x.bytes = .ok → b = mB x.bytes 4 4 → mB x.bytes 8 4 = 1 → a = mB x.bytes 12 8 → depotReach s false p x.bytes = true → depotCheck s p x.bytes = .ok →
    domState s 0x71 = 0 → (touch s a 65536).1 = s → channelLow s (depotChannel b) = false → odN s kDepotReadOnly ≠ 1 → x.blocks = [] →
    ((linesOf a 65536).all fun l => !badAt s.mem (l * 64) && !farDown s (l * 64)) = true →
    ∃ t, exec (.depotWrite q seq Ecc.clean) s = .next t ∧ depotBytes t.depot (b * 65536) 65536 = memRead s.mem a 65536 ∧
      t.depot.mapped.contains b = true ∧ t.mem = s.mem)

/-- Background work that no foreground read holds back takes its effect, its time counts in each of the channel's windows that it runs through, and no byte of the depot changes: collection and erasure free the channel's stale blocks, and a relocation of a mapped block, on a channel with an erased block, notes a new copy and the time at which it is complete. Work that would take more than the limit of a window while a foreground read is queued is put off. Where it finds the last spare block of a channel worn out, the depot is read-only, and a write to it then ends with capacity and stores nothing. An erase block read 100,000 times has its reads counted afresh and its valid block relocated, and a mapped block older than 90 days is relocated (how long a refresh takes is a free value). When a channel has room again, none of its waiting writes waits any more and those of the porters go on. -/
def Obligations.DepotKeepsItself : Prop :=
  (∀ (op : DepotBg) (us u : Nat) (s e : State), 0 < us → bgChannel op < 16 → channelReadQueued s (bgChannel op) = false → (∀ c, op ≠ .exhaust c) →
    e = bgEffect (max s.now u + 1000 * us) { s with now := max s.now u } op →
    ∃ t, exec (.depotBackgroundOp op us u) s = .next t ∧
      t.depot = { e.depot with window := tset [] e.depot.window (bgChannel op) (bgBooked { s with now := max s.now u } (bgChannel op) us) } ∧
      t.depot.cells = s.depot.cells ∧ t.depot.mapped = s.depot.mapped ∧ t.depot.poison = s.depot.poison ∧ Counted s t kDepotBgBusyUs us ∧
      ((op = .collect (bgChannel op) ∨ op = .erase (bgChannel op)) → tget 0 t.depot.stale (bgChannel op) = 0) ∧
      (∀ b, (op = .relocate b ∨ op = .level b) → s.depot.mapped.contains b = true → (s.depot.shadow.any fun x => x.1 = b) = false →
        channelFree s (depotChannel b) ≠ 0 →
        t.depot.shadow = tins s.depot.shadow b (erasePlace b s.free, max s.now u + 1000 * us)) ∧
      t = { s with now := max s.now u, depot := t.depot, ctr := t.ctr, free := t.free }) ∧
  (∀ (op : DepotBg) (us u : Nat) (s : State), bgChannel op < 16 → channelReadQueued s (bgChannel op) = true →
    bgFits { s with now := max s.now u } (bgChannel op) us = false →
    exec (.depotBackgroundOp op us u) s = .next { s with now := max s.now u }) ∧
  (∀ (c us u : Nat) (s : State), c < 16 → channelReadQueued s c = false →
    ∃ t, exec (.depotBackgroundOp (.exhaust c) us u) s = .next t ∧ odN t kDepotReadOnly = 1 ∧ OdKept [kDepotReadOnly] s t ∧
      t.depot.cells = s.depot.cells ∧ t.depot.mapped = s.depot.mapped ∧ t.mem = s.mem ∧
      (∀ b bs bad e p, depotWriteBytes t b bs bad e p = (t, .capacity))) ∧
  (∀ (b c : Nat) (s : State), b < 2 ^ 32 → b < odN s kDepotLogicalBlocks → s.depot.mapped.contains b = true → c = depotChannel b →
    100_000 ≤ tget 0 s.depot.reads (eraseOf s.depot b) → channelReadQueued s c = false →
    ∃ t, exec (.depotDisturbRefresh b) s = .next t ∧ tget 0 t.depot.reads (eraseOf s.depot b) = 0 ∧ t.depot.cells = s.depot.cells ∧
      t.depot.mapped = s.depot.mapped ∧ Counted s t kDepotDisturbRefreshes 1 ∧
      ((s.depot.mapped.filter fun x => eraseOf s.depot x = eraseOf s.depot b) = [b] → (s.depot.shadow.any fun x => x.1 = b) = false →
        channelFree s c ≠ 0 → (t.depot.shadow.any fun x => x.1 = b) = true) ∧
      t = { s with depot := t.depot, ctr := t.ctr, free := t.free }) ∧
  (∀ (b c : Nat) (s : State), b < 2 ^ 32 → b < odN s kDepotLogicalBlocks → s.depot.mapped.contains b = true → c = depotChannel b →
    tget 0 s.depot.written b + 90 * 86_400_000_000_000 < s.now → channelReadQueued s c = false →
    (s.depot.shadow.any fun x => x.1 = b) = false → channelFree s c ≠ 0 →
    ∃ t u, exec (.depotAgeRefresh b) s = .next t ∧ t.depot.shadow = tins s.depot.shadow b u ∧ t.depot.cells = s.depot.cells ∧
      t.depot.mapped = s.depot.mapped ∧ t = { s with depot := t.depot, ctr := t.ctr, free := t.free }) ∧
  (∀ (c die i : Nat) (s : State), c < 16 → die < 8 → channelLow s c = false → s.depot.waiting = [(c, die, i)] →
    ∃ t, exec (.depotWriteResume c) s = .next t ∧ t.depot = { s.depot with waiting := [] } ∧
      pool t die = { pool s die with flight := (pool s die).flight.map fun f => if f.id = i then { f with waits := false } else f } ∧
      t = { s with depot := t.depot, pools := t.pools })

/-- Each of the matrix, vector, stream, sync and scale verbs, and each phrasebook call, when its consist runs, nothing holds the broadcast, its queue has room and its checks pass, enters the scoreboards behind the verbs in flight with its nouns resolved and its awaited sequences formed at the loop indices in force, is issued on every core where it is the ready head, and the sequencer goes on to the next verb. While an awaited token has not arrived no core issues it: the verb stands last in flight, untouched, memory and every semaphore keep their contents. -/
def Obligations.VerbsBroadcast : Prop :=
  (∀ (i : Instr) (x : VerbIn) (p : Nat) (s : State), verbOf i = some x → i.wf = true → conPart s x.h.consist = some p →
    broadcasts x p (openStep s p) = true →
    exec i s = .next (finishCheck x.h.consist (passed x (advance x.h.consist (markWaits x.h.consist
      (issueReady x.h.consist (con s x.h.consist).vi (admitted x p (openStep s p)))))))) ∧
  (∀ (i : Instr) (x : VerbIn) (p : Nat) (s : State), verbOf i = some x → i.wf = true → conPart s x.h.consist = some p →
    broadcasts x p (openStep s p) = true → waitsArrived s (entryOf x s).waits = false →
    ∃ t, exec i s = .next t ∧
      (con t x.h.consist).verbs.map (fun e => { e with since := none }) =
        ((con s x.h.consist).verbs ++ [entryOf x (openStep s p)]).map (fun e => { e with since := none }) ∧
      (con t x.h.consist).pos = (con s x.h.consist).pos + 1 ∧ (con t x.h.consist).vi = ((con s x.h.consist).vi + 1) % 2 ^ 32 ∧
      Counted s t kVerbsBroadcast 1 ∧ (∀ j, j ≠ x.h.consist → con t j = con s j) ∧
      t = { openStep s p with consists := t.consists, ctr := t.ctr })

/-- With no verb in flight and every awaited token arrived without an error, WAIT and POST end ok on all twenty cores; SIGNAL_ARRIVE, SEM_RESET, SCALE_ADJUST_SHIFT, SCALE_ADJUST_FRESH, SCALE_ADJUST_APPLY and every phrasebook call, LOSS_SUBMIT and STEP_VOTE among them, do their work once, when all cores have issued them. An accepted arrival advances its signal, a reset by the declared setter clears its semaphore, a recorded scale operation marks its noun dirty with that operation and the verb's number. An apply in a partition that runs no step commit (assumption 89: none of its programs calls step_vote) walks its noun at once and leaves it clean with no operation recorded; where one does, the verb ends malformed and nothing changes. -/
def Obligations.VerbsRunAtOnce : Prop :=
  (∀ (i : Instr) (x : VerbIn) (p : Nat) (s : State), verbOf i = some x → i.wf = true → conPart s x.h.consist = some p →
    runsAtOnce x p (openStep s p) = true → isBare x.v = true →
    ∃ t, exec i s = .next t ∧
      con t x.h.consist = { con s x.h.consist with
        pos := (con s x.h.consist).pos + 1, vi := ((con s x.h.consist).vi + 1) % 2 ^ 32,
        ending := (match (con s x.h.consist).prog with
          | some g => decide (g.stream.length ≤ (con s x.h.consist).pos + 1)
          | none => true),
        verbs := [{ issuedEntry x (openStep s p) with parts := List.replicate 20 (some .ok) }] } ∧
      Counted s t kVerbsBroadcast 1 ∧ (∀ j, j ≠ x.h.consist → con t j = con s j) ∧
      t = { openStep s p with consists := t.consists, ctr := t.ctr }) ∧
  (∀ (i : Instr) (x : VerbIn) (p : Nat) (s : State), verbOf i = some x → i.wf = true → conPart s x.h.consist = some p →
    runsAtOnce x p (openStep s p) = true → isOnce x.v = true →
    exec i s = .next (finishCheck x.h.consist (passed x (advance x.h.consist (markWaits x.h.consist
      (runOnce x.h.consist (con s x.h.consist).vi (issuedAll x p (openStep s p)))))))) ∧
  (∀ (h : VerbHdr) (sem count p : Nat) (s : State), (Instr.signalArrive h sem count).wf = true → conPart s h.consist = some p →
    runsAtOnce ⟨h, .signalArrive sem count⟩ p (openStep s p) = true → (semGet s sem).part = p → (semGet s sem).kind = 1 → 0 < count →
    count ≤ (semGet s sem).expected → errCode (semGet s sem).round = false → nothingOwed s = true →
    ∃ t, exec (.signalArrive h sem count) s = .next t ∧
      semGet t sem = (semGet s sem).arrive count 0 (queueCode h.consist h.queue) (tickNow s) ∧
      (∀ j, j ≠ sem → semGet t j = semGet s j) ∧ t.mem = s.mem ∧ t.od = s.od) ∧
  (∀ (h : VerbHdr) (sem count p : Nat) (s : State), (Instr.semReset h sem count).wf = true → conPart s h.consist = some p →
    runsAtOnce ⟨h, .semReset sem count⟩ p (openStep s p) = true → (semGet s sem).part = p → semDie sem = conDie h.consist →
    (semGet s sem).setter = queueCode h.consist h.queue →
    ∃ t, exec (.semReset h sem count) s = .next t ∧ semGet t sem = (semGet s sem).clear count ∧
      (∀ j, j ≠ sem → semGet t j = semGet s j) ∧ t.mem = s.mem ∧ t.od = s.od) ∧
  (∀ (h : VerbHdr) (noun p : Nat) (amount : Int) (e : NounEntry) (s : State), (Instr.scaleAdjustShift h noun amount).wf = true →
    conPart s h.consist = some p → runsAtOnce ⟨h, .scaleAdjust noun (.shift amount)⟩ p (openStep s p) = true →
    tget none (con s h.consist).nouns noun = some e → isBlockFmt e.noun.format = true → noun ≠ 0 → amount ≠ 0 → -15 ≤ amount → amount ≤ 15 →
    (∀ y v, e.op = some (y, v) → verbAfter v (con s h.consist).vi = false) →
    ∃ t, exec (.scaleAdjustShift h noun amount) s = .next t ∧
      tget none (con t h.consist).nouns noun = some { e with dirty := true, op := some (.shift amount, (con s h.consist).vi) } ∧
      Counted s t kScaleAdjusts 1 ∧ t.mem = s.mem ∧ t.sems = s.sems) ∧
  (∀ (h : VerbHdr) (noun p : Nat) (e : NounEntry) (s : State), (Instr.scaleAdjustFresh h noun).wf = true →
    conPart s h.consist = some p → runsAtOnce ⟨h, .scaleAdjust noun .fresh⟩ p (openStep s p) = true →
    tget none (con s h.consist).nouns noun = some e → isBlockFmt e.noun.format = true → noun ≠ 0 →
    (∀ y v, e.op = some (y, v) → verbAfter v (con s h.consist).vi = false) →
    ∃ t, exec (.scaleAdjustFresh h noun) s = .next t ∧
      tget none (con t h.consist).nouns noun = some { e with dirty := true, op := some (.fresh, (con s h.consist).vi) } ∧
      Counted s t kScaleAdjusts 1 ∧ t.mem = s.mem ∧ t.sems = s.sems) ∧
  (∀ (h : VerbHdr) (noun p : Nat) (e : NounEntry) (s : State), (Instr.scaleAdjustApply h noun).wf = true →
    conPart s h.consist = some p → runsAtOnce ⟨h, .scaleApply noun⟩ p (openStep s p) = true →
    tget none (con s h.consist).nouns noun = some e → isBlockFmt e.noun.format = true → noun ≠ 0 →
    (((consistsOf s p).any fun k => callsVote (con s k)) = false →
      ∃ t, exec (.scaleAdjustApply h noun) s = .next t ∧
        (tget none (con t h.consist).nouns noun).map (fun y => (y.noun, y.dirty, y.op)) = some (e.noun, false, none) ∧
        (∀ n, n ≠ noun → tget none (con t h.consist).nouns n = tget none (con s h.consist).nouns n) ∧
        Counted s t kScaleAdjusts 1 ∧ t.sems = s.sems) ∧
    (((consistsOf s p).any fun k => callsVote (con s k)) = true →
      ∃ t, exec (.scaleAdjustApply h noun) s = .next t ∧ (con t h.consist).nouns = (con s h.consist).nouns ∧
        (con t h.consist).verbs.map (fun y => y.parts) = [List.replicate 20 (some .malformed)] ∧ t.mem = s.mem ∧ t.sems = s.sems))

/-- A control verb that the sequencer reaches with its tokens arrived runs there. LOOP_BEGIN opens a level with its slot's count, or passes the body of a loop whose count is zero; LOOP_END goes back while iterations are left, then closes the level. SLOT_WRITE loads the slot from memory, NOUN_SET replaces the entry. SLOT_MARK holds the broadcast for the boundary at anchor plus offset, one tick from now at the earliest (before any anchor, which the spec leaves open, at a free tick: assumption 65). SIDING_PARK puts an entry behind those parked; SIDING_DRAIN passes an empty siding. NOP goes on, and posts its token where it names one or met an error; HALT ends the stream. While an awaited token of a control verb has not arrived the broadcast is held at it from this tick on. -/
def Obligations.ControlVerbsRun : Prop :=
  (∀ (h : VerbHdr) (slot p : Nat) (s : State), (Instr.loopBegin h slot).wf = true → controlRuns ⟨h, .loopBegin slot⟩ p s = true →
    slot ≤ 63 → (con s h.consist).loops.length < 4 →
    exec (.loopBegin h slot) s = .next (finishCheck h.consist
      (if tget 0 (con s h.consist).slots slot = 0 then
        moveTo h.consist (skipLoop (match (con s h.consist).prog with
          | some g => g.stream.drop ((con s h.consist).pos + 1)
          | none => []) ((con s h.consist).pos + 1) 0) (bump s kLoopsZeroCount 1 (some p))
      else advance h.consist (setCon s h.consist { con s h.consist with
        loops := (con s h.consist).loops ++ [⟨tget 0 (con s h.consist).slots slot, 0, (con s h.consist).pos + 1⟩] })))) ∧
  (∀ (h : VerbHdr) (p : Nat) (l : LoopLevel) (s : State), (Instr.loopEnd h).wf = true → controlRuns ⟨h, .loopEnd⟩ p s = true →
    (con s h.consist).loops.getLast? = some l →
    exec (.loopEnd h) s = .next (finishCheck h.consist
      (if l.index + 1 < l.count then moveTo h.consist l.start (setCon s h.consist { con s h.consist with
        loops := (con s h.consist).loops.dropLast ++ [{ l with index := l.index + 1 }] })
      else advance h.consist (setCon s h.consist { con s h.consist with loops := (con s h.consist).loops.dropLast })))) ∧
  (∀ (h : VerbHdr) (a slot p : Nat) (bs : List Byte) (s s' : State), (Instr.slotWrite h a slot).wf = true →
    controlRuns ⟨h, .slotWrite a slot⟩ p s = true → slot ≤ 63 → a % 4 = 0 → seqRead s p a 4 h.ecc = (s', .ok, bs) →
    exec (.slotWrite h a slot) s = .next (finishCheck h.consist (advance h.consist (setCon s' h.consist { con s h.consist with
      slots := tset 0 (con s h.consist).slots slot (leNat bs) })))) ∧
  (∀ (h : VerbHdr) (handle a p : Nat) (image : Noun) (bs : List Byte) (s s' : State), (Instr.nounSet h handle a image).wf = true →
    controlRuns ⟨h, .nounSet handle a image⟩ p s = true → a % 64 = 0 → seqRead s p a 64 h.ecc = (s', .ok, bs) →
    nounStatus s' p handle image (loopIndices (con s h.consist)) = .ok →
    ∃ t, exec (.nounSet h handle a image) s = .next t ∧
      (tget none (con t h.consist).nouns handle).map NounEntry.noun = some image ∧
      (∀ n, n ≠ handle → tget none (con t h.consist).nouns n = tget none (con s h.consist).nouns n) ∧
      (con t h.consist).pos = (con s h.consist).pos + 1 ∧ (∀ j, j ≠ h.consist → con t j = con s j) ∧ t = { s' with consists := t.consists }) ∧
  (∀ (h : VerbHdr) (o : MarkOps) (p : Nat) (bs : List Byte) (s s' : State), (Instr.slotMark h o).wf = true →
    controlRuns ⟨h, .slotMark o⟩ p s = true → slotClear (con s h.consist) = true →
    (match o.anchor with
      | none => s' = s
      | some a => seqRead s p a 8 h.ecc = (s', .ok, bs) ∧ bits (leNat bs) 48 16 = 0) →
    let anchor : Option Nat := if o.anchor = none then (con s h.consist).anchor else some (leNat bs)
    let target := (anchor.getD (Config.noAnchor h.consist) + o.offset) % 2 ^ 48
    exec (.slotMark h o) s = .next (finishCheck h.consist (advance h.consist (setCon s' h.consist { con s h.consist with
      anchor := anchor, hold := some (.slot o.slot target (some (tickMax target (tickNow s' + 1)))) })))) ∧
  (∀ (h : VerbHdr) (o : ParkOps) (p : Nat) (g : Program) (s : State), (Instr.sidingPark h o).wf = true →
    reaches ⟨h, .park o⟩ p s = true → p < 40 → (con s h.consist).prog = some g → o.segment < g.segments.length → o.cost ≠ 0 → o.cost < 2 ^ 32 →
    o.nouns.length ≤ 8 → o.scalars.length ≤ 4 → o.scalars.any scalOpen = false → (con s h.consist).siding.length < odN s (kSidingLimit p) →
    ∃ t, exec (.sidingPark h o) s = .next t ∧
      (con t h.consist).siding = (con s h.consist).siding ++
        [{ segment := o.segment, queue := h.queue, cost := o.cost, nouns := o.nouns, loopIx := loopIndices (con s h.consist), post := h.post
           scalars := o.scalars.map fun c => BitVec.ofNat 64 (scalVal h.consist 0 (loopIndices (con s h.consist)) (bindStage s h.consist c))
           waits := awaited h (loopIndices (con s h.consist)), vi := (con s h.consist).vi
           judged := judgeWaits s.sems (awaited h (loopIndices (con s h.consist))) none }] ∧
      (con t h.consist).pos = (con s h.consist).pos + 1 ∧ (con t h.consist).vi = ((con s h.consist).vi + 1) % 2 ^ 32 ∧ Counted s t kSidingParks 1 ∧ Counted s t kPhrasebookCalls 1 ∧ t.mem = s.mem ∧ t.sems = s.sems) ∧
  (∀ (h : VerbHdr) (p : Nat) (s : State), (Instr.sidingDrain h).wf = true → controlRuns ⟨h, .drain⟩ p s = true →
    (con s h.consist).siding = [] → (con s h.consist).sidingRuns = [] →
    exec (.sidingDrain h) s = .next (finishCheck h.consist (advance h.consist (setCon (bump s kPhrasebookCalls 1 (some p)) h.consist
      { con s h.consist with draining := none, drainStatus := 0, hold := none })))) ∧
  (∀ (h : VerbHdr) (p : Nat) (s : State), (Instr.nop h).wf = true → controlRuns ⟨h, .nop⟩ p s = true →
    exec (.nop h) s = .next (finishCheck h.consist (advance h.consist s))) ∧
  (∀ (h : VerbHdr) (p : Nat) (s : State), (Instr.halt h).wf = true → controlRuns ⟨h, .halt⟩ p s = true →
    exec (.halt h) s = .next (finishCheck h.consist (modCon (advance h.consist s) h.consist fun c => { c with ending := true }))) ∧
  (∀ (h : VerbHdr) (p : Nat) (s : State), (Instr.nop h).wf = true → reaches ⟨h, .nop⟩ p s = true →
    let w := awaited h (loopIndices (con s h.consist))
    (∀ y ∈ w, (semGet s y.1).part = p) → waitsArrived s w = true → (h.post ≠ none ∨ errorOrigin s.sems w ≠ none) →
    exec (.nop h) s = .next (finishCheck h.consist (postToken (advance h.consist s) h.consist (con s h.consist).vi h.queue 6 h.post
      (if errorOrigin s.sems w = none then 0 else 0x0E) noParts (errorOrigin s.sems w)))) ∧
  (∀ (i : Instr) (x : VerbIn) (p : Nat) (s : State), verbOf i = some x → i.wf = true → reaches x p s = true → isControl x.v = true →
    let w := awaited x.h (loopIndices (con s x.h.consist))
    (∀ y ∈ w, (semGet s y.1).part = p) → waitsArrived s w = false →
    exec i s = .next (holdAt x (.control w (some (tickNow s))) s))

/-- A core issues its earliest ready head while the step is neither held nor in doubt: a matrix, vector or stream verb does that core's part there, on the nouns it was broadcast with; a verb whose parts run together (a resume from records, a kernel that forms scratch offsets: the model's reading, assumption 91) only notes the core until the last has issued it. When the last of a verb's parts has ended, its token is posted to its semaphore with the gathered status, and the verb leaves. A broadcast that a full queue or awaited tokens held goes on with the verb that waited, a siding entry after it. With the queues empty, the parked entry whose tokens have arrived starts. -/
def Obligations.IssueAndTokens : Prop :=
  (∀ (k core cycles : Nat) (e : VEntry) (s : State), k < 40 → core < 20 → (con s k).pstate = .running → live s k = true →
    stepLocked s k = false →
    readyHead (con s k) core = some e → findVerb s k e.vi = some e → e.origin = none → bitSet e.issued core ≠ 2 ^ 20 - 1 →
    let s0 := bump s kScoreboardFullCycles cycles (conPart s k)
    let s1 := modVerb s0 k e.vi fun e => { e with issued := bitSet e.issued core }
    let reads := partRanges k core e s1
    (∀ kind o, e.verb = .matrix kind o → o.resume = none → exec (.verbIssue k core cycles) s =
      .next (markWaits k (match underEcc reads e.ecc (conPart s1 k) (matrixPart kind o k core e) s1 with
        | (s, st) => endPart s k e.vi core st))) ∧
    (∀ o, e.verb = .vector o → formsOffsets (kernelOf s1 k o) = false → exec (.verbIssue k core cycles) s =
      .next (markWaits k (match underEcc reads e.ecc (conPart s1 k) (vectorPart o k core e) s1 with
        | (s, st, _) => endPart s k e.vi core st))) ∧
    (∀ o a, (a = false ∧ e.verb = .stream o) ∨ (a = true ∧ e.verb = .atomicAdd o) → exec (.verbIssue k core cycles) s =
      .next (markWaits k (match underEcc reads e.ecc (conPart s1 k) (streamPart a o k core e) s1 with
        | (s, some st) => endPart s k e.vi core st
        | (s, none) => s))) ∧
    (runsWhole k e s1 = true → exec (.verbIssue k core cycles) s = .next (markWaits k s1))) ∧
  (∀ (k vi i p : Nat) (e : VEntry) (s : State), k < 40 → p < 40 → (con s k).pstate = .running → (con s k).verbs = [e] → e.vi = vi →
    e.parts = List.replicate 20 (some .ok) → e.issued = allCores → e.recv = [] → (∀ r o, e.verb ≠ .call r o) → e.post = some i → conPart s k = some p →
    (semGet s i).part = p → (semGet s i).kind = 0 → (semGet s i).setter = queueCode k e.queue → semDie i = conDie k →
    (con s k).siding = [] → (con s k).sidingRuns = [] → (con s k).draining = none → (con s k).hold = none → (con s k).ending = false →
    (part s p).step.voters = [] →
    ∃ t, exec (.verbTokenPost k vi) s = .next t ∧ semGet t i = (semGet s i).post 0 (queueCode k e.queue) (tickNow s) ∧
      (∀ j, j ≠ i → semGet t j = semGet s j) ∧ con t k = { con s k with verbs := [] } ∧ Counted s t kTokensPosted 1 ∧
      t.mem = s.mem ∧ t.od = s.od ∧ t.parts = s.parts) ∧
  (∀ (k cycles q since : Nat) (x : VerbIn) (s : State), k < 40 → live s k = true → (con s k).hold = some (.queue q since) →
    queueUsed (con s k) q < 64 → (con s k).stall = none → (con s k).ahead = [x] →
    exec (.broadcastResume k cycles) s = .next (sidingSweep k (sidingFeed k (finishCheck k (take x
      (setCon (bump s kQueueFullStalls cycles (conPart s k)) k { con s k with ahead := [], hold := none })))))) ∧
  (∀ (k : Nat) (w : List (Nat × Nat)) (since : Option Nat) (x : VerbIn) (s : State), k < 40 → live s k = true →
    (con s k).hold = some (.control w since) → waitsArrived s w = true → (con s k).draining = none → (con s k).stall = none → (con s k).ahead = [x] →
    exec (.controlVerbRelease k) s = .next (finishCheck k (take x (setCon s k { con s k with ahead := [], hold := none })))) ∧
  (∀ (k idle left : Nat) (e : SidingEntry) (s : State), k < 40 → live s k = true → (con s k).pstate = .running →
    (con s k).draining = none → 64 ≤ idle → (con s k).verbs = [] → (con s k).siding = [e] → waitsArrived s e.waits = true →
    ((con s k).slot = none ∨ e.cost ≤ left) → e.judged.getD (errorOrigin s.sems e.waits) = none →
    exec (.sidingEntryStart k idle left) s = .next (settle k (sidingBegin k e [] false
      (bump (modCon s k fun c => { c with siding := [] }) kSidingBubbleRuns 1 (conPart s k)))))

/-- With all domains on, a clean pending block of device memory goes from the pool to a porter slot with the bytes of its source, and memory keeps its contents. Its completion puts exactly those bytes at its destination, changes no other byte, frees the slot and counts block and bytes. At a boundary at which a stream is not held each of its receivers starts over at none; a receiver that has held it at five boundaries in a row is uncoupled, and the others stay. -/
def Obligations.PortersMove : Prop :=
  (∀ (die p a d len : Nat) (b : Block) (s : State), die < 8 → p < 40 → (∀ y, y < 128 → domState s y = 0) → nothingOwed s = true →
    odN s kFarChannelFailed = 0 → (pool s die).pending = [b] → (pool s die).flight = [] → b.sched / 5 = die → b.back = false →
    b.bad = .ok → b.arrive = none → b.refetch = none → b.cast = [] →
    b.body = .raw (.dev a) (.dev d) len false 0 → conPart s b.consist = some p → 0 < len → allotted s p a len false = true →
    writeAllowed s p d len = (s, .ok) → (loadBytes s a len).2 = false →
    ∃ t, exec (.blockDispatch die Ecc.clean) s = .next t ∧
      pool t die = { pool s die with
        pending := [], last := b.sched % 5, backWait := 0, nextId := (pool s die).nextId + 1,
        flight := [⟨(pool s die).nextId, b, viewBytes s a len, [], [], .ok, [], false, false, false, Ecc.clean⟩] } ∧
      (∀ x, x ≠ die → pool t x = pool s x) ∧ t = { s with ctr := t.ctr, pools := t.pools }) ∧
  (∀ (die id p a d len : Nat) (f : InFlight) (rs : List Nat) (s : State), die < 8 → p < 40 → (pool s die).flight = [f] → f.id = id →
    f.waits = false → f.block.body = .raw (.dev a) (.dev d) len false 0 → f.block.refetch = none → f.block.arrive = none → f.badOffs = [] →
    f.bytes.length = len → 0 < len → conPart s f.block.consist = some p → rangesLocked s p [(d, len)] = (s, .ok) → NoHistZero d len → nothingOwed s = true →
    ((linesOf d len).all fun l => farWritable s (max d (l * 64))) = true →
    (∀ e o, findVerb s f.block.consist f.block.vi = some e → (e.verb = .stream o ∨ e.verb = .atomicAdd o) → o.resultMap = 0) →
    ∃ t, exec (.blockComplete die id rs) s = .next t ∧ memRead t.mem d len = f.bytes ∧ MemKept s t d len ∧ (pool t die).flight = [] ∧
      Counted s t kBlocksMoved 1 ∧ Counted s t kBytesMoved len ∧ t.sems = s.sems ∧ t.parts = s.parts) ∧
  (∀ (c : CastStream) (s : State), s.casts = [c] → windowFull (pool s (conDie c.consist)) c.consist c.vi = false → nothingOwed s = true →
    exec .multicastUncouple s = .next { s with casts := [{ c with held := c.coupled.foldl tdel c.held }] }) ∧
  (∀ (c : CastStream) (r q p : Nat) (s : State), s.casts = [c] → conPart s c.consist = some p → p < 40 → c.coupled = [r, q] → r ≠ q → holds (pool s (conDie c.consist)) c r = true →
    holds (pool s (conDie c.consist)) c q = false → tget 0 c.held r = 4 → nothingOwed s = true →
    (∀ f ∈ (pool s (conDie c.consist)).flight, f.block.arrive = none) →
    ∃ t, exec .multicastUncouple s = .next t ∧ t.casts.map CastStream.coupled = [[q]] ∧ Counted s t kUncouplings 1)

/-- A shard that passes its checks joins those accepted and its descriptor reads accepted; one whose counter differs is noted so and counted. The apply of a shard of a frozen layer advances its counter, returns its state to clean and takes it off the list, and changes no byte outside its descriptor. A missing vote at the end of the wait makes the leader decide abort with status timeout; an attempt that the leader has rolled back undecided is decided at the end of its own wait; a hold decision shows hold, and the leader decides at once where no vote holds any more; any commit or skip closes the step with the next epoch, a rollback closes it too. A member left without a decision is in doubt; the operator's outcome becomes its decision, and the end of a hold its revised vote. A new layer table reads as reset in both copies. -/
def Obligations.StepsDecided : Prop :=
  (∀ (p d : Nat) (c : UpdCmd) (acc : Accepted) (s : State), p < 40 → (part s p).step.cmd = some c → c.first ≤ d → d < c.first + c.count →
    ((part s p).step.checked.any fun x => x.1 = d) = false →
    ((part s p).step.shards.any fun x => x.addr = c.table + 64 * d && x.applying) = false →
    (part s p).step.checked.length + 1 < c.count → (∀ y, y < 128 → domState s y = 0) → isFar (c.table + 64 * d + 10) = false →
    (shardCheck s p c 0 (c.table + 64 * d) = (.ok, acc) →
      ∃ t, exec (.updateShardCheck p d) s = .next t ∧
        (part t p).step.shards = (part s p).step.shards ++ [{ acc with shard := { acc.shard with state := 1 } }] ∧
        (part t p).step.checked = (part s p).step.checked ++ [(d, .ok)] ∧ memGet t.mem (c.table + 64 * d + 10) = 1 ∧
        MemKept s t (c.table + 64 * d + 10) 1) ∧
    (shardCheck s p c 0 (c.table + 64 * d) = (.counterSkew, acc) →
      ∃ t, exec (.updateShardCheck p d) s = .next t ∧ (part t p).step.shards = (part s p).step.shards ∧
        (part t p).step.checked = (part s p).step.checked ++ [(d, .counterSkew)] ∧ Counted s t kYardCounterSkews 1 ∧ t.mem = s.mem)) ∧
  (∀ (p d : Nat) (x : Accepted) (s : State), p < 40 → held s = false → (part s p).step.shards = [x] → x.applying = true →
    x.addr = x.cmd.table + 64 * d → x.layer.frozen = true → x.bad = false →
    ((shardRanges s x).all fun r => allotted s p r.1 r.2 true) = true → isFar x.addr = false → isFar (x.addr + 63) = false → NoHistZero x.addr 64 →
    nothingOwed s = true →
    ∃ t, exec (.shardApplyEnd p d Ecc.clean) s = .next t ∧ memNat t (x.addr + 56) 8 = (x.cmd.step + 1) % 2 ^ 64 ∧
      memGet t.mem (x.addr + 10) = 0 ∧ MemKept s t x.addr 64 ∧ (part t p).step.shards = []) ∧
  (∀ (k handle : Nat) (e : NounEntry) (s : State), k < 40 → handle < 4096 → tget none (con s k).nouns handle = some e → e.walk = true →
    exec (.inflectorWalkEnd k handle) s =
      .next (markWaits k (modCon s k fun c => { c with nouns := tset none c.nouns handle (some { e with walk := false }) }))) ∧
  (∀ (p u : Nat) (j : JobMap) (s : State), p < 40 → jobOf s p = some j → (part s p).step.since = some u → j.rank = j.leader →
    (part s p).step.decision = none → (part s p).step.round = 0 → held s = false → tickAfter (tickNow s) (u + odN s (kStepWaitTicks p)) = true →
    (part s p).step.attempts = [] → odN s (kStepState p) ≠ 3 → stepOpen s p = true →
    (∀ v ∈ allVotes s p (jobSize j), v.status = 0 ∧ v.step = ((allVotes s p (jobSize j)).head?.map VoteRec.step).getD 0) →
    ∃ t d, exec (.stepWaitExpiry p) s = .next t ∧ (part t p).step.decision = some d ∧ d.status = 4 ∧ d.outcome = 3 ∧ d.kind = 2 ∧
      odVal t (kDecisionLast p) = some (.octets (voteBytes d)) ∧ t.mem = s.mem) ∧
  (∀ (p : Nat) (j : JobMap) (a : Nat × Nat × Tab (Option VoteRec)) (s : State), p < 40 → jobOf s p = some j → j.rank = j.leader →
    held s = false → (part s p).step.attempts.find? (fun x => tickAfter (tickNow s) (x.2.1 + odN s (kStepWaitTicks p))) = some a →
    ∃ t, exec (.stepWaitExpiry p) s = .next t ∧ (part t p).step = { (part s p).step with attempts := (part s p).step.attempts.erase a } ∧
      odVal t (kDecisionLast p) = some (.octets (voteBytes (decisionOf j a.2.2 0 true))) ∧ t.mem = s.mem ∧ t.sems = s.sems) ∧
  (∀ (p : Nat) (d : VoteRec) (s : State), p < 40 → (part s p).step.decision = some d → held s = false → (part s p).step.isOpen = true →
    (part s p).leaves = false → decisionWaits s p = false →
    (d.outcome = 2 → (∀ j, jobOf s p = some j → (allVotes s p (jobSize j)).length < jobSize j ∨
        (part s p).step.round ≠ 0 ∧ ∃ v ∈ allVotes s p (jobSize j), v.outcome = 2) →
      ∃ t, exec (.decisionApply p) s = .next t ∧ odN t (kStepState p) = 2 ∧ odN t (kStepOutcomeLast p) = 2 ∧
      (part t p).step = { (part s p).step with decision := none } ∧ OdKept [kStepState p, kStepOutcomeLast p] s t ∧
      t = { s with od := t.od, parts := t.parts }) ∧
    (∀ j, d.outcome = 2 → jobOf s p = some j → jobSize j ≤ (allVotes s p (jobSize j)).length → (part s p).step.round ≠ 0 →
      (∀ v ∈ allVotes s p (jobSize j), v.outcome ≠ 2) →
      ∃ t d', exec (.decisionApply p) s = .next t ∧ (part t p).step.decision = some d' ∧ d'.kind = 2 ∧ t.mem = s.mem) ∧
    (d.outcome ≠ 2 → (d.outcome = 3 → flightsWait s (consistsOf s p) = false) → ∃ t, exec (.decisionApply p) s = .next t ∧ (part t p).step.isOpen = false ∧ (part t p).step.decision = none ∧
      (part t p).step.vote = none ∧ (part t p).step.epoch = ((part s p).step.epoch + 1) % 256)) ∧
  (∀ (p : Nat) (s : State), p < 40 → rollbackDue s p = true → held s = false → decisionWaits s p = false → flightsWait s (consistsOf s p) = false →
    ∃ t, exec (.rollback p) s = .next t ∧ (part t p).step.isOpen = false ∧ (part t p).step.vote = none ∧ (part t p).step.decision = none ∧
      (part t p).step.epoch = ((part s p).step.epoch + 1) % 256) ∧
  (∀ (p u : Nat) (v : VoteRec) (s : State), p < 40 → (part s p).step.vote = some v → (part s p).step.since = some u → v.status = 0 →
    (part s p).step.decision = none → odN s (kStepState p) = 1 → held s = false →
    tickAfter (tickNow s) (u + odN s (kStepWaitTicks p) + odN s (kDecisionWaitTicks p)) = true →
    ∃ t, exec (.inDoubtEntry p) s = .next t ∧ odN t (kStepState p) = 3 ∧ Counted s t kInDoubtEvents 1 ∧ t.parts = s.parts ∧ t.mem = s.mem) ∧
  (∀ (who : Who) (p v : Nat) (o : VoteRec) (s : State), who.role = .operator → p < 40 → writeOpen s (kInDoubtResolve p) (.num v) = true →
    odN s (kStepState p) = 3 → v ≤ 3 → (part s p).step.vote = some o →
    ∃ t, exec (.inDoubtResolve who p v) s = .next t ∧
      (part t p).step = { (part s p).step with decision := some { o with kind := 2, status := 0, outcome := v } } ∧ OdKept bookKeys s t ∧
      t = { s with od := t.od, ctr := t.ctr, book := t.book, parts := t.parts, out := .written (kInDoubtResolve p) 0 :: s.out }) ∧
  (∀ (who : Who) (p v : Nat) (o : VoteRec) (j : JobMap) (s : State), who.role = .operator → p < 40 →
    writeOpen s (kHoldDecision p) (.num v) = true → odN s (kStepState p) = 2 → v ≤ 1 → (part s p).step.vote = some o →
    jobOf s p = some j →
    ∃ t, exec (.holdDecision who p v) s = .next t ∧
      (part t p).step.vote = some { o with kind := 3, outcome := v, round := (part s p).step.round } ∧ t.mem = s.mem) ∧
  (∀ (who : Who) (p addr : Nat) (s : State), (who.role = .operator ∨ (who.role = .tenant ∧ who.part = p)) → p < 40 → addr < 2 ^ 64 →
    writeOpen s (kLayerTableAddr p) (.num addr) = true → stepOpen s p = false → allotted s p addr 0x4_0000 true = true → addr % 4096 = 0 →
    region s addr = .near →
    ∃ t, exec (.layerTableAddrWrite who p addr) s = .next t ∧ odN t (kLayerTableAddr p) = addr ∧
      (∀ l, l < 8192 → memRead t.mem (addr + 32 * l) 32 = layerReset) ∧ MemKept s t addr 0x4_0000 ∧ (part t p).step.layersChanged = [])

/-- The next frame of an open queue pair from a permitted peer is taken in order: the expected number moves on by one and no acknowledgement is due yet. A write puts its payload at its window's offset and nowhere else, and a whole message posts its semaphore; an add stores the sum. A vote is noted for its rank, a revised vote replaces a hold, a decision is the step's decision, a freed buffer is noted. An acknowledgement releases the frame it covers and its message, and opens the congestion window. -/
def Obligations.FramesTaken : Prop :=
  (∀ (f : HrtFrame) (w : Window) (i : Instr) (s : State),
    (i = .hrtWriteRx f ∧ f.hdr.opcode = 0) ∨ (i = .hrtWindowWriteRx f ∧ f.hdr.opcode = 4) → i.wf = true → frameNext f s = true →
    windowCheck s f = none → tget none (part s f.part).windows f.hdr.window = some w → (∀ y, y < 128 → domState s y = 0) → f.hdr.poisoned = false →
    f.hdr.semOp ≤ 1 → nothingOwed s = true → NoHistZero (w.base + f.hdr.offset) f.payload.length → ((linesOf (w.base + f.hdr.offset) f.payload.length).all fun l => farWritable s (max (w.base + f.hdr.offset) (l * 64))) = true →
    ∃ t, exec i s = .next t ∧ memRead t.mem (w.base + f.hdr.offset) f.payload.length = f.payload ∧
      MemKept s t (w.base + f.hdr.offset) f.payload.length ∧ qp t f.hdr.dstQp = qpTaken (qp s f.hdr.dstQp) f.hdr.psn (max s.now f.t) ∧
      (∀ q, q ≠ f.hdr.dstQp → qp t q = qp s q) ∧ t.parts = s.parts ∧
      (f.hdr.semOp = 0 → t.sems = s.sems) ∧
      (f.hdr.semOp = 1 → f.hdr.opcode = 0 → semGet t f.hdr.sem = (semGet s f.hdr.sem).post 0 (0xC0 + f.port) (tickNow s))) ∧
  (∀ (f : HrtFrame) (w : Window) (s : State), (Instr.hrtAddRx f).wf = true → f.hdr.opcode = 1 → frameNext f s = true →
    windowCheck s f = none → tget none (part s f.part).windows f.hdr.window = some w → (∀ y, y < 128 → domState s y = 0) → f.hdr.poisoned = false →
    f.hdr.semOp = 0 → f.hdr.addType = 0 → f.payload.length = 4 → (w.base + f.hdr.offset) % 4 = 0 →
    NoHistZero (w.base + f.hdr.offset) 4 → rangeLost s (w.base + f.hdr.offset) 1 = false → farWritable s (w.base + f.hdr.offset) = true →
    ∃ t, exec (.hrtAddRx f) s = .next t ∧
      memNat t (w.base + f.hdr.offset) 4 = (addElem 0 (memNat s (w.base + f.hdr.offset) 4) (decodeVal fmtFp32 (leNat f.payload)) (leNat f.payload)).1 % 2 ^ 32 ∧
      MemKept s t (w.base + f.hdr.offset) 4 ∧ qp t f.hdr.dstQp = qpTaken (qp s f.hdr.dstQp) f.hdr.psn (max s.now f.t) ∧ t.parts = s.parts ∧ t.sems = s.sems) ∧
  (∀ (f : HrtFrame) (g : TxFrame) (m : TxMsg) (s : State), (Instr.hrtAckRx f).wf = true → f.hdr.opcode = 2 → frameHeard f s = true → f.ce = false →
    f.hdr.code = 0 → f.hdr.sack = 0 → f.hdr.ecnEcho = false → (qp s f.hdr.dstQp).frames = [g] → g.sent ≠ none → g.hdr.psn < 2 ^ 32 →
    f.hdr.ackPsn = (g.hdr.psn + 1) % 2 ^ 32 → (qp s f.hdr.dstQp).msgs = [m] → m.id = g.msg → m.owner = none →
    ∃ t, exec (.hrtAckRx f) s = .next t ∧ (qp t f.hdr.dstQp).frames = [] ∧ (qp t f.hdr.dstQp).msgs = [] ∧
      (qp t f.hdr.dstQp).cwnd = min ((qp s f.hdr.dstQp).cwnd + 8192) 4194304 ∧ (∀ q, q ≠ f.hdr.dstQp → qp t q = qp s q) ∧
      t.mem = s.mem ∧ t.sems = s.sems ∧ t.parts = s.parts) ∧
  (∀ (f : HrtFrame) (j : JobMap) (r : Nat) (s : State), (Instr.voteRx f).wf = true → frameNext f s = true → jobOf s f.part = some j →
    recordGood f 1 2 = true →
    j.rank = j.leader → (parseVote f.payload).1.rank < jobSize j →
    tget none (part s f.part).step.votes (parseVote f.payload).1.rank = none → r < jobSize j → r ≠ (parseVote f.payload).1.rank →
    tget none (part s f.part).step.votes r = none →
    ∃ t, exec (.voteRx f) s = .next t ∧
      (part t f.part).step = { (part s f.part).step with
        votes := tset none (part s f.part).step.votes (parseVote f.payload).1.rank (some (parseVote f.payload).1) } ∧
      qp t f.hdr.dstQp = qpTaken (qp s f.hdr.dstQp) f.hdr.psn (max s.now f.t) ∧ t.mem = s.mem ∧ t.sems = s.sems) ∧
  (∀ (f : HrtFrame) (s : State), (Instr.decisionRx f).wf = true → frameNext f s = true → recordGood f 2 3 = true → fromLeader s f = true →
    odN s (kStepState f.part) ≠ 3 → stepOpen s f.part = true →
    ∃ t, exec (.decisionRx f) s = .next t ∧
      (part t f.part).step = { (part s f.part).step with decision := some (parseVote f.payload).1 } ∧
      odVal t (kDecisionLast f.part) = some (.octets (voteBytes (parseVote f.payload).1)) ∧
      qp t f.hdr.dstQp = qpTaken (qp s f.hdr.dstQp) f.hdr.psn (max s.now f.t) ∧ t.mem = s.mem) ∧
  (∀ (f : HrtFrame) (j : JobMap) (o : VoteRec) (s : State), (Instr.revisedVoteRx f).wf = true → frameNext f s = true → jobOf s f.part = some j →
    recordGood f 3 1 = true →
    j.rank = j.leader → tget none (part s f.part).step.votes (parseVote f.payload).1.rank = some o → o.outcome = 2 →
    (allVotes s f.part (jobSize j)).length < jobSize j →
    ∃ t, exec (.revisedVoteRx f) s = .next t ∧
      (part t f.part).step = { (part s f.part).step with
        votes := tset none (part s f.part).step.votes (parseVote f.payload).1.rank (some (parseVote f.payload).1) } ∧
      qp t f.hdr.dstQp = qpTaken (qp s f.hdr.dstQp) f.hdr.psn (max s.now f.t) ∧ t.mem = s.mem ∧ t.sems = s.sems) ∧
  (∀ (f : HrtFrame) (s : State), (Instr.bufferFreeRx f).wf = true → f.hdr.code = 0x20 → frameNext f s = true →
    (∀ k ∈ consistsOf s f.part, ∀ e ∈ (con s k).verbs, e.phase ≠ 3) →
    ∃ t, exec (.bufferFreeRx f) s = .next t ∧
      (part t f.part).buffers = (part s f.part).buffers ++ [(f.peer * 2 ^ 32 + leNat (f.payload.take 4), leNat (f.payload.drop 4))] ∧
      qp t f.hdr.dstQp = qpTaken (qp s f.hdr.dstQp) f.hdr.psn (max s.now f.t) ∧ t.mem = s.mem ∧ t.sems = s.sems)

/-- An acknowledgement due for its delay is sent with the next number expected. A frame whose time has passed is sent again below the limit, ahead of the frames that wait, and noted to be sent again where the link is down; at the limit its peer is absent unless the link is down, as after the partner's timeout on a link that is down; a window full four times while acknowledgements came makes the peer slow. A key offer of the channel from a routed peer has its associations installed and is answered where the partition may use the port, an accept that checks installs them at the initiator, an accept missing for 10 ms repeats the offer three times and then fails the exchange; before 10 ms nothing but the time moves. A job map that reads well is latched; a points change whose copy is ready takes the paths over, and is put off otherwise; a path copy outside the allotment is denied; a ready window table becomes the committed one. -/
def Obligations.PeersKeysAndTables : Prop :=
  (∀ (q u : Nat) (s : State), q < 4096 → (qp s q).isOpen = true → (qp s q).ackDue = some u → (qp s q).absent = false →
    odN s (kLinkUp (qpPort q)) = 1 → u + odN s kAckDelayNs ≤ s.now → (port s (qpPort q)).wait = [] →
    txUsed s (qpPort q) + lengthTo s (qp s q).part (qpPort q) (qp s q).peer 0 true ≤ txHalf →
    ∃ t a, exec (.hrtAckDelay q) s = .next t ∧ qp t q = { qp s q with sinceAck := 0, ackDue := none, echo := false } ∧
      (port t (qpPort q)).txq = (port s (qpPort q)).txq ++ [a] ∧ a.hdr.opcode = 2 ∧ a.hdr.ackPsn = (qp s q).expect ∧
      a.hdr.dstQp = (qp s q).remote ∧ a.hdr.code = 0 ∧ Counted s t kHrtAcksSent 1 ∧ t = { s with ctr := t.ctr, qps := t.qps, ports := t.ports }) ∧
  (∀ (q psn u v : Nat) (g : TxFrame) (s : State), q < 4096 → psn < 2 ^ 32 → (qp s q).frames.find? (fun f => f.hdr.psn = psn) = some g →
    g.sent = some v → g.again = false → v + 1000 * odN s kRtoUs ≤ max s.now u → inBuffer s q psn = false →
    (g.retx < odN s kRetxLimit → odN s (kLinkUp (qpPort q)) = 1 → (qp s q).absent = false → held s = false →
      (qp s q).frames.filter (fun f => f.again || f.hdr.psn = psn) = [g] → (port s (qpPort q)).wait = [] →
      txUsed s (qpPort q) + frameLen s (qpPort q) (macFrame s (qp s q) q g) ≤ txHalf →
      ∃ t, exec (.hrtRtoExpiry q psn u) s = .next t ∧
        (qp t q).frames = (qp s q).frames.map (fun x => if x.hdr.psn = psn then { x with sent := some (max s.now u), retx := x.retx + 1 } else x) ∧
        (port t (qpPort q)).txq = macFrame s (qp s q) q g :: (port s (qpPort q)).txq ∧ Counted s t kHrtRetransmits 1 ∧
        t = { s with now := max s.now u, ctr := t.ctr, qps := t.qps, ports := t.ports }) ∧
    (g.retx < odN s kRetxLimit → odN s (kLinkUp (qpPort q)) = 0 → ∃ t, exec (.hrtRtoExpiry q psn u) s = .next t ∧
      (qp t q).frames = (qp s q).frames.map (fun x => if x.hdr.psn = psn then { x with again := true } else x) ∧
      t = { s with now := max s.now u, qps := t.qps }) ∧
    (odN s kRetxLimit ≤ g.retx → odN s (kLinkUp (qpPort q)) = 0 → exec (.hrtRtoExpiry q psn u) s = .next { s with now := max s.now u }) ∧
    (odN s kRetxLimit ≤ g.retx → odN s (kLinkUp (qpPort q)) ≠ 0 → (qp s q).isOpen = true → (qp s q).absent = false →
      ∃ t, exec (.hrtRtoExpiry q psn u) s = .next t ∧
        (qp t q).absent = true ∧ (qp t q).frames = [] ∧ bitOf (odN t (kPeerAbsentMap (qp s q).part)) (qp s q).peer = true)) ∧
  (∀ (q u : Nat) (s : State), q < 4096 → (qp s q).isOpen = true → (qp s q).absent = false → (qp s q).frames ≠ [] →
    odN s (kLinkUp (qpPort q)) = 0 → (qp s q).progress + 1000000 * odN s kPartnerTimeoutMs ≤ max s.now u →
    ∃ t, exec (.partnerTimeout q u) s = .next t ∧ (qp t q).absent = true ∧ (qp t q).frames = [] ∧
      bitOf (odN t (kPeerAbsentMap (qp s q).part)) (qp s q).peer = true ∧ Counted s t kHrtPartnerAbsent 1) ∧
  (∀ (q : Nat) (s : State), q < 4096 → (qp s q).isOpen = true → (qp s q).absent = false → (qp s q).slow = false → 4 ≤ (qp s q).full →
    (qp s q).fullSince < (qp s q).progress →
    ∃ t, exec (.peerSlowDetect q) s = .next t ∧ qp t q = { qp s q with slow := true } ∧
      bitOf (odN t (kPeerSlowMap (qp s q).part)) (qp s q).peer = true ∧ Counted s t kHrtPartnerSlow 1 ∧
      OdKept [kPeerSlowMap (qp s q).part] s t ∧ t = { s with od := t.od, ctr := t.ctr, qps := t.qps }) ∧
  (∀ (who : Who) (p i : Nat) (s : State), who.role = .operator → p < 40 → i < 64 → writeOpen s (kPeerQuarantineClear p) (.num i) = true →
    isQuarantined s p i = true →
    ∃ t, exec (.peerQuarantineClear who p i) s = .next t ∧
      part t p = { part s p with quarantineClear := bitSet (part s p).quarantineClear i } ∧ OdKept bookKeys s t) ∧
  (∀ (o : KeyOffer) (j : JobMap) (k : List Byte) (s : State), (Instr.keyOfferRx o).wf = true →
    jobOf s o.part = some j → routed j o.peer o.port = true → isQuarantined s o.part o.peer = false → keyMalformed o.frame = false →
    keySci o.frame 0 = peerSci j o.peer o.port → keySci o.frame 1 = ownSci s o.part o.port →
    (chan s o.part o.port o.peer).offer = none → o.secret = some k →
    let own := ownSci s o.part o.port
    let peer := peerSci j o.peer o.port
    let an := keyAn o.frame
    ∃ t, exec (.keyOfferRx o) s = .next t ∧ (chan t o.part o.port o.peer).failed = false ∧
      (chan t o.part o.port o.peer).rx = addSa (chan s o.part o.port o.peer).rx (RxSa.mk an (sak k peer own an) 1) ∧
      ((chan s o.part o.port o.peer).txAn = none → (chan t o.part o.port o.peer).txAn = some an ∧
        (chan t o.part o.port o.peer).txKey = sak k own peer an) ∧
      ((chan s o.part o.port o.peer).txAn ≠ none → (chan t o.part o.port o.peer).shadow = some (an, sak k own peer an)) ∧
      Counted s t kHrtRxFrames 1 ∧ (mayUse s o.part o.port = false → t.ports = s.ports) ∧
      (mayUse s o.part o.port = true → odN s (kLinkUp o.port) = 1 → (port s o.port).wait = [] →
        txUsed s o.port + lengthTo s o.part o.port o.peer 40 false ≤ txHalf →
        ∃ a, (port t o.port).txq = (port s o.port).txq ++ [a] ∧ a.part = o.part ∧ a.peer = o.peer ∧ a.hdr.opcode = 3 ∧ a.hdr.code = 2 ∧
          a.hdr.dstQp = 0xFFFF ∧ a.payload = peer ++ own ++ leBytes 1 an ++ zeros 7 ++ confirmOf k peer own an)) ∧
  (∀ (o : KeyAccept) (j : JobMap) (n u : Nat) (k : List Byte) (s : State), (Instr.keyAcceptRx o).wf = true →
    jobOf s o.part = some j → routed j o.peer o.port = true → isQuarantined s o.part o.peer = false → keyMalformed o.frame = false →
    keySci o.frame 0 = ownSci s o.part o.port → keySci o.frame 1 = peerSci j o.peer o.port →
    (chan s o.part o.port o.peer).offer = some (keyAn o.frame, n, k, u) →
    keyRest o.frame = confirmOf k (ownSci s o.part o.port) (peerSci j o.peer o.port) (keyAn o.frame) →
    ∃ t, exec (.keyAcceptRx o) s = .next t ∧ (chan t o.part o.port o.peer).offer = none ∧
      ((chan s o.part o.port o.peer).txAn ≠ none → (chan t o.part o.port o.peer).shadow =
        some (keyAn o.frame, sak k (ownSci s o.part o.port) (peerSci j o.peer o.port) (keyAn o.frame))) ∧
      ((chan s o.part o.port o.peer).txAn = none → (chan t o.part o.port o.peer).txAn = some (keyAn o.frame)) ∧ t.mem = s.mem ∧ t.qps = s.qps) ∧
  (∀ (p n i u an tries u0 : Nat) (k : List Byte) (s : State), p < 40 → n < 8 → i < 64 → (chan s p n i).offer = some (an, tries, k, u0) →
    (max s.now u < u0 + 10_000_000 → exec (.keyAcceptTimeout p n i u) s = .next { s with now := max s.now u }) ∧
    (u0 + 10_000_000 ≤ max s.now u → tries < 3 → exec (.keyAcceptTimeout p n i u) s = .next (sendOffer (atTime s u) p n i (tries + 1))) ∧
    (u0 + 10_000_000 ≤ max s.now u → 3 ≤ tries →
      ∃ t, exec (.keyAcceptTimeout p n i u) s = .next t ∧ chan t p n i = { chan s p n i with offer := none, failed := true } ∧
        Counted s t (kMacsecAuthFailures n) 1)) ∧
  (∀ (who : Who) (p addr : Nat) (j : JobMap) (s : State), (who.role = .operator ∨ (who.role = .tenant ∧ who.part = p)) → p < 40 →
    addr < 2 ^ 64 → writeOpen s (kJobMapAddr p) (.num addr) = true → (readJob s p addr).1 = .ok →
    (readJob (entered s who (kJobMapAddr p) (.num addr)) p addr).2 = j →
    ∃ t, exec (.jobMapAddrWrite who p addr) s = .next t ∧ jobOf t p = some j ∧ odN t (kJobMapAddr p) = addr ∧ t.mem = s.mem) ∧
  (∀ (p : Nat) (r : PointsReq) (s : State), p < 40 → (part s p).points = [r] → tickAfter (tickNow s) r.target = true →
    ((part s p).pathReady = some r.phase → ∃ t, exec (.pointsSwap p) s = .next t ∧
      part t p = { part s p with paths := (part s p).pathShadow, pathReady := none, points := [] } ∧
      odN t (kPointsPhase p) = r.phase ∧ odN t (kPathShadowState p) = 0x0B ∧ Counted s t kPointsChanges 1) ∧
    ((part s p).pathReady ≠ some r.phase → ∃ t, exec (.pointsSwap p) s = .next t ∧
      part t p = { part s p with points := [{ r with target := (tickNow s + 1) % 2 ^ 48 }] } ∧ odN t (kPointsState p) = 0x0B ∧
      Counted s t kPointsDeferrals 1 ∧ OdKept [kPointsState p] s t)) ∧
  (∀ (who : Who) (p addr : Nat) (s : State), (who.role = .operator ∨ (who.role = .tenant ∧ who.part = p)) → p < 40 →
    addr < 2 ^ 64 → writeOpen s (kPathShadowLoad p) (.num addr) = true →
    exec (.pathShadowLoad who p addr) s = .next (answered (loadPaths (entered s who (kPathShadowLoad p) (.num addr)) p addr) (kPathShadowLoad p)) ∧
    (listRegionOk s addr = false → odN (loadPaths (entered s who (kPathShadowLoad p) (.num addr)) p addr) (kPathShadowState p) = 0x07)) ∧
  (∀ (p : Nat) (s : State), p < 40 → (part s p).winReady = true →
    ∃ t, exec (.windowTableSwap p) s = .next t ∧ (part t p).windows = (part s p).winShadow ∧ (part t p).winReady = false ∧
      odN t (kWindowsRegistered p) = (part s p).winShadow.length ∧ t.mem = s.mem ∧ t.sems = s.sems)
end

