-- ==== Sys2Proof/Laws/State.lean ====
section
/-! SUPPORT. What each update of the state leaves as it was: one lemma for each field and each update, so that no proof unfolds
a record update. The field that an update changes has its own lemma in Laws/Ops.lean. -/

namespace Sys2Proof.Machine

/-- A count changes the counters and nothing else. -/
theorem bump_eq (s : State) (k n : Nat) (p : Option Nat) : bump s k n p = { s with ctr := (bump s k n p).ctr } := by
  unfold bump; split <;> rfl

/-! ### odPut -/

@[simp] theorem odPut_pending (s : State) (k : Nat) (v : OdVal) : (odPut s k v).pending = s.pending := rfl
@[simp] theorem odPut_now (s : State) (k : Nat) (v : OdVal) : (odPut s k v).now = s.now := rfl
@[simp] theorem odPut_free (s : State) (k : Nat) (v : OdVal) : (odPut s k v).free = s.free := rfl
@[simp] theorem odPut_mem (s : State) (k : Nat) (v : OdVal) : (odPut s k v).mem = s.mem := rfl
@[simp] theorem odPut_health (s : State) (k : Nat) (v : OdVal) : (odPut s k v).health = s.health := rfl
@[simp] theorem odPut_consists (s : State) (k : Nat) (v : OdVal) : (odPut s k v).consists = s.consists := rfl
@[simp] theorem odPut_sems (s : State) (k : Nat) (v : OdVal) : (odPut s k v).sems = s.sems := rfl
@[simp] theorem odPut_time (s : State) (k : Nat) (v : OdVal) : (odPut s k v).time = s.time := rfl
@[simp] theorem odPut_pools (s : State) (k : Nat) (v : OdVal) : (odPut s k v).pools = s.pools := rfl
@[simp] theorem odPut_casts (s : State) (k : Nat) (v : OdVal) : (odPut s k v).casts = s.casts := rfl
@[simp] theorem odPut_depot (s : State) (k : Nat) (v : OdVal) : (odPut s k v).depot = s.depot := rfl
@[simp] theorem odPut_ctr (s : State) (k : Nat) (v : OdVal) : (odPut s k v).ctr = s.ctr := rfl
@[simp] theorem odPut_parts (s : State) (k : Nat) (v : OdVal) : (odPut s k v).parts = s.parts := rfl
@[simp] theorem odPut_qps (s : State) (k : Nat) (v : OdVal) : (odPut s k v).qps = s.qps := rfl
@[simp] theorem odPut_ports (s : State) (k : Nat) (v : OdVal) : (odPut s k v).ports = s.ports := rfl
@[simp] theorem odPut_chans (s : State) (k : Nat) (v : OdVal) : (odPut s k v).chans = s.chans := rfl
@[simp] theorem odPut_hrtNext (s : State) (k : Nat) (v : OdVal) : (odPut s k v).hrtNext = s.hrtNext := rfl
@[simp] theorem odPut_queues (s : State) (k : Nat) (v : OdVal) : (odPut s k v).queues = s.queues := rfl
@[simp] theorem odPut_apertures (s : State) (k : Nat) (v : OdVal) : (odPut s k v).apertures = s.apertures := rfl
@[simp] theorem odPut_link (s : State) (k : Nat) (v : OdVal) : (odPut s k v).link = s.link := rfl
@[simp] theorem odPut_sec (s : State) (k : Nat) (v : OdVal) : (odPut s k v).sec = s.sec := rfl
@[simp] theorem odPut_book (s : State) (k : Nat) (v : OdVal) : (odPut s k v).book = s.book := rfl
@[simp] theorem odPut_boot (s : State) (k : Nat) (v : OdVal) : (odPut s k v).boot = s.boot := rfl
@[simp] theorem odPut_pow (s : State) (k : Nat) (v : OdVal) : (odPut s k v).pow = s.pow := rfl
@[simp] theorem odPut_out (s : State) (k : Nat) (v : OdVal) : (odPut s k v).out = s.out := rfl

/-! ### odSet -/

@[simp] theorem odSet_pending (s : State) (k n : Nat) : (odSet s k n).pending = s.pending := rfl
@[simp] theorem odSet_now (s : State) (k n : Nat) : (odSet s k n).now = s.now := rfl
@[simp] theorem odSet_free (s : State) (k n : Nat) : (odSet s k n).free = s.free := rfl
@[simp] theorem odSet_mem (s : State) (k n : Nat) : (odSet s k n).mem = s.mem := rfl
@[simp] theorem odSet_health (s : State) (k n : Nat) : (odSet s k n).health = s.health := rfl
@[simp] theorem odSet_consists (s : State) (k n : Nat) : (odSet s k n).consists = s.consists := rfl
@[simp] theorem odSet_sems (s : State) (k n : Nat) : (odSet s k n).sems = s.sems := rfl
@[simp] theorem odSet_time (s : State) (k n : Nat) : (odSet s k n).time = s.time := rfl
@[simp] theorem odSet_pools (s : State) (k n : Nat) : (odSet s k n).pools = s.pools := rfl
@[simp] theorem odSet_casts (s : State) (k n : Nat) : (odSet s k n).casts = s.casts := rfl
@[simp] theorem odSet_depot (s : State) (k n : Nat) : (odSet s k n).depot = s.depot := rfl
@[simp] theorem odSet_ctr (s : State) (k n : Nat) : (odSet s k n).ctr = s.ctr := rfl
@[simp] theorem odSet_parts (s : State) (k n : Nat) : (odSet s k n).parts = s.parts := rfl
@[simp] theorem odSet_qps (s : State) (k n : Nat) : (odSet s k n).qps = s.qps := rfl
@[simp] theorem odSet_ports (s : State) (k n : Nat) : (odSet s k n).ports = s.ports := rfl
@[simp] theorem odSet_chans (s : State) (k n : Nat) : (odSet s k n).chans = s.chans := rfl
@[simp] theorem odSet_hrtNext (s : State) (k n : Nat) : (odSet s k n).hrtNext = s.hrtNext := rfl
@[simp] theorem odSet_queues (s : State) (k n : Nat) : (odSet s k n).queues = s.queues := rfl
@[simp] theorem odSet_apertures (s : State) (k n : Nat) : (odSet s k n).apertures = s.apertures := rfl
@[simp] theorem odSet_link (s : State) (k n : Nat) : (odSet s k n).link = s.link := rfl
@[simp] theorem odSet_sec (s : State) (k n : Nat) : (odSet s k n).sec = s.sec := rfl
@[simp] theorem odSet_book (s : State) (k n : Nat) : (odSet s k n).book = s.book := rfl
@[simp] theorem odSet_boot (s : State) (k n : Nat) : (odSet s k n).boot = s.boot := rfl
@[simp] theorem odSet_pow (s : State) (k n : Nat) : (odSet s k n).pow = s.pow := rfl
@[simp] theorem odSet_out (s : State) (k n : Nat) : (odSet s k n).out = s.out := rfl

/-! ### odClear -/

@[simp] theorem odClear_pending (s : State) (k : Nat) : (odClear s k).pending = s.pending := rfl
@[simp] theorem odClear_now (s : State) (k : Nat) : (odClear s k).now = s.now := rfl
@[simp] theorem odClear_free (s : State) (k : Nat) : (odClear s k).free = s.free := rfl
@[simp] theorem odClear_mem (s : State) (k : Nat) : (odClear s k).mem = s.mem := rfl
@[simp] theorem odClear_health (s : State) (k : Nat) : (odClear s k).health = s.health := rfl
@[simp] theorem odClear_consists (s : State) (k : Nat) : (odClear s k).consists = s.consists := rfl
@[simp] theorem odClear_sems (s : State) (k : Nat) : (odClear s k).sems = s.sems := rfl
@[simp] theorem odClear_time (s : State) (k : Nat) : (odClear s k).time = s.time := rfl
@[simp] theorem odClear_pools (s : State) (k : Nat) : (odClear s k).pools = s.pools := rfl
@[simp] theorem odClear_casts (s : State) (k : Nat) : (odClear s k).casts = s.casts := rfl
@[simp] theorem odClear_depot (s : State) (k : Nat) : (odClear s k).depot = s.depot := rfl
@[simp] theorem odClear_ctr (s : State) (k : Nat) : (odClear s k).ctr = s.ctr := rfl
@[simp] theorem odClear_parts (s : State) (k : Nat) : (odClear s k).parts = s.parts := rfl
@[simp] theorem odClear_qps (s : State) (k : Nat) : (odClear s k).qps = s.qps := rfl
@[simp] theorem odClear_ports (s : State) (k : Nat) : (odClear s k).ports = s.ports := rfl
@[simp] theorem odClear_chans (s : State) (k : Nat) : (odClear s k).chans = s.chans := rfl
@[simp] theorem odClear_hrtNext (s : State) (k : Nat) : (odClear s k).hrtNext = s.hrtNext := rfl
@[simp] theorem odClear_queues (s : State) (k : Nat) : (odClear s k).queues = s.queues := rfl
@[simp] theorem odClear_apertures (s : State) (k : Nat) : (odClear s k).apertures = s.apertures := rfl
@[simp] theorem odClear_link (s : State) (k : Nat) : (odClear s k).link = s.link := rfl
@[simp] theorem odClear_sec (s : State) (k : Nat) : (odClear s k).sec = s.sec := rfl
@[simp] theorem odClear_book (s : State) (k : Nat) : (odClear s k).book = s.book := rfl
@[simp] theorem odClear_boot (s : State) (k : Nat) : (odClear s k).boot = s.boot := rfl
@[simp] theorem odClear_pow (s : State) (k : Nat) : (odClear s k).pow = s.pow := rfl
@[simp] theorem odClear_out (s : State) (k : Nat) : (odClear s k).out = s.out := rfl

/-! ### odClearIndex -/

@[simp] theorem odClearIndex_pending (s : State) (i : Nat) : (odClearIndex s i).pending = s.pending := rfl
@[simp] theorem odClearIndex_now (s : State) (i : Nat) : (odClearIndex s i).now = s.now := rfl
@[simp] theorem odClearIndex_free (s : State) (i : Nat) : (odClearIndex s i).free = s.free := rfl
@[simp] theorem odClearIndex_mem (s : State) (i : Nat) : (odClearIndex s i).mem = s.mem := rfl
@[simp] theorem odClearIndex_health (s : State) (i : Nat) : (odClearIndex s i).health = s.health := rfl
@[simp] theorem odClearIndex_consists (s : State) (i : Nat) : (odClearIndex s i).consists = s.consists := rfl
@[simp] theorem odClearIndex_sems (s : State) (i : Nat) : (odClearIndex s i).sems = s.sems := rfl
@[simp] theorem odClearIndex_time (s : State) (i : Nat) : (odClearIndex s i).time = s.time := rfl
@[simp] theorem odClearIndex_pools (s : State) (i : Nat) : (odClearIndex s i).pools = s.pools := rfl
@[simp] theorem odClearIndex_casts (s : State) (i : Nat) : (odClearIndex s i).casts = s.casts := rfl
@[simp] theorem odClearIndex_depot (s : State) (i : Nat) : (odClearIndex s i).depot = s.depot := rfl
@[simp] theorem odClearIndex_ctr (s : State) (i : Nat) : (odClearIndex s i).ctr = s.ctr := rfl
@[simp] theorem odClearIndex_parts (s : State) (i : Nat) : (odClearIndex s i).parts = s.parts := rfl
@[simp] theorem odClearIndex_qps (s : State) (i : Nat) : (odClearIndex s i).qps = s.qps := rfl
@[simp] theorem odClearIndex_ports (s : State) (i : Nat) : (odClearIndex s i).ports = s.ports := rfl
@[simp] theorem odClearIndex_chans (s : State) (i : Nat) : (odClearIndex s i).chans = s.chans := rfl
@[simp] theorem odClearIndex_hrtNext (s : State) (i : Nat) : (odClearIndex s i).hrtNext = s.hrtNext := rfl
@[simp] theorem odClearIndex_queues (s : State) (i : Nat) : (odClearIndex s i).queues = s.queues := rfl
@[simp] theorem odClearIndex_apertures (s : State) (i : Nat) : (odClearIndex s i).apertures = s.apertures := rfl
@[simp] theorem odClearIndex_link (s : State) (i : Nat) : (odClearIndex s i).link = s.link := rfl
@[simp] theorem odClearIndex_sec (s : State) (i : Nat) : (odClearIndex s i).sec = s.sec := rfl
@[simp] theorem odClearIndex_book (s : State) (i : Nat) : (odClearIndex s i).book = s.book := rfl
@[simp] theorem odClearIndex_boot (s : State) (i : Nat) : (odClearIndex s i).boot = s.boot := rfl
@[simp] theorem odClearIndex_pow (s : State) (i : Nat) : (odClearIndex s i).pow = s.pow := rfl
@[simp] theorem odClearIndex_out (s : State) (i : Nat) : (odClearIndex s i).out = s.out := rfl

/-! ### setDom -/

@[simp] theorem setDom_pending (s : State) (d v : Nat) : (setDom s d v).pending = s.pending := rfl
@[simp] theorem setDom_now (s : State) (d v : Nat) : (setDom s d v).now = s.now := rfl
@[simp] theorem setDom_free (s : State) (d v : Nat) : (setDom s d v).free = s.free := rfl
@[simp] theorem setDom_mem (s : State) (d v : Nat) : (setDom s d v).mem = s.mem := rfl
@[simp] theorem setDom_health (s : State) (d v : Nat) : (setDom s d v).health = s.health := rfl
@[simp] theorem setDom_consists (s : State) (d v : Nat) : (setDom s d v).consists = s.consists := rfl
@[simp] theorem setDom_sems (s : State) (d v : Nat) : (setDom s d v).sems = s.sems := rfl
@[simp] theorem setDom_time (s : State) (d v : Nat) : (setDom s d v).time = s.time := rfl
@[simp] theorem setDom_pools (s : State) (d v : Nat) : (setDom s d v).pools = s.pools := rfl
@[simp] theorem setDom_casts (s : State) (d v : Nat) : (setDom s d v).casts = s.casts := rfl
@[simp] theorem setDom_depot (s : State) (d v : Nat) : (setDom s d v).depot = s.depot := rfl
@[simp] theorem setDom_ctr (s : State) (d v : Nat) : (setDom s d v).ctr = s.ctr := rfl
@[simp] theorem setDom_parts (s : State) (d v : Nat) : (setDom s d v).parts = s.parts := rfl
@[simp] theorem setDom_qps (s : State) (d v : Nat) : (setDom s d v).qps = s.qps := rfl
@[simp] theorem setDom_ports (s : State) (d v : Nat) : (setDom s d v).ports = s.ports := rfl
@[simp] theorem setDom_chans (s : State) (d v : Nat) : (setDom s d v).chans = s.chans := rfl
@[simp] theorem setDom_hrtNext (s : State) (d v : Nat) : (setDom s d v).hrtNext = s.hrtNext := rfl
@[simp] theorem setDom_queues (s : State) (d v : Nat) : (setDom s d v).queues = s.queues := rfl
@[simp] theorem setDom_apertures (s : State) (d v : Nat) : (setDom s d v).apertures = s.apertures := rfl
@[simp] theorem setDom_link (s : State) (d v : Nat) : (setDom s d v).link = s.link := rfl
@[simp] theorem setDom_sec (s : State) (d v : Nat) : (setDom s d v).sec = s.sec := rfl
@[simp] theorem setDom_book (s : State) (d v : Nat) : (setDom s d v).book = s.book := rfl
@[simp] theorem setDom_boot (s : State) (d v : Nat) : (setDom s d v).boot = s.boot := rfl
@[simp] theorem setDom_pow (s : State) (d v : Nat) : (setDom s d v).pow = s.pow := rfl
@[simp] theorem setDom_out (s : State) (d v : Nat) : (setDom s d v).out = s.out := rfl

/-! ### bump -/

@[simp] theorem bump_pending (s : State) (k n : Nat) (p : Option Nat) : (bump s k n p).pending = s.pending := (congrArg State.pending (bump_eq s k n p)).trans rfl
@[simp] theorem bump_now (s : State) (k n : Nat) (p : Option Nat) : (bump s k n p).now = s.now := (congrArg State.now (bump_eq s k n p)).trans rfl
@[simp] theorem bump_free (s : State) (k n : Nat) (p : Option Nat) : (bump s k n p).free = s.free := (congrArg State.free (bump_eq s k n p)).trans rfl
@[simp] theorem bump_mem (s : State) (k n : Nat) (p : Option Nat) : (bump s k n p).mem = s.mem := (congrArg State.mem (bump_eq s k n p)).trans rfl
@[simp] theorem bump_health (s : State) (k n : Nat) (p : Option Nat) : (bump s k n p).health = s.health := (congrArg State.health (bump_eq s k n p)).trans rfl
@[simp] theorem bump_consists (s : State) (k n : Nat) (p : Option Nat) : (bump s k n p).consists = s.consists := (congrArg State.consists (bump_eq s k n p)).trans rfl
@[simp] theorem bump_sems (s : State) (k n : Nat) (p : Option Nat) : (bump s k n p).sems = s.sems := (congrArg State.sems (bump_eq s k n p)).trans rfl
@[simp] theorem bump_time (s : State) (k n : Nat) (p : Option Nat) : (bump s k n p).time = s.time := (congrArg State.time (bump_eq s k n p)).trans rfl
@[simp] theorem bump_pools (s : State) (k n : Nat) (p : Option Nat) : (bump s k n p).pools = s.pools := (congrArg State.pools (bump_eq s k n p)).trans rfl
@[simp] theorem bump_casts (s : State) (k n : Nat) (p : Option Nat) : (bump s k n p).casts = s.casts := (congrArg State.casts (bump_eq s k n p)).trans rfl
@[simp] theorem bump_depot (s : State) (k n : Nat) (p : Option Nat) : (bump s k n p).depot = s.depot := (congrArg State.depot (bump_eq s k n p)).trans rfl
@[simp] theorem bump_od (s : State) (k n : Nat) (p : Option Nat) : (bump s k n p).od = s.od := (congrArg State.od (bump_eq s k n p)).trans rfl
@[simp] theorem bump_parts (s : State) (k n : Nat) (p : Option Nat) : (bump s k n p).parts = s.parts := (congrArg State.parts (bump_eq s k n p)).trans rfl
@[simp] theorem bump_qps (s : State) (k n : Nat) (p : Option Nat) : (bump s k n p).qps = s.qps := (congrArg State.qps (bump_eq s k n p)).trans rfl
@[simp] theorem bump_ports (s : State) (k n : Nat) (p : Option Nat) : (bump s k n p).ports = s.ports := (congrArg State.ports (bump_eq s k n p)).trans rfl
@[simp] theorem bump_chans (s : State) (k n : Nat) (p : Option Nat) : (bump s k n p).chans = s.chans := (congrArg State.chans (bump_eq s k n p)).trans rfl
@[simp] theorem bump_hrtNext (s : State) (k n : Nat) (p : Option Nat) : (bump s k n p).hrtNext = s.hrtNext := (congrArg State.hrtNext (bump_eq s k n p)).trans rfl
@[simp] theorem bump_queues (s : State) (k n : Nat) (p : Option Nat) : (bump s k n p).queues = s.queues := (congrArg State.queues (bump_eq s k n p)).trans rfl
@[simp] theorem bump_apertures (s : State) (k n : Nat) (p : Option Nat) : (bump s k n p).apertures = s.apertures := (congrArg State.apertures (bump_eq s k n p)).trans rfl
@[simp] theorem bump_link (s : State) (k n : Nat) (p : Option Nat) : (bump s k n p).link = s.link := (congrArg State.link (bump_eq s k n p)).trans rfl
@[simp] theorem bump_sec (s : State) (k n : Nat) (p : Option Nat) : (bump s k n p).sec = s.sec := (congrArg State.sec (bump_eq s k n p)).trans rfl
@[simp] theorem bump_book (s : State) (k n : Nat) (p : Option Nat) : (bump s k n p).book = s.book := (congrArg State.book (bump_eq s k n p)).trans rfl
@[simp] theorem bump_boot (s : State) (k n : Nat) (p : Option Nat) : (bump s k n p).boot = s.boot := (congrArg State.boot (bump_eq s k n p)).trans rfl
@[simp] theorem bump_pow (s : State) (k n : Nat) (p : Option Nat) : (bump s k n p).pow = s.pow := (congrArg State.pow (bump_eq s k n p)).trans rfl
@[simp] theorem bump_out (s : State) (k n : Nat) (p : Option Nat) : (bump s k n p).out = s.out := (congrArg State.out (bump_eq s k n p)).trans rfl

/-! ### setCon -/

@[simp] theorem setCon_pending (s : State) (k : Nat) (c : Consist) : (setCon s k c).pending = s.pending := rfl
@[simp] theorem setCon_now (s : State) (k : Nat) (c : Consist) : (setCon s k c).now = s.now := rfl
@[simp] theorem setCon_free (s : State) (k : Nat) (c : Consist) : (setCon s k c).free = s.free := rfl
@[simp] theorem setCon_mem (s : State) (k : Nat) (c : Consist) : (setCon s k c).mem = s.mem := rfl
@[simp] theorem setCon_health (s : State) (k : Nat) (c : Consist) : (setCon s k c).health = s.health := rfl
@[simp] theorem setCon_sems (s : State) (k : Nat) (c : Consist) : (setCon s k c).sems = s.sems := rfl
@[simp] theorem setCon_time (s : State) (k : Nat) (c : Consist) : (setCon s k c).time = s.time := rfl
@[simp] theorem setCon_pools (s : State) (k : Nat) (c : Consist) : (setCon s k c).pools = s.pools := rfl
@[simp] theorem setCon_casts (s : State) (k : Nat) (c : Consist) : (setCon s k c).casts = s.casts := rfl
@[simp] theorem setCon_depot (s : State) (k : Nat) (c : Consist) : (setCon s k c).depot = s.depot := rfl
@[simp] theorem setCon_od (s : State) (k : Nat) (c : Consist) : (setCon s k c).od = s.od := rfl
@[simp] theorem setCon_ctr (s : State) (k : Nat) (c : Consist) : (setCon s k c).ctr = s.ctr := rfl
@[simp] theorem setCon_parts (s : State) (k : Nat) (c : Consist) : (setCon s k c).parts = s.parts := rfl
@[simp] theorem setCon_qps (s : State) (k : Nat) (c : Consist) : (setCon s k c).qps = s.qps := rfl
@[simp] theorem setCon_ports (s : State) (k : Nat) (c : Consist) : (setCon s k c).ports = s.ports := rfl
@[simp] theorem setCon_chans (s : State) (k : Nat) (c : Consist) : (setCon s k c).chans = s.chans := rfl
@[simp] theorem setCon_hrtNext (s : State) (k : Nat) (c : Consist) : (setCon s k c).hrtNext = s.hrtNext := rfl
@[simp] theorem setCon_queues (s : State) (k : Nat) (c : Consist) : (setCon s k c).queues = s.queues := rfl
@[simp] theorem setCon_apertures (s : State) (k : Nat) (c : Consist) : (setCon s k c).apertures = s.apertures := rfl
@[simp] theorem setCon_link (s : State) (k : Nat) (c : Consist) : (setCon s k c).link = s.link := rfl
@[simp] theorem setCon_sec (s : State) (k : Nat) (c : Consist) : (setCon s k c).sec = s.sec := rfl
@[simp] theorem setCon_book (s : State) (k : Nat) (c : Consist) : (setCon s k c).book = s.book := rfl
@[simp] theorem setCon_boot (s : State) (k : Nat) (c : Consist) : (setCon s k c).boot = s.boot := rfl
@[simp] theorem setCon_pow (s : State) (k : Nat) (c : Consist) : (setCon s k c).pow = s.pow := rfl
@[simp] theorem setCon_out (s : State) (k : Nat) (c : Consist) : (setCon s k c).out = s.out := rfl

/-! ### modCon -/

@[simp] theorem modCon_pending (s : State) (k : Nat) (f : Consist → Consist) : (modCon s k f).pending = s.pending := rfl
@[simp] theorem modCon_now (s : State) (k : Nat) (f : Consist → Consist) : (modCon s k f).now = s.now := rfl
@[simp] theorem modCon_free (s : State) (k : Nat) (f : Consist → Consist) : (modCon s k f).free = s.free := rfl
@[simp] theorem modCon_mem (s : State) (k : Nat) (f : Consist → Consist) : (modCon s k f).mem = s.mem := rfl
@[simp] theorem modCon_health (s : State) (k : Nat) (f : Consist → Consist) : (modCon s k f).health = s.health := rfl
@[simp] theorem modCon_sems (s : State) (k : Nat) (f : Consist → Consist) : (modCon s k f).sems = s.sems := rfl
@[simp] theorem modCon_time (s : State) (k : Nat) (f : Consist → Consist) : (modCon s k f).time = s.time := rfl
@[simp] theorem modCon_pools (s : State) (k : Nat) (f : Consist → Consist) : (modCon s k f).pools = s.pools := rfl
@[simp] theorem modCon_casts (s : State) (k : Nat) (f : Consist → Consist) : (modCon s k f).casts = s.casts := rfl
@[simp] theorem modCon_depot (s : State) (k : Nat) (f : Consist → Consist) : (modCon s k f).depot = s.depot := rfl
@[simp] theorem modCon_od (s : State) (k : Nat) (f : Consist → Consist) : (modCon s k f).od = s.od := rfl
@[simp] theorem modCon_ctr (s : State) (k : Nat) (f : Consist → Consist) : (modCon s k f).ctr = s.ctr := rfl
@[simp] theorem modCon_parts (s : State) (k : Nat) (f : Consist → Consist) : (modCon s k f).parts = s.parts := rfl
@[simp] theorem modCon_qps (s : State) (k : Nat) (f : Consist → Consist) : (modCon s k f).qps = s.qps := rfl
@[simp] theorem modCon_ports (s : State) (k : Nat) (f : Consist → Consist) : (modCon s k f).ports = s.ports := rfl
@[simp] theorem modCon_chans (s : State) (k : Nat) (f : Consist → Consist) : (modCon s k f).chans = s.chans := rfl
@[simp] theorem modCon_hrtNext (s : State) (k : Nat) (f : Consist → Consist) : (modCon s k f).hrtNext = s.hrtNext := rfl
@[simp] theorem modCon_queues (s : State) (k : Nat) (f : Consist → Consist) : (modCon s k f).queues = s.queues := rfl
@[simp] theorem modCon_apertures (s : State) (k : Nat) (f : Consist → Consist) : (modCon s k f).apertures = s.apertures := rfl
@[simp] theorem modCon_link (s : State) (k : Nat) (f : Consist → Consist) : (modCon s k f).link = s.link := rfl
@[simp] theorem modCon_sec (s : State) (k : Nat) (f : Consist → Consist) : (modCon s k f).sec = s.sec := rfl
@[simp] theorem modCon_book (s : State) (k : Nat) (f : Consist → Consist) : (modCon s k f).book = s.book := rfl
@[simp] theorem modCon_boot (s : State) (k : Nat) (f : Consist → Consist) : (modCon s k f).boot = s.boot := rfl
@[simp] theorem modCon_pow (s : State) (k : Nat) (f : Consist → Consist) : (modCon s k f).pow = s.pow := rfl
@[simp] theorem modCon_out (s : State) (k : Nat) (f : Consist → Consist) : (modCon s k f).out = s.out := rfl

/-! ### setPart -/

@[simp] theorem setPart_pending (s : State) (p : Nat) (q : Part) : (setPart s p q).pending = s.pending := rfl
@[simp] theorem setPart_now (s : State) (p : Nat) (q : Part) : (setPart s p q).now = s.now := rfl
@[simp] theorem setPart_free (s : State) (p : Nat) (q : Part) : (setPart s p q).free = s.free := rfl
@[simp] theorem setPart_mem (s : State) (p : Nat) (q : Part) : (setPart s p q).mem = s.mem := rfl
@[simp] theorem setPart_health (s : State) (p : Nat) (q : Part) : (setPart s p q).health = s.health := rfl
@[simp] theorem setPart_consists (s : State) (p : Nat) (q : Part) : (setPart s p q).consists = s.consists := rfl
@[simp] theorem setPart_sems (s : State) (p : Nat) (q : Part) : (setPart s p q).sems = s.sems := rfl
@[simp] theorem setPart_time (s : State) (p : Nat) (q : Part) : (setPart s p q).time = s.time := rfl
@[simp] theorem setPart_pools (s : State) (p : Nat) (q : Part) : (setPart s p q).pools = s.pools := rfl
@[simp] theorem setPart_casts (s : State) (p : Nat) (q : Part) : (setPart s p q).casts = s.casts := rfl
@[simp] theorem setPart_depot (s : State) (p : Nat) (q : Part) : (setPart s p q).depot = s.depot := rfl
@[simp] theorem setPart_od (s : State) (p : Nat) (q : Part) : (setPart s p q).od = s.od := rfl
@[simp] theorem setPart_ctr (s : State) (p : Nat) (q : Part) : (setPart s p q).ctr = s.ctr := rfl
@[simp] theorem setPart_qps (s : State) (p : Nat) (q : Part) : (setPart s p q).qps = s.qps := rfl
@[simp] theorem setPart_ports (s : State) (p : Nat) (q : Part) : (setPart s p q).ports = s.ports := rfl
@[simp] theorem setPart_chans (s : State) (p : Nat) (q : Part) : (setPart s p q).chans = s.chans := rfl
@[simp] theorem setPart_hrtNext (s : State) (p : Nat) (q : Part) : (setPart s p q).hrtNext = s.hrtNext := rfl
@[simp] theorem setPart_queues (s : State) (p : Nat) (q : Part) : (setPart s p q).queues = s.queues := rfl
@[simp] theorem setPart_apertures (s : State) (p : Nat) (q : Part) : (setPart s p q).apertures = s.apertures := rfl
@[simp] theorem setPart_link (s : State) (p : Nat) (q : Part) : (setPart s p q).link = s.link := rfl
@[simp] theorem setPart_sec (s : State) (p : Nat) (q : Part) : (setPart s p q).sec = s.sec := rfl
@[simp] theorem setPart_book (s : State) (p : Nat) (q : Part) : (setPart s p q).book = s.book := rfl
@[simp] theorem setPart_boot (s : State) (p : Nat) (q : Part) : (setPart s p q).boot = s.boot := rfl
@[simp] theorem setPart_pow (s : State) (p : Nat) (q : Part) : (setPart s p q).pow = s.pow := rfl
@[simp] theorem setPart_out (s : State) (p : Nat) (q : Part) : (setPart s p q).out = s.out := rfl

/-! ### modPart -/

@[simp] theorem modPart_pending (s : State) (p : Nat) (f : Part → Part) : (modPart s p f).pending = s.pending := rfl
@[simp] theorem modPart_now (s : State) (p : Nat) (f : Part → Part) : (modPart s p f).now = s.now := rfl
@[simp] theorem modPart_free (s : State) (p : Nat) (f : Part → Part) : (modPart s p f).free = s.free := rfl
@[simp] theorem modPart_mem (s : State) (p : Nat) (f : Part → Part) : (modPart s p f).mem = s.mem := rfl
@[simp] theorem modPart_health (s : State) (p : Nat) (f : Part → Part) : (modPart s p f).health = s.health := rfl
@[simp] theorem modPart_consists (s : State) (p : Nat) (f : Part → Part) : (modPart s p f).consists = s.consists := rfl
@[simp] theorem modPart_sems (s : State) (p : Nat) (f : Part → Part) : (modPart s p f).sems = s.sems := rfl
@[simp] theorem modPart_time (s : State) (p : Nat) (f : Part → Part) : (modPart s p f).time = s.time := rfl
@[simp] theorem modPart_pools (s : State) (p : Nat) (f : Part → Part) : (modPart s p f).pools = s.pools := rfl
@[simp] theorem modPart_casts (s : State) (p : Nat) (f : Part → Part) : (modPart s p f).casts = s.casts := rfl
@[simp] theorem modPart_depot (s : State) (p : Nat) (f : Part → Part) : (modPart s p f).depot = s.depot := rfl
@[simp] theorem modPart_od (s : State) (p : Nat) (f : Part → Part) : (modPart s p f).od = s.od := rfl
@[simp] theorem modPart_ctr (s : State) (p : Nat) (f : Part → Part) : (modPart s p f).ctr = s.ctr := rfl
@[simp] theorem modPart_qps (s : State) (p : Nat) (f : Part → Part) : (modPart s p f).qps = s.qps := rfl
@[simp] theorem modPart_ports (s : State) (p : Nat) (f : Part → Part) : (modPart s p f).ports = s.ports := rfl
@[simp] theorem modPart_chans (s : State) (p : Nat) (f : Part → Part) : (modPart s p f).chans = s.chans := rfl
@[simp] theorem modPart_hrtNext (s : State) (p : Nat) (f : Part → Part) : (modPart s p f).hrtNext = s.hrtNext := rfl
@[simp] theorem modPart_queues (s : State) (p : Nat) (f : Part → Part) : (modPart s p f).queues = s.queues := rfl
@[simp] theorem modPart_apertures (s : State) (p : Nat) (f : Part → Part) : (modPart s p f).apertures = s.apertures := rfl
@[simp] theorem modPart_link (s : State) (p : Nat) (f : Part → Part) : (modPart s p f).link = s.link := rfl
@[simp] theorem modPart_sec (s : State) (p : Nat) (f : Part → Part) : (modPart s p f).sec = s.sec := rfl
@[simp] theorem modPart_book (s : State) (p : Nat) (f : Part → Part) : (modPart s p f).book = s.book := rfl
@[simp] theorem modPart_boot (s : State) (p : Nat) (f : Part → Part) : (modPart s p f).boot = s.boot := rfl
@[simp] theorem modPart_pow (s : State) (p : Nat) (f : Part → Part) : (modPart s p f).pow = s.pow := rfl
@[simp] theorem modPart_out (s : State) (p : Nat) (f : Part → Part) : (modPart s p f).out = s.out := rfl

/-! ### modStep -/

@[simp] theorem modStep_pending (s : State) (p : Nat) (f : StepSt → StepSt) : (modStep s p f).pending = s.pending := rfl
@[simp] theorem modStep_now (s : State) (p : Nat) (f : StepSt → StepSt) : (modStep s p f).now = s.now := rfl
@[simp] theorem modStep_free (s : State) (p : Nat) (f : StepSt → StepSt) : (modStep s p f).free = s.free := rfl
@[simp] theorem modStep_mem (s : State) (p : Nat) (f : StepSt → StepSt) : (modStep s p f).mem = s.mem := rfl
@[simp] theorem modStep_health (s : State) (p : Nat) (f : StepSt → StepSt) : (modStep s p f).health = s.health := rfl
@[simp] theorem modStep_consists (s : State) (p : Nat) (f : StepSt → StepSt) : (modStep s p f).consists = s.consists := rfl
@[simp] theorem modStep_sems (s : State) (p : Nat) (f : StepSt → StepSt) : (modStep s p f).sems = s.sems := rfl
@[simp] theorem modStep_time (s : State) (p : Nat) (f : StepSt → StepSt) : (modStep s p f).time = s.time := rfl
@[simp] theorem modStep_pools (s : State) (p : Nat) (f : StepSt → StepSt) : (modStep s p f).pools = s.pools := rfl
@[simp] theorem modStep_casts (s : State) (p : Nat) (f : StepSt → StepSt) : (modStep s p f).casts = s.casts := rfl
@[simp] theorem modStep_depot (s : State) (p : Nat) (f : StepSt → StepSt) : (modStep s p f).depot = s.depot := rfl
@[simp] theorem modStep_od (s : State) (p : Nat) (f : StepSt → StepSt) : (modStep s p f).od = s.od := rfl
@[simp] theorem modStep_ctr (s : State) (p : Nat) (f : StepSt → StepSt) : (modStep s p f).ctr = s.ctr := rfl
@[simp] theorem modStep_qps (s : State) (p : Nat) (f : StepSt → StepSt) : (modStep s p f).qps = s.qps := rfl
@[simp] theorem modStep_ports (s : State) (p : Nat) (f : StepSt → StepSt) : (modStep s p f).ports = s.ports := rfl
@[simp] theorem modStep_chans (s : State) (p : Nat) (f : StepSt → StepSt) : (modStep s p f).chans = s.chans := rfl
@[simp] theorem modStep_hrtNext (s : State) (p : Nat) (f : StepSt → StepSt) : (modStep s p f).hrtNext = s.hrtNext := rfl
@[simp] theorem modStep_queues (s : State) (p : Nat) (f : StepSt → StepSt) : (modStep s p f).queues = s.queues := rfl
@[simp] theorem modStep_apertures (s : State) (p : Nat) (f : StepSt → StepSt) : (modStep s p f).apertures = s.apertures := rfl
@[simp] theorem modStep_link (s : State) (p : Nat) (f : StepSt → StepSt) : (modStep s p f).link = s.link := rfl
@[simp] theorem modStep_sec (s : State) (p : Nat) (f : StepSt → StepSt) : (modStep s p f).sec = s.sec := rfl
@[simp] theorem modStep_book (s : State) (p : Nat) (f : StepSt → StepSt) : (modStep s p f).book = s.book := rfl
@[simp] theorem modStep_boot (s : State) (p : Nat) (f : StepSt → StepSt) : (modStep s p f).boot = s.boot := rfl
@[simp] theorem modStep_pow (s : State) (p : Nat) (f : StepSt → StepSt) : (modStep s p f).pow = s.pow := rfl
@[simp] theorem modStep_out (s : State) (p : Nat) (f : StepSt → StepSt) : (modStep s p f).out = s.out := rfl

/-! ### setPool -/

@[simp] theorem setPool_pending (s : State) (d : Nat) (q : Pool) : (setPool s d q).pending = s.pending := rfl
@[simp] theorem setPool_now (s : State) (d : Nat) (q : Pool) : (setPool s d q).now = s.now := rfl
@[simp] theorem setPool_free (s : State) (d : Nat) (q : Pool) : (setPool s d q).free = s.free := rfl
@[simp] theorem setPool_mem (s : State) (d : Nat) (q : Pool) : (setPool s d q).mem = s.mem := rfl
@[simp] theorem setPool_health (s : State) (d : Nat) (q : Pool) : (setPool s d q).health = s.health := rfl
@[simp] theorem setPool_consists (s : State) (d : Nat) (q : Pool) : (setPool s d q).consists = s.consists := rfl
@[simp] theorem setPool_sems (s : State) (d : Nat) (q : Pool) : (setPool s d q).sems = s.sems := rfl
@[simp] theorem setPool_time (s : State) (d : Nat) (q : Pool) : (setPool s d q).time = s.time := rfl
@[simp] theorem setPool_casts (s : State) (d : Nat) (q : Pool) : (setPool s d q).casts = s.casts := rfl
@[simp] theorem setPool_depot (s : State) (d : Nat) (q : Pool) : (setPool s d q).depot = s.depot := rfl
@[simp] theorem setPool_od (s : State) (d : Nat) (q : Pool) : (setPool s d q).od = s.od := rfl
@[simp] theorem setPool_ctr (s : State) (d : Nat) (q : Pool) : (setPool s d q).ctr = s.ctr := rfl
@[simp] theorem setPool_parts (s : State) (d : Nat) (q : Pool) : (setPool s d q).parts = s.parts := rfl
@[simp] theorem setPool_qps (s : State) (d : Nat) (q : Pool) : (setPool s d q).qps = s.qps := rfl
@[simp] theorem setPool_ports (s : State) (d : Nat) (q : Pool) : (setPool s d q).ports = s.ports := rfl
@[simp] theorem setPool_chans (s : State) (d : Nat) (q : Pool) : (setPool s d q).chans = s.chans := rfl
@[simp] theorem setPool_hrtNext (s : State) (d : Nat) (q : Pool) : (setPool s d q).hrtNext = s.hrtNext := rfl
@[simp] theorem setPool_queues (s : State) (d : Nat) (q : Pool) : (setPool s d q).queues = s.queues := rfl
@[simp] theorem setPool_apertures (s : State) (d : Nat) (q : Pool) : (setPool s d q).apertures = s.apertures := rfl
@[simp] theorem setPool_link (s : State) (d : Nat) (q : Pool) : (setPool s d q).link = s.link := rfl
@[simp] theorem setPool_sec (s : State) (d : Nat) (q : Pool) : (setPool s d q).sec = s.sec := rfl
@[simp] theorem setPool_book (s : State) (d : Nat) (q : Pool) : (setPool s d q).book = s.book := rfl
@[simp] theorem setPool_boot (s : State) (d : Nat) (q : Pool) : (setPool s d q).boot = s.boot := rfl
@[simp] theorem setPool_pow (s : State) (d : Nat) (q : Pool) : (setPool s d q).pow = s.pow := rfl
@[simp] theorem setPool_out (s : State) (d : Nat) (q : Pool) : (setPool s d q).out = s.out := rfl

/-! ### semSet -/

@[simp] theorem semSet_pending (s : State) (i : Nat) (v : Sem) : (semSet s i v).pending = s.pending := rfl
@[simp] theorem semSet_now (s : State) (i : Nat) (v : Sem) : (semSet s i v).now = s.now := rfl
@[simp] theorem semSet_free (s : State) (i : Nat) (v : Sem) : (semSet s i v).free = s.free := rfl
@[simp] theorem semSet_mem (s : State) (i : Nat) (v : Sem) : (semSet s i v).mem = s.mem := rfl
@[simp] theorem semSet_health (s : State) (i : Nat) (v : Sem) : (semSet s i v).health = s.health := rfl
@[simp] theorem semSet_time (s : State) (i : Nat) (v : Sem) : (semSet s i v).time = s.time := rfl
@[simp] theorem semSet_pools (s : State) (i : Nat) (v : Sem) : (semSet s i v).pools = s.pools := rfl
@[simp] theorem semSet_casts (s : State) (i : Nat) (v : Sem) : (semSet s i v).casts = s.casts := rfl
@[simp] theorem semSet_depot (s : State) (i : Nat) (v : Sem) : (semSet s i v).depot = s.depot := rfl
@[simp] theorem semSet_od (s : State) (i : Nat) (v : Sem) : (semSet s i v).od = s.od := rfl
@[simp] theorem semSet_ctr (s : State) (i : Nat) (v : Sem) : (semSet s i v).ctr = s.ctr := rfl
@[simp] theorem semSet_parts (s : State) (i : Nat) (v : Sem) : (semSet s i v).parts = s.parts := rfl
@[simp] theorem semSet_qps (s : State) (i : Nat) (v : Sem) : (semSet s i v).qps = s.qps := rfl
@[simp] theorem semSet_ports (s : State) (i : Nat) (v : Sem) : (semSet s i v).ports = s.ports := rfl
@[simp] theorem semSet_chans (s : State) (i : Nat) (v : Sem) : (semSet s i v).chans = s.chans := rfl
@[simp] theorem semSet_hrtNext (s : State) (i : Nat) (v : Sem) : (semSet s i v).hrtNext = s.hrtNext := rfl
@[simp] theorem semSet_queues (s : State) (i : Nat) (v : Sem) : (semSet s i v).queues = s.queues := rfl
@[simp] theorem semSet_apertures (s : State) (i : Nat) (v : Sem) : (semSet s i v).apertures = s.apertures := rfl
@[simp] theorem semSet_link (s : State) (i : Nat) (v : Sem) : (semSet s i v).link = s.link := rfl
@[simp] theorem semSet_sec (s : State) (i : Nat) (v : Sem) : (semSet s i v).sec = s.sec := rfl
@[simp] theorem semSet_book (s : State) (i : Nat) (v : Sem) : (semSet s i v).book = s.book := rfl
@[simp] theorem semSet_boot (s : State) (i : Nat) (v : Sem) : (semSet s i v).boot = s.boot := rfl
@[simp] theorem semSet_pow (s : State) (i : Nat) (v : Sem) : (semSet s i v).pow = s.pow := rfl
@[simp] theorem semSet_out (s : State) (i : Nat) (v : Sem) : (semSet s i v).out = s.out := rfl

/-! ### atTime -/

@[simp] theorem atTime_pending (s : State) (t : Nat) : (atTime s t).pending = s.pending := rfl
@[simp] theorem atTime_free (s : State) (t : Nat) : (atTime s t).free = s.free := rfl
@[simp] theorem atTime_mem (s : State) (t : Nat) : (atTime s t).mem = s.mem := rfl
@[simp] theorem atTime_health (s : State) (t : Nat) : (atTime s t).health = s.health := rfl
@[simp] theorem atTime_consists (s : State) (t : Nat) : (atTime s t).consists = s.consists := rfl
@[simp] theorem atTime_sems (s : State) (t : Nat) : (atTime s t).sems = s.sems := rfl
@[simp] theorem atTime_time (s : State) (t : Nat) : (atTime s t).time = s.time := rfl
@[simp] theorem atTime_pools (s : State) (t : Nat) : (atTime s t).pools = s.pools := rfl
@[simp] theorem atTime_casts (s : State) (t : Nat) : (atTime s t).casts = s.casts := rfl
@[simp] theorem atTime_depot (s : State) (t : Nat) : (atTime s t).depot = s.depot := rfl
@[simp] theorem atTime_od (s : State) (t : Nat) : (atTime s t).od = s.od := rfl
@[simp] theorem atTime_ctr (s : State) (t : Nat) : (atTime s t).ctr = s.ctr := rfl
@[simp] theorem atTime_parts (s : State) (t : Nat) : (atTime s t).parts = s.parts := rfl
@[simp] theorem atTime_qps (s : State) (t : Nat) : (atTime s t).qps = s.qps := rfl
@[simp] theorem atTime_ports (s : State) (t : Nat) : (atTime s t).ports = s.ports := rfl
@[simp] theorem atTime_chans (s : State) (t : Nat) : (atTime s t).chans = s.chans := rfl
@[simp] theorem atTime_hrtNext (s : State) (t : Nat) : (atTime s t).hrtNext = s.hrtNext := rfl
@[simp] theorem atTime_queues (s : State) (t : Nat) : (atTime s t).queues = s.queues := rfl
@[simp] theorem atTime_apertures (s : State) (t : Nat) : (atTime s t).apertures = s.apertures := rfl
@[simp] theorem atTime_link (s : State) (t : Nat) : (atTime s t).link = s.link := rfl
@[simp] theorem atTime_sec (s : State) (t : Nat) : (atTime s t).sec = s.sec := rfl
@[simp] theorem atTime_book (s : State) (t : Nat) : (atTime s t).book = s.book := rfl
@[simp] theorem atTime_boot (s : State) (t : Nat) : (atTime s t).boot = s.boot := rfl
@[simp] theorem atTime_pow (s : State) (t : Nat) : (atTime s t).pow = s.pow := rfl
@[simp] theorem atTime_out (s : State) (t : Nat) : (atTime s t).out = s.out := rfl

/-! ### emit -/

@[simp] theorem emit_pending (s : State) (o : Out) : (emit s o).pending = s.pending := rfl
@[simp] theorem emit_now (s : State) (o : Out) : (emit s o).now = s.now := rfl
@[simp] theorem emit_free (s : State) (o : Out) : (emit s o).free = s.free := rfl
@[simp] theorem emit_mem (s : State) (o : Out) : (emit s o).mem = s.mem := rfl
@[simp] theorem emit_health (s : State) (o : Out) : (emit s o).health = s.health := rfl
@[simp] theorem emit_consists (s : State) (o : Out) : (emit s o).consists = s.consists := rfl
@[simp] theorem emit_sems (s : State) (o : Out) : (emit s o).sems = s.sems := rfl
@[simp] theorem emit_time (s : State) (o : Out) : (emit s o).time = s.time := rfl
@[simp] theorem emit_pools (s : State) (o : Out) : (emit s o).pools = s.pools := rfl
@[simp] theorem emit_casts (s : State) (o : Out) : (emit s o).casts = s.casts := rfl
@[simp] theorem emit_depot (s : State) (o : Out) : (emit s o).depot = s.depot := rfl
@[simp] theorem emit_od (s : State) (o : Out) : (emit s o).od = s.od := rfl
@[simp] theorem emit_ctr (s : State) (o : Out) : (emit s o).ctr = s.ctr := rfl
@[simp] theorem emit_parts (s : State) (o : Out) : (emit s o).parts = s.parts := rfl
@[simp] theorem emit_qps (s : State) (o : Out) : (emit s o).qps = s.qps := rfl
@[simp] theorem emit_ports (s : State) (o : Out) : (emit s o).ports = s.ports := rfl
@[simp] theorem emit_chans (s : State) (o : Out) : (emit s o).chans = s.chans := rfl
@[simp] theorem emit_hrtNext (s : State) (o : Out) : (emit s o).hrtNext = s.hrtNext := rfl
@[simp] theorem emit_queues (s : State) (o : Out) : (emit s o).queues = s.queues := rfl
@[simp] theorem emit_apertures (s : State) (o : Out) : (emit s o).apertures = s.apertures := rfl
@[simp] theorem emit_link (s : State) (o : Out) : (emit s o).link = s.link := rfl
@[simp] theorem emit_sec (s : State) (o : Out) : (emit s o).sec = s.sec := rfl
@[simp] theorem emit_book (s : State) (o : Out) : (emit s o).book = s.book := rfl
@[simp] theorem emit_boot (s : State) (o : Out) : (emit s o).boot = s.boot := rfl
@[simp] theorem emit_pow (s : State) (o : Out) : (emit s o).pow = s.pow := rfl

/-! ### setQueue -/

@[simp] theorem setQueue_pending (s : State) (q : Nat) (v : HQueue) : (setQueue s q v).pending = s.pending := rfl
@[simp] theorem setQueue_now (s : State) (q : Nat) (v : HQueue) : (setQueue s q v).now = s.now := rfl
@[simp] theorem setQueue_free (s : State) (q : Nat) (v : HQueue) : (setQueue s q v).free = s.free := rfl
@[simp] theorem setQueue_mem (s : State) (q : Nat) (v : HQueue) : (setQueue s q v).mem = s.mem := rfl
@[simp] theorem setQueue_health (s : State) (q : Nat) (v : HQueue) : (setQueue s q v).health = s.health := rfl
@[simp] theorem setQueue_consists (s : State) (q : Nat) (v : HQueue) : (setQueue s q v).consists = s.consists := rfl
@[simp] theorem setQueue_sems (s : State) (q : Nat) (v : HQueue) : (setQueue s q v).sems = s.sems := rfl
@[simp] theorem setQueue_time (s : State) (q : Nat) (v : HQueue) : (setQueue s q v).time = s.time := rfl
@[simp] theorem setQueue_pools (s : State) (q : Nat) (v : HQueue) : (setQueue s q v).pools = s.pools := rfl
@[simp] theorem setQueue_casts (s : State) (q : Nat) (v : HQueue) : (setQueue s q v).casts = s.casts := rfl
@[simp] theorem setQueue_depot (s : State) (q : Nat) (v : HQueue) : (setQueue s q v).depot = s.depot := rfl
@[simp] theorem setQueue_od (s : State) (q : Nat) (v : HQueue) : (setQueue s q v).od = s.od := rfl
@[simp] theorem setQueue_ctr (s : State) (q : Nat) (v : HQueue) : (setQueue s q v).ctr = s.ctr := rfl
@[simp] theorem setQueue_parts (s : State) (q : Nat) (v : HQueue) : (setQueue s q v).parts = s.parts := rfl
@[simp] theorem setQueue_qps (s : State) (q : Nat) (v : HQueue) : (setQueue s q v).qps = s.qps := rfl
@[simp] theorem setQueue_ports (s : State) (q : Nat) (v : HQueue) : (setQueue s q v).ports = s.ports := rfl
@[simp] theorem setQueue_chans (s : State) (q : Nat) (v : HQueue) : (setQueue s q v).chans = s.chans := rfl
@[simp] theorem setQueue_hrtNext (s : State) (q : Nat) (v : HQueue) : (setQueue s q v).hrtNext = s.hrtNext := rfl
@[simp] theorem setQueue_apertures (s : State) (q : Nat) (v : HQueue) : (setQueue s q v).apertures = s.apertures := rfl
@[simp] theorem setQueue_link (s : State) (q : Nat) (v : HQueue) : (setQueue s q v).link = s.link := rfl
@[simp] theorem setQueue_sec (s : State) (q : Nat) (v : HQueue) : (setQueue s q v).sec = s.sec := rfl
@[simp] theorem setQueue_book (s : State) (q : Nat) (v : HQueue) : (setQueue s q v).book = s.book := rfl
@[simp] theorem setQueue_boot (s : State) (q : Nat) (v : HQueue) : (setQueue s q v).boot = s.boot := rfl
@[simp] theorem setQueue_pow (s : State) (q : Nat) (v : HQueue) : (setQueue s q v).pow = s.pow := rfl
@[simp] theorem setQueue_out (s : State) (q : Nat) (v : HQueue) : (setQueue s q v).out = s.out := rfl

/-! ### setQp -/

@[simp] theorem setQp_pending (s : State) (q : Nat) (v : Qp) : (setQp s q v).pending = s.pending := rfl
@[simp] theorem setQp_now (s : State) (q : Nat) (v : Qp) : (setQp s q v).now = s.now := rfl
@[simp] theorem setQp_free (s : State) (q : Nat) (v : Qp) : (setQp s q v).free = s.free := rfl
@[simp] theorem setQp_mem (s : State) (q : Nat) (v : Qp) : (setQp s q v).mem = s.mem := rfl
@[simp] theorem setQp_health (s : State) (q : Nat) (v : Qp) : (setQp s q v).health = s.health := rfl
@[simp] theorem setQp_consists (s : State) (q : Nat) (v : Qp) : (setQp s q v).consists = s.consists := rfl
@[simp] theorem setQp_sems (s : State) (q : Nat) (v : Qp) : (setQp s q v).sems = s.sems := rfl
@[simp] theorem setQp_time (s : State) (q : Nat) (v : Qp) : (setQp s q v).time = s.time := rfl
@[simp] theorem setQp_pools (s : State) (q : Nat) (v : Qp) : (setQp s q v).pools = s.pools := rfl
@[simp] theorem setQp_casts (s : State) (q : Nat) (v : Qp) : (setQp s q v).casts = s.casts := rfl
@[simp] theorem setQp_depot (s : State) (q : Nat) (v : Qp) : (setQp s q v).depot = s.depot := rfl
@[simp] theorem setQp_od (s : State) (q : Nat) (v : Qp) : (setQp s q v).od = s.od := rfl
@[simp] theorem setQp_ctr (s : State) (q : Nat) (v : Qp) : (setQp s q v).ctr = s.ctr := rfl
@[simp] theorem setQp_parts (s : State) (q : Nat) (v : Qp) : (setQp s q v).parts = s.parts := rfl
@[simp] theorem setQp_ports (s : State) (q : Nat) (v : Qp) : (setQp s q v).ports = s.ports := rfl
@[simp] theorem setQp_chans (s : State) (q : Nat) (v : Qp) : (setQp s q v).chans = s.chans := rfl
@[simp] theorem setQp_hrtNext (s : State) (q : Nat) (v : Qp) : (setQp s q v).hrtNext = s.hrtNext := rfl
@[simp] theorem setQp_queues (s : State) (q : Nat) (v : Qp) : (setQp s q v).queues = s.queues := rfl
@[simp] theorem setQp_apertures (s : State) (q : Nat) (v : Qp) : (setQp s q v).apertures = s.apertures := rfl
@[simp] theorem setQp_link (s : State) (q : Nat) (v : Qp) : (setQp s q v).link = s.link := rfl
@[simp] theorem setQp_sec (s : State) (q : Nat) (v : Qp) : (setQp s q v).sec = s.sec := rfl
@[simp] theorem setQp_book (s : State) (q : Nat) (v : Qp) : (setQp s q v).book = s.book := rfl
@[simp] theorem setQp_boot (s : State) (q : Nat) (v : Qp) : (setQp s q v).boot = s.boot := rfl
@[simp] theorem setQp_pow (s : State) (q : Nat) (v : Qp) : (setQp s q v).pow = s.pow := rfl
@[simp] theorem setQp_out (s : State) (q : Nat) (v : Qp) : (setQp s q v).out = s.out := rfl

/-! ### setPort -/

@[simp] theorem setPort_pending (s : State) (n : Nat) (v : Port) : (setPort s n v).pending = s.pending := rfl
@[simp] theorem setPort_now (s : State) (n : Nat) (v : Port) : (setPort s n v).now = s.now := rfl
@[simp] theorem setPort_free (s : State) (n : Nat) (v : Port) : (setPort s n v).free = s.free := rfl
@[simp] theorem setPort_mem (s : State) (n : Nat) (v : Port) : (setPort s n v).mem = s.mem := rfl
@[simp] theorem setPort_health (s : State) (n : Nat) (v : Port) : (setPort s n v).health = s.health := rfl
@[simp] theorem setPort_consists (s : State) (n : Nat) (v : Port) : (setPort s n v).consists = s.consists := rfl
@[simp] theorem setPort_sems (s : State) (n : Nat) (v : Port) : (setPort s n v).sems = s.sems := rfl
@[simp] theorem setPort_time (s : State) (n : Nat) (v : Port) : (setPort s n v).time = s.time := rfl
@[simp] theorem setPort_pools (s : State) (n : Nat) (v : Port) : (setPort s n v).pools = s.pools := rfl
@[simp] theorem setPort_casts (s : State) (n : Nat) (v : Port) : (setPort s n v).casts = s.casts := rfl
@[simp] theorem setPort_depot (s : State) (n : Nat) (v : Port) : (setPort s n v).depot = s.depot := rfl
@[simp] theorem setPort_od (s : State) (n : Nat) (v : Port) : (setPort s n v).od = s.od := rfl
@[simp] theorem setPort_ctr (s : State) (n : Nat) (v : Port) : (setPort s n v).ctr = s.ctr := rfl
@[simp] theorem setPort_parts (s : State) (n : Nat) (v : Port) : (setPort s n v).parts = s.parts := rfl
@[simp] theorem setPort_qps (s : State) (n : Nat) (v : Port) : (setPort s n v).qps = s.qps := rfl
@[simp] theorem setPort_chans (s : State) (n : Nat) (v : Port) : (setPort s n v).chans = s.chans := rfl
@[simp] theorem setPort_hrtNext (s : State) (n : Nat) (v : Port) : (setPort s n v).hrtNext = s.hrtNext := rfl
@[simp] theorem setPort_queues (s : State) (n : Nat) (v : Port) : (setPort s n v).queues = s.queues := rfl
@[simp] theorem setPort_apertures (s : State) (n : Nat) (v : Port) : (setPort s n v).apertures = s.apertures := rfl
@[simp] theorem setPort_link (s : State) (n : Nat) (v : Port) : (setPort s n v).link = s.link := rfl
@[simp] theorem setPort_sec (s : State) (n : Nat) (v : Port) : (setPort s n v).sec = s.sec := rfl
@[simp] theorem setPort_book (s : State) (n : Nat) (v : Port) : (setPort s n v).book = s.book := rfl
@[simp] theorem setPort_boot (s : State) (n : Nat) (v : Port) : (setPort s n v).boot = s.boot := rfl
@[simp] theorem setPort_pow (s : State) (n : Nat) (v : Port) : (setPort s n v).pow = s.pow := rfl
@[simp] theorem setPort_out (s : State) (n : Nat) (v : Port) : (setPort s n v).out = s.out := rfl

@[simp] theorem emit_out (s : State) (o : Out) : (emit s o).out = o :: s.out := rfl
@[simp] theorem atTime_now (s : State) (t : Nat) : (atTime s t).now = max s.now t := rfl

end Sys2Proof.Machine
end

