-- ==== Sys2Proof/Laws/Tab.lean ====
section
/-! SUPPORT. The sparse tables: what a table reads after a write, and the form that every table operation keeps. The reads
hold of every table, in rising order or not. -/

namespace Sys2Proof.Machine

variable {α : Type}

/-! ### Reads after writes -/

@[simp] theorem tget_nil (d : α) (k : Nat) : tget d [] k = d := rfl

@[simp] theorem tget_tdel_same (d : α) (t : Tab α) (k : Nat) : tget d (tdel t k) k = d := by
  induction t with
  | nil => rfl
  | cons x r ih => obtain ⟨i, v⟩ := x; by_cases h : i = k <;> simp [tdel, tget, h, ih]

theorem tget_tdel_ne (d : α) (t : Tab α) {k j : Nat} (h : j ≠ k) : tget d (tdel t k) j = tget d t j := by
  induction t with
  | nil => rfl
  | cons x r ih =>
    obtain ⟨i, v⟩ := x
    by_cases hk : i = k
    · subst hk; simp [tdel, tget, ih, Ne.symm h]
    · simp [tdel, tget, hk, ih]

@[simp] theorem tget_tins_same (d : α) (t : Tab α) (k : Nat) (v : α) : tget d (tins t k v) k = v := by
  induction t with
  | nil => simp [tins, tget]
  | cons x r ih =>
    obtain ⟨i, w⟩ := x
    by_cases hk : i = k
    · simp [tins, tget, hk]
    · by_cases hl : k < i <;> simp [tins, tget, hk, hl, ih]

theorem tget_tins_ne (d : α) (t : Tab α) {k j : Nat} (v : α) (h : j ≠ k) : tget d (tins t k v) j = tget d t j := by
  induction t with
  | nil => simp [tins, tget, Ne.symm h]
  | cons x r ih =>
    obtain ⟨i, w⟩ := x
    by_cases hk : i = k
    · subst hk; simp [tins, tget, Ne.symm h]
    · by_cases hl : k < i
      · simp [tins, tget, hk, hl, Ne.symm h]
      · simp [tins, tget, hk, hl, ih]

variable [DecidableEq α]

/-- A table reads at the key written what was written. -/
@[simp] theorem tget_tset_same (d : α) (t : Tab α) (k : Nat) (v : α) : tget d (tset d t k v) k = v := by
  unfold tset; split <;> simp_all

/-- Every other key reads as before. -/
theorem tget_tset_ne (d : α) (t : Tab α) {k j : Nat} (v : α) (h : j ≠ k) : tget d (tset d t k v) j = tget d t j := by
  unfold tset; split
  · exact tget_tdel_ne d t h
  · exact tget_tins_ne d t v h

@[simp] theorem tget_tmod_same (d : α) (t : Tab α) (k : Nat) (f : α → α) : tget d (tmod d t k f) k = f (tget d t k) := by
  simp [tmod]

theorem tget_tmod_ne (d : α) (t : Tab α) {k j : Nat} (f : α → α) (h : j ≠ k) : tget d (tmod d t k f) j = tget d t j :=
  tget_tset_ne d t _ h

omit [DecidableEq α]

/-! ### The form: rising keys, no entry that `bad` rejects -/

/-- A lower bound that is lower still does no harm. -/
theorem tabWf_lower {bad : Nat → α → Bool} {t : Tab α} {lo lo' : Nat} (h : tabWf bad (some lo) t = true) (l : lo' ≤ lo) :
    tabWf bad (some lo') t = true := by
  cases t with
  | nil => rfl
  | cons x r =>
    obtain ⟨i, v⟩ := x
    simp only [tabWf, Bool.and_eq_true, decide_eq_true_eq] at h ⊢
    exact ⟨⟨by omega, h.1.2⟩, h.2⟩

/-- With no bound at all likewise. -/
theorem tabWf_none {bad : Nat → α → Bool} {t : Tab α} {lo : Nat} (h : tabWf bad (some lo) t = true) : tabWf bad none t = true := by
  cases t with
  | nil => rfl
  | cons x r =>
    obtain ⟨i, v⟩ := x
    simp only [tabWf, Bool.and_eq_true, decide_eq_true_eq] at h ⊢
    exact ⟨h.1.2, h.2⟩

theorem tabWf_tdel_some {bad : Nat → α → Bool} (t : Tab α) (k lo : Nat) (h : tabWf bad (some lo) t = true) :
    tabWf bad (some lo) (tdel t k) = true := by
  induction t generalizing lo with
  | nil => rfl
  | cons x r ih =>
    obtain ⟨i, v⟩ := x
    simp only [tabWf, Bool.and_eq_true, decide_eq_true_eq] at h
    unfold tdel
    split
    · exact ih lo (tabWf_lower h.2 (by omega))
    · simp only [tabWf, Bool.and_eq_true, decide_eq_true_eq]
      exact ⟨h.1, ih i h.2⟩

/-- Removing a key keeps the form. -/
theorem tabWf_tdel {bad : Nat → α → Bool} (t : Tab α) (k : Nat) (h : tabWf bad none t = true) : tabWf bad none (tdel t k) = true := by
  cases t with
  | nil => rfl
  | cons x r =>
    obtain ⟨i, v⟩ := x
    simp only [tabWf, Bool.and_eq_true] at h
    unfold tdel
    split
    · exact tabWf_none (tabWf_tdel_some r k i h.2)
    · simp only [tabWf, Bool.and_eq_true]
      exact ⟨h.1, tabWf_tdel_some r k i h.2⟩

theorem tabWf_tins_some {bad : Nat → α → Bool} (t : Tab α) (k : Nat) (v : α) (lo : Nat) (h : tabWf bad (some lo) t = true)
    (hk : lo < k) (hv : bad k v = false) : tabWf bad (some lo) (tins t k v) = true := by
  induction t generalizing lo with
  | nil => simp [tins, tabWf, hk, hv]
  | cons x r ih =>
    obtain ⟨i, w⟩ := x
    simp only [tabWf, Bool.and_eq_true, decide_eq_true_eq] at h
    unfold tins
    split
    · rename_i e; subst e; simp [tabWf, hk, hv, h.2]
    · split
      · rename_i l; simp only [tabWf, Bool.and_eq_true, decide_eq_true_eq]; exact ⟨⟨hk, by simp [hv]⟩, ⟨l, h.1.2⟩, h.2⟩
      · simp only [tabWf, Bool.and_eq_true, decide_eq_true_eq]; exact ⟨h.1, ih i h.2 (by omega)⟩

/-- Writing an entry that is not rejected keeps the form. -/
theorem tabWf_tins {bad : Nat → α → Bool} (t : Tab α) (k : Nat) (v : α) (h : tabWf bad none t = true) (hv : bad k v = false) :
    tabWf bad none (tins t k v) = true := by
  cases t with
  | nil => simp [tins, tabWf, hv]
  | cons x r =>
    obtain ⟨i, w⟩ := x
    simp only [tabWf, Bool.and_eq_true] at h
    unfold tins
    split
    · rename_i e; subst e; simp [tabWf, hv, h.2]
    · split
      · rename_i l; simp only [tabWf, Bool.and_eq_true, decide_eq_true_eq]; exact ⟨by simp [hv], ⟨l, h.1⟩, h.2⟩
      · simp only [tabWf, Bool.and_eq_true]; exact ⟨h.1, tabWf_tins_some r k v i h.2 (by omega) hv⟩

theorem tabWf_filter_some {bad : Nat → α → Bool} (f : Nat × α → Bool) (t : Tab α) (lo : Nat) (h : tabWf bad (some lo) t = true) :
    tabWf bad (some lo) (t.filter f) = true := by
  induction t generalizing lo with
  | nil => rfl
  | cons x r ih =>
    obtain ⟨i, v⟩ := x
    simp only [tabWf, Bool.and_eq_true, decide_eq_true_eq] at h
    by_cases hf : f (i, v) = true
    · simp only [List.filter_cons, hf, if_true, tabWf, Bool.and_eq_true, decide_eq_true_eq]; exact ⟨h.1, ih i h.2⟩
    · simp only [List.filter_cons, hf, Bool.false_eq_true, if_false]; exact ih lo (tabWf_lower h.2 (by omega))

/-- Dropping entries keeps the form. -/
theorem tabWf_filter {bad : Nat → α → Bool} (f : Nat × α → Bool) (t : Tab α) (h : tabWf bad none t = true) :
    tabWf bad none (t.filter f) = true := by
  cases t with
  | nil => rfl
  | cons x r =>
    obtain ⟨i, v⟩ := x
    simp only [tabWf, Bool.and_eq_true] at h
    by_cases hf : f (i, v) = true
    · simp only [List.filter_cons, hf, if_true, tabWf, Bool.and_eq_true]; exact ⟨h.1, tabWf_filter_some f r i h.2⟩
    · simp only [List.filter_cons, hf, Bool.false_eq_true, if_false]; exact tabWf_none (tabWf_filter_some f r i h.2)

/-- `tset` keeps rising keys with no entry equal to the default. -/
theorem tabWf_tset [DecidableEq α] (d : α) (t : Tab α) (k : Nat) (v : α) (h : tabWf (fun _ x => decide (x = d)) none t = true) :
    tabWf (fun _ x => decide (x = d)) none (tset d t k v) = true := by
  unfold tset; split
  · exact tabWf_tdel t k h
  · exact tabWf_tins t k v h (by simpa)

end Sys2Proof.Machine
end

