-- ==== Sys2Proof/Laws/Memory.lean ====
section
/-! SUPPORT. Memory: a byte reads what was last written there, a write leaves every other byte alone, and every operation over
memory keeps the canonical form. -/

namespace Sys2Proof.Machine

/-! ### Finding an entry -/

theorem find_tdel_same {α : Type} (t : Tab α) (k : Nat) : (tdel t k).find? (·.1 = k) = none := by
  induction t with
  | nil => rfl
  | cons x r ih => obtain ⟨i, v⟩ := x; by_cases h : i = k <;> simp [tdel, h, ih]

theorem find_tdel_ne {α : Type} (t : Tab α) {k j : Nat} (h : j ≠ k) : (tdel t k).find? (·.1 = j) = t.find? (·.1 = j) := by
  induction t with
  | nil => rfl
  | cons x r ih =>
    obtain ⟨i, v⟩ := x
    by_cases hk : i = k
    · subst hk; simp [tdel, ih, Ne.symm h]
    · simp [tdel, hk, List.find?_cons, ih]

theorem find_tins_same {α : Type} (t : Tab α) (k : Nat) (v : α) : (tins t k v).find? (·.1 = k) = some (k, v) := by
  induction t with
  | nil => simp [tins]
  | cons x r ih =>
    obtain ⟨i, w⟩ := x
    by_cases hk : i = k
    · simp [tins, hk]
    · by_cases hl : k < i <;> simp [tins, hk, hl, ih]

theorem find_tins_ne {α : Type} (t : Tab α) {k j : Nat} (v : α) (h : j ≠ k) : (tins t k v).find? (·.1 = j) = t.find? (·.1 = j) := by
  induction t with
  | nil => simp [tins, Ne.symm h]
  | cons x r ih =>
    obtain ⟨i, w⟩ := x
    by_cases hk : i = k
    · subst hk; simp [tins, Ne.symm h]
    · by_cases hl : k < i
      · simp [tins, hk, hl, List.find?_cons, Ne.symm h]
      · simp [tins, hk, hl, List.find?_cons, ih]

/-! ### Reads after writes -/

/-- The byte written, where it is not the byte of a histogram base array that takes no write (R88). -/
theorem memGet_cellSet_same (m : MemSt) (c : List Host.Cell) (a : Nat) (b : Byte) (z : histZero a = false) :
    memGet { m with cells := cellSet c a b } a = b := by
  unfold memGet cellSet
  split <;> rename_i h <;> simp only [z, Bool.false_eq_true, if_false] at h
  · split at h
    · rw [find_tdel_same] at h; cases h
    · rw [find_tins_same] at h; cases h; rfl
  · split at h
    · rename_i e; simp [e]
    · rw [find_tins_same] at h; cases h

/-- Every other byte. -/
theorem memGet_cellSet_ne (m : MemSt) (c : List Host.Cell) {a x : Nat} (b : Byte) (h : x ≠ a) :
    memGet { m with cells := cellSet c a b } x = memGet { m with cells := c } x := by
  have e : (cellSet c a b).find? (·.1 = x) = c.find? (·.1 = x) := by
    unfold cellSet
    split
    · rfl
    · split
      · exact find_tdel_ne c h
      · rw [find_tins_ne _ b h, find_tdel_ne c h]
  simp only [memGet, e]

/-- A byte outside the range written. -/
theorem memGet_cellsWrite_out (m : MemSt) (bs : List Byte) (c : List Host.Cell) (a x : Nat) (h : x < a ∨ a + bs.length ≤ x) :
    memGet { m with cells := cellsWrite c a bs } x = memGet { m with cells := c } x := by
  induction bs generalizing c a with
  | nil => rfl
  | cons b bs ih =>
    simp only [List.length_cons] at h
    rw [cellsWrite, ih _ _ (by omega), memGet_cellSet_ne m c b (by omega)]

/-- The range written reads what was written. -/
theorem memRead_cellsWrite (m : MemSt) (bs : List Byte) (c : List Host.Cell) (a : Nat) (z : NoHistZero a bs.length) :
    memRead { m with cells := cellsWrite c a bs } a bs.length = bs := by
  induction bs generalizing c a with
  | nil => rfl
  | cons b bs ih =>
    simp only [NoHistZero, List.length_cons] at z
    rw [List.length_cons, memRead, cellsWrite, ih _ _ fun x l u => z x (by omega) (by omega),
      memGet_cellsWrite_out m bs _ _ _ (by omega), memGet_cellSet_same _ _ _ _ (z a (by omega) (by omega))]

/-! ### The canonical form -/

theorem cellSet_wf {c : List Host.Cell} (h : cellsWf c = true) (a : Nat) (b : Byte) : cellsWf (cellSet c a b) = true := by
  unfold cellSet
  split
  · exact h
  · split
    · exact tabWf_tdel c a h
    · exact tabWf_tins _ a b (tabWf_tdel c a h) (by simpa)

theorem cellsWrite_wf (bs : List Byte) {c : List Host.Cell} (h : cellsWf c = true) (a : Nat) : cellsWf (cellsWrite c a bs) = true := by
  induction bs generalizing c a with
  | nil => exact h
  | cons b bs ih => exact ih (cellSet_wf h a b) (a + 1)

/-- Dropping bytes (a scrub, a domain that goes off) keeps the form. -/
theorem cells_filter_wf {c : List Host.Cell} (h : cellsWf c = true) (f : Host.Cell → Bool) : cellsWf (c.filter f) = true :=
  tabWf_filter f c h

theorem cellSets_wf {β : Type} (l : List β) (f : β → Nat) (g : β → Byte) {c : List Host.Cell} (h : cellsWf c = true) :
    cellsWf (l.foldl (fun c x => cellSet c (f x) (g x)) c) = true := by
  induction l generalizing c with
  | nil => exact h
  | cons x r ih => exact ih (cellSet_wf h _ _)

@[simp] theorem reset_mem_wf : Memory.wf State.reset.mem = true := rfl

/-- The depot's bytes keep their form likewise (an unlisted byte reads 0, R255). -/
theorem depotCellsWrite_wf (bs : List Byte) {c : List Host.Cell} (h : tabWf (fun _ x => decide (x = 0)) none c = true) (a : Nat) :
    tabWf (fun _ x => decide (x = 0)) none (depotCellsWrite c a bs) = true := by
  induction bs generalizing c a with
  | nil => exact h
  | cons b bs ih => exact ih (tabWf_tset 0 c a b h) (a + 1)

/-! ### The operations of Ops and Operands -/

/-- The bytes of memory, and what an unlisted far-tier byte reads as, stand. -/
def CellsKept (s t : State) : Prop := t.mem.cells = s.mem.cells ∧ t.mem.farGen = s.mem.farGen

theorem CellsKept.refl (s : State) : CellsKept s s := ⟨rfl, rfl⟩

theorem CellsKept.trans {s t u : State} (h : CellsKept s t) (g : CellsKept t u) : CellsKept s u := ⟨g.1.trans h.1, g.2.trans h.2⟩

/-- A fold whose every step keeps the bytes keeps them. -/
theorem CellsKept.fold {α : Type} (l : List α) (f : State → α → State) (h : ∀ s a, CellsKept s (f s a)) (s : State) : CellsKept s (l.foldl f s) := by
  induction l generalizing s with
  | nil => exact .refl s
  | cons a r ih => exact (h s a).trans (ih (f s a))

/-- The same for a fold that gathers something beside the state. -/
theorem CellsKept.foldPair {α β : Type} (l : List α) (f : State × β → α → State × β) (h : ∀ x a, CellsKept x.1 (f x a).1) (x : State × β) :
    CellsKept x.1 (l.foldl f x).1 := by
  induction l generalizing x with
  | nil => exact .refl x.1
  | cons a r ih => exact (h x a).trans (ih (f x a))

theorem bump_cells (s : State) (k n : Nat) (p : Option Nat) : CellsKept s (bump s k n p) := by simp [CellsKept]

theorem clearMarks_cells (s : State) (a n : Nat) : CellsKept s (clearMarks s a n) := by
  unfold clearMarks odSet odPut; simp only; split <;> exact ⟨rfl, rfl⟩

theorem poisonAt_cells (s : State) (a : Nat) (p : Option Nat) : CellsKept s (poisonAt s a p).1 := by
  unfold poisonAt odSet odPut
  simp only
  split
  · split
    · exact .refl s
    · split
      · exact bump_cells s _ _ _
      · exact ⟨rfl, rfl⟩
  · exact ⟨rfl, rfl⟩

theorem poisonPiece_cells (s : State) (a : Nat) (p : Option Nat) : CellsKept s (poisonPiece s a p).1 := by
  unfold poisonPiece
  split
  · exact poisonAt_cells s a p
  · exact .refl s

theorem channelRead_cells (s : State) (c : Nat) : CellsKept s (channelRead s c) := by
  unfold channelRead
  simp only
  split
  · split <;> exact ⟨by simp, by simp⟩
  · exact ⟨rfl, rfl⟩

theorem noteChannel_cells (s : State) (c : Nat) : CellsKept s (noteChannel s c) := by
  unfold noteChannel
  split
  · exact .refl s
  · exact channelRead_cells s c

theorem stripeRead_cells (s : State) (a : Nat) (bad : List Nat) (parity : Bool) (p : Option Nat) : CellsKept s (stripeRead s a bad parity p).1 := by
  unfold stripeRead
  extract_lets _ _ lost pch _ s₁
  have h : CellsKept s s₁ := .fold _ noteChannel noteChannel_cells s
  clear_value s₁
  generalize (lost.length + _ : Nat) = n
  split
  · exact h.trans (bump_cells _ _ _ _)
  · exact h.trans ((bump_cells _ _ _ _).trans (.fold lost (fun s c => (poisonAt s (c * 2048) p).1) (fun s c => poisonAt_cells s _ p) _))

theorem noteRmw_cells (s : State) (a n : Nat) (p : Option Nat) : CellsKept s (noteRmw s a n p) := by
  unfold noteRmw
  simp only
  split
  · exact bump_cells _ _ _ _
  · exact (bump_cells _ _ _ _).trans (.fold _ _ (fun s x => stripeRead_cells s x [] false p) _)

/-- The canonical form follows the bytes. -/
theorem CellsKept.wf {s t : State} (h : CellsKept s t) (w : Memory.wf s.mem = true) : Memory.wf t.mem = true := by
  unfold Memory.wf at *; rw [h.1]; exact w

/-- A store's bytes: written where every channel takes them, else those that a channel takes. -/
theorem storeBytes_wf (s : State) (a : Nat) (bs : List Byte) (p : Option Nat) (h : Memory.wf s.mem = true) :
    Memory.wf (storeBytes s a bs p).1.mem = true := by
  unfold storeBytes
  simp only
  split
  · exact ((clearMarks_cells _ _ _).trans (noteRmw_cells _ _ _ _)).wf (cellsWrite_wf bs h a)
  · exact ((CellsKept.fold _ _ (fun s q => clearMarks_cells s _ _) _).trans (noteRmw_cells _ _ _ _)).wf
      (cellSets_wf _ (fun x : Byte × Nat => a + x.2) (fun x => x.1) h)

/-- What a clean store does where every channel takes it: the range reads back, all else reads as before, the answer is ok. -/
theorem storeBytes_ok (s : State) (a : Nat) (bs : List Byte) (p : Option Nat)
    (h : ((linesOf a bs.length).all fun l => farWritable s (max a (l * 64))) = true) :
    (storeBytes s a bs p).2 = .ok ∧ (storeBytes s a bs p).1.mem.cells = cellsWrite s.mem.cells a bs ∧
      (storeBytes s a bs p).1.mem.farGen = s.mem.farGen := by
  unfold storeBytes
  simp only [h, if_true, true_and]
  exact ((clearMarks_cells _ _ _).trans (noteRmw_cells _ _ _ _))

theorem poke_wf (s : State) (a : Nat) (bs : List Byte) (h : Memory.wf s.mem = true) : Memory.wf (poke s a bs).mem = true :=
  storeBytes_wf s a bs none h

/-- A fold whose every step keeps a property of the state keeps it. -/
theorem fold_keeps {α β : Type} (l : List α) (P : State → Prop) (f : State × β → α → State × β)
    (h : ∀ x a, P x.1 → P (f x a).1) (x : State × β) (hx : P x.1) : P (l.foldl f x).1 := by
  induction l generalizing x with
  | nil => exact hx
  | cons a r ih => exact ih _ (h x a hx)

theorem poisonPieces_cells (s : State) (a n : Nat) (p : Option Nat) : CellsKept s (poisonPieces s a n p).1 := by
  unfold poisonPieces
  exact (CellsKept.foldPair (β := List (Nat × Status)) _ _ (fun x q => poisonPiece_cells x.1 q.1 p) (s, [])).trans (noteRmw_cells _ _ _ _)

theorem storePoison_wf (s : State) (a n : Nat) (p : Option Nat) (h : Memory.wf s.mem = true) :
    Memory.wf (storePoison s a n p).1.mem = true := by
  unfold storePoison; exact (poisonPieces_cells s a n p).wf h

/-- A store of which some lines are poisoned keeps the form. -/
theorem storeMixed_wf (s : State) (a : Nat) (bs : List Byte) (bad : Nat → Bool) (p : Option Nat) (h : Memory.wf s.mem = true) :
    Memory.wf (storeMixed s a bs bad p).1.mem = true := by
  unfold storeMixed
  split
  · exact storeBytes_wf s a bs p h
  · refine (noteRmw_cells _ _ _ _).wf (fold_keeps _ (fun s => Memory.wf s.mem = true) _ (fun x q hx => ?_) _ h)
    simp only
    split
    · have e := poisonPiece_cells x.1 q.1 p
      split <;> rename_i w <;> (try rw [w] at e) <;> exact e.wf hx
    · split
      · exact hx
      · exact (clearMarks_cells _ _ _).wf (cellsWrite_wf _ hx _)

theorem putCells_wf (s : State) (a : Nat) (bs : List Byte) (h : Memory.wf s.mem = true) : Memory.wf (putCells s a bs).mem = true := by
  unfold putCells
  simp only
  split
  · exact cellsWrite_wf bs h a
  · exact cellSets_wf _ (fun x : Byte × Nat => a + x.2) (fun x => x.1) h

theorem histAdd_wf (s : State) (k slot : Nat) (x : Val) (h : Memory.wf s.mem = true) : Memory.wf (histAdd s k slot x).mem = true := by
  unfold histAdd
  split
  · exact h
  · exact cellsWrite_wf _ h _

end Sys2Proof.Machine
end

