-- ==== Sys2Proof/Laws/Ops.lean ====
section
/-! SUPPORT. The shared operations: what an object, a counter, a consist, a partition or a semaphore reads after each update. -/

namespace Sys2Proof.Machine

/-! ### Objects (R445) -/

/-- The object set reads the new value, whatever the table held. -/
@[simp] theorem odVal_odPut_same (s : State) (k : Nat) (v : OdVal) : odVal (odPut s k v) k = some v := by
  unfold odVal odPut
  by_cases h : odDefault k = some v
  · simp only [h, if_true, find_tdel_same]
  · simp only [h, if_false, find_tins_same]

/-- Every other object reads as before. -/
theorem odVal_odPut_ne (s : State) {k x : Nat} (v : OdVal) (h : x ≠ k) : odVal (odPut s k v) x = odVal s x := by
  unfold odVal odPut
  by_cases hd : odDefault k = some v
  · simp only [hd, if_true, find_tdel_ne s.od h]
  · simp only [hd, if_false, find_tins_ne _ v h, find_tdel_ne s.od h]

@[simp] theorem odVal_odSet_same (s : State) (k n : Nat) : odVal (odSet s k n) k = some (.num n) := odVal_odPut_same s k _
@[simp] theorem odN_odSet_same (s : State) (k n : Nat) : odN (odSet s k n) k = n := by simp only [odN, odVal_odSet_same]
theorem odVal_odSet_ne (s : State) {k x : Nat} (n : Nat) (h : x ≠ k) : odVal (odSet s k n) x = odVal s x := odVal_odPut_ne s _ h
theorem odN_odSet_ne (s : State) {k x : Nat} (n : Nat) (h : x ≠ k) : odN (odSet s k n) x = odN s x := by
  simp only [odN, odVal_odSet_ne s n h]
theorem odN_odPut_ne (s : State) {k x : Nat} (v : OdVal) (h : x ≠ k) : odN (odPut s k v) x = odN s x := by
  simp only [odN, odVal_odPut_ne s v h]
theorem odB_odPut_ne (s : State) {k x : Nat} (v : OdVal) (h : x ≠ k) : odB (odPut s k v) x = odB s x := by
  simp only [odB, odVal_odPut_ne s v h]
@[simp] theorem odB_odPut_same (s : State) (k : Nat) (b : List Byte) : odB (odPut s k (.octets b)) k = b := by
  simp only [odB, odVal_odPut_same]

/-! ### Counters (R453) -/

/-- The operator's view after a count. -/
theorem ctrGet_bump_operator (s : State) (k n : Nat) (p : Option Nat) (h : n ≠ 0) :
    ctrGet (bump s k n p) k 0 = (ctrGet s k 0 + n) % 2 ^ 64 := by
  unfold ctrGet bump ctrAdd
  cases p with
  | none =>
    simp only [h, if_false]
    split
    · rw [tget_tmod_ne 0 _ _ (by omega), tget_tmod_same]
    · rw [tget_tmod_ne 0 _ _ (by omega), tget_tmod_ne 0 _ _ (by omega), tget_tmod_same]
  | some p =>
    simp only [h, if_false]
    rw [tget_tmod_ne 0 _ _ (by omega), tget_tmod_ne 0 _ _ (by omega), tget_tmod_ne 0 _ _ (by omega), tget_tmod_same]

/-- A count of another counter. -/
theorem ctrGet_bump_ne (s : State) {k x : Nat} (n w : Nat) (p : Option Nat) (h : x ≠ k) (hw : w < 64) (hp : ∀ q, p = some q → q < 61) :
    ctrGet (bump s k n p) x w = ctrGet s x w := by
  unfold ctrGet bump ctrAdd
  split
  · rfl
  · cases p with
    | none =>
      simp only
      split
      · rw [tget_tmod_ne 0 _ _ (by omega), tget_tmod_ne 0 _ _ (by omega)]
      · rw [tget_tmod_ne 0 _ _ (by omega), tget_tmod_ne 0 _ _ (by omega), tget_tmod_ne 0 _ _ (by omega)]
    | some p =>
      have := hp p rfl
      simp only
      rw [tget_tmod_ne 0 _ _ (by omega), tget_tmod_ne 0 _ _ (by omega), tget_tmod_ne 0 _ _ (by omega), tget_tmod_ne 0 _ _ (by omega)]

/-- A count of nothing. -/
@[simp] theorem bump_zero (s : State) (k : Nat) (p : Option Nat) : bump s k 0 p = s := by simp [bump]

/-! ### Consists, partitions, pools, semaphores, queues -/

@[simp] theorem con_setCon_same (s : State) (k : Nat) (c : Consist) : con (setCon s k c) k = c := tget_tset_same _ _ _ _
theorem con_setCon_ne (s : State) {k x : Nat} (c : Consist) (h : x ≠ k) : con (setCon s k c) x = con s x := tget_tset_ne _ _ _ h
@[simp] theorem con_modCon_same (s : State) (k : Nat) (f : Consist → Consist) : con (modCon s k f) k = f (con s k) := tget_tset_same _ _ _ _
theorem con_modCon_ne (s : State) {k x : Nat} (f : Consist → Consist) (h : x ≠ k) : con (modCon s k f) x = con s x := tget_tset_ne _ _ _ h
@[simp] theorem part_setPart_same (s : State) (p : Nat) (q : Part) : part (setPart s p q) p = q := tget_tset_same _ _ _ _
theorem part_setPart_ne (s : State) {p x : Nat} (q : Part) (h : x ≠ p) : part (setPart s p q) x = part s x := tget_tset_ne _ _ _ h
@[simp] theorem part_modPart_same (s : State) (p : Nat) (f : Part → Part) : part (modPart s p f) p = f (part s p) := tget_tset_same _ _ _ _
theorem part_modPart_ne (s : State) {p x : Nat} (f : Part → Part) (h : x ≠ p) : part (modPart s p f) x = part s x := tget_tset_ne _ _ _ h
@[simp] theorem part_modStep_same (s : State) (p : Nat) (f : StepSt → StepSt) :
    part (modStep s p f) p = { part s p with step := f (part s p).step } := tget_tset_same _ _ _ _
theorem part_modStep_ne (s : State) {p x : Nat} (f : StepSt → StepSt) (h : x ≠ p) : part (modStep s p f) x = part s x := tget_tset_ne _ _ _ h
@[simp] theorem pool_setPool_same (s : State) (d : Nat) (q : Pool) : pool (setPool s d q) d = q := tget_tset_same _ _ _ _
theorem pool_setPool_ne (s : State) {d x : Nat} (q : Pool) (h : x ≠ d) : pool (setPool s d q) x = pool s x := tget_tset_ne _ _ _ h
@[simp] theorem semGet_semSet_same (s : State) (i : Nat) (v : Sem) : semGet (semSet s i v) i = v := tget_tset_same _ _ _ _
theorem semGet_semSet_ne (s : State) {i x : Nat} (v : Sem) (h : x ≠ i) : semGet (semSet s i v) x = semGet s x := tget_tset_ne _ _ _ h
@[simp] theorem queue_setQueue_same (s : State) (q : Nat) (v : HQueue) : queue (setQueue s q v) q = v := tget_tset_same _ _ _ _
theorem queue_setQueue_ne (s : State) {q x : Nat} (v : HQueue) (h : x ≠ q) : queue (setQueue s q v) x = queue s x := tget_tset_ne _ _ _ h
@[simp] theorem qp_setQp_same (s : State) (q : Nat) (v : Qp) : qp (setQp s q v) q = v := tget_tset_same _ _ _ _
theorem qp_setQp_ne (s : State) {q x : Nat} (v : Qp) (h : x ≠ q) : qp (setQp s q v) x = qp s x := tget_tset_ne _ _ _ h
@[simp] theorem setCon_setCon (s : State) (k : Nat) (c d : Consist) : con (setCon (setCon s k c) k d) k = d := con_setCon_same _ _ _

/-- A domain set reads its state; every other domain keeps its own. -/
@[simp] theorem domState_setDom_same (s : State) (d v : Nat) : domState (setDom s d v) d = v := odN_odSet_same _ _ _
theorem domState_setDom_ne (s : State) {d x v : Nat} (h : kDomainState (x + 1) ≠ kDomainState (d + 1)) : domState (setDom s d v) x = domState s x :=
  odN_odSet_ne _ _ h

/-! ### What leaves `odVal` as it was -/

@[simp] theorem odVal_bump (s : State) (k n : Nat) (p : Option Nat) (x : Nat) : odVal (bump s k n p) x = odVal s x := by simp only [odVal, bump_od]
@[simp] theorem odVal_setCon (s : State) (k : Nat) (c : Consist) (x : Nat) : odVal (setCon s k c) x = odVal s x := rfl
@[simp] theorem odVal_modCon (s : State) (k : Nat) (f : Consist → Consist) (x : Nat) : odVal (modCon s k f) x = odVal s x := rfl
@[simp] theorem odVal_setPart (s : State) (p : Nat) (q : Part) (x : Nat) : odVal (setPart s p q) x = odVal s x := rfl
@[simp] theorem odVal_modPart (s : State) (p : Nat) (f : Part → Part) (x : Nat) : odVal (modPart s p f) x = odVal s x := rfl
@[simp] theorem odVal_modStep (s : State) (p : Nat) (f : StepSt → StepSt) (x : Nat) : odVal (modStep s p f) x = odVal s x := rfl
@[simp] theorem odVal_setPool (s : State) (d : Nat) (q : Pool) (x : Nat) : odVal (setPool s d q) x = odVal s x := rfl
@[simp] theorem odVal_semSet (s : State) (i : Nat) (v : Sem) (x : Nat) : odVal (semSet s i v) x = odVal s x := rfl
@[simp] theorem odVal_atTime (s : State) (t : Nat) (x : Nat) : odVal (atTime s t) x = odVal s x := rfl
@[simp] theorem odVal_emit (s : State) (o : Out) (x : Nat) : odVal (emit s o) x = odVal s x := rfl
@[simp] theorem odVal_setQueue (s : State) (q : Nat) (v : HQueue) (x : Nat) : odVal (setQueue s q v) x = odVal s x := rfl

/-! ### What leaves `odN` as it was -/

@[simp] theorem odN_bump (s : State) (k n : Nat) (p : Option Nat) (x : Nat) : odN (bump s k n p) x = odN s x := by simp only [odN, odVal, bump_od]
@[simp] theorem odN_setCon (s : State) (k : Nat) (c : Consist) (x : Nat) : odN (setCon s k c) x = odN s x := rfl
@[simp] theorem odN_modCon (s : State) (k : Nat) (f : Consist → Consist) (x : Nat) : odN (modCon s k f) x = odN s x := rfl
@[simp] theorem odN_setPart (s : State) (p : Nat) (q : Part) (x : Nat) : odN (setPart s p q) x = odN s x := rfl
@[simp] theorem odN_modPart (s : State) (p : Nat) (f : Part → Part) (x : Nat) : odN (modPart s p f) x = odN s x := rfl
@[simp] theorem odN_modStep (s : State) (p : Nat) (f : StepSt → StepSt) (x : Nat) : odN (modStep s p f) x = odN s x := rfl
@[simp] theorem odN_setPool (s : State) (d : Nat) (q : Pool) (x : Nat) : odN (setPool s d q) x = odN s x := rfl
@[simp] theorem odN_semSet (s : State) (i : Nat) (v : Sem) (x : Nat) : odN (semSet s i v) x = odN s x := rfl
@[simp] theorem odN_atTime (s : State) (t : Nat) (x : Nat) : odN (atTime s t) x = odN s x := rfl
@[simp] theorem odN_emit (s : State) (o : Out) (x : Nat) : odN (emit s o) x = odN s x := rfl
@[simp] theorem odN_setQueue (s : State) (q : Nat) (v : HQueue) (x : Nat) : odN (setQueue s q v) x = odN s x := rfl

/-! ### What leaves `odB` as it was -/

@[simp] theorem odB_bump (s : State) (k n : Nat) (p : Option Nat) (x : Nat) : odB (bump s k n p) x = odB s x := by simp only [odB, odVal, bump_od]
@[simp] theorem odB_setCon (s : State) (k : Nat) (c : Consist) (x : Nat) : odB (setCon s k c) x = odB s x := rfl
@[simp] theorem odB_modCon (s : State) (k : Nat) (f : Consist → Consist) (x : Nat) : odB (modCon s k f) x = odB s x := rfl
@[simp] theorem odB_setPart (s : State) (p : Nat) (q : Part) (x : Nat) : odB (setPart s p q) x = odB s x := rfl
@[simp] theorem odB_modPart (s : State) (p : Nat) (f : Part → Part) (x : Nat) : odB (modPart s p f) x = odB s x := rfl
@[simp] theorem odB_modStep (s : State) (p : Nat) (f : StepSt → StepSt) (x : Nat) : odB (modStep s p f) x = odB s x := rfl
@[simp] theorem odB_setPool (s : State) (d : Nat) (q : Pool) (x : Nat) : odB (setPool s d q) x = odB s x := rfl
@[simp] theorem odB_semSet (s : State) (i : Nat) (v : Sem) (x : Nat) : odB (semSet s i v) x = odB s x := rfl
@[simp] theorem odB_atTime (s : State) (t : Nat) (x : Nat) : odB (atTime s t) x = odB s x := rfl
@[simp] theorem odB_emit (s : State) (o : Out) (x : Nat) : odB (emit s o) x = odB s x := rfl
@[simp] theorem odB_setQueue (s : State) (q : Nat) (v : HQueue) (x : Nat) : odB (setQueue s q v) x = odB s x := rfl

/-! ### What leaves `ctrGet` as it was -/

@[simp] theorem ctrGet_odPut (s : State) (k : Nat) (v : OdVal) (x w : Nat) : ctrGet (odPut s k v) x w = ctrGet s x w := rfl
@[simp] theorem ctrGet_odSet (s : State) (k n : Nat) (x w : Nat) : ctrGet (odSet s k n) x w = ctrGet s x w := rfl
@[simp] theorem ctrGet_setDom (s : State) (d v : Nat) (x w : Nat) : ctrGet (setDom s d v) x w = ctrGet s x w := rfl
@[simp] theorem ctrGet_setCon (s : State) (k : Nat) (c : Consist) (x w : Nat) : ctrGet (setCon s k c) x w = ctrGet s x w := rfl
@[simp] theorem ctrGet_modCon (s : State) (k : Nat) (f : Consist → Consist) (x w : Nat) : ctrGet (modCon s k f) x w = ctrGet s x w := rfl
@[simp] theorem ctrGet_setPart (s : State) (p : Nat) (q : Part) (x w : Nat) : ctrGet (setPart s p q) x w = ctrGet s x w := rfl
@[simp] theorem ctrGet_modPart (s : State) (p : Nat) (f : Part → Part) (x w : Nat) : ctrGet (modPart s p f) x w = ctrGet s x w := rfl
@[simp] theorem ctrGet_modStep (s : State) (p : Nat) (f : StepSt → StepSt) (x w : Nat) : ctrGet (modStep s p f) x w = ctrGet s x w := rfl
@[simp] theorem ctrGet_setPool (s : State) (d : Nat) (q : Pool) (x w : Nat) : ctrGet (setPool s d q) x w = ctrGet s x w := rfl
@[simp] theorem ctrGet_semSet (s : State) (i : Nat) (v : Sem) (x w : Nat) : ctrGet (semSet s i v) x w = ctrGet s x w := rfl
@[simp] theorem ctrGet_atTime (s : State) (t : Nat) (x w : Nat) : ctrGet (atTime s t) x w = ctrGet s x w := rfl
@[simp] theorem ctrGet_emit (s : State) (o : Out) (x w : Nat) : ctrGet (emit s o) x w = ctrGet s x w := rfl
@[simp] theorem ctrGet_setQueue (s : State) (q : Nat) (v : HQueue) (x w : Nat) : ctrGet (setQueue s q v) x w = ctrGet s x w := rfl

/-! ### What leaves `con` as it was -/

@[simp] theorem con_odPut (s : State) (k : Nat) (v : OdVal) (x : Nat) : con (odPut s k v) x = con s x := rfl
@[simp] theorem con_odSet (s : State) (k n : Nat) (x : Nat) : con (odSet s k n) x = con s x := rfl
@[simp] theorem con_setDom (s : State) (d v : Nat) (x : Nat) : con (setDom s d v) x = con s x := rfl
@[simp] theorem con_bump (s : State) (k n : Nat) (p : Option Nat) (x : Nat) : con (bump s k n p) x = con s x := by simp only [con, bump_consists]
@[simp] theorem con_setPart (s : State) (p : Nat) (q : Part) (x : Nat) : con (setPart s p q) x = con s x := rfl
@[simp] theorem con_modPart (s : State) (p : Nat) (f : Part → Part) (x : Nat) : con (modPart s p f) x = con s x := rfl
@[simp] theorem con_modStep (s : State) (p : Nat) (f : StepSt → StepSt) (x : Nat) : con (modStep s p f) x = con s x := rfl
@[simp] theorem con_setPool (s : State) (d : Nat) (q : Pool) (x : Nat) : con (setPool s d q) x = con s x := rfl
@[simp] theorem con_atTime (s : State) (t : Nat) (x : Nat) : con (atTime s t) x = con s x := rfl
@[simp] theorem con_emit (s : State) (o : Out) (x : Nat) : con (emit s o) x = con s x := rfl
@[simp] theorem con_setQueue (s : State) (q : Nat) (v : HQueue) (x : Nat) : con (setQueue s q v) x = con s x := rfl

/-! ### What leaves `part` as it was -/

@[simp] theorem part_odPut (s : State) (k : Nat) (v : OdVal) (x : Nat) : part (odPut s k v) x = part s x := rfl
@[simp] theorem part_odSet (s : State) (k n : Nat) (x : Nat) : part (odSet s k n) x = part s x := rfl
@[simp] theorem part_setDom (s : State) (d v : Nat) (x : Nat) : part (setDom s d v) x = part s x := rfl
@[simp] theorem part_bump (s : State) (k n : Nat) (p : Option Nat) (x : Nat) : part (bump s k n p) x = part s x := by simp only [part, bump_parts]
@[simp] theorem part_setCon (s : State) (k : Nat) (c : Consist) (x : Nat) : part (setCon s k c) x = part s x := rfl
@[simp] theorem part_modCon (s : State) (k : Nat) (f : Consist → Consist) (x : Nat) : part (modCon s k f) x = part s x := rfl
@[simp] theorem part_setPool (s : State) (d : Nat) (q : Pool) (x : Nat) : part (setPool s d q) x = part s x := rfl
@[simp] theorem part_semSet (s : State) (i : Nat) (v : Sem) (x : Nat) : part (semSet s i v) x = part s x := rfl
@[simp] theorem part_atTime (s : State) (t : Nat) (x : Nat) : part (atTime s t) x = part s x := rfl
@[simp] theorem part_emit (s : State) (o : Out) (x : Nat) : part (emit s o) x = part s x := rfl
@[simp] theorem part_setQueue (s : State) (q : Nat) (v : HQueue) (x : Nat) : part (setQueue s q v) x = part s x := rfl

/-! ### What leaves `pool` as it was -/

@[simp] theorem pool_odPut (s : State) (k : Nat) (v : OdVal) (x : Nat) : pool (odPut s k v) x = pool s x := rfl
@[simp] theorem pool_odSet (s : State) (k n : Nat) (x : Nat) : pool (odSet s k n) x = pool s x := rfl
@[simp] theorem pool_setDom (s : State) (d v : Nat) (x : Nat) : pool (setDom s d v) x = pool s x := rfl
@[simp] theorem pool_bump (s : State) (k n : Nat) (p : Option Nat) (x : Nat) : pool (bump s k n p) x = pool s x := by simp only [pool, bump_pools]
@[simp] theorem pool_setCon (s : State) (k : Nat) (c : Consist) (x : Nat) : pool (setCon s k c) x = pool s x := rfl
@[simp] theorem pool_modCon (s : State) (k : Nat) (f : Consist → Consist) (x : Nat) : pool (modCon s k f) x = pool s x := rfl
@[simp] theorem pool_setPart (s : State) (p : Nat) (q : Part) (x : Nat) : pool (setPart s p q) x = pool s x := rfl
@[simp] theorem pool_modPart (s : State) (p : Nat) (f : Part → Part) (x : Nat) : pool (modPart s p f) x = pool s x := rfl
@[simp] theorem pool_modStep (s : State) (p : Nat) (f : StepSt → StepSt) (x : Nat) : pool (modStep s p f) x = pool s x := rfl
@[simp] theorem pool_semSet (s : State) (i : Nat) (v : Sem) (x : Nat) : pool (semSet s i v) x = pool s x := rfl
@[simp] theorem pool_atTime (s : State) (t : Nat) (x : Nat) : pool (atTime s t) x = pool s x := rfl
@[simp] theorem pool_emit (s : State) (o : Out) (x : Nat) : pool (emit s o) x = pool s x := rfl
@[simp] theorem pool_setQueue (s : State) (q : Nat) (v : HQueue) (x : Nat) : pool (setQueue s q v) x = pool s x := rfl

/-! ### What leaves `semGet` as it was -/

@[simp] theorem semGet_odPut (s : State) (k : Nat) (v : OdVal) (x : Nat) : semGet (odPut s k v) x = semGet s x := rfl
@[simp] theorem semGet_odSet (s : State) (k n : Nat) (x : Nat) : semGet (odSet s k n) x = semGet s x := rfl
@[simp] theorem semGet_setDom (s : State) (d v : Nat) (x : Nat) : semGet (setDom s d v) x = semGet s x := rfl
@[simp] theorem semGet_bump (s : State) (k n : Nat) (p : Option Nat) (x : Nat) : semGet (bump s k n p) x = semGet s x := by simp only [semGet, bump_sems]
@[simp] theorem semGet_setCon (s : State) (k : Nat) (c : Consist) (x : Nat) : semGet (setCon s k c) x = semGet s x := rfl
@[simp] theorem semGet_modCon (s : State) (k : Nat) (f : Consist → Consist) (x : Nat) : semGet (modCon s k f) x = semGet s x := rfl
@[simp] theorem semGet_setPart (s : State) (p : Nat) (q : Part) (x : Nat) : semGet (setPart s p q) x = semGet s x := rfl
@[simp] theorem semGet_modPart (s : State) (p : Nat) (f : Part → Part) (x : Nat) : semGet (modPart s p f) x = semGet s x := rfl
@[simp] theorem semGet_modStep (s : State) (p : Nat) (f : StepSt → StepSt) (x : Nat) : semGet (modStep s p f) x = semGet s x := rfl
@[simp] theorem semGet_setPool (s : State) (d : Nat) (q : Pool) (x : Nat) : semGet (setPool s d q) x = semGet s x := rfl
@[simp] theorem semGet_atTime (s : State) (t : Nat) (x : Nat) : semGet (atTime s t) x = semGet s x := rfl
@[simp] theorem semGet_emit (s : State) (o : Out) (x : Nat) : semGet (emit s o) x = semGet s x := rfl
@[simp] theorem semGet_setQueue (s : State) (q : Nat) (v : HQueue) (x : Nat) : semGet (setQueue s q v) x = semGet s x := rfl

/-! ### What leaves `queue` as it was -/

@[simp] theorem queue_odPut (s : State) (k : Nat) (v : OdVal) (x : Nat) : queue (odPut s k v) x = queue s x := rfl
@[simp] theorem queue_odSet (s : State) (k n : Nat) (x : Nat) : queue (odSet s k n) x = queue s x := rfl
@[simp] theorem queue_setDom (s : State) (d v : Nat) (x : Nat) : queue (setDom s d v) x = queue s x := rfl
@[simp] theorem queue_bump (s : State) (k n : Nat) (p : Option Nat) (x : Nat) : queue (bump s k n p) x = queue s x := by simp only [queue, bump_queues]
@[simp] theorem queue_setCon (s : State) (k : Nat) (c : Consist) (x : Nat) : queue (setCon s k c) x = queue s x := rfl
@[simp] theorem queue_modCon (s : State) (k : Nat) (f : Consist → Consist) (x : Nat) : queue (modCon s k f) x = queue s x := rfl
@[simp] theorem queue_setPart (s : State) (p : Nat) (q : Part) (x : Nat) : queue (setPart s p q) x = queue s x := rfl
@[simp] theorem queue_modPart (s : State) (p : Nat) (f : Part → Part) (x : Nat) : queue (modPart s p f) x = queue s x := rfl
@[simp] theorem queue_modStep (s : State) (p : Nat) (f : StepSt → StepSt) (x : Nat) : queue (modStep s p f) x = queue s x := rfl
@[simp] theorem queue_setPool (s : State) (d : Nat) (q : Pool) (x : Nat) : queue (setPool s d q) x = queue s x := rfl
@[simp] theorem queue_semSet (s : State) (i : Nat) (v : Sem) (x : Nat) : queue (semSet s i v) x = queue s x := rfl
@[simp] theorem queue_atTime (s : State) (t : Nat) (x : Nat) : queue (atTime s t) x = queue s x := rfl
@[simp] theorem queue_emit (s : State) (o : Out) (x : Nat) : queue (emit s o) x = queue s x := rfl

/-! ### Posts (R141 to R143, R184) -/

/-- What a post leaves in the semaphore. -/
theorem post_seq (v : Sem) (st producer tick : Nat) : (v.post st producer tick).seq = (v.seq + 1) % 2 ^ 32 := rfl
theorem post_status (v : Sem) (st producer tick : Nat) : (v.post st producer tick).status = if errCode v.status then v.status else st := rfl

/-- A queue's post that passes the checks of R140 and R185 posts on its own semaphore and counts; no other semaphore changes. -/
theorem queuePost_ok {s : State} {k q i st : Nat} (h : (queuePost s k q i st).2 = .ok) :
    semGet (queuePost s k q i st).1 i = (semGet s i).post st (queueCode k q) (tickNow s) ∧
      ∀ x, x ≠ i → semGet (queuePost s k q i st).1 x = semGet s x := by
  unfold queuePost at h ⊢
  simp only at h ⊢
  split at h
  · cases h
  · split at h
    · cases h
    · rename_i a b
      simp only [a, b, if_false, semGet_bump, semGet_semSet_same, true_and]
      exact fun x hx => semGet_semSet_ne s _ hx

/-- A refused post changes no semaphore. -/
theorem queuePost_refused {s : State} {k q i st : Nat} (h : (queuePost s k q i st).2 ≠ .ok) :
    (queuePost s k q i st).1 = bump s kPostsRefused 1 (conPart s k) := by
  unfold queuePost at h ⊢
  simp only at h ⊢
  split
  · rfl
  · split
    · rfl
    · rename_i a b; simp [a, b] at h

/-- The guard of every meaning answers a next state exactly on well-formed operands. -/
theorem guardWf_eq {b : Bool} {s : State} : guardWf b s = if b then .next s else .refused .illFormed := rfl
@[simp] theorem guardWf_true (s : State) : guardWf true s = .next s := rfl
@[simp] theorem guardWf_false (s : State) : guardWf false s = .refused .illFormed := rfl

end Sys2Proof.Machine
end

