-- ==== Sys2Proof/Laws/Book.lean ====
section
/-! SUPPORT. Dictionary writes, said once: what the book's entry changes, what a taken write answers, what a write that is not taken
leaves alone. -/

namespace Sys2Proof.Machine

/-- The status of a write that reaches the book (R447, R451, R475): not ready while starting, denied before malformed. -/
def writeStatus (s : State) (key : Nat) (v : OdVal) (check : State → Status) : Status :=
  if starting s ∧ !bootWritable s key then .notReady
  else if check s = .denied then .denied else if !typeOk (keyTy key) v then .malformed else check s

/-- `t` differs from `s` at most in objects, counters and the book. -/
def Within (s t : State) : Prop := ∃ o c b, t = { s with od := o, ctr := c, book := b }

theorem Within.refl (s : State) : Within s s := ⟨_, _, _, rfl⟩
theorem Within.trans {s t u : State} (a : Within s t) (b : Within t u) : Within s u := by
  obtain ⟨o, c, k, rfl⟩ := a; obtain ⟨o', c', k', rfl⟩ := b; exact ⟨o', c', k', rfl⟩
theorem Within.eq {s t : State} (a : Within s t) : t = { s with od := t.od, ctr := t.ctr, book := t.book } := by
  obtain ⟨o, c, k, rfl⟩ := a; rfl
theorem within_odPut (s : State) (k : Nat) (v : OdVal) : Within s (odPut s k v) := ⟨_, _, _, rfl⟩
theorem within_odSet (s : State) (k n : Nat) : Within s (odSet s k n) := ⟨_, _, _, rfl⟩
theorem within_bump (s : State) (k n : Nat) (p : Option Nat) : Within s (bump s k n p) := ⟨s.od, _, s.book, bump_eq s k n p⟩

/-- The book's entry changes objects, counters and the book, and nothing else. -/
theorem within_appendEntry (s : State) (i : BookInfo) : Within s (appendEntry s i) := by
  unfold appendEntry
  generalize shake256 (entryBody s (nextSerial s) i) 32 = h
  refine Within.trans ?_ (within_bump _ _ _ _)
  split
  · exact .trans (.trans (.trans (.trans ⟨s.od, s.ctr, _, rfl⟩ (within_odPut _ _ _)) (within_odSet _ _ _)) (within_odSet _ _ _)) (within_bump _ _ _ _)
  · exact .trans (.trans ⟨s.od, s.ctr, _, rfl⟩ (within_odPut _ _ _)) (within_odSet _ _ _)

theorem appendEntry_eq (s : State) (i : BookInfo) :
    appendEntry s i = { s with od := (appendEntry s i).od, ctr := (appendEntry s i).ctr, book := (appendEntry s i).book } :=
  (within_appendEntry s i).eq

@[simp] theorem appendEntry_pending (s : State) (i : BookInfo) : (appendEntry s i).pending = s.pending := (congrArg State.pending (appendEntry_eq s i)).trans rfl
@[simp] theorem appendEntry_now (s : State) (i : BookInfo) : (appendEntry s i).now = s.now := (congrArg State.now (appendEntry_eq s i)).trans rfl
@[simp] theorem appendEntry_mem (s : State) (i : BookInfo) : (appendEntry s i).mem = s.mem := (congrArg State.mem (appendEntry_eq s i)).trans rfl
@[simp] theorem appendEntry_out (s : State) (i : BookInfo) : (appendEntry s i).out = s.out := (congrArg State.out (appendEntry_eq s i)).trans rfl
@[simp] theorem appendEntry_parts (s : State) (i : BookInfo) : (appendEntry s i).parts = s.parts := (congrArg State.parts (appendEntry_eq s i)).trans rfl
@[simp] theorem appendEntry_pow (s : State) (i : BookInfo) : (appendEntry s i).pow = s.pow := (congrArg State.pow (appendEntry_eq s i)).trans rfl
@[simp] theorem appendEntry_boot (s : State) (i : BookInfo) : (appendEntry s i).boot = s.boot := (congrArg State.boot (appendEntry_eq s i)).trans rfl
@[simp] theorem appendEntry_time (s : State) (i : BookInfo) : (appendEntry s i).time = s.time := (congrArg State.time (appendEntry_eq s i)).trans rfl
@[simp] theorem appendEntry_consists (s : State) (i : BookInfo) : (appendEntry s i).consists = s.consists := (congrArg State.consists (appendEntry_eq s i)).trans rfl
@[simp] theorem appendEntry_sems (s : State) (i : BookInfo) : (appendEntry s i).sems = s.sems := (congrArg State.sems (appendEntry_eq s i)).trans rfl
@[simp] theorem appendEntry_link (s : State) (i : BookInfo) : (appendEntry s i).link = s.link := (congrArg State.link (appendEntry_eq s i)).trans rfl
@[simp] theorem appendEntry_sec (s : State) (i : BookInfo) : (appendEntry s i).sec = s.sec := (congrArg State.sec (appendEntry_eq s i)).trans rfl

/-- The entry's objects are the book's own (R463, R466). -/
theorem odVal_appendEntry (s : State) (i : BookInfo) {k : Nat} (h : k ∉ bookKeys) : odVal (appendEntry s i) k = odVal s k := by
  simp only [bookKeys, List.mem_cons, List.not_mem_nil, or_false, not_or] at h
  obtain ⟨h1, h2, h3⟩ := h
  unfold appendEntry
  generalize shake256 (entryBody s (nextSerial s) i) 32 = h
  simp only [odVal_bump]
  split
  · rw [odVal_bump, odVal_odSet_ne _ _ h3, odVal_odSet_ne _ _ h1, odVal_odPut_ne _ _ h2]; rfl
  · rw [odVal_odSet_ne _ _ h1, odVal_odPut_ne _ _ h2]; rfl

theorem odN_appendEntry (s : State) (i : BookInfo) {k : Nat} (h : k ∉ bookKeys) : odN (appendEntry s i) k = odN s k := by
  simp only [odN, odVal_appendEntry s i h]

/-- The entry of a write, in the terms of the statements. -/
theorem odVal_entered (s : State) (w : Who) (k : Nat) (v : OdVal) {x : Nat} (h : x ∉ bookKeys) : odVal (entered s w k v) x = odVal s x :=
  odVal_appendEntry s _ h
theorem odN_entered (s : State) (w : Who) (k : Nat) (v : OdVal) {x : Nat} (h : x ∉ bookKeys) : odN (entered s w k v) x = odN s x :=
  odN_appendEntry s _ h
theorem entered_eq (s : State) (w : Who) (k : Nat) (v : OdVal) : entered s w k v =
    { s with od := (entered s w k v).od, ctr := (entered s w k v).ctr, book := (entered s w k v).book } := appendEntry_eq s _

/-- Where the signal box does not run there is no dictionary. -/
theorem dictWrite_down {s : State} {w : Who} {key : Nat} {v : OdVal} {check : State → Status} {take : State → State}
    (h : dictUp s = false) : dictWrite s w key v check take = s := by simp [dictWrite, h]

/-- A full book under `book_retain` refuses every write but the export mark's, without an entry (R466). -/
theorem dictWrite_full {s : State} {w : Who} {key : Nat} {v : OdVal} {check : State → Status} {take : State → State}
    (h : dictUp s = true) (hb : bookFull s 1024 = true) (hk : key ≠ kBookExportMark) :
    dictWrite s w key v check take = emit (bump s kBookFullRefusals 1 none) (.written key (stCode .capacity)) := by
  simp [dictWrite, h, hb, hk]

/-- The book's entry of a write of any status. -/
def enteredAs (s : State) (w : Who) (key : Nat) (v : OdVal) (st : Status) : State :=
  appendEntry s (writeInfo w key (valOctets (keyTy key) v) (if tyOctets (keyTy key) = 0 then 0 else leNat (valOctets (keyTy key) v)) st)

/-- A write that reaches the book is entered with its status; a denied or malformed one counts, and only status ok has an effect. -/
theorem dictWrite_entered {s : State} {w : Who} {key : Nat} {v : OdVal} {check : State → Status} {take : State → State} {st : Status}
    (h : dictUp s = true) (hb : ¬ (bookFull s 1024 = true ∧ key ≠ kBookExportMark)) (hst : writeStatus s key v check = st) :
    dictWrite s w key v check take =
      (let t := enteredAs s w key v st
       let t := if st = .denied ∨ st = .malformed then bump t kLmpRefused 1 none else t
       emit (if st = .ok then take t else t) (.written key (stCode st))) := by
  subst hst
  unfold dictWrite
  rw [if_neg (by simp [h]), if_neg hb]
  rfl

/-- A write whose checks hold is entered, takes effect and is answered. -/
theorem dictWrite_taken {s : State} {w : Who} {key : Nat} {v : OdVal} {check : State → Status} {take : State → State}
    (h : writeOpen s key v = true) (hc : check s = .ok) : dictWrite s w key v check take = answered (take (entered s w key v)) key := by
  simp only [writeOpen, Bool.and_eq_true, Bool.not_eq_true', Bool.or_eq_true] at h
  obtain ⟨⟨⟨hu, hb⟩, hs⟩, ht⟩ := h
  have hst : writeStatus s key v check = .ok := by
    unfold writeStatus
    rw [if_neg (by rcases hs with hs | hs <;> simp [hs]), hc, ht]; rfl
  rw [dictWrite_entered hu (by simp [hb]) hst]; rfl

/-- Setting the objects that a statement lists keeps the others. -/
theorem OdKept.refl (l : List Nat) (s : State) : OdKept l s s := fun _ _ => rfl
theorem OdKept.trans {l : List Nat} {s t u : State} (a : OdKept l s t) (b : OdKept l t u) : OdKept l s u :=
  fun k h => (b k h).trans (a k h)
theorem OdKept.mono {l m : List Nat} {s t : State} (a : OdKept l s t) (h : ∀ k ∈ l, k ∈ m) : OdKept m s t :=
  fun k hk => a k fun hl => hk (h k hl)
theorem odKept_odPut {l : List Nat} {k : Nat} (s : State) (v : OdVal) (h : k ∈ l) : OdKept l s (odPut s k v) :=
  fun _ hx => odVal_odPut_ne s v fun e => hx (e ▸ h)
theorem odKept_odSet {l : List Nat} {k : Nat} (s : State) (n : Nat) (h : k ∈ l) : OdKept l s (odSet s k n) := odKept_odPut s _ h
theorem odKept_bump (l : List Nat) (s : State) (k n : Nat) (p : Option Nat) : OdKept l s (bump s k n p) := fun _ _ => odVal_bump s k n p _
theorem odKept_entered (s : State) (w : Who) (k : Nat) (v : OdVal) : OdKept bookKeys s (entered s w k v) :=
  fun _ h => odVal_entered s w k v h

theorem CtrKept.refl (l : List Nat) (s : State) : CtrKept l s s := fun _ _ _ _ => rfl
theorem CtrKept.trans {l : List Nat} {s t u : State} (a : CtrKept l s t) (b : CtrKept l t u) : CtrKept l s u :=
  fun k v hv h => (b k v hv h).trans (a k v hv h)
theorem ctrKept_bump {l : List Nat} {k : Nat} (s : State) (n : Nat) (p : Option Nat) (hp : ∀ q, p = some q → q < 61) (h : k ∈ l) :
    CtrKept l s (bump s k n p) := fun _ w hw hx => ctrGet_bump_ne s n w p (fun e => hx (e ▸ h)) hw hp

end Sys2Proof.Machine
end

