-- ==== Sys2Proof/Laws/Hash.lean ====
section
/-! SUPPORT. Lengths of digests. -/

namespace Sys2Proof.Machine

theorem lset_length {α : Type} (l : List α) (i : Nat) (v : α) : (lset l i v).length = l.length := by
  induction l generalizing i with
  | nil => rfl
  | cons a r ih => cases i <;> simp [lset, ih]

theorem walkLanes_length (src : List Nat) (n x y : Nat) (dst : List Nat) : (walkLanes src n x y dst).length = dst.length := by
  induction n generalizing x y dst with
  | zero => rfl
  | succ n ih => rw [walkLanes, ih, lset_length]

theorem permute_length (n r : Nat) (ls : List Nat) : (permute n r ls).length = ls.length := by
  induction n generalizing r ls with
  | zero => rfl
  | succ n ih => simp [permute, ih, lset_length, mixRows, walkLanes_length, mixColumns]

theorem keccakAbsorbAll_length (n : Nat) (a : List Nat) (bs : List Byte) (h : a.length = 25) : (keccakAbsorbAll n a bs).length = 25 := by
  induction n generalizing a bs with
  | zero => exact h
  | succ n ih => exact ih _ _ (by simp [keccakAbsorb, keccakF, permute_length])

theorem flatMap_length_const {α β : Type} (f : α → List β) (c : Nat) (h : ∀ a, (f a).length = c) (l : List α) :
    (l.flatMap f).length = c * l.length := by
  induction l with
  | nil => simp
  | cons a r ih => simp [List.flatMap_cons, h, ih, Nat.mul_add, Nat.add_comm]

theorem keccakSqueeze_length (n : Nat) (a : List Nat) (h : a.length = 25) : (keccakSqueeze n a).length = 136 * n := by
  induction n generalizing a with
  | zero => rfl
  | succ n ih =>
    rw [keccakSqueeze, List.length_append, flatMap_length_const _ 8 (fun x => by simp [leBytes]), ih _ (by rw [keccakF, permute_length, h])]
    simp [h]
    omega

/-- A digest has the length asked for. -/
theorem shake256_length (bs : List Byte) (n : Nat) : (shake256 bs n).length = n := by
  rw [shake256]
  simp only [List.length_take]
  rw [keccakSqueeze_length _ _ (keccakAbsorbAll_length _ _ _ (by simp))]
  omega

end Sys2Proof.Machine
end

