-- ==== Sys2Proof/Laws/PerInstr.lean ====
section
/-! SUPPORT. For every command: a well-formed one names a consist and a partition that exist (R27, R416). One lemma for each
constructor. -/

namespace Sys2Proof.Laws.Family

/-- A well-formed command names only consists 0 to 39 and partitions 0 to 39. -/
def Statement (i : Instr) : Prop :=
  i.wf = true → (∀ k, i.consist? = some k → k < 40) ∧ ∀ p, i.part? = some p → p < 40

/-- What every verb carries names a consist that exists. -/
theorem hdr_consist {h : VerbHdr} (w : h.wf = true) : h.consist < 40 := by
  simp only [VerbHdr.wf, Bool.and_eq_true, decide_eq_true_eq] at w
  exact w.1.1.1

/-- No number is named. -/
theorem none_named {q : Nat → Prop} : ∀ k, (none : Option Nat) = some k → q k := nofun

/-- One number is named. -/
theorem one_named {n m : Nat} (h : n < m) : ∀ k, some n = some k → k < m := fun _ e => Option.some.inj e ▸ h

theorem mma (h : VerbHdr) (o : MmaOps) : Statement (.mma h o) := fun w => ⟨one_named (hdr_consist (w)), none_named⟩
theorem mmaSplit2 (h : VerbHdr) (o : MmaOps) : Statement (.mmaSplit2 h o) := fun w => ⟨one_named (hdr_consist (w)), none_named⟩
theorem mmaSplit3 (h : VerbHdr) (o : MmaOps) : Statement (.mmaSplit3 h o) := fun w => ⟨one_named (hdr_consist (w)), none_named⟩
theorem vrun (h : VerbHdr) (o : VrunOps) : Statement (.vrun h o) := fun w => ⟨one_named (hdr_consist (w)), none_named⟩
theorem stream (h : VerbHdr) (o : StreamOps) : Statement (.stream h o) := fun w => ⟨one_named (hdr_consist (w)), none_named⟩
theorem atomicAdd (h : VerbHdr) (o : StreamOps) : Statement (.atomicAdd h o) := fun w => ⟨one_named (hdr_consist (w)), none_named⟩
theorem post (h : VerbHdr) (sem : Nat) : Statement (.post h sem) := fun w => ⟨one_named (hdr_consist (((Bool.and_eq_true _ _).mp (show (h.wf && decide (sem < 65536)) = true from w)).1)), none_named⟩
theorem wait (h : VerbHdr) : Statement (.wait h) := fun w => ⟨one_named (hdr_consist (w)), none_named⟩
theorem signalArrive (h : VerbHdr) (sem : Nat) (count : Nat) : Statement (.signalArrive h sem count) := fun w => ⟨one_named (hdr_consist (((Bool.and_eq_true _ _).mp (show (h.wf && decide (sem < 65536 ∧ count < 2 ^ 32)) = true from w)).1)), none_named⟩
theorem semReset (h : VerbHdr) (sem : Nat) (count : Nat) : Statement (.semReset h sem count) := fun w => ⟨one_named (hdr_consist (((Bool.and_eq_true _ _).mp (show (h.wf && decide (sem < 65536 ∧ count < 2 ^ 32)) = true from w)).1)), none_named⟩
theorem scaleAdjustShift (h : VerbHdr) (noun : Nat) (amount : Int) : Statement (.scaleAdjustShift h noun amount) := fun w => ⟨one_named (hdr_consist (w)), none_named⟩
theorem scaleAdjustFresh (h : VerbHdr) (noun : Nat) : Statement (.scaleAdjustFresh h noun) := fun w => ⟨one_named (hdr_consist (w)), none_named⟩
theorem scaleAdjustApply (h : VerbHdr) (noun : Nat) : Statement (.scaleAdjustApply h noun) := fun w => ⟨one_named (hdr_consist (w)), none_named⟩
theorem loopBegin (h : VerbHdr) (slot : Nat) : Statement (.loopBegin h slot) := fun w => ⟨one_named (hdr_consist (w)), none_named⟩
theorem loopEnd (h : VerbHdr) : Statement (.loopEnd h) := fun w => ⟨one_named (hdr_consist (w)), none_named⟩
theorem slotWrite (h : VerbHdr) (addr : Nat) (slot : Nat) : Statement (.slotWrite h addr slot) := fun w => ⟨one_named (hdr_consist (w)), none_named⟩
theorem nounSet (h : VerbHdr) (handle : Nat) (addr : Nat) (image : Noun) : Statement (.nounSet h handle addr image) := fun w => ⟨one_named (hdr_consist (w)), none_named⟩
theorem slotMark (h : VerbHdr) (o : MarkOps) : Statement (.slotMark h o) := fun w => ⟨one_named (hdr_consist (((Bool.and_eq_true _ _).mp (show (h.wf && decide (o.slot < 65536 ∧ o.offset < 65536)) = true from w)).1)), none_named⟩
theorem nop (h : VerbHdr) : Statement (.nop h) := fun w => ⟨one_named (hdr_consist (w)), none_named⟩
theorem halt (h : VerbHdr) : Statement (.halt h) := fun w => ⟨one_named (hdr_consist (w)), none_named⟩
theorem verbIssue (k : Nat) (core : Nat) (cycles : Nat) : Statement (.verbIssue k core cycles) := by
  intro w
  have w : (decide (k < 40 ∧ core < 20)) = true := w
  simp only [decide_eq_true_eq] at w
  exact ⟨one_named (by omega), none_named⟩
theorem verbTokenPost (k : Nat) (vi : Nat) : Statement (.verbTokenPost k vi) := by
  intro w
  have w : (decide (k < 40)) = true := w
  simp only [decide_eq_true_eq] at w
  exact ⟨one_named (by omega), none_named⟩
theorem broadcastResume (k : Nat) (cycles : Nat) : Statement (.broadcastResume k cycles) := by
  intro w
  have w : (decide (k < 40)) = true := w
  simp only [decide_eq_true_eq] at w
  exact ⟨one_named (by omega), none_named⟩
theorem controlVerbRelease (k : Nat) : Statement (.controlVerbRelease k) := by
  intro w
  have w : (decide (k < 40)) = true := w
  simp only [decide_eq_true_eq] at w
  exact ⟨one_named (by omega), none_named⟩
theorem allReduce (h : VerbHdr) (c : CallOps) : Statement (.allReduce h c) := fun w => ⟨one_named (hdr_consist (((Bool.and_eq_true _ _).mp (show (h.wf && decide (c.baseSem < 65536)) = true from w)).1)), none_named⟩
theorem allReduceFree (h : VerbHdr) (c : CallOps) : Statement (.allReduceFree h c) := fun w => ⟨one_named (hdr_consist (((Bool.and_eq_true _ _).mp (show (h.wf && decide (c.baseSem < 65536)) = true from w)).1)), none_named⟩
theorem reduceScatter (h : VerbHdr) (c : CallOps) : Statement (.reduceScatter h c) := fun w => ⟨one_named (hdr_consist (((Bool.and_eq_true _ _).mp (show (h.wf && decide (c.baseSem < 65536)) = true from w)).1)), none_named⟩
theorem allGather (h : VerbHdr) (c : CallOps) : Statement (.allGather h c) := fun w => ⟨one_named (hdr_consist (((Bool.and_eq_true _ _).mp (show (h.wf && decide (c.baseSem < 65536)) = true from w)).1)), none_named⟩
theorem broadcast (h : VerbHdr) (c : CallOps) : Statement (.broadcast h c) := fun w => ⟨one_named (hdr_consist (((Bool.and_eq_true _ _).mp (show (h.wf && decide (c.baseSem < 65536)) = true from w)).1)), none_named⟩
theorem reduceToRoot (h : VerbHdr) (c : CallOps) : Statement (.reduceToRoot h c) := fun w => ⟨one_named (hdr_consist (((Bool.and_eq_true _ _).mp (show (h.wf && decide (c.baseSem < 65536)) = true from w)).1)), none_named⟩
theorem allToAll (h : VerbHdr) (c : CallOps) : Statement (.allToAll h c) := fun w => ⟨one_named (hdr_consist (((Bool.and_eq_true _ _).mp (show (h.wf && decide (c.baseSem < 65536)) = true from w)).1)), none_named⟩
theorem maxReduce (h : VerbHdr) (c : CallOps) : Statement (.maxReduce h c) := fun w => ⟨one_named (hdr_consist (((Bool.and_eq_true _ _).mp (show (h.wf && decide (c.baseSem < 65536)) = true from w)).1)), none_named⟩
theorem clusterBarrier (h : VerbHdr) (c : CallOps) : Statement (.clusterBarrier h c) := fun w => ⟨one_named (hdr_consist (((Bool.and_eq_true _ _).mp (show (h.wf && decide (c.baseSem < 65536)) = true from w)).1)), none_named⟩
theorem gatherLayer (h : VerbHdr) (c : CallOps) : Statement (.gatherLayer h c) := fun w => ⟨one_named (hdr_consist (((Bool.and_eq_true _ _).mp (show (h.wf && decide (c.baseSem < 65536)) = true from w)).1)), none_named⟩
theorem dropLayer (h : VerbHdr) (c : CallOps) : Statement (.dropLayer h c) := fun w => ⟨one_named (hdr_consist (((Bool.and_eq_true _ _).mp (show (h.wf && decide (c.baseSem < 65536)) = true from w)).1)), none_named⟩
theorem sendActivations (h : VerbHdr) (c : CallOps) : Statement (.sendActivations h c) := fun w => ⟨one_named (hdr_consist (((Bool.and_eq_true _ _).mp (show (h.wf && decide (c.baseSem < 65536)) = true from w)).1)), none_named⟩
theorem recvActivations (h : VerbHdr) (c : CallOps) : Statement (.recvActivations h c) := fun w => ⟨one_named (hdr_consist (((Bool.and_eq_true _ _).mp (show (h.wf && decide (c.baseSem < 65536)) = true from w)).1)), none_named⟩
theorem ringExchange (h : VerbHdr) (c : CallOps) : Statement (.ringExchange h c) := fun w => ⟨one_named (hdr_consist (((Bool.and_eq_true _ _).mp (show (h.wf && decide (c.baseSem < 65536)) = true from w)).1)), none_named⟩
theorem statMergeAll (h : VerbHdr) (c : CallOps) : Statement (.statMergeAll h c) := fun w => ⟨one_named (hdr_consist (((Bool.and_eq_true _ _).mp (show (h.wf && decide (c.baseSem < 65536)) = true from w)).1)), none_named⟩
theorem pointsChange (h : VerbHdr) (c : CallOps) : Statement (.pointsChange h c) := fun w => ⟨one_named (hdr_consist (((Bool.and_eq_true _ _).mp (show (h.wf && decide (c.baseSem < 65536)) = true from w)).1)), none_named⟩
theorem statMerge (h : VerbHdr) (c : CallOps) : Statement (.statMerge h c) := fun w => ⟨one_named (hdr_consist (((Bool.and_eq_true _ _).mp (show (h.wf && decide (c.baseSem < 65536)) = true from w)).1)), none_named⟩
theorem softmaxRows (h : VerbHdr) (c : CallOps) : Statement (.softmaxRows h c) := fun w => ⟨one_named (hdr_consist (((Bool.and_eq_true _ _).mp (show (h.wf && decide (c.baseSem < 65536)) = true from w)).1)), none_named⟩
theorem layerNorm (h : VerbHdr) (c : CallOps) : Statement (.layerNorm h c) := fun w => ⟨one_named (hdr_consist (((Bool.and_eq_true _ _).mp (show (h.wf && decide (c.baseSem < 65536)) = true from w)).1)), none_named⟩
theorem rmsNorm (h : VerbHdr) (c : CallOps) : Statement (.rmsNorm h c) := fun w => ⟨one_named (hdr_consist (((Bool.and_eq_true _ _).mp (show (h.wf && decide (c.baseSem < 65536)) = true from w)).1)), none_named⟩
theorem gelu (h : VerbHdr) (c : CallOps) : Statement (.gelu h c) := fun w => ⟨one_named (hdr_consist (((Bool.and_eq_true _ _).mp (show (h.wf && decide (c.baseSem < 65536)) = true from w)).1)), none_named⟩
theorem siluGate (h : VerbHdr) (c : CallOps) : Statement (.siluGate h c) := fun w => ⟨one_named (hdr_consist (((Bool.and_eq_true _ _).mp (show (h.wf && decide (c.baseSem < 65536)) = true from w)).1)), none_named⟩
theorem rotaryEmbed (h : VerbHdr) (c : CallOps) : Statement (.rotaryEmbed h c) := fun w => ⟨one_named (hdr_consist (((Bool.and_eq_true _ _).mp (show (h.wf && decide (c.baseSem < 65536)) = true from w)).1)), none_named⟩
theorem dropoutMask (h : VerbHdr) (c : CallOps) : Statement (.dropoutMask h c) := fun w => ⟨one_named (hdr_consist (((Bool.and_eq_true _ _).mp (show (h.wf && decide (c.baseSem < 65536)) = true from w)).1)), none_named⟩
theorem crossEntropy (h : VerbHdr) (c : CallOps) : Statement (.crossEntropy h c) := fun w => ⟨one_named (hdr_consist (((Bool.and_eq_true _ _).mp (show (h.wf && decide (c.baseSem < 65536)) = true from w)).1)), none_named⟩
theorem lossSubmit (h : VerbHdr) (c : CallOps) : Statement (.lossSubmit h c) := fun w => ⟨one_named (hdr_consist (((Bool.and_eq_true _ _).mp (show (h.wf && decide (c.baseSem < 65536)) = true from w)).1)), none_named⟩
theorem gradNorm (h : VerbHdr) (c : CallOps) : Statement (.gradNorm h c) := fun w => ⟨one_named (hdr_consist (((Bool.and_eq_true _ _).mp (show (h.wf && decide (c.baseSem < 65536)) = true from w)).1)), none_named⟩
theorem gradClip (h : VerbHdr) (c : CallOps) : Statement (.gradClip h c) := fun w => ⟨one_named (hdr_consist (((Bool.and_eq_true _ _).mp (show (h.wf && decide (c.baseSem < 65536)) = true from w)).1)), none_named⟩
theorem scaleLayer (h : VerbHdr) (c : CallOps) : Statement (.scaleLayer h c) := fun w => ⟨one_named (hdr_consist (((Bool.and_eq_true _ _).mp (show (h.wf && decide (c.baseSem < 65536)) = true from w)).1)), none_named⟩
theorem histogramClear (h : VerbHdr) (c : CallOps) : Statement (.histogramClear h c) := fun w => ⟨one_named (hdr_consist (((Bool.and_eq_true _ _).mp (show (h.wf && decide (c.baseSem < 65536)) = true from w)).1)), none_named⟩
theorem convert (h : VerbHdr) (c : CallOps) : Statement (.convert h c) := fun w => ⟨one_named (hdr_consist (((Bool.and_eq_true _ _).mp (show (h.wf && decide (c.baseSem < 65536)) = true from w)).1)), none_named⟩
theorem transpose (h : VerbHdr) (c : CallOps) : Statement (.transpose h c) := fun w => ⟨one_named (hdr_consist (((Bool.and_eq_true _ _).mp (show (h.wf && decide (c.baseSem < 65536)) = true from w)).1)), none_named⟩
theorem fill (h : VerbHdr) (c : CallOps) : Statement (.fill h c) := fun w => ⟨one_named (hdr_consist (((Bool.and_eq_true _ _).mp (show (h.wf && decide (c.baseSem < 65536)) = true from w)).1)), none_named⟩
theorem copy (h : VerbHdr) (c : CallOps) : Statement (.copy h c) := fun w => ⟨one_named (hdr_consist (((Bool.and_eq_true _ _).mp (show (h.wf && decide (c.baseSem < 65536)) = true from w)).1)), none_named⟩
theorem gatherRows (h : VerbHdr) (c : CallOps) : Statement (.gatherRows h c) := fun w => ⟨one_named (hdr_consist (((Bool.and_eq_true _ _).mp (show (h.wf && decide (c.baseSem < 65536)) = true from w)).1)), none_named⟩
theorem scatterAddRows (h : VerbHdr) (c : CallOps) : Statement (.scatterAddRows h c) := fun w => ⟨one_named (hdr_consist (((Bool.and_eq_true _ _).mp (show (h.wf && decide (c.baseSem < 65536)) = true from w)).1)), none_named⟩
theorem spillToNear (h : VerbHdr) (c : CallOps) : Statement (.spillToNear h c) := fun w => ⟨one_named (hdr_consist (((Bool.and_eq_true _ _).mp (show (h.wf && decide (c.baseSem < 65536)) = true from w)).1)), none_named⟩
theorem resumeFromNear (h : VerbHdr) (c : CallOps) : Statement (.resumeFromNear h c) := fun w => ⟨one_named (hdr_consist (((Bool.and_eq_true _ _).mp (show (h.wf && decide (c.baseSem < 65536)) = true from w)).1)), none_named⟩
theorem prefetchLayer (h : VerbHdr) (c : CallOps) : Statement (.prefetchLayer h c) := fun w => ⟨one_named (hdr_consist (((Bool.and_eq_true _ _).mp (show (h.wf && decide (c.baseSem < 65536)) = true from w)).1)), none_named⟩
theorem checkpointWrite (h : VerbHdr) (c : CallOps) : Statement (.checkpointWrite h c) := fun w => ⟨one_named (hdr_consist (((Bool.and_eq_true _ _).mp (show (h.wf && decide (c.baseSem < 65536)) = true from w)).1)), none_named⟩
theorem checkpointRead (h : VerbHdr) (c : CallOps) : Statement (.checkpointRead h c) := fun w => ⟨one_named (hdr_consist (((Bool.and_eq_true _ _).mp (show (h.wf && decide (c.baseSem < 65536)) = true from w)).1)), none_named⟩
theorem datasetRead (h : VerbHdr) (c : CallOps) : Statement (.datasetRead h c) := fun w => ⟨one_named (hdr_consist (((Bool.and_eq_true _ _).mp (show (h.wf && decide (c.baseSem < 65536)) = true from w)).1)), none_named⟩
theorem windowRegister (h : VerbHdr) (c : CallOps) : Statement (.windowRegister h c) := fun w => ⟨one_named (hdr_consist (((Bool.and_eq_true _ _).mp (show (h.wf && decide (c.baseSem < 65536)) = true from w)).1)), none_named⟩
theorem windowRelease (h : VerbHdr) (c : CallOps) : Statement (.windowRelease h c) := fun w => ⟨one_named (hdr_consist (((Bool.and_eq_true _ _).mp (show (h.wf && decide (c.baseSem < 65536)) = true from w)).1)), none_named⟩
theorem updateAdamw (h : VerbHdr) (c : CallOps) : Statement (.updateAdamw h c) := fun w => ⟨one_named (hdr_consist (((Bool.and_eq_true _ _).mp (show (h.wf && decide (c.baseSem < 65536)) = true from w)).1)), none_named⟩
theorem updateAdamL2 (h : VerbHdr) (c : CallOps) : Statement (.updateAdamL2 h c) := fun w => ⟨one_named (hdr_consist (((Bool.and_eq_true _ _).mp (show (h.wf && decide (c.baseSem < 65536)) = true from w)).1)), none_named⟩
theorem updateSgdMomentum (h : VerbHdr) (c : CallOps) : Statement (.updateSgdMomentum h c) := fun w => ⟨one_named (hdr_consist (((Bool.and_eq_true _ _).mp (show (h.wf && decide (c.baseSem < 65536)) = true from w)).1)), none_named⟩
theorem updateCustom (h : VerbHdr) (c : CallOps) : Statement (.updateCustom h c) := fun w => ⟨one_named (hdr_consist (((Bool.and_eq_true _ _).mp (show (h.wf && decide (c.baseSem < 65536)) = true from w)).1)), none_named⟩
theorem updateShardCheck (p : Nat) (shard : Nat) : Statement (.updateShardCheck p shard) := by
  intro w
  have w : (decide (p < 40)) = true := w
  simp only [decide_eq_true_eq] at w
  exact ⟨none_named, one_named (by omega)⟩
theorem stepVote (h : VerbHdr) (c : CallOps) : Statement (.stepVote h c) := fun w => ⟨one_named (hdr_consist (((Bool.and_eq_true _ _).mp (show (h.wf && decide (c.baseSem < 65536)) = true from w)).1)), none_named⟩
theorem stepCounterRead (h : VerbHdr) (c : CallOps) : Statement (.stepCounterRead h c) := fun w => ⟨one_named (hdr_consist (((Bool.and_eq_true _ _).mp (show (h.wf && decide (c.baseSem < 65536)) = true from w)).1)), none_named⟩
theorem freezeSet (h : VerbHdr) (c : CallOps) : Statement (.freezeSet h c) := fun w => ⟨one_named (hdr_consist (((Bool.and_eq_true _ _).mp (show (h.wf && decide (c.baseSem < 65536)) = true from w)).1)), none_named⟩
theorem layerScaleSet (h : VerbHdr) (c : CallOps) : Statement (.layerScaleSet h c) := fun w => ⟨one_named (hdr_consist (((Bool.and_eq_true _ _).mp (show (h.wf && decide (c.baseSem < 65536)) = true from w)).1)), none_named⟩
theorem sidingPark (h : VerbHdr) (o : ParkOps) : Statement (.sidingPark h o) := fun w => ⟨one_named (hdr_consist (w)), none_named⟩
theorem sidingDrain (h : VerbHdr) : Statement (.sidingDrain h) := fun w => ⟨one_named (hdr_consist (w)), none_named⟩
theorem attentionFwd (h : VerbHdr) (c : CallOps) : Statement (.attentionFwd h c) := fun w => ⟨one_named (hdr_consist (((Bool.and_eq_true _ _).mp (show (h.wf && decide (c.baseSem < 65536)) = true from w)).1)), none_named⟩
theorem attentionBwd (h : VerbHdr) (c : CallOps) : Statement (.attentionBwd h c) := fun w => ⟨one_named (hdr_consist (((Bool.and_eq_true _ _).mp (show (h.wf && decide (c.baseSem < 65536)) = true from w)).1)), none_named⟩
theorem causalMask (h : VerbHdr) (c : CallOps) : Statement (.causalMask h c) := fun w => ⟨one_named (hdr_consist (((Bool.and_eq_true _ _).mp (show (h.wf && decide (c.baseSem < 65536)) = true from w)).1)), none_named⟩
theorem attentionMerge (h : VerbHdr) (c : CallOps) : Statement (.attentionMerge h c) := fun w => ⟨one_named (hdr_consist (((Bool.and_eq_true _ _).mp (show (h.wf && decide (c.baseSem < 65536)) = true from w)).1)), none_named⟩
theorem matmulBias (h : VerbHdr) (c : CallOps) : Statement (.matmulBias h c) := fun w => ⟨one_named (hdr_consist (((Bool.and_eq_true _ _).mp (show (h.wf && decide (c.baseSem < 65536)) = true from w)).1)), none_named⟩
theorem matmulFp32 (h : VerbHdr) (c : CallOps) : Statement (.matmulFp32 h c) := fun w => ⟨one_named (hdr_consist (((Bool.and_eq_true _ _).mp (show (h.wf && decide (c.baseSem < 65536)) = true from w)).1)), none_named⟩
theorem topkRoute (h : VerbHdr) (c : CallOps) : Statement (.topkRoute h c) := fun w => ⟨one_named (hdr_consist (((Bool.and_eq_true _ _).mp (show (h.wf && decide (c.baseSem < 65536)) = true from w)).1)), none_named⟩
theorem expertDispatch (h : VerbHdr) (c : CallOps) : Statement (.expertDispatch h c) := fun w => ⟨one_named (hdr_consist (((Bool.and_eq_true _ _).mp (show (h.wf && decide (c.baseSem < 65536)) = true from w)).1)), none_named⟩
theorem expertCombine (h : VerbHdr) (c : CallOps) : Statement (.expertCombine h c) := fun w => ⟨one_named (hdr_consist (((Bool.and_eq_true _ _).mp (show (h.wf && decide (c.baseSem < 65536)) = true from w)).1)), none_named⟩
theorem selfTest (h : VerbHdr) (c : CallOps) : Statement (.selfTest h c) := fun w => ⟨one_named (hdr_consist (((Bool.and_eq_true _ _).mp (show (h.wf && decide (c.baseSem < 65536)) = true from w)).1)), none_named⟩
theorem sidingEntryStart (k : Nat) (idle : Nat) (left : Nat) : Statement (.sidingEntryStart k idle left) := by
  intro w
  have w : (decide (k < 40)) = true := w
  simp only [decide_eq_true_eq] at w
  exact ⟨one_named (by omega), none_named⟩
theorem tickBoundary (t : Nat) (draws : List Nat) : Statement (.tickBoundary t draws) := fun _ => ⟨none_named, none_named⟩
theorem tickChange : Statement (.tickChange) := fun _ => ⟨none_named, none_named⟩
theorem tickChangeAtWrite (who : Who) (v : Nat) : Statement (.tickChangeAtWrite who v) := fun _ => ⟨none_named, none_named⟩
theorem tickEpochWrite (who : Who) (v : Nat) : Statement (.tickEpochWrite who v) := fun _ => ⟨none_named, none_named⟩
theorem slotStart (k : Nat) : Statement (.slotStart k) := by
  intro w
  have w : (decide (k < 40)) = true := w
  simp only [decide_eq_true_eq] at w
  exact ⟨one_named (by omega), none_named⟩
theorem slotComplete (k : Nat) (busy : Nat) (wait : Nat) : Statement (.slotComplete k busy wait) := by
  intro w
  have w : (decide (k < 40)) = true := w
  simp only [decide_eq_true_eq] at w
  exact ⟨one_named (by omega), none_named⟩
theorem deadlockSearch : Statement (.deadlockSearch) := fun _ => ⟨none_named, none_named⟩
theorem ptpSyncRx (m : PtpMsg) : Statement (.ptpSyncRx m) := fun _ => ⟨none_named, none_named⟩
theorem ptpFollowUpRx (m : PtpMsg) : Statement (.ptpFollowUpRx m) := fun _ => ⟨none_named, none_named⟩
theorem ptpAnnounceRx (m : PtpAnnounce) : Statement (.ptpAnnounceRx m) := fun _ => ⟨none_named, none_named⟩
theorem ptpDelayReqTx (t : Nat) : Statement (.ptpDelayReqTx t) := fun _ => ⟨none_named, none_named⟩
theorem ptpDelayRespRx (m : PtpMsg) : Statement (.ptpDelayRespRx m) := fun _ => ⟨none_named, none_named⟩
theorem ptpSyncTimeout (t : Nat) : Statement (.ptpSyncTimeout t) := fun _ => ⟨none_named, none_named⟩
theorem alignmentRegain (t : Nat) : Statement (.alignmentRegain t) := fun _ => ⟨none_named, none_named⟩
theorem timeStep (t : Nat) : Statement (.timeStep t) := fun _ => ⟨none_named, none_named⟩
theorem granuleScrub (tier : ScrubTier) (g : Nat) : Statement (.granuleScrub tier g) := fun _ => ⟨none_named, none_named⟩
theorem granuleScrubEnd (tier : ScrubTier) (g : Nat) : Statement (.granuleScrubEnd tier g) := fun _ => ⟨none_named, none_named⟩
theorem patrolRead (addr : Nat) (ecc : Ecc) : Statement (.patrolRead addr ecc) := fun _ => ⟨none_named, none_named⟩
theorem blockDispatch (die : Nat) (ecc : Ecc) : Statement (.blockDispatch die ecc) := fun _ => ⟨none_named, none_named⟩
theorem blockComplete (die : Nat) (id : Nat) (receivers : List Nat) : Statement (.blockComplete die id receivers) := fun _ => ⟨none_named, none_named⟩
theorem multicastUncouple : Statement (.multicastUncouple) := fun _ => ⟨none_named, none_named⟩
theorem depotWriteResume (channel : Nat) : Statement (.depotWriteResume channel) := fun _ => ⟨none_named, none_named⟩
theorem depotBackgroundOp (op : DepotBg) (us : Nat) (t : Nat) : Statement (.depotBackgroundOp op us t) := fun _ => ⟨none_named, none_named⟩
theorem depotDisturbRefresh (block : Nat) : Statement (.depotDisturbRefresh block) := fun _ => ⟨none_named, none_named⟩
theorem depotAgeRefresh (block : Nat) : Statement (.depotAgeRefresh block) := fun _ => ⟨none_named, none_named⟩
theorem depotPreserveSet (who : Who) (q : Nat) : Statement (.depotPreserveSet who q) := fun _ => ⟨none_named, none_named⟩
theorem depotPreserveClear (who : Who) (q : Nat) : Statement (.depotPreserveClear who q) := fun _ => ⟨none_named, none_named⟩
theorem layerTableAddrWrite (who : Who) (p : Nat) (addr : Nat) : Statement (.layerTableAddrWrite who p addr) := by
  intro w
  have w : (decide (p < 40 ∧ addr < 2 ^ 64)) = true := w
  simp only [decide_eq_true_eq] at w
  exact ⟨none_named, one_named (by omega)⟩
theorem voteRx (f : HrtFrame) : Statement (.voteRx f) := by
  intro w
  have w : (f.wf && decide (f.hdr.opcode = 3 ∧ f.hdr.code = 0x10)) = true := w
  simp only [HrtFrame.wf, Bool.and_eq_true, decide_eq_true_eq] at w
  exact ⟨none_named, one_named (by omega)⟩
theorem stepWaitExpiry (p : Nat) : Statement (.stepWaitExpiry p) := by
  intro w
  have w : (decide (p < 40)) = true := w
  simp only [decide_eq_true_eq] at w
  exact ⟨none_named, one_named (by omega)⟩
theorem decisionRx (f : HrtFrame) : Statement (.decisionRx f) := by
  intro w
  have w : (f.wf && decide (f.hdr.opcode = 3 ∧ f.hdr.code = 0x11)) = true := w
  simp only [HrtFrame.wf, Bool.and_eq_true, decide_eq_true_eq] at w
  exact ⟨none_named, one_named (by omega)⟩
theorem decisionApply (p : Nat) : Statement (.decisionApply p) := by
  intro w
  have w : (decide (p < 40)) = true := w
  simp only [decide_eq_true_eq] at w
  exact ⟨none_named, one_named (by omega)⟩
theorem inflectorWalkEnd (k : Nat) (handle : Nat) : Statement (.inflectorWalkEnd k handle) := by
  intro w
  have w : (decide (k < 40 ∧ handle < 4096)) = true := w
  simp only [decide_eq_true_eq] at w
  exact ⟨one_named (by omega), none_named⟩
theorem shardApplyEnd (p : Nat) (shard : Nat) (ecc : Ecc) : Statement (.shardApplyEnd p shard ecc) := by
  intro w
  have w : (decide (p < 40)) = true := w
  simp only [decide_eq_true_eq] at w
  exact ⟨none_named, one_named (by omega)⟩
theorem inDoubtEntry (p : Nat) : Statement (.inDoubtEntry p) := by
  intro w
  have w : (decide (p < 40)) = true := w
  simp only [decide_eq_true_eq] at w
  exact ⟨none_named, one_named (by omega)⟩
theorem inDoubtResolve (who : Who) (p : Nat) (v : Nat) : Statement (.inDoubtResolve who p v) := by
  intro w
  have w : (decide (p < 40)) = true := w
  simp only [decide_eq_true_eq] at w
  exact ⟨none_named, one_named (by omega)⟩
theorem holdDecision (who : Who) (p : Nat) (v : Nat) : Statement (.holdDecision who p v) := by
  intro w
  have w : (decide (p < 40)) = true := w
  simp only [decide_eq_true_eq] at w
  exact ⟨none_named, one_named (by omega)⟩
theorem revisedVoteRx (f : HrtFrame) : Statement (.revisedVoteRx f) := by
  intro w
  have w : (f.wf && decide (f.hdr.opcode = 3 ∧ f.hdr.code = 0x12)) = true := w
  simp only [HrtFrame.wf, Bool.and_eq_true, decide_eq_true_eq] at w
  exact ⟨none_named, one_named (by omega)⟩
theorem rollback (p : Nat) : Statement (.rollback p) := by
  intro w
  have w : (decide (p < 40)) = true := w
  simp only [decide_eq_true_eq] at w
  exact ⟨none_named, one_named (by omega)⟩
theorem jobMapAddrWrite (who : Who) (p : Nat) (addr : Nat) : Statement (.jobMapAddrWrite who p addr) := by
  intro w
  have w : (decide (p < 40 ∧ addr < 2 ^ 64)) = true := w
  simp only [decide_eq_true_eq] at w
  exact ⟨none_named, one_named (by omega)⟩
theorem pointsSwap (p : Nat) : Statement (.pointsSwap p) := by
  intro w
  have w : (decide (p < 40)) = true := w
  simp only [decide_eq_true_eq] at w
  exact ⟨none_named, one_named (by omega)⟩
theorem pathShadowLoad (who : Who) (p : Nat) (addr : Nat) : Statement (.pathShadowLoad who p addr) := by
  intro w
  have w : (decide (p < 40 ∧ addr < 2 ^ 64)) = true := w
  simp only [decide_eq_true_eq] at w
  exact ⟨none_named, one_named (by omega)⟩
theorem frameRx (n : Nat) (f : RxFrame) : Statement (.frameRx n f) := fun _ => ⟨none_named, none_named⟩
theorem frameTx (n : Nat) (t : Nat) : Statement (.frameTx n t) := fun _ => ⟨none_named, none_named⟩
theorem pauseRx (n : Nat) (quanta : Nat) : Statement (.pauseRx n quanta) := fun _ => ⟨none_named, none_named⟩
theorem pfcRx (n : Nat) (classes : Nat) (quanta : List Nat) : Statement (.pfcRx n classes quanta) := fun _ => ⟨none_named, none_named⟩
theorem pauseRefresh (n : Nat) (shared : Nat) (reserved : Nat) : Statement (.pauseRefresh n shared reserved) := fun _ => ⟨none_named, none_named⟩
theorem pauseQuantaExpiry (n : Nat) : Statement (.pauseQuantaExpiry n) := fun _ => ⟨none_named, none_named⟩
theorem linkDown (n : Nat) : Statement (.linkDown n) := fun _ => ⟨none_named, none_named⟩
theorem linkUp (n : Nat) : Statement (.linkUp n) := fun _ => ⟨none_named, none_named⟩
theorem cageModeWrite (who : Who) (v : Nat) : Statement (.cageModeWrite who v) := fun _ => ⟨none_named, none_named⟩
theorem vidWrite (who : Who) (p : Nat) (v : Nat) : Statement (.vidWrite who p v) := by
  intro w
  have w : (decide (p < 40 ∧ v < 65536)) = true := w
  simp only [decide_eq_true_eq] at w
  exact ⟨none_named, one_named (by omega)⟩
theorem portMapWrite (who : Who) (p : Nat) (v : Nat) : Statement (.portMapWrite who p v) := by
  intro w
  have w : (decide (p < 40 ∧ v < 256)) = true := w
  simp only [decide_eq_true_eq] at w
  exact ⟨none_named, one_named (by omega)⟩
theorem portEnableWrite (who : Who) (n : Nat) (v : Nat) : Statement (.portEnableWrite who n v) := fun _ => ⟨none_named, none_named⟩
theorem keyOfferRx (o : KeyOffer) : Statement (.keyOfferRx o) := by
  intro w
  have w : o.frame.keyWf 1 = true := w
  simp only [HrtFrame.keyWf, HrtFrame.wf, Bool.and_eq_true, decide_eq_true_eq] at w
  exact ⟨none_named, one_named w.1.1.1.1⟩
theorem keyAcceptRx (o : KeyAccept) : Statement (.keyAcceptRx o) := by
  intro w
  have w : o.frame.keyWf 2 = true := w
  simp only [HrtFrame.keyWf, HrtFrame.wf, Bool.and_eq_true, decide_eq_true_eq] at w
  exact ⟨none_named, one_named w.1.1.1.1⟩
theorem keyAcceptTimeout (p : Nat) (n : Nat) (peer : Nat) (t : Nat) : Statement (.keyAcceptTimeout p n peer t) := by
  intro w
  have w : (decide (p < 40 ∧ n < 8 ∧ peer < 64)) = true := w
  simp only [decide_eq_true_eq] at w
  exact ⟨none_named, one_named (by omega)⟩
theorem hrtWriteRx (f : HrtFrame) : Statement (.hrtWriteRx f) := by
  intro w
  have w : (f.wf && (f.hdr.opcode = 0 || 5 ≤ f.hdr.opcode)) = true := w
  simp only [HrtFrame.wf, Bool.and_eq_true, decide_eq_true_eq] at w
  exact ⟨none_named, one_named (by omega)⟩
theorem hrtAddRx (f : HrtFrame) : Statement (.hrtAddRx f) := by
  intro w
  have w : (f.wf && (f.hdr.opcode = 1 || 5 ≤ f.hdr.opcode)) = true := w
  simp only [HrtFrame.wf, Bool.and_eq_true, decide_eq_true_eq] at w
  exact ⟨none_named, one_named (by omega)⟩
theorem hrtAckRx (f : HrtFrame) : Statement (.hrtAckRx f) := by
  intro w
  have w : (f.wf && (f.hdr.opcode = 2 || 5 ≤ f.hdr.opcode)) = true := w
  simp only [HrtFrame.wf, Bool.and_eq_true, decide_eq_true_eq] at w
  exact ⟨none_named, one_named (by omega)⟩
theorem hrtWindowWriteRx (f : HrtFrame) : Statement (.hrtWindowWriteRx f) := by
  intro w
  have w : (f.wf && (f.hdr.opcode = 4 || 5 ≤ f.hdr.opcode)) = true := w
  simp only [HrtFrame.wf, Bool.and_eq_true, decide_eq_true_eq] at w
  exact ⟨none_named, one_named (by omega)⟩
theorem bufferFreeRx (f : HrtFrame) : Statement (.bufferFreeRx f) := by
  intro w
  have w : (f.wf && (f.hdr.code = 0x20 || ctrlReserved f.hdr.code) && decide (f.hdr.opcode = 3)) = true := w
  simp only [HrtFrame.wf, Bool.and_eq_true, decide_eq_true_eq] at w
  exact ⟨none_named, one_named (by omega)⟩
theorem hrtAckDelay (qp : Nat) : Statement (.hrtAckDelay qp) := fun _ => ⟨none_named, none_named⟩
theorem hrtRtoExpiry (qp : Nat) (psn : Nat) (t : Nat) : Statement (.hrtRtoExpiry qp psn t) := fun _ => ⟨none_named, none_named⟩
theorem partnerTimeout (qp : Nat) (t : Nat) : Statement (.partnerTimeout qp t) := fun _ => ⟨none_named, none_named⟩
theorem peerSlowDetect (qp : Nat) : Statement (.peerSlowDetect qp) := fun _ => ⟨none_named, none_named⟩
theorem peerQuarantineClear (who : Who) (p : Nat) (peer : Nat) : Statement (.peerQuarantineClear who p peer) := by
  intro w
  have w : (decide (p < 40 ∧ peer < 256)) = true := w
  simp only [decide_eq_true_eq] at w
  exact ⟨none_named, one_named (by omega)⟩
theorem linkError (l : Nat) (t : Nat) : Statement (.linkError l t) := fun _ => ⟨none_named, none_named⟩
theorem linkRetrainDone (l : Nat) (t : Nat) : Statement (.linkRetrainDone l t) := fun _ => ⟨none_named, none_named⟩
theorem linkRetryExpiry (t : Nat) : Statement (.linkRetryExpiry t) := fun _ => ⟨none_named, none_named⟩
theorem hostRstAssert (t : Nat) : Statement (.hostRstAssert t) := fun _ => ⟨none_named, none_named⟩
theorem hostRstRelease (t : Nat) : Statement (.hostRstRelease t) := fun _ => ⟨none_named, none_named⟩
theorem holdQuiesce : Statement (.holdQuiesce) := fun _ => ⟨none_named, none_named⟩
theorem holdRecordWrite : Statement (.holdRecordWrite) := fun _ => ⟨none_named, none_named⟩
theorem adopt (epoch : Nat) (digest : List Byte) : Statement (.adopt epoch digest) := fun _ => ⟨none_named, none_named⟩
theorem adoptionEnd : Statement (.adoptionEnd) := fun _ => ⟨none_named, none_named⟩
theorem reAttach : Statement (.reAttach) := fun _ => ⟨none_named, none_named⟩
theorem holdDiscard : Statement (.holdDiscard) := fun _ => ⟨none_named, none_named⟩
theorem doorbellSqTail (q : Nat) (v : Nat) : Statement (.doorbellSqTail q v) := fun _ => ⟨none_named, none_named⟩
theorem doorbellCqHead (q : Nat) (v : Nat) : Statement (.doorbellCqHead q v) := fun _ => ⟨none_named, none_named⟩
theorem manifestFetch (q : Nat) (bytes : List Byte) : Statement (.manifestFetch q bytes) := fun _ => ⟨none_named, none_named⟩
theorem manifestReread (q : Nat) (bytes : List Byte) : Statement (.manifestReread q bytes) := fun _ => ⟨none_named, none_named⟩
theorem manifestNop (q : Nat) (seq : Nat) : Statement (.manifestNop q seq) := fun _ => ⟨none_named, none_named⟩
theorem imageLoad (q : Nat) (seq : Nat) (img : Image) : Statement (.imageLoad q seq img) := fun _ => ⟨none_named, none_named⟩
theorem consistControlStart (q : Nat) (seq : Nat) : Statement (.consistControlStart q seq) := fun _ => ⟨none_named, none_named⟩
theorem consistControlRestart (q : Nat) (seq : Nat) : Statement (.consistControlRestart q seq) := fun _ => ⟨none_named, none_named⟩
theorem consistControlStop (q : Nat) (seq : Nat) : Statement (.consistControlStop q seq) := fun _ => ⟨none_named, none_named⟩
theorem consistControlUnload (q : Nat) (seq : Nat) : Statement (.consistControlUnload q seq) := fun _ => ⟨none_named, none_named⟩
theorem nounWrite (q : Nat) (seq : Nat) (image : Noun) : Statement (.nounWrite q seq image) := fun _ => ⟨none_named, none_named⟩
theorem manifestSlotWrite (q : Nat) (seq : Nat) : Statement (.manifestSlotWrite q seq) := fun _ => ⟨none_named, none_named⟩
theorem semDeclare (q : Nat) (seq : Nat) : Statement (.semDeclare q seq) := fun _ => ⟨none_named, none_named⟩
theorem manifestSemReset (q : Nat) (seq : Nat) : Statement (.manifestSemReset q seq) := fun _ => ⟨none_named, none_named⟩
theorem manifestCopy (q : Nat) (seq : Nat) (data : List Byte) (ecc : Ecc) : Statement (.manifestCopy q seq data ecc) := fun _ => ⟨none_named, none_named⟩
theorem depotRead (q : Nat) (seq : Nat) (ecc : Ecc) : Statement (.depotRead q seq ecc) := fun _ => ⟨none_named, none_named⟩
theorem depotWrite (q : Nat) (seq : Nat) (ecc : Ecc) : Statement (.depotWrite q seq ecc) := fun _ => ⟨none_named, none_named⟩
theorem ruleLoad (q : Nat) (seq : Nat) (rule : RuleImage) : Statement (.ruleLoad q seq rule) := fun _ => ⟨none_named, none_named⟩
theorem layerWrite (q : Nat) (seq : Nat) : Statement (.layerWrite q seq) := fun _ => ⟨none_named, none_named⟩
theorem manifestComplete (q : Nat) (seq : Nat) : Statement (.manifestComplete q seq) := fun _ => ⟨none_named, none_named⟩
theorem queueEnable (q : Nat) : Statement (.queueEnable q) := fun _ => ⟨none_named, none_named⟩
theorem queueDisable (q : Nat) : Statement (.queueDisable q) := fun _ => ⟨none_named, none_named⟩
theorem apertureDescriptorWrite (a : Nat) (bytes : List Byte) : Statement (.apertureDescriptorWrite a bytes) := fun _ => ⟨none_named, none_named⟩
theorem hostApertureRead (off : Nat) (len : Nat) (ecc : Ecc) : Statement (.hostApertureRead off len ecc) := fun _ => ⟨none_named, none_named⟩
theorem hostApertureWrite (off : Nat) (bytes : List Byte) : Statement (.hostApertureWrite off bytes) := fun _ => ⟨none_named, none_named⟩
theorem hostReservedAccess (off : Nat) (len : Nat) (write : Bool) : Statement (.hostReservedAccess off len write) := fun _ => ⟨none_named, none_named⟩
theorem grantObjectWrite (who : Who) (p : Nat) (sub : Nat) (val : OdVal) : Statement (.grantObjectWrite who p sub val) := by
  intro w
  have w : (decide (p < 40 ∧ 2 ≤ sub ∧ sub ≤ 8)) = true := w
  simp only [decide_eq_true_eq] at w
  exact ⟨none_named, one_named (by omega)⟩
theorem grantCommit (who : Who) (p : Nat) : Statement (.grantCommit who p) := by
  intro w
  have w : (decide (p < 40)) = true := w
  simp only [decide_eq_true_eq] at w
  exact ⟨none_named, one_named (by omega)⟩
theorem grantRelease (who : Who) (p : Nat) : Statement (.grantRelease who p) := by
  intro w
  have w : (decide (p < 40)) = true := w
  simp only [decide_eq_true_eq] at w
  exact ⟨none_named, one_named (by omega)⟩
theorem grantDiscard (who : Who) (p : Nat) : Statement (.grantDiscard who p) := by
  intro w
  have w : (decide (p < 40)) = true := w
  simp only [decide_eq_true_eq] at w
  exact ⟨none_named, one_named (by omega)⟩
theorem grantForceRelease (who : Who) (p : Nat) : Statement (.grantForceRelease who p) := by
  intro w
  have w : (decide (p < 40)) = true := w
  simp only [decide_eq_true_eq] at w
  exact ⟨none_named, one_named (by omega)⟩
theorem grantSwap (p : Nat) : Statement (.grantSwap p) := by
  intro w
  have w : (decide (p < 40)) = true := w
  simp only [decide_eq_true_eq] at w
  exact ⟨none_named, one_named (by omega)⟩
theorem windowTableSwap (p : Nat) : Statement (.windowTableSwap p) := by
  intro w
  have w : (decide (p < 40)) = true := w
  simp only [decide_eq_true_eq] at w
  exact ⟨none_named, one_named (by omega)⟩
theorem consistClearEnd (k : Nat) : Statement (.consistClearEnd k) := by
  intro w
  have w : (decide (k < 40)) = true := w
  simp only [decide_eq_true_eq] at w
  exact ⟨one_named (by omega), none_named⟩
theorem quoteRequest (who : Who) (bytes : List Byte) : Statement (.quoteRequest who bytes) := fun _ => ⟨none_named, none_named⟩
theorem depotKeyImport (who : Who) (p : Nat) (cipher : List Byte) (proof : List Byte) : Statement (.depotKeyImport who p cipher proof) := by
  intro w
  have w : (decide (p < 40)) = true := w
  simp only [decide_eq_true_eq] at w
  exact ⟨none_named, one_named (by omega)⟩
theorem debugOpen (who : Who) (v : Nat) : Statement (.debugOpen who v) := fun _ => ⟨none_named, none_named⟩
theorem tapUnlock (sigOk : Bool) : Statement (.tapUnlock sigOk) := fun _ => ⟨none_named, none_named⟩
theorem tapInstructionLoad (load : TapInstr) : Statement (.tapInstructionLoad load) := fun _ => ⟨none_named, none_named⟩
theorem debugEraseRelease : Statement (.debugEraseRelease) := fun _ => ⟨none_named, none_named⟩
theorem debugEraseEnd : Statement (.debugEraseEnd) := fun _ => ⟨none_named, none_named⟩
theorem identityCertWrite (who : Who) (bytes : List Byte) (rootKey : Option (List Byte)) : Statement (.identityCertWrite who bytes rootKey) := fun _ => ⟨none_named, none_named⟩
theorem keyListWrite (who : Who) (sub : Nat) (p : Nat) (bytes : List Byte) : Statement (.keyListWrite who sub p bytes) := fun _ => ⟨none_named, none_named⟩
theorem lmpRead (r : LmpReq) : Statement (.lmpRead r) := fun _ => ⟨none_named, none_named⟩
theorem lmpWrite (r : LmpReq) : Statement (.lmpWrite r) := fun _ => ⟨none_named, none_named⟩
theorem lmpReadIndex (r : LmpReq) : Statement (.lmpReadIndex r) := fun _ => ⟨none_named, none_named⟩
theorem bookRead (r : LmpReq) : Statement (.bookRead r) := fun _ => ⟨none_named, none_named⟩
theorem lmpCheckpointRead (r : LmpReq) : Statement (.lmpCheckpointRead r) := fun _ => ⟨none_named, none_named⟩
theorem lmpOpen (r : LmpOpenReq) : Statement (.lmpOpen r) := fun _ => ⟨none_named, none_named⟩
theorem lmpOpenProof (session : Nat) (requestId : Nat) (proof : Option Bool) (t : Nat) : Statement (.lmpOpenProof session requestId proof t) := fun _ => ⟨none_named, none_named⟩
theorem lmpClose (r : LmpReq) : Statement (.lmpClose r) := fun _ => ⟨none_named, none_named⟩
theorem lmpOpenTimeout (session : Nat) (t : Nat) : Statement (.lmpOpenTimeout session t) := fun _ => ⟨none_named, none_named⟩
theorem lmpIdleTimeout (session : Nat) (t : Nat) : Statement (.lmpIdleTimeout session t) := fun _ => ⟨none_named, none_named⟩
theorem lmpSnapshotExpiry (session : Nat) (t : Nat) : Statement (.lmpSnapshotExpiry session t) := fun _ => ⟨none_named, none_named⟩
theorem lmpSegmentTimeout (key : Nat) (t : Nat) : Statement (.lmpSegmentTimeout key t) := fun _ => ⟨none_named, none_named⟩
theorem mgmtSettingsApply (t : Nat) : Statement (.mgmtSettingsApply t) := fun _ => ⟨none_named, none_named⟩
theorem bookCheckpoint (t : Nat) : Statement (.bookCheckpoint t) := fun _ => ⟨none_named, none_named⟩
theorem bookCheckpointSign : Statement (.bookCheckpointSign) := fun _ => ⟨none_named, none_named⟩
theorem bookExportMarkWrite (who : Who) (v : Nat) : Statement (.bookExportMarkWrite who v) := fun _ => ⟨none_named, none_named⟩
theorem restoreDefaults (who : Who) (v : Nat) : Statement (.restoreDefaults who v) := fun _ => ⟨none_named, none_named⟩
theorem startUp (e : BootEnv) : Statement (.startUp e) := fun _ => ⟨none_named, none_named⟩
theorem startupStepTimeout (step : Nat) (t : Nat) : Statement (.startupStepTimeout step t) := fun _ => ⟨none_named, none_named⟩
theorem moduleRestart (who : Who) : Statement (.moduleRestart who) := fun _ => ⟨none_named, none_named⟩
theorem moduleRestartForce (who : Who) : Statement (.moduleRestartForce who) := fun _ => ⟨none_named, none_named⟩
theorem ledgerClear (who : Who) (v : Nat) : Statement (.ledgerClear who v) := fun _ => ⟨none_named, none_named⟩
theorem fwChunk (who : Who) (bytes : List Byte) : Statement (.fwChunk who bytes) := fun _ => ⟨none_named, none_named⟩
theorem fwVerify (who : Who) (sigKey : Option (List Byte)) : Statement (.fwVerify who sigKey) := fun _ => ⟨none_named, none_named⟩
theorem fwCommit (who : Who) : Statement (.fwCommit who) := fun _ => ⟨none_named, none_named⟩
theorem fwCommitEnd (ok : Bool) : Statement (.fwCommitEnd ok) := fun _ => ⟨none_named, none_named⟩
theorem fwActivate (who : Who) : Statement (.fwActivate who) := fun _ => ⟨none_named, none_named⟩
theorem fwDrop (who : Who) : Statement (.fwDrop who) := fun _ => ⟨none_named, none_named⟩
theorem recoveryCommand (cmd : Nat) (sigKey : Option (List Byte)) (programmed : Bool) : Statement (.recoveryCommand cmd sigKey programmed) := fun _ => ⟨none_named, none_named⟩
theorem domainOnRequest (who : Who) (d : Nat) : Statement (.domainOnRequest who d) := fun _ => ⟨none_named, none_named⟩
theorem domainRetentionRequest (who : Who) (d : Nat) : Statement (.domainRetentionRequest who d) := fun _ => ⟨none_named, none_named⟩
theorem domainOffRequest (who : Who) (d : Nat) : Statement (.domainOffRequest who d) := fun _ => ⟨none_named, none_named⟩
theorem domainEntryEnd (d : Nat) : Statement (.domainEntryEnd d) := fun _ => ⟨none_named, none_named⟩
theorem domainWakeEnd (d : Nat) : Statement (.domainWakeEnd d) := fun _ => ⟨none_named, none_named⟩
theorem padRelease (who : Who) (d : Nat) : Statement (.padRelease who d) := fun _ => ⟨none_named, none_named⟩
theorem powerCapWrite (who : Who) (v : Nat) : Statement (.powerCapWrite who v) := fun _ => ⟨none_named, none_named⟩
theorem airflowWrite (who : Who) (v : Nat) : Statement (.airflowWrite who v) := fun _ => ⟨none_named, none_named⟩
theorem powerGuard (draw : Nat) : Statement (.powerGuard draw) := fun _ => ⟨none_named, none_named⟩
theorem arrayDutyAdjust (draw : Nat) : Statement (.arrayDutyAdjust draw) := fun _ => ⟨none_named, none_named⟩
theorem thermalSample (temps : List Nat) (t : Nat) : Statement (.thermalSample temps t) := fun _ => ⟨none_named, none_named⟩
theorem inletSample (temp : Nat) (t : Nat) : Statement (.inletSample temp t) := fun _ => ⟨none_named, none_named⟩
theorem inletCapRise (t : Nat) : Statement (.inletCapRise t) := fun _ => ⟨none_named, none_named⟩
theorem vinStart (v : Nat) (t : Nat) : Statement (.vinStart v t) := fun _ => ⟨none_named, none_named⟩
theorem vinLoss (v : Nat) (t : Nat) : Statement (.vinLoss v t) := fun _ => ⟨none_named, none_named⟩
theorem ppsEdge (t : Nat) : Statement (.ppsEdge t) := fun _ => ⟨none_named, none_named⟩
theorem todFrame (bytes : List Byte) (t : Nat) : Statement (.todFrame bytes t) := fun _ => ⟨none_named, none_named⟩
theorem ppsMissing (t : Nat) : Statement (.ppsMissing t) := fun _ => ⟨none_named, none_named⟩
theorem osfpPresent (c : Nat) (t : Nat) : Statement (.osfpPresent c t) := fun _ => ⟨none_named, none_named⟩
theorem osfpLowPowerRelease (c : Nat) (t : Nat) : Statement (.osfpLowPowerRelease c t) := fun _ => ⟨none_named, none_named⟩
theorem controlStateError (f : CtrlFault) : Statement (.controlStateError f) := fun _ => ⟨none_named, none_named⟩
theorem vosfpLoss : Statement (.vosfpLoss) := fun _ => ⟨none_named, none_named⟩
theorem vosfpReturn : Statement (.vosfpReturn) := fun _ => ⟨none_named, none_named⟩
theorem osfpPresenceDeassert (c : Nat) : Statement (.osfpPresenceDeassert c) := fun _ => ⟨none_named, none_named⟩
theorem queueDescriptorWrite (q : Nat) (off : Nat) (bytes : List Byte) : Statement (.queueDescriptorWrite q off bytes) := fun _ => ⟨none_named, none_named⟩
theorem entryAbandoned (d : Nat) : Statement (.entryAbandoned d) := fun _ => ⟨none_named, none_named⟩

end Sys2Proof.Laws.Family
end

