-- ==== Sys2Proof/Laws/Range.lean ====
section
/-! SUPPORT. The ranges that meanings guard are those of WellFormed: one lemma for each that is written in other words there. -/

namespace Sys2Proof.Machine

/-- A guarded meaning whose guard is the command's well-formedness completes exactly on well-formed commands. -/
theorem guardWf_complete {b c : Bool} {s : State} (e : b = c) :
    (c = true → ∃ t, guardWf b s = .next t) ∧ (c = false → guardWf b s = .refused .illFormed) := by
  subst e; constructor <;> intro h <;> simp [guardWf, h]

/-- A pattern is finite if it is neither the infinity nor a NaN of its format. -/
theorem decodeVal_isFin (f : Fmt) (w : Nat) : (decodeVal f w).isFin = true ↔
    some (w % 2 ^ (f.eb + f.mb)) ≠ f.infBody ∧ w % 2 ^ (f.eb + f.mb) < f.nanFrom := by
  unfold decodeVal
  simp only
  split
  · rename_i h; simp [Val.isFin, h]
  · rename_i h
    split
    · rename_i g; simp only [Val.isFin, Bool.false_eq_true, false_iff]; omega
    · rename_i g; split <;> simp only [Val.isFin, true_iff] <;> exact ⟨h, by omega⟩

/-- A finite FP32 pattern is one whose exponent field is not all ones. -/
theorem isF32_eq_f32Ok (w : Nat) : isF32 w = f32Ok w := by
  unfold isF32 f32Ok
  rw [Bool.eq_iff_iff]
  simp only [Bool.and_eq_true, decide_eq_true_eq, decodeVal_isFin]
  refine and_congr_right fun hw => ?_
  show (some (w % 2 ^ 31) ≠ some 2139095040 ∧ w % 2 ^ 31 < 2139095041) ↔ _
  rw [ne_eq, Option.some.injEq]
  omega

/-- A control subtype without a payload length is one that the table does not list. -/
theorem controlLen_none (code : Nat) : decide (controlLen code = none) = ctrlReserved code := by
  unfold controlLen ctrlReserved
  split <;> simp_all

theorem frameOk_eq_wf (f : HrtFrame) : frameOk f = f.wf := rfl

theorem rxFits_eq_wf (f : RxFrame) : rxFits f = f.wf := rfl

theorem bgChannel_eq (op : DepotBg) : bgChannel op = op.channel := by cases op <;> rfl

end Sys2Proof.Machine
end

