-- ==== Sys2Proof/Laws/Verb.lean ====
section
/-! SUPPORT. Verbs: what every verb of a stream does when the sequencer reaches it, said once for the rows that are verbs. -/

namespace Sys2Proof.Machine

theorem awaitOk_eq_wf : awaitOk = Await.wf := rfl

/-- The meanings judge what every verb carries as its well-formedness does. -/
theorem hdrOk_eq_wf (h : VerbHdr) : hdrOk h = h.wf := by
  unfold hdrOk VerbHdr.wf
  rw [awaitOk_eq_wf]
  rw [Bool.eq_iff_iff]
  cases h.post <;> simp only [Bool.and_eq_true, decide_eq_true_eq, List.all_eq_true] <;> tauto

/-- A verb whose operands fit is taken by its consist's sequencer. -/
theorem verb_next {h : VerbHdr} {v : Verb} {s : State} (w : (h.wf && verbOk v) = true) :
    verb h v s = .next (finishCheck h.consist (take ⟨h, v⟩ s)) := by
  unfold verb; rw [hdrOk_eq_wf, w]; rfl

/-- One whose operands do not is refused. -/
theorem verb_refused {h : VerbHdr} {v : Verb} {s : State} (w : (h.wf && verbOk v) = false) :
    verb h v s = .refused .illFormed := by
  unfold verb; rw [hdrOk_eq_wf, w]; rfl

/-- Every command that is a verb, if it is well formed. -/
theorem exec_verb {i : Instr} {x : VerbIn} {s : State} (h : verbOf i = some x) (w : i.wf = true) :
    exec i s = .next (finishCheck x.h.consist (take x s)) := by
  cases i <;> first
    | (cases h; exact verb_next (by simpa [Instr.wf, verbOk] using w))
    | cases h

end Sys2Proof.Machine
end

