-- ==== Sys2Proof/Tests/Slice0.lean ====
section
/-! SUPPORT. The model's own tests: small states, and for every statement a state and operands that meet its hypotheses. -/

namespace Sys2Proof.Tests
open Sys2Proof Sys2Proof.Machine
set_option Elab.async false

/-! ### Small states -/

/-- A module that has started. -/
def up : State := odSet State.reset kBootState 1
def opr : Who := ⟨.operator, 40, 1, []⟩
def ten (p : Nat) : Who := ⟨.tenant, p, 1, []⟩
def srv : Who := ⟨.service, 40, 1, []⟩
/-- Consist 0, near granule 0, far granule 0, staging granule 0 of die 0, depot granule 0, semaphores 0 to 255, QPs 0 to 31. -/
def grant0 : Grant := ⟨1, 1, 1, 1, 1, 1, 1, 5, 1⟩
/-- Partition 0 holds `grant0`; consist 0 is available; the depot has blocks. -/
def own : State :=
  odSet (odSet (setPart up 0 { Part.reset with grant := some grant0 }) kConsistAvailableMap 0xFF_FFFF_FFFF) kDepotLogicalBlocks 131072
/-- A program of three verbs, and consist 0 running it. -/
def prog0 : Program := ⟨[.verb, .verb, .verb], [], [], []⟩
def con0 : Consist := { Consist.reset with pstate := .running, prog := some prog0 }
def run : State := setCon own 0 con0

/-! ### Reset and the queue -/

/-- Below the staging buffers there is no histogram base array: the ranges of the witnesses meet `NoHistZero`. -/
theorem wit_NoHistZero (a n : Nat) (h : a + n ≤ stagingBase) : NoHistZero a n := fun x _ h2 => by
  have : ¬ (stagingBase ≤ x ∧ x < stagingBase + 8 * 0x1000_0000) := by omega
  rw [histZero, decide_eq_false this, Bool.false_and]
theorem test_reset_queue : State.reset.pending = [] := rfl
theorem test_reset_memory : Memory.wf State.reset.mem = true := rfl

/-! ### Power -/

theorem wit_AirflowCap : writeOpen up kAirflowAssuredCfm (.num 120) = true ∧ writeOpen up kAirflowAssuredCfm (.num 400) = true ∧
    dictUp up = true ∧ bookFull up 1024 = false ∧ starting up = false := by decide +kernel

/-- Domain 0 latched on. -/
def latched : State := odSet up (kDomainState 1) 5
theorem wit_PowerCapWritten : writeOpen up kPowerCap (.num 900) = true ∧ writeOpen up kPowerCap (.num 1800) = true ∧
    writeOpen latched kPadRelease (.num 0) = true ∧ isDomain 0 = true ∧ isMate latched 0 = false ∧ domState latched 0 = 5 := by decide +kernel

/-- Domain 0 in retention. -/
def slept : State := odSet own (kDomainState 1) 1
theorem wit_DomainsMove : domainRole slept opr 0 0 = true ∧ writeOpen slept (kDomainState 1) (.num 0) = true ∧ isMate slept 0 = false ∧
    holding slept = false ∧ domState slept 0 ≤ 2 ∧ bitOf (odN slept kConsistAvailableMap) 0 = true ∧ domainRole own opr 0 1 = true ∧
    writeOpen own (kDomainState 1) (.num 1) = true ∧ mustStay own 0 1 = false ∧ domainRole own opr 0 2 = true ∧
    writeOpen own (kDomainState 1) (.num 2) = true ∧ mustStay own 0 2 = false ∧ domState own 0 = 0 := by decide +kernel

/-- Domain 0 entering to state `v`, and waking from it. -/
def entering (v : Nat) : State := odSet { own with pow := { own.pow with entering := [(0, v)] } } (kDomainState 1) 3
def wakes (v : Nat) : State := odSet { own with pow := { own.pow with waking := [(0, v)] } } (kDomainState 1) 4
def abandoned : State := odSet { entering 1 with pow := { (entering 1).pow with wakeMet := [0] } } kPowerTestMode 1
theorem wit_DomainsArrive : domState (entering 1) 0 = 3 ∧ isMate (entering 1) 0 = false ∧ moved (entering 1) 0 = [0] ∧
    tget 0 (entering 1).pow.entering 0 = 1 ∧ (entering 1).pow.wakeMet.contains 0 = false ∧ domState (entering 2) 0 = 3 ∧
    (entering 2).pow.wakeMet.contains 0 = false ∧ tget 0 (entering 2).pow.entering 0 = 2 ∧ domState (wakes 2) 0 = 4 ∧ dieOf 0 = some 0x30 ∧ domState (wakes 2) 0x30 = 0 ∧
    abandoned.pow.wakeMet.contains 0 = true ∧ abortable abandoned = true ∧ domState abandoned 0 = 3 := by decide +kernel

/-- The depot's own domain entering retention; the tenth millisecond in a row that fits the cap; a hot reading before. -/
def depotEntering : State := odSet { own with pow := { own.pow with entering := [(0x71, 1)] } } (kDomainState 0x72) 3
theorem wit_DomainsArrive_depot : domState depotEntering 0x71 = 3 ∧ isMate depotEntering 0x71 = false ∧ moved depotEntering 0x71 = [0x71] ∧
    depotEntering.pow.wakeMet.contains 0x71 = false ∧ tget 0 depotEntering.pow.entering 0x71 = 1 ∧ isMate (wakes 2) 0 = false ∧
    isMate abandoned 0 = false := by decide +kernel
def tenth : State := { odSet up kArrayDuty 15 with pow := { up.pow with lastMs := 9 } }
def hotBefore : State := { up with pow := { up.pow with hot := 1 } }
theorem wit_ClockAndDuty_rise : tenth.pow.lastMs = 9 ∧ odN tenth kArrayDuty < 16 ∧ 0 ≤ odN tenth kPowerCapEffective ∧
    1 ≤ hotBefore.pow.hot ∧ odN hotBefore kThermalState ≠ 4 ∧ hotBefore.pow.stopped = false := by decide +kernel
theorem wit_ClockAndDuty : odN up kPowerCapEffective < 1801 ∧ odN (odSet up kClockNow 800) kClockNow = 800 ∧
    0 ≤ odN up kPowerCapEffective ∧ odN (odSet up kArrayDuty 15) kArrayDuty < 16 := by decide +kernel

/-- 96 and 110 degrees. -/
def f96 : Nat := 0x42C00000
def f110 : Nat := 0x42DC0000
/-- An inlet that has been cool enough for 1,800 W since time 0. -/
def cooled : State := { up with pow := { up.pow with inletCap := 1750, inletBelow := [(1800, 1)] } }
theorem wit_TemperaturesAct : [f96].all isF32 = true ∧ odN up kThermalState ≠ 4 ∧ up.pow.stopped = false ∧ up.pow.throttle = false ∧
    floorF32 f96 < 97 ∧ 110 ≤ floorF32 f110 ∧ isF32 f110 = true ∧
    inletLevels.find? (fun x => tget 0 cooled.pow.inletBelow x ≠ 0 &&
      decide (tget 0 cooled.pow.inletBelow x + 60_000_000_000 ≤ max cooled.now 60_000_000_000 + 1)) = some 1800 ∧
    cooled.pow.inletCap < 1800 := by decide +kernel

/-! ### Time, slots, cages -/

def timed (f : TimeSt → TimeSt) : State := { up with time := f up.time }
def tens : List Nat := List.replicate 11 100
theorem wit_TickIsSet : writeOpen up kTickChangeAt (.num 2) = true ∧ anyOpen up = false ∧ tickNow up + 1 < 2 ∧
    writeOpen up kTickEpoch (.num 5) = true ∧ (timed fun t => { t with change := some (2 ^ 48) }).time.change = some (2 ^ 48) ∧
    tickNow (timed fun t => { t with change := some (2 ^ 48) }) = 2 ^ 48 % 2 ^ 48 := by decide +kernel
theorem wit_TickBoundaryPasses : tens.length = 11 ∧ tickAt (atTime up 8000) (moduleTime (atTime up 8000)) = some 1 ∧
    1 = (1 + 2 ^ 48 - up.time.tick % 2 ^ 48) % 2 ^ 48 ∧ 1 ≠ 0 ∧ 1 < 2 ^ 47 ∧ up.pow.stopped = false ∧ up.consists = [] := by decide +kernel

/-- Aligned again for a second; a step of time that waits. -/
def within : State := odSet (timed fun t => { t with withinSince := some 0 }) kOffsetBound 8
def stepping : State := timed fun t => { t with pendingStep := some 16000 }
theorem wit_AlignmentMoves : within.time.withinSince = some 0 ∧ odN within kTimeSource ≠ 2 ∧ odN within kTickAligned = 0 ∧ odN within kOffsetBound ≤ odN within kAlignLimit ∧
    within.time.pendingStep = none ∧ stepping.time.pendingStep = some 16000 ∧ anyOpen stepping = false ∧ (∀ x ∈ stepping.parts, x.1 < 40) := by decide +kernel

/-- A module that follows PTP master 7. -/
def ptp : State := timed fun t => { t with master := some (7, 1), announces := [(7, 1)] }
def follow : State := timed fun t => { t with master := some (7, 1), twoStep := some (3, 1500), lastSync := some (0, 125000000), measured := some (0, 500), delayReq := some (3, 900) }
def msg (two : Bool) : PtpMsg := ⟨0, true, 0, 7, 3, two, 1000, 1500, 0, 125000000⟩
def aligned : State := odSet follow kTickAligned 1
theorem wit_PtpMessagesTaken : ptpHeard ptp 0 = true ∧ ptpHeard follow 0 = true ∧ ptpOk ptp true 0 = true ∧ ptpOk follow true 0 = true ∧ ptpIsMaster follow 7 = true ∧ ptpIsMaster ptp 7 = true ∧
    7_812_500 ≤ (msg true).intervalNs ∧ (msg true).intervalNs ≤ 1_000_000_000 ∧ (msg false).twoStep = false ∧
    follow.time.twoStep = some ((msg true).seq, 1500) ∧ follow.time.measured = some (0, 500) ∧ ((1500 : Int) - (((msg true).originTime : Int) + 0) - follow.time.pathDelay).natAbs ≤ 1000 ∧
    ptp.time.master ≠ none ∧ follow.time.delayReq = some ((msg true).seq, 900) ∧ follow.time.lastSync = some (0, 125000000) ∧
    odN aligned kTickAligned = 1 ∧ odN aligned kTimeSource = 0 ∧ 0 + 4 * 125000000 ≤ max aligned.now 500000000 := by decide +kernel

def refed (missed : Nat) (pend : Option Nat) : State :=
  odSet (odSet (timed fun t => { t with ppsMissed := missed, todPending := pend, ppsSecond := some 4 }) kTimeSource 1) kTickAligned 1
def tod : List Byte := [0x54, 0x44, 1, 0, 0, 0, 0, 0, 0, 0, 0x11, 0x0A]
theorem wit_ReferenceInput : odN (refed 0 none) kTimeSource = 1 ∧ tod.length = 12 ∧ lget 0 tod 0 = 0x54 ∧ lget 0 tod 1 = 0x44 ∧ lget 0 tod 11 = 0x0A ∧
    (lget 0 tod 10).toNat = (tod.take 10).foldl (fun x b => x ^^^ b.toNat) 0 ∧ (refed 0 (some 1)).time.todPending = some 1 ∧
    ((moduleTime (atTime (refed 0 (some 1)) 1000001000) : Int) - (1 * 1_000_000_000 : Nat)).natAbs ≤ 1000 ∧ (refed 0 none).time.ppsMissed ≠ 3 ∧
    (refed 3 none).time.ppsMissed = 3 ∧ odN (refed 3 none) kTickAligned = 1 := by decide +kernel

def slotHeld : State := setCon own 0 { con0 with hold := some (.slot 7 0 (some 0)) }
def slotDone : State := setCon own 0 { con0 with slot := some ⟨7, 0, 0⟩, hold := some (.slot 0 0 none) }
/-- A verb of queue 0 that awaits a token which only queue 0 itself posts. -/
def stuckEntry : VEntry :=
  { vi := 0, cls := 4, queue := 0, verb := .wait, nouns := [], loopIx := [0, 0, 0, 0], waits := [(0, 1)], post := none, rmask := 0, wmask := 0
    issued := 0, parts := noParts, streams := [], since := some 0, origin := none, judged := false, recv := [], phase := 0
    ecc := Ecc.clean }
def stuck : State :=
  let s := setCon own 0 { con0 with verbs := [stuckEntry] }
  { s with time := { s.time with tick := 3 }, sems := [(0, { Sem.reset with kind := 0, setter := 0, part := 0 })] }
theorem wit_SlotsAndDeadlocks : (con slotHeld 0).hold = some (.slot 7 0 (some 0)) ∧ (con slotHeld 0).pstate = .running ∧ tickAfter (tickNow slotHeld) 0 = true ∧
    live slotHeld 0 = true ∧ sinceEpoch slotHeld (moduleTime slotHeld) ≠ none ∧ (con slotDone 0).slot = some ⟨7, 0, 0⟩ ∧ (con slotDone 0).verbs = [] ∧
    (con slotDone 0).sidingRuns = [] ∧ (con slotDone 0).hold = some (.slot 0 0 none) ∧
    ((List.range 40).flatMap fun k => consistWaits stuck k) = [⟨(0, 0), 0, 0, [(0, 1)], none⟩] ∧ 2 < (tickNow stuck + 2 ^ 48 - 0) % 2 ^ 48 ∧
    depends stuck [⟨(0, 0), 0, 0, [(0, 1)], none⟩] ⟨(0, 0), 0, 0, [(0, 1)], none⟩ = [(0, 0)] ∧
    (∀ k, k < 40 → consistWaits run k = []) := by decide +kernel

def caged : State := odSet { up with pow := { up.pow with cageSince := [(0, 1)], lowPower := 1 } } kOsfpPresent 1
theorem wit_Cages : bitOf (odN up kOsfpPresent) 3 = false ∧ bitOf (odN caged kOsfpPresent) 0 = true ∧
    tget 0 caged.pow.cageSince 0 + 100_000_000 ≤ max caged.now 100_000_000 + 1 ∧ portExists caged 0 = true ∧ odN (odSet caged (kPortEnable 0) 1) (kPortEnable 0) = 1 := by
  decide +kernel
theorem wit_ControlStateErrors : (con run 0).pstate = .running ∧ (con stuck 0).verbs = [stuckEntry] ∧ stuckEntry.parts.length = 20 ∧
    (outNouns stuck 0 stuckEntry).filter (fun r => r.handle ≠ 0) = [] ∧ nothingOwed own = true ∧ stepOpen own (semGet own 0).part = false := by decide +kernel

/-! ### Ports -/

def hdr0 : HrtHdr :=
  { version := 1, opcode := 0, last := true, timetabled := false, ackNow := false, ecnEcho := false, semOp := 0, poisoned := false
    reserved := 0, addType := 0, code := 0, dstQp := 0, srcQp := 0, psn := 0, ackPsn := 0, window := 0, offset := 0, payloadLen := 4
    sem := 0, epoch := 0, frameIndex := 0, sack := 0 }
def frame0 : MacFrame := ⟨0, 1, 0, false, 0, hdr0, [1, 2, 3, 4], 0, false, none⟩
def linked : State := setPort (odSet (odSet own (kLinkUp 0) 1) (kPortSpeed 0) 400) 0 { Port.reset with txq := [frame0] }
/-- The management port with its link down. -/
def mgmtDown : State := setPort up 8 { Port.reset with noLink := true }
def plugged : State := odSet (odSet (odSet up (kPortEnable 0) 1) kVosfpPresent 1) kOsfpPresent 1
theorem wit_PortsGoUpAndDown : odN linked (kLinkUp 0) ≠ 0 ∧ (∀ f ∈ (port linked 0).txq ++ (port linked 0).wait, f.part < 40) ∧ odN up (kLinkUp 0) = 0 ∧
    (port up 8).noLink = false ∧ (port mgmtDown 8).noLink = true ∧ plugged.boot.portsOff = false ∧
    portExists plugged 0 = true ∧ odN plugged (kPortEnable 0) = 1 ∧ odN plugged (kLinkUp 0) = 0 ∧ odN plugged kVosfpPresent = 1 ∧
    bitOf (odN plugged kOsfpPresent) 0 = true ∧ bitOf plugged.pow.lowPower 0 = false ∧ domState plugged 0x60 = 0 ∧
    writeOpen up kCageMode (.num 15) = true ∧ anyOpen up = false ∧ odN up kPtpPort % 2 ≠ 1 ∧ writeOpen up (kPortEnable 0) (.num 0) = true ∧
    portExists up 0 = true := by decide +kernel

def flowing : State := odSet linked kFlowControl 1
def pausing : State := setPort flowing 0 { Port.reset with pausing := true }
/-- A pause received that has ended at time 0, and one that has not. -/
def paused (u : Nat) : State := setPort flowing 0 { Port.reset with pausedUntil := some u }
theorem wit_PausesTaken : odN flowing kFlowControl ≠ 0 ∧ bitOf 255 (odN flowing kPcpFree) = true ∧
    0 < lget 0 (List.replicate 8 1) (odN flowing kPcpFree) ∧ odN flowing (kLinkUp 0) ≠ 0 ∧ (port flowing 0).pausing = false ∧
    3 * bufferHalf < 4 * 1572865 ∧ 1572865 ≤ bufferHalf ∧ (port up 0).pausing = false ∧ odN pausing kFlowControl ≠ 0 ∧ odN pausing (kLinkUp 0) ≠ 0 ∧ (port pausing 0).pausing = true ∧
    (port { pausing with now := 40000 } 0).lastPause + 40000 ≤ ({ pausing with now := 40000 } : State).now ∧ pausing.now < (port pausing 0).lastPause + 40000 ∧
    (port (paused 0) 0).pausedUntil = some 0 ∧ 0 ≤ (paused 0).now ∧ (port (paused 5) 0).pausedUntil = some 5 ∧ (paused 5).now < 5 ∧
    2 * 1048575 < bufferHalf ∧ bufferHalf < 2 * 1048577 ∧ 2 * 1048576 = bufferHalf := by decide +kernel

/-- Partition 0 with VLAN 5 on port 0, a job map with peer 1, and a channel to it. -/
def peer1 : Peer := ⟨1, 1, 1, 4, 0x12B7, [⟨1, 0, 2, 0, 0⟩], []⟩
def job0 : JobMap := ⟨7, 1, 1, 2, 1, 0, 0, 1, 0, [noPeer, peer1]⟩
def heard : State :=
  let s := setPart linked 0 { part linked 0 with job := some job0 }
  setChan s 0 0 1 { Chan.reset with txAn := some 0, rx := [⟨0, [], 1⟩] }
/-- The IP and UDP headers of a frame to the module's own address 0, in version 6. -/
def rxIp : List Byte :=
  ipOctets (setPart heard 0 { part heard 0 with job := some { job0 with peers := [noPeer, { peer1 with ipVersion := 6, udpPort := 46260, ports := [⟨0, 0, 2, 0, 0⟩] }] } }) 0 0 1 0 false
    (hrtOctets hdr0) [1, 2, 3, 4] ++ hrtOctets hdr0 ++ [1, 2, 3, 4]
def rx0 : RxFrame :=
  { shared := 0, reserved := 0, fecBad := 0, fecCorrected := 0, fecSymbols := 0, fcsOk := true, icvOk := true
    octets := odB heard (kMacAddress 0) ++ beBytes 6 1 ++ beBytes 2 0x8100 ++ beBytes 2 5 ++ beBytes 2 0x88E5 ++ [0x2C, 0] ++ beBytes 4 1 ++
      peerSci job0 1 0 ++ rxIp }
theorem wit_FramesPassThePort : rxFits rx0 = true ∧ odN heard (kLinkUp 0) ≠ 0 ∧
    (if rx0.pcp = odN heard kPcpTimetabled then rx0.reserved else rx0.shared) + 9216 ≤ bufferHalf ∧ 64 ≤ rx0.length ∧ rx0.length ≤ 9216 ∧
    rx0.tagged = true ∧ rx0.tpid = 0x8100 ∧ rx0.vid ≠ odN heard kPtpVid ∧ rx0.etherType ≠ 0x8100 ∧ rx0.etherType ≠ 0x88A8 ∧
    vidPart heard rx0.vid 0 = some 0 ∧ rx0.dstMac = odB heard (kMacAddress 0) ∧ rx0.hasSecTag = true ∧ rx0.hasSci = true ∧
    sciPeer heard 0 0 rx0.sci = some 1 ∧ (chan heard 0 0 1).rx = [⟨0, [], 1⟩] ∧ rx0.an = 0 ∧ 1 ≤ rx0.pn ∧ rx0.ipOk = true ∧
    rx0.dstIp = odB heard (kLocalIp 0 1) ∧ rx0.udpPort = odN heard kHrtUdpPort ∧
    rekeyDue { chan heard 0 0 1 with rx := [⟨0, [], rx0.pn + 1⟩] } = false ∧ (port mgmtDown 8).noLink = true ∧ (port heard 8).noLink = false ∧
    odN heard (kPortSpeed 0) ≠ 0 ∧ (port heard 0).txq = [frame0] ∧ (port heard 0).lastEnd ≤ 5 ∧ (port heard 0).pausedUntil = none ∧
    (∀ x ∈ heard.parts, x.2.paths = []) ∧ maySend heard 0 frame0 = true ∧ pnStalled heard 0 frame0 = false ∧ (port heard 0).wait = [] ∧
    (∀ x ∈ heard.qps, ∀ g ∈ x.2.frames, g.sent ≠ none ∧ g.again = false) ∧
    rekeyDue { chanReady (chan heard 0 0 1) with txPn := (chanReady (chan heard 0 0 1)).txPn + 1 } = false := by decide +kernel

/-! ### Grants -/

def g72 : List Byte := 2 :: List.replicate 71 0
/-- The shadow copy of partition 0 adds consist 1 and far granule 1. -/
def grant1 : Grant := { grant0 with consists := 3, near := 3 }
def shadowed : State := setPart own 0 { part own 0 with shadow := some grant1 }
def readied : State := setPart own 0 { part own 0 with shadow := some grant1, ready := true }
theorem wit_GrantsWritten : writeOpen own 0x610003 (.octets g72) = true ∧ g72.length = grantLen 3 ∧
    writeOpen own 0x610008 (.octets (List.replicate 16 0)) = true ∧ grantLen 8 = 16 ∧
    writeOpen own 0x610002 (.num (2 ^ 64 - 1)) = true ∧ writeOpen own (kVid 0) (.num 4094) = true ∧ vidTaken own 0 4094 = false ∧
    4094 ≠ odN own kPtpVid ∧ writeOpen own (kPortMap 0) (.num 255) = true ∧ (bitList 8 255).all (portExists own) = true ∧
    writeOpen shadowed (kGrantCommit 0) (.num 1) = true ∧ commitCheck shadowed 0 = .ok ∧ writeOpen own (kGrantCommit 0) (.num 3) = true ∧
    writeOpen own (kGrantCommit 0) (.num 2) = true ∧ grantsClosed own = false ∧ stepOpen own 0 = false ∧ (part own 0).grant ≠ none ∧
    writeOpen own (kGrantCommit 0) (.num 4) = true := by decide +kernel

/-- Granule 3 waits for its scrub; it runs; consist 2 is cleared. -/
def leaving (l : List Leaving) : State := { up with health := { up.health with leaving := l }, mem := { up.mem with cells := [(3 * 2 ^ 30, 9), (4 * 2 ^ 30, 7)] } }
theorem wit_GrantsSwap : (part readied 0).leaves = false ∧ (part readied 0).ready = true ∧ addsFree readied 0 = true ∧ odN readied (kPartState 0) ≠ 2 ∧
    ((leaving [⟨0, 3, 255, false⟩]).health.leaving.any fun l => l.tier = 0 && l.no = 3 && !l.running) = true ∧
    (leaving [⟨3, 6399, 255, true⟩]).health.leaving.find? (fun l => l.tier = tierCode .depot && l.no = 6399 && l.running) = some ⟨3, 6399, 255, true⟩ ∧
    ((leaving [⟨4, 2, 255, true⟩]).health.leaving.any fun l => l.tier = 4 && l.no = 2 && l.running) = true ∧
    isLeaving up (tierCode .far) 0 = false := by decide +kernel

theorem wit_GrantsSwap_busy : granuleBusy (leaving [⟨0, 3, 255, false⟩]) .near 3 = false ∧ granuleBusy (leaving [⟨1, 3, 255, false⟩]) .far 3 = false ∧
    ((leaving [⟨1, 3, 255, false⟩]).health.leaving.any fun l => l.tier = tierCode .far && l.no = 3 && !l.running) = true ∧
    consistBusy (leaving [⟨4, 2, 255, true⟩]) 2
      ((leaving [⟨4, 2, 255, true⟩]).health.leaving.any fun l => l.tier = 4 && l.no = 2 && decide (l.part < 40)) = false ∧ isLeaving up 4 2 = false ∧
    up.health.leaving.find? (fun l => l.tier = tierCode .far && l.no = 0 && l.running) = none ∧
    region up farBase = .far ∧ odN up kFarChannelFailed = 0 := by decide +kernel
theorem wit_PreserveAndPatrol : 1 < depotGranules own ∧ writeOpen own kDepotPreserveSet (.num 1) = true ∧
    (own.parts.find? fun x => bitOf (grantOf own x.1).depot 1) = none ∧ writeOpen own kDepotPreserveClear (.num 0) = true ∧
    region up 70 = .near ∧ region up (nearEnd - 1) = .near ∧ (nearEnd - 1) / 64 * 64 = lastLine up false := by decide +kernel

/-! ### Keys, debug access, restarts -/

def quoteAll : List Byte := List.replicate 32 3 ++ [0xFF]
/-- Partition 0 without depot granules. -/
def depotless : State := setPart up 0 { Part.reset with grant := some { grant0 with depot := 0 } }
/-- A ciphertext, and the import of the secret that the device's KEM key makes of it. -/
def importCt : List Byte := List.replicate 1088 0
def importKey : List Byte := (List.range 32).map (Config.kemSecret depotless.sec.deviceKem importCt)
def importBytes : List Byte := importCt ++ importProof depotless 0 importKey
/-- A certificate of the module's own keys, and the key whose fingerprint is fused. -/
def certBytes : List Byte := List.replicate 11834 0
def fused (s : State) : State := { s with sec := { s.sec with rootKey := fingerprint [], firmwareKey := fingerprint [] } }
def certifiedBy (id root : List Byte) : State :=
  { up with
    od := tins (tins up.od kIdentityFingerprint (.octets id)) kDeviceKemPublicKey (.octets (List.replicate 1184 0))
    sec := { up.sec with rootKey := root, firmwareKey := root } }
def certified : State := certifiedBy (fingerprint (List.replicate 1952 0)) (fingerprint [])
theorem wit_QuotesAndKeys : quoteAll.length = 33 ∧ (lget 0 quoteAll 32).toNat = 0xFF ∧ writeOpen up kQuoteRequest (.octets quoteAll) = true ∧
    (up.sec.quotes.filter fun t => up.now < t).length < 8 ∧
    (part depotless 0).grant ≠ none ∧ (grantOf depotless 0).depot = 0 ∧ (shadowOf depotless 0).depot = 0 ∧
    writeOpen up kObserverKeys (.octets []) = true := by decide +kernel
/-- Octet values of a dictionary whose module is up are taken at any length up to 65,535. -/
theorem octets_open (s : State) (key : Nat) (bs : List Byte) (hk : keyTy key = .octets) (hs : writeOpen s key (.octets []) = true)
    (h : bs.length ≤ 65535) : writeOpen s key (.octets bs) = true := by
  simpa [writeOpen, hk, typeOk, h] using hs
theorem wit_QuotesAndKeys_sizes : writeOpen up kOperatorKeys (.octets (List.replicate 7808 0)) = true ∧
    writeOpen up (kTenantKey 39) (.octets (List.replicate 1952 0)) = true :=
  ⟨octets_open _ _ _ (by decide +kernel) (by decide +kernel) (by rw [List.length_replicate]; decide),
   octets_open _ _ _ (by decide +kernel) (by decide +kernel) (by rw [List.length_replicate]; decide)⟩
theorem certifiedBy_open (id root : List Byte) : writeOpen (certifiedBy id root) kIdentityCertWrite (.octets []) = true := by rfl
theorem certifiedBy_id (id root : List Byte) : odB (certifiedBy id root) kIdentityFingerprint = id := by rfl
theorem certifiedBy_kem (id root : List Byte) : odB (certifiedBy id root) kDeviceKemPublicKey = List.replicate 1184 0 := by rfl
theorem certifiedBy_root (id root : List Byte) : (certifiedBy id root).sec.rootKey = root := rfl
theorem certBytes_length : certBytes.length = 11834 := by rw [certBytes, List.length_replicate]
theorem wit_QuotesAndKeys_cert : certBytes.length = 11834 ∧ writeOpen certified kIdentityCertWrite (.octets certBytes) = true := by
  refine ⟨certBytes_length, octets_open _ _ _ (by decide +kernel) ?_ (by rw [certBytes_length]; decide)⟩
  rw [certified, certifiedBy_open]
theorem wit_QuotesAndKeys_own : ownKeys certified certBytes = true ∧ fusedKey certified.sec.rootKey (some []) = true := by
  rw [certified, ownKeys, fusedKey, certifiedBy_id, certifiedBy_kem, certifiedBy_root, certBytes, List.drop_replicate, List.take_replicate,
    List.drop_replicate, List.take_replicate, Bool.and_eq_true, decide_eq_true_eq, decide_eq_true_eq, decide_eq_true_eq]
  exact ⟨⟨rfl, rfl⟩, rfl⟩
theorem wit_QuotesAndKeys_length : importBytes.length = 1120 := by
  rw [importBytes, List.length_append, importCt, List.length_replicate, importProof, shake256_length]
theorem wit_QuotesAndKeys_import : writeOpen depotless (kDepotKeyImport 0) (.octets importBytes) = true := by
  have h : typeOk (keyTy (kDepotKeyImport 0)) (.octets importBytes) = decide (importBytes.length ≤ 65535) := rfl
  rw [writeOpen, h, wit_QuotesAndKeys_length]
  decide +kernel
theorem wit_QuotesAndKeys_parts : importBytes = importCt ++ importProof depotless 0 importKey := by rw [importBytes]
theorem wit_QuotesAndKeys_proof : importBytes.drop 1088 = importProof depotless 0 (importSecret depotless importBytes) := by
  have h : importBytes.take 1088 = importCt := List.take_left' List.length_replicate
  rw [importSecret, h]
  exact List.drop_left' List.length_replicate

def consented : State := odSet up kDebugConsent 1
def erasing : State := odSet { up with sec := { up.sec with release := true } } kDebugState 1
theorem wit_DebugOpensByErasing : odN consented kDebugConsent ≠ 0 ∧ writeOpen consented kDebugOpen (.num 1) = true ∧ odN consented kDebugState ≠ 1 ∧
    ({ up with sec := { up.sec with tap := 4 } } : State).sec.tap = 4 ∧ up.link.resetLow = false ∧ up.sec.tapOpen = false ∧
    erasing.sec.release = true ∧ (∀ x ∈ erasing.parts, x.2.grant = none) ∧ odN (odSet up kDebugState 1) kDebugState = 1 ∧
    up.sec.release = false ∧ (∀ x ∈ up.pools, x.2.flight = [] ∧ x.2.pending = []) := by decide +kernel

theorem wit_HoldDiscarded : run.boot.inRecovery = false ∧ run.pow.stopped = false := by decide +kernel

theorem wit_RestartsBegin : writeOpen up kModuleRestart (.num 1) = true ∧ odN up kHoldState = 0 ∧ anyPart up = false ∧
    writeOpen own kModuleRestart (.num 2) = true ∧ writeOpen up kLedgerClear (.num 1) = true ∧ writeOpen up kRestoreDefaults (.num 1) = true := by
  decide +kernel

/-- A start-up whose first `n` steps were clean. -/
def clean (i : Nat) : LedgerEntry := ⟨0, 1, 0, i, 0, 0, 0⟩
def bootAt (n : Nat) : State := { State.reset with boot := { State.reset.boot with entries := (List.range n).map clean } }
def found0 : StepFinding := ⟨none, 0, 100000⟩
def env0 : BootEnv := ⟨0, [found0], List.replicate 40 0, List.replicate 8 0, 0, false, [], List.replicate 5 []⟩
/-- The host's reset input asserted before step 0x0B. -/
def bootReset : State := let s := bootAt 11
  { s with link := { s.link with resetLow := true } }
theorem wit_StartUpSteps_reset : booting bootReset = true ∧ bootReset.boot.entries.length = 11 ∧ bootReset.link.resetLow = true := by
  decide +kernel
def unpowered : State := { up with pow := { up.pow with stopped := true } }
theorem wit_StartUpSteps : env0.wf = true ∧ booting (bootAt 0) = true ∧ booting (bootAt 13) = true ∧ (bootAt 13).boot.entries.length = 13 ∧
    ((bootAt 13).boot.entries.all fun x => x.status = 0 && x.mode = 0) = true ∧ booting (bootAt 1) = true ∧ booting (bootAt 3) = true ∧
    booting (bootAt 7) = true ∧ booting (bootAt 12) = true ∧ (bootAt 12).boot.entries.length = 12 ∧ isF32 (vinStart + 1) = true ∧
    f32Lt vinStart (vinStart + 1) = true ∧ isF32 (vinLoss - 1) = true ∧ f32Lt (vinLoss - 1) vinLoss = true ∧ unpowered.pow.stopped = true ∧
    up.pow.stopped = false := by decide +kernel

/-! ### Firmware -/

/-- An image of 3,373 octets with empty components. -/
def image1 : List Byte :=
  leBytes 2 1 ++ List.replicate 30 0 ++ fwPart ++ List.replicate 8 0 ++ leBytes 4 3373 ++ leBytes 4 0x46534B48 ++ List.replicate 3309 0

def candidate (st : Nat) : State :=
  odSet { fused up with boot := { up.boot with candLength := 3373, candChunks := [(0, image1)], candHeader := some (parseFw image1) } } kFwCandidateState st
def committing : State := { candidate 3 with boot := { (candidate 3).boot with committing := true, flash := none } }
def chunk9 : List Byte := leBytes 4 0 ++ leBytes 4 1 ++ [7]
def chunkFull : List Byte := leBytes 4 0 ++ leBytes 4 32768 ++ List.replicate 32768 0
theorem wit_FirmwareMoves : writeOpen up kFwChunk (.octets chunk9) = true ∧ up.boot.committing = false ∧ chunk9.length = 9 ∧
    leNat (chunk9.take 4) = 0 ∧ chunk9.length - 8 ≤ leNat ((chunk9.drop 4).take 4) ∧ writeOpen (candidate 1) kFwControl (.num 1) = true ∧
    writeOpen (candidate 2) kFwControl (.num 2) = true ∧ odN (candidate 2) kFwCandidateState = 2 ∧ odN (candidate 2) kBootState ≠ 0 ∧
    holding (candidate 2) = false ∧ committing.boot.committing = true ∧ writeOpen (candidate 4) kFwControl (.num 3) = true ∧
    odN (candidate 4) kFwCandidateState = 4 ∧ odN (candidate 4) kHoldState = 0 ∧ anyPart (candidate 4) = false ∧
    writeOpen up kFwControl (.num 4) = true := by decide +kernel
theorem wit_FirmwareMoves_chunk : writeOpen up kFwChunk (.octets chunkFull) = true ∧ chunkFull.length = 32776 ∧
    leNat (chunkFull.take 4) = 0 ∧ chunkFull.length - 8 ≤ leNat ((chunkFull.drop 4).take 4) := by decide +kernel
theorem wit_FirmwareMoves_verify : fusedKey (candidate 1).sec.firmwareKey (some []) = true ∧ fwCheck (candidate 1) (parseFw (candBytes (candidate 1)))
    (candWhole (candidate 1) && (parseFw (candBytes (candidate 1))).imageLength = (candidate 1).boot.candLength) true = .ok := by decide +kernel
/-- The same image in the buffer of ROM recovery: its octets that are not zero. -/
def recovering : State :=
  let buf := (image1.zipIdx.filter fun x => x.1 ≠ 0).map fun x => (x.2, x.1)
  { fused State.reset with boot := { State.reset.boot with inRecovery := true, recoveryLength := 3373, recBuf := buf } }
theorem wit_FirmwareMoves_recovery : recovering.boot.inRecovery = true ∧ fusedKey recovering.sec.firmwareKey (some []) = true ∧
    fwCheck recovering (parseFw ((List.range recovering.boot.recoveryLength).map fun i => tget 0 recovering.boot.recBuf i))
      ((parseFw ((List.range recovering.boot.recoveryLength).map fun i => tget 0 recovering.boot.recBuf i)).imageLength =
        recovering.boot.recoveryLength) true = .ok := by decide +kernel

/-! ### Management -/

/-- Session 1 of a role, proved or not, with the management address set. -/
def sess (r : Role) (p : Nat) (proved : Bool) : Session :=
  { role := r, part := p, keyFp := [], clientNonce := [], moduleNonce := [], secret := [], proved := proved, last := 0, rxSeq := 0, txSeq := 0
    answers := [], snapshots := [] }
def managed (l : List (Nat × Session)) : State :=
  let s := odPut up kMgmtIp (.octets (leBytes 16 1))
  { s with book := { s.book with sessions := l } }
def opened : State := managed [(1, sess .operator 0xFF true)]
def req (index sub len : Nat) (value : List Byte) : LmpReq :=
  { session := 1, mailbox := 64, datagramOk := true, frameSeq := 1, requestId := 9, tagOk := true, formOk := true, index := index, sub := sub
    offset := 0, total := 0, length := len, final := true, value := value, found := none, t := 5 }
def readReq : LmpReq := req 0x1000 1 8144 []
def writeReq : LmpReq := { req (kPowerCap / 256) (kPowerCap % 256) 2 (leBytes 2 900) with total := 2 }
def gated (s : State) (r : LmpReq) : State := (gate (atTime s r.t) r).1
theorem wit_RequestsAnswered_read : readReq.wf = true ∧ reqForm readReq = true ∧ readForm readReq = true ∧
    (gate (atTime opened 5) readReq).2 = some (1, { sess .operator 0xFF true with rxSeq := 1, last := 5 }) ∧
    ((readOctets (bump (gated opened readReq) kLmpRequests 1 none) (whoOf 1 (sess .operator 0xFF true)) 0x100001).map List.length).isSome = true ∧
    ((readWhole (bump (gated opened readReq) kLmpRequests 1 none) (whoOf 1 (sess .operator 0xFF true)) 0x1000).2.map fun b =>
      decide (b.length ≤ 8144)) = some true := by decide +kernel

theorem wit_RequestsAnswered_write : writeReq.wf = true ∧ reqForm writeReq = true ∧ writeReq.length = writeReq.value.length ∧
    (gate (atTime opened 5) writeReq).2 = some (1, { sess .operator 0xFF true with rxSeq := 1, last := 5 }) ∧ writeReq.total = writeReq.length ∧
    (gated opened writeReq).book.segs.find? (fun x => x.key = writeReq.index * 256 + writeReq.sub) = none := by decide +kernel
theorem wit_RequestsAnswered_written :
    (writeAnswer (bump (gated opened writeReq) kLmpRequests 1 none)
      (wholeWrite (bump (gated opened writeReq) kLmpRequests 1 none) (whoOf 1 (sess .operator 0xFF true)) kPowerCap (leBytes 2 900) none)
      kPowerCap).status = .ok := by decide +kernel

/-- A book of two entries whose newer one is a checkpoint with a signature; serials 0 and 1. -/
def booked : State :=
  let e (kind : Nat) : List Byte := List.replicate 21 0 ++ leBytes 1 kind ++ List.replicate 154 0
  odSet { opened with book := { opened.book with entries := [e 2, e 1], sigs := [(1, [5])], unsigned := [1], since := odN up kBookCheckpointInterval } } kBookHeadSerial 1
def bookReq : LmpReq := req 0 0 12 (leBytes 8 0 ++ leBytes 4 2)
def checkReq : LmpReq := req 0 0 8 (leBytes 8 1)
theorem wit_RequestsAnswered_book : bookReq.wf = true ∧ reqForm bookReq = true ∧ leNat (bookReq.value.take 8) = 0 ∧
    leNat (bookReq.value.drop 8) = 2 ∧ serialCheck (gated booked bookReq) 0 = .ok ∧ 0 + 2 ≤ odN (gated booked bookReq) kBookHeadSerial + 1 ∧
    (gate (atTime booked 5) bookReq).2.isSome = true ∧ checkReq.wf = true ∧ reqForm checkReq = true ∧
    (gate (atTime booked 5) checkReq).2.isSome = true ∧ serialCheck (gated booked checkReq) (leNat checkReq.value) = .ok ∧
    lget 0 (entryAt (gated booked checkReq) 1) 21 = 2 ∧ tget [] (gated booked checkReq).book.sigs 1 ≠ [] := by decide +kernel

def openReq : LmpOpenReq := ⟨9, true, true, 1, 39, true, List.replicate 32 0, List.replicate 32 0, [], 5⟩
def closeReq : LmpReq := req 0 0 0 []
/-- Session 1 waits for its proof, under the operator's key. -/
def unproved : State := managed [(1, { sess .operator 0xFF false with keyFp := fingerprint ((odB up kOperatorKeys).take 1952) })]
theorem wit_SessionsOpenAndEnd : openForm openReq = true ∧ dictUp opened = true ∧ odB opened kMgmtIp ≠ zeros 16 ∧
    (opened.book.sessions.filter fun x => x.1 < 2 ^ 32).length < 16 ∧ (session? unproved 1).map Session.proved = some false ∧
    (session? unproved 1).map Session.txSeq = some 0 ∧ closeReq.wf = true ∧ reqForm closeReq = true ∧
    (gate (atTime opened 5) closeReq).2.map Prod.fst = some 1 ∧ (session? unproved 1).map Session.last = some 0 ∧
    0 + 5000000000 ≤ max unproved.now 5000000000 ∧ (session? opened 1).map Session.proved = some true ∧
    0 + odN opened kLmpIdleS * 1000000000 ≤ max opened.now (odN opened kLmpIdleS * 1000000000) := by decide +kernel
theorem wit_SessionsOpenAndEnd_keys : keysIn (odB unproved kOperatorKeys) = [(odB up kOperatorKeys).take 1952] := by decide +kernel
theorem wit_SessionsOpenAndEnd_key : keyNamed unproved .operator 0xFF (fingerprint ((odB up kOperatorKeys).take 1952)) = true := by
  rw [keyNamed, wit_SessionsOpenAndEnd_keys, List.map_singleton, List.contains_cons, BEq.rfl, Bool.true_or]

theorem wit_BookKeepsItself : dictUp booked = true ∧ odN booked kBookCheckpointInterval ≤ booked.book.since ∧ booked.book.unsigned = [1] ∧
    odN booked kBookOldestSerial ≤ 1 ∧ starting up = false ∧ odN up kBookExportMark ≤ 2 ^ 64 - 1 ∧
    typeOk (keyTy kBookExportMark) (.num (2 ^ 64 - 1)) = true := by decide +kernel
theorem wit_BookKeepsItself_setting : ∃ s : State, s.book.settings = [(5, kMgmtIp, .octets (zeros 16))] ∧ 5 ≤ max s.now 5 :=
  ⟨{ up with book := { up.book with settings := [(5, kMgmtIp, .octets (zeros 16))] } }, rfl, by decide⟩

/-! ### The host link -/

def links (v : Nat) (f : LinkSt → LinkSt) : State := odSet { own with link := f own.link } kBrynqLinksUp v
def failing (v : Nat) : State := links v fun l => { l with error0 := some 0 }
theorem wit_HostResetIsHostLoss : own.boot.inRecovery = false ∧ odN own kHoldState = 0 ∧ starting own = false ∧ (∀ x ∈ own.parts, x.1 < 40) ∧
    (∀ x ∈ own.queues, x.2.part < 40) := by
  decide +kernel
/-- Link 0 is down, and a completion's last bytes have not been acknowledged. -/
def posted : State := links 0 fun l => { l with unacked := [⟨4096, [1], some (0, ⟨0, 0, 0, 0, 0, 0, false⟩)⟩] }
theorem wit_LinksFailAndReturn_replay : posted.link.resetLow = false ∧ domState posted 0x70 = 0 ∧ posted.boot.noHost = false ∧
    (∃ w ∈ posted.link.unacked, w.done ≠ none) ∧ (∀ x ∈ (failing 0).queues, x.2.part < 40) ∧ odN (failing 0) kHoldState = 0 ∧
    starting (failing 0) = false ∧ (failing 0).link.error0 = some 0 := by decide +kernel
theorem wit_LinksFailAndReturn : bitOf (odN (links 3 id) kBrynqLinksUp) 1 = true ∧ own.link.resetLow = false ∧ domState own 0x70 = 0 ∧
    own.boot.noHost = false ∧ odN (failing 2) kBrynqLinksUp ≠ 0 ∧ (failing 2).link.error0 = some 0 ∧
    0 + odN (failing 2) kBrynqRetryWindow * 1000 ≤ max (failing 2).now 10000000000 ∧ (failing 2).link.error1 = none ∧
    bitOf (failing 2).link.degraded 0 = false ∧ odN (failing 0) kBrynqLinksUp = 0 ∧ odN (odSet (failing 0) kHostLossMode 1) kHostLossMode = 1 := by
  decide +kernel

def inHold (v : Nat) (quiesced : Bool) : State := odSet { run with link := { run.link with quiesced := quiesced } } kHoldState v
theorem wit_HoldAndAdoption : odN (inHold 1 false) kHoldState = 1 ∧ (con (inHold 1 false) 0).pstate = .running ∧ (con (inHold 1 false) 0).hold = none ∧
    odN (inHold 1 true) kHoldState = 1 ∧ drainedAll (inHold 1 true) = true ∧ 1 ≠ (inHold 2 true).link.holdEpoch ∧ odN (inHold 2 true) kHoldState = 2 ∧ odN (inHold 4 true) kHoldState = 4 ∧ (inHold 4 true).link.relost = false ∧
    odN (inHold 3 false) kHoldState = 3 ∧ (inHold 3 false).link.adoptEpoch = (inHold 3 false).link.holdEpoch := by decide +kernel

/-- Hold with the record's own digest. -/
def recordedOf (s : State) : State := { s with link := { s.link with holdDigest := recordDigest s } }
def recorded : State := recordedOf (inHold 2 true)
theorem wit_HoldAndAdoption_adopt : odN recorded kHoldState = 2 ∧ recorded.link.holdEpoch < 2 ^ 64 ∧ recorded.link.recordGone = false := by
  decide +kernel
theorem digest_keeps (s : State) (d : List Byte) : recordDigest { s with link := { s.link with holdDigest := d } } = recordDigest s := rfl
theorem recordedOf_digest (s : State) : recordDigest (recordedOf s) = (recordedOf s).link.holdDigest ∧ (recordedOf s).link.holdDigest.length = 32 :=
  ⟨digest_keeps _ _, shake256_length _ _⟩
theorem wit_HoldAndAdoption_digest : recordDigest recorded = recorded.link.holdDigest ∧ recorded.link.holdDigest.length = 32 := by
  rw [recorded]; exact recordedOf_digest _

def withQueue (f : HQueue → HQueue) : State := setQueue own 0 (f { HQueue.reset with part := 0, sqOrder := 6, cqOrder := 6 })
def queued : State := withQueue fun v => { v with enable := true, state := 1, dataLength := 2 ^ 40 }
theorem wit_QueuesRun : holding own = false ∧ (withQueue id).boot.noHost = false ∧ (queue (withQueue id) 0).enable = false ∧
    (queue (withQueue id) 0).sqBase % 4096 = 0 ∧
    (queue (withQueue id) 0).cqBase % 4096 = 0 ∧ (queue (withQueue id) 0).sqOrder = 6 ∧ (queue (withQueue id) 0).cqOrder = 6 ∧
    (queue (withQueue id) 0).reserved = 0 ∧ assigned (withQueue id) (queue (withQueue id) 0).part = true ∧ (queue (withQueue id) 0).retained = [] ∧
    (queue (withQueue id) 0).waiting = [] ∧ (queue (withQueue id) 0).state ≠ 4 ∧ (queue queued 0).retained = [] ∧ (queue queued 0).state ≠ 3 ∧
    (queue queued 0).enable = true ∧ (queue queued 0).state = 1 ∧ (queue queued 0).started = [] ∧ (queue queued 0).waiting = [] ∧
    (64 + 2 ^ 32 - (queue queued 0).seqExpected) % 2 ^ 32 ≤ 2 ^ (queue queued 0).sqOrder ∧
    2 ^ (queue queued 0).sqOrder < (65 + 2 ^ 32 - (queue queued 0).seqExpected) % 2 ^ 32 ∧
    ((queue queued 0).cqWritten + 2 ^ 32 - (2 ^ 32 - 64)) % 2 ^ 32 ≤ 2 ^ (queue queued 0).cqOrder ∧
    2 ^ (queue queued 0).cqOrder < ((queue queued 0).cqWritten + 2 ^ 32 - (2 ^ 32 - 65)) % 2 ^ 32 := by decide +kernel

/-- Aperture 1 opens near granule 0 for partition 0, with bytes at 64. -/
def apertured : State :=
  { own with apertures := [(1, ⟨0, 16, 0, true, true, true⟩)], mem := { own.mem with cells := [(64, 5), (65, 6)] } }
theorem wit_HostRegionAccessed : domState apertured 0x70 = 0 ∧ apertured.boot.inRecovery = false ∧ hostPlace (2 ^ 33 + 64) = .window 1 64 ∧
    holding apertured = false ∧ aperture apertured 1 = ⟨0, 16, 0, true, true, true⟩ ∧ linkReach apertured 0 64 2 false = true ∧
    (touch apertured 64 2).1 = apertured ∧
    ((linesOf 64 2).all fun l => !badAt apertured.mem (l * 64) && !farDown apertured (l * 64)) = true ∧
    64 + 2 ≤ 16 * 4096 ∧ 64 + 2 ≤ stagingBase ∧ 64 + 2 ≤ 2 ^ 33 ∧ linkReach apertured 0 64 2 true = true ∧ writeAllowed apertured 0 64 2 = (apertured, .ok) ∧ hostPlace 0x1000 = .reserved ∧
    hostPlace 0x140_0000 = .reserved := by decide +kernel

/-! ### Manifests -/

def man (op : Nat) (ops : List Byte) : List Byte := zeros 4 ++ fit 44 ops ++ zeros 14 ++ leBytes 1 op ++ leBytes 1 0x5A
def withMan (b : List Byte) : State :=
  let s := setQueue queued 0 { queue queued 0 with started := [⟨0, b, none, .ok, [], [], []⟩] }
  { s with sems := [(3, { Sem.reset with part := 0 })] }
/-- A manifest of sequence 0 whose checksum holds. -/
def sumMan : List Byte := let b := man 0 []
  leBytes 4 (crc32c ((b.drop 4).take 59)) ++ b.drop 4
def tailed (retry : Option Nat) : State := setQueue queued 0 { queue queued 0 with sqTail := 1, retry := retry }
theorem wit_ManifestsFetched : sumMan.length = 64 ∧ (queue (tailed none) 0).state = 1 ∧ (queue (tailed none) 0).seqExpected ≠ (queue (tailed none) 0).sqTail ∧
    (queue (tailed none) 0).retry = none ∧ slotFree (queue (tailed none) 0) = true ∧ 0 < fetchCount (queue (tailed none) 0) ∧
    slotFree (queue (tailed (some 15)) 0) = true ∧ (queue (tailed (some 15)) 0).state = 1 ∧ mValid sumMan (queue (tailed (some 15)) 0).seqExpected = true ∧
    mValid sumMan (queue (tailed none) 0).seqExpected = true ∧ (queue (tailed (some 15)) 0).retry = some 15 ∧
    mValid (man 0 []) (queue (tailed (some 15)) 0).seqExpected = false := by decide +kernel

/-- A manifest that has ended, with `n` links up. -/
def ended (n : Nat) : State :=
  odSet (setQueue queued 0 { queue queued 0 with started := [⟨0, man 0 [], some [(0, .ok)], .ok, [], [], []⟩], irqAddr := 4096, events := true })
    kBrynqLinksUp n
theorem wit_NotificationFollows : (queue (ended 3) 0).state = 1 ∧
    (∀ n ∈ [0, 3], (queue (ended n) 0).started.find? (fun y => y.seq = 0 && y.parts ≠ none && !(y.parts.getD []).any fun z => partUnacked (ended n) y.bytes z.1) =
      some ⟨0, man 0 [], some [(0, .ok)], .ok, [], [], []⟩) ∧
    mPost (man 0 []) = false ∧ mOp (man 0 []) ≠ 0x01 ∧ mOp (man 0 []) ≠ 0x0A ∧ (queue (ended 3) 0).retained = [] ∧
    odN (ended 0) kBrynqLinksUp = 0 ∧ odN (ended 3) kBrynqLinksUp ≠ 0 ∧ (ended 3).link.unacked = [] ∧ (ended 3).queues = [(0, queue (ended 3) 0)] ∧
    (queue (ended 3) 0).part = 0 ∧ (queue (ended 3) 0).events = true ∧ (queue (ended 3) 0).enable = true ∧ (queue (ended 3) 0).waiting = [] ∧
    slotsUsed (queue (ended 3) 0) < 2 ^ (queue (ended 3) 0).cqOrder := by decide +kernel

def nopMan : List Byte := man 0 []
def loadMan : List Byte := man 1 (leBytes 8 0 ++ leBytes 4 64 ++ leBytes 5 1)
def conMan (action : Nat) : List Byte := man 2 (leBytes 5 1 ++ leBytes 1 action)
def image : Image := ⟨9680, odN own kOviMajorMax, [⟨0, [.loopBegin, .verb, .loopEnd, .halt], []⟩], [], [], []⟩
def loaded (st : PState) (action : Nat) : State := setCon (withMan (conMan action)) 0 { Consist.reset with pstate := st, prog := some prog0 }
/-- A loaded program whose stream has no verb. -/
def emptied : State := setCon (withMan (conMan 0)) 0 { Consist.reset with prog := some ⟨[], [], [], []⟩ }
def okAt (s : State) (op : Nat) : Bool := match startable s 0 0 (isOp op) with
  | some x => decide (commonCheck s 0 x.bytes = .ok)
  | none => false
theorem wit_ManifestsProgramConsists : okAt (withMan nopMan) 0 = true ∧ okAt (withMan loadMan) 1 = true ∧
    imageCheck (withMan loadMan) 0 loadMan image = .ok ∧ rangeInTier (withMan loadMan) 0 2 (mB loadMan 4 8) (mB loadMan 12 4) false = true ∧
    rangeLost (withMan loadMan) (mB loadMan 4 8) (mB loadMan 12 4) = false ∧
    bitList 40 (mB loadMan 16 5) = [0] ∧ (image.consists.find? fun c => c.consist = 0).isSome = true ∧
    (∀ a, a ≤ 3 → okAt (loaded .idle a) 2 = true ∧ bitList 40 (mB (conMan a) 4 5) = [0] ∧ mB (conMan a) 9 1 = a) ∧
    bitOf (grantOf (loaded .idle 0) 0).consists 0 = true ∧ (con (loaded .idle 0) 0).prog = some prog0 ∧ prog0.stream ≠ [] ∧
    (con emptied 0).prog = some ⟨[], [], [], []⟩ ∧ okAt emptied 2 = true ∧ (con emptied 0).pstate = .idle ∧ (con emptied 0).verbs = [] ∧
    (con emptied 0).sidingRuns = [] ∧ (con (loaded .idle 1) 0).pstate ≠ .running ∧
    okAt (loaded .running 2) 2 = true ∧ (con (loaded .running 2) 0).pstate = .running := by decide +kernel

/-- Sixteen floats in the near tier. -/
def noun0 : Noun := ⟨0, 2, 4096, 1, [16], [], 0, 0, 0, 0, 0, 1, [], 0⟩
def nounMan : List Byte := man 3 (leBytes 1 0 ++ leBytes 2 7 ++ zeros 1 ++ leBytes 8 64)
def slotMan : List Byte := man 4 (leBytes 1 0 ++ leBytes 1 63 ++ zeros 2 ++ leBytes 4 9)
def declMan : List Byte := man 5 (leBytes 2 3 ++ leBytes 1 1 ++ leBytes 1 0xFE ++ leBytes 4 2)
def resetMan : List Byte := man 6 (leBytes 2 3 ++ zeros 2 ++ leBytes 4 5)
def ruleMan : List Byte := man 10 (leBytes 1 7 ++ zeros 3 ++ leBytes 8 0 ++ leBytes 4 16)
def layerMan : List Byte := man 11 (leBytes 2 0 ++ zeros 2 ++ leBytes 8 64)
def layered : State :=
  let s := withMan layerMan
  odSet { s with mem := { s.mem with cells := (layerReset.zipIdx.filter fun x => x.1 ≠ 0).map fun x => (64 + x.2, x.1) } } (kLayerTableAddr 0) 0x40000
theorem wit_ManifestsWriteState : okAt (withMan nounMan) 3 = true ∧ bitOf (grantOf (withMan nounMan) 0).consists (mB nounMan 4 1) = true ∧
    mB nounMan 8 8 % 64 = 0 ∧ listRegionOk (withMan nounMan) (mB nounMan 8 8) = true ∧
    allotted (withMan nounMan) 0 (mB nounMan 8 8) 64 false = true ∧ rangeLost (withMan nounMan) (mB nounMan 8 8) 64 = false ∧
    nounStatus (withMan nounMan) 0 (mB nounMan 5 2) noun0 (loopIndices (con (withMan nounMan) (mB nounMan 4 1))) = .ok ∧
    okAt (withMan slotMan) 4 = true ∧ mB slotMan 5 1 = 63 ∧ okAt (withMan declMan) 5 = true ∧ (semGet (withMan declMan) (mB declMan 4 2)).part = 0 ∧
    declOk ⟨mB declMan 4 2, mB declMan 6 1, mB declMan 7 1, mB declMan 8 4⟩ = true ∧ okAt (withMan resetMan) 6 = true ∧
    (semGet (withMan resetMan) (mB resetMan 4 2)).part = 0 ∧ okAt (withMan ruleMan) 10 = true ∧ mB ruleMan 4 1 = 7 ∧
    linkReach (withMan ruleMan) 0 (mB ruleMan 8 8) (mB ruleMan 16 4) false = true ∧ builtFor (withMan ruleMan) 9680 (odN own kOviMajorMax) = true ∧
    rangeLost (withMan ruleMan) (mB ruleMan 8 8) (mB ruleMan 16 4) = false ∧
    okAt layered 11 = true ∧ linkReach layered 0 (mB layerMan 8 8) 32 false = true ∧ rangeLost layered (mB layerMan 8 8) 32 = false ∧
    (layerWrite layered 0 (mB layerMan 4 2) (memRead layered.mem (mB layerMan 8 8) 32)).2 = .ok := by decide +kernel

def copyMan (src dst dir : Nat) : List Byte := man 7 (leBytes 8 src ++ leBytes 8 dst ++ leBytes 4 100 ++ leBytes 1 dir)
def toHost : State := { withMan (copyMan 64 4096 1) with mem := { own.mem with cells := [(64, 5), (65, 6)] } }
def toDevice : State := withMan (copyMan 4096 64 0)
def depotMan (op : Nat) : List Byte := man op (leBytes 4 1 ++ leBytes 4 1 ++ leBytes 8 65536)
def depoted (op : Nat) : State := { withMan (depotMan op) with depot := { own.depot with cells := [(65537, 3)] } }
theorem wit_ManifestsMoveData : okAt toHost 7 = true ∧ odN (odSet toHost kBrynqLinksUp 3) kBrynqLinksUp ≠ 0 ∧ toHost.link.unacked = [] ∧
    odN (odSet toHost kBrynqLinksUp 0) kBrynqLinksUp = 0 ∧ okAt (odSet toHost kBrynqLinksUp 3) 7 = true ∧ okAt (odSet toHost kBrynqLinksUp 0) 7 = true ∧ linkReach toHost 0 64 100 false = true ∧ hostRange (queue toHost 0) 4096 100 = true ∧
    (touch toHost 64 100).1 = toHost ∧
    ((linesOf 64 100).all fun l => !badAt toHost.mem (l * 64) && !farDown toHost (l * 64)) = true ∧
    okAt toDevice 7 = true ∧ linkReach toDevice 0 64 100 true = true ∧ hostRange (queue toDevice 0) 4096 100 = true ∧
    (touch toDevice 64 100).1 = toDevice ∧ writeAllowed toDevice 0 64 100 = (toDevice, .ok) ∧
    ((linesOf 64 100).all fun l => farWritable toDevice (max 64 (l * 64))) = true := by decide +kernel
theorem wit_ManifestsMoveData_depot : okAt (depoted 8) 8 = true ∧ depotReach (depoted 8) true 0 (depotMan 8) = true ∧ depotCheck (depoted 8) 0 (depotMan 8) = .ok ∧ domState (depoted 8) 0x71 = 0 ∧
    (touch (depoted 8) 65536 65536).1 = depoted 8 ∧ writeAllowed (depoted 8) 0 65536 65536 = (depoted 8, .ok) ∧
    (depoted 8).depot.poison.contains 1 = false ∧ okAt (depoted 9) 9 = true ∧ depotReach (depoted 9) false 0 (depotMan 9) = true ∧ depotCheck (depoted 9) 0 (depotMan 9) = .ok ∧
    domState (depoted 9) 0x71 = 0 ∧ (touch (depoted 9) 65536 65536).1 = depoted 9 ∧
    channelLow (depoted 9) (depotChannel 1) = false ∧ odN (depoted 9) kDepotReadOnly ≠ 1 ∧
    ((linesOf 65536 65536).all fun l => !badAt (depoted 9).mem (l * 64) && !farDown (depoted 9) (l * 64)) = true := by decide +kernel

/-- Channel 1 is short of erased blocks. -/
def depotLow : State := { depoted 9 with depot := { (depoted 9).depot with stale := [(1, 2 ^ 40)] } }
theorem wit_ManifestsMoveData_low : okAt depotLow 9 = true ∧ depotReach depotLow false 0 (depotMan 9) = true ∧ depotCheck depotLow 0 (depotMan 9) = .ok ∧
    domState depotLow 0x71 = 0 ∧ (touch depotLow 65536 65536).1 = depotLow ∧ channelLow depotLow (depotChannel 1) = true ∧
    odN depotLow kDepotReadOnly = 0 ∧ ((startable depotLow 0 0 (isOp 0x09)).map fun x => (x.blocks, x.held)) = some ([], []) := by decide +kernel

/-! ### The depot's own work -/

def worn : State := { own with now := 90 * 86400000000000 + 1, depot := { own.depot with reads := [(4, 100000)], place := [(4, 4), (5, 5)], mapped := [4, 5] } }
def parked : State := setPool { own with depot := { own.depot with waiting := [(3, 2, 9)] } } 2 { Pool.reset with flight :=
  [⟨9, ⟨10, 0, 0, 0, 0, .raw (.dev 0) (.depot 0) 64 false 0, false, [], none, none, 10, .ok, false⟩, [], [], [], .ok, [], false, true, false, Ecc.clean⟩] }
/-- A read of depot block 15 waits at the porters, and background work has used channel 15's share of the window. -/
def reading : State := setPool { own with depot := { own.depot with window := [(15, [(0, 200000)])] } } 2 { Pool.reset with pending :=
  [⟨10, 0, 0, 0, 0, .raw (.depot 15) (.dev 0) 64 false 0, false, [], none, none, 10, .ok, false⟩] }
theorem wit_DepotKeepsItself_shape : (∀ c, DepotBg.erase 15 ≠ .exhaust c) ∧ (∀ c, DepotBg.relocate 5 ≠ .exhaust c) :=
  ⟨fun _ => by simp, fun _ => by simp⟩
theorem wit_DepotKeepsItself : bgChannel (.erase 15) = 15 ∧ channelReadQueued own 15 = false ∧ bgChannel (.relocate 5) = 5 ∧
    worn.depot.mapped.contains 5 = true ∧ (worn.depot.shadow.any fun x => x.1 = 5) = false ∧ channelFree worn (depotChannel 5) ≠ 0 ∧
    channelReadQueued worn 5 = false ∧ channelReadQueued reading 15 = true ∧
    bgFits { reading with now := max reading.now 0 } 15 1 = false ∧
    4 < odN worn kDepotLogicalBlocks ∧ worn.depot.mapped.contains 4 = true ∧ channelReadQueued worn (depotChannel 4) = false ∧
    100000 ≤ tget 0 worn.depot.reads (eraseOf worn.depot 4) ∧
    (worn.depot.mapped.filter fun x => eraseOf worn.depot x = eraseOf worn.depot 4) = [4] ∧ (worn.depot.shadow.any fun x => x.1 = 4) = false ∧
    channelFree worn (depotChannel 4) ≠ 0 ∧ tget 0 worn.depot.written 5 + 90 * 86400000000000 < worn.now ∧
    channelLow parked 3 = false ∧ parked.depot.waiting = [(3, 2, 9)] := by decide +kernel

/-! ### Verbs -/

def hdrV : VerbHdr := ⟨0, 0, [], none, 0, 0, Ecc.clean⟩
/-- Consist 0 running, with semaphore 3 and the consist's own fields set. -/
def running (v : Sem) (f : Consist → Consist) : State := { setCon own 0 (f con0) with sems := [(3, { v with part := 0 })] }
def waitV : VerbHdr := { hdrV with waits := [⟨3, 1, [0, 0, 0, 0]⟩] }
def postV : VerbHdr := { hdrV with post := some 3 }
def callOps : CallOps := ⟨[], [], 0⟩
theorem wit_VerbsBroadcast : verbOf (.wait hdrV) = some ⟨hdrV, .wait⟩ ∧ (Instr.wait hdrV).wf = true ∧ conPart run 0 = some 0 ∧
    broadcasts ⟨hdrV, .wait⟩ 0 (openStep run 0) = true ∧ (Instr.wait waitV).wf = true ∧
    broadcasts ⟨waitV, .wait⟩ 0 (openStep (running Sem.reset id) 0) = true ∧
    waitsArrived (running Sem.reset id) (entryOf ⟨waitV, .wait⟩ (running Sem.reset id)).waits = false := by decide +kernel

def signalSem : Sem := { Sem.reset with kind := 1, expected := 2 }
def tokenSem : Sem := { Sem.reset with setter := 0 }
def noun1 : Noun := ⟨6, 2, 4096, 1, [32], [], 8192, 0, 0, 0, 0, 1, [], 0⟩
def scaled : State := running Sem.reset fun c => { c with nouns := [(1, some ⟨noun1, false, none, false⟩)] }
/-- The same with a program that calls `step_vote`. -/
def voting : State :=
  running Sem.reset fun c => { c with nouns := [(1, some ⟨noun1, false, none, false⟩)], prog := some { prog0 with stream := [.call 0x30, .verb] } }
theorem wit_VerbsRunAtOnce : runsAtOnce ⟨hdrV, .wait⟩ 0 (openStep run 0) = true ∧ isBare .wait = true ∧ nothingOwed (running signalSem id) = true ∧
    errCode (semGet (running signalSem id) 3).round = false ∧ runsAtOnce ⟨hdrV, .scaleApply 1⟩ 0 (openStep scaled 0) = true ∧
    ((consistsOf scaled 0).any fun k => callsVote (con scaled k)) = false ∧ runsAtOnce ⟨hdrV, .scaleApply 1⟩ 0 (openStep voting 0) = true ∧
    ((consistsOf voting 0).any fun k => callsVote (con voting k)) = true ∧ tget none (con voting 0).nouns 1 = some ⟨noun1, false, none, false⟩ ∧
    runsAtOnce ⟨hdrV, .call 0x31 callOps⟩ 0 (openStep run 0) = true ∧ isOnce (.call 0x31 callOps) = true ∧
    runsAtOnce ⟨hdrV, .signalArrive 3 2⟩ 0 (openStep (running signalSem id) 0) = true ∧ (semGet (running signalSem id) 3).kind = 1 ∧
    2 ≤ (semGet (running signalSem id) 3).expected ∧ (semGet (running signalSem id) 3).part = 0 ∧
    runsAtOnce ⟨hdrV, .semReset 3 5⟩ 0 (openStep (running tokenSem id) 0) = true ∧ semDie 3 = conDie 0 ∧
    (semGet (running tokenSem id) 3).setter = queueCode 0 0 ∧ runsAtOnce ⟨hdrV, .scaleAdjust 1 (.shift (-15))⟩ 0 (openStep scaled 0) = true ∧
    runsAtOnce ⟨hdrV, .scaleAdjust 1 .fresh⟩ 0 (openStep scaled 0) = true ∧ tget none (con scaled 0).nouns 1 = some ⟨noun1, false, none, false⟩ ∧
    isBlockFmt noun1.format = true := by decide +kernel

def looping (count index : Nat) : State := running Sem.reset fun c => { c with slots := [(63, count)], loops := [⟨2, index, 1⟩] }
def parkOps : ParkOps := ⟨0, 1, [], []⟩
def segmented : State := running Sem.reset fun c => { c with prog := some { prog0 with segments := [[⟨hdrV, .nop⟩]] } }
theorem wit_ControlVerbsRun : controlRuns ⟨hdrV, .loopBegin 63⟩ 0 (looping 0 0) = true ∧ tget 0 (con (looping 0 0) 0).slots 63 = 0 ∧
    controlRuns ⟨hdrV, .loopBegin 63⟩ 0 (looping 3 0) = true ∧ (con (looping 3 0) 0).loops.length < 4 ∧
    controlRuns ⟨hdrV, .loopEnd⟩ 0 (looping 0 0) = true ∧ (con (looping 0 0) 0).loops.getLast? = some ⟨2, 0, 1⟩ ∧
    (con (looping 0 1) 0).loops.getLast? = some ⟨2, 1, 1⟩ ∧ controlRuns ⟨hdrV, .slotWrite 64 63⟩ 0 run = true ∧ (seqRead run 0 64 4 Ecc.clean).2.1 = .ok ∧
    controlRuns ⟨hdrV, .nounSet 7 64 noun0⟩ 0 run = true ∧ (seqRead run 0 64 64 Ecc.clean).2.1 = .ok ∧
    nounStatus (seqRead run 0 64 64 Ecc.clean).1 0 7 noun0 (loopIndices (con run 0)) = .ok ∧
    controlRuns ⟨hdrV, .slotMark ⟨1, 5, none⟩⟩ 0 run = true ∧ slotClear (con run 0) = true ∧ (seqRead run 0 64 8 Ecc.clean).2.1 = .ok ∧
    bits (leNat (seqRead run 0 64 8 Ecc.clean).2.2) 48 16 = 0 ∧ controlRuns ⟨hdrV, .slotMark ⟨1, 5, some 64⟩⟩ 0 run = true ∧
    controlRuns ⟨hdrV, .nop⟩ 0 run = true ∧ controlRuns ⟨hdrV, .halt⟩ 0 run = true ∧ reaches ⟨postV, .nop⟩ 0 run = true ∧ postV.post ≠ none ∧
    awaited postV (loopIndices (con run 0)) = [] ∧ reaches ⟨waitV, .nop⟩ 0 (running Sem.reset id) = true ∧ isControl .nop = true ∧
    (semGet (running Sem.reset id) 3).part = 0 ∧ waitsArrived (running Sem.reset id) (awaited waitV (loopIndices con0)) = false ∧
    (Instr.nop postV).wf = true ∧ (Instr.nop waitV).wf = true ∧ (con segmented 0).prog.map (fun g => g.segments.length) = some 1 ∧
    parkOps.scalars.any scalOpen = false ∧ reaches ⟨hdrV, .park parkOps⟩ 0 segmented = true ∧
    (con segmented 0).siding.length < odN segmented (kSidingLimit 0) ∧ controlRuns ⟨hdrV, .drain⟩ 0 run = true := by decide +kernel

/-- A verb in flight that awaits nothing. -/
def flying (v : Verb) (f : VEntry → VEntry) : State :=
  running { Sem.reset with setter := 0 } fun c => { c with verbs := [f { stuckEntry with verb := v, waits := [], judged := true }] }
def head (v : Verb) : Bool := match readyHead (con (flying v id) 0) 5 with
  | some e => decide (findVerb (flying v id) 0 e.vi = some e ∧ e.origin = none ∧ bitSet e.issued 5 ≠ 2 ^ 20 - 1 ∧ e.verb = v)
  | none => false
def mma0 : MmaOps := ⟨1, 1, 1, 0, 0, 0, 1, 1, 0, 0, none, none, 0, 0, .imm 0, .none, .raw, []⟩
def stream0 : StreamOps := ⟨0, 1, 1, 0, 0, 0, 0, 0, 0⟩
def doneVerb : State := flying .wait fun e => { e with parts := List.replicate 20 (some .ok), issued := allCores, post := some 3 }
def sideEntry : SidingEntry := ⟨0, 0, 5, [], [], [0, 0, 0, 0], [], none, 0, none⟩
def sided : State := running Sem.reset fun c => { c with siding := [sideEntry], slot := some ⟨1, 0, 0⟩ }
def blocked (h : Hold) : State := running Sem.reset fun c => { c with hold := some h, ahead := [⟨hdrV, .nop⟩] }
/-- A verb that resumes from records: its parts run together. -/
def mmaResumed : MmaOps := { mma0 with resume := some 0 }
theorem wit_IssueAndTokens : head (.matrix .plain mmaResumed) = true ∧ runsWhole 0 { stuckEntry with verb := .matrix .plain mmaResumed } run = true ∧
    formsOffsets (kernelOf run 0 ⟨0, 1, 1, [], []⟩) = false ∧ (con doneVerb 0).siding = [] ∧ (con (blocked (.queue 15 0)) 0).stall = none ∧
    (con (blocked (.control [(3, 0)] none)) 0).stall = none ∧ head (.matrix .plain mma0) = true ∧ head (.vector ⟨0, 1, 1, [], []⟩) = true ∧ head (.stream stream0) = true ∧
    head (.atomicAdd stream0) = true ∧ live (flying .wait id) 0 = true ∧ conPart doneVerb 0 = some 0 ∧ (con doneVerb 0).pstate = .running ∧
    ((con doneVerb 0).verbs.map VEntry.post) = [some 3] ∧ (semGet doneVerb 3).part = 0 ∧ (semGet doneVerb 3).kind = 0 ∧
    (semGet doneVerb 3).setter = queueCode 0 0 ∧ (con doneVerb 0).hold = none ∧ (con doneVerb 0).ending = false ∧
    (part doneVerb 0).step.voters = [] ∧ queueUsed (con (blocked (.queue 15 0)) 0) 15 < 64 ∧ (con (blocked (.queue 15 0)) 0).ahead = [⟨hdrV, .nop⟩] ∧
    stepLocked (flying .wait id) 0 = false ∧ (con (blocked (.queue 15 0)) 0).sidingRuns = [] ∧ semDie 3 = conDie 0 ∧
    (con doneVerb 0).sidingRuns = [] ∧ (con doneVerb 0).draining = none ∧
    waitsArrived (blocked (.control [(3, 0)] none)) [(3, 0)] = true ∧ (con (blocked (.control [(3, 0)] none)) 0).draining = none ∧
    (con sided 0).siding = [sideEntry] ∧ sideEntry.cost ≤ 5 ∧ sideEntry.judged.getD (errorOrigin sided.sems sideEntry.waits) = none := by decide +kernel

/-! ### Porters -/

def block0 : Block := ⟨0, 0, 0, 0, 0, .raw (.dev 64) (.dev 4096) 4 false 0, false, [], none, none, 0, .ok, false⟩
def pooled (f : Pool → Pool) : State := setPool { run with mem := { run.mem with cells := [(64, 5), (65, 6)] } } 0 (f Pool.reset)
def ready1 : State := pooled fun p => { p with pending := [block0] }
def moving : State := pooled fun p => { p with flight := [⟨0, block0, [1, 2, 3, 4], [], [], .ok, [], false, false, false, Ecc.clean⟩] }
def cast0 : CastStream := ⟨0, 0, [2, 3], [(2, 4)], [], []⟩
theorem wit_PortersMove : (∀ y, y < 128 → domState ready1 y = 0) ∧ (pool ready1 0).pending = [block0] ∧ conPart ready1 0 = some 0 ∧
    allotted ready1 0 64 4 false = true ∧ writeAllowed ready1 0 4096 4 = (ready1, .ok) ∧ (loadBytes ready1 64 4).2 = false ∧
    allotted moving 0 4096 4 true = true ∧ ((linesOf 4096 4).all fun l => farWritable moving (max 4096 (l * 64))) = true ∧
    findVerb moving 0 0 = none ∧ windowFull (pool run 0) 0 0 = false ∧ nothingOwed ready1 = true ∧ odN ready1 kFarChannelFailed = 0 ∧
    nothingOwed moving = true ∧ rangesLocked moving 0 [(4096, 4)] = (moving, .ok) ∧ conPart moving 0 = some 0 := by decide +kernel
def castBlock : Block := { block0 with body := .raw (.dev 64) (.castStaging 0) 4 false 0, cast := [2, 3] }
def casting : State := { pooled (fun p => { p with flight := (List.range 64).map fun i => ⟨i, castBlock, [1, 2, 3, 4], [], [], .ok, [2], false, false, false, Ecc.clean⟩ }) with casts := [cast0] }
theorem wit_PortersMove_uncouple : casting.casts = [cast0] ∧ conPart casting 0 = some 0 ∧ holds (pool casting 0) cast0 2 = true ∧
    holds (pool casting 0) cast0 3 = false ∧ cast0.coupled = [2, 3] ∧ nothingOwed casting = true ∧
    (∀ f ∈ (pool casting 0).flight, f.block.arrive = none) ∧ tget 0 cast0.held 2 = 4 := by decide +kernel

/-! ### The step -/

/-- Partition 0 with a job of two modules of which this one leads, a step open and its state `f`, at tick `n`. -/
def stepAt (n : Nat) (f : StepSt → StepSt) : State :=
  { setPart own 0 { part own 0 with job := some job0, step := f { StepSt.reset with isOpen := true } } with time := { own.time with tick := n } }
def vote0 (outcome : Nat) : VoteRec := ⟨0, 1, 0, 2, 1, 0, outcome, 0, 7⟩
def cmd0 : UpdCmd := ⟨0, 0, 0x3F000000, 0x3F000000, 0x3F000000, 0, 0, 0, 0, 0, 2, 0, 7⟩
/-- Descriptor 0 at address 0: one parameter at the far tier's start, its layer 0 at the reset values. -/
def shardBytes (counter : Nat) : List Byte :=
  leBytes 64 (counter * 2 ^ 448 + farBase * 2 ^ 400 + 0x100000 * 2 ^ 352 + 0x200000 * 2 ^ 304 + 1 * 2 ^ 128)
def sparse (a : Nat) (bs : List Byte) : List Host.Cell := (bs.zipIdx.filter fun x => x.1 ≠ 0).map fun x => (a + x.2, x.1)
def sharded (counter : Nat) : State :=
  let s := odSet (stepAt 0 fun x => { x with cmd := some cmd0 }) (kLayerTableAddr 0) 0x40000
  { s with mem := { s.mem with cells := sparse 0 (shardBytes counter) ++ sparse 0x40000 layerReset } }
theorem wit_StepsDecided_check : ((part (sharded 0) 0).step.checked.any fun x => x.1 = 0) = false ∧
    ((part (sharded 0) 0).step.shards.any fun x => x.addr = 0 && x.applying) = false ∧ (∀ y, y < 128 → domState (sharded 0) y = 0) ∧
    (shardCheck (sharded 0) 0 cmd0 0 0).1 = .ok ∧ (shardCheck (sharded 1) 0 cmd0 0 0).1 = .counterSkew := by decide +kernel

def frozen0 : Accepted := ⟨cmd0, 0, (parseShard (shardBytes 0)).1, { (parseLayer layerReset).1 with frozen := true }, 0, true, 0, false⟩
def applying (x : Accepted) : State := stepAt 0 fun y => { y with shards := [x] }
def walking : State := running Sem.reset fun c => { c with nouns := [(1, some ⟨noun1, false, none, true⟩)] }
def wait0 : Nat := odN own (kStepWaitTicks 0)
def voted (n outcome state : Nat) : State :=
  odSet (stepAt n fun x => { x with vote := some (vote0 outcome), since := some 0, votes := [(0, some (vote0 outcome))] }) (kStepState 0) state
def resolved (outcome : Nat) : State := stepAt 5 fun x => { x with decision := some { vote0 outcome with kind := 2 } }
def heldBack : State := stepAt 5 fun x => { x with decision := some { vote0 2 with kind := 2 }, round := 1, votes := [(0, some (vote0 0)), (1, some (vote0 1))] }
/-- An attempt of epoch 0 that this leader voted no on at tick 0. -/
def attempt0 : Nat × Nat × Tab (Option VoteRec) := (0, 0, [(0, some { vote0 0 with status := 2 })])
def passed : State := stepAt wait0 fun x => { x with epoch := 1, attempts := [attempt0] }
theorem wit_StepsDecided_attempt : jobOf passed 0 = some job0 ∧ job0.rank = job0.leader ∧ held passed = false ∧
    (part passed 0).step.attempts.find? (fun x => tickAfter (tickNow passed) (x.2.1 + odN passed (kStepWaitTicks 0))) = some attempt0 := by decide +kernel
theorem wit_StepsDecided : held own = false ∧ frozen0.applying = true ∧ frozen0.addr = frozen0.cmd.table + 64 * 0 ∧ frozen0.layer.frozen = true ∧ frozen0.bad = false ∧
    (part (applying frozen0) 0).step.shards = [frozen0] ∧ held (applying frozen0) = false ∧ isFar frozen0.addr = false ∧ isFar (frozen0.addr + 63) = false ∧
    nothingOwed (applying frozen0) = true ∧ ((shardRanges (applying frozen0) frozen0).all fun r => allotted (applying frozen0) 0 r.1 r.2 true) = true ∧
    flightsWait (resolved 3) (consistsOf (resolved 3) 0) = false ∧
    tget none (con walking 0).nouns 1 = some ⟨noun1, false, none, true⟩ ∧ jobOf (voted wait0 0 1) 0 = some job0 ∧
    (part (voted wait0 0 1) 0).step.since = some 0 ∧ job0.rank = job0.leader ∧ tickAfter (tickNow (voted wait0 0 1)) (0 + odN (voted wait0 0 1) (kStepWaitTicks 0)) = true ∧
    allVotes (voted wait0 0 1) 0 (jobSize job0) = [vote0 0] ∧ (part (resolved 2) 0).step.isOpen = true ∧
    (allVotes (resolved 2) 0 (jobSize job0)).length < jobSize job0 ∧
    (∀ x ∈ [resolved 0, resolved 2, resolved 3, heldBack], decisionWaits x 0 = false ∧ (part x 0).leaves = false) ∧
    (part (voted wait0 0 1) 0).step.attempts = [] ∧ odN (voted wait0 0 1) (kStepState 0) ≠ 3 ∧ stepOpen (voted wait0 0 1) 0 = true ∧ jobOf heldBack 0 = some job0 ∧ held heldBack = false ∧
    allVotes heldBack 0 (jobSize job0) = [vote0 0, vote0 1] ∧ jobSize job0 = 2 ∧ (part heldBack 0).step.round = 1 ∧ (part (resolved 0) 0).step.isOpen = true ∧
    rollbackDue (resolved 3) 0 = true ∧ odN (voted 100000000 0 1) (kStepState 0) = 1 ∧
    tickAfter (tickNow (voted 100000000 0 1)) (0 + odN (voted 100000000 0 1) (kStepWaitTicks 0) + odN (voted 100000000 0 1) (kDecisionWaitTicks 0)) = true ∧
    writeOpen (voted 5 0 3) (kInDoubtResolve 0) (.num 3) = true ∧ odN (voted 5 0 3) (kStepState 0) = 3 ∧
    writeOpen (voted 5 2 2) (kHoldDecision 0) (.num 1) = true ∧ odN (voted 5 2 2) (kStepState 0) = 2 ∧
    writeOpen own (kLayerTableAddr 0) (.num 0x40000) = true ∧ stepOpen own 0 = false ∧ allotted own 0 0x40000 0x40000 true = true ∧
    region own 0x40000 = .near := by decide +kernel

/-! ### The transport -/

/-- QP 0 of partition 0 to peer 1 on port 0, and window 5 at 64. -/
def qp0 : Qp := { Qp.reset with isOpen := true, part := 0, peer := 1, remote := 2, cwnd := 8192 }
def joined (f : StepSt → StepSt) (g : Qp → Qp) : State :=
  let s := setPart heard 0 { part heard 0 with windows := [(5, some ⟨64, 4096, 2, 4, 3, true⟩)], step := f StepSt.reset }
  { s with qps := [(0, g qp0)], sems := [(3, { Sem.reset with part := 0, setter := 0xC0 })] }
/-- The header of a data frame of four octets to window 5, and a frame from peer 1 with a header. -/
def hdrOf (op : Nat) : HrtHdr := { hdr0 with opcode := op, window := 5, offset := 8 * op, payloadLen := 4, sem := 3 }
def frameOf (h : HrtHdr) (pl : List Byte) : HrtFrame := ⟨0, 0, 1, 0, false, 5, hrtOctets h, pl⟩
def fWrite : HrtFrame := frameOf { hdrOf 0 with semOp := 1 } [1, 2, 3, 4]
def fWin : HrtFrame := { frameOf (hdrOf 4) [1, 2, 3, 4] with pcp := 1 }
def fAdd : HrtFrame := frameOf (hdrOf 1) [0, 0, 128, 63]
def fAck : HrtFrame := frameOf { hdr0 with opcode := 2, payloadLen := 0, ackPsn := 1 } []
def control' (code : Nat) (pl : List Byte) : HrtFrame := frameOf { hdr0 with opcode := 3, code := code, payloadLen := pl.length } pl
def fVote (code kind outcome : Nat) : HrtFrame := control' code (voteBytes { vote0 outcome with rank := 1, kind := kind })
def fFree : HrtFrame := control' 0x20 (leBytes 4 7 ++ leBytes 4 8)
def j0 : State := joined id id
/-- Peer 1 is an external one. -/
def external : State := setPart j0 0 { part j0 0 with job := some { job0 with peers := [noPeer, { peer1 with kind := 2 }] } }
def leads (o : Option VoteRec) : State := joined (fun x => { x with isOpen := true, votes := [(1, o)] }) id
/-- This module is a member, and peer 1 leads. -/
def follows : State := setPart j0 0 { part j0 0 with job := some { job0 with leader := 1 }, step := { StepSt.reset with isOpen := true } }
def sent : State := joined id fun v => { v with frames := [⟨{ hdr0 with psn := 0 }, [], some 0, false, 0, 0, 4⟩], msgs := [⟨4, 1, .ok, none⟩], txPsn := 1 }
theorem wit_FramesTaken : frameNext fWrite j0 = true ∧ windowCheck j0 fWrite = none ∧ tget none (part j0 0).windows 5 = some ⟨64, 4096, 2, 4, 3, true⟩ ∧
    (∀ y, y < 128 → domState j0 y = 0) ∧ ((linesOf (64 + 0) 4).all fun l => farWritable j0 (max 64 (l * 64))) = true ∧
    frameNext fWin external = true ∧ windowCheck external fWin = none ∧ frameNext fAdd j0 = true ∧ windowCheck j0 fAdd = none ∧
    (64 + fAdd.hdr.offset) % 4 = 0 ∧ nothingOwed j0 = true ∧ nothingOwed external = true ∧ 
    rangeLost j0 (64 + fAdd.hdr.offset) 1 = false ∧ farWritable j0 (64 + fAdd.hdr.offset) = true ∧ frameHeard fAck sent = true ∧ fAck.hdr.ackPsn = (0 + 1) % 2 ^ 32 ∧
    frameNext (fVote 0x10 1 0) (leads none) = true ∧ recordGood (fVote 0x10 1 0) 1 2 = true ∧ jobOf (leads none) 0 = some job0 ∧ (parseVote (fVote 0x10 1 0).payload).1.rank = 1 ∧ 1 < jobSize job0 ∧
    tget none (part (leads none) 0).step.votes 1 = none ∧ tget none (part (leads none) 0).step.votes 0 = none ∧
    frameNext (fVote 0x11 2 0) follows = true ∧ recordGood (fVote 0x11 2 0) 2 3 = true ∧ fromLeader follows (fVote 0x11 2 0) = true ∧
    odN follows (kStepState 0) ≠ 3 ∧ stepOpen follows 0 = true ∧ frameNext (fVote 0x12 3 0) (leads (some (vote0 2))) = true ∧
    recordGood (fVote 0x12 3 0) 3 1 = true ∧
    tget none (part (leads (some (vote0 2))) 0).step.votes 1 = some (vote0 2) ∧
    (allVotes (leads (some (vote0 2))) 0 (jobSize job0)).length < jobSize job0 ∧ frameNext fFree j0 = true ∧
    (∀ k ∈ consistsOf j0 0, ∀ e ∈ (con j0 k).verbs, e.phase ≠ 3) := by decide +kernel

def limit : Nat := odN own kRetxLimit
def resent (retx : Nat) : State := joined id fun v => { v with frames := [⟨{ hdr0 with psn := 0 }, [], some 0, false, retx, 0, 4⟩], msgs := [⟨4, 1, .ok, none⟩] }
def unlinked : State := odSet (resent 0) (kLinkUp 0) 0
def quarantined : State := odSet own (kPeerQuarantineMap 0) 2
def secret0 : List Byte := List.replicate 32 1
def offered (n : Nat) : State := setChan heard 0 0 1 { chan heard 0 0 1 with offer := some (1, n, secret0, 0) }
def keyHdr (code len : Nat) : List Byte := hrtOctets { hdr0 with opcode := 3, code := code, dstQp := 0xFFFF, srcQp := 0xFFFF, payloadLen := len }
def offer0 : KeyOffer :=
  ⟨0, 0, 1, keyHdr 1 1112, peerSci job0 1 0 ++ ownSci heard 0 0 ++ leBytes 1 3 ++ zeros 7 ++ List.replicate 1088 0, some secret0, 5⟩
def accept0 : KeyAccept :=
  ⟨0, 0, 1, keyHdr 2 40, ownSci heard 0 0 ++ peerSci job0 1 0 ++ leBytes 1 1 ++ zeros 7 ++ confirmOf secret0 (ownSci heard 0 0) (peerSci job0 1 0) 1, 5⟩
/-- A grant of no port. -/
def portless : State := setPart heard 0 { part heard 0 with grant := some { grant0 with portMap := 0 } }
/-- An acknowledgement due since time 0. -/
def ackOwed : State := { joined id fun v => { v with ackDue := some 0 } with now := 1000000000 }
def resendable (retx : Nat) : State := setPort (resent retx) 0 Port.reset
def slowPeer : State := joined id fun v => { v with full := 4, progress := 1 }
theorem wit_PeersKeysAndTables_ack : (qp ackOwed 0).isOpen = true ∧ (qp ackOwed 0).ackDue = some 0 ∧ (qp ackOwed 0).absent = false ∧
    odN ackOwed (kLinkUp (qpPort 0)) = 1 ∧ 0 + odN ackOwed kAckDelayNs ≤ ackOwed.now ∧ (port ackOwed (qpPort 0)).wait = [] ∧
    txUsed ackOwed (qpPort 0) + lengthTo ackOwed (qp ackOwed 0).part (qpPort 0) (qp ackOwed 0).peer 0 true ≤ txHalf ∧
    (qp slowPeer 0).isOpen = true ∧ (qp slowPeer 0).absent = false ∧ (qp slowPeer 0).slow = false ∧ 4 ≤ (qp slowPeer 0).full ∧
    (qp slowPeer 0).fullSince < (qp slowPeer 0).progress := by decide +kernel
theorem wit_PeersKeysAndTables_rto : ∀ g ∈ (qp (resendable 0) 0).frames, (qp (resendable 0) 0).frames.find? (fun f => f.hdr.psn = 0) = some g ∧
    g.sent = some 0 ∧ g.again = false ∧ inBuffer (resendable 0) 0 0 = false ∧ g.retx < odN (resendable 0) kRetxLimit ∧
    odN (resendable 0) (kLinkUp (qpPort 0)) = 1 ∧ (qp (resendable 0) 0).absent = false ∧ held (resendable 0) = false ∧
    (qp (resendable 0) 0).frames.filter (fun f => f.again || f.hdr.psn = 0) = [g] ∧ (port (resendable 0) (qpPort 0)).wait = [] ∧
    txUsed (resendable 0) (qpPort 0) + frameLen (resendable 0) (qpPort 0) (macFrame (resendable 0) (qp (resendable 0) 0) 0 g) ≤ txHalf := by
  decide +kernel
theorem wit_PeersKeysAndTables_limit : ((qp (resendable limit) 0).frames.find? (fun f => f.hdr.psn = 0)).map (fun g => (g.sent, g.again, g.retx)) =
      some (some 0, false, limit) ∧ inBuffer (resendable limit) 0 0 = false ∧ odN (resendable limit) kRetxLimit ≤ limit ∧
    odN (resendable limit) (kLinkUp (qpPort 0)) ≠ 0 ∧ (qp (resendable limit) 0).isOpen = true ∧ (qp (resendable limit) 0).absent = false ∧
    (∀ n ∈ [0, limit], odN (odSet (resendable n) (kLinkUp 0) 0) (kLinkUp (qpPort 0)) = 0 ∧
      ((qp (odSet (resendable n) (kLinkUp 0) 0) 0).frames.find? (fun f => f.hdr.psn = 0)).map (fun g => (g.sent, g.again, g.retx)) = some (some 0, false, n)) := by
  decide +kernel
theorem wit_PeersKeysAndTables_offer : (Instr.keyOfferRx offer0).wf = true ∧ keyMalformed offer0.frame = false ∧
    keySci offer0.frame 0 = peerSci job0 1 0 ∧ keySci offer0.frame 1 = ownSci heard 0 0 ∧ (chan heard 0 0 1).offer = none ∧
    mayUse heard 0 0 = true ∧ odN heard (kLinkUp 0) = 1 ∧ (port heard 0).wait = [] ∧ txUsed heard 0 + lengthTo heard 0 0 1 40 false ≤ txHalf ∧
    mayUse portless 0 0 = false ∧ jobOf portless 0 = some job0 ∧ isQuarantined portless 0 1 = false ∧ ownSci portless 0 0 = ownSci heard 0 0 ∧
    (chan portless 0 0 1).offer = none ∧ (chan (setChan heard 0 0 1 Chan.reset) 0 0 1).txAn = none := by decide +kernel
theorem wit_PeersKeysAndTables_accept : (Instr.keyAcceptRx accept0).wf = true ∧ keyMalformed accept0.frame = false ∧
    keySci accept0.frame 0 = ownSci (offered 0) 0 0 ∧ keySci accept0.frame 1 = peerSci job0 1 0 ∧ jobOf (offered 0) 0 = some job0 ∧
    (chan (offered 0) 0 0 1).offer = some (keyAn accept0.frame, 0, secret0, 0) ∧
    keyRest accept0.frame = confirmOf secret0 (ownSci (offered 0) 0 0) (peerSci job0 1 0) (keyAn accept0.frame) ∧
    max (offered 0).now 5 < 0 + 10000000 ∧ 0 + 10000000 ≤ max (offered 0).now 10000000 := by decide +kernel
def pointed (ready : Option Nat) : State := setPart own 0 { part own 0 with points := [⟨0, 0, 2, 0⟩], pathReady := ready }
theorem wit_PeersKeysAndTables : 0 < limit ∧ 0 + 1000 * odN (resendable 0) kRtoUs ≤ max (resendable 0).now 10000000000 ∧
    odN unlinked (kLinkUp (qpPort 0)) = 0 ∧ (qp unlinked 0).frames ≠ [] ∧ (qp unlinked 0).absent = false ∧ (qp unlinked 0).isOpen = true ∧
    (qp unlinked 0).progress + 1000000 * odN unlinked kPartnerTimeoutMs ≤ 100000000000 ∧ writeOpen quarantined (kPeerQuarantineClear 0) (.num 1) = true ∧
    isQuarantined quarantined 0 1 = true ∧ jobOf heard 0 = some job0 ∧ routed job0 1 0 = true ∧ isQuarantined heard 0 1 = false ∧
    tickAfter (tickNow (pointed none)) 0 = true ∧ (chan heard 0 0 1).txAn ≠ none ∧
    (chan (offered 0) 0 0 1).offer = some (1, 0, secret0, 0) ∧ (chan (offered 3) 0 0 1).offer = some (1, 3, secret0, 0) ∧
    (part (pointed (some 2)) 0).points = [⟨0, 0, 2, 0⟩] ∧ (part (pointed none) 0).pathReady ≠ some 2 ∧
    writeOpen own (kPathShadowLoad 0) (.num semBase) = true ∧ listRegionOk own semBase = false := by decide +kernel
/-- A job of one module at 4096, its peer table at 0x40000 with no route. -/
def jobCells : List Host.Cell :=
  sparse 4096 (leBytes 64 (7 * 2 ^ 480 + 0x01010101 * 2 ^ 448 + 2 ^ 424 + 0x40000 * 2 ^ 352)) ++
  sparse 0x40000 (leBytes 32 (2 ^ 248 + 2 ^ 224 + 4 * 2 ^ 216) ++ (List.replicate 8 (leBytes 32 0xFFFF)).flatten)
def jobMem : State := { own with mem := { own.mem with cells := jobCells } }
theorem wit_PeersKeysAndTables_job : writeOpen jobMem (kJobMapAddr 0) (.num 4096) = true ∧ (readJob jobMem 0 4096).1 = .ok := by decide +kernel

/-! ### The queue, memory, the dictionary -/

def queued1 : State := { own with pending := [.linkDown 0, .nop hdrV], mem := { own.mem with cells := [(64, 5), (65, 6)] } }
theorem wit_StepRunsFront : queued1.pending = .linkDown 0 :: [.nop hdrV] ∧ up.pending = [] ∧ (Instr.nop hdrV).wf = true ∧
    (Instr.nop { hdrV with consist := 40 }).wf = false ∧ queueWf queued1 = true ∧ Memory.wf queued1.mem = true := by decide +kernel
theorem wit_MemoryKept : ∃ t, step queued1 = .next t := ⟨_, rfl⟩
theorem test_step : step queued1 = exec (.linkDown 0) { queued1 with pending := [.nop hdrV] } := rfl
theorem wit_MemoryReadsBack : histZero (stagingBase + 0x02FB_0000) = true ∧
    ((linesOf (stagingBase + 0x02FB_0000) 1).all fun l => farWritable own (max (stagingBase + 0x02FB_0000) (l * 64))) = true ∧
    ((linesOf farBase 64).all fun l => farWritable own (max farBase (l * 64))) = true ∧
    ((linesOf 0 0).all fun l => farWritable own (max 0 (l * 64))) = true := by decide +kernel
theorem wit_RefusedWrite : typeOk (keyTy kBookExportMark) (.octets []) = false ∧ starting State.reset = true ∧ bootWritable State.reset kPowerCap = false := by
  decide +kernel
/-- R9: the least significant byte first; R453: a counter in the views that see it. -/
theorem test_store : memRead (storeBytes own 64 (leBytes 2 0x1234) none).1.mem 64 2 = [0x34, 0x12] := by decide +kernel
theorem test_counter : [0, 1, 2, 8, 9].map (ctrGet (bump up kTicksSkipped 3 (some 5)) kTicksSkipped) = [3, 3, 3, 3, 0] := by decide +kernel

/-! ### Ill-formed commands -/

theorem test_verb_headers : ([{ hdrV with consist := 40 }, { hdrV with queue := 16 }, { hdrV with waits := List.replicate 5 ⟨0, 0, [0, 0, 0, 0]⟩ },
    { hdrV with rmask := 65536 }, { hdrV with wmask := 65536 }, { hdrV with waits := [⟨65536, 0, [0, 0, 0, 0]⟩] }, { hdrV with waits := [⟨0, 2 ^ 32, [0, 0, 0, 0]⟩] },
    { hdrV with waits := [⟨0, 0, [0, 0, 0]⟩] }, { hdrV with waits := [⟨0, 0, [32768, 0, 0, 0]⟩] }, { hdrV with waits := [⟨0, 0, [0, -32769, 0, 0]⟩] },
    { hdrV with post := some 65536 }].all fun h => !h.wf) = true := by decide +kernel
theorem test_hrt_frames : ([{ fWrite with part := 40 }, { fWrite with port := 8 }, { fWrite with peer := 64 }, { fWrite with pcp := 8 },
    { fWrite with wire := zeros 31 }, { fWrite with wire := zeros 33 }].all fun f => !f.wf) = true := by decide +kernel
theorem test_frames : ([{ rx0 with shared := 2097153 }, { rx0 with reserved := 2097153 }].all fun f => !f.wf) = true := by decide +kernel
theorem test_requests : ([{ readReq with session := 2 ^ 32 }, { readReq with mailbox := 42 }, { readReq with frameSeq := 2 ^ 32 },
    { readReq with requestId := 2 ^ 32 }, { readReq with index := 65536 }, { readReq with sub := 256 }, { readReq with offset := 2 ^ 32 },
    { readReq with total := 2 ^ 32 }, { readReq with length := 2 ^ 32 }].all fun r => !r.wf) = true := by decide +kernel
theorem test_environments : ([{ env0 with findings := [⟨none, 2 ^ 64, 0⟩] }, { env0 with failedCores := [] }, { env0 with failedSpares := [] },
    { env0 with failedSpares := List.replicate 8 5 }, { env0 with memChannels := 2 ^ 64 }, { env0 with components := [] }].all fun e => !e.wf) = true := by decide +kernel
theorem test_verbs : ([.post hdrV 65536, .signalArrive hdrV 65536 0, .signalArrive hdrV 0 (2 ^ 32), .semReset hdrV 65536 0, .slotMark hdrV ⟨65536, 0, none⟩,
    .slotMark hdrV ⟨0, 65536, none⟩, .allReduce hdrV ⟨[], [], 65536⟩, .verbIssue 40 0 0, .verbIssue 0 20 0, .verbTokenPost 40 0, .updateShardCheck 40 0,
    .controlStateError (.semaphore 65536), .controlStateError (.sequencer 40), .controlStateError (.scoreboard 40 0 0),
    .controlStateError (.scoreboard 0 20 0)].all fun i => !Instr.wf i) = true := by decide +kernel
theorem test_machine : ([.tickBoundary 0 [], .tickChangeAtWrite opr (2 ^ 64), .ptpSyncRx { msg true with port := 8 }, .granuleScrub .near 6400,
    .patrolRead (2 ^ 64) Ecc.clean, .blockDispatch 8 Ecc.clean, .depotWriteResume 16, .depotBackgroundOp (.collect 16) 1 0, .depotAgeRefresh (2 ^ 32),
    .depotPreserveSet opr 65536, .layerTableAddrWrite opr 40 0, .layerTableAddrWrite opr 0 (2 ^ 64), .voteRx fWrite, .decisionRx fWrite, .revisedVoteRx fWrite,
    .inflectorWalkEnd 0 4096, .stepWaitExpiry 40, .thermalSample [] 0, .thermalSample [0x7F800000] 0, .inletSample 0x7F800000 0, .arrayDutyAdjust 65536,
    .powerCapWrite opr 65536, .padRelease opr 256, .domainOnRequest opr 128, .osfpPresent 4 0].all fun i => !Instr.wf i) = true := by decide +kernel
theorem test_network : ([.frameRx 9 rx0, .pauseRx 8 0, .pauseRx 0 65536, .pfcRx 0 256 (List.replicate 8 0), .pfcRx 0 0 [], .pfcRx 0 0 (List.replicate 8 65536),
    .pauseRefresh 0 2097153 0, .pauseRefresh 0 0 2097153, .cageModeWrite opr 256, .vidWrite opr 40 0, .vidWrite opr 0 65536, .portMapWrite opr 0 256,
    .portEnableWrite opr 8 0, .portEnableWrite opr 0 256, .keyOfferRx { offer0 with peer := 64 }, .keyAcceptRx { accept0 with wire := keyHdr 1 40 }, .keyAcceptTimeout 0 0 64 0, .hrtWriteRx fAdd, .hrtAddRx fWrite,
    .hrtAckRx fWrite, .hrtWindowWriteRx fWrite, .bufferFreeRx fWrite, .hrtAckDelay 4096, .hrtRtoExpiry 0 (2 ^ 32) 0, .peerQuarantineClear opr 0 256].all
      fun i => !Instr.wf i) = true := by decide +kernel
theorem test_management : ([.linkError 2 0, .adopt (2 ^ 64) secret0, .adopt 0 [], .doorbellSqTail 256 0, .doorbellSqTail 0 (2 ^ 32), .manifestFetch 0 [],
    .manifestNop 256 0, .manifestNop 0 (2 ^ 32), .queueEnable 256, .apertureDescriptorWrite 0 secret0, .apertureDescriptorWrite 32 secret0,
    .apertureDescriptorWrite 1 [], .hostApertureRead 0 4097 Ecc.clean, .hostApertureRead (2 ^ 38) 1 Ecc.clean, .hostApertureWrite (2 ^ 38) [0],
    .hostReservedAccess (2 ^ 38) 0 true, .hostReservedAccess 0 4097 true, .queueDescriptorWrite 0 64 [0], .grantObjectWrite opr 0 1 (.num 0),
    .grantObjectWrite opr 0 9 (.num 0), .keyListWrite opr 0x0B 0 [], .keyListWrite opr 0x0F 0 [], .debugOpen srv 256,
    .lmpOpen { openReq with role := 256 }, .lmpOpenProof (2 ^ 32) 0 (some true) 0, .bookExportMarkWrite opr (2 ^ 64), .startupStepTimeout 14 0, .ledgerClear opr 256,
    .recoveryCommand 256 none true].all fun i => !Instr.wf i) = true := by decide +kernel

end Sys2Proof.Tests
end

section
/-! O35: the start-up that the discard of a hold begins (R411, R471), which keeps objects, the depot's blocks and the book. -/

namespace Sys2Proof.Machine

/-! ### Writes that wait are settled (R448) -/

/-- `t` differs from `s` at most in objects. -/
def OdOnly (s t : State) : Prop := t = { s with od := t.od }

theorem OdOnly.refl (s : State) : OdOnly s s := rfl

theorem OdOnly.trans {s t u : State} (h : OdOnly s t) (g : OdOnly t u) : OdOnly s u := by
  unfold OdOnly at *; rw [g, h]

/-- A fold whose every step changes objects only changes objects only. -/
theorem OdOnly.fold {α : Type} (l : List α) (f : State → α → State) (h : ∀ s a, OdOnly s (f s a)) (s : State) :
    OdOnly s (l.foldl f s) := by
  induction l generalizing s with
  | nil => exact .refl s
  | cons a r ih => exact (h s a).trans (ih (f s a))

theorem odOnly_odPut (s : State) (k : Nat) (v : OdVal) : OdOnly s (odPut s k v) := rfl

/-- Writes that wait are values of objects (R448). -/
theorem odOnly_settleWrites (s : State) : OdOnly s (settleWrites s) := by
  unfold settleWrites
  extract_lets put s₁ s₂
  have hput (s : State) (l : Tab (Option OdVal)) : OdOnly s (put s l) := by
    refine .fold l _ (fun s y => ?_) s
    cases y.2 <;> rfl
  have h₁ : OdOnly s s₁ := .fold _ _ (fun s x => (hput s _).trans (hput _ _)) s
  have h₂ : OdOnly s₁ s₂ := .fold _ _ (fun s y => odOnly_odPut s _ _) s₁
  refine (h₁.trans h₂).trans (.fold _ _ (fun s y => ?_) s₂)
  cases y.2 <;> rfl

@[simp] theorem settleWrites_depot (s : State) : (settleWrites s).depot = s.depot := by rw [odOnly_settleWrites s]

@[simp] theorem settleWrites_book (s : State) : (settleWrites s).book = s.book := by rw [odOnly_settleWrites s]

/-! ### The start-up begins (R471) -/

/-- An object that neither persists nor shows what stands around the module reads its default once a start-up has begun (R448). -/
theorem odVal_beginStart_volatile (s : State) (c : Nat) {k : Nat} (hk : k ≠ kBootCause) (hp : odPersists k = false)
    (hq : physicalObject k = false) : odVal (beginStart s c) k = odDefault k := by
  have gone : (List.filter (fun x => odPersists x.1 || physicalObject x.1) (settleWrites s).od).find? (·.1 = k) = none := by
    simp only [List.find?_eq_none, List.mem_filter, decide_eq_true_eq]
    rintro x ⟨-, hx⟩ rfl
    simp [hp, hq] at hx
  rw [beginStart, odVal_odSet_ne _ _ hk]
  simp only [odVal, gone]

@[simp] theorem odN_beginStart_bootCause (s : State) (c : Nat) : odN (beginStart s c) kBootCause = c := odN_odSet_same _ _ _

/-- Such an object whose default is 0 reads 0. -/
theorem odN_beginStart_volatile (s : State) (c : Nat) {k : Nat} (hk : k ≠ kBootCause) (hp : odPersists k = false)
    (hq : physicalObject k = false) (hd : odDefault k = some (.num 0)) : odN (beginStart s c) k = 0 := by
  rw [odN, odVal_beginStart_volatile s c hk hp hq, hd]

theorem odN_beginStart_bootState (s : State) (c : Nat) : odN (beginStart s c) kBootState = 0 :=
  odN_beginStart_volatile s c (by decide) (by decide +kernel) (by decide) (by decide +kernel)

theorem odN_beginStart_holdState (s : State) (c : Nat) : odN (beginStart s c) kHoldState = 0 :=
  odN_beginStart_volatile s c (by decide) (by decide +kernel) (by decide) (by decide +kernel)

/-- HOLD_DISCARD of a module with input power and out of ROM recovery begins a start-up with cause 3. -/
theorem exec_holdDiscard {s : State} (hr : s.boot.inRecovery = false) (hp : s.pow.stopped = false) :
    exec .holdDiscard s = .next (beginStart s 3) := by
  show Host.Outcome.next _ = _
  rw [if_neg (by simp [hr, hp])]

end Sys2Proof.Machine

open Sys2Proof Sys2Proof.Machine

/-- Settles O35: the start-up begins from the reset state but for what it names, and the writes it settles first are objects. -/
theorem holdDiscarded : Obligations.HoldDiscarded := by
  intro s hr hp
  refine ⟨beginStart s 3, exec_holdDiscard hr hp, odN_beginStart_bootState s 3, odN_beginStart_holdState s 3,
    odN_beginStart_bootCause s 3, rfl, rfl, rfl, rfl, rfl, rfl, rfl, rfl, rfl, ?_, ?_, ?_, ?_⟩
  all_goals simp [beginStart]
end

section
/-! O48: the writes that a completion and its notification make in host memory (R401, R403), whether they reach the host at once or
wait in the replay buffers. -/

namespace Sys2Proof.Machine

/-! ### Writes to host memory (R386, R388, R401) -/

/-- What a write shows outside the module. -/
def Posted.shown (w : Posted) : Out := .hostWrite w.addr w.bytes

/-- Writes reach the host at once: a link is up, and no earlier write waits. -/
def Reaching (s : State) : Prop := odN s kBrynqLinksUp ≠ 0 ∧ s.link.unacked = []

theorem hostWritten_eq (s : State) (w : Posted) :
    hostWritten s w = { s with ctr := (hostWritten s w).ctr, out := w.shown :: s.out } := by
  unfold hostWritten
  split
  · rfl
  · rw [bump_eq]; rfl

theorem hostWritten_plain {w : Posted} (h : w.done = none) (s : State) : hostWritten s w = emit s w.shown := by
  rw [hostWritten, if_pos h]; rfl

theorem hostWritten_done {w : Posted} (h : w.done ≠ none) (s : State) :
    hostWritten s w = bump (emit s w.shown) kCompletionsWritten 1 none := by
  rw [hostWritten, if_neg h]; rfl

theorem hostWritten_reaching {s : State} (h : Reaching s) (w : Posted) : Reaching (hostWritten s w) := by
  rw [hostWritten_eq]; exact h

/-- Writes that reach the host go out in their order. -/
theorem foldl_hostPost_reaching (ws : List Posted) {s : State} (h : Reaching s) : ws.foldl hostPost s = ws.foldl hostWritten s := by
  induction ws generalizing s with
  | nil => rfl
  | cons w ws ih =>
    have hw : hostPost s w = hostWritten s w := if_pos h
    rw [List.foldl_cons, List.foldl_cons, hw, ih (hostWritten_reaching h w)]

/-- Writes that do not reach it wait in their order behind the earlier ones. -/
theorem foldl_hostPost_waiting (ws : List Posted) {s : State} (h : ¬ Reaching s) :
    ws.foldl hostPost s = { s with link := { s.link with unacked := s.link.unacked ++ ws } } := by
  induction ws generalizing s with
  | nil => simp
  | cons w ws ih =>
    have hw : hostPost s w = { s with link := { s.link with unacked := s.link.unacked ++ [w] } } := if_neg h
    have still : ¬ Reaching { s with link := { s.link with unacked := s.link.unacked ++ [w] } } := fun r => by simp [Reaching] at r
    rw [List.foldl_cons, hw, ih still]
    simp

theorem foldl_hostWritten_eq (ws : List Posted) (s : State) : ws.foldl hostWritten s =
    { s with ctr := (ws.foldl hostWritten s).ctr, out := (ws.map Posted.shown).reverse ++ s.out } := by
  induction ws generalizing s with
  | nil => rfl
  | cons w ws ih =>
    rw [List.foldl_cons, ih, hostWritten_eq s w]
    simp

/-! ### One completion (R401, R403) -/

/-- Where the next completion record of a queue lies in the ring. -/
def nextSlot (v : HQueue) : Nat := v.cqBase + 32 * (v.cqWritten % 2 ^ v.cqOrder)

/-- The writes of a completion: its record but for bytes 28 to 31, these, and the notification. -/
def completionWrites (s : State) (q : Nat) (v : HQueue) (c : Completion) : List Posted :=
  [⟨nextSlot v, (completionBytes s v c).take 28, none⟩, ⟨nextSlot v + 28, (completionBytes s v c).drop 28, some (q, c)⟩] ++
    (if c.irq = true ∧ v.irqAddr ≠ 0 then [⟨v.irqAddr, leBytes 4 v.irqData, none⟩] else [])

/-- The queue with one more completion written. -/
def slotWritten (s : State) (q : Nat) : State := setQueue s q { queue s q with cqWritten := (queue s q).cqWritten + 1 }

theorem putCompletion_eq (s : State) (q : Nat) (c : Completion) :
    putCompletion s q c = (completionWrites s q (queue s q) c).foldl hostPost (slotWritten s q) := by
  unfold putCompletion completionWrites
  simp only
  split <;> rfl

/-- A completion record has 32 bytes (Table 9 of 14). -/
theorem completionBytes_length (s : State) (v : HQueue) (c : Completion) : (completionBytes s v c).length = 32 := by
  simp [completionBytes, leBytes]

theorem reaching_slotWritten {s : State} (q : Nat) : Reaching (slotWritten s q) ↔ Reaching s := Iff.rfl

/-- A completion that reaches the host: nothing but the queue, the counters and what is shown changes. -/
theorem putCompletion_reaching {s : State} (h : Reaching s) (q : Nat) (c : Completion) : putCompletion s q c =
    { slotWritten s q with
      ctr := (putCompletion s q c).ctr, out := ((completionWrites s q (queue s q) c).map Posted.shown).reverse ++ s.out } := by
  rw [putCompletion_eq, foldl_hostPost_reaching _ ((reaching_slotWritten q).mpr h), foldl_hostWritten_eq]
  rfl

/-- One that does not waits whole. -/
theorem putCompletion_waiting {s : State} (h : ¬ Reaching s) (q : Nat) (c : Completion) : putCompletion s q c =
    { slotWritten s q with link := { s.link with unacked := s.link.unacked ++ completionWrites s q (queue s q) c } } := by
  rw [putCompletion_eq, foldl_hostPost_waiting _ (mt (reaching_slotWritten q).mp h)]
  rfl

/-- The record and the notification as they wait, the oldest first. -/
theorem putCompletion_unacked {s : State} {q : Nat} {v : HQueue} (h : ¬ Reaching s) (hv : queue s q = v) (c : Completion) :
    (putCompletion s q c).link.unacked = s.link.unacked ++
      [⟨nextSlot v, (completionBytes s v c).take 28, none⟩, ⟨nextSlot v + 28, (completionBytes s v c).drop 28, some (q, c)⟩] ++
        (if c.irq = true ∧ v.irqAddr ≠ 0 then [⟨v.irqAddr, leBytes 4 v.irqData, none⟩] else []) := by
  rw [putCompletion_waiting h, hv, List.append_assoc]
  rfl

/-- The record and the notification as they are shown, the latest first. -/
theorem putCompletion_out {s : State} {q : Nat} {v : HQueue} (h : Reaching s) (hv : queue s q = v) (c : Completion) :
    (putCompletion s q c).out =
      (if c.irq = true ∧ v.irqAddr ≠ 0 then [Out.hostWrite v.irqAddr (leBytes 4 v.irqData)] else []) ++
        Out.hostWrite (nextSlot v + 28) ((completionBytes s v c).drop 28) ::
          Out.hostWrite (nextSlot v) ((completionBytes s v c).take 28) :: s.out := by
  rw [putCompletion_reaching h, hv, completionWrites]
  split <;> simp [Posted.shown]

theorem queue_putCompletion (s : State) (q : Nat) (c : Completion) :
    queue (putCompletion s q c) q = { queue s q with cqWritten := (queue s q).cqWritten + 1 } := by
  have hq : (putCompletion s q c).queues = (slotWritten s q).queues := by
    by_cases h : Reaching s
    · rw [putCompletion_reaching h]
    · rw [putCompletion_waiting h]
  rw [queue, hq]
  exact queue_setQueue_same _ _ _

/-- Of its writes only the one of bytes 28 to 31 makes a completion visible, which counts. -/
theorem counted_putCompletion {s : State} (h : Reaching s) (q : Nat) (c : Completion) :
    Counted s (putCompletion s q c) kCompletionsWritten 1 := by
  rw [putCompletion_eq, foldl_hostPost_reaching _ ((reaching_slotWritten q).mpr h)]
  unfold completionWrites Counted
  simp only [List.cons_append, List.nil_append, List.foldl_cons]
  rw [hostWritten_plain (w := ⟨_, _, none⟩) rfl, hostWritten_done (by simp)]
  split
  · simp only [List.foldl_cons, List.foldl_nil]
    rw [hostWritten_plain rfl, ctrGet_emit, ctrGet_bump_operator _ _ _ _ (by decide)]
    rfl
  · rw [List.foldl_nil, ctrGet_bump_operator _ _ _ _ (by decide)]
    rfl

/-- A running queue that retains nothing writes a completion at once where a slot is held for it, or one is free and nothing waits. -/
theorem deliver_running {s : State} {q : Nat} {c : Completion} {reserved : Bool} (hs : (queue s q).state = 1) (hr : (queue s q).retained = [])
    (hf : reserved = true ∨ ((queue s q).waiting = [] ∧ slotsUsed (queue s q) < 2 ^ (queue s q).cqOrder)) :
    deliver s q c reserved = putCompletion s q c := by
  rw [deliver]
  simp only [hs, hr, hf, and_self, if_true]
  rfl

/-- Only a queue that drains is disabled. -/
theorem drained_of_state_ne {s : State} {q : Nat} (h : (queue s q).state ≠ 4) : drained s q = s := if_neg fun g => h g.1

/-! ### Events (R404) -/

/-- The completion of an event. -/
def eventCompletion (st : Status) (d : Nat) : Completion := ⟨stCode st, 0xFF, 0, 0, d, 0, true⟩

theorem queue_of_only {s : State} {q : Nat} {v : HQueue} (h : s.queues = [(q, v)]) : queue s q = v := by simp [queue, h, tget]

/-- The module's only queue takes the events of its partition: one completion, written at once where a slot is free. -/
theorem event_running {s : State} {q p d : Nat} {st : Status} {v : HQueue} (hqs : s.queues = [(q, v)])
    (htake : v.part = p ∧ v.events = true ∧ v.enable = true) (hs : v.state = 1) (hfree : slotsUsed v < 2 ^ v.cqOrder)
    (hw : v.waiting = []) (hr : v.retained = []) : event s p st d = putCompletion s q (eventCompletion st d) := by
  obtain rfl := queue_of_only hqs
  rw [event, hqs, List.foldl_cons, List.foldl_nil, if_pos htake]
  exact deliver_running hs hr (.inr ⟨hw, hfree⟩)

/-! ### MANIFEST_COMPLETE (R399, R401) -/

/-- A queue without the manifest of a sequence. -/
def HQueue.without (v : HQueue) (seq : Nat) : HQueue := { v with started := v.started.filter fun y => y.seq ≠ seq }

/-- The state in which a queue no longer holds the manifest of a sequence. -/
def manifestGone (s : State) (q seq : Nat) : State := setQueue s q ((queue s q).without seq)

@[simp] theorem queue_manifestGone (s : State) (q seq : Nat) : queue (manifestGone s q seq) q = (queue s q).without seq :=
  queue_setQueue_same _ _ _

theorem reaching_manifestGone {s : State} (q seq : Nat) : Reaching (manifestGone s q seq) ↔ Reaching s := Iff.rfl

/-- The completion of a manifest that has ended. -/
def completionOf (x : Started) (seq : Nat) (parts : List (Nat × Status)) : Completion :=
  ⟨stCode x.status, mOp x.bytes, seq, mB x.bytes 52 4, parts.length,
    (parts.filter fun y => partFine y.2).foldl (fun r y => bitSet r y.1) 0, mIrq x.bytes⟩

/-- The manifest that MANIFEST_COMPLETE takes: of the sequence, run, and with every host write of its parts acknowledged. -/
def endedManifest (s : State) (q seq : Nat) : Option Started :=
  (queue s q).started.find? fun y => y.seq = seq && y.parts ≠ none && !(y.parts.getD []).any fun z => partUnacked s y.bytes z.1

/-- A manifest of a running queue that asks for no token, ended ok and loaded no image leaves only its completion. -/
theorem exec_manifestComplete {s : State} {q seq : Nat} {x : Started} {parts : List (Nat × Status)} (hq : q < 256) (hn : seq < 2 ^ 32)
    (hs : (queue s q).state = 1) (hx : endedManifest s q seq = some x) (hparts : x.parts = some parts) (hpost : mPost x.bytes = false)
    (hok : x.status = .ok) (h1 : mOp x.bytes ≠ 0x01) (hA : mOp x.bytes ≠ 0x0A) (hr : (queue s q).retained = []) :
    exec (.manifestComplete q seq) s = .next (putCompletion (manifestGone s q seq) q (completionOf x seq parts)) := by
  have image : extendImage (manifestGone s q seq) (queue s q).part x = manifestGone s q seq := if_neg fun h => h.1.elim h1 hA
  have whole : deliver (manifestGone s q seq) q (completionOf x seq parts) true = putCompletion (manifestGone s q seq) q (completionOf x seq parts) :=
    deliver_running (by rw [queue_manifestGone]; exact hs) (by rw [queue_manifestGone]; exact hr) (.inl rfl)
  have runs : drained (putCompletion (manifestGone s q seq) q (completionOf x seq parts)) q = putCompletion (manifestGone s q seq) q (completionOf x seq parts) :=
    drained_of_state_ne (by simp [queue_putCompletion, HQueue.without, hs])
  have run : execManifestComplete q seq s =
      .next (drained (deliver (extendImage (manifestGone s q seq) (queue s q).part x) q (completionOf x seq parts) true) q) := by
    unfold endedManifest at hx
    rw [execManifestComplete, guardWf, if_pos (show rowOk q seq = true from decide_eq_true ⟨hq, hn⟩)]
    simp only [hx, hparts, hpost, hok, manifestGone, HQueue.without, completionOf, Bool.false_eq_true, false_and, reduceCtorEq, or_self, if_false,
      Option.getD_some]
  exact run.trans (by rw [image, whole, runs])

end Sys2Proof.Machine

open Sys2Proof Sys2Proof.Machine

/-- Settles O48: the completion's writes, in their order, wait whole or reach the host at once. -/
theorem notificationFollows : Obligations.NotificationFollows := by
  refine ⟨?manifest, ?event⟩
  case manifest =>
    rintro q seq _ x parts s hq hn hs hx hparts hpost hok h1 hA hr rfl
    have run := exec_manifestComplete hq hn hs hx hparts hpost hok h1 hA hr
    have gone := queue_manifestGone s q seq
    refine ⟨fun h => ?waits, fun hup hun => ?reaches⟩
    case waits =>
      have down : ¬ Reaching (manifestGone s q seq) := mt (reaching_manifestGone q seq).mp h
      refine ⟨_, _, _, run, completionBytes_length _ _ _, putCompletion_unacked down gone _, ?_⟩
      rw [putCompletion_waiting down]; rfl
    case reaches =>
      have up : Reaching (manifestGone s q seq) := (reaching_manifestGone q seq).mpr ⟨hup, hun⟩
      refine ⟨_, _, run, completionBytes_length _ _ _, putCompletion_out up gone _, ?_, ?_, counted_putCompletion up q _, ?_⟩
      · rw [queue_putCompletion, gone]; rfl
      · rw [queue_putCompletion, gone]; rfl
      · rw [putCompletion_reaching up]; rfl
  case event =>
    intro q p d st v s hqs hp hev hen hs hfree hw hr hup hun
    have hv := queue_of_only hqs
    have one : event s p st d = putCompletion s q (eventCompletion st d) :=
      event_running hqs ⟨hp, hev, hen⟩ hs hfree hw hr
    refine ⟨_, completionBytes s v (eventCompletion st d), completionBytes_length _ _ _, rfl, ?_⟩
    rw [one, putCompletion_out ⟨hup, hun⟩ hv]
    simp only [eventCompletion, true_and]
    rfl
end

section
/-! O42: a host loss that counts twice (R387). The statement bounds the partitions of the queues and of the partition table, and says
nothing of those that queue pairs name. -/

namespace Sys2Proof.Machine

/-- 262,141: the view of this partition in `hrt_retransmits` has the place of the operator's view of `host_losses`. -/
def strayPart : Nat := 64 * (kHostLosses - kHrtRetransmits) - 3

/-- Partition 0 is a job of two modules, led by the other one, which port 0 reaches over QP 0. -/
def strayJob : JobMap := { JobMap.reset with sizeD := 2, rank := 1, peers := [⟨1, 0, 1, 4, 0, [⟨0, 0, 0, 0, 0⟩], []⟩] }

/-- A commit record, once sent, waits on QP 0 to be sent again. -/
def strayQp : Qp :=
  { Qp.reset with isOpen := true, part := strayPart, frames := [⟨{ hdr0 with opcode := 3, code := 0x10 }, [], some 0, true, 0, 2, 0⟩] }

/-- A module in service whose partition 0 has a step open, and whose QP 0 names partition 262,141. -/
def strayState : State :=
  setQp (setPart (odSet (odSet State.reset kBootState 1) (kLinkUp 0) 1) 0
    { Part.reset with step := { StepSt.reset with isOpen := true }, job := some strayJob }) 0 strayQp

/-- The state in which the host reset leaves it. -/
def strayLost : State :=
  hostLoss { odSet strayState kBrynqLinksUp 0 with
    link := { strayState.link with resetLow := true, error0 := none, error1 := none, degraded := 0 } } 2

theorem exec_hostRstAssert_stray : exec (.hostRstAssert 0) strayState = .next strayLost := rfl

theorem hostLosses_strayState : ctrGet strayState kHostLosses 0 = 0 := rfl

/-- The vote of the hold goes to the leader over QP 0, which sends the record again and counts that for partition 262,141. -/
theorem hostLosses_strayLost : ctrGet strayLost kHostLosses 0 = 2 := by decide +kernel

end Sys2Proof.Machine

open Sys2Proof Sys2Proof.Machine

/-- Refutes O42: nothing is asked of the partition that a QP names, and a retransmission counted for partition 262,141 adds to
`host_losses`. -/
theorem not_hostResetIsHostLoss : ¬ Obligations.HostResetIsHostLoss := by
  intro h
  obtain ⟨t, ht, -, -, -, -, hc⟩ := h 0 strayState rfl (by decide +kernel) (by decide +kernel) (by decide) (by decide)
  obtain rfl : strayLost = t := by simpa [exec_hostRstAssert_stray] using ht
  rw [Counted, hostLosses_strayLost, hostLosses_strayState] at hc
  exact absurd hc (by decide)
end

section
/-! O13: AIRFLOW_WRITE, and the caps and `thermal_state` that follow it (R501, R506, R509). -/

namespace Sys2Proof.Machine

/-! ### Dictionary writes (R447, R451, R462) -/

theorem OdKept.odN_eq {l : List Nat} {s t : State} (h : OdKept l s t) {k : Nat} (hk : k ∉ l) : odN t k = odN s k := by
  simp only [odN, h k hk]

theorem entered_pow (s : State) (w : Who) (k : Nat) (v : OdVal) : (entered s w k v).pow = s.pow := appendEntry_pow s _

theorem within_entered (s : State) (w : Who) (k : Nat) (v : OdVal) : Within s (entered s w k v) := within_appendEntry s _

theorem OdOnly.within {s t : State} (h : OdOnly s t) : Within s t := ⟨_, _, _, h⟩

theorem odKept_enteredAs (s : State) (w : Who) (k : Nat) (v : OdVal) (st : Status) : OdKept bookKeys s (enteredAs s w k v st) :=
  fun _ h => odVal_appendEntry s _ h

theorem odKept_emit (l : List Nat) (s : State) (o : Out) : OdKept l s (emit s o) := fun k _ => odVal_emit s o k

/-- An answer adds to what is shown, and nothing else. -/
theorem answered_eq_of_within {s t : State} (h : Within s t) (key : Nat) : answered t key =
    { s with od := (answered t key).od, ctr := (answered t key).ctr, book := (answered t key).book, out := .written key 0 :: s.out } := by
  obtain ⟨o, c, b, rfl⟩ := h; rfl

/-- A write that the object's own check finds malformed is entered, counted and answered, and has no effect. -/
theorem dictWrite_malformed {s : State} {w : Who} {key : Nat} {v : OdVal} {check : State → Status} {take : State → State}
    (hu : dictUp s = true) (hb : bookFull s 1024 = false) (hs : starting s = false) (hc : check s = .malformed) :
    dictWrite s w key v check take =
      emit (bump (enteredAs s w key v .malformed) kLmpRefused 1 none) (.written key (stCode .malformed)) := by
  have hst : writeStatus s key v check = .malformed := by simp [writeStatus, hs, hc]
  rw [dictWrite_entered hu (by simp [hb]) hst]; rfl

/-! ### The caps and `thermal_state` (R501, R506, R509) -/

/-- The airflow cap reads one object. -/
theorem airflowCap_congr {s t : State} (h : odN t kAirflowAssuredCfm = odN s kAirflowAssuredCfm) : airflowCap t = airflowCap s := by
  simp only [airflowCap, h]

theorem airflowCap_emit (s : State) (o : Out) : airflowCap (emit s o) = airflowCap s := airflowCap_congr (odN_emit s o _)

theorem odOnly_thermal (s : State) : OdOnly s (thermal s) := by
  unfold thermal
  split
  · exact .refl s
  · exact odOnly_odPut s _ _

theorem odKept_thermal (s : State) : OdKept [kThermalState] s (thermal s) := by
  unfold thermal
  split
  · exact .refl _ s
  · exact odKept_odSet s _ (by simp)

theorem odOnly_recap (s : State) : OdOnly s (recap s) := (odOnly_odPut s _ _).trans (odOnly_thermal _)

theorem odKept_recap (s : State) : OdKept [kPowerCapEffective, kThermalState] s (recap s) :=
  (odKept_odSet s _ (by simp)).trans ((odKept_thermal _).mono (by simp))

theorem airflowCap_recap (s : State) : airflowCap (recap s) = airflowCap s :=
  airflowCap_congr ((odKept_recap s).odN_eq (by decide))

/-- The cap in force is the least of the three caps (R501). -/
theorem odN_recap_powerCapEffective (s : State) :
    odN (recap s) kPowerCapEffective = min s.pow.capNow (min s.pow.inletCap (airflowCap s)) := by
  rw [recap, (odKept_thermal _).odN_eq (by decide), odN_odSet_same]

/-! ### AIRFLOW_WRITE (R506) -/

/-- The effect of an accepted write. -/
def airflowSet (s : State) (v : Nat) : State := recap (odSet s kAirflowAssuredCfm v)

theorem odN_airflowSet (s : State) (v : Nat) : odN (airflowSet s v) kAirflowAssuredCfm = v :=
  ((odKept_recap _).odN_eq (by decide)).trans (odN_odSet_same s _ v)

theorem odOnly_airflowSet (s : State) (v : Nat) : OdOnly s (airflowSet s v) := (odOnly_odPut s _ _).trans (odOnly_recap _)

theorem odKept_airflowSet (s : State) (v : Nat) :
    OdKept [kAirflowAssuredCfm, kPowerCapEffective, kThermalState] s (airflowSet s v) :=
  (odKept_odSet s v (by simp)).trans ((odKept_recap _).mono (by simp))

theorem odN_airflowSet_powerCapEffective (s : State) (v : Nat) :
    odN (airflowSet s v) kPowerCapEffective = min s.pow.capNow (min s.pow.inletCap (airflowCap (airflowSet s v))) := by
  rw [airflowSet, odN_recap_powerCapEffective, airflowCap_recap]; rfl

/-- A value in the range of R506 takes effect. -/
theorem exec_airflowWrite_taken {who : Who} {v : Nat} {s : State} (hr : who.role = .operator)
    (ho : writeOpen s kAirflowAssuredCfm (.num v) = true) (h1 : 120 ≤ v) (h2 : v ≤ 400) :
    exec (.airflowWrite who v) s =
      .next (answered (airflowSet (entered s who kAirflowAssuredCfm (.num v)) v) kAirflowAssuredCfm) := by
  have hc : opOnly who (if v < 120 ∨ 400 < v then .malformed else .ok) = .ok := by
    rw [opOnly, if_pos hr, if_neg (by omega)]
  show execAirflowWrite who v s = _
  rw [execAirflowWrite, decide_eq_true (show v < 65536 by omega), guardWf_true, dictWrite_taken ho hc, airflowSet]

/-- Any other value is refused. -/
theorem exec_airflowWrite_malformed {who : Who} {v : Nat} {s : State} (hr : who.role = .operator) (hu : dictUp s = true)
    (hb : bookFull s 1024 = false) (hs : starting s = false) (hw : v < 65536) (hv : v < 120 ∨ 400 < v) :
    exec (.airflowWrite who v) s = .next (emit (bump (enteredAs s who kAirflowAssuredCfm (.num v) .malformed) kLmpRefused 1 none)
      (.written kAirflowAssuredCfm (stCode .malformed))) := by
  have hc : opOnly who (if v < 120 ∨ 400 < v then .malformed else .ok) = .malformed := by
    rw [opOnly, if_pos hr, if_pos hv]
  show execAirflowWrite who v s = _
  rw [execAirflowWrite, decide_eq_true hw, guardWf_true, dictWrite_malformed hu hb hs hc]

end Sys2Proof.Machine

open Sys2Proof Sys2Proof.Machine

/-- Settles O13: a value in range is entered in the book and set, and the caps follow it; any other is entered as malformed, counted and not set. -/
theorem airflowCap : Obligations.AirflowCap := by
  refine ⟨?inRange, ?outOfRange⟩
  case inRange =>
    intro who v s hr ho h1 h2
    have entry := odKept_entered s who kAirflowAssuredCfm (.num v)
    have caps := odKept_airflowSet (entered s who kAirflowAssuredCfm (.num v)) v
    refine ⟨_, exec_airflowWrite_taken hr ho h1 h2, ?value, ?cap, ?inForce, ?others, ?frame⟩
    case value => rw [answered, odN_emit, odN_airflowSet]
    case cap => rw [answered, airflowCap_emit, Machine.airflowCap, odN_airflowSet, Nat.mul_comm 50]
    case inForce => rw [answered, odN_emit, airflowCap_emit, odN_airflowSet_powerCapEffective, entered_pow]
    case others =>
      exact ((entry.mono (by simp +contextual)).trans (caps.mono (by simp +contextual))).trans (odKept_emit _ _ _)
    case frame => exact answered_eq_of_within ((within_entered s who _ _).trans (odOnly_airflowSet _ v).within) _
  case outOfRange =>
    intro who v s hr hu hb hs hw hv
    refine ⟨_, exec_airflowWrite_malformed hr hu hb hs hw hv, ?others, ?answer⟩
    case others => exact ((odKept_enteredAs s who _ _ _).trans (odKept_bump _ _ _ _ _)).trans (odKept_emit _ _ _)
    case answer => rw [emit_out, bump_out, enteredAs, appendEntry_out]; rfl
end

section
/-! O1, O2, O7 to O12: the queue's front, the reset state, and the laws of memory, objects, counters, the book's entry and a
refused write. -/

namespace Sys2Proof.Machine

/-! ### Memory (R88, R198) -/

/-- A byte 0 of a histogram base array takes no write, so a write of it alone changes nothing (R88). -/
theorem cellsWrite_histZero {c : List Host.Cell} {a : Nat} {bs : List Byte} (h : histZero a = true) (hl : bs.length = 1) :
    cellsWrite c a bs = c := by
  obtain ⟨b, rfl⟩ := List.length_eq_one_iff.mp hl
  simp [cellsWrite, cellSet, h]

/-- What a byte reads follows the bytes listed and the far tier's free values. -/
theorem memGet_congr {m n : MemSt} (hc : m.cells = n.cells) (hf : m.farGen = n.farGen) (a : Nat) : memGet m a = memGet n a := by
  simp only [memGet, hc, hf]

theorem memRead_congr {m n : MemSt} (h : ∀ x, memGet m x = memGet n x) (a k : Nat) : memRead m a k = memRead n a k := by
  induction k generalizing a with
  | zero => rfl
  | succ k ih => rw [memRead, memRead, h, ih]

/-- What memory reads after a clean store that every channel takes. -/
theorem memGet_storeBytes (s : State) (a : Nat) (bs : List Byte) (p : Option Nat)
    (h : ((linesOf a bs.length).all fun l => farWritable s (max a (l * 64))) = true) (x : Nat) :
    memGet (storeBytes s a bs p).1.mem x = memGet { s.mem with cells := cellsWrite s.mem.cells a bs } x :=
  have ⟨_, hc, hf⟩ := storeBytes_ok s a bs p h
  memGet_congr (n := { s.mem with cells := cellsWrite s.mem.cells a bs }) hc hf x

/-! ### Counters (R453) -/

/-- One view of a table of counters after a count in one view. -/
theorem tget_ctrAdd (t : Tab Nat) (k v n w : Nat) : tget 0 (ctrAdd t k v n) (k * 64 + w) =
    if w = v then (tget 0 t (k * 64 + w) + n) % 2 ^ 64 else tget 0 t (k * 64 + w) := by
  unfold ctrAdd
  split
  · next e => rw [e, tget_tmod_same]
  · rw [tget_tmod_ne 0 _ _ (by omega)]

/-- The views of a counter after an event of partition p: the operator's, the observer's, the service role's and the tenant's
have counted it, and no other view of it has. -/
theorem ctrGet_bump_view (s : State) (k n p w : Nat) (h : n ≠ 0) : ctrGet (bump s k n (some p)) k w =
    if w = 0 ∨ w = 1 ∨ w = 2 ∨ w = 3 + p then (ctrGet s k w + n) % 2 ^ 64 else ctrGet s k w := by
  simp only [ctrGet, bump, h, if_false, tget_ctrAdd]
  obtain rfl | rfl | rfl | h2 : w = 0 ∨ w = 1 ∨ w = 2 ∨ 2 < w := by omega
  case inr.inr.inr => simp [show w ≠ 0 by omega, show w ≠ 1 by omega, h2.ne']
  all_goals simp [show ∀ i, i < 3 → i ≠ 3 + p by omega]

/-! ### The book's entry (R463) -/

theorem leBytes_length (n v : Nat) : (leBytes n v).length = n := by
  induction n generalizing v with
  | zero => rfl
  | succ n ih => rw [leBytes, List.length_cons, ih]

theorem fit_length (n : Nat) (b : List Byte) : (fit n b).length = n := by
  simp [fit, zeros]

theorem entryBody_length (s : State) (n : Nat) (i : BookInfo) : (entryBody s n i).length = 144 := by
  simp [entryBody, leBytes_length, fit_length]

theorem appendEntry_entries (s : State) (i : BookInfo) : (appendEntry s i).book.entries =
    ((entryBody s (nextSerial s) i ++ shake256 (entryBody s (nextSerial s) i) 32) :: s.book.entries).take (odN s kBookCapacity) := by
  generalize hh : shake256 (entryBody s (nextSerial s) i) 32 = h
  unfold appendEntry
  simp only [hh, bump_book]
  split <;> simp

theorem odN_appendEntry_headSerial (s : State) (i : BookInfo) : odN (appendEntry s i) kBookHeadSerial = nextSerial s := by
  unfold appendEntry
  generalize shake256 (entryBody s (nextSerial s) i) 32 = h
  simp only [odN_bump]
  split
  · rw [odN_bump, odN_odSet_ne _ _ (by decide), odN_odSet_same]
  · rw [odN_odSet_same]

theorem ctrKept_appendEntry (s : State) (i : BookInfo) : CtrKept [kBookEntries, kBookEntriesOverwritten] s (appendEntry s i) := by
  unfold appendEntry
  generalize shake256 (entryBody s (nextSerial s) i) 32 = h
  refine .trans ?_ (ctrKept_bump _ _ _ nofun (by simp))
  split
  · exact .trans (fun _ _ _ _ => by simp [ctrGet]) (ctrKept_bump _ _ _ nofun (by simp))
  · exact fun _ _ _ _ => by simp [ctrGet]

/-! ### Writes that are not taken (R447, R466) -/

theorem CtrKept.mono {l m : List Nat} {s t : State} (a : CtrKept l s t) (h : ∀ k ∈ l, k ∈ m) : CtrKept m s t :=
  fun k v hv hk => a k v hv fun hl => hk (h k hl)

theorem ctrKept_emit (l : List Nat) (s : State) (o : Out) : CtrKept l s (emit s o) := fun _ _ _ _ => rfl

/-- A write ends ok only where its value is of the object's type, its checks hold, and the module has started. -/
theorem writeStatus_ne_ok {s : State} {k : Nat} {v : OdVal} {check : State → Status}
    (h : check s ≠ .ok ∨ typeOk (keyTy k) v = false ∨ (starting s = true ∧ bootWritable s k = false)) : writeStatus s k v check ≠ .ok := by
  unfold writeStatus
  split
  · simp
  · next hs =>
    split
    · simp
    · split
      · simp
      · next ht => exact h.resolve_right (by simp_all)

/-- A write that is not taken leaves an answer, and a count of refusals or a book's entry; nothing else. -/
theorem dictWrite_not_taken {s : State} {w : Who} {k : Nat} {v : OdVal} {check : State → Status} {take : State → State}
    (h : writeStatus s k v check ≠ .ok) :
    OdKept bookKeys s (dictWrite s w k v check take) ∧
      CtrKept [kBookEntries, kBookEntriesOverwritten, kLmpRefused, kBookFullRefusals] s (dictWrite s w k v check take) ∧
      dictWrite s w k v check take = { s with
        od := (dictWrite s w k v check take).od, ctr := (dictWrite s w k v check take).ctr,
        book := (dictWrite s w k v check take).book, out := (dictWrite s w k v check take).out } := by
  have answer {t : State} (o : Out) (ho : OdKept bookKeys s t)
      (hc : CtrKept [kBookEntries, kBookEntriesOverwritten, kLmpRefused, kBookFullRefusals] s t) (hw : Within s t) :
      OdKept bookKeys s (emit t o) ∧ CtrKept [kBookEntries, kBookEntriesOverwritten, kLmpRefused, kBookFullRefusals] s (emit t o) ∧
        emit t o = { s with od := (emit t o).od, ctr := (emit t o).ctr, book := (emit t o).book, out := (emit t o).out } := by
    refine ⟨ho.trans (odKept_emit _ _ _), hc.trans (ctrKept_emit _ _ _), ?_⟩
    obtain ⟨o', c, b, rfl⟩ := hw
    rfl
  obtain hu | hu := Bool.eq_false_or_eq_true (dictUp s)
  · by_cases hb : bookFull s 1024 = true ∧ k ≠ kBookExportMark
    · rw [dictWrite_full hu hb.1 hb.2]
      exact answer _ (odKept_bump _ _ _ _ _) (ctrKept_bump _ _ _ nofun (by simp)) (within_bump _ _ _ _)
    · rw [dictWrite_entered hu hb rfl]
      simp only [h, if_false]
      have ho : OdKept bookKeys s (enteredAs s w k v (writeStatus s k v check)) := odKept_enteredAs s w k v _
      have hc := (ctrKept_appendEntry s (writeInfo w k (valOctets (keyTy k) v)
        (if tyOctets (keyTy k) = 0 then 0 else leNat (valOctets (keyTy k) v)) (writeStatus s k v check))).mono
          (m := [kBookEntries, kBookEntriesOverwritten, kLmpRefused, kBookFullRefusals]) (by simp +contextual)
      have hw : Within s (enteredAs s w k v (writeStatus s k v check)) := within_appendEntry s _
      split
      · exact answer _ (ho.trans (odKept_bump _ _ _ _ _)) (hc.trans (ctrKept_bump _ _ _ nofun (by simp))) (hw.trans (within_bump _ _ _ _))
      · exact answer _ ho hc hw
  · rw [dictWrite_down hu]
    exact ⟨.refl _ _, .refl _ _, rfl⟩

end Sys2Proof.Machine

open Sys2Proof Sys2Proof.Machine

/-- Settles O1: a step takes the queue apart. -/
theorem stepRunsFront : Obligations.StepRunsFront := by
  intro c rest s h
  rw [step, h]

/-- Settles O2: an empty queue idles. -/
theorem stepIdles : Obligations.StepIdles := by
  intro s h
  rw [step, h]

/-- Settles O7: every table of the reset state is empty, so every entry reads its default. -/
theorem resetHolds : Obligations.ResetHolds :=
  ⟨rfl, rfl, reset_mem_wf, rfl, fun _ => ⟨rfl, rfl⟩, fun _ => rfl, fun _ => rfl⟩

/-- Settles O8: the bytes stored are those of the write, and the write changes its own range only. -/
theorem memoryReadsBack : Obligations.MemoryReadsBack := by
  intro s a bs p h
  have reads := memGet_storeBytes s a bs p h
  refine ⟨(storeBytes_ok s a bs p h).1, fun x hx => ?outside, fun hz => ?back, fun hz hl x => ?histogram⟩
  case outside => rw [reads, memGet_cellsWrite_out _ _ _ _ _ hx]
  case back => rw [memRead_congr reads, memRead_cellsWrite _ _ _ _ hz]
  case histogram => rw [reads, cellsWrite_histZero hz hl]

/-- Settles O9: from the laws of the dictionary's table. -/
theorem objectReadsBack : Obligations.ObjectReadsBack := fun s k v =>
  ⟨odVal_odPut_same s k v, odKept_odPut s v (by simp), rfl⟩

/-- Settles O10: the four views are those that the count adds to. -/
theorem counterViews : Obligations.CounterViews := by
  intro s k n p hn hp
  have view (w : Nat) := ctrGet_bump_view s k n p w hn.ne'
  refine ⟨by simp [view], by simp [view], by simp [view], by simp [view], fun q _ hq => ?others, ?counters, bump_eq s k n (some p)⟩
  case others => rw [view, if_neg (by omega)]
  case counters => exact ctrKept_bump s n (some p) (by rintro q ⟨⟩; omega) (by simp)

/-- Settles O11: the entry's body has 144 octets, and its objects and counters are the book's own. -/
theorem entryAppended : Obligations.EntryAppended := fun s w k v =>
  ⟨⟨_, rfl, entryBody_length _ _ _, appendEntry_entries s _⟩, odN_appendEntry_headSerial s _, odKept_entered s w k v,
    ctrKept_appendEntry s _, entered_eq s w k v⟩

/-- Settles O12: where the checks end with another status than ok, the write's status is another too. -/
theorem refusedWriteChangesNothing : Obligations.RefusedWriteChangesNothing := fun _ _ _ _ _ _ h =>
  ⟨_, rfl, dictWrite_not_taken (writeStatus_ne_ok h)⟩
end

section
/-! What any operation of the model may change, said once for each: `Steps F s t` holds of two states of which the second has other
values in the fields `F` only, no earlier time, the same queue, and a memory in its canonical form if the first has. Every
operation of the model has its own lemma, with the fields that it may change. -/

namespace Sys2Proof.Machine

/-- The fields of the state that an operation may change: all but the queue of waiting commands. -/
inductive Field
  | now | free | mem | health | consists | sems | time | pools | casts | depot | od | ctr | parts | qps | ports | chans | hrtNext
  | queues | apertures | link | sec | book | boot | pow | out
  deriving DecidableEq

/-- Every field. -/
def Field.all : List Field :=
  [.now, .free, .mem, .health, .consists, .sems, .time, .pools, .casts, .depot, .od, .ctr, .parts, .qps, .ports, .chans, .hrtNext,
    .queues, .apertures, .link, .sec, .book, .boot, .pow, .out]

/-- The first list of fields holds no other than the second. -/
def Field.within (G F : List Field) : Bool := G.all F.contains

/-- `t` in the fields `F`, `s` in every other. -/
def State.merge (F : List Field) (s t : State) : State where
  pending := s.pending
  now := bif F.contains .now then t.now else s.now
  free := bif F.contains .free then t.free else s.free
  mem := bif F.contains .mem then t.mem else s.mem
  health := bif F.contains .health then t.health else s.health
  consists := bif F.contains .consists then t.consists else s.consists
  sems := bif F.contains .sems then t.sems else s.sems
  time := bif F.contains .time then t.time else s.time
  pools := bif F.contains .pools then t.pools else s.pools
  casts := bif F.contains .casts then t.casts else s.casts
  depot := bif F.contains .depot then t.depot else s.depot
  od := bif F.contains .od then t.od else s.od
  ctr := bif F.contains .ctr then t.ctr else s.ctr
  parts := bif F.contains .parts then t.parts else s.parts
  qps := bif F.contains .qps then t.qps else s.qps
  ports := bif F.contains .ports then t.ports else s.ports
  chans := bif F.contains .chans then t.chans else s.chans
  hrtNext := bif F.contains .hrtNext then t.hrtNext else s.hrtNext
  queues := bif F.contains .queues then t.queues else s.queues
  apertures := bif F.contains .apertures then t.apertures else s.apertures
  link := bif F.contains .link then t.link else s.link
  sec := bif F.contains .sec then t.sec else s.sec
  book := bif F.contains .book then t.book else s.book
  boot := bif F.contains .boot then t.boot else s.boot
  pow := bif F.contains .pow then t.pow else s.pow
  out := bif F.contains .out then t.out else s.out

/-- What the model's operations keep. -/
structure Steps (F : List Field) (s t : State) : Prop where
  /-- Only the fields `F` change. -/
  frame : t = s.merge F t
  /-- Time does not run backward. -/
  now_le : s.now ≤ t.now
  /-- The canonical form of memory stays. -/
  mem_wf : Memory.wf s.mem = true → Memory.wf t.mem = true

/-! ### Composition -/

theorem Field.contains_of_within {G F : List Field} (h : Field.within G F = true) (f : Field) (hf : G.contains f = true) : F.contains f = true := by
  simp only [within, List.all_eq_true, List.contains_iff_mem] at *
  exact h f hf

theorem Field.within_trans {F G H : List Field} (h : Field.within F G = true) (g : Field.within G H = true) : Field.within F H = true := by
  have g := contains_of_within g
  simp only [within, List.all_eq_true] at h ⊢
  exact fun f hf => g f (h f hf)

/-- A value that stays, or may change, composes. -/
theorem pick_trans {α : Type} {b : Bool} {x y z : α} (h : y = bif b then y else x) (g : z = bif b then z else y) : z = bif b then z else x := by
  cases b
  · exact g.trans h
  · rfl

theorem pick_mono {α : Type} {b c : Bool} {x y : α} (h : y = bif b then y else x) (le : b = true → c = true) : y = bif c then y else x := by
  cases c
  · rw [show b = false by simpa using le] at h; exact h
  · rfl

theorem merge_trans {F : List Field} {s t u : State} (h : t = s.merge F t) (g : u = t.merge F u) : u = s.merge F u := by
  have at_ {α : Type} (π : State → α) (b : Bool) (a : ∀ x y : State, π (x.merge F y) = bif b then π y else π x) :
      π u = π (s.merge F u) := by
    rw [a]
    exact pick_trans ((congrArg π h).trans (a s t)) ((congrArg π g).trans (a t u))
  cases u
  simp only [State.merge, State.mk.injEq]
  have hp := congrArg State.pending h
  have gp := congrArg State.pending g
  exact ⟨gp.trans hp, at_ State.now _ fun _ _ => rfl, at_ State.free _ fun _ _ => rfl,
    at_ State.mem _ fun _ _ => rfl, at_ State.health _ fun _ _ => rfl, at_ State.consists _ fun _ _ => rfl, at_ State.sems _ fun _ _ => rfl,
    at_ State.time _ fun _ _ => rfl, at_ State.pools _ fun _ _ => rfl, at_ State.casts _ fun _ _ => rfl, at_ State.depot _ fun _ _ => rfl,
    at_ State.od _ fun _ _ => rfl, at_ State.ctr _ fun _ _ => rfl, at_ State.parts _ fun _ _ => rfl, at_ State.qps _ fun _ _ => rfl,
    at_ State.ports _ fun _ _ => rfl, at_ State.chans _ fun _ _ => rfl, at_ State.hrtNext _ fun _ _ => rfl, at_ State.queues _ fun _ _ => rfl,
    at_ State.apertures _ fun _ _ => rfl, at_ State.link _ fun _ _ => rfl, at_ State.sec _ fun _ _ => rfl, at_ State.book _ fun _ _ => rfl,
    at_ State.boot _ fun _ _ => rfl, at_ State.pow _ fun _ _ => rfl, at_ State.out _ fun _ _ => rfl⟩

theorem merge_mono {F G : List Field} {s t : State} (h : t = s.merge G t) (le : Field.within G F = true) : t = s.merge F t := by
  have le := Field.contains_of_within le
  have at_ {α : Type} (π : State → α) (f : Field) (a : ∀ (K : List Field) (x y : State), π (x.merge K y) = bif K.contains f then π y else π x) :
      π t = π (s.merge F t) := by
    rw [a]
    exact pick_mono ((congrArg π h).trans (a G s t)) (le f)
  have hp := congrArg State.pending h
  cases t
  simp only [State.merge, State.mk.injEq]
  exact ⟨hp, at_ State.now .now fun _ _ _ => rfl, at_ State.free .free fun _ _ _ => rfl,
    at_ State.mem .mem fun _ _ _ => rfl, at_ State.health .health fun _ _ _ => rfl, at_ State.consists .consists fun _ _ _ => rfl,
    at_ State.sems .sems fun _ _ _ => rfl, at_ State.time .time fun _ _ _ => rfl, at_ State.pools .pools fun _ _ _ => rfl,
    at_ State.casts .casts fun _ _ _ => rfl, at_ State.depot .depot fun _ _ _ => rfl, at_ State.od .od fun _ _ _ => rfl,
    at_ State.ctr .ctr fun _ _ _ => rfl, at_ State.parts .parts fun _ _ _ => rfl, at_ State.qps .qps fun _ _ _ => rfl,
    at_ State.ports .ports fun _ _ _ => rfl, at_ State.chans .chans fun _ _ _ => rfl, at_ State.hrtNext .hrtNext fun _ _ _ => rfl,
    at_ State.queues .queues fun _ _ _ => rfl, at_ State.apertures .apertures fun _ _ _ => rfl, at_ State.link .link fun _ _ _ => rfl,
    at_ State.sec .sec fun _ _ _ => rfl, at_ State.book .book fun _ _ _ => rfl, at_ State.boot .boot fun _ _ _ => rfl,
    at_ State.pow .pow fun _ _ _ => rfl, at_ State.out .out fun _ _ _ => rfl⟩

namespace Steps

variable {F G : List Field} {s t u : State}

theorem refl : Steps F s s := by
  refine ⟨?_, le_rfl, id⟩
  simp only [State.merge, Bool.cond_self]

/-- What may change every field. -/
theorem of_pending (hp : t.pending = s.pending) (hn : s.now ≤ t.now) (hm : Memory.wf s.mem = true → Memory.wf t.mem = true) :
    Steps Field.all s t := by
  refine ⟨?_, hn, hm⟩
  cases t
  exact congrArg (State.mk · _ _ _ _ _ _ _ _ _ _ _ _ _ _ _ _ _ _ _ _ _ _ _ _ _) hp

theorem trans (h : Steps F s t) (g : Steps F t u) : Steps F s u :=
  ⟨merge_trans h.frame g.frame, h.now_le.trans g.now_le, g.mem_wf ∘ h.mem_wf⟩

theorem mono (h : Steps G s t) (le : Field.within G F = true := by rfl) : Steps F s t := ⟨merge_mono h.frame le, h.now_le, h.mem_wf⟩

/-- An operation that changes some of the fields, after others that change `F`. -/
theorem andThen (h : Steps F s t) (g : Steps G t u) (le : Field.within G F = true := by rfl) : Steps F s u := h.trans (g.mono le)

theorem ite {c : Prop} [Decidable c] (h : Steps F s t) (g : Steps F s u) : Steps F s (if c then t else u) := by
  split
  · exact h
  · exact g

theorem iteFst {α : Type} {c : Prop} [Decidable c] {x y : State × α} (h : Steps F s x.1) (g : Steps F s y.1) :
    Steps F s (if c then x else y).1 := by
  split
  · exact h
  · exact g

theorem foldl {α : Type} {l : List α} {f : State → α → State} (h : Steps F s t) (hf : ∀ x a, Steps F x (f x a)) : Steps F s (l.foldl f t) := by
  induction l generalizing t with
  | nil => exact h
  | cons a r ih => exact ih (h.trans (hf t a))

theorem iteBy {β : Type} (π : β → State) {c : Prop} [Decidable c] {x y : β} (h : Steps F s (π x)) (g : Steps F s (π y)) :
    Steps F s (π (if c then x else y)) := by
  split
  · exact h
  · exact g

/-- A state beside something else. -/
theorem pair {α : Type} {a : α} (h : Steps F s t) : Steps F s (t, a).1 := h

/-- A fold that gathers something beside the state. -/
theorem foldlFst {α β : Type} {l : List α} {f : State × β → α → State × β} {x : State × β} (h : Steps F s x.1)
    (hf : ∀ x a, Steps F x.1 (f x a).1) : Steps F s (l.foldl f x).1 := by
  induction l generalizing x with
  | nil => exact h
  | cons a r ih => exact ih (h.trans (hf x a))

/-- A fold over values of which the state is a part. -/
theorem foldlBy {α β : Type} (π : β → State) {l : List α} {f : β → α → β} {x : β} (h : Steps F s (π x))
    (hf : ∀ x a, Steps F (π x) (π (f x a))) : Steps F s (π (l.foldl f x)) := by
  induction l generalizing x with
  | nil => exact h
  | cons a r ih => exact ih (h.trans (hf x a))

theorem uptoBy {β : Type} (π : β → State) {n : Nat} {f : Nat → β → β} {x : β} (h : Steps F s (π x))
    (hf : ∀ i x, Steps F (π x) (π (f i x))) : Steps F s (π (upto n f x)) :=
  foldlBy π h fun x i => hf i x

theorem upto {n : Nat} {f : Nat → State → State} (h : Steps F s t) (hf : ∀ i x, Steps F x (f i x)) : Steps F s (upto n f t) :=
  foldl h fun x i => hf i x

/-- An operation's answer taken apart. -/
theorem of_eq {α : Type} {x : State × α} {b : α} (h : Steps F s x.1) (e : x = (t, b)) : Steps F s t := by rw [e] at h; exact h

theorem pending (h : Steps F s t) : t.pending = s.pending := by
  have e := congrArg State.pending h.frame
  exact e

end Steps

/-- A command's answer: a next state that it reaches by changing the fields `F` only, or a refusal. -/
def Leads (F : List Field) (s : State) (o : Host.Outcome State Fault Refusal) : Prop := ∀ t, o = .next t → Steps F s t

namespace Leads

variable {F G : List Field} {s t : State} {o : Host.Outcome State Fault Refusal}

theorem next (h : Steps F s t) : Leads F s (.next t) := by
  rintro _ ⟨⟩
  exact h

theorem guardWf {b : Bool} (h : Steps F s t) : Leads F s (guardWf b t) := by
  intro u e
  unfold Machine.guardWf at e
  split at e
  · exact next h u e
  · cases e

theorem mono (h : Leads G s o) (le : Field.within G F = true := by rfl) : Leads F s o := fun t e => (h t e).mono le

theorem ite {c : Prop} [Decidable c] {p : Host.Outcome State Fault Refusal} (h : Leads F s o) (g : Leads F s p) :
    Leads F s (if c then o else p) := by
  split
  · exact h
  · exact g

end Leads

/-! ### The model's operations

One lemma each, in the model's order. The lemmas are checked one after another: checked at once, their unfoldings take more threads than the
check allows. -/

set_option Elab.async false

theorem with_cells {s : State} {c : List Host.Cell} (wf : cellsWf s.mem.cells = true → cellsWf c = true) :
    Steps [.mem] s { s with mem := { s.mem with cells := c } } := ⟨rfl, le_rfl, wf⟩

theorem with_memory {s : State} {m : MemSt} (wf : cellsWf s.mem.cells = true → cellsWf m.cells = true) :
    Steps [.mem] s { s with mem := m } := ⟨rfl, le_rfl, wf⟩

theorem with_mem {s : State} {x_mem : MemSt} (cells : x_mem.cells = s.mem.cells := by rfl) :
    Steps [.mem] s { s with mem := x_mem } := ⟨rfl, le_rfl, fun h => by unfold Memory.wf at *; rwa [cells]⟩

theorem steps_odPut {s : State} {key : Nat} {v : OdVal} : Steps [.od] s (odPut s key v) := ⟨rfl, le_rfl, id⟩

theorem steps_odSet {s : State} {key n : Nat} : Steps [.od] s (odSet s key n) := by
  unfold odSet
  exact steps_odPut

theorem steps_odClear {s : State} {key : Nat} : Steps [.od] s (odClear s key) := ⟨rfl, le_rfl, id⟩

theorem steps_odClearIndex {s : State} {index : Nat} : Steps [.od] s (odClearIndex s index) := ⟨rfl, le_rfl, id⟩

theorem steps_bump {s : State} {key n : Nat} {part : Option Nat} : Steps [.ctr] s (bump s key n part) := by
  rw [bump_eq]
  exact ⟨rfl, le_rfl, id⟩

theorem steps_setCon {s : State} {k : Nat} {c : Consist} : Steps [.consists] s (setCon s k c) := ⟨rfl, le_rfl, id⟩

theorem steps_modCon {s : State} {k : Nat} {f : Consist → Consist} : Steps [.consists] s (modCon s k f) := by
  unfold modCon
  exact steps_setCon

theorem steps_setPart {s : State} {p : Nat} {q : Part} : Steps [.parts] s (setPart s p q) := ⟨rfl, le_rfl, id⟩

theorem steps_modPart {s : State} {p : Nat} {f : Part → Part} : Steps [.parts] s (modPart s p f) := by
  unfold modPart
  exact steps_setPart

theorem steps_modStep {s : State} {p : Nat} {f : StepSt → StepSt} : Steps [.parts] s (modStep s p f) := by
  unfold modStep
  exact steps_modPart

theorem steps_setPool {s : State} {d : Nat} {q : Pool} : Steps [.pools] s (setPool s d q) := ⟨rfl, le_rfl, id⟩

theorem with_consists_sems {s : State} {x_consists} {x_sems} :
    Steps [.consists, .sems] s { s with consists := x_consists, sems := x_sems } := ⟨rfl, le_rfl, id⟩

theorem steps_semSet {s : State} {i : Nat} {v : Sem} : Steps [.consists, .sems] s (semSet s i v) := by
  unfold semSet
  exact with_consists_sems

theorem steps_atTime {s : State} {t : Nat} : Steps [.now] s (atTime s t) := ⟨rfl, le_max_left _ _, id⟩

theorem steps_poisonAt {s : State} {a : Nat} {pt : Option Nat} : Steps [.mem, .od, .ctr] s (poisonAt s a pt).1 := by
  unfold poisonAt
  split
  · dsimp only
    split
    · dsimp only
      exact .refl
    · split
      · dsimp only
        exact steps_bump.mono
      · dsimp only
        exact .andThen (with_mem).mono steps_odSet
  · dsimp only
    exact (with_mem).mono

theorem steps_clearMarks {s : State} {a n : Nat} : Steps [.mem, .od] s (clearMarks s a n) := by
  unfold clearMarks
  exact .ite (with_mem).mono (.andThen (with_mem).mono steps_odSet)

theorem with_health {s : State} {x_health} : Steps [.health] s { s with health := x_health } := ⟨rfl, le_rfl, id⟩

theorem steps_channelRead {s : State} {c : Nat} : Steps [.health, .od] s (channelRead s c) := by
  unfold channelRead
  exact .ite (.ite (.andThen (.andThen with_health.mono steps_odSet) steps_odSet) (.andThen with_health.mono steps_odSet)) with_health.mono

theorem steps_noteChannel {s : State} {c : Nat} : Steps [.health, .od] s (noteChannel s c) := by
  unfold noteChannel
  exact .ite .refl steps_channelRead

theorem steps_stripeRead {s : State} {a : Nat} {bad : List Nat} {parity : Bool} {pt : Option Nat} :
    Steps [.mem, .health, .od, .ctr] s (stripeRead s a bad parity pt).1 := by
  unfold stripeRead
  dsimp only
  split
  · split
    · dsimp only
      exact .andThen (.foldl .refl fun _ _ => steps_noteChannel.mono) steps_bump
    · dsimp only
      exact .foldl (.andThen (.foldl .refl fun _ _ => steps_noteChannel.mono) steps_bump) fun _ _ => steps_poisonAt.mono
  · split
    · dsimp only
      exact .andThen (.foldl .refl fun _ _ => steps_noteChannel.mono) steps_bump
    · dsimp only
      exact .foldl (.andThen (.foldl .refl fun _ _ => steps_noteChannel.mono) steps_bump) fun _ _ => steps_poisonAt.mono

theorem steps_noteRmw {s : State} {a n : Nat} {pt : Option Nat} : Steps [.mem, .health, .od, .ctr] s (noteRmw s a n pt) := by
  unfold noteRmw
  exact .ite steps_bump.mono (.foldl steps_bump.mono fun _ _ => steps_stripeRead)

theorem steps_storeBytes {s : State} {a : Nat} {bs : List Byte} {pt : Option Nat} :
    Steps [.mem, .health, .od, .ctr] s (storeBytes s a bs pt).1 := by
  unfold storeBytes
  dsimp only
  split
  · exact .andThen (.andThen (.mono (with_cells (cellsWrite_wf bs · a))) steps_clearMarks) steps_noteRmw
  · exact .andThen (.foldl (.mono (with_cells (cellSets_wf _ (fun x : Byte × Nat => a + x.2) (fun x => x.1) ·)))
      fun _ _ => steps_clearMarks.mono) steps_noteRmw

theorem steps_poisonPiece {s : State} {a : Nat} {pt : Option Nat} : Steps [.mem, .od, .ctr] s (poisonPiece s a pt).1 := by
  unfold poisonPiece
  split
  · exact steps_poisonAt
  · dsimp only
    exact .refl

theorem steps_poisonPieces {s : State} {a n : Nat} {pt : Option Nat} : Steps [.mem, .health, .od, .ctr] s (poisonPieces s a n pt).1 := by
  unfold poisonPieces
  refine .andThen (.foldlFst .refl fun _ _ => ?_) steps_noteRmw
  split
  · dsimp only
    exact .of_eq steps_poisonPiece.mono ‹_›

theorem steps_storePoison {s : State} {a n : Nat} {pt : Option Nat} : Steps [.mem, .health, .od, .ctr] s (storePoison s a n pt).1 := by
  unfold storePoison
  refine .andThen (.foldlFst .refl fun _ _ => ?_) steps_noteRmw
  split
  · dsimp only
    exact .of_eq steps_poisonPiece.mono ‹_›

theorem steps_storeMixed {s : State} {a : Nat} {bs : List Byte} {bad : Nat → Bool} {pt : Option Nat} :
    Steps [.mem, .health, .od, .ctr] s (storeMixed s a bs bad pt).1 := by
  unfold storeMixed
  split
  · exact steps_storeBytes
  · refine .andThen (.foldlFst .refl fun x q => ?_) steps_noteRmw
    dsimp only
    split
    · split
      · exact .of_eq steps_poisonPiece.mono ‹_›
      · exact steps_poisonPiece.mono
    · split
      · exact .refl
      · exact .andThen (.mono (with_cells (cellsWrite_wf _ · _))) steps_clearMarks

theorem steps_poke {s : State} {a : Nat} {bs : List Byte} : Steps [.mem, .health, .od, .ctr] s (poke s a bs) := by
  unfold poke
  exact steps_storeBytes

theorem steps_eccLines {s : State} {a : Nat} {ls : List Nat} {e : Ecc} {pt : Option Nat} :
    Steps [.mem, .health, .od, .ctr] s (eccLines s a ls e pt).1 := by
  unfold eccLines
  dsimp only
  split
  · dsimp only
    refine .andThen (.foldl (.foldlFst steps_bump.mono fun _ _ => ?_) fun _ _ => (.ite .refl
        (.andThen steps_channelRead.mono steps_poisonAt))) steps_bump
    split
    · exact .refl
    · dsimp only
      exact steps_stripeRead
  · dsimp only
    exact .andThen steps_bump.mono steps_bump

theorem steps_eccRead {s : State} {a n : Nat} {e : Ecc} {pt : Option Nat} : Steps [.mem, .health, .od, .ctr] s (eccRead s a n e pt).1 := by
  unfold eccRead
  exact steps_eccLines

theorem steps_underEcc {α : Type} {rs : List (Nat × Nat)} {e : Ecc} {pt : Option Nat} {f : State → State × α} {s : State} {F : List Field}
    (hf : ∀ x, Steps F x (f x).1) (le : Field.within [.mem, .health, .od, .ctr] F = true := by rfl) : Steps F s (underEcc rs e pt f s).1 := by
  unfold underEcc
  split
  · exact hf s
  · have hm : Field.within [.mem] F = true := Field.within_trans (by rfl) le
    dsimp only
    refine .andThen (.trans (.andThen (.foldlFst .refl fun x t => ?_) with_mem hm) (hf _)) with_mem hm
    split
    · exact .refl
    · exact steps_eccLines.mono le

theorem steps_setDom {s : State} {d v : Nat} : Steps [.od] s (setDom s d v) := by
  unfold setDom
  exact steps_odSet

theorem with_pow {s : State} {x_pow} : Steps [.pow] s { s with pow := x_pow } := ⟨rfl, le_rfl, id⟩

theorem steps_beginWake {s : State} {d : Nat} : Steps [.od, .pow] s (beginWake s d) := by
  unfold beginWake
  exact .andThen with_pow.mono steps_setDom

theorem steps_meetEntry {s : State} {d : Nat} : Steps [.ctr, .pow] s (meetEntry s d) := by
  unfold meetEntry
  exact .andThen steps_bump.mono with_pow

theorem steps_touchDomain {s : State} {d : Nat} : Steps [.od, .ctr, .pow] s (touchDomain s d).1 := by
  unfold touchDomain
  split
  · dsimp only
    exact .refl
  · dsimp only
    exact .andThen steps_beginWake.mono steps_bump
  · split
    · dsimp only
      exact steps_meetEntry.mono
    · dsimp only
      exact .refl
  · dsimp only
    exact .refl
  · dsimp only
    exact .refl

theorem steps_touchAll {s : State} {l : List Nat} : Steps [.od, .ctr, .pow] s (touchAll s l).1 := by
  unfold touchAll
  refine .foldlFst .refl fun _ _ => ?_
  split
  · dsimp only
    exact .of_eq steps_touchDomain ‹_›

theorem steps_touch {s : State} {a n : Nat} : Steps [.od, .ctr, .pow] s (touch s a n).1 := by
  unfold touch
  split
  · dsimp only
    exact .refl
  · exact steps_touchAll

theorem steps_touchDepot {s : State} : Steps [.od, .ctr, .pow] s (touchDepot s).1 := by
  unfold touchDepot
  exact steps_touchDomain

theorem steps_countDenied {s : State} {p : Option Nat} : Steps [.ctr] s (countDenied s p) := by
  unfold countDenied
  exact steps_bump

theorem steps_noteError {s : State} {pt : Option Nat} {st : Nat} : Steps [.parts] s (noteError s pt st) := by
  unfold noteError
  split
  · exact .ite steps_modStep .refl
  · exact .refl

theorem steps_enginePost {s : State} {i st producer : Nat} {pt : Option Nat} :
    Steps [.consists, .sems, .ctr, .parts] s (enginePost s i st producer pt).1 := by
  unfold enginePost
  dsimp only
  split
  · dsimp only
    exact .andThen (.andThen (.andThen steps_semSet.mono steps_bump) steps_bump) steps_noteError
  · dsimp only
    exact steps_bump.mono

theorem steps_queuePost {s : State} {k q i st : Nat} : Steps [.consists, .sems, .ctr] s (queuePost s k q i st).1 := by
  unfold queuePost
  dsimp only
  split
  · dsimp only
    exact steps_bump.mono
  · split
    · dsimp only
      exact steps_bump.mono
    · dsimp only
      exact .andThen steps_semSet.mono steps_bump

theorem steps_arrivePost {s : State} {p i c st producer : Nat} : Steps [.consists, .sems, .ctr, .parts] s (arrivePost s p i c st producer).1 := by
  unfold arrivePost
  dsimp only
  split
  · dsimp only
    exact steps_bump.mono
  · split
    · dsimp only
      exact steps_bump.mono
    · dsimp only
      exact .ite (.andThen (.andThen (.andThen steps_semSet.mono steps_bump) steps_bump) steps_noteError) (.andThen
          (.andThen steps_semSet.mono steps_bump) steps_bump)

theorem with_free {s : State} {x_free} : Steps [.free] s { s with free := x_free } := ⟨rfl, le_rfl, id⟩

theorem steps_freshOctets {s : State} {label n : Nat} : Steps [.free] s (freshOctets s label n).1 := by
  unfold freshOctets
  dsimp only
  exact with_free

theorem steps_sign {s : State} {key ctx msg : List Byte} : Steps [.free] s (sign s key ctx msg).1 := by
  unfold sign
  dsimp only
  exact with_free

theorem steps_bumpFree {s : State} {key : Nat} {part : Option Nat} : Steps [.free, .ctr] s (bumpFree s key part) := by
  unfold bumpFree
  exact .andThen steps_bump.mono with_free

theorem steps_countTally {s : State} {u : Writer} {t : Tally} {p : Option Nat} : Steps [.ctr, .parts] s (countTally s u t p) := by
  unfold countTally
  dsimp only
  split
  · refine .andThen (.andThen (.andThen ?_ steps_bump) steps_bump) steps_bump
    split
    · exact .andThen steps_bump.mono steps_bump
    · exact .andThen steps_bump.mono steps_bump
    · exact steps_bump.mono
  · refine .ite (.andThen (.andThen (.andThen ?_ steps_bump) steps_bump) steps_bump) (.andThen (.andThen (.andThen
      (.andThen ?_ steps_bump) steps_bump) steps_bump) steps_modPart)
    · split
      · exact .andThen steps_bump.mono steps_bump
      · exact .andThen steps_bump.mono steps_bump
      · exact steps_bump.mono
    · split
      · exact .andThen steps_bump.mono steps_bump
      · exact .andThen steps_bump.mono steps_bump
      · exact steps_bump.mono

theorem steps_setDirty {s : State} {k h : Nat} : Steps [.consists] s (setDirty s k h) := by
  unfold setDirty
  exact steps_modCon

theorem steps_histAdd {s : State} {k slot : Nat} {x : Val} : Steps [.mem] s (histAdd s k slot x) := by
  unfold histAdd
  split
  · exact .refl
  · exact with_cells (cellsWrite_wf _ · _)

theorem steps_putCells {s : State} {a : Nat} {bs : List Byte} : Steps [.mem] s (putCells s a bs) := by
  unfold putCells
  split
  · exact with_cells (cellsWrite_wf bs · a)
  · exact with_cells (cellSets_wf _ (fun x : Byte × Nat => a + x.2) (fun x => x.1) ·)

theorem steps_endWrite {s : State} {whole touched : List (Nat × Nat)} {p : Option Nat} :
    Steps [.mem, .health, .od, .ctr] s (endWrite s whole touched p) := by
  unfold endWrite
  exact .foldl (.foldl .refl fun _ _ => steps_clearMarks.mono) fun _ _ => steps_noteRmw

theorem steps_writeBlock {s : State} {r : RNoun} {core : Nat} {idx0 : List Nat} {es : List (Nat × Option Val)} {p : Option Nat} : 
   Steps [.mem, .health, .od, .ctr] s (writeBlock s r core idx0 es p).1 := by
  unfold writeBlock
  extract_lets c b a sa ma realElems clean pois unmade t₀ t₁ mapv st setState mapRun scaleRun word e nonfin s₁ t e' blk stale offs scaleOf blk' word'
  have put {x : State} {a : Nat} {bs : List Byte} : Steps [.mem, .health, .od, .ctr] x (putCells x a bs) := steps_putCells.mono
  have set {x : State} {v : Nat} : Steps [.mem, .health, .od, .ctr] x (setState x v) := put
  have h₁ : Steps [.mem, .health, .od, .ctr] s s₁ := put.trans put
  clear_value setState s₁
  refine .iteFst (steps_storePoison.trans steps_storePoison) (.iteFst .refl (.iteFst steps_storePoison (.iteFst .refl
    (.iteFst (.iteFst (h₁.trans set) h₁) ?_))))
  split
  rename_i blk t _
  have h₂ : Steps [.mem, .health, .od, .ctr] s (putCells s a (leBytes (blockBytes c) blk)) := put
  dsimp only
  generalize putCells s a (leBytes (blockBytes c) blk) = u at h₂ ⊢
  split
  · exact .iteFst (h₂.trans set) (.iteFst (h₂.trans set) h₂)
  · have h₃ := h₂.trans (put (a := sa) (bs := leBytes (scaleBytes c) word'))
    exact .iteFst (h₃.trans set) (.iteFst (h₃.trans set) h₃)

theorem steps_rangesLocked {s : State} {p : Nat} {rs : List (Nat × Nat)} : Steps [.ctr] s (rangesLocked s p rs).1 := by
  unfold rangesLocked
  split
  · dsimp only
    exact .refl
  · split
    · dsimp only
      exact steps_bump
    · dsimp only
      exact .refl

theorem steps_rangesWritable {s : State} {p : Nat} {rs : List (Nat × Nat)} : Steps [.ctr] s (rangesWritable s p rs).1 := by
  unfold rangesWritable
  split
  · dsimp only
    exact steps_countDenied
  · exact steps_rangesLocked

theorem steps_writeAllowed {s : State} {p a n : Nat} : Steps [.ctr] s (writeAllowed s p a n).1 := by
  unfold writeAllowed
  exact steps_rangesWritable

theorem steps_nounWritable {s : State} {p : Nat} {r : RNoun} : Steps [.ctr] s (nounWritable s p r).1 := by
  unfold nounWritable
  split
  · dsimp only
    exact steps_countDenied
  · split
    · dsimp only
      exact .refl
    · exact steps_rangesLocked

theorem steps_touchNouns {s : State} {ns : List RNoun} : Steps [.od, .ctr, .pow] s (touchNouns s ns).1 := by
  unfold touchNouns
  refine .foldlFst .refl fun _ _ => ?_
  split
  · exact .refl
  · refine .foldlFst .refl fun _ _ => ?_
    split
    · dsimp only
      exact .of_eq steps_touch ‹_›

theorem steps_recordsOk {s : State} {p : Nat} {a : Option Nat} {core i recPerCore n mask : Nat} :
    Steps [.od, .ctr, .pow] s (recordsOk s p a core i recPerCore n mask).1 := by
  unfold recordsOk
  split
  · dsimp only
    exact .refl
  · refine .uptoBy Prod.fst .refl fun _ _ => ?_
    dsimp only
    split
    · dsimp only
      exact .refl
    · split
      · dsimp only
        exact steps_touch
      · dsimp only
        exact .andThen steps_touch steps_countDenied
    · dsimp only
      exact steps_countDenied.mono

theorem steps_bankWaits {s : State} {p : Option Nat} : Steps [.free, .ctr] s (bankWaits s p) := by
  unfold bankWaits
  exact steps_bumpFree

theorem steps_markWaits {k : Nat} {s : State} : Steps [.consists] s (markWaits k s) := by
  unfold markWaits
  exact steps_modCon

theorem steps_semReset {s : State} {i : Nat} {v : Sem} : Steps [.consists, .sems] s (semReset s i v) := by
  unfold semReset
  exact .foldl steps_semSet fun _ _ => steps_markWaits.mono

theorem with_depot {s : State} {x_depot} : Steps [.depot] s { s with depot := x_depot } := ⟨rfl, le_rfl, id⟩

theorem steps_depotReadBytes {s : State} {b len : Nat} {e : Ecc} {pt : Option Nat} : Steps [.depot, .ctr] s (depotReadBytes s b len e pt).1 := by
  unfold depotReadBytes
  dsimp only
  exact .andThen (.andThen (.andThen (.andThen steps_bump.mono steps_bump) steps_bump) steps_bump) with_depot

theorem with_free_depot {s : State} {x_free} {x_depot} : Steps [.free, .depot] s { s with free := x_free, depot := x_depot } := ⟨rfl, le_rfl, id⟩

theorem steps_depotWriteBytes {s : State} {b : Nat} {bs : List Byte} {bads : List (Nat × Nat)} {e : Ecc} {pt : Option Nat} :
    Steps [.free, .depot, .od, .ctr] s (depotWriteBytes s b bs bads e pt).1 := by
  unfold depotWriteBytes
  split
  · dsimp only
    exact .refl
  · dsimp only
    exact .andThen (.andThen (.andThen (.andThen (.andThen
        (.andThen steps_bump.mono steps_bump) steps_bump) steps_bump) with_free_depot) steps_odSet) steps_odSet

theorem steps_depotProgrammed {s : State} : Steps [.depot] s (depotProgrammed s) := ⟨rfl, le_rfl, id⟩

theorem steps_depotDiscard {s : State} {q : Nat} : Steps [.depot] s (depotDiscard s q) := by
  unfold depotDiscard
  exact with_depot

theorem steps_depotSwap {s : State} : Steps [.depot] s (depotSwap s) := by
  unfold depotSwap
  exact with_depot

theorem steps_relocate {until' : Nat} {s : State} {b : Nat} : Steps [.free, .depot] s (relocate until' s b) := by
  unfold relocate
  exact .ite .refl with_free_depot

theorem steps_bgEffect {until' : Nat} {s : State} {a2 : DepotBg} : Steps [.free, .depot, .od] s (bgEffect until' s a2) := by
  unfold bgEffect
  split
  · exact with_depot.mono
  · exact with_depot.mono
  · exact steps_odSet.mono
  · exact steps_relocate.mono
  · exact steps_relocate.mono

theorem steps_submit {s : State} {die : Nat} {bs : List Block} : Steps [.pools] s (submit s die bs) := by
  unfold submit
  exact steps_setPool

theorem steps_modVerb {s : State} {k vi : Nat} {f : VEntry → VEntry} : Steps [.consists] s (modVerb s k vi f) := by
  unfold modVerb
  exact steps_modCon

theorem steps_resultBits {s : State} {k i : Nat} {o : StreamOps} {bad : List Nat} :
    Steps [.mem, .health, .od, .ctr] s (resultBits s k i o bad).1 := by
  unfold resultBits
  split
  · dsimp only
    exact .refl
  · refine .foldlFst .refl fun _ _ => ?_
    dsimp only
    split
    · split
      · dsimp only
        exact .refl
      · dsimp only
        exact steps_poke
    · split
      · dsimp only
        exact .refl
      · dsimp only
        exact steps_poke

theorem steps_endPart {s : State} {k vi i : Nat} {st : Status} : Steps [.consists] s (endPart s k vi i st) := by
  unfold endPart
  exact .andThen steps_modVerb steps_markWaits

theorem steps_countBlock {s : State} {b : Block} {st : Status} {bytes : Nat} : Steps [.ctr] s (countBlock s b st bytes) := by
  unfold countBlock
  exact .ite (.andThen (.ite steps_bump (.ite .refl (.andThen steps_bump steps_bump))) steps_bump) (.ite steps_bump (.ite .refl
      (.andThen steps_bump steps_bump)))

theorem steps_blockEnded {s : State} {b : Block} {st : Status} {bytes : Nat} :
    Steps [.mem, .health, .consists, .sems, .od, .ctr, .parts] s (blockEnded s b st bytes) := by
  unfold blockEnded
  refine .ite ?_ ?_
  · split
    · exact .andThen steps_countBlock.mono steps_arrivePost
    · exact steps_countBlock.mono
  · dsimp only
    split
    · refine .andThen ?_ steps_modVerb
      split
      · exact .andThen steps_countBlock.mono steps_arrivePost
      · exact steps_countBlock.mono
    · refine .ite (.andThen ?_ steps_modVerb) (.andThen (.andThen (.andThen ?_ steps_modVerb) steps_resultBits) steps_endPart)
      · split
        · exact .andThen steps_countBlock.mono steps_arrivePost
        · exact steps_countBlock.mono
      · split
        · exact .andThen steps_countBlock.mono steps_arrivePost
        · exact steps_countBlock.mono

theorem steps_refetch {s : State} {k vi r : Nat} {bs : List Block} : Steps [.consists, .pools] s (refetch s k vi r bs) := by
  unfold refetch
  exact .andThen steps_modVerb.mono steps_submit

theorem with_casts {s : State} {x_casts} : Steps [.casts] s { s with casts := x_casts } := ⟨rfl, le_rfl, id⟩

theorem steps_couple {s : State} {k vi : Nat} {rs : List Nat} : Steps [.casts] s (couple s k vi rs) := by
  unfold couple
  exact .ite .refl (.ite with_casts with_casts)

theorem steps_streamPart {atomic : Bool} {o : StreamOps} {k i : Nat} {e : VEntry} {s : State} :
    Steps [.mem, .health, .consists, .pools, .casts, .od, .ctr] s (streamPart atomic o k i e s).1 := by
  unfold streamPart
  dsimp only
  split
  · split
    · dsimp only
      exact steps_resultBits.mono
    · dsimp only
      exact .andThen (.foldl (.andThen steps_modVerb.mono steps_couple) fun _ _ => steps_refetch.mono) steps_submit
  · split
    · dsimp only
      exact .andThen steps_bump.mono steps_resultBits
    · dsimp only
      exact .andThen (.foldl (.andThen (.andThen steps_bump.mono steps_modVerb) steps_couple) fun _ _ => steps_refetch.mono) steps_submit

theorem steps_encodeElems {s : State} {core : Nat} {r : RNoun} {es : List (List Nat × Option Val)} {p : Option Nat} :
    Steps [.mem, .health, .od, .ctr] s (encodeElems s core r es p).s := by
  unfold encodeElems
  dsimp only
  split
  · refine .foldlBy Encoded.s .refl fun _ _ => ?_
    dsimp only
    exact steps_writeBlock
  · refine .foldlBy Encoded.s .refl fun _ _ => ?_
    split
    · dsimp only
      exact steps_putCells.mono
    · exact .refl

theorem steps_writeElems {s : State} {u : Writer} {k core : Nat} {r : RNoun} {es : List (List Nat × Option Val)} :
    Steps [.mem, .health, .consists, .od, .ctr, .parts] s (writeElems s u k core r es).1 := by
  unfold writeElems
  dsimp only
  refine .ite (.andThen (.andThen (.andThen (.andThen (.andThen (.ite (.andThen (.foldlFst .refl fun _ _ => ?_) steps_encodeElems) (.foldl
      (.andThen (.foldlFst
      .refl fun _ _ => ?_) steps_encodeElems) fun _ _ => steps_histAdd.mono)) steps_endWrite) steps_endWrite) steps_endWrite) steps_countTally) steps_setDirty) (.andThen (.andThen (.andThen (.andThen (.ite (.andThen (.foldlFst .refl fun _ _ => ?_) steps_encodeElems) (.foldl (.andThen (.foldlFst .refl fun _ _ => ?_) steps_encodeElems) fun _ _ => steps_histAdd.mono)) steps_endWrite) steps_endWrite) steps_endWrite) steps_countTally)
  · dsimp only
    exact steps_poisonPieces.mono
  · dsimp only
    exact steps_poisonPieces.mono
  · dsimp only
    exact steps_poisonPieces.mono
  · dsimp only
    exact steps_poisonPieces.mono

theorem steps_receiverReach {s : State} {p : Nat} {b : Block} {r : Nat} : Steps [.od, .ctr, .pow] s (receiverReach s p b r).1 := by
  unfold receiverReach
  split
  · exact steps_touchAll
  · dsimp only
    exact steps_countDenied.mono

theorem steps_touchRanges {s : State} {l : List (Nat × Nat)} : Steps [.od, .ctr, .pow] s (touchRanges s l).1 := by
  unfold touchRanges
  refine .foldlFst .refl fun _ _ => ?_
  split
  · dsimp only
    exact .of_eq steps_touch ‹_›

theorem steps_readBytes {s : State} {a n : Nat} {e : Ecc} {p : Option Nat} : Steps [.mem, .health, .od, .ctr] s (readBytes s a n e p).1 := by
  unfold readBytes
  split
  · dsimp only
    exact .of_eq steps_eccRead ‹_›

theorem steps_fetchBlock {s : State} {p : Nat} {b : Block} {e : Ecc} : Steps [.mem, .health, .depot, .od, .ctr] s (fetchBlock s p b e).1 := by
  unfold fetchBlock
  split
  · exact .andThen (.andThen (.andThen (.andThen steps_bump.mono steps_bump) steps_bump) steps_bump) with_depot
  · exact steps_readBytes.mono
  · dsimp only
    exact .refl
  · dsimp only
    split
    · exact steps_readBytes.mono
    · dsimp only
      exact steps_eccLines.mono

theorem steps_readBlock {s : State} {p : Nat} {b : Block} {e : Ecc} : Steps [.mem, .health, .depot, .od, .ctr, .pow] s (readBlock s p b e).1 := by
  unfold readBlock
  dsimp only
  split
  · dsimp only
    exact steps_countDenied.mono
  · split
    · split
      · dsimp only
        exact .refl
      · split
        · split
          · dsimp only
            exact .refl
          · split
            · dsimp only
              exact .refl
            · split
              · split
                · split
                  · dsimp only
                    exact steps_touchRanges.mono
                  · exact .andThen steps_touchRanges.mono steps_fetchBlock
                · split
                  · dsimp only
                    exact .andThen steps_touchRanges.mono steps_touchDepot
                  · exact .andThen (.andThen steps_touchRanges.mono steps_touchDepot) steps_fetchBlock
              · split
                · split
                  · dsimp only
                    exact steps_touchRanges.mono
                  · exact .andThen steps_touchRanges.mono steps_fetchBlock
                · split
                  · dsimp only
                    exact .andThen steps_touchRanges.mono steps_touchDepot
                  · exact .andThen (.andThen steps_touchRanges.mono steps_touchDepot) steps_fetchBlock
        · split
          · dsimp only
            exact .refl
          · split
            · dsimp only
              exact .refl
            · split
              · split
                · split
                  · dsimp only
                    exact steps_touchRanges.mono
                  · exact .andThen steps_touchRanges.mono steps_fetchBlock
                · split
                  · dsimp only
                    exact .andThen steps_touchRanges.mono steps_touchDepot
                  · exact .andThen (.andThen steps_touchRanges.mono steps_touchDepot) steps_fetchBlock
              · split
                · split
                  · dsimp only
                    exact steps_touchRanges.mono
                  · exact .andThen steps_touchRanges.mono steps_fetchBlock
                · split
                  · dsimp only
                    exact .andThen steps_touchRanges.mono steps_touchDepot
                  · exact .andThen (.andThen steps_touchRanges.mono steps_touchDepot) steps_fetchBlock
    · split
      · split
        · split
          · dsimp only
            exact steps_receiverReach.mono
          · split
            · split
              · dsimp only
                exact steps_receiverReach.mono
              · split
                · dsimp only
                  exact steps_receiverReach.mono
                · split
                  · split
                    · split
                      · dsimp only
                        exact .andThen steps_receiverReach.mono steps_touchRanges
                      · exact .andThen (.andThen steps_receiverReach.mono steps_touchRanges) steps_fetchBlock
                    · split
                      · dsimp only
                        exact .andThen (.andThen steps_receiverReach.mono steps_touchRanges) steps_touchDepot
                      · exact .andThen (.andThen (.andThen steps_receiverReach.mono steps_touchRanges) steps_touchDepot) steps_fetchBlock
                  · split
                    · split
                      · dsimp only
                        exact .andThen steps_receiverReach.mono steps_touchRanges
                      · exact .andThen (.andThen steps_receiverReach.mono steps_touchRanges) steps_fetchBlock
                    · split
                      · dsimp only
                        exact .andThen (.andThen steps_receiverReach.mono steps_touchRanges) steps_touchDepot
                      · exact .andThen (.andThen (.andThen steps_receiverReach.mono steps_touchRanges) steps_touchDepot) steps_fetchBlock
            · split
              · dsimp only
                exact steps_receiverReach.mono
              · split
                · dsimp only
                  exact steps_receiverReach.mono
                · split
                  · split
                    · split
                      · dsimp only
                        exact .andThen steps_receiverReach.mono steps_touchRanges
                      · exact .andThen (.andThen steps_receiverReach.mono steps_touchRanges) steps_fetchBlock
                    · split
                      · dsimp only
                        exact .andThen (.andThen steps_receiverReach.mono steps_touchRanges) steps_touchDepot
                      · exact .andThen (.andThen (.andThen steps_receiverReach.mono steps_touchRanges) steps_touchDepot) steps_fetchBlock
                  · split
                    · split
                      · dsimp only
                        exact .andThen steps_receiverReach.mono steps_touchRanges
                      · exact .andThen (.andThen steps_receiverReach.mono steps_touchRanges) steps_fetchBlock
                    · split
                      · dsimp only
                        exact .andThen (.andThen steps_receiverReach.mono steps_touchRanges) steps_touchDepot
                      · exact .andThen (.andThen (.andThen steps_receiverReach.mono steps_touchRanges) steps_touchDepot) steps_fetchBlock
        · split
          · dsimp only
            exact steps_receiverReach.mono
          · split
            · split
              · dsimp only
                exact steps_receiverReach.mono
              · split
                · dsimp only
                  exact steps_receiverReach.mono
                · split
                  · split
                    · split
                      · dsimp only
                        exact .andThen steps_receiverReach.mono steps_touchRanges
                      · exact .andThen (.andThen steps_receiverReach.mono steps_touchRanges) steps_fetchBlock
                    · split
                      · dsimp only
                        exact .andThen (.andThen steps_receiverReach.mono steps_touchRanges) steps_touchDepot
                      · exact .andThen (.andThen (.andThen steps_receiverReach.mono steps_touchRanges) steps_touchDepot) steps_fetchBlock
                  · split
                    · split
                      · dsimp only
                        exact .andThen steps_receiverReach.mono steps_touchRanges
                      · exact .andThen (.andThen steps_receiverReach.mono steps_touchRanges) steps_fetchBlock
                    · split
                      · dsimp only
                        exact .andThen (.andThen steps_receiverReach.mono steps_touchRanges) steps_touchDepot
                      · exact .andThen (.andThen (.andThen steps_receiverReach.mono steps_touchRanges) steps_touchDepot) steps_fetchBlock
            · split
              · dsimp only
                exact steps_receiverReach.mono
              · split
                · dsimp only
                  exact steps_receiverReach.mono
                · split
                  · split
                    · split
                      · dsimp only
                        exact .andThen steps_receiverReach.mono steps_touchRanges
                      · exact .andThen (.andThen steps_receiverReach.mono steps_touchRanges) steps_fetchBlock
                    · split
                      · dsimp only
                        exact .andThen (.andThen steps_receiverReach.mono steps_touchRanges) steps_touchDepot
                      · exact .andThen (.andThen (.andThen steps_receiverReach.mono steps_touchRanges) steps_touchDepot) steps_fetchBlock
                  · split
                    · split
                      · dsimp only
                        exact .andThen steps_receiverReach.mono steps_touchRanges
                      · exact .andThen (.andThen steps_receiverReach.mono steps_touchRanges) steps_fetchBlock
                    · split
                      · dsimp only
                        exact .andThen (.andThen steps_receiverReach.mono steps_touchRanges) steps_touchDepot
                      · exact .andThen (.andThen (.andThen steps_receiverReach.mono steps_touchRanges) steps_touchDepot) steps_fetchBlock
      · split
        · dsimp only
          exact steps_rangesWritable.mono
        · split
          · split
            · dsimp only
              exact steps_rangesWritable.mono
            · split
              · dsimp only
                exact steps_rangesWritable.mono
              · split
                · split
                  · split
                    · dsimp only
                      exact .andThen steps_rangesWritable.mono steps_touchRanges
                    · exact .andThen (.andThen steps_rangesWritable.mono steps_touchRanges) steps_fetchBlock
                  · split
                    · dsimp only
                      exact .andThen (.andThen steps_rangesWritable.mono steps_touchRanges) steps_touchDepot
                    · exact .andThen (.andThen (.andThen steps_rangesWritable.mono steps_touchRanges) steps_touchDepot) steps_fetchBlock
                · split
                  · split
                    · dsimp only
                      exact .andThen steps_rangesWritable.mono steps_touchRanges
                    · exact .andThen (.andThen steps_rangesWritable.mono steps_touchRanges) steps_fetchBlock
                  · split
                    · dsimp only
                      exact .andThen (.andThen steps_rangesWritable.mono steps_touchRanges) steps_touchDepot
                    · exact .andThen (.andThen (.andThen steps_rangesWritable.mono steps_touchRanges) steps_touchDepot) steps_fetchBlock
          · split
            · dsimp only
              exact steps_rangesWritable.mono
            · split
              · dsimp only
                exact steps_rangesWritable.mono
              · split
                · split
                  · split
                    · dsimp only
                      exact .andThen steps_rangesWritable.mono steps_touchRanges
                    · exact .andThen (.andThen steps_rangesWritable.mono steps_touchRanges) steps_fetchBlock
                  · split
                    · dsimp only
                      exact .andThen (.andThen steps_rangesWritable.mono steps_touchRanges) steps_touchDepot
                    · exact .andThen (.andThen (.andThen steps_rangesWritable.mono steps_touchRanges) steps_touchDepot) steps_fetchBlock
                · split
                  · split
                    · dsimp only
                      exact .andThen steps_rangesWritable.mono steps_touchRanges
                    · exact .andThen (.andThen steps_rangesWritable.mono steps_touchRanges) steps_fetchBlock
                  · split
                    · dsimp only
                      exact .andThen (.andThen steps_rangesWritable.mono steps_touchRanges) steps_touchDepot
                    · exact .andThen (.andThen (.andThen steps_rangesWritable.mono steps_touchRanges) steps_touchDepot) steps_fetchBlock

theorem steps_blockWait {s : State} {die id channel : Nat} : Steps [.pools, .depot, .ctr] s (blockWait s die id channel) := by
  unfold blockWait
  exact .andThen (.andThen steps_setPool.mono with_depot) steps_bump

theorem steps_markUnwritten {s : State} {p : Option Nat} {b : Block} {r : Nat} : Steps [.mem, .od, .ctr] s (markUnwritten s p b r) := by
  unfold markUnwritten
  exact .foldl .refl fun _ _ => (.foldl .refl fun _ _ => steps_poisonAt)

theorem steps_dropReceiver {s : State} {b : Block} {r : Nat} : Steps [.casts] s (dropReceiver s b r) := ⟨rfl, le_rfl, id⟩

theorem steps_chooseReceivers {s : State} {b : Block} : Steps [.mem, .casts, .od, .ctr, .pow] s (chooseReceivers s b).1 := by
  unfold chooseReceivers
  dsimp only
  refine .foldl (.foldl .refl fun _ _ => ?_) fun _ _ => steps_markUnwritten.mono
  split
  · exact .of_eq steps_receiverReach.mono ‹_›
  · exact .andThen (.of_eq steps_receiverReach.mono ‹_›) steps_dropReceiver

theorem steps_enterSlot {s : State} {die : Nat} {b : Block} {x : BlockRead} {st : Status} {todo : List Nat} {e : Ecc} :
    Steps [.pools, .depot, .ctr] s (enterSlot s die b x st todo e) := by
  unfold enterSlot
  dsimp only
  split
  · exact .andThen steps_setPool.mono steps_blockWait
  · exact steps_setPool.mono

theorem steps_copyBytes {s : State} {a : Nat} {bs : List Byte} {bads : List (Nat × Nat)} {p : Option Nat} :
    Steps [.mem, .health, .od, .ctr] s (copyBytes s a bs bads p).1 := by
  unfold copyBytes
  exact steps_storeMixed

theorem steps_addLine {s : State} {ty : Nat} {es : List (Nat × Option (Val × Nat))} {p : Option Nat} :
    Steps [.mem, .health, .od, .ctr] s (addLine s ty es p).1 := by
  unfold addLine
  dsimp only
  split
  · split
    · dsimp only
      exact .of_eq (.andThen steps_bump.mono steps_storePoison) ‹_›
    · exact .andThen steps_bump.mono steps_storePoison
  · dsimp only
    exact .andThen (.andThen (.andThen steps_bump.mono steps_storeBytes) steps_bump) steps_bump

theorem steps_addAll {s : State} {ty : Nat} {es : List (Nat × Option (Val × Nat))} {e : Ecc} {p : Option Nat} :
    Steps [.mem, .health, .od, .ctr] s (addAll s ty es e p).1 := by
  unfold addAll
  refine steps_underEcc (fun _ => .foldlFst .refl fun _ _ => ?_)
  split
  · dsimp only
    exact .of_eq steps_addLine ‹_›

theorem steps_addBytes {s : State} {ty a : Nat} {bs : List Byte} {bads : List (Nat × Nat)} {e : Ecc} {p : Option Nat} :
    Steps [.mem, .health, .od, .ctr] s (addBytes s ty a bs bads e p).1 := by
  unfold addBytes
  dsimp only
  exact steps_addAll

theorem steps_writeRun {s : State} {f : InFlight} {core : Nat} {src dst : RNoun} {g : List (List Nat)} {add : Bool} :
    Steps [.mem, .health, .consists, .od, .ctr, .parts] s (writeRun s f core src dst g add).1 := by
  unfold writeRun
  dsimp only
  split
  · exact steps_copyBytes.mono
  · split
    · exact steps_addAll.mono
    · exact steps_writeElems

theorem steps_dropFlight {s : State} {die id : Nat} : Steps [.pools] s (dropFlight s die id) := by
  unfold dropFlight
  exact steps_setPool

theorem steps_windowOpened {s : State} {die : Nat} {b : Block} {before : Bool} : Steps [.free, .ctr] s (windowOpened s die b before) := by
  unfold windowOpened
  exact .ite steps_bumpFree .refl

theorem steps_uncouple {s : State} {c : CastStream} {r : Nat} :
    Steps [.mem, .health, .consists, .sems, .pools, .casts, .od, .ctr, .parts] s (uncouple s c r) := by
  unfold uncouple
  exact .foldl (.andThen (.andThen (.andThen steps_bump.mono with_casts) steps_setPool) steps_refetch) fun _ _ => steps_blockEnded.mono

theorem steps_castSample {s : State} : Steps [.free, .mem, .health, .consists, .sems, .pools, .casts, .od, .ctr, .parts] s (castSample s) := by
  unfold castSample
  exact .foldl .refl fun _ _ => (.ite (.ite (.andThen with_casts.mono steps_bumpFree) with_casts.mono) (.foldl (.ite
      (.andThen with_casts.mono steps_bumpFree) with_casts.mono) fun _ _ => steps_uncouple.mono))

theorem steps_emit {s : State} {o : Out} : Steps [.out] s (emit s o) := ⟨rfl, le_rfl, id⟩

theorem with_book {s : State} {x_book} : Steps [.book] s { s with book := x_book } := ⟨rfl, le_rfl, id⟩

theorem steps_appendEntry {s : State} {i : BookInfo} : Steps [.od, .ctr, .book] s (appendEntry s i) := by
  unfold appendEntry
  exact .andThen (.ite (.andThen (.andThen (.andThen (.andThen with_book.mono steps_odPut) steps_odSet) steps_odSet) steps_bump) (.andThen
      (.andThen with_book.mono steps_odPut) steps_odSet)) steps_bump

theorem steps_setQueue {s : State} {q : Nat} {v : HQueue} : Steps [.queues] s (setQueue s q v) := ⟨rfl, le_rfl, id⟩

theorem steps_hostWritten {s : State} {w : Posted} : Steps [.ctr, .out] s (hostWritten s w) := by
  unfold hostWritten
  exact .ite steps_emit.mono (.andThen steps_emit.mono steps_bump)

theorem with_link {s : State} {x_link} : Steps [.link] s { s with link := x_link } := ⟨rfl, le_rfl, id⟩

theorem steps_hostPost {s : State} {w : Posted} : Steps [.ctr, .link, .out] s (hostPost s w) := by
  unfold hostPost
  exact .ite steps_hostWritten.mono with_link.mono

theorem steps_replay {s : State} : Steps [.ctr, .link, .out] s (replay s) := by
  unfold replay
  exact .foldl with_link.mono fun _ _ => steps_hostWritten.mono

theorem steps_putCompletion {s : State} {q : Nat} {c : Completion} : Steps [.ctr, .queues, .link, .out] s (putCompletion s q c) := by
  unfold putCompletion
  exact .ite (.andThen (.andThen (.andThen steps_setQueue.mono steps_hostPost) steps_hostPost) steps_hostPost) (.andThen
      (.andThen steps_setQueue.mono steps_hostPost) steps_hostPost)

theorem steps_flushOne {q : Nat} {s : State} : Steps [.ctr, .queues, .link, .out] s (flushOne q s) := by
  unfold flushOne
  refine .ite .refl ?_
  split
  · exact .andThen steps_setQueue.mono steps_putCompletion
  · exact .andThen steps_setQueue.mono steps_putCompletion
  · exact .refl

theorem steps_retain {s : State} {q : Nat} {l : List Completion} : Steps [.ctr, .queues] s (retain s q l) := by
  unfold retain
  exact .andThen steps_setQueue.mono steps_bump

theorem steps_setQp {s : State} {q : Nat} {v : Qp} : Steps [.qps] s (setQp s q v) := ⟨rfl, le_rfl, id⟩

theorem steps_setPort {s : State} {n : Nat} {v : Port} : Steps [.ports] s (setPort s n v) := ⟨rfl, le_rfl, id⟩

theorem steps_setChan {s : State} {p n peer : Nat} {c : Chan} : Steps [.chans] s (setChan s p n peer c) := ⟨rfl, le_rfl, id⟩

theorem steps_countTx {s : State} {p n len : Nat} {sec : Bool} : Steps [.ctr] s (countTx s p n len sec) := by
  unfold countTx
  exact .andThen (.andThen (.andThen steps_bump steps_bump) steps_bump) steps_bump

theorem steps_enqueue {s : State} {n : Nat} {f : MacFrame} : Steps [.ctr, .ports] s (enqueue s n f) := by
  unfold enqueue
  exact .ite steps_bump.mono (.ite steps_setPort.mono steps_setPort.mono)

theorem steps_sendKey {s : State} {p n i code : Nat} {payload : List Byte} : Steps [.ctr, .ports] s (sendKey s p n i code payload) := by
  unfold sendKey
  exact .ite .refl steps_enqueue

theorem steps_sendOffer {s : State} {p n i attempt : Nat} : Steps [.free, .ctr, .ports, .chans] s (sendOffer s p n i attempt) := by
  unfold sendOffer
  exact .andThen (.andThen (.andThen with_free.mono with_free) steps_setChan) steps_sendKey

theorem steps_countChannels {s : State} {p : Nat} : Steps [.od] s (countChannels s p) := by
  unfold countChannels
  exact steps_odSet

theorem steps_installSas {s : State} {p n i an : Nat} {tx rx : List Byte} : Steps [.od, .ctr, .chans] s (installSas s p n i an tx rx) := by
  unfold installSas
  dsimp only
  split
  · exact .andThen steps_setChan.mono steps_countChannels
  · exact .andThen steps_setChan.mono steps_bump

theorem steps_msgEnded {s : State} {owner : Option (Nat × Nat)} {st : Status} : Steps [.consists] s (msgEnded s owner st) := by
  unfold msgEnded
  split
  · exact .refl
  · exact steps_modCon

theorem steps_endMsgs {s : State} {q : Nat} {st : Status} : Steps [.consists, .qps] s (endMsgs s q st) := by
  unfold endMsgs
  exact .foldl steps_setQp.mono fun _ _ => steps_msgEnded.mono

theorem steps_slowBit {s : State} {p i : Nat} : Steps [.od] s (slowBit s p i) := by
  unfold slowBit
  exact .ite steps_odSet steps_odSet

theorem steps_dropFrames {s : State} {n : Nat} {sel : MacFrame → Bool} : Steps [.ports] s (dropFrames s n sel) := by
  unfold dropFrames
  exact steps_setPort

theorem steps_slowGone {s : State} {q : Nat} : Steps [.od, .qps] s (slowGone s q) := by
  unfold slowGone
  exact .ite (.andThen steps_setQp.mono steps_slowBit) .refl

theorem steps_closeQp {s : State} {q : Nat} {st : Status} : Steps [.consists, .od, .qps, .ports] s (closeQp s q st) := by
  unfold closeQp
  exact .andThen (.andThen (.andThen steps_endMsgs.mono steps_dropFrames) steps_slowGone) steps_setQp

theorem steps_peerAbsent {s : State} {q : Nat} : Steps [.consists, .od, .ctr, .qps, .ports] s (peerAbsent s q) := by
  unfold peerAbsent
  exact .ite .refl (.andThen (.andThen (.andThen (.andThen
      (.andThen steps_endMsgs.mono steps_dropFrames) steps_slowGone) steps_setQp) steps_odSet) steps_bump)

theorem steps_pumpAgain {s : State} {q : Nat} : Steps [.ctr, .qps, .ports] s (pumpAgain s q) := by
  unfold pumpAgain
  exact .ite .refl (.andThen (.andThen steps_setQp.mono steps_setPort) steps_bump)

theorem steps_pump {s : State} {q : Nat} : Steps [.ctr, .qps, .ports] s (pump s q) := by
  unfold pump
  refine .foldlFst steps_pumpAgain fun _ _ => ?_
  split
  · dsimp only
    split
    · dsimp only
      exact .refl
    · split
      · dsimp only
        exact .andThen steps_setQp.mono steps_setPort
      · dsimp only
        exact .refl

theorem steps_resend {s : State} {q psn : Nat} : Steps [.qps] s (resend s q psn) := by
  unfold resend
  exact steps_setQp

theorem steps_sendMsg {s : State} {p i : Nat} {m : MsgSpec} {payload : List Byte} : Steps [.ctr, .qps, .ports] s (sendMsg s p i m payload).1 := by
  unfold sendMsg
  split
  · dsimp only
    exact .refl
  · split
    · dsimp only
      exact .refl
    · dsimp only
      split
      · dsimp only
        exact .refl
      · split
        · dsimp only
          exact .refl
        · dsimp only
          exact .andThen steps_setQp.mono steps_pump

theorem steps_dropTail {s : State} {q : Nat} : Steps [.consists, .ctr, .qps, .ports] s (dropTail s q) := by
  unfold dropTail
  exact .andThen (.foldl (.andThen steps_setPort.mono steps_setQp) fun _ _ => steps_msgEnded.mono) steps_pump

theorem steps_dropUnsent {s : State} {p : Nat} : Steps [.consists, .ctr, .qps, .ports] s (dropUnsent s p) := by
  unfold dropUnsent
  exact .foldl .refl fun _ _ => steps_dropTail

theorem steps_sendAck {s : State} {q : Nat} {refused : Option (Nat × Status)} : Steps [.ctr, .qps, .ports] s (sendAck s q refused) := by
  unfold sendAck
  dsimp only
  split
  · exact .andThen (.andThen steps_enqueue.mono steps_bump) steps_bump
  · exact .andThen (.andThen steps_enqueue.mono steps_setQp) steps_bump

theorem steps_walkBlock {commit : Bool} {op : Option ScaleOp} {p : Option Nat} {r : RNoun} {core b : Nat} {x : Walked} :
    Steps [.mem, .health, .od, .ctr] x.s (walkBlock commit op p r core b x).s := by
  unfold walkBlock
  dsimp only
  split
  · dsimp only
    exact steps_storePoison
  · split
    · dsimp only
      exact .refl
    · split
      · split
        · split
          · dsimp only
            exact .ite steps_bump.mono .refl
          · dsimp only
            exact .andThen (.ite steps_bump.mono .refl) steps_putCells
        · dsimp only
          refine .andThen ?_ steps_putCells
          split
          · dsimp only
            exact .ite steps_bump.mono .refl
          · dsimp only
            exact .andThen (.ite steps_bump.mono .refl) steps_putCells
      · split
        · split
          · dsimp only
            exact .ite steps_bump.mono .refl
          · dsimp only
            exact .andThen (.ite steps_bump.mono .refl) steps_putCells
        · dsimp only
          refine .andThen ?_ steps_putCells
          split
          · dsimp only
            exact .ite steps_bump.mono .refl
          · dsimp only
            exact .andThen (.ite steps_bump.mono .refl) steps_putCells

theorem steps_walkBy {commit : Bool} {k h : Nat} {d : Option RNoun} {s : State} :
    Steps [.mem, .health, .consists, .od, .ctr] s (walkBy commit k h d s).1 := by
  unfold walkBy
  split
  · dsimp only
    exact .refl
  · dsimp only
    split
    · dsimp only
      exact steps_modCon.mono
    · split
      · dsimp only
        exact steps_modCon.mono
      · split
        · dsimp only
          exact .andThen steps_bump.mono steps_modCon
        · dsimp only
          refine .andThen (.andThen (.andThen ?_ steps_endWrite) steps_endWrite) steps_modCon
          split
          · refine .uptoBy Walked.s .refl fun _ _ => ?_
            refine .uptoBy Walked.s .refl fun _ _ => ?_
            exact steps_walkBlock.mono
          · refine .uptoBy Walked.s .refl fun _ _ => ?_
            exact steps_walkBlock.mono

theorem steps_walkNoun {commit : Bool} {k h : Nat} {s : State} : Steps [.mem, .health, .consists, .od, .ctr] s (walkNoun commit k h s) := by
  unfold walkNoun
  split
  · exact .refl
  · exact steps_walkBy

theorem steps_walkAll {commit : Bool} {p : Nat} {s : State} : Steps [.mem, .health, .consists, .od, .ctr] s (walkAll commit p s) := by
  unfold walkAll
  exact .foldl .refl fun _ _ => (.foldl .refl fun _ _ => steps_walkNoun)

theorem steps_scaleAdjust {k vi h : Nat} {r : RNoun} {op : Option ScaleOp} {open' : Bool} {s : State} :
    Steps [.mem, .health, .consists, .od, .ctr] s (scaleAdjust k vi h r op open' s).1 := by
  unfold scaleAdjust
  split
  · dsimp only
    exact .refl
  · dsimp only
    split
    · dsimp only
      exact .refl
    · split
      · split
        · dsimp only
          exact .refl
        · exact .andThen steps_bump.mono steps_walkBy
      · split
        · split
          · dsimp only
            exact .refl
          · dsimp only
            exact .andThen steps_modCon.mono steps_bump
        · split
          · dsimp only
            exact .refl
          · dsimp only
            exact .andThen steps_modCon.mono steps_bump

theorem steps_watchSubmit {s : State} {p loss : Nat} : Steps [.od, .parts] s (watchSubmit s p loss).1 := by
  unfold watchSubmit
  split
  · dsimp only
    exact .refl
  · dsimp only
    exact .andThen steps_modPart.mono steps_odSet

theorem steps_watchAbsorb {s : State} {p : Nat} : Steps [.od] s (watchAbsorb s p) := by
  unfold watchAbsorb
  split
  · exact .refl
  · exact .ite .refl (.andThen (.ite (.andThen steps_odSet steps_odSet) (.andThen steps_odSet steps_odSet)) steps_odSet)

theorem steps_watchNext {s : State} {p : Nat} : Steps [.parts] s (watchNext s p) := by
  unfold watchNext
  exact steps_modPart

theorem steps_layerTableReset {s : State} {a : Nat} : Steps [.mem, .health, .od, .ctr] s (layerTableReset s a) := by
  unfold layerTableReset
  exact steps_poke

theorem steps_layerWrite {s : State} {p l : Nat} {bs : List Byte} : Steps [.mem, .health, .od, .ctr, .parts] s (layerWrite s p l bs).1 := by
  unfold layerWrite
  split
  · split
    · dsimp only
      exact .refl
    · dsimp only
      exact .andThen steps_poke.mono steps_modStep

theorem steps_layerCommit {s : State} {p : Nat} : Steps [.mem, .health, .od, .ctr, .parts] s (layerCommit s p) := by
  unfold layerCommit
  exact .andThen (.foldl .refl fun _ _ => steps_poke.mono) steps_modStep

theorem steps_setShardState {s : State} {a st : Nat} : Steps [.mem, .health, .od, .ctr] s (setShardState s a st) := by
  unfold setShardState
  exact steps_poke

theorem steps_shardsClean {s : State} {p : Nat} : Steps [.mem, .health, .od, .ctr, .parts] s (shardsClean s p) := by
  unfold shardsClean
  exact .andThen (.foldl .refl fun _ _ => steps_setShardState.mono) steps_modStep

theorem steps_shardsApply {s : State} {p : Nat} : Steps [.parts] s (shardsApply s p) := by
  unfold shardsApply
  exact steps_modStep

theorem steps_updateHand {s : State} {p : Nat} {c : UpdCmd} {owner : Nat × Nat} : Steps [.parts] s (updateHand s p c owner) := by
  unfold updateHand
  exact steps_modStep

theorem steps_updateNext {s : State} {p : Nat} : Steps [.parts] s (updateNext s p) := by
  unfold updateNext
  exact steps_modStep

theorem steps_endVerb {s : State} {k vi : Nat} {st : Status} : Steps [.consists] s (endVerb s k vi st) := by
  unfold endVerb
  exact steps_modCon

theorem steps_updateShardCheck {s : State} {p d : Nat} : Steps [.mem, .health, .consists, .od, .ctr, .parts, .pow] s (updateShardCheck s p d) := by
  unfold updateShardCheck
  split
  · exact .refl
  · refine .ite .refl (.ite .refl (.ite (.andThen (.ite (.andThen (.andThen (.ite (.foldl .refl fun _ _ => steps_touch.mono)
      .refl) steps_setShardState) steps_modStep) (.ite (.andThen (.ite (.foldl .refl fun _ _ => steps_touch.mono) .refl) steps_bump) (.ite
      (.andThen (.ite (.foldl .refl fun _ _ => steps_touch.mono) .refl) steps_countDenied) (.ite (.foldl .refl fun _ _ => steps_touch.mono)
      .refl)))) steps_modStep) ?_))
    split
    · exact .andThen (.andThen (.andThen (.ite (.andThen (.andThen (.ite (.foldl .refl fun _ _ => steps_touch.mono)
        .refl) steps_setShardState) steps_modStep) (.ite (.andThen (.ite (.foldl .refl fun _ _ => steps_touch.mono) .refl) steps_bump) (.ite
        (.andThen (.ite (.foldl .refl fun _ _ => steps_touch.mono) .refl) steps_countDenied) (.ite (.foldl .refl fun _ _ => steps_touch.mono)
        .refl)))) steps_modStep) steps_endVerb) steps_updateNext
    · exact .andThen (.andThen (.ite (.andThen (.andThen (.ite (.foldl .refl fun _ _ => steps_touch.mono)
        .refl) steps_setShardState) steps_modStep) (.ite (.andThen (.ite (.foldl .refl fun _ _ => steps_touch.mono) .refl) steps_bump) (.ite
        (.andThen (.ite (.foldl .refl fun _ _ => steps_touch.mono) .refl) steps_countDenied) (.ite (.foldl .refl fun _ _ => steps_touch.mono)
        .refl)))) steps_modStep) steps_updateNext

theorem steps_wcWrite {s : State} {x : Accepted} {first : Nat} {ws : List Nat} : Steps [.mem] s (wcWrite s x first ws).1 := by
  unfold wcWrite
  dsimp only
  split
  · dsimp only
    exact .andThen steps_putCells steps_putCells
  · dsimp only
    exact steps_putCells

theorem steps_applyGroup {before : State} {p : Nat} {x : Accepted} {q : YScal} {z : Nat} {y : Applied} :
    Steps [.mem, .ctr] y.s (applyGroup before p x q z y).s := by
  unfold applyGroup
  dsimp only
  split
  · dsimp only
    exact steps_bump.mono
  · split
    · split
      · dsimp only
        exact .foldl .refl fun _ _ => (.ite .refl (.foldl (.andThen steps_bump.mono steps_bump) fun _ _ => steps_putCells.mono))
      · dsimp only
        exact .andThen (.foldl .refl fun _ _ => (.ite .refl (.foldl
            (.andThen steps_bump.mono steps_bump) fun _ _ => steps_putCells.mono))) steps_wcWrite
    · split
      · dsimp only
        exact .foldl .refl fun _ _ => (.ite .refl (.foldl (.andThen steps_bump.mono steps_bump) fun _ _ => steps_putCells.mono))
      · dsimp only
        exact .andThen (.foldl .refl fun _ _ => (.ite .refl (.foldl
            (.andThen steps_bump.mono steps_bump) fun _ _ => steps_putCells.mono))) steps_wcWrite

theorem steps_applyRange {s : State} {p : Nat} {x : Accepted} {last : Nat} {e : Ecc} :
    Steps [.mem, .health, .od, .ctr] s (applyRange s p x last e).1 := by
  unfold applyRange
  dsimp only
  refine .foldl (.foldl (.foldlBy Applied.s ?_ fun _ _ => ?_) fun _ _ => steps_clearMarks.mono) fun _ _ => steps_poisonPiece.mono
  · dsimp only
    exact .andThen steps_eccLines steps_eccLines
  · exact steps_applyGroup.mono

theorem steps_shardDone {s : State} {p : Nat} {x : Accepted} {st : Nat} : Steps [.consists, .sems, .od, .ctr, .parts] s (shardDone s p x st) := by
  unfold shardDone
  exact .ite (.andThen steps_modStep.mono steps_enginePost) (.ite (.andThen (.andThen steps_modStep.mono steps_enginePost) steps_odSet)
      (.andThen steps_modStep.mono steps_enginePost))

theorem steps_slotRecord {s : State} {k status busy wait : Nat} :
    Steps [.mem, .health, .consists, .od, .ctr] s (slotRecord s k status busy wait) := by
  unfold slotRecord
  dsimp only
  split
  · exact .refl
  · exact .andThen steps_poke.mono steps_setCon

theorem with_pools {s : State} {x_pools} : Steps [.pools] s { s with pools := x_pools } := ⟨rfl, le_rfl, id⟩

theorem steps_dropPending {s : State} {k : Nat} : Steps [.pools, .casts] s (dropPending s k) := by
  unfold dropPending
  exact .andThen with_casts.mono with_pools

theorem steps_forsake {s : State} {k : Nat} : Steps [.pools, .casts] s (forsake s k) := by
  unfold forsake
  exact .andThen steps_dropPending with_pools

theorem steps_countStall {s : State} {k : Nat} : Steps [.free, .ctr] s (countStall s k) := by
  unfold countStall
  exact .ite steps_bumpFree .refl

theorem steps_slotCut {s : State} {k status : Nat} : Steps [.free, .mem, .health, .consists, .od, .ctr] s (slotCut s k status) := by
  unfold slotCut
  exact .ite .refl (.andThen (.andThen steps_slotRecord.mono steps_bump) with_free)

theorem steps_stopConsist {s : State} {k status : Nat} : Steps [.free, .mem, .health, .consists, .od, .ctr] s (stopConsist s k status) := by
  unfold stopConsist
  exact .andThen (.andThen steps_countStall.mono steps_slotCut) steps_modCon

theorem steps_sendRecordAt {s : State} {p i code epoch : Nat} {v : VoteRec} : Steps [.ctr, .qps, .ports] s (sendRecordAt s p i code epoch v) := by
  unfold sendRecordAt
  exact steps_sendMsg

theorem steps_sendRecord {s : State} {p i code : Nat} {v : VoteRec} : Steps [.ctr, .qps, .ports] s (sendRecord s p i code v) := by
  unfold sendRecord
  exact steps_sendRecordAt

theorem steps_openStep {s : State} {p : Nat} : Steps [.parts] s (openStep s p) := by
  unfold openStep
  exact .ite .refl steps_modStep

theorem steps_markConsist {s : State} {k : Nat} : Steps [.consists] s (markConsist s k) := by
  unfold markConsist
  exact steps_modCon

theorem steps_markSems {s : State} {p : Nat} : Steps [.parts] s (markSems s p) := by
  unfold markSems
  exact steps_modPart

theorem steps_stepMark {s : State} {p : Nat} : Steps [.consists, .parts] s (stepMark s p) := by
  unfold stepMark
  exact .andThen (.foldl .refl fun _ _ => steps_markConsist.mono) steps_markSems

theorem steps_decisionArrived {s : State} {p : Nat} {v : VoteRec} {producer : Nat} :
    Steps [.consists, .sems, .od, .ctr, .parts] s (decisionArrived s p v producer) := by
  unfold decisionArrived
  dsimp only
  split
  · exact .andThen (.ite steps_odPut.mono (.andThen steps_odPut.mono steps_modStep)) steps_enginePost
  · exact .ite steps_odPut.mono (.andThen steps_odPut.mono steps_modStep)

theorem steps_decide' {s : State} {p : Nat} {j : JobMap} {timeout : Bool} :
    Steps [.consists, .sems, .od, .ctr, .parts, .qps, .ports] s (decide' s p j timeout) := by
  unfold decide'
  exact .andThen (.andThen (.foldl .refl fun _ _ => steps_sendRecord.mono) steps_modStep) steps_decisionArrived

theorem steps_decideAttempt {s : State} {p : Nat} {j : JobMap} {a : Nat × Nat × Tab (Option VoteRec)} :
    Steps [.od, .ctr, .parts, .qps, .ports] s (decideAttempt s p j a) := by
  unfold decideAttempt
  exact .andThen (.andThen (.foldl .refl fun _ _ => steps_sendRecordAt.mono) steps_modStep) steps_odPut

theorem steps_leaderCheck {s : State} {p : Nat} : Steps [.consists, .sems, .od, .ctr, .parts, .qps, .ports] s (leaderCheck s p) := by
  unfold leaderCheck
  split
  · exact .refl
  · exact .ite .refl (.ite .refl steps_decide')

theorem steps_castVote {s : State} {p st : Nat} : Steps [.consists, .sems, .od, .ctr, .parts, .qps, .ports] s (castVote s p st) := by
  unfold castVote
  split
  · exact .refl
  · refine .ite .refl (.ite (.andThen (.andThen (.andThen (.ite (.andThen (.andThen (.andThen (.andThen (.andThen (.andThen (.andThen (.foldl
      .refl fun _ _ => ?_) steps_odSet) steps_odSet) steps_odSet) steps_odSet) steps_modPart) steps_odSet) steps_odSet) (.andThen (.andThen
      (.andThen (.andThen (.andThen (.andThen (.andThen (.andThen (.foldl
      .refl fun _ _ => ?_) steps_odSet) steps_odSet) steps_odSet) steps_odSet) steps_modPart) steps_odSet) steps_odSet) steps_bump)) steps_modStep) steps_modStep) steps_leaderCheck) (.andThen (.andThen (.ite (.andThen (.andThen (.andThen (.andThen (.andThen (.andThen (.andThen (.foldl .refl fun _ _ => ?_) steps_odSet) steps_odSet) steps_odSet) steps_odSet) steps_modPart) steps_odSet) steps_odSet) (.andThen (.andThen (.andThen (.andThen (.andThen (.andThen (.andThen (.andThen (.foldl .refl fun _ _ => ?_) steps_odSet) steps_odSet) steps_odSet) steps_odSet) steps_modPart) steps_odSet) steps_odSet) steps_bump)) steps_modStep) steps_sendRecord))
    · split
      · exact .ite steps_odPut.mono .refl
      · exact .refl
    · split
      · exact .ite steps_odPut.mono .refl
      · exact .refl
    · split
      · exact .ite steps_odPut.mono .refl
      · exact .refl
    · split
      · exact .ite steps_odPut.mono .refl
      · exact .refl

theorem steps_errorToken {s : State} {p : Option Nat} {st : Nat} :
    Steps [.consists, .sems, .od, .ctr, .parts, .qps, .ports] s (errorToken s p st) := by
  unfold errorToken
  split
  · exact .ite steps_castVote .refl
  · exact .refl

theorem steps_castOwed {s : State} : Steps [.consists, .sems, .od, .ctr, .parts, .qps, .ports] s (castOwed s) := by
  unfold castOwed
  refine .foldl .refl fun _ _ => ?_
  split
  · exact .andThen steps_modStep.mono steps_castVote
  · exact .refl

theorem steps_faultRecord {s : State} {k vi q cls token : Nat} {parts : List (Option Status)} {st : Nat} {origin : Option (Nat × Nat)} :
    Steps [.mem, .health, .consists, .od, .ctr] s (faultRecord s k vi q cls token parts st origin) := by
  unfold faultRecord
  exact .andThen (.andThen steps_poke.mono steps_modCon) steps_bump

theorem steps_endToken {s : State} {k vi q cls : Nat} {post : Option Nat} {st : Nat} {parts : List (Option Status)} {origin : Option (Nat × Nat)} :
    Steps [.mem, .health, .consists, .sems, .od, .ctr] s (endToken s k vi q cls post st parts origin).1 := by
  unfold endToken
  dsimp only
  refine .ite (.andThen (.andThen (.andThen (.andThen ?_ steps_bump) steps_bump) steps_bump) steps_faultRecord) (.andThen
      (.andThen ?_ steps_bump) steps_bump)
  · split
    · dsimp only
      exact .refl
    · dsimp only
      exact steps_queuePost.mono
  · split
    · dsimp only
      exact .refl
    · dsimp only
      exact steps_queuePost.mono

theorem steps_postToken {s : State} {k vi q cls : Nat} {post : Option Nat} {st : Nat} {parts : List (Option Status)} {origin : Option (Nat × Nat)} :
    Steps [.mem, .health, .consists, .sems, .od, .ctr, .parts, .qps, .ports] s (postToken s k vi q cls post st parts origin) := by
  unfold postToken
  refine .andThen (.ite (.andThen (.andThen (.andThen (.andThen ?_ steps_bump) steps_bump) steps_bump) steps_faultRecord) (.andThen
      (.andThen ?_ steps_bump) steps_bump)) steps_errorToken
  · split
    · dsimp only
      exact .refl
    · split
      · dsimp only
        exact .of_eq steps_queuePost.mono ‹_›
  · split
    · dsimp only
      exact .refl
    · split
      · dsimp only
        exact .of_eq steps_queuePost.mono ‹_›

theorem steps_latePosts {s : State} {p : Nat} : Steps [.consists, .sems, .ctr, .parts] s (latePosts s p) := by
  unfold latePosts
  exact .foldl steps_modStep.mono fun _ _ => steps_enginePost

theorem steps_stepClose {s : State} {p : Nat} : Steps [.od, .parts] s (stepClose s p) := by
  unfold stepClose
  refine .andThen (.andThen (.foldl .refl fun _ _ => ?_) steps_modStep) steps_watchNext
  split
  · exact .ite steps_odPut.mono .refl
  · exact .refl

theorem with_sems {s : State} {x_sems} : Steps [.sems] s { s with sems := x_sems } := ⟨rfl, le_rfl, id⟩

theorem steps_restoreSems {s : State} {p : Nat} : Steps [.sems] s (restoreSems s p) := by
  unfold restoreSems
  exact with_sems

theorem steps_discardSiding {s : State} {k : Nat} : Steps [.consists, .ctr] s (discardSiding s k) := by
  unfold discardSiding
  exact .ite .refl (.andThen steps_bump.mono steps_modCon)

theorem steps_restoreConsist {s : State} {k : Nat} : Steps [.free, .mem, .health, .consists, .pools, .casts, .od, .ctr] s (restoreConsist s k) := by
  unfold restoreConsist
  refine .ite steps_discardSiding.mono ?_
  dsimp only
  split
  · exact .andThen (.andThen (.andThen (.andThen steps_discardSiding.mono steps_dropPending) steps_countStall) steps_slotCut) steps_setCon
  · exact .andThen (.andThen (.andThen (.andThen steps_discardSiding.mono steps_dropPending) steps_countStall) steps_slotCut) steps_setCon

theorem steps_keepAttempt {s : State} {p : Nat} : Steps [.parts] s (keepAttempt s p) := by
  unfold keepAttempt
  split
  · exact .ite steps_modStep .refl
  · exact .refl

theorem steps_writeAnchors {s : State} {p anchor : Nat} : Steps [.mem, .health, .od, .ctr] s (writeAnchors s p anchor) := by
  unfold writeAnchors
  refine .foldl .refl fun _ _ => ?_
  split
  · exact steps_poke
  · exact .refl

theorem steps_votersAborted {s : State} {p : Nat} : Steps [.mem, .health, .consists, .sems, .od, .ctr] s (votersAborted s p) := by
  unfold votersAborted
  refine .foldl ?_ fun _ _ => ?_
  · split
    · exact steps_writeAnchors.mono
    · exact .refl
  · split
    · exact steps_endToken
    · exact .refl

theorem steps_endVote {s : State} {p anchor : Nat} : Steps [.mem, .health, .consists, .od, .ctr] s (endVote s p anchor) := by
  unfold endVote
  exact .foldl steps_writeAnchors.mono fun _ _ => steps_endVerb.mono

theorem steps_voteArrive {s : State} {p epoch : Nat} {v : VoteRec} :
    Steps [.consists, .sems, .od, .ctr, .parts, .qps, .ports] s (voteArrive s p epoch v) := by
  unfold voteArrive
  split
  · exact .refl
  · exact .ite .refl (.ite .refl (.andThen steps_modStep.mono steps_leaderCheck))

theorem steps_revisedArrive {s : State} {p epoch : Nat} {v : VoteRec} :
    Steps [.consists, .sems, .od, .ctr, .parts, .qps, .ports] s (revisedArrive s p epoch v) := by
  unfold revisedArrive
  split
  · exact .refl
  · split
    · exact .refl
    · exact .ite .refl (.andThen steps_modStep.mono steps_leaderCheck)

theorem steps_decisionArrive {s : State} {p epoch : Nat} {v : VoteRec} {producer : Nat} :
    Steps [.consists, .sems, .od, .ctr, .parts] s (decisionArrive s p epoch v producer) := by
  unfold decisionArrive
  exact .ite steps_decisionArrived (.ite steps_odPut.mono .refl)

theorem steps_internalPosts {s : State} {p k q r base : Nat} : Steps [.free, .consists, .sems, .ctr] s (internalPosts s p k q r base) := by
  unfold internalPosts
  exact .foldl .refl fun _ _ => (.ite (.andThen with_free.mono steps_bump) (.andThen (.andThen with_free.mono steps_bump) steps_semSet))

theorem steps_setParts {s : State} {k vi : Nat} {l : List Status} : Steps [.consists] s (setParts s k vi l) := by
  unfold setParts
  exact steps_modVerb

theorem steps_callNouns {s : State} {p : Nat} {outs ins : List RNoun} : Steps [.ctr] s (callNouns s p outs ins).1 := by
  unfold callNouns
  split
  · split
    · dsimp only
      refine .andThen (.of_eq (.foldlFst .refl fun _ _ => ?_) ‹_›) steps_countDenied
      split
      · exact .refl
      · exact steps_nounWritable
    · dsimp only
      refine .of_eq (.foldlFst .refl fun _ _ => ?_) ‹_›
      split
      · exact .refl
      · exact steps_nounWritable

theorem steps_writePart {u : Writer} {k i : Nat} {e : VEntry} {out : RNoun} {idx : List (List Nat)} {reads : State → Nat → List Nat → Bool}
    {f : State → Nat → List Nat → Option Val} {s : State} : Steps [.mem, .health, .consists, .od, .ctr, .parts] s
        (writePart u k i e out idx reads f s).1 := by
  unfold writePart
  dsimp only
  split
  · dsimp only
    exact .refl
  · exact steps_writeElems

theorem steps_mapPart {u : Writer} {k : Nat} {e : VEntry} {out : RNoun} {reads : State → Nat → List Nat → Bool}
    {f : State → Nat → List Nat → Option Val} {i : Nat} {s : State} : Steps [.mem, .health, .consists, .od, .ctr, .parts] s
        (mapPart u k e out reads f i s).1 := by
  unfold mapPart
  exact steps_writePart

theorem steps_freePart {r k : Nat} {e : VEntry} {o : CallOps} {i : Nat} {s : State} :
    Steps [.mem, .health, .consists, .od, .ctr, .parts] s (freePart r k e o i s).1 := by
  unfold freePart
  dsimp only
  refine .foldlFst .refl fun _ _ => ?_
  split
  · exact .refl
  · dsimp only
    exact steps_mapPart

theorem steps_putStat {s : State} {a : Nat} {alpha : Val} {l : List ((Val × Val) × Bool)} {p : Nat} :
    Steps [.mem, .health, .od, .ctr] s (putStat s a alpha l p).1 := by
  unfold putStat
  split
  · refine .andThen (.foldlFst .refl fun _ _ => ?_) steps_noteRmw
    split
    · dsimp only
      exact .of_eq steps_poisonPiece.mono ‹_›
  · split
    · dsimp only
      exact .refl
    · exact steps_storeBytes

theorem steps_porterCall {k : Nat} {e : VEntry} {bs : List Block} {s : State} : Steps [.consists, .pools, .casts] s (porterCall k e bs s) := by
  unfold porterCall
  exact .andThen (.andThen steps_modVerb.mono steps_couple) steps_submit

theorem steps_moveCall {k : Nat} {e : VEntry} {o : CallOps} {src dst : Nat → Endpoint} {s : State} :
    Steps [.consists, .pools, .casts] s (moveCall k e o src dst s) := by
  unfold moveCall
  exact .ite steps_endVerb.mono steps_porterCall

theorem steps_startSends {k : Nat} {e : VEntry} {p : Nat} {st : Status} {l : List Outgoing} {s : State} :
    Steps [.consists, .ctr, .qps, .ports] s (startSends k e p st l s) := by
  unfold startSends
  refine .ite steps_endVerb.mono (.foldl steps_modVerb.mono fun _ _ => (.ite ?_ (.andThen ?_ steps_msgEnded)))
  · split
    · dsimp only
      exact .refl
    · split
      · dsimp only
        exact .refl
      · dsimp only
        split
        · dsimp only
          exact .refl
        · split
          · dsimp only
            exact .refl
          · dsimp only
            exact .andThen steps_setQp.mono steps_pump
  · split
    · dsimp only
      exact .refl
    · split
      · dsimp only
        exact .refl
      · dsimp only
        split
        · dsimp only
          exact .refl
        · split
          · dsimp only
            exact .refl
          · dsimp only
            exact .andThen steps_setQp.mono steps_pump

theorem steps_expectFrom {k : Nat} {e : VEntry} {j : JobMap} {s : State} {i : Nat} : Steps [.consists, .sems] s (expectFrom k e j s i) := by
  unfold expectFrom
  exact .andThen steps_semSet steps_modVerb

theorem steps_collSend {k : Nat} {e : VEntry} {p : Nat} {c : Coll} {st : Status} {l : List (Nat × Bool × Nat × Nat × Nat)} {s : State} :
    Steps [.consists, .ctr, .qps, .ports] s (collSend k e p c st l s) := by
  unfold collSend
  exact .ite (.andThen steps_countDenied.mono steps_endVerb) steps_startSends

theorem steps_localCopy {p dst src n : Nat} {s : State} : Steps [.mem, .health, .od, .ctr] s (localCopy p dst src n s).1 := by
  unfold localCopy
  split
  · dsimp only
    exact steps_countDenied.mono
  · split
    · split
      · dsimp only
        exact .of_eq steps_writeAllowed.mono ‹_›
      · exact .andThen (.of_eq steps_writeAllowed.mono ‹_›) steps_copyBytes

theorem steps_localAdd {p ty dst src n : Nat} {s : State} : Steps [.mem, .health, .od, .ctr] s (localAdd p ty dst src n s).1 := by
  unfold localAdd
  split
  · dsimp only
    exact steps_countDenied.mono
  · split
    · split
      · dsimp only
        exact .of_eq steps_writeAllowed.mono ‹_›
      · exact .andThen (.of_eq steps_writeAllowed.mono ‹_›) steps_addBytes

theorem steps_setPhase {s : State} {k vi n : Nat} : Steps [.consists] s (setPhase s k vi n) := by
  unfold setPhase
  exact steps_modVerb

theorem steps_trySend {k p : Nat} {e : VEntry} {o : CallOps} {s : State} : Steps [.consists, .ctr, .parts, .qps, .ports] s (trySend k p e o s) := by
  unfold trySend
  split
  · exact steps_endVerb.mono
  · dsimp only
    split
    · exact steps_endVerb.mono
    · split
      · exact .ite steps_setPhase.mono steps_endVerb.mono
      · exact .ite (.andThen (.andThen (.andThen steps_modPart.mono steps_setPhase) steps_callNouns) steps_endVerb) (.andThen (.andThen
          (.andThen steps_modPart.mono steps_setPhase) steps_callNouns) steps_startSends)

theorem steps_bufferToken {k p r : Nat} {e : VEntry} {fine : Bool} {s : State} : Steps [.consists] s (bufferToken k p r e fine s) := by
  unfold bufferToken
  exact .ite .refl (.ite steps_modCon (.ite (.foldl .refl fun _ _ => (.ite steps_modCon .refl)) .refl))

theorem steps_writeBarrier {p n src a : Nat} {s : State} : Steps [.mem, .health, .od, .ctr] s (writeBarrier p n src a s).1 := by
  unfold writeBarrier
  split
  · dsimp only
    exact .refl
  · split
    · refine .andThen (.foldlFst .refl fun _ _ => ?_) steps_noteRmw
      split
      · dsimp only
        exact .of_eq steps_poisonPiece.mono ‹_›
    · exact steps_storeBytes

theorem steps_windowWait {k vi p : Nat} {s : State} : Steps [.parts] s (windowWait k vi p s) := by
  unfold windowWait
  exact steps_modPart

theorem steps_windowRegister {k p : Nat} {e : VEntry} {o : CallOps} {s : State} : Steps [.consists, .ctr, .parts] s (windowRegister k p e o s) := by
  unfold windowRegister
  exact .ite (.andThen steps_countDenied.mono steps_endVerb) (.ite steps_endVerb.mono (.ite steps_endVerb.mono
      (.andThen steps_modPart.mono steps_windowWait)))

theorem steps_windowRelease {k p : Nat} {e : VEntry} {o : CallOps} {s : State} : Steps [.consists, .parts] s (windowRelease k p e o s) := by
  unfold windowRelease
  exact .ite steps_endVerb.mono (.andThen steps_modPart.mono steps_windowWait)

theorem steps_pointsChange {k p : Nat} {e : VEntry} {o : CallOps} {s : State} : Steps [.consists, .od, .parts] s (pointsChange k p e o s) := by
  unfold pointsChange
  split
  · exact steps_endVerb.mono
  · refine .ite steps_endVerb.mono ?_
    dsimp only
    split
    · exact .andThen steps_modPart.mono steps_odSet
    · exact steps_modPart.mono

theorem steps_tryVote {s : State} {p : Nat} : Steps [.consists, .sems, .od, .ctr, .parts, .qps, .ports] s (tryVote s p) := by
  unfold tryVote
  exact .ite steps_castVote .refl

theorem steps_stepVote {k p : Nat} {e : VEntry} {o : CallOps} {s : State} :
    Steps [.consists, .sems, .od, .ctr, .parts, .qps, .ports] s (stepVote k p e o s) := by
  unfold stepVote
  split
  · exact steps_endVerb.mono
  · exact .ite (.andThen steps_countDenied.mono steps_endVerb) (.andThen steps_modStep.mono steps_tryVote)

theorem steps_updateCall {r k p : Nat} {e : VEntry} {o : CallOps} {s : State} : Steps [.consists, .ctr, .parts] s (updateCall r k p e o s) := by
  unfold updateCall
  exact .ite (.andThen steps_countDenied.mono steps_endVerb) (.ite steps_endVerb.mono (.ite steps_endVerb.mono steps_updateHand.mono))

theorem steps_histClear {k : Nat} {e : VEntry} {o : CallOps} {s : State} : Steps [.mem, .health, .consists, .od, .ctr] s (histClear k e o s) := by
  unfold histClear
  exact .ite steps_endVerb.mono (.andThen (.ite steps_poke.mono (.andThen steps_poke.mono steps_poke)) steps_endVerb)

theorem steps_nextNumber {k : Nat} {s : State} : Steps [.consists] s (nextNumber k s) := by
  unfold nextNumber
  exact steps_modCon

theorem steps_placeAt {k pos : Nat} {s : State} : Steps [.consists] s (placeAt k pos s) := by
  unfold placeAt
  exact steps_modCon

theorem steps_moveTo {k pos : Nat} {s : State} : Steps [.consists] s (moveTo k pos s) := by
  unfold moveTo
  exact .andThen steps_placeAt steps_nextNumber

theorem steps_advance {k : Nat} {s : State} : Steps [.consists] s (advance k s) := by
  unfold advance
  exact steps_moveTo

theorem steps_finishCheck {k : Nat} {s : State} : Steps [.consists] s (finishCheck k s) := by
  unfold finishCheck
  exact .ite steps_setCon .refl

theorem steps_sidingEnd {k : Nat} {e : SidingEntry} {st : Nat} {drain : Bool} {origin : Option (Nat × Nat)} {s : State} :
    Steps [.free, .mem, .health, .consists, .sems, .od, .ctr, .parts, .qps, .ports] s (sidingEnd k e st drain origin s) := by
  unfold sidingEnd
  exact .ite (.ite (.ite .refl steps_modCon.mono) (.andThen (.ite .refl steps_modCon.mono) steps_bumpFree)) (.andThen (.ite (.ite
      .refl steps_modCon.mono) (.andThen (.ite .refl steps_modCon.mono) steps_bumpFree)) steps_postToken)

theorem steps_sidingSweep {k : Nat} {s : State} :
    Steps [.free, .mem, .health, .consists, .sems, .od, .ctr, .parts, .qps, .ports] s (sidingSweep k s) := by
  unfold sidingSweep
  exact .foldl steps_modCon.mono fun _ _ => steps_sidingEnd

theorem steps_putNoun {s : State} {k h : Nat} {n : Noun} : Steps [.consists] s (putNoun s k h n) := by
  unfold putNoun
  exact steps_modCon

theorem steps_holdAt {x : VerbIn} {h : Hold} {s : State} : Steps [.consists] s (holdAt x h s) := by
  unfold holdAt
  exact steps_modCon

theorem steps_clearJudged {k : Nat} {s : State} : Steps [.consists] s (clearJudged k s) := by
  unfold clearJudged
  exact .ite .refl steps_modCon

theorem steps_sidingNote {k vi st : Nat} {s : State} : Steps [.consists] s (sidingNote k vi st s) := by
  unfold sidingNote
  exact steps_modCon

theorem steps_setCyclesPerTick {s : State} : Steps [.od] s (setCyclesPerTick s) := by
  unfold setCyclesPerTick
  exact steps_odSet

theorem steps_loseAlign {s : State} : Steps [.od, .ctr] s (loseAlign s) := by
  unfold loseAlign
  exact .ite (.andThen steps_odSet.mono steps_bump) .refl

theorem with_time {s : State} {x_time} : Steps [.time] s { s with time := x_time } := ⟨rfl, le_rfl, id⟩

theorem steps_applyOffset {s : State} {d : ℤ} {elapsed : Nat} : Steps [.time, .od, .ctr] s (applyOffset s d elapsed) := by
  unfold applyOffset
  exact .ite (.andThen (.andThen steps_odSet.mono with_time) steps_loseAlign) (.ite (.andThen
      (.andThen steps_odSet.mono with_time) steps_loseAlign) (.andThen steps_odSet.mono with_time))

theorem steps_sourceLost {s : State} : Steps [.time, .od, .ctr] s (sourceLost s) := by
  unfold sourceLost
  exact .andThen with_time.mono steps_loseAlign

theorem steps_countOverruns {s : State} {old d : Nat} : Steps [.ctr] s (countOverruns s old d) := by
  unfold countOverruns
  refine .foldl .refl fun _ _ => ?_
  split
  · exact .ite steps_bump .refl
  · exact .refl

theorem steps_ptpBad {s : State} {port : Nat} : Steps [.ctr] s (ptpBad s port) := by
  unfold ptpBad
  exact steps_bump

theorem steps_ptpMeasure {s : State} {t1 t2 : ℤ} : Steps [.time, .od, .ctr] s (ptpMeasure s t1 t2) := by
  unfold ptpMeasure
  exact .andThen steps_applyOffset with_time

theorem steps_lockRecord {s : State} {k : Nat} {ws : List WaitRec} {loop : List Waiter} :
    Steps [.mem, .health, .consists, .od, .ctr] s (lockRecord s k ws loop) := by
  unfold lockRecord
  exact .andThen (.andThen steps_poke.mono steps_poke) steps_modCon

theorem steps_endBlocked {s : State} {p : Nat} : Steps [.consists] s (endBlocked s p) := by
  unfold endBlocked
  refine .foldl .refl fun _ _ => (.foldl .refl fun _ _ => ?_)
  split
  · exact .ite .refl (.andThen steps_setPhase steps_endVerb)
  · exact .refl

theorem steps_ackPolicy {s : State} {q : Nat} {h : HrtHdr} {counted : Bool} : Steps [.ctr, .qps, .ports] s (ackPolicy s q h counted) := by
  unfold ackPolicy
  exact .ite steps_sendAck (.ite .refl (.ite steps_sendAck steps_setQp.mono))

theorem steps_placeFrame {s : State} {f : HrtFrame} : Steps [.mem, .health, .od, .ctr] s (placeFrame s f).1 := by
  unfold placeFrame
  split
  · dsimp only
    exact .refl
  · dsimp only
    refine .andThen ?_ steps_bump
    split
    · exact steps_addBytes
    · exact steps_copyBytes

theorem steps_messageDone {s : State} {f : HrtFrame} {m : RxMsg} :
    Steps [.consists, .sems, .od, .ctr, .parts, .qps, .ports] s (messageDone s f m) := by
  unfold messageDone
  split
  · exact .refl
  · exact .ite steps_modStep.mono (.andThen steps_enginePost.mono steps_castOwed)

theorem steps_noteFrame {s : State} {q : Nat} {f : HrtFrame} {bad : Bool} :
    Steps [.consists, .sems, .od, .ctr, .parts, .qps, .ports] s (noteFrame s q f bad) := by
  unfold noteFrame
  exact .ite (.andThen steps_setQp.mono steps_messageDone) steps_setQp.mono

theorem steps_aheadVote {s : State} {p epoch : Nat} : Steps [.consists, .sems, .od, .ctr, .parts, .qps, .ports] s (aheadVote s p epoch) := by
  unfold aheadVote
  exact .ite steps_castVote .refl

theorem steps_applyData {s : State} {q : Nat} {f : HrtFrame} :
    Steps [.mem, .health, .consists, .sems, .od, .ctr, .parts, .qps, .ports, .pow] s (applyData s q f).1 := by
  unfold applyData
  dsimp only
  split
  · dsimp only
    exact steps_bump.mono
  · split
    · dsimp only
      exact .refl
    · split
      · split
        · dsimp only
          exact steps_touch.mono
        · dsimp only
          exact .ite (.andThen (.andThen steps_touch.mono steps_placeFrame) steps_noteFrame) (.andThen (.andThen
              (.andThen steps_touch.mono steps_placeFrame) steps_noteFrame) steps_aheadVote)
      · split
        · dsimp only
          exact .refl
        · dsimp only
          exact .ite (.andThen steps_placeFrame.mono steps_noteFrame) (.andThen (.andThen steps_placeFrame.mono steps_noteFrame) steps_aheadVote)

theorem steps_retrySends {s : State} {p : Nat} : Steps [.consists, .ctr, .parts, .qps, .ports] s (retrySends s p) := by
  unfold retrySends
  refine .foldl .refl fun _ _ => (.foldl .refl fun _ _ => ?_)
  split
  · exact steps_trySend
  · exact .refl

theorem steps_endWhole {s : State} {q : Nat} : Steps [.consists, .qps] s (endWhole s q) := by
  unfold endWhole
  exact .foldl steps_setQp.mono fun _ _ => steps_msgEnded.mono

theorem steps_retransmit {s : State} {q psn : Nat} : Steps [.consists, .od, .ctr, .qps, .ports] s (retransmit s q psn) := by
  unfold retransmit
  split
  · exact .refl
  · exact .ite steps_resend.mono (.ite .refl (.andThen steps_peerAbsent steps_endBlocked))

theorem steps_windowAfter {s : State} {q : Nat} {echo : Bool} : Steps [.ctr, .qps] s (windowAfter s q echo) := by
  unfold windowAfter
  exact .ite steps_setQp.mono (.ite (.andThen steps_setQp.mono steps_bump) .refl)

theorem steps_slowDrain {s : State} {q : Nat} : Steps [.od, .qps] s (slowDrain s q) := by
  unfold slowDrain
  exact .ite (.andThen steps_setQp.mono steps_slowGone) .refl

theorem steps_ackArrived {h : HrtHdr} {q : Nat} {s : State} : Steps [.consists, .od, .ctr, .qps, .ports] s (ackArrived h q s) := by
  unfold ackArrived
  exact .andThen (.andThen (.ite (.foldl (.andThen (.andThen steps_setQp.mono steps_setPort) steps_endWhole) fun _ _ => steps_retransmit) (.andThen
      (.foldl (.andThen (.andThen steps_setQp.mono steps_setPort) steps_endWhole) fun _ _ => steps_retransmit) steps_windowAfter)) steps_pump) steps_slowDrain

theorem steps_keyFailed {s : State} {p n i : Nat} : Steps [.consists, .ctr, .qps, .chans] s (keyFailed s p n i) := by
  unfold keyFailed
  dsimp only
  split
  · exact .andThen (.ite (.andThen (.andThen steps_bump.mono steps_setChan) steps_endMsgs)
      (.andThen steps_bump.mono steps_setChan)) steps_endBlocked
  · exact .andThen steps_bump.mono steps_setChan

theorem steps_linkDown {s : State} {n : Nat} : Steps [.od, .ctr, .ports, .out] s (linkDown s n) := by
  unfold linkDown
  exact .ite .refl (.andThen (.andThen (.andThen (.ite (.andThen (.andThen (.foldl .refl fun _ _ => steps_bump.mono) steps_setPort) steps_emit)
      (.andThen (.foldl .refl fun _ _ => steps_bump.mono) steps_setPort)) steps_odSet) steps_odSet) steps_bump)

theorem steps_feedWait {s : State} {n : Nat} : Steps [.ports] s (feedWait s n) := by
  unfold feedWait
  exact .foldl .refl fun _ _ => (.ite steps_setPort .refl)

theorem steps_pumpPort {s : State} {n : Nat} : Steps [.ctr, .qps, .ports] s (pumpPort s n) := by
  unfold pumpPort
  exact .foldl steps_feedWait.mono fun _ _ => steps_pump

theorem steps_mgmtDown {s : State} : Steps [.ctr, .ports] s (mgmtDown s) := by
  unfold mgmtDown
  exact .ite .refl (.andThen steps_setPort.mono steps_bump)

theorem steps_linkUp {s : State} {n : Nat} : Steps [.od, .ctr, .qps, .ports] s (linkUp s n) := by
  unfold linkUp
  exact .ite (.andThen (.andThen steps_odSet.mono steps_odSet) steps_pumpPort) .refl

theorem steps_pauseFor {s : State} {n quanta : Nat} : Steps [.ports] s (pauseFor s n quanta) := by
  unfold pauseFor
  exact .ite .refl (.ite steps_setPort steps_setPort)

theorem steps_pauseRx {s : State} {n quanta : Nat} : Steps [.ctr, .ports] s (pauseRx s n quanta) := by
  unfold pauseRx
  exact .andThen steps_bump.mono steps_pauseFor

theorem steps_pfcRx {s : State} {n classes : Nat} {quanta : List Nat} : Steps [.ctr, .ports] s (pfcRx s n classes quanta) := by
  unfold pfcRx
  exact .ite (.andThen steps_bump.mono steps_pauseFor) steps_bump.mono

theorem steps_sendPause {s : State} {n quanta : Nat} : Steps [.ctr, .ports, .out] s (sendPause s n quanta) := by
  unfold sendPause
  exact .andThen (.andThen steps_setPort.mono steps_bump) steps_emit

theorem steps_pauseStart {s : State} {n shared : Nat} : Steps [.ctr, .ports, .out] s (pauseStart s n shared) := by
  unfold pauseStart
  exact .ite (.andThen steps_setPort.mono steps_sendPause) .refl

theorem steps_rekey {s : State} {p n i : Nat} : Steps [.free, .ctr, .ports, .chans] s (rekey s p n i) := by
  unfold rekey
  split
  · exact .ite steps_sendOffer .refl
  · exact .refl

theorem steps_macsecRx {s : State} {p n : Nat} {f : RxFrame} : Steps [.free, .ctr, .ports, .chans] s (macsecRx s p n f).1 := by
  unfold macsecRx
  split
  · dsimp only
    exact .refl
  · split
    · dsimp only
      exact steps_bump.mono
    · split
      · dsimp only
        exact steps_bump.mono
      · dsimp only
        split
        · dsimp only
          exact steps_bump.mono
        · split
          · dsimp only
            exact steps_bump.mono
          · split
            · dsimp only
              exact steps_bump.mono
            · dsimp only
              exact .andThen (.andThen steps_setChan.mono steps_bump) steps_rekey

theorem steps_ipRx {s : State} {p n : Nat} {f : RxFrame} : Steps [.ctr] s (ipRx s p n f) := by
  unfold ipRx
  exact .ite steps_bump (.andThen steps_bump steps_bump)

theorem steps_mgmtRx {s : State} {f : RxFrame} : Steps [.ctr] s (mgmtRx s f) := by
  unfold mgmtRx
  exact .ite .refl (.ite steps_bump (.ite steps_bump (.ite steps_bump (.ite steps_bump (.andThen steps_bump steps_bump)))))

theorem steps_transmit {s : State} {n : Nat} {f : MacFrame} {rest : List MacFrame} :
    Steps [.free, .ctr, .qps, .ports, .chans, .out] s (transmit s n f rest) := by
  unfold transmit
  exact .andThen (.ite (.andThen (.ite (.andThen (.andThen (.ite (.andThen (.andThen steps_setPort.mono steps_emit) steps_setChan)
      (.andThen steps_setPort.mono steps_emit)) steps_countTx) steps_bump) (.andThen (.andThen (.andThen (.ite (.andThen
      (.andThen steps_setPort.mono steps_emit) steps_setChan)
      (.andThen steps_setPort.mono steps_emit)) steps_countTx) steps_bump) steps_setQp)) steps_rekey) (.ite (.andThen (.andThen (.ite (.andThen
      (.andThen steps_setPort.mono steps_emit) steps_setChan) (.andThen steps_setPort.mono steps_emit)) steps_countTx) steps_bump) (.andThen
      (.andThen (.andThen (.ite (.andThen (.andThen steps_setPort.mono steps_emit) steps_setChan)
      (.andThen steps_setPort.mono steps_emit)) steps_countTx) steps_bump) steps_setQp))) steps_pumpPort

theorem steps_countStalls {s : State} {n : Nat} : Steps [.ctr, .ports] s (countStalls s n) := by
  unfold countStalls
  exact .andThen (.foldl .refl fun _ _ => steps_bump.mono) steps_setPort

theorem steps_frameTx {s : State} {n : Nat} : Steps [.free, .ctr, .qps, .ports, .chans, .out] s (frameTx s n) := by
  unfold frameTx
  refine .ite .refl ?_
  dsimp only
  split
  · split
    · exact .ite (.andThen steps_countStalls.mono steps_transmit) steps_countStalls.mono
    · exact steps_countStalls.mono
  · refine .ite steps_countStalls.mono ?_
    split
    · exact .ite (.andThen steps_countStalls.mono steps_transmit) steps_countStalls.mono
    · exact steps_countStalls.mono

theorem with_chans {s : State} {x_chans} : Steps [.chans] s { s with chans := x_chans } := ⟨rfl, le_rfl, id⟩

theorem steps_dropTable {s : State} {p : Nat} {st : Status} : Steps [.consists, .od, .qps, .ports, .chans] s (dropTable s p st) := by
  unfold dropTable
  exact .andThen (.foldl .refl fun _ _ => steps_closeQp.mono) with_chans

theorem with_hrtNext {s : State} {x_hrtNext} : Steps [.hrtNext] s { s with hrtNext := x_hrtNext } := ⟨rfl, le_rfl, id⟩

theorem steps_takeHrtNext {s : State} : Steps [.od, .hrtNext] s (takeHrtNext s) := by
  unfold takeHrtNext
  refine .andThen (.foldl .refl fun _ _ => ?_) with_hrtNext
  split
  · exact steps_odSet.mono
  · exact .refl

theorem steps_latchJob {s : State} {p a : Nat} {j : JobMap} :
    Steps [.free, .consists, .od, .ctr, .parts, .qps, .ports, .chans, .hrtNext] s (latchJob s p a j) := by
  unfold latchJob
  exact .andThen (.foldl (.andThen (.andThen (.andThen (.andThen (.andThen
      (.andThen steps_dropTable.mono steps_takeHrtNext) steps_odSet) steps_odSet) steps_odSet) steps_odSet) steps_modPart) fun _ _ => (.ite .refl
      (.ite (.andThen steps_setQp.mono steps_sendOffer) steps_setQp.mono))) steps_countChannels

theorem steps_loadPaths {s : State} {p a : Nat} : Steps [.od, .parts] s (loadPaths s p a) := by
  unfold loadPaths
  exact .ite (.andThen steps_modPart.mono steps_odSet) (.ite (.andThen steps_modPart.mono steps_odSet) (.andThen
      (.andThen steps_modPart.mono steps_modPart) steps_odSet))

theorem steps_pointsNext {s : State} {p : Nat} : Steps [.od] s (pointsNext s p) := by
  unfold pointsNext
  exact .andThen steps_odSet steps_odSet

theorem steps_fetched {s : State} {q : Nat} {b : List Byte} : Steps [.ctr, .queues] s (fetched s q b) := by
  unfold fetched
  exact .andThen steps_setQueue.mono steps_bump

theorem steps_modStarted {s : State} {q seq : Nat} {f : Started → Started} : Steps [.queues] s (modStarted s q seq f) := by
  unfold modStarted
  exact steps_setQueue

theorem steps_manifestParts {s : State} {q seq : Nat} {parts : List (Nat × Status)} {st : Status} :
    Steps [.queues] s (manifestParts s q seq parts st) := by
  unfold manifestParts
  exact steps_modStarted

theorem steps_noteRefusal {s : State} {q : Nat} {st : Status} : Steps [.queues] s (noteRefusal s q st) := by
  unfold noteRefusal
  exact steps_setQueue

theorem steps_declare {s : State} {d : SemDecl} : Steps [.consists, .sems] s (declare s d) := by
  unfold declare
  exact steps_semReset

theorem steps_loadConsist {s : State} {k : Nat} {img : Image} :
    Steps [.mem, .health, .consists, .pools, .casts, .od, .ctr] s (loadConsist s k img) := by
  unfold loadConsist
  split
  · exact .refl
  · exact .andThen (.andThen steps_forsake.mono steps_poke) steps_setCon

theorem steps_noteImage {s : State} {q seq a n : Nat} : Steps [.queues] s (noteImage s q seq a n) := by
  unfold noteImage
  exact steps_modStarted

theorem steps_startConsist {s : State} {k : Nat} : Steps [.consists] s (startConsist s k) := by
  unfold startConsist
  exact .andThen steps_modCon steps_finishCheck

theorem steps_reload {s : State} {k : Nat} : Steps [.consists] s (reload s k) := by
  unfold reload
  exact steps_modCon

theorem steps_controlPart {s : State} {k action : Nat} :
    Steps [.free, .mem, .health, .consists, .pools, .casts, .od, .ctr] s (controlPart s k action).1 := by
  unfold controlPart
  dsimp only
  split
  · split
    · dsimp only
      exact .refl
    · split
      · dsimp only
        exact steps_startConsist.mono
      · dsimp only
        exact .refl
  · split
    · dsimp only
      exact .refl
    · dsimp only
      exact .andThen (.andThen (.andThen (.ite steps_stopConsist.mono .refl) steps_forsake) steps_reload) steps_startConsist
  · dsimp only
    exact .ite steps_stopConsist.mono .refl
  · dsimp only
    exact .andThen (.andThen (.ite steps_stopConsist.mono .refl) steps_forsake) steps_setCon

theorem steps_devRead {s : State} {a len : Nat} {e : Ecc} {p : Nat} : Steps [.mem, .health, .od, .ctr, .pow] s (devRead s a len e p).1 := by
  unfold devRead
  dsimp only
  exact .andThen steps_touch.mono steps_eccRead

theorem steps_devWrite {s : State} {p a : Nat} {bs : List Byte} {bads : List (Nat × Nat)} :
    Steps [.mem, .health, .od, .ctr, .pow] s (devWrite s p a bs bads).1 := by
  unfold devWrite
  split
  · split
    · dsimp only
      exact .of_eq steps_writeAllowed.mono ‹_›
    · exact .andThen (.andThen (.of_eq steps_writeAllowed.mono ‹_›) steps_touch) steps_copyBytes

theorem steps_depotWriteBlock {p a block : Nat} {ecc : Ecc} {s : State} :
    Steps [.free, .mem, .health, .depot, .od, .ctr, .pow] s (depotWriteBlock p a block ecc s).1 := by
  unfold depotWriteBlock
  split
  · dsimp only
    exact steps_countDenied.mono
  · split
    · split
      · dsimp only
        exact .of_eq (.andThen (.of_eq steps_devRead.mono ‹_›) steps_depotWriteBytes) ‹_›

theorem steps_extendImage {s : State} {p : Nat} {x : Started} : Steps [.od] s (extendImage s p x) := by
  unfold extendImage
  exact .ite steps_odPut .refl

theorem steps_drained {s : State} {q : Nat} : Steps [.queues] s (drained s q) := by
  unfold drained
  exact .ite steps_setQueue .refl

theorem steps_countQueues {s : State} : Steps [.od] s (countQueues s) := by
  unfold countQueues
  exact steps_odSet

theorem steps_disableQueue {s : State} {q : Nat} : Steps [.od, .queues] s (disableQueue s q) := by
  unfold disableQueue
  exact .ite .refl (.ite (.andThen steps_setQueue.mono steps_countQueues) (.andThen (.andThen steps_setQueue.mono steps_drained) steps_countQueues))

theorem steps_descWrite {s : State} {q off : Nat} {bs : List Byte} : Steps [.ctr, .queues] s (descWrite s q off bs) := by
  unfold descWrite
  exact .ite .refl (.ite steps_bump.mono steps_setQueue.mono)

theorem steps_apertureWrite {s : State} {a : Nat} {bs : List Byte} : Steps [.apertures] s (apertureWrite s a bs) := ⟨rfl, le_rfl, id⟩

theorem steps_hostData {s : State} {bs : List Byte} {poison : Bool} : Steps [.out] s (hostData s bs poison) := by
  unfold hostData
  exact steps_emit

theorem steps_hostRefused {s : State} {len : Nat} {write : Bool} : Steps [.ctr, .out] s (hostRefused s len write) := by
  unfold hostRefused
  exact .ite steps_bump.mono (.andThen steps_bump.mono steps_hostData)

theorem steps_refusedRead {s : State} {len : Nat} : Steps [] s (refusedRead s len).1 := by
  unfold refusedRead
  dsimp only
  exact .refl

theorem steps_windowRead {s : State} {a x len : Nat} {e : Ecc} : Steps [.mem, .health, .od, .ctr, .pow] s (windowRead s a x len e).1 := by
  unfold windowRead
  dsimp only
  split
  · exact steps_refusedRead.mono
  · split
    · exact .andThen steps_countDenied.mono steps_refusedRead
    · dsimp only
      exact .andThen steps_devRead steps_bump

theorem steps_windowWrite {s : State} {a x : Nat} {bs : List Byte} : Steps [.mem, .health, .od, .ctr, .pow] s (windowWrite s a x bs).1 := by
  unfold windowWrite
  dsimp only
  split
  · dsimp only
    exact .refl
  · split
    · dsimp only
      exact steps_countDenied.mono
    · dsimp only
      exact steps_devWrite

theorem steps_brynqTouch {s : State} : Steps [.od, .ctr, .pow] s (brynqTouch s) := by
  unfold brynqTouch
  exact steps_touchDomain

theorem steps_recoveryRead {s : State} {off len : Nat} : Steps [.ctr, .out] s (recoveryRead s off len) := by
  unfold recoveryRead
  exact .ite steps_hostData.mono steps_hostRefused

theorem with_boot {s : State} {x_boot} : Steps [.boot] s { s with boot := x_boot } := ⟨rfl, le_rfl, id⟩

theorem steps_recoveryWrite {s : State} {off : Nat} {bs : List Byte} : Steps [.ctr, .boot, .out] s (recoveryWrite s off bs) := by
  unfold recoveryWrite
  exact .ite with_boot.mono (.ite with_boot.mono steps_hostRefused.mono)

theorem steps_hostPartRead {off len : Nat} {e : Ecc} {s : State} : Steps [.mem, .health, .od, .ctr, .pow] s (hostPartRead off len e s).1 := by
  unfold hostPartRead
  dsimp only
  split
  · dsimp only
    exact .refl
  · split
    · exact steps_refusedRead.mono
    · dsimp only
      exact .refl
  · dsimp only
    exact .refl
  · dsimp only
    exact .refl
  · dsimp only
    exact .refl
  · split
    · exact steps_refusedRead.mono
    · dsimp only
      exact .refl
  · exact steps_windowRead
  · exact steps_refusedRead.mono

theorem steps_linkWrite {s : State} {x : Nat} {bs : List Byte} : Steps [.link] s (linkWrite s x bs) := by
  unfold linkWrite
  exact with_link

theorem steps_setLinkErr {s : State} {l : Nat} {e : Option Nat} : Steps [.link] s (setLinkErr s l e) := ⟨rfl, le_rfl, id⟩

theorem steps_moveDomains {s : State} {src dst : Nat} : Steps [.od] s (moveDomains s src dst) := by
  unfold moveDomains
  exact .foldl .refl fun _ _ => (.ite steps_odSet .refl)

theorem steps_timersAfresh {s : State} : Steps [.parts] s (timersAfresh s) := by
  unfold timersAfresh
  exact .foldl .refl fun _ _ => steps_modStep

theorem steps_putShadow {s : State} {p : Nat} {g : Grant} : Steps [.parts] s (putShadow s p g) := by
  unfold putShadow
  exact steps_modPart

theorem steps_beginRelease {s : State} {p : Nat} : Steps [.od, .parts] s (beginRelease s p) := by
  unfold beginRelease
  exact .ite .refl (.andThen steps_modPart.mono steps_odSet)

theorem steps_forceRelease {s : State} {p : Nat} :
    Steps [.free, .mem, .health, .consists, .sems, .od, .ctr, .parts, .qps, .ports] s (forceRelease s p) := by
  unfold forceRelease
  exact .andThen (.foldl steps_castVote.mono fun _ _ => (.ite steps_stopConsist.mono .refl)) steps_beginRelease

theorem steps_freeCounts {s : State} : Steps [.od] s (freeCounts s) := by
  unfold freeCounts
  exact .andThen (.andThen (.andThen steps_odSet steps_odSet) steps_odSet) steps_odSet

theorem steps_settleFree {s : State} {p : Nat} : Steps [.od] s (settleFree s p) := by
  unfold settleFree
  exact .ite steps_odClearIndex .refl

theorem steps_leaveConsist {released : Bool} {s : State} {k : Nat} :
    Steps [.free, .mem, .health, .consists, .od, .ctr] s (leaveConsist released s k) := by
  unfold leaveConsist
  exact .andThen (.ite steps_stopConsist .refl) steps_setCon

theorem steps_giveSems {s : State} {b p : Nat} : Steps [.sems] s (giveSems s b p) := by
  unfold giveSems
  exact with_sems

theorem steps_closeBlock {s : State} {b : Nat} : Steps [.consists, .od, .qps, .ports] s (closeBlock s b) := by
  unfold closeBlock
  exact .foldl .refl fun _ _ => steps_closeQp

theorem with_sec {s : State} {x_sec} : Steps [.sec] s { s with sec := x_sec } := ⟨rfl, le_rfl, id⟩

theorem steps_firstKeys {s : State} {p : Nat} : Steps [.free, .od, .sec] s (firstKeys s p) := by
  unfold firstKeys
  exact .andThen (.andThen (.andThen (.andThen (.andThen (.andThen (.andThen
      (.andThen with_free.mono with_free) with_free) with_free) with_free) with_sec) steps_odPut) steps_odPut) steps_odPut

theorem steps_moveTables {s : State} {p : Nat} {o g : Grant} {owner : Nat} :
    Steps [.free, .mem, .health, .consists, .sems, .od, .ctr, .qps, .ports] s (moveTables s p o g owner) := by
  unfold moveTables
  exact .foldl (.foldl (.foldl (.andThen (.foldl
      .refl fun _ _ => steps_leaveConsist.mono) with_health) fun _ _ => steps_giveSems.mono) fun _ _ => steps_closeBlock.mono) fun _ _ => steps_giveSems.mono

theorem steps_closeSessions {s : State} {gone : Session → Bool} : Steps [.od, .book] s (closeSessions s gone) := by
  unfold closeSessions
  exact .andThen with_book.mono steps_odSet

theorem with_ctr {s : State} {x_ctr} : Steps [.ctr] s { s with ctr := x_ctr } := ⟨rfl, le_rfl, id⟩

theorem with_chans_sec {s : State} {x_chans} {x_sec} : Steps [.chans, .sec] s { s with chans := x_chans, sec := x_sec } := ⟨rfl, le_rfl, id⟩

theorem with_apertures {s : State} {x_apertures} : Steps [.apertures] s { s with apertures := x_apertures } := ⟨rfl, le_rfl, id⟩

theorem steps_releaseRest {s : State} {p : Nat} :
    Steps [.consists, .od, .ctr, .qps, .ports, .chans, .queues, .apertures, .sec, .book] s (releaseRest s p) := by
  unfold releaseRest
  exact .andThen (.foldl (.andThen (.andThen (.andThen (.andThen (.foldl .refl fun _ _ => (.andThen
      (.andThen steps_setQueue.mono steps_drained) steps_countQueues)) with_apertures) with_chans_sec) steps_dropTable) steps_closeSessions) fun _ _ => steps_odClearIndex.mono) with_ctr

theorem steps_swap {s : State} {p : Nat} :
    Steps [.free, .mem, .health, .consists, .sems, .od, .ctr, .parts, .qps, .ports, .chans, .queues, .apertures, .sec, .book] s (swap s p) := by
  unfold swap
  exact .ite (.andThen (.andThen (.andThen (.andThen (.andThen (.andThen
      (.andThen steps_moveTables.mono steps_releaseRest) steps_setPart) steps_odSet) steps_odSet) steps_bump) steps_freeCounts) steps_settleFree)
      (.ite (.andThen (.andThen (.andThen (.andThen (.andThen (.ite (.andThen (.andThen steps_moveTables.mono steps_modPart) steps_firstKeys)
      (.andThen steps_moveTables.mono steps_modPart)) steps_odSet) steps_odSet) steps_odSet) steps_bump) steps_freeCounts) .refl)

theorem steps_leftDone {s : State} {tier no : Nat} : Steps [.health, .od] s (leftDone s tier no) := by
  unfold leftDone
  split
  · exact .refl
  · exact .andThen (.andThen with_health.mono steps_freeCounts) steps_settleFree

theorem steps_preservedCount {s : State} : Steps [.od] s (preservedCount s) := by
  unfold preservedCount
  exact steps_odSet

theorem steps_extendSlot {s : State} {slot : Nat} {d : List Byte} : Steps [.od] s (extendSlot s slot d) := by
  unfold extendSlot
  exact .ite steps_odPut (.andThen steps_odPut steps_odPut)

theorem steps_measure {s : State} {slot : Nat} {component : List Byte} : Steps [.od] s (measure s slot component) := by
  unfold measure
  exact steps_extendSlot

theorem steps_measureLife {s : State} : Steps [.od] s (measureLife s) := by
  unfold measureLife
  exact steps_measure

theorem steps_dropCandidate {s : State} : Steps [.od, .boot] s (dropCandidate s) := by
  unfold dropCandidate
  exact .andThen (.andThen (.andThen with_boot.mono steps_odSet) steps_odSet) steps_odSet

theorem steps_debugBegin {s : State} {origin role : Nat} {fp : List Byte} :
    Steps [.od, .ctr, .chans, .sec, .book, .boot] s (debugBegin s origin role fp) := by
  unfold debugBegin
  exact .andThen (.andThen (.andThen (.andThen (.andThen
      (.foldl with_chans.mono fun _ _ => steps_countChannels.mono) steps_odSet) steps_appendEntry) steps_measureLife) steps_dropCandidate) with_sec

theorem steps_newKeys {s : State} : Steps [.free, .od, .sec] s (newKeys s) := by
  unfold newKeys
  exact .andThen (.andThen (.andThen (.andThen (.andThen (.andThen (.andThen (.andThen (.andThen (.andThen (.andThen (.andThen (.andThen (.andThen
      (.andThen with_free.mono with_free) with_free) with_free) with_free) with_free) with_free) with_free) with_sec) with_free) with_free) steps_odPut) steps_odPut) steps_odPut) steps_odPut) steps_odPut

theorem steps_wakeOne {s : State} {d : Nat} : Steps [.od, .ctr, .pow] s (wakeOne s d) := by
  unfold wakeOne
  split
  · exact steps_beginWake.mono
  · exact steps_beginWake.mono
  · exact steps_meetEntry.mono
  · exact .refl

theorem steps_requestOn {s : State} {d : Nat} : Steps [.od, .ctr, .pow] s (requestOn s d) := by
  unfold requestOn
  refine .foldl ?_ fun _ _ => steps_wakeOne
  split
  · exact steps_wakeOne
  · exact .refl

theorem steps_requestDeep {s : State} {d v : Nat} : Steps [.od, .pow] s (requestDeep s d v) := by
  unfold requestDeep
  exact .ite .refl (.foldl .refl fun _ _ => (.andThen with_pow.mono steps_setDom))

theorem with_sems_casts {s : State} {x_sems} {x_casts} : Steps [.sems, .casts] s { s with sems := x_sems, casts := x_casts } := ⟨rfl, le_rfl, id⟩

theorem steps_endWake {s : State} {d : Nat} : Steps [.od, .pow] s (endWake s d) := by
  unfold endWake
  exact .andThen with_pow.mono steps_setDom

theorem steps_thermal {s : State} : Steps [.od] s (thermal s) := by
  unfold thermal
  exact .ite .refl steps_odSet

theorem steps_recap {s : State} : Steps [.od] s (recap s) := by
  unfold recap
  exact .andThen steps_odSet steps_thermal

theorem steps_clockTo {s : State} {f : Nat} : Steps [.od, .ctr] s (clockTo s f) := by
  unfold clockTo
  exact .ite .refl (.andThen steps_odSet.mono steps_bump)

theorem steps_throttleStep {s : State} {m : ℤ} : Steps [.od, .ctr, .pow] s (throttleStep s m) := by
  unfold throttleStep
  exact .ite (.andThen (.andThen with_pow.mono steps_clockTo) steps_bump) (.ite (.andThen with_pow.mono steps_bump) .refl)

theorem steps_appendCheckpoint {s : State} : Steps [.od, .ctr, .book] s (appendCheckpoint s) := by
  unfold appendCheckpoint
  exact .andThen (.andThen steps_appendEntry steps_bump) with_book

theorem steps_settleWrites {s : State} : Steps [.od] s (settleWrites s) := by
  unfold settleWrites
  refine .foldl (.foldl (.foldl .refl fun _ _ => (.foldl (.foldl .refl fun _ _ => ?_) fun _ _ => ?_)) fun _ _ => steps_odPut) fun _ _ => ?_
  · split
    · exact steps_odPut
    · exact .refl
  · split
    · exact steps_odPut
    · exact .refl
  · split
    · exact steps_odSet
    · exact .refl

theorem steps_putRecord {s : State} {hdr : List Byte} : Steps [.od] s (putRecord s hdr) := by
  unfold putRecord
  exact steps_odPut

theorem steps_closeOld {s : State} : Steps [.od] s (closeOld s) := by
  unfold closeOld
  split
  · exact .refl
  · exact steps_odPut

theorem steps_openRecord {s : State} : Steps [.od, .boot] s (openRecord s) := by
  unfold openRecord
  refine .andThen (.andThen (.foldl steps_closeOld.mono fun _ _ => ?_) steps_putRecord) with_boot
  split
  · exact steps_odPut.mono
  · exact .refl

theorem steps_closeRecord {s : State} {endUs outcome halt : Nat} : Steps [.od, .boot] s (closeRecord s endUs outcome halt) := by
  unfold closeRecord
  exact .andThen (.andThen steps_putRecord.mono steps_measure) with_boot

theorem with_sec_pow {s : State} {x_sec} {x_pow} : Steps [.sec, .pow] s { s with sec := x_sec, pow := x_pow } := ⟨rfl, le_rfl, id⟩

theorem with_od_boot {s : State} {x_od} {x_boot} : Steps [.od, .boot] s { s with od := x_od, boot := x_boot } := ⟨rfl, le_rfl, id⟩

theorem steps_dictLoad {s : State} {e : BootEnv} : Steps [.free, .od, .sec, .boot, .pow] s (dictLoad s e) := by
  unfold dictLoad
  refine .andThen (.andThen (.andThen (.andThen (.andThen (.foldl (.andThen (.andThen
      (.andThen ?_ steps_odPut) steps_odSet) steps_openRecord) fun _ _ => steps_measure.mono) steps_measureLife) steps_measure) with_free) with_sec_pow) steps_recap
  split
  · exact .andThen (.andThen (.ite (.andThen (.ite (.andThen (.andThen (.andThen
      (.foldl with_od_boot.mono fun _ _ => steps_odClear.mono) steps_odSet) with_sec) steps_odSet) (.andThen
      (.foldl with_od_boot.mono fun _ _ => steps_odClear.mono) steps_odSet)) steps_odClear) (.ite (.andThen (.andThen (.andThen
      (.foldl with_od_boot.mono fun _ _ => steps_odClear.mono) steps_odSet) with_sec) steps_odSet) (.andThen
      (.foldl with_od_boot.mono fun _ _ => steps_odClear.mono) steps_odSet))) steps_odSet) steps_odSet
  · exact .ite (.andThen (.ite (.andThen (.andThen (.andThen
      (.foldl with_od_boot.mono fun _ _ => steps_odClear.mono) steps_odSet) with_sec) steps_odSet) (.andThen
      (.foldl with_od_boot.mono fun _ _ => steps_odClear.mono) steps_odSet)) steps_odClear) (.ite (.andThen (.andThen (.andThen
      (.foldl with_od_boot.mono fun _ _ => steps_odClear.mono) steps_odSet) with_sec) steps_odSet) (.andThen
      (.foldl with_od_boot.mono fun _ _ => steps_odClear.mono) steps_odSet))

theorem steps_failRegions {s : State} {dies : Nat} : Steps [.od] s (failRegions s dies) := by
  unfold failRegions
  exact steps_odSet

theorem steps_loseConsists {s : State} {ks : List Nat} : Steps [.od] s (loseConsists s ks) := by
  unfold loseConsists
  exact .foldl (.andThen steps_odSet steps_odSet) fun _ _ => steps_setDom

theorem steps_failChannels {s : State} {m : Nat} : Steps [.od] s (failChannels s m) := by
  unfold failChannels
  exact .andThen steps_odSet steps_odSet

theorem steps_capacities {s : State} : Steps [.od] s (capacities s) := by
  unfold capacities
  exact .andThen (.andThen steps_odSet steps_odSet) steps_freeCounts

theorem steps_stepWork {s : State} {e : BootEnv} {i mode fenced : Nat} :
    Steps [.free, .time, .depot, .od, .ctr, .qps, .ports, .sec, .book, .boot, .pow] s (stepWork s e i mode fenced).1 := by
  unfold stepWork
  split
  · dsimp only
    exact .andThen (.andThen steps_bump.mono steps_extendSlot) steps_measure
  · dsimp only
    exact steps_dictLoad.mono
  · dsimp only
    exact .andThen steps_appendEntry.mono steps_appendCheckpoint
  · dsimp only
    exact .andThen (.andThen (.foldl .refl fun _ _ => (.andThen
        (.andThen steps_setDom.mono steps_setDom) steps_setDom)) steps_loseConsists) steps_failRegions
  · dsimp only
    exact .refl
  · dsimp only
    exact steps_failRegions.mono
  · dsimp only
    exact .andThen steps_odSet.mono steps_failChannels
  · dsimp only
    exact .andThen steps_odSet.mono steps_loseConsists
  · split
    · dsimp only
      exact steps_capacities.mono
    · dsimp only
      exact .andThen (.andThen steps_failRegions.mono steps_failChannels) steps_capacities
  · dsimp only
    exact .andThen (.andThen (.andThen (.foldl .refl fun _ _ => steps_depotDiscard.mono) with_boot) steps_preservedCount) steps_freeCounts
  · dsimp only
    exact .foldl steps_odSet.mono fun _ _ => steps_linkUp.mono
  · dsimp only
    exact steps_odSet.mono
  · dsimp only
    exact .andThen (.andThen steps_odSet.mono steps_setCyclesPerTick) with_time
  · dsimp only
    exact .refl

theorem steps_stepLoss {s : State} {i : Nat} : Steps [.od, .ctr, .ports, .boot, .out] s (stepLoss s i) := by
  unfold stepLoss
  split
  · exact steps_capacities.mono
  · exact with_boot.mono
  · exact .foldl with_boot.mono fun _ _ => steps_linkDown.mono
  · exact .andThen with_boot.mono steps_odSet
  · exact .refl

theorem steps_haltAt {s : State} {i endUs : Nat} : Steps [.od, .boot] s (haltAt s i endUs) := by
  unfold haltAt
  exact .andThen steps_odSet.mono steps_closeRecord

theorem steps_startDone {s : State} {endUs : Nat} : Steps [.od, .boot] s (startDone s endUs) := by
  unfold startDone
  exact .andThen (.andThen (.andThen steps_closeRecord steps_odSet) with_boot) steps_odSet

theorem steps_chooseClock {s : State} {draws : List Nat} : Steps [.od, .ctr, .pow] s (chooseClock s draws) := by
  unfold chooseClock
  exact .andThen (.ite (.andThen (.ite (.andThen with_pow.mono steps_thermal) .refl) steps_odSet) (.andThen (.ite
      (.andThen with_pow.mono steps_thermal) .refl) steps_clockTo)) steps_setCyclesPerTick

theorem steps_sampleWindows {s : State} : Steps [.qps] s (sampleWindows s) := ⟨rfl, le_rfl, id⟩

theorem steps_countPaths {s : State} : Steps [.ctr] s (countPaths s) := by
  unfold countPaths
  exact .foldl .refl fun _ _ => (.andThen steps_bump steps_bump)

theorem steps_scoreboardError {s : State} {k core vi : Nat} :
    Steps [.mem, .health, .consists, .od, .ctr, .parts] s (scoreboardError s k core vi) := by
  unfold scoreboardError
  split
  · exact .refl
  · exact .andThen (.andThen (.foldl .refl fun _ _ => steps_writeElems) steps_modVerb) steps_endPart

theorem steps_sequencerError {s : State} {k : Nat} :
    Steps [.free, .mem, .health, .consists, .sems, .od, .ctr, .parts, .qps, .ports] s (sequencerError s k) := by
  unfold sequencerError
  exact .ite .refl (.andThen (.andThen steps_faultRecord.mono steps_stopConsist) steps_errorToken)

theorem steps_cageDown {s : State} {c : Nat} : Steps [.od, .ctr, .ports, .out] s (cageDown s c) := by
  unfold cageDown
  exact .andThen steps_linkDown steps_linkDown

theorem steps_clearView {s : State} {w : Who} {key : Nat} : Steps [.ctr] s (clearView s w key) := by
  unfold clearView
  split
  · exact .ite with_ctr .refl
  · exact .refl

theorem steps_readWhole {s : State} {w : Who} {index : Nat} : Steps [.ctr] s (readWhole s w index).1 := by
  unfold readWhole
  dsimp only
  split
  · dsimp only
    exact .refl
  · dsimp only
    exact .foldl .refl fun _ _ => steps_clearView

theorem steps_putSession {s : State} {k : Nat} {v : Session} : Steps [.book] s (putSession s k v) := ⟨rfl, le_rfl, id⟩

theorem steps_countSessions {s : State} : Steps [.od, .book] s (countSessions s) := by
  unfold countSessions
  exact steps_closeSessions

theorem steps_dropSession {s : State} {k : Nat} : Steps [.od, .book] s (dropSession s k) := by
  unfold dropSession
  exact .andThen with_book.mono steps_countSessions

theorem steps_mailAnswer {s : State} {m : Nat} {frame : List Byte} : Steps [.link] s (mailAnswer s m frame) := by
  unfold mailAnswer
  exact with_link

theorem steps_sendMgmt {s : State} {k requestId st : Nat} {frame : List Byte} {tag : Nat} :
    Steps [.ctr, .out] s (sendMgmt s k requestId st frame tag) := by
  unfold sendMgmt
  exact .andThen (.andThen steps_bump.mono steps_bump) steps_emit

theorem steps_sendFrame {s : State} {k requestId st : Nat} {frame : List Byte} :
    Steps [.od, .ctr, .link, .book, .out] s (sendFrame s k requestId st frame) := by
  unfold sendFrame
  refine .ite (.andThen steps_emit.mono steps_mailAnswer) ?_
  split
  · exact .ite (.andThen (.andThen steps_putSession.mono steps_sendMgmt) steps_dropSession) (.andThen steps_putSession.mono steps_sendMgmt)
  · exact steps_sendMgmt.mono

theorem steps_keepAnswer {s : State} {k requestId st : Nat} {frame : List Byte} : Steps [.book] s (keepAnswer s k requestId st frame) := by
  unfold keepAnswer
  split
  · exact steps_putSession
  · exact .refl

theorem steps_gate {s : State} {r : LmpReq} : Steps [.ctr, .book] s (gate s r).1 := by
  unfold gate
  split
  · dsimp only
    exact .refl
  · split
    · split
      · dsimp only
        exact .refl
      · dsimp only
        exact steps_putSession.mono
    · split
      · dsimp only
        exact steps_bump.mono
      · split
        · dsimp only
          exact steps_bump.mono
        · split
          · dsimp only
            exact steps_bump.mono
          · split
            · dsimp only
              exact steps_bump.mono
            · split
              · dsimp only
                exact steps_bump.mono
              · dsimp only
                exact steps_putSession.mono

theorem steps_plainTake {s : State} {key : Nat} {v : OdVal} : Steps [.time, .od, .ctr, .parts, .hrtNext, .book] s (plainTake s key v) := by
  unfold plainTake
  refine .ite with_book.mono (.ite (.ite (.andThen (.ite .refl (.andThen with_time.mono steps_odSet)) steps_loseAlign) (.ite .refl
      (.andThen with_time.mono steps_odSet))) (.ite (.andThen (.ite with_time.mono .refl) steps_odSet) (.ite (.ite with_hrtNext.mono
      (.andThen with_hrtNext.mono steps_odPut)) ?_)))
  split
  · exact .ite steps_modPart.mono (.ite steps_modStep.mono steps_odPut.mono)
  · exact steps_odPut.mono

theorem steps_dispatch {s : State} {die : Nat} {e : Ecc} :
    Steps [.mem, .health, .consists, .sems, .pools, .casts, .depot, .od, .ctr, .parts, .pow] s (dispatch s die e) := by
  unfold dispatch
  refine .ite .refl ?_
  split
  · exact .refl
  · exact .ite (.andThen (.ite (.andThen steps_setPool.mono steps_bump) steps_setPool.mono) steps_blockEnded) (.ite (.andThen (.andThen (.ite
      (.andThen (.andThen (.ite (.andThen steps_setPool.mono steps_bump) steps_setPool.mono) steps_bump) steps_bump) (.ite
      (.andThen steps_setPool.mono steps_bump) steps_setPool.mono)) steps_chooseReceivers) steps_blockEnded) (.ite (.andThen (.andThen (.ite
      (.andThen (.ite (.andThen (.andThen (.ite (.andThen steps_setPool.mono steps_bump) steps_setPool.mono) steps_bump) steps_bump) (.ite
      (.andThen steps_setPool.mono steps_bump) steps_setPool.mono)) steps_chooseReceivers) (.andThen (.andThen (.ite (.andThen (.andThen (.ite
      (.andThen steps_setPool.mono steps_bump) steps_setPool.mono) steps_bump) steps_bump) (.ite
      (.andThen steps_setPool.mono steps_bump) steps_setPool.mono)) steps_chooseReceivers) steps_bump)) steps_readBlock) steps_blockEnded)
      (.andThen (.andThen (.ite (.andThen (.ite (.andThen (.andThen (.ite
      (.andThen steps_setPool.mono steps_bump) steps_setPool.mono) steps_bump) steps_bump) (.ite
      (.andThen steps_setPool.mono steps_bump) steps_setPool.mono)) steps_chooseReceivers) (.andThen (.andThen (.ite (.andThen (.andThen (.ite
      (.andThen steps_setPool.mono steps_bump) steps_setPool.mono) steps_bump) steps_bump) (.ite
      (.andThen steps_setPool.mono steps_bump) steps_setPool.mono)) steps_chooseReceivers) steps_bump)) steps_readBlock) steps_enterSlot)))

theorem steps_flushWaiting {s : State} {q : Nat} : Steps [.ctr, .queues, .link, .out] s (flushWaiting s q) := by
  unfold flushWaiting
  refine .upto .refl fun _ _ => ?_
  exact steps_flushOne

theorem steps_deliver {s : State} {q : Nat} {c : Completion} {reserved : Bool} : Steps [.ctr, .queues, .link, .out] s (deliver s q c reserved) := by
  unfold deliver
  exact .ite steps_retain.mono (.ite .refl (.ite steps_putCompletion (.andThen steps_setQueue.mono steps_flushWaiting)))

theorem steps_event {s : State} {p : Nat} {st : Status} {detail : Nat} : Steps [.ctr, .queues, .link, .out] s (event s p st detail) := by
  unfold event
  exact .foldl .refl fun _ _ => (.ite steps_deliver .refl)

theorem steps_quarantine {s : State} {p i : Nat} :
    Steps [.consists, .od, .ctr, .qps, .ports, .chans, .queues, .link, .out] s (quarantine s p i) := by
  unfold quarantine
  exact .ite .refl (.andThen (.andThen (.andThen (.andThen (.andThen (.foldl (.foldl
      .refl fun _ _ => steps_closeQp.mono) fun _ _ => steps_dropFrames.mono) with_chans) steps_countChannels) steps_odSet) steps_bump) steps_event)

theorem steps_shardApply {s : State} {p d : Nat} {e : Ecc} :
    Steps [.free, .mem, .health, .consists, .sems, .od, .ctr, .parts] s (shardApply s p d e) := by
  unfold shardApply
  split
  · exact .refl
  · exact .ite .refl (.ite (.andThen steps_countDenied.mono steps_shardDone) (.andThen (.ite (.andThen (.andThen (.andThen
      (.andThen steps_applyRange.mono steps_bumpFree) steps_bump) steps_setShardState) steps_bump) (.andThen (.andThen (.andThen
      (.andThen steps_applyRange.mono steps_bumpFree) steps_bump) steps_poke) steps_setShardState)) steps_shardDone))

theorem steps_shardPause {s : State} {p : Nat} {x : Accepted} : Steps [.free, .mem, .health, .od, .ctr, .parts] s (shardPause s p x) := by
  unfold shardPause
  exact .andThen (.andThen with_free.mono steps_applyRange) steps_modStep

theorem steps_pauseApplies {s : State} : Steps [.free, .mem, .health, .od, .ctr, .parts] s (pauseApplies s) := by
  unfold pauseApplies
  exact .foldl .refl fun _ _ => (.foldl .refl fun _ _ => steps_shardPause)

theorem steps_scatterPhase {k p : Nat} {e : VEntry} {c : Coll} {off : Nat → Nat} {s : State} :
    Steps [.mem, .health, .consists, .sems, .od, .ctr, .qps, .ports] s (scatterPhase k p e c off s) := by
  unfold scatterPhase
  exact .andThen (.foldl steps_localAdd.mono fun _ _ => steps_expectFrom.mono) steps_collSend

theorem steps_counterRead {k p : Nat} {e : VEntry} {o : CallOps} {s : State} :
    Steps [.mem, .health, .consists, .od, .ctr] s (counterRead k p e o s) := by
  unfold counterRead
  exact .ite steps_endVerb.mono (.ite (.andThen steps_countDenied.mono steps_endVerb) (.ite (.andThen steps_writeAllowed.mono steps_endVerb)
      (.andThen (.andThen steps_writeAllowed.mono steps_copyBytes) steps_endVerb)))

theorem steps_layerScaleSet {k p : Nat} {e : VEntry} {o : CallOps} {s : State} :
    Steps [.mem, .health, .consists, .od, .ctr, .parts] s (layerScaleSet k p e o s) := by
  unfold layerScaleSet
  exact .ite steps_endVerb.mono (.ite steps_endVerb.mono (.ite steps_endVerb.mono (.andThen steps_layerWrite.mono steps_endVerb)))

theorem steps_lossSubmit {k p : Nat} {e : VEntry} {o : CallOps} {s : State} : Steps [.consists, .od, .ctr, .parts] s (lossSubmit k p e o s) := by
  unfold lossSubmit
  dsimp only
  exact .ite steps_endVerb.mono (.ite (.andThen steps_callNouns.mono steps_endVerb) (.ite (.andThen steps_callNouns.mono steps_endVerb) (.andThen
      (.andThen steps_callNouns.mono steps_watchSubmit) steps_endVerb)))

theorem steps_seqRead {s : State} {p a n : Nat} {e : Ecc} : Steps [.mem, .health, .od, .ctr] s (seqRead s p a n e).1 := by
  unfold seqRead
  split
  · dsimp only
    exact steps_countDenied.mono
  · split
    · refine .of_eq ?_ ‹_›
      split
      · dsimp only
        exact .refl
      · exact steps_eccRead

theorem steps_lockStop {s : State} {all : List WaitRec} {loop : List Waiter} :
    Steps [.free, .mem, .health, .consists, .sems, .od, .ctr, .parts, .qps, .ports, .queues, .link, .out] s (lockStop s all loop) := by
  unfold lockStop
  refine .andThen (.foldl (.foldl .refl fun _ _ => steps_lockRecord.mono) fun _ _ => ?_) steps_bump
  dsimp only
  split
  · exact .andThen (.andThen steps_stopConsist.mono steps_event) steps_castVote
  · exact steps_stopConsist.mono

theorem steps_faultyFrame {s : State} {p i : Nat} :
    Steps [.consists, .od, .ctr, .parts, .qps, .ports, .chans, .queues, .link, .out] s (faultyFrame s p i) := by
  unfold faultyFrame
  exact .ite (.andThen (.andThen steps_modPart.mono steps_quarantine) steps_endBlocked) steps_modPart.mono

theorem steps_hostileFrame {s : State} {f : HrtFrame} :
    Steps [.consists, .od, .ctr, .qps, .ports, .chans, .queues, .link, .out] s (hostileFrame s f) := by
  unfold hostileFrame
  refine .andThen (.andThen ?_ steps_quarantine) steps_endBlocked
  split
  · exact .refl
  · exact .ite steps_bump.mono (.andThen (.andThen steps_bump.mono steps_bump) steps_enqueue)

theorem steps_macRx {s : State} {n : Nat} {f : RxFrame} : Steps [.free, .ctr, .ports, .chans] s (macRx s n f) := by
  unfold macRx
  refine .ite (.ite steps_pauseRx.mono (.ite steps_pfcRx.mono steps_bump.mono)) (.ite (.ite .refl steps_bump.mono) (.ite steps_bump.mono ?_))
  split
  · exact steps_bump.mono
  · exact .ite steps_bump.mono (.ite steps_macsecRx (.andThen (.andThen (.andThen steps_macsecRx steps_bump) steps_bump) steps_ipRx))

theorem steps_queueStop {s : State} {q : Nat} {st : Status} : Steps [.ctr, .queues, .link, .out] s (queueStop s q st) := by
  unfold queueStop
  exact .andThen steps_setQueue.mono steps_deliver

theorem steps_copyPart {p dir src dst : Nat} {data : List Byte} {e : Ecc} {r : Nat × Nat} {s : State} :
    Steps [.free, .mem, .health, .od, .ctr, .link, .pow, .out] s (copyPart p dir src dst data e r s).1 := by
  unfold copyPart
  split
  · exact steps_devWrite.mono
  · split
    · split
      · dsimp only
        exact .andThen (.of_eq steps_devRead.mono ‹_›) steps_hostPost
      · dsimp only
        exact .andThen (.andThen (.of_eq steps_devRead.mono ‹_›) with_free) steps_hostPost
  · exact .andThen steps_devRead.mono steps_devWrite

theorem steps_sqTail {s : State} {q v : Nat} : Steps [.ctr, .queues, .link, .out] s (sqTail s q v) := by
  unfold sqTail
  exact .ite .refl (.ite (.andThen steps_setQueue.mono steps_queueStop) steps_setQueue.mono)

theorem steps_cqHead {s : State} {q v : Nat} : Steps [.ctr, .queues, .link, .out] s (cqHead s q v) := by
  unfold cqHead
  exact .ite .refl (.ite steps_bump.mono (.andThen (.andThen steps_setQueue.mono steps_flushWaiting) steps_drained))

theorem steps_enableQueue {s : State} {q : Nat} : Steps [.od, .ctr, .queues, .link, .out] s (enableQueue s q) := by
  unfold enableQueue
  exact .ite .refl (.ite (.andThen steps_setQueue.mono steps_countQueues) (.andThen
      (.andThen steps_setQueue.mono steps_flushWaiting) steps_countQueues))

theorem steps_queueWrite {s : State} {q o : Nat} {bs : List Byte} : Steps [.od, .ctr, .queues, .link, .out] s (queueWrite s q o bs) := by
  unfold queueWrite
  exact .ite (.ite .refl steps_descWrite.mono) (.ite (.andThen (.ite .refl steps_descWrite.mono) steps_enableQueue) (.andThen (.ite
      .refl steps_descWrite.mono) steps_disableQueue))

theorem steps_hostPartWrite {off : Nat} {bs : List Byte} {whole : Bool} {s : State} :
    Steps [.mem, .health, .od, .ctr, .queues, .apertures, .link, .pow, .out] s (hostPartWrite off bs whole s).1 := by
  unfold hostPartWrite
  split
  · dsimp only
    exact steps_linkWrite.mono
  · split
    · dsimp only
      exact .refl
    · dsimp only
      exact steps_apertureWrite.mono
  · dsimp only
    exact steps_queueWrite.mono
  · dsimp only
    exact .ite .refl (.ite steps_sqTail.mono (.ite steps_cqHead.mono steps_bump.mono))
  · dsimp only
    exact with_link.mono
  · dsimp only
    exact .refl
  · exact steps_windowWrite.mono
  · dsimp only
    exact .refl

theorem steps_loseCopy {s : State} {p : Nat} {b : List Byte} : Steps [.mem, .health, .od, .ctr, .pow] s (loseCopy s p b) := by
  unfold loseCopy
  exact .ite .refl (.foldl .refl fun _ _ => (.ite .refl (.ite (.andThen
      (.andThen steps_writeAllowed.mono steps_touch) steps_storePoison) steps_writeAllowed.mono)))

theorem steps_loseManifest {s : State} {q : Nat} {x : Started} : Steps [.mem, .health, .od, .ctr, .queues, .pow] s (loseManifest s q x) := by
  unfold loseManifest
  refine .ite .refl ?_
  split
  · exact .ite .refl steps_manifestParts.mono
  · exact .ite (.andThen (.andThen (.ite .refl steps_countDenied.mono) steps_noteRefusal) steps_manifestParts)
      (.andThen steps_loseCopy.mono steps_manifestParts)

theorem steps_orphan {s : State} {q : Nat} : Steps [.mem, .health, .od, .ctr, .queues, .pow] s (orphan s q) := by
  unfold orphan
  exact .ite .refl (.andThen (.andThen (.foldl .refl fun _ _ => steps_loseManifest) steps_setQueue) steps_retain)

theorem steps_orphanAll {s : State} : Steps [.mem, .health, .od, .ctr, .queues, .link, .pow] s (orphanAll s) := by
  unfold orphanAll
  exact .andThen (.andThen (.andThen (.foldl .refl fun _ _ => steps_orphan.mono) steps_bump) with_link) steps_countQueues

theorem steps_beginHold {s : State} {cause : Nat} :
    Steps [.free, .mem, .health, .consists, .sems, .od, .ctr, .parts, .qps, .ports, .link] s (beginHold s cause) := by
  unfold beginHold
  exact .foldl (.andThen (.andThen with_link.mono steps_pauseApplies) steps_odSet) fun _ _ => steps_castVote.mono

theorem steps_enterLoss {s : State} {cause : Nat} :
    Steps [.free, .mem, .health, .consists, .sems, .od, .ctr, .parts, .qps, .ports, .queues, .link, .pow] s (enterLoss s cause) := by
  unfold enterLoss
  exact .ite (.andThen (.andThen (.andThen steps_bump.mono steps_orphanAll) with_link) steps_odSet) (.andThen
      (.andThen steps_bump.mono steps_orphanAll) steps_beginHold)

theorem steps_hostLoss {s : State} {cause : Nat} :
    Steps [.free, .mem, .health, .consists, .sems, .od, .ctr, .parts, .qps, .ports, .queues, .link, .pow] s (hostLoss s cause) := by
  unfold hostLoss
  exact .ite (.ite .refl (.andThen with_link.mono steps_bump)) (.ite .refl steps_enterLoss)

theorem steps_background {c us : Nat} {f : State → State} {s : State} {F : List Field} (hf : ∀ x, Steps F x (f x))
    (le : Field.within [.depot, .ctr] F = true := by rfl) : Steps F s (background c us f s) := by
  unfold background
  exact .ite .refl (.andThen (.andThen (hf s) with_depot (Field.within_trans (by rfl) le)) steps_bump (Field.within_trans (by rfl) le))

theorem steps_depotBackground {s : State} {op : DepotBg} {us t : Nat} : Steps [.now, .free, .depot, .od, .ctr] s (depotBackground s op us t) := by
  unfold depotBackground
  exact .trans steps_atTime.mono (steps_background fun _ => steps_bgEffect.mono)

theorem steps_refresh {c : Nat} {f : Nat → State → State} {s : State} {F : List Field} (hf : ∀ u x, Steps F x (f u x))
    (le : Field.within [.free, .depot, .ctr] F = true := by rfl) : Steps F s (refresh c f s) := by
  unfold refresh
  exact .trans (with_free.mono (Field.within_trans (by rfl) le)) (steps_background (hf _) (Field.within_trans (by rfl) le))

theorem steps_allCoresOf {k : Nat} {f : Nat → State → State × Status} {s : State} {F : List Field} (hf : ∀ i x, Steps F x (f i x).1) :
    Steps F s (allCoresOf k f s).1 := by
  unfold allCoresOf
  exact .uptoBy Prod.fst .refl fun i x => hf _ x.1

theorem steps_writeAt {s : State} {f : InFlight} {recv : Option Nat} :
    Steps [.free, .mem, .health, .consists, .depot, .od, .ctr, .parts] s (writeAt s f recv).1 := by
  unfold writeAt
  dsimp only
  split
  · split
    · dsimp only
      exact steps_rangesLocked.mono
    · split
      · split
        · exact .andThen steps_rangesLocked.mono steps_addBytes
        · exact .andThen steps_rangesLocked.mono steps_copyBytes
      · split
        · dsimp only
          exact .of_eq (.andThen steps_rangesLocked.mono steps_depotWriteBytes) ‹_›
        · exact .andThen steps_rangesLocked.mono steps_depotWriteBytes
      · exact .andThen steps_rangesLocked.mono steps_copyBytes
      · exact .trans steps_rangesLocked.mono (steps_allCoresOf (fun _ _ => steps_copyBytes.mono))
      · dsimp only
        exact steps_rangesLocked.mono
      · exact .andThen steps_rangesLocked.mono steps_writeRun
      · split
        · exact .trans steps_rangesLocked.mono (steps_allCoresOf (fun _ _ => steps_writeRun.mono))
        · exact .andThen steps_rangesLocked.mono steps_writeRun
  · split
    · dsimp only
      exact .refl
    · split
      · split
        · exact steps_addBytes.mono
        · exact steps_copyBytes.mono
      · split
        · dsimp only
          exact .of_eq steps_depotWriteBytes.mono ‹_›
        · exact steps_depotWriteBytes.mono
      · exact steps_copyBytes.mono
      · exact steps_allCoresOf (fun _ _ => steps_copyBytes.mono)
      · dsimp only
        exact .refl
      · exact steps_writeRun.mono
      · split
        · exact steps_allCoresOf (fun _ _ => steps_writeRun.mono)
        · exact steps_writeRun.mono

theorem steps_finishOne {s : State} {die : Nat} {f : InFlight} :
    Steps [.free, .mem, .health, .consists, .sems, .pools, .depot, .od, .ctr, .parts] s (finishOne s die f) := by
  unfold finishOne
  exact .andThen (.andThen steps_writeAt.mono steps_dropFlight) steps_blockEnded

theorem steps_finishCast {s : State} {die : Nat} {f : InFlight} {rs : List Nat} :
    Steps [.free, .mem, .health, .consists, .sems, .pools, .casts, .depot, .od, .ctr, .parts, .pow] s (finishCast s die f rs) := by
  unfold finishCast
  refine .ite (.andThen (.andThen (.andThen (.foldlFst .refl fun _ _ => ?_) steps_dropFlight) steps_windowOpened) steps_blockEnded) (.andThen
      (.foldlFst .refl fun _ _ => ?_) steps_setPool)
  · split
    · dsimp only
      refine .of_eq ?_ ‹_›
      split
      · exact .andThen (.of_eq steps_touchAll.mono ‹_›) steps_writeAt
      · dsimp only
        exact .andThen (.of_eq steps_touchAll.mono ‹_›) steps_dropReceiver
  · split
    · dsimp only
      refine .of_eq ?_ ‹_›
      split
      · exact .andThen (.of_eq steps_touchAll.mono ‹_›) steps_writeAt
      · dsimp only
        exact .andThen (.of_eq steps_touchAll.mono ‹_›) steps_dropReceiver

theorem steps_complete {s : State} {die id : Nat} {rs : List Nat} :
    Steps [.free, .mem, .health, .consists, .sems, .pools, .casts, .depot, .od, .ctr, .parts, .pow] s (complete s die id rs) := by
  unfold complete
  split
  · exact .refl
  · refine .ite .refl (.ite ?_ steps_finishCast)
    split
    · exact steps_blockWait.mono
    · exact steps_finishOne.mono

theorem steps_drainFlights {s : State} {ks : List Nat} :
    Steps [.free, .mem, .health, .consists, .sems, .pools, .casts, .depot, .od, .ctr, .parts, .pow] s (drainFlights s ks) := by
  unfold drainFlights
  refine .upto .refl fun _ _ => ?_
  exact .foldl .refl fun _ _ => (.ite steps_finishOne.mono steps_finishCast)

theorem steps_dictWrite {s : State} {w : Who} {key : Nat} {v : OdVal} {check : State → Status} {take : State → State} {F : List Field}
    (hf : ∀ x, Steps F x (take x)) (le : Field.within [.od, .ctr, .book, .out] F = true := by rfl) :
    Steps F s (dictWrite s w key v check take) := by
  have steps_count {x : State} {key n : Nat} : Steps F x (bump x key n none) := steps_bump.mono (Field.within_trans (by rfl) le)
  have steps_answer {x : State} {e : Out} : Steps F x (emit x e) := steps_emit.mono (Field.within_trans (by rfl) le)
  unfold dictWrite
  refine .ite .refl (.ite (steps_count.trans steps_answer) ?_)
  have h {i : BookInfo} : Steps F s (appendEntry s i) := steps_appendEntry.mono (Field.within_trans (by rfl) le)
  exact .trans (.trans (.trans h (.ite steps_count .refl)) (.ite (hf _) .refl)) steps_answer

theorem steps_rollback {s : State} {p : Nat} :
    Steps [.free, .mem, .health, .consists, .sems, .pools, .casts, .depot, .od, .ctr, .parts, .qps, .ports, .queues, .link, .pow, .out] s
        (rollback s p) := by
  unfold rollback
  exact .ite (.foldl .refl fun _ _ => steps_dropPending.mono) (.andThen (.andThen (.andThen (.andThen (.andThen (.andThen (.foldl (.andThen
      (.andThen (.andThen (.andThen (.andThen (.andThen (.andThen (.foldl
      .refl fun _ _ => steps_dropPending.mono) steps_keepAttempt) steps_dropUnsent) steps_drainFlights) steps_votersAborted) steps_walkAll) steps_shardsClean) steps_odSet) fun _ _ => steps_restoreConsist.mono) steps_restoreSems) steps_stepClose) steps_odSet) steps_latePosts) steps_bump) steps_event)

theorem steps_applyDecision {s : State} {p : Nat} :
    Steps [.free, .mem, .health, .consists, .sems, .pools, .casts, .depot, .od, .ctr, .parts, .qps, .ports, .queues, .link, .pow, .out] s
        (applyDecision s p) := by
  unfold applyDecision
  dsimp only
  split
  · exact .refl
  · exact .ite .refl (.ite steps_rollback (.ite .refl (.ite (.andThen (.andThen
      (.andThen steps_modStep.mono steps_odSet) steps_odSet) steps_leaderCheck) (.andThen (.andThen (.andThen (.andThen (.andThen (.ite (.andThen
      (.andThen (.andThen (.andThen (.andThen steps_walkAll.mono steps_layerCommit) steps_watchAbsorb) steps_shardsApply) steps_bump) steps_odSet)
      (.andThen (.andThen (.andThen
      (.andThen steps_walkAll.mono steps_shardsClean) steps_bump) steps_bump) steps_odSet)) steps_endVote) steps_stepClose) steps_stepMark) steps_latePosts) steps_odSet))))

theorem steps_eachCore {f : Nat → State → State × Status} {s : State} {F : List Field} (hf : ∀ i x, Steps F x (f i x).1) :
    Steps F s (eachCore f s).1 := by
  unfold eachCore
  exact .uptoBy Prod.fst .refl fun i x => hf i x.1

theorem steps_runCores {k vi : Nat} {f : Nat → State → State × Status} {s : State} {F : List Field} (hf : ∀ i x, Steps F x (f i x).1)
    (le : Field.within [.consists] F = true := by rfl) : Steps F s (runCores k vi f s) := by
  unfold runCores
  exact .andThen (steps_eachCore hf) steps_setParts le

theorem steps_mapCall {u : Writer} {k p : Nat} {e : VEntry} {g : Val → Val} {s : State} :
    Steps [.mem, .health, .consists, .od, .ctr, .parts] s (mapCall u k p e g s) := by
  unfold mapCall
  exact .ite steps_endVerb.mono (.ite (.andThen steps_callNouns.mono steps_endVerb) (.trans steps_callNouns.mono (steps_runCores
      (fun _ _ => steps_mapPart))))

theorem steps_freeCall {r k p : Nat} {e : VEntry} {o : CallOps} {s : State} :
    Steps [.mem, .health, .consists, .od, .ctr, .parts] s (freeCall r k p e o s) := by
  unfold freeCall
  exact .ite steps_endVerb.mono (.ite (.andThen steps_callNouns.mono steps_endVerb) (.trans steps_callNouns.mono (steps_runCores
      (fun _ _ => steps_freePart))))

theorem steps_statMergeCall {k p : Nat} {e : VEntry} {o : CallOps} {s : State} :
    Steps [.mem, .health, .consists, .od, .ctr] s (statMergeCall k p e o s) := by
  unfold statMergeCall
  refine .ite steps_endVerb.mono (.ite (.andThen steps_callNouns.mono steps_endVerb) (.trans steps_callNouns.mono (steps_runCores (fun _ _ =>
      .foldlFst .refl fun _ _ => ?_))))
  dsimp only
  split
  · exact steps_putStat.mono
  · dsimp only
    exact .refl

theorem steps_attentionMergeCall {k p : Nat} {e : VEntry} {o : CallOps} {s : State} :
    Steps [.mem, .health, .consists, .od, .ctr, .parts] s (attentionMergeCall k p e o s) := by
  unfold attentionMergeCall
  exact .ite steps_endVerb.mono (.ite (.andThen steps_callNouns.mono steps_endVerb) (.trans steps_callNouns.mono (steps_runCores
      (fun _ _ => steps_mapPart))))

theorem steps_gatherRowsCall {k p : Nat} {e : VEntry} {s : State} :
    Steps [.mem, .health, .consists, .od, .ctr, .parts] s (gatherRowsCall k p e s) := by
  unfold gatherRowsCall
  refine .ite steps_endVerb.mono (.ite (.andThen steps_callNouns.mono steps_endVerb) (.trans steps_callNouns.mono (steps_runCores (fun _ _ => ?_))))
  dsimp only
  split
  · dsimp only
    exact .refl
  · exact steps_mapPart

theorem steps_scatterAddRowsCall {k p : Nat} {e : VEntry} {s : State} :
    Steps [.mem, .health, .consists, .od, .ctr, .parts] s (scatterAddRowsCall k p e s) := by
  unfold scatterAddRowsCall
  refine .ite steps_endVerb.mono (.ite (.andThen steps_callNouns.mono steps_endVerb) (.trans steps_callNouns.mono (steps_runCores (fun _ _ => ?_))))
  dsimp only
  split
  · dsimp only
    exact .refl
  · refine .foldlFst .refl fun _ _ => ?_
    dsimp only
    split
    · dsimp only
      exact .refl
    · split
      · dsimp only
        exact .refl
      · exact steps_writePart

theorem steps_spillCall {toNear : Bool} {k p : Nat} {e : VEntry} {o : CallOps} {s : State} :
    Steps [.mem, .health, .consists, .od, .ctr, .pow] s (spillCall toNear k p e o s) := by
  unfold spillCall
  refine .ite steps_endVerb.mono (steps_runCores (fun _ _ => ?_))
  dsimp only
  split
  · dsimp only
    exact .andThen steps_touch.mono steps_countDenied
  · split
    · split
      · dsimp only
        exact steps_touch.mono
      · split
        · dsimp only
          exact .andThen steps_touch.mono steps_writeAllowed
        · exact .andThen (.andThen steps_touch.mono steps_writeAllowed) steps_copyBytes
    · split
      · dsimp only
        exact steps_touch.mono
      · split
        · dsimp only
          exact .andThen steps_touch.mono steps_writeAllowed
        · exact .andThen (.andThen steps_touch.mono steps_writeAllowed) steps_copyBytes

theorem steps_hrtFrame {f : HrtFrame} {act : Nat → State → State} {s : State} {F : List Field} (hf : ∀ q x, Steps F x (act q x))
    (le : Field.within [.now, .consists, .od, .ctr, .parts, .qps, .ports, .chans, .queues, .link, .out] F = true := by rfl) :
    Steps F s (hrtFrame f act s) := by
  have count {x : State} {key n : Nat} {p : Option Nat} : Steps F x (bump x key n p) := steps_bump.mono (Field.within_trans (by rfl) le)
  have faulty {x : State} {p r : Nat} : Steps F x (faultyFrame x p r) := steps_faultyFrame.mono (Field.within_trans (by rfl) le)
  have hostile {x : State} {f : HrtFrame} : Steps F x (hostileFrame x f) := steps_hostileFrame.mono (Field.within_trans (by rfl) le)
  have echo {x : State} {q : Nat} {v : Qp} : Steps F x (setQp x q v) := steps_setQp.mono (Field.within_trans (by rfl) le)
  have h : Steps F s { s with now := max s.now f.t } := .mono ⟨rfl, le_max_left _ _, id⟩ (G := [.now]) (Field.within_trans (by rfl) le)
  unfold hrtFrame
  dsimp only
  split
  · exact h
  · exact .ite h (.ite (.trans (.trans h count) count) (.ite (.trans (.trans (.trans h count) count) faulty)
      (.ite (.trans (.trans h count) hostile) (.ite (.trans h count) (.trans (.ite (.trans (.trans h count) echo) (.trans h count)) (hf _ _))))))

theorem steps_sequenced {f : HrtFrame} {effect : Nat → State → State × Refused} {q : Nat} {s : State} {F : List Field}
    (hf : ∀ q x, Steps F x (effect q x).1)
    (le : Field.within [.consists, .od, .ctr, .qps, .ports, .chans, .queues, .link, .out] F = true := by rfl) :
    Steps F s (sequenced f effect q s) := by
  have count {x : State} {key n : Nat} {p : Option Nat} : Steps F x (bump x key n p) := steps_bump.mono (Field.within_trans (by rfl) le)
  have ack {x : State} {q : Nat} {n : Option (Nat × Status)} : Steps F x (sendAck x q n) := steps_sendAck.mono (Field.within_trans (by rfl) le)
  have policy {x : State} {q : Nat} {h : HrtHdr} {b : Bool} : Steps F x (ackPolicy x q h b) := steps_ackPolicy.mono (Field.within_trans (by rfl) le)
  have hostile {x : State} {f : HrtFrame} : Steps F x (hostileFrame x f) := steps_hostileFrame.mono (Field.within_trans (by rfl) le)
  have take {x : State} {q : Nat} {v : Qp} : Steps F x (setQp x q v) := steps_setQp.mono (Field.within_trans (by rfl) le)
  have h := hf q s
  unfold sequenced
  refine .ite (count.trans ack) (.ite count ?_)
  dsimp only
  split
  · exact h.trans hostile
  · exact .trans (.trans (.trans h take) ack) policy
  · exact .trans (.trans h take) policy

theorem steps_controlFrame {f : HrtFrame} {effect : State → State} {s : State} {F : List Field} (hf : ∀ x, Steps F x (effect x))
    (le : Field.within [.now, .consists, .sems, .od, .ctr, .parts, .qps, .ports, .chans, .queues, .link, .out] F = true := by rfl) :
    Steps F s (controlFrame f effect s) := by
  unfold controlFrame
  exact steps_hrtFrame (fun q x => steps_sequenced (fun _ y => .trans (steps_aheadVote.mono (Field.within_trans (by rfl) le)) (hf _))
      (Field.within_trans (by rfl) le))
    (Field.within_trans (by rfl) le)

theorem steps_keyFrame {s : State} {f : HrtFrame} {act : JobMap → State → State} {F : List Field} (hf : ∀ j x, Steps F x (act j x))
    (le : Field.within [.ctr] F = true := by rfl) : Steps F s (keyFrame s f act) := by
  have count {x : State} {key n : Nat} {p : Option Nat} : Steps F x (bump x key n p) := steps_bump.mono le
  unfold keyFrame
  split
  · exact .refl
  · exact .ite .refl (.ite (count.trans count) (.ite (count.trans count) (count.trans (hf _ _))))

theorem steps_fetchSlots {q : Nat} {l : List (List Byte)} {s : State} : Steps [.ctr, .queues] s (fetchSlots q l s) := by
  induction l generalizing s with
  | nil => exact .refl
  | cons b r ih => exact .ite .refl (.ite (.trans steps_fetched ih) steps_setQueue.mono)

theorem steps_runManifest {s : State} {q seq : Nat} {sel : List Byte → Bool} {reach : Nat → List Byte → Bool} {check : Nat → List Byte → Status}
    {act : Nat → List Byte → State × Option (List (Nat × Status))} {F : List Field} (hf : ∀ p b, Steps F s (act p b).1)
    (le : Field.within [.ctr, .queues] F = true := by rfl) : Steps F s (runManifest s q seq sel reach check act) := by
  unfold runManifest
  split
  · exact .refl
  · rename_i x _
    have h := hf (queue s q).part x.bytes
    refine .ite (.andThen (.andThen (.ite .refl (steps_countDenied.mono (Field.within_trans (by rfl) le))) steps_noteRefusal (Field.within_trans
        (by rfl) le))
      steps_manifestParts (Field.within_trans (by rfl) le)) ?_
    split
    · exact .of_eq h ‹_›
    · exact .andThen (.of_eq h ‹_›) steps_manifestParts (Field.within_trans (by rfl) le)

theorem steps_control {q seq action : Nat} {sel : Nat → Bool} {s : State} :
    Steps [.free, .mem, .health, .consists, .pools, .casts, .od, .ctr, .queues] s (control q seq action sel s) := by
  unfold control
  refine steps_runManifest (fun _ _ => .foldlFst ?_ fun _ _ => ?_)
  · dsimp only
    exact .refl
  · exact steps_controlPart.mono

theorem steps_depotWriteBlocks {p first count a : Nat} {ecc : Ecc} {x : Started} {s : State} :
    Steps [.free, .mem, .health, .depot, .od, .ctr, .pow] s (depotWriteBlocks p first count a ecc x s).1 := by
  unfold depotWriteBlocks
  refine .foldlFst .refl fun y i => ?_
  dsimp only
  split
  · exact .refl
  · split
    · split
      · exact .refl
      · dsimp only
        exact steps_bump.mono
    · dsimp only
      exact steps_depotWriteBlock

theorem steps_zeroRange {s : State} {a n : Nat} : Steps [.mem, .od] s (zeroRange s a n) := by
  unfold zeroRange
  dsimp only
  split
  · refine .mono (with_memory ?_)
    exact (cells_filter_wf · _)
  · refine .andThen (.mono (with_memory ?_)) steps_odSet
    exact (cells_filter_wf · _)

theorem steps_scrubGranule {s : State} {t : ScrubTier} {g : Nat} : Steps [.mem, .depot, .od, .ctr] s (scrubGranule s t g) := by
  unfold scrubGranule
  split
  · exact .andThen steps_zeroRange.mono steps_bump
  · exact .andThen (.andThen steps_zeroRange.mono with_mem) steps_bump
  · exact .andThen steps_zeroRange.mono steps_bump
  · exact steps_depotDiscard.mono

theorem steps_clearConsist {s : State} {k : Nat} : Steps [.mem, .consists, .od] s (clearConsist s k) := by
  unfold clearConsist
  refine .andThen (.andThen (.andThen (.andThen (.andThen (.upto
      .refl fun _ _ => ?_) steps_zeroRange) steps_zeroRange) steps_zeroRange) steps_zeroRange) steps_setCon
  exact steps_zeroRange.mono

theorem steps_importWrite {who : Who} {p : Nat} {bytes : List Byte} {s : State} :
    Steps [.free, .od, .ctr, .sec, .book, .out] s (importWrite who p bytes s) := by
  unfold importWrite
  dsimp only
  exact .ite (.andThen (.andThen (.andThen (steps_dictWrite (fun _ => .andThen
      (.andThen with_sec.mono steps_odPut) steps_odSet)) steps_bump) steps_freshOctets) steps_odPut) (steps_dictWrite (fun _ => .andThen
      (.andThen with_sec.mono steps_odPut) steps_odSet))

theorem steps_eraseMemory {s : State} : Steps [.mem, .health] s (eraseMemory s) := ⟨rfl, le_rfl, fun _ => rfl⟩

theorem steps_domainWrite {who : Who} {d v : Nat} {s : State} : Steps [.od, .ctr, .book, .pow, .out] s (domainWrite who d v s) := by
  unfold domainWrite
  exact steps_dictWrite (fun _ => .ite steps_requestOn.mono steps_requestDeep.mono)

theorem steps_zeroStack {s : State} {k : Nat} : Steps [.mem] s (zeroStack s k) := ⟨rfl, le_rfl, (cells_filter_wf · _)⟩

theorem steps_offLoss {s : State} {d : Nat} :
    Steps [.mem, .consists, .sems, .pools, .casts, .depot, .od, .ctr, .ports, .link, .out] s (offLoss s d) := by
  unfold offLoss
  refine .ite (.andThen (.upto steps_dropPending.mono fun _ _ => ?_) steps_setCon) (.ite (.andThen
      (.andThen steps_zeroRange.mono steps_setPool) with_sems_casts) (.ite steps_zeroStack.mono (.ite (.andThen steps_zeroRange.mono with_mem)
      (.ite steps_linkDown.mono (.ite (.andThen with_link.mono steps_odSet) (.ite steps_depotProgrammed.mono .refl))))))
  exact steps_zeroRange.mono

theorem steps_endEntry {s : State} {d : Nat} :
    Steps [.mem, .consists, .sems, .pools, .casts, .depot, .od, .ctr, .ports, .link, .pow, .out] s (endEntry s d) := by
  unfold endEntry
  exact .ite (.andThen (.andThen (.andThen (.ite steps_offLoss.mono (.ite steps_depotProgrammed.mono
      .refl)) with_pow) steps_setDom) steps_beginWake) (.andThen (.andThen (.ite steps_offLoss.mono (.ite steps_depotProgrammed.mono
      .refl)) with_pow) steps_setDom)

theorem steps_trip {s : State} :
    Steps [.mem, .consists, .sems, .pools, .casts, .depot, .od, .ctr, .parts, .qps, .ports, .link, .pow, .out] s (trip s) := by
  unfold trip
  exact .andThen (.andThen (.andThen (.andThen (.foldl (.foldl .refl fun _ _ => steps_castVote.mono) fun _ _ =>
      (.andThen steps_offLoss.mono steps_setDom)) with_pow) steps_odSet) steps_odSet) steps_bump

theorem steps_beginStart {s : State} {cause : Nat} : Steps Field.all s (beginStart s cause) := by
  unfold beginStart
  extract_lets
  refine .andThen (.of_pending ?_ ?_ ?_) steps_odSet
  · exact steps_settleWrites.pending
  · exact steps_settleWrites.now_le
  · exact fun _ => by unfold Memory.wf; rfl

theorem steps_watchdog {s : State} {i endUs : Nat} : Steps Field.all s (watchdog s i endUs) := by
  unfold watchdog
  exact .ite steps_haltAt.mono (.andThen (.andThen with_boot.mono steps_beginStart) steps_bump)

theorem steps_runStep {e : BootEnv} {f : StepFinding} {s : State} : Steps Field.all s (runStep e f s) := by
  unfold runStep
  dsimp only
  split
  · refine .ite (.andThen (.ite (.andThen (.andThen (.andThen (.andThen ?_ with_boot) steps_bump) steps_bump) steps_putRecord) (.andThen (.andThen
      (.andThen ?_ with_boot) steps_bump) steps_bump)) steps_startDone) (.ite (.andThen (.andThen (.andThen
      (.andThen ?_ with_boot) steps_bump) steps_bump) steps_putRecord) (.andThen (.andThen (.andThen ?_ with_boot) steps_bump) steps_bump))
    · split
      · dsimp only
        exact .ite (.andThen steps_odSet.mono steps_openRecord) steps_odSet.mono
      · split
        · split
          · split
            · dsimp only
              exact .andThen steps_odSet.mono steps_stepLoss
            · exact .andThen steps_odSet.mono steps_stepWork
          · split
            · dsimp only
              exact .andThen steps_odSet.mono steps_stepLoss
            · exact .andThen steps_odSet.mono steps_stepWork
        · split
          · dsimp only
            exact .andThen steps_odSet.mono steps_stepLoss
          · exact .andThen steps_odSet.mono steps_stepWork
    · split
      · dsimp only
        exact .ite (.andThen steps_odSet.mono steps_openRecord) steps_odSet.mono
      · split
        · split
          · split
            · dsimp only
              exact .andThen steps_odSet.mono steps_stepLoss
            · exact .andThen steps_odSet.mono steps_stepWork
          · split
            · dsimp only
              exact .andThen steps_odSet.mono steps_stepLoss
            · exact .andThen steps_odSet.mono steps_stepWork
        · split
          · dsimp only
            exact .andThen steps_odSet.mono steps_stepLoss
          · exact .andThen steps_odSet.mono steps_stepWork
    · split
      · dsimp only
        exact .ite (.andThen steps_odSet.mono steps_openRecord) steps_odSet.mono
      · split
        · split
          · split
            · dsimp only
              exact .andThen steps_odSet.mono steps_stepLoss
            · exact .andThen steps_odSet.mono steps_stepWork
          · split
            · dsimp only
              exact .andThen steps_odSet.mono steps_stepLoss
            · exact .andThen steps_odSet.mono steps_stepWork
        · split
          · dsimp only
            exact .andThen steps_odSet.mono steps_stepLoss
          · exact .andThen steps_odSet.mono steps_stepWork
    · split
      · dsimp only
        exact .ite (.andThen steps_odSet.mono steps_openRecord) steps_odSet.mono
      · split
        · split
          · split
            · dsimp only
              exact .andThen steps_odSet.mono steps_stepLoss
            · exact .andThen steps_odSet.mono steps_stepWork
          · split
            · dsimp only
              exact .andThen steps_odSet.mono steps_stepLoss
            · exact .andThen steps_odSet.mono steps_stepWork
        · split
          · dsimp only
            exact .andThen steps_odSet.mono steps_stepLoss
          · exact .andThen steps_odSet.mono steps_stepWork
  · refine .ite (.andThen (.ite (.andThen (.andThen (.andThen (.andThen ?_ with_boot) steps_bump) steps_bump) steps_putRecord) (.andThen (.andThen
      (.andThen ?_ with_boot) steps_bump) steps_bump)) with_boot) (.ite (.andThen (.ite (.andThen (.andThen (.andThen
      (.andThen ?_ with_boot) steps_bump) steps_bump) steps_putRecord) (.andThen (.andThen
      (.andThen ?_ with_boot) steps_bump) steps_bump)) steps_watchdog) (.ite (.andThen (.ite (.andThen (.andThen (.andThen
      (.andThen ?_ with_boot) steps_bump) steps_bump) steps_putRecord) (.andThen (.andThen
      (.andThen ?_ with_boot) steps_bump) steps_bump)) steps_haltAt) (.andThen (.ite (.andThen (.andThen (.andThen
      (.andThen ?_ with_boot) steps_bump) steps_bump) steps_putRecord) (.andThen (.andThen
      (.andThen ?_ with_boot) steps_bump) steps_bump)) steps_stepLoss)))
    · split
      · dsimp only
        exact .ite (.andThen steps_odSet.mono steps_openRecord) steps_odSet.mono
      · split
        · split
          · split
            · dsimp only
              exact .andThen steps_odSet.mono steps_stepLoss
            · exact .andThen steps_odSet.mono steps_stepWork
          · split
            · dsimp only
              exact .andThen steps_odSet.mono steps_stepLoss
            · exact .andThen steps_odSet.mono steps_stepWork
        · split
          · dsimp only
            exact .andThen steps_odSet.mono steps_stepLoss
          · exact .andThen steps_odSet.mono steps_stepWork
    · split
      · dsimp only
        exact .ite (.andThen steps_odSet.mono steps_openRecord) steps_odSet.mono
      · split
        · split
          · split
            · dsimp only
              exact .andThen steps_odSet.mono steps_stepLoss
            · exact .andThen steps_odSet.mono steps_stepWork
          · split
            · dsimp only
              exact .andThen steps_odSet.mono steps_stepLoss
            · exact .andThen steps_odSet.mono steps_stepWork
        · split
          · dsimp only
            exact .andThen steps_odSet.mono steps_stepLoss
          · exact .andThen steps_odSet.mono steps_stepWork
    · split
      · dsimp only
        exact .ite (.andThen steps_odSet.mono steps_openRecord) steps_odSet.mono
      · split
        · split
          · split
            · dsimp only
              exact .andThen steps_odSet.mono steps_stepLoss
            · exact .andThen steps_odSet.mono steps_stepWork
          · split
            · dsimp only
              exact .andThen steps_odSet.mono steps_stepLoss
            · exact .andThen steps_odSet.mono steps_stepWork
        · split
          · dsimp only
            exact .andThen steps_odSet.mono steps_stepLoss
          · exact .andThen steps_odSet.mono steps_stepWork
    · split
      · dsimp only
        exact .ite (.andThen steps_odSet.mono steps_openRecord) steps_odSet.mono
      · split
        · split
          · split
            · dsimp only
              exact .andThen steps_odSet.mono steps_stepLoss
            · exact .andThen steps_odSet.mono steps_stepWork
          · split
            · dsimp only
              exact .andThen steps_odSet.mono steps_stepLoss
            · exact .andThen steps_odSet.mono steps_stepWork
        · split
          · dsimp only
            exact .andThen steps_odSet.mono steps_stepLoss
          · exact .andThen steps_odSet.mono steps_stepWork
    · split
      · dsimp only
        exact .ite (.andThen steps_odSet.mono steps_openRecord) steps_odSet.mono
      · split
        · split
          · split
            · dsimp only
              exact .andThen steps_odSet.mono steps_stepLoss
            · exact .andThen steps_odSet.mono steps_stepWork
          · split
            · dsimp only
              exact .andThen steps_odSet.mono steps_stepLoss
            · exact .andThen steps_odSet.mono steps_stepWork
        · split
          · dsimp only
            exact .andThen steps_odSet.mono steps_stepLoss
          · exact .andThen steps_odSet.mono steps_stepWork
    · split
      · dsimp only
        exact .ite (.andThen steps_odSet.mono steps_openRecord) steps_odSet.mono
      · split
        · split
          · split
            · dsimp only
              exact .andThen steps_odSet.mono steps_stepLoss
            · exact .andThen steps_odSet.mono steps_stepWork
          · split
            · dsimp only
              exact .andThen steps_odSet.mono steps_stepLoss
            · exact .andThen steps_odSet.mono steps_stepWork
        · split
          · dsimp only
            exact .andThen steps_odSet.mono steps_stepLoss
          · exact .andThen steps_odSet.mono steps_stepWork
    · split
      · dsimp only
        exact .ite (.andThen steps_odSet.mono steps_openRecord) steps_odSet.mono
      · split
        · split
          · split
            · dsimp only
              exact .andThen steps_odSet.mono steps_stepLoss
            · exact .andThen steps_odSet.mono steps_stepWork
          · split
            · dsimp only
              exact .andThen steps_odSet.mono steps_stepLoss
            · exact .andThen steps_odSet.mono steps_stepWork
        · split
          · dsimp only
            exact .andThen steps_odSet.mono steps_stepLoss
          · exact .andThen steps_odSet.mono steps_stepWork
    · split
      · dsimp only
        exact .ite (.andThen steps_odSet.mono steps_openRecord) steps_odSet.mono
      · split
        · split
          · split
            · dsimp only
              exact .andThen steps_odSet.mono steps_stepLoss
            · exact .andThen steps_odSet.mono steps_stepWork
          · split
            · dsimp only
              exact .andThen steps_odSet.mono steps_stepLoss
            · exact .andThen steps_odSet.mono steps_stepWork
        · split
          · dsimp only
            exact .andThen steps_odSet.mono steps_stepLoss
          · exact .andThen steps_odSet.mono steps_stepWork

theorem steps_serve {op : Nat} {r : LmpReq} {closes : Bool} {work : LmpWork} {s : State} {F : List Field} (hf : ∀ x w k, Steps F x (work x w k).1)
    (le : Field.within [.now, .od, .ctr, .link, .book, .out] F = true := by rfl) : Steps F s (serve op r closes work s) := by
  have count {x : State} {key n : Nat} {p : Option Nat} : Steps F x (bump x key n p) := steps_bump.mono (Field.within_trans (by rfl) le)
  have send {x : State} {k i t : Nat} {b : List Byte} : Steps F x (sendFrame x k i t b) := steps_sendFrame.mono (Field.within_trans (by rfl) le)
  have keep {x : State} {k i t : Nat} {b : List Byte} : Steps F x (keepAnswer x k i t b) := steps_keepAnswer.mono (Field.within_trans (by rfl) le)
  have drop {x : State} {k : Nat} : Steps F x (dropSession x k) := steps_dropSession.mono (Field.within_trans (by rfl) le)
  have close {x : State} {g : Session → Bool} : Steps F x (closeSessions x g) := steps_closeSessions.mono (Field.within_trans (by rfl) le)
  unfold serve
  have hg : Steps F s (gate (atTime s r.t) r).1 := .trans (steps_atTime.mono (Field.within_trans (by rfl) le)) (steps_gate.mono (Field.within_trans
      (by rfl) le))
  dsimp only
  split
  · exact .of_eq hg ‹_›
  · have h := Steps.of_eq hg ‹_›
    split
    · exact h.trans send
    · refine .trans (.trans (.trans (.trans ?_ keep) send) (.ite drop .refl)) (.ite close .refl)
      exact .trans (h.trans count) (.trans (.iteFst (hf _ _ _) .refl) (.ite count .refl))

theorem steps_plainWrite {s : State} {w : Who} {key : Nat} {v : OdVal} :
    Steps [.time, .od, .ctr, .parts, .hrtNext, .book, .out] s (plainWrite s w key v) := by
  unfold plainWrite
  exact steps_dictWrite (fun _ => steps_plainTake.mono)

theorem steps_gatherPhase {k p : Nat} {e : VEntry} {c : Coll} {src w : Nat} {s : State} :
    Steps [.mem, .health, .consists, .sems, .od, .ctr, .qps, .ports] s (gatherPhase k p e c src w s) := by
  unfold gatherPhase
  split
  · dsimp only
    refine .andThen (.foldl ?_ fun _ _ => steps_expectFrom.mono) steps_collSend
    refine .of_eq ?_ ‹_›
    split
    · dsimp only
      exact .refl
    · exact steps_localCopy.mono

theorem steps_collCall {r k p : Nat} {e : VEntry} {o : CallOps} {s : State} :
    Steps [.mem, .health, .consists, .sems, .od, .ctr, .parts, .qps, .ports] s (collCall r k p e o s) := by
  unfold collCall
  split
  · exact .ite steps_endVerb.mono steps_trySend.mono
  · split
    · split
      · exact steps_endVerb.mono
      · split
        · exact steps_endVerb.mono
        · exact .ite steps_endVerb.mono (.andThen steps_expectFrom.mono steps_startSends)
    · split
      · exact .andThen (.ite steps_countDenied.mono .refl) steps_endVerb
      · dsimp only
        split
        · split
          · exact steps_endVerb.mono
          · split
            · exact .andThen steps_callNouns.mono steps_endVerb
            · split
              · exact .andThen (.andThen steps_callNouns.mono steps_setPhase) steps_scatterPhase
              · exact .andThen (.andThen steps_callNouns.mono steps_setPhase) steps_scatterPhase
              · exact .andThen steps_callNouns.mono steps_scatterPhase
              · exact .andThen (.andThen steps_callNouns.mono steps_setPhase) steps_gatherPhase
              · exact .andThen (.andThen steps_callNouns.mono steps_setPhase) steps_gatherPhase
              · split
                · refine .andThen ?_ steps_collSend
                  split
                  · dsimp only
                    exact steps_callNouns.mono
                  · exact .andThen steps_callNouns.mono steps_localCopy
                · exact .andThen (.andThen steps_callNouns.mono steps_expectFrom) steps_startSends
              · split
                · refine .andThen (.foldl ?_ fun _ _ => steps_expectFrom.mono) steps_startSends
                  split
                  · dsimp only
                    exact steps_callNouns.mono
                  · exact .andThen steps_callNouns.mono steps_localAdd
                · exact .andThen steps_callNouns.mono steps_collSend
              · exact .andThen (.foldl (.andThen steps_callNouns.mono steps_localCopy) fun _ _ => steps_expectFrom.mono) steps_collSend
              · exact .ite (.andThen (.andThen steps_callNouns.mono steps_localCopy) steps_startSends) (.andThen
                  (.andThen steps_callNouns.mono steps_expectFrom) steps_collSend)
              · exact .ite (.andThen steps_callNouns.mono steps_endVerb) (.andThen (.foldl (.andThen
                  (.andThen steps_callNouns.mono steps_storeBytes) steps_setPhase) fun _ _ => steps_expectFrom.mono) steps_collSend)
              · exact .ite (.andThen (.andThen steps_callNouns.mono steps_callNouns) steps_endVerb) (.ite (.andThen
                  (.andThen steps_callNouns.mono steps_callNouns) steps_endVerb) (.andThen (.andThen
                  (.andThen steps_callNouns.mono steps_callNouns) steps_setPhase) steps_gatherPhase))
        · split
          · exact steps_endVerb.mono
          · split
            · exact .andThen steps_callNouns.mono steps_endVerb
            · split
              · exact .andThen (.andThen steps_callNouns.mono steps_setPhase) steps_scatterPhase
              · exact .andThen (.andThen steps_callNouns.mono steps_setPhase) steps_scatterPhase
              · exact .andThen steps_callNouns.mono steps_scatterPhase
              · exact .andThen (.andThen steps_callNouns.mono steps_setPhase) steps_gatherPhase
              · exact .andThen (.andThen steps_callNouns.mono steps_setPhase) steps_gatherPhase
              · split
                · refine .andThen ?_ steps_collSend
                  split
                  · dsimp only
                    exact steps_callNouns.mono
                  · exact .andThen steps_callNouns.mono steps_localCopy
                · exact .andThen (.andThen steps_callNouns.mono steps_expectFrom) steps_startSends
              · split
                · refine .andThen (.foldl ?_ fun _ _ => steps_expectFrom.mono) steps_startSends
                  split
                  · dsimp only
                    exact steps_callNouns.mono
                  · exact .andThen steps_callNouns.mono steps_localAdd
                · exact .andThen steps_callNouns.mono steps_collSend
              · exact .andThen (.foldl (.andThen steps_callNouns.mono steps_localCopy) fun _ _ => steps_expectFrom.mono) steps_collSend
              · exact .ite (.andThen (.andThen steps_callNouns.mono steps_localCopy) steps_startSends) (.andThen
                  (.andThen steps_callNouns.mono steps_expectFrom) steps_collSend)
              · exact .ite (.andThen steps_callNouns.mono steps_endVerb) (.andThen (.foldl (.andThen
                  (.andThen steps_callNouns.mono steps_storeBytes) steps_setPhase) fun _ _ => steps_expectFrom.mono) steps_collSend)
              · exact .ite (.andThen (.andThen steps_callNouns.mono steps_callNouns) steps_endVerb) (.ite (.andThen
                  (.andThen steps_callNouns.mono steps_callNouns) steps_endVerb) (.andThen (.andThen
                  (.andThen steps_callNouns.mono steps_callNouns) steps_setPhase) steps_gatherPhase))

theorem steps_collFinish {r k p : Nat} {e : VEntry} {o : CallOps} {s : State} :
    Steps [.mem, .health, .consists, .pools, .casts, .od, .ctr, .parts] s (collFinish r k p e o s) := by
  unfold collFinish
  split
  · exact steps_endVerb.mono
  · dsimp only
    split
    · split
      · exact .andThen steps_callNouns.mono steps_endVerb
      · split
        · split
          · exact .of_eq (.andThen steps_callNouns.mono steps_writeBarrier) ‹_›
          · exact .andThen (.of_eq (.andThen steps_callNouns.mono steps_writeBarrier) ‹_›) steps_endVerb
        · exact .ite steps_callNouns.mono (.andThen (.andThen steps_callNouns.mono steps_setPhase) steps_porterCall)
        · exact .trans steps_callNouns.mono (steps_runCores (fun _ _ => steps_mapPart.mono))
        · refine .trans steps_callNouns.mono (steps_runCores (fun _ _ => .foldlFst .refl fun _ _ => ?_))
          dsimp only
          exact steps_putStat.mono
        · exact steps_callNouns.mono
    · split
      · exact .andThen steps_callNouns.mono steps_endVerb
      · split
        · split
          · exact .of_eq (.andThen steps_callNouns.mono steps_writeBarrier) ‹_›
          · exact .andThen (.of_eq (.andThen steps_callNouns.mono steps_writeBarrier) ‹_›) steps_endVerb
        · exact .ite steps_callNouns.mono (.andThen (.andThen steps_callNouns.mono steps_setPhase) steps_porterCall)
        · exact .trans steps_callNouns.mono (steps_runCores (fun _ _ => steps_mapPart.mono))
        · refine .trans steps_callNouns.mono (steps_runCores (fun _ _ => .foldlFst .refl fun _ _ => ?_))
          dsimp only
          exact steps_putStat.mono
        · exact steps_callNouns.mono

theorem steps_badCommand {s : State} {w : Who} {key n : Nat} : Steps [.od, .ctr, .book, .out] s (badCommand s w key n) := by
  unfold badCommand
  exact steps_dictWrite (fun _ => .refl)

theorem steps_runTile {kind : MatKind} {o : MmaOps} {k i : Nat} {e : VEntry} {rows cols : List Nat} {tm tn n : Nat} {x : PartRun} :
    Steps [.mem, .health, .consists, .od, .ctr, .parts] x.1 (runTile kind o k i e rows cols tm tn n x).1 := by
  unfold runTile
  extract_lets s core p a b out ini sta int rs cs allR allC rec? recRead recBad inSel start starts grid parity s₁ outIdx maskOk statOff
    statOk zero final alpha
  split
  extract_lets ks as bs cells poisoned newSat s₂ all nans s₃ data rowsX stats es₁ es extra inside
  have h₂ : Steps [.mem, .health, .consists, .od, .ctr, .parts] x.1 s₂ := .andThen steps_bump.mono steps_bump
  have h₃ : Steps [.mem, .health, .consists, .od, .ctr, .parts] x.1 s₃ := .andThen h₂ steps_countTally
  clear_value s₂ s₃ inside extra es statOff stats data all
  split
  · split
    have h := h₂.trans (.of_eq steps_writeElems ‹_›)
    exact .ite h (.foldl h fun _ _ => steps_storePoison.mono)
  · split
    · split
      extract_lets hdr
      split
      dsimp only
      exact .andThen (.trans h₃ (.of_eq steps_storeBytes.mono ‹_›)) steps_bump
    · split
      have h := h₂.trans (.of_eq steps_writeElems ‹_›)
      extract_lets s₄ s₅
      have h₄ : Steps [.mem, .health, .consists, .od, .ctr, .parts] x.1 s₄ := .andThen h steps_countTally
      exact .ite h₄ (.foldl h₄ fun _ _ => steps_storeBytes.mono)

theorem steps_matrixPart {kind : MatKind} {o : MmaOps} {k i : Nat} {e : VEntry} {s : State} :
    Steps [.free, .mem, .health, .consists, .od, .ctr, .parts, .pow] s (matrixPart kind o k i e s).1 := by
  unfold matrixPart
  extract_lets out core p
  split
  refine .iteFst .refl ?_
  extract_lets tiles readsOk mine s₁
  have h₁ : Steps [.free, .mem, .health, .consists, .od, .ctr, .parts, .pow] s s₁ := .ite .refl steps_countDenied.mono
  clear_value s₁
  split
  rename_i s₂ w₂ e₂
  have h₂ := h₁.trans (.of_eq steps_nounWritable.mono e₂)
  split
  rename_i s₃ w₃ e₃
  have h₃ := h₂.trans (.of_eq (.iteFst steps_nounWritable.mono .refl) e₃)
  split
  rename_i s₄ w₄ e₄
  have h₄ := h₃.trans (.of_eq steps_touchNouns.mono e₄)
  split
  rename_i s₅ w₅ e₅
  have h₅ := h₄.trans (.of_eq steps_recordsOk.mono e₅)
  split
  rename_i s₆ w₆ e₆
  have h₆ := h₅.trans (.of_eq steps_recordsOk.mono e₆)
  refine .iteFst h₆ (.iteFst h₆ ?_)
  split
  rename_i s₇ w₇ e₇
  have h₇ := h₆.trans (.of_eq (.foldlFst .refl fun _ _ => steps_runTile.mono) e₇)
  exact .andThen (.andThen (.andThen h₇ steps_bumpFree) steps_bumpFree) steps_bankWaits

theorem steps_run {F : List Field} {s u : State} {l : List Thread} {g : List Nat} {d b p : Bool} (h : Steps F s u) :
    Steps F s (VRun.mk u l g d b p).s := h

theorem steps_threadStep {k i regs : Nat} {e : VEntry} {sc : Nat → Nat} {ins : VInstr} {t : Nat} {x : VRun} :
    Steps [.mem, .health, .consists, .od, .ctr, .parts] x.s (threadStep k i regs e sc ins t x).s := by
  unfold threadStep
  extract_lets grp core th reg p on y put mark
  have hy : y.s = x.s := by
    unfold y
    split
    · split <;> rfl
    · rfl
  have hput (z : VRun) (d : Nat) (v : Reg) : (put z d v).s = z.s := by
    unfold put
    split <;> rfl
  have h : Steps [.mem, .health, .consists, .od, .ctr, .parts] x.s y.s := hy ▸ .refl
  clear_value y put mark reg core
  split
  · exact h
  split
  · exact h
  · exact .iteBy VRun.s h (.iteBy VRun.s h (by rw [hput]; exact h))
  · extract_lets o a
    clear_value a o
    refine .iteBy VRun.s h (.iteBy VRun.s h (.iteBy VRun.s (steps_run ?_) (steps_run ?_)))
    · exact .andThen h steps_storePoison
    · exact .andThen (.andThen h steps_storeBytes) steps_countTally
  · exact .iteBy VRun.s h (by rw [hput]; exact h)
  · exact .iteBy VRun.s h (.andThen h steps_writeElems)
  · split
    · exact h
    · rw [hput]
      split
      · dsimp only
        exact .andThen h steps_countTally
      · exact h

theorem steps_vectorStep {k i regs nt : Nat} {e : VEntry} {sc : Nat → Nat} {x : VRun} {ins : VInstr} :
    Steps [.mem, .health, .consists, .od, .ctr, .parts] x.s (vectorStep k i regs nt e sc x ins).s := by
  unfold vectorStep
  exact .uptoBy VRun.s .refl fun _ _ => steps_threadStep

theorem steps_vectorRun {o : VrunOps} {k i : Nat} {e : VEntry} {s : State} :
    Steps [.mem, .health, .consists, .od, .ctr, .parts] s (vectorRun o k i e s).s := by
  unfold vectorRun
  exact .foldlBy VRun.s .refl fun _ _ => steps_vectorStep

theorem steps_vectorPart {o : VrunOps} {k i : Nat} {e : VEntry} {s : State} :
    Steps [.mem, .health, .consists, .od, .ctr, .parts] s (vectorPart o k i e s).1 := by
  unfold vectorPart
  split
  · dsimp only
    exact .refl
  · dsimp only
    exact steps_vectorRun

theorem steps_matmulCall {kind : MatKind} {k p : Nat} {e : VEntry} {o : CallOps} {s : State} :
    Steps [.free, .mem, .health, .consists, .od, .ctr, .parts, .pow] s (matmulCall kind k p e o s) := by
  unfold matmulCall
  exact .ite steps_endVerb.mono (steps_runCores (fun _ _ => steps_matrixPart))

theorem steps_runPart {k core : Nat} {e : VEntry} {s : State} :
    Steps [.free, .mem, .health, .consists, .pools, .casts, .od, .ctr, .parts, .pow] s (runPart k core e s) := by
  unfold runPart
  dsimp only
  split
  · exact .andThen (steps_underEcc (fun _ => steps_matrixPart.mono)) steps_endPart
  · exact .andThen (steps_underEcc (fun _ => steps_vectorPart.mono)) steps_endPart
  · split
    · exact .andThen (.of_eq (steps_underEcc (fun _ => steps_streamPart.mono)) ‹_›) steps_endPart
    · exact .of_eq (steps_underEcc (fun _ => steps_streamPart.mono)) ‹_›
  · split
    · exact .andThen (.of_eq (steps_underEcc (fun _ => steps_streamPart.mono)) ‹_›) steps_endPart
    · exact .of_eq (steps_underEcc (fun _ => steps_streamPart.mono)) ‹_›
  · exact .refl
  · exact .refl
  · exact .refl
  · exact .refl
  · exact .refl
  · exact steps_endPart.mono

theorem steps_wholeRun {k : Nat} {e : VEntry} {s : State} :
    Steps [.free, .mem, .health, .consists, .pools, .casts, .od, .ctr, .parts, .pow] s (wholeRun k e s) := by
  unfold wholeRun
  dsimp only
  split
  · split
    · refine .upto .refl fun _ _ => ?_
      exact .ite steps_runPart .refl
    · refine .upto steps_bump.mono fun _ _ => ?_
      exact .ite steps_endPart.mono .refl
  · split
    · refine .upto (.andThen (.upto .refl fun _ _ => ?_) steps_countDenied) fun _ _ => ?_
      · exact .ite (steps_underEcc (fun _ => .refl)) .refl
      · exact .ite steps_endPart.mono .refl
    · refine .upto .refl fun _ _ => ?_
      exact .ite steps_runPart .refl
  · exact .refl

theorem steps_runSteps {e : BootEnv} {l : List StepFinding} {s : State} : Steps Field.all s (runSteps e l s) := by
  induction l generalizing s with
  | nil => exact .refl
  | cons f r ih => exact .ite (.ite (steps_runStep.trans ih) steps_runStep) .refl

theorem steps_readPart {s : State} {k key : Nat} {r : LmpReq} {value : State → State × Option (List Byte)} {reach : Bool} {F : List Field}
    (hf : ∀ x, Steps F x (value x).1) (le : Field.within [.book] F = true := by rfl) : Steps F s (readPart s k key r value reach).1 := by
  unfold readPart
  split
  · exact .refl
  · extract_lets most set
    have hset {x : State} {f : List (Nat × Nat × List Byte) → List (Nat × Nat × List Byte)} : Steps F x (set x f) := by
      unfold set
      split
      · exact steps_putSession.mono le
      · exact .refl
    clear_value set
    split
    · have h := hf s
      split
      · exact .of_eq h ‹_›
      · dsimp only
        exact .trans (.of_eq h ‹_›) hset
    · split
      · exact .refl
      · exact .iteFst .refl .refl

theorem steps_runCall {r k p : Nat} {e : VEntry} {o : CallOps} {s : State} :
    Steps [.free, .mem, .health, .consists, .sems, .pools, .casts, .od, .ctr, .parts, .qps, .ports, .pow] s (runCall r k p e o s) := by
  unfold runCall
  extract_lets s₁ st
  have h₁ : Steps [.free, .mem, .health, .consists, .sems, .pools, .casts, .od, .ctr, .parts, .qps, .ports, .pow] s s₁ := steps_bump.mono
  clear_value s₁ st
  split
  rename_i s₂ up e₂
  have h₂ := h₁.trans (.of_eq (.iteFst steps_touchNouns.mono .refl) e₂)
  refine .ite (.andThen h₂ steps_endVerb) (.ite (.andThen h₂ steps_endVerb) ?_)
  extract_lets s₃
  have h₃ : Steps [.free, .mem, .health, .consists, .sems, .pools, .casts, .od, .ctr, .parts, .qps, .ports, .pow] s s₃ :=
      .andThen h₂ steps_internalPosts
  clear_value s₃
  split
  case h_1 | h_2 | h_3 | h_4 | h_5 | h_6 | h_7 | h_8 | h_9 | h_10 | h_11 | h_12 | h_13 | h_14 => exact .andThen h₃ steps_collCall
  case h_15 => exact .andThen h₃ steps_endVerb
  case h_16 => exact .andThen h₃ steps_pointsChange
  case h_17 => exact .andThen h₃ steps_statMergeCall
  case h_18 => exact .andThen h₃ steps_lossSubmit
  case h_19 | h_21 | h_22 => exact .andThen h₃ steps_mapCall
  case h_20 => exact .andThen h₃ steps_histClear
  case h_25 => exact .andThen h₃ steps_gatherRowsCall
  case h_26 => exact .andThen h₃ steps_scatterAddRowsCall
  case h_27 | h_28 => exact .andThen h₃ steps_spillCall
  case h_30 | h_31 | h_32 | h_41 => exact .andThen h₃ steps_moveCall
  case h_33 => exact .andThen h₃ steps_windowRegister
  case h_34 => exact .andThen h₃ steps_windowRelease
  case h_35 | h_36 | h_37 | h_38 => exact .andThen h₃ steps_updateCall
  case h_39 => exact .andThen h₃ steps_stepVote
  case h_40 => exact .andThen h₃ steps_counterRead
  case h_42 => exact .andThen h₃ steps_layerScaleSet
  case h_44 => exact .andThen h₃ steps_attentionMergeCall
  case h_45 | h_46 => exact .andThen h₃ steps_matmulCall
  case h_48 => exact .andThen h₃ steps_freeCall
  case h_23 | h_24 =>
    refine .ite (.andThen h₃ steps_endVerb) ?_
    split
    have h₄ := h₃.trans (.of_eq steps_callNouns.mono ‹_›)
    exact .ite (.andThen h₄ steps_endVerb) (.trans h₄ (steps_runCores fun _ _ => steps_mapPart.mono))
  case h_43 =>
    refine .ite (.andThen h₃ steps_endVerb) ?_
    split
    have h₄ := h₃.trans (.of_eq steps_callNouns.mono ‹_›)
    exact .ite (.andThen h₄ steps_endVerb) (.trans h₄ (steps_runCores fun _ _ => steps_writePart.mono))
  case h_29 => exact .ite (.andThen h₃ steps_endVerb) (.andThen h₃ steps_porterCall)
  case h_47 => exact .andThen (.andThen h₃ with_free) steps_endVerb

theorem steps_runOnce {k vi : Nat} {s : State} :
    Steps [.free, .mem, .health, .consists, .sems, .pools, .casts, .od, .ctr, .parts, .qps, .ports, .pow] s (runOnce k vi s) := by
  unfold runOnce
  split
  · dsimp only
    split
    · exact .ite (.andThen steps_arrivePost.mono steps_castOwed) (.andThen (.andThen steps_arrivePost.mono steps_castOwed) steps_endVerb)
    · exact .ite .refl (.ite steps_endVerb.mono (.andThen steps_semReset.mono steps_endVerb))
    · exact .ite .refl (.andThen steps_scaleAdjust.mono steps_endVerb)
    · exact .ite .refl (.andThen steps_scaleAdjust.mono steps_endVerb)
    · exact .ite .refl (steps_underEcc (fun _ => steps_runCall))
    · exact .ite .refl steps_wholeRun.mono
  · exact .refl

theorem steps_issueOne {k core vi : Nat} {s : State} :
    Steps [.free, .mem, .health, .consists, .sems, .pools, .casts, .od, .ctr, .parts, .qps, .ports, .pow] s (issueOne k core vi s) := by
  unfold issueOne
  split
  · exact .refl
  · exact .ite (.andThen (.ite (.andThen steps_modVerb.mono steps_endPart) (.ite steps_modVerb.mono
      (.andThen steps_modVerb.mono steps_runPart))) steps_runOnce) (.ite (.andThen steps_modVerb.mono steps_endPart) (.ite steps_modVerb.mono
      (.andThen steps_modVerb.mono steps_runPart)))

theorem steps_issueReady {k vi : Nat} {s : State} :
    Steps [.free, .mem, .health, .consists, .sems, .pools, .casts, .od, .ctr, .parts, .qps, .ports, .pow] s (issueReady k vi s) := by
  unfold issueReady
  split
  · exact .refl
  · refine .upto .refl fun _ _ => ?_
    split
    · exact .ite steps_issueOne .refl
    · exact .refl

theorem steps_enter {x : VerbIn} {ix : List Nat} {s : State} :
    Steps [.free, .mem, .health, .consists, .sems, .pools, .casts, .od, .ctr, .parts, .qps, .ports, .pow] s (enter x ix s).1 := by
  unfold enter
  dsimp only
  split
  · dsimp only
    exact .refl
  · split
    · dsimp only
      exact .andThen (.andThen steps_openStep.mono steps_endToken) steps_errorToken
    · dsimp only
      exact .andThen (.andThen (.andThen (.andThen steps_openStep.mono steps_modCon) steps_bump) steps_issueReady) steps_markWaits

theorem steps_sidingNext {k i : Nat} {x : VerbIn} {s : State} :
    Steps [.free, .mem, .health, .consists, .sems, .pools, .casts, .od, .ctr, .parts, .qps, .ports, .pow] s (sidingNext k i x s) := by
  unfold sidingNext
  dsimp only
  split
  · exact .refl
  · exact .ite .refl (.ite steps_setCon.mono (.andThen (.andThen steps_enter steps_modCon) steps_nextNumber))

theorem steps_sidingFeed {k : Nat} {s : State} :
    Steps [.free, .mem, .health, .consists, .sems, .pools, .casts, .od, .ctr, .parts, .qps, .ports, .pow] s (sidingFeed k s) := by
  unfold sidingFeed
  exact .foldl .refl fun _ _ => (.foldl .refl fun _ _ => steps_sidingNext)

theorem steps_sidingBegin {k : Nat} {e : SidingEntry} {waits : List Await} {drain : Bool} {s : State} :
    Steps [.free, .mem, .health, .consists, .sems, .pools, .casts, .od, .ctr, .parts, .qps, .ports, .pow] s (sidingBegin k e waits drain s) := by
  unfold sidingBegin
  exact .andThen (.andThen steps_modCon.mono steps_sidingFeed) steps_sidingSweep

theorem steps_sidingRun {k : Nat} {e : SidingEntry} {drain : Bool} {s : State} :
    Steps [.free, .mem, .health, .consists, .sems, .pools, .casts, .od, .ctr, .parts, .qps, .ports, .pow] s (sidingRun k e drain s) := by
  unfold sidingRun
  dsimp only
  split
  · exact .andThen steps_modCon.mono steps_sidingEnd
  · exact .andThen (.andThen steps_modCon.mono steps_bump) steps_sidingBegin

theorem steps_parkAt {x : VerbIn} {o : ParkOps} {ix : List Nat} {s : State} :
    Steps [.free, .mem, .health, .consists, .sems, .pools, .casts, .od, .ctr, .parts, .qps, .ports, .pow] s (parkAt x o ix s) := by
  unfold parkAt
  dsimp only
  split
  · split
    · exact .andThen steps_nextNumber.mono steps_postToken
    · split
      · exact .ite (.andThen (.andThen (.andThen (.andThen steps_nextNumber.mono steps_bump) steps_openStep) steps_bump) steps_sidingBegin)
          (.andThen (.andThen (.andThen (.andThen (.andThen steps_nextNumber.mono steps_bump) steps_openStep) steps_modCon) steps_bump) steps_odSet)
      · exact .ite (.andThen (.andThen steps_nextNumber.mono steps_bump) steps_sidingBegin) (.andThen
          (.andThen steps_nextNumber.mono steps_modCon) steps_bump)
  · split
    · exact .andThen steps_nextNumber.mono steps_postToken
    · split
      · exact .ite (.andThen (.andThen (.andThen (.andThen steps_nextNumber.mono steps_bump) steps_openStep) steps_bump) steps_sidingBegin)
          (.andThen (.andThen (.andThen (.andThen (.andThen steps_nextNumber.mono steps_bump) steps_openStep) steps_modCon) steps_bump) steps_odSet)
      · exact .ite (.andThen (.andThen steps_nextNumber.mono steps_bump) steps_sidingBegin) (.andThen
          (.andThen steps_nextNumber.mono steps_modCon) steps_bump)

theorem steps_drainWork {k : Nat} {s : State} :
    Steps [.free, .mem, .health, .consists, .sems, .pools, .casts, .od, .ctr, .parts, .qps, .ports, .pow] s (drainWork k s) := by
  unfold drainWork
  dsimp only
  split
  · refine .foldl .refl fun _ _ => ?_
    split
    · exact .ite steps_sidingRun .refl
    · exact .refl
  · split
    · refine .andThen (.ite (.andThen (.andThen (.foldl .refl fun _ _ => ?_) steps_setCon) steps_postToken) (.andThen (.foldl
        .refl fun _ _ => ?_) steps_setCon)) steps_placeAt
      · split
        · exact .ite steps_sidingRun .refl
        · exact .refl
      · split
        · exact .ite steps_sidingRun .refl
        · exact .refl
    · refine .andThen (.foldl .refl fun _ _ => ?_) steps_setCon
      split
      · exact .ite steps_sidingRun .refl
      · exact .refl
    · refine .andThen (.foldl .refl fun _ _ => ?_) steps_setCon
      split
      · exact .ite steps_sidingRun .refl
      · exact .refl

theorem steps_runControl {x : VerbIn} {st : Status} {origin : Option (Nat × Nat)} {s : State} :
    Steps [.free, .mem, .health, .consists, .sems, .pools, .casts, .od, .ctr, .parts, .qps, .ports, .pow] s (runControl x st origin s) := by
  unfold runControl
  dsimp only
  split
  · exact .ite (.ite (.andThen (.andThen (.ite steps_bump.mono .refl) steps_moveTo) steps_postToken) (.andThen (.ite steps_bump.mono
      .refl) steps_moveTo)) (.ite (.andThen (.andThen steps_setCon.mono steps_advance) steps_postToken) (.andThen steps_setCon.mono steps_advance))
  · split
    · exact .ite (.andThen steps_advance.mono steps_postToken) steps_advance.mono
    · exact .ite (.ite (.andThen (.andThen steps_setCon.mono steps_moveTo) steps_postToken) (.andThen steps_setCon.mono steps_moveTo)) (.ite
        (.andThen (.andThen steps_setCon.mono steps_advance) steps_postToken) (.andThen steps_setCon.mono steps_advance))
  · exact .ite (.ite (.andThen steps_advance.mono steps_postToken) steps_advance.mono) (.ite (.ite
      (.andThen steps_advance.mono steps_postToken) steps_advance.mono) (.ite (.andThen (.andThen (.ite
      (.andThen steps_seqRead.mono steps_setCon) steps_seqRead.mono) steps_advance) steps_postToken) (.andThen (.ite
      (.andThen steps_seqRead.mono steps_setCon) steps_seqRead.mono) steps_advance)))
  · split
    · exact .ite (.andThen steps_advance.mono steps_postToken) steps_advance.mono
    · split
      · exact .ite (.andThen (.andThen (.ite steps_putNoun.mono .refl) steps_advance) steps_postToken) (.andThen (.ite steps_putNoun.mono
          .refl) steps_advance)
      · exact .ite (.andThen (.andThen (.ite (.andThen steps_seqRead.mono steps_putNoun) steps_seqRead.mono) steps_advance) steps_postToken)
          (.andThen (.ite (.andThen steps_seqRead.mono steps_putNoun) steps_seqRead.mono) steps_advance)
  · split
    · exact .ite (.andThen steps_advance.mono steps_postToken) steps_advance.mono
    · split
      · exact .ite (.andThen (.ite steps_postToken.mono .refl) steps_stopConsist) (.ite (.andThen
          (.andThen steps_setCon.mono steps_advance) steps_postToken) (.andThen steps_setCon.mono steps_advance))
      · split
        · exact .andThen (.ite (.andThen steps_seqRead.mono steps_postToken) steps_seqRead.mono) steps_stopConsist
        · split
          · exact .ite (.andThen (.ite (.andThen steps_seqRead.mono steps_postToken) steps_seqRead.mono) steps_stopConsist) (.ite (.andThen
              (.andThen (.andThen steps_seqRead.mono steps_setCon) steps_advance) steps_postToken) (.andThen
              (.andThen steps_seqRead.mono steps_setCon) steps_advance))
          · exact .ite (.andThen (.ite (.andThen steps_seqRead.mono steps_postToken) steps_seqRead.mono) steps_stopConsist) (.ite (.andThen
              (.andThen (.andThen steps_seqRead.mono steps_setCon) steps_advance) steps_postToken) (.andThen
              (.andThen steps_seqRead.mono steps_setCon) steps_advance))
  · exact .ite (.ite (.andThen steps_advance.mono steps_postToken) steps_advance.mono) (.andThen (.andThen
      (.andThen steps_bump.mono steps_setCon) steps_nextNumber) steps_drainWork)
  · exact .ite (.andThen steps_advance.mono steps_postToken) steps_advance.mono
  · exact .andThen (.ite (.andThen steps_advance.mono steps_postToken) steps_advance.mono) steps_modCon
  · exact .refl

theorem steps_reach {x : VerbIn} {s : State} :
    Steps [.free, .mem, .health, .consists, .sems, .pools, .casts, .od, .ctr, .parts, .qps, .ports, .pow] s (reach x s) := by
  unfold reach
  dsimp only
  split
  · exact .andThen steps_parkAt steps_placeAt
  · split
    · split
      · exact .andThen steps_clearJudged.mono steps_holdAt
      · split
        · exact .ite (.andThen steps_clearJudged.mono steps_runControl) (.andThen (.andThen steps_clearJudged.mono steps_holdAt) steps_modCon)
        · exact .andThen steps_clearJudged.mono steps_runControl
    · split
      · exact steps_holdAt.mono
      · split
        · exact .ite (.andThen (.andThen steps_enter steps_advance) steps_modCon) (.andThen steps_enter steps_advance)
        · exact .andThen steps_enter steps_advance

theorem steps_take {x : VerbIn} {s : State} :
    Steps [.free, .mem, .health, .consists, .sems, .pools, .casts, .od, .ctr, .parts, .qps, .ports, .pow] s (take x s) := by
  unfold take
  exact .ite .refl (.ite steps_setCon.mono steps_reach)

theorem steps_resume {k : Nat} {s : State} :
    Steps [.free, .mem, .health, .consists, .sems, .pools, .casts, .od, .ctr, .parts, .qps, .ports, .pow] s (resume k s) := by
  unfold resume
  exact .andThen (.foldl steps_modCon.mono fun _ _ => steps_take) steps_finishCheck

theorem steps_slotReady {k : Nat} {s : State} :
    Steps [.free, .mem, .health, .consists, .sems, .pools, .casts, .od, .ctr, .parts, .qps, .ports, .pow] s (slotReady k s) := by
  unfold slotReady
  dsimp only
  split
  · exact .ite steps_resume .refl
  · exact .refl

theorem steps_settle {k : Nat} {s : State} :
    Steps [.free, .mem, .health, .consists, .sems, .pools, .casts, .od, .ctr, .parts, .qps, .ports, .pow] s (settle k s) := by
  unfold settle
  dsimp only
  refine .andThen (.andThen (.andThen ?_ steps_slotReady) steps_finishCheck) steps_markWaits
  split
  · exact .andThen (.ite (.ite (.andThen (.andThen (.andThen steps_sidingFeed steps_sidingSweep) steps_drainWork) steps_resume) (.andThen
      (.andThen steps_sidingFeed steps_sidingSweep) steps_drainWork)) (.andThen steps_sidingFeed steps_sidingSweep)) steps_tryVote
  · exact .ite (.ite (.andThen (.andThen (.andThen steps_sidingFeed steps_sidingSweep) steps_drainWork) steps_resume) (.andThen
      (.andThen steps_sidingFeed steps_sidingSweep) steps_drainWork)) (.andThen steps_sidingFeed steps_sidingSweep)

theorem steps_finishVerb {k : Nat} {e : VEntry} {st : Nat} {parts : List (Option Status)} {origin : Option (Nat × Nat)} {s : State} :
    Steps [.free, .mem, .health, .consists, .sems, .pools, .casts, .od, .ctr, .parts, .qps, .ports, .pow] s (finishVerb k e st parts origin s) := by
  unfold finishVerb
  exact .andThen (.andThen (.andThen (.andThen steps_modCon.mono steps_endToken) steps_errorToken) steps_sidingNote) steps_settle

theorem steps_tokenPost {k vi : Nat} {s : State} :
    Steps [.free, .mem, .health, .consists, .sems, .pools, .casts, .od, .ctr, .parts, .qps, .ports, .pow] s (tokenPost k vi s) := by
  unfold tokenPost
  split
  · exact .refl
  · dsimp only
    split
    · exact .refl
    · split
      · split
        · split
          · split
            · exact .andThen (.andThen steps_bumpFree.mono steps_setPhase) steps_endVerb
            · exact .trans steps_bumpFree.mono (steps_underEcc (fun _ => .andThen steps_modVerb.mono steps_gatherPhase))
          · exact .ite (.ite (.trans steps_bumpFree.mono (steps_underEcc (fun _ => steps_collFinish.mono))) steps_bumpFree.mono) (.andThen
              (.andThen (.ite (.trans steps_bumpFree.mono (steps_underEcc
              (fun _ => steps_collFinish.mono))) steps_bumpFree.mono) steps_bufferToken) steps_finishVerb)
        · split
          · split
            · exact .andThen steps_setPhase.mono steps_endVerb
            · exact steps_underEcc (fun _ => .andThen steps_modVerb.mono steps_gatherPhase)
          · exact .ite (.ite (steps_underEcc (fun _ => steps_collFinish.mono)) .refl) (.andThen (.andThen (.ite (steps_underEcc
              (fun _ => steps_collFinish.mono)) .refl) steps_bufferToken) steps_finishVerb)
      · exact .andThen (.ite steps_bumpFree.mono .refl) steps_finishVerb

theorem steps_broadcastGo {k : Nat} {s : State} :
    Steps [.free, .mem, .health, .consists, .sems, .pools, .casts, .od, .ctr, .parts, .qps, .ports, .pow] s (broadcastGo k s) := by
  unfold broadcastGo
  exact .andThen (.andThen (.ite steps_resume .refl) steps_sidingFeed) steps_sidingSweep

theorem steps_releaseBoundaries {s : State} :
    Steps [.free, .mem, .health, .consists, .sems, .pools, .casts, .od, .ctr, .parts, .qps, .ports, .pow] s (releaseBoundaries s) := by
  unfold releaseBoundaries
  exact .ite .refl (.foldl .refl fun _ _ => (.ite steps_resume .refl))

theorem steps_boundary {s : State} {n : Nat} {draws : List Nat} :
    Steps [.free, .mem, .health, .consists, .sems, .time, .pools, .casts, .depot, .od, .ctr, .parts, .qps, .ports, .pow] s
        (boundary s n draws) := by
  unfold boundary
  exact .foldl (.andThen (.andThen (.andThen (.andThen (.andThen (.andThen (.andThen
      (.andThen with_time.mono steps_countOverruns) with_pow) steps_recap) steps_depotSwap) steps_chooseClock) steps_sampleWindows) steps_releaseBoundaries) steps_countPaths) fun _ _ => steps_markWaits.mono

theorem leads_execDepotBackgroundOp {op : DepotBg} {us t : Nat} {s : State} :
    Leads [.now, .free, .depot, .od, .ctr] s (execDepotBackgroundOp op us t s) := by
  unfold execDepotBackgroundOp
  exact .guardWf steps_depotBackground

theorem leads_execDepotDisturbRefresh {block : Nat} {s : State} : Leads [.free, .depot, .ctr] s (execDepotDisturbRefresh block s) := by
  unfold execDepotDisturbRefresh
  exact .guardWf (.ite (steps_refresh (fun _ _ => .andThen (.andThen (.foldl .refl fun _ _ => steps_relocate.mono) with_depot) steps_bump)) .refl)

theorem leads_execDepotAgeRefresh {block : Nat} {s : State} : Leads [.free, .depot, .ctr] s (execDepotAgeRefresh block s) := by
  unfold execDepotAgeRefresh
  exact .guardWf (.ite (steps_refresh (fun _ _ => steps_relocate.mono)) .refl)

theorem leads_execDepotWriteResume {channel : Nat} {s : State} : Leads [.pools, .depot] s (execDepotWriteResume channel s) := by
  unfold execDepotWriteResume
  exact .guardWf (.ite .refl (.foldl with_depot.mono fun _ _ => steps_setPool.mono))

theorem leads_execInflectorWalkEnd {k handle : Nat} {s : State} : Leads [.consists] s (execInflectorWalkEnd k handle s) := by
  unfold execInflectorWalkEnd
  refine .guardWf ?_
  split
  · exact .ite (.andThen steps_modCon steps_markWaits) .refl
  · exact .refl

theorem leads_execUpdateShardCheck {p shard : Nat} {s : State} :
    Leads [.mem, .health, .consists, .od, .ctr, .parts, .pow] s (execUpdateShardCheck p shard s) := by
  unfold execUpdateShardCheck
  exact .guardWf steps_updateShardCheck

theorem leads_execDecisionApply {p : Nat} {s : State} :
    Leads [.free, .mem, .health, .consists, .sems, .pools, .casts, .depot, .od, .ctr, .parts, .qps, .ports, .queues, .link, .pow, .out] s
        (execDecisionApply p s) := by
  unfold execDecisionApply
  exact .guardWf steps_applyDecision

theorem leads_execRollback {p : Nat} {s : State} :
    Leads [.free, .mem, .health, .consists, .sems, .pools, .casts, .depot, .od, .ctr, .parts, .qps, .ports, .queues, .link, .pow, .out] s
        (execRollback p s) := by
  unfold execRollback
  exact .guardWf (.ite steps_rollback .refl)

theorem leads_execStepWaitExpiry {p : Nat} {s : State} : Leads [.consists, .sems, .od, .ctr, .parts, .qps, .ports] s (execStepWaitExpiry p s) := by
  unfold execStepWaitExpiry
  refine .guardWf ?_
  split
  · exact .refl
  · split
    · exact .refl
    · split
      · exact steps_decideAttempt.mono
      · split
        · exact .ite steps_decide' .refl
        · exact .refl

theorem leads_execInDoubtEntry {p : Nat} {s : State} : Leads [.od, .ctr, .queues, .link, .out] s (execInDoubtEntry p s) := by
  unfold execInDoubtEntry
  refine .guardWf ?_
  split
  · exact .ite (.andThen (.andThen steps_odSet.mono steps_bump) steps_event) .refl
  · exact .refl

theorem leads_execInDoubtResolve {who : Who} {p v : Nat} {s : State} : Leads [.od, .ctr, .parts, .book, .out] s (execInDoubtResolve who p v s) := by
  unfold execInDoubtResolve
  exact .guardWf (steps_dictWrite (fun _ => steps_modStep.mono))

theorem leads_execHoldDecision {who : Who} {p v : Nat} {s : State} :
    Leads [.consists, .sems, .od, .ctr, .parts, .qps, .ports, .book, .out] s (execHoldDecision who p v s) := by
  unfold execHoldDecision
  refine .guardWf (steps_dictWrite (fun _ => ?_))
  split
  · exact .ite (.andThen steps_modStep.mono steps_revisedArrive) (.andThen steps_modStep.mono steps_sendRecord)
  · exact .refl

theorem leads_execShardApplyEnd {p shard : Nat} {ecc : Ecc} {s : State} :
    Leads [.free, .mem, .health, .consists, .sems, .od, .ctr, .parts, .qps, .ports] s (execShardApplyEnd p shard ecc s) := by
  unfold execShardApplyEnd
  exact .guardWf (.ite .refl (.andThen steps_shardApply.mono steps_castOwed))

theorem leads_execBlockDispatch {die : Nat} {ecc : Ecc} {s : State} :
    Leads [.mem, .health, .consists, .sems, .pools, .casts, .depot, .od, .ctr, .parts, .qps, .ports, .pow] s (execBlockDispatch die ecc s) := by
  unfold execBlockDispatch
  exact .guardWf (.andThen steps_dispatch.mono steps_castOwed)

theorem leads_execBlockComplete {die id : Nat} {receivers : List Nat} {s : State} :
    Leads [.free, .mem, .health, .consists, .sems, .pools, .casts, .depot, .od, .ctr, .parts, .qps, .ports, .pow] s
        (execBlockComplete die id receivers s) := by
  unfold execBlockComplete
  exact .guardWf (.andThen steps_complete.mono steps_castOwed)

theorem leads_execMulticastUncouple {s : State} :
    Leads [.free, .mem, .health, .consists, .sems, .pools, .casts, .od, .ctr, .parts, .qps, .ports] s (execMulticastUncouple s) := by
  unfold execMulticastUncouple
  exact .next (.andThen steps_castSample.mono steps_castOwed)

theorem leads_verb {h : VerbHdr} {v : Verb} {s : State} :
    Leads [.free, .mem, .health, .consists, .sems, .pools, .casts, .od, .ctr, .parts, .qps, .ports, .pow] s (verb h v s) := by
  unfold verb
  exact .guardWf (.andThen steps_take steps_finishCheck)

theorem leads_execVerbIssue {k core cycles : Nat} {s : State} :
    Leads [.free, .mem, .health, .consists, .sems, .pools, .casts, .od, .ctr, .parts, .qps, .ports, .pow] s (execVerbIssue k core cycles s) := by
  unfold execVerbIssue
  refine .guardWf (.ite steps_bump.mono ?_)
  split
  · exact .andThen (.andThen steps_bump.mono steps_issueOne) steps_markWaits
  · exact steps_bump.mono

theorem leads_execVerbTokenPost {k vi : Nat} {s : State} :
    Leads [.free, .mem, .health, .consists, .sems, .pools, .casts, .od, .ctr, .parts, .qps, .ports, .pow] s (execVerbTokenPost k vi s) := by
  unfold execVerbTokenPost
  exact .guardWf steps_tokenPost

theorem leads_execBroadcastResume {k cycles : Nat} {s : State} :
    Leads [.free, .mem, .health, .consists, .sems, .pools, .casts, .od, .ctr, .parts, .qps, .ports, .pow] s (execBroadcastResume k cycles s) := by
  unfold execBroadcastResume
  refine .guardWf (.ite .refl ?_)
  split
  · exact .andThen steps_sidingFeed steps_sidingSweep
  · exact .ite .refl (.andThen (.andThen steps_bump.mono steps_modCon) steps_broadcastGo)

theorem leads_execControlVerbRelease {k : Nat} {s : State} :
    Leads [.free, .mem, .health, .consists, .sems, .pools, .casts, .od, .ctr, .parts, .qps, .ports, .pow] s (execControlVerbRelease k s) := by
  unfold execControlVerbRelease
  refine .guardWf ?_
  split
  · exact .ite .refl (.ite steps_settle steps_resume)
  · exact .refl

theorem leads_execSidingEntryStart {k idle left : Nat} {s : State} :
    Leads [.free, .mem, .health, .consists, .sems, .pools, .casts, .od, .ctr, .parts, .qps, .ports, .pow] s
        (execSidingEntryStart k idle left s) := by
  unfold execSidingEntryStart
  refine .guardWf (.ite .refl ?_)
  split
  · exact .andThen steps_sidingRun steps_settle
  · exact .refl

theorem leads_execTickChangeAtWrite {who : Who} {v : Nat} {s : State} :
    Leads [.time, .od, .ctr, .book, .out] s (execTickChangeAtWrite who v s) := by
  unfold execTickChangeAtWrite
  exact .guardWf (steps_dictWrite (fun _ => .andThen steps_odSet.mono with_time))

theorem leads_execTickEpochWrite {who : Who} {v : Nat} {s : State} : Leads [.time, .od, .ctr, .book, .out] s (execTickEpochWrite who v s) := by
  unfold execTickEpochWrite
  exact .guardWf (steps_dictWrite (fun _ => .andThen (.andThen with_time.mono steps_odSet) with_time))

theorem leads_execTickChange {s : State} : Leads [.time, .od] s (execTickChange s) := by
  unfold execTickChange
  refine .next ?_
  split
  · exact .ite .refl (.andThen (.andThen (.andThen steps_odSet.mono steps_odSet) with_time) steps_setCyclesPerTick)
  · exact .refl

theorem leads_execAlignmentRegain {t : Nat} {s : State} : Leads [.now, .time, .od] s (execAlignmentRegain t s) := by
  unfold execAlignmentRegain
  dsimp only
  refine .next ?_
  split
  · exact .ite (.andThen (.andThen steps_atTime.mono steps_odSet) with_time) steps_atTime.mono
  · exact steps_atTime.mono

theorem leads_execTimeStep {t : Nat} {s : State} : Leads [.now, .time, .od, .ctr] s (execTimeStep t s) := by
  unfold execTimeStep
  dsimp only
  refine .next ?_
  split
  · split
    · exact steps_atTime.mono
    · split
      · exact .ite (.andThen (.andThen (.andThen steps_atTime.mono with_time) steps_odSet) steps_bump) (.andThen (.andThen (.andThen (.andThen
          (.andThen (.andThen steps_atTime.mono with_time) steps_odSet) steps_bump) steps_countOverruns) with_time) steps_bump)
      · exact .andThen (.andThen (.andThen steps_atTime.mono with_time) steps_odSet) steps_bump
  · exact steps_atTime.mono

theorem leads_execPtpSyncRx {m : PtpMsg} {s : State} : Leads [.now, .time, .od, .ctr] s (execPtpSyncRx m s) := by
  unfold execPtpSyncRx
  exact .guardWf (.ite (.andThen steps_atTime.mono steps_bump) (.ite (.andThen (.andThen steps_atTime.mono steps_bump) steps_ptpBad) (.ite
      (.andThen steps_atTime.mono steps_bump) (.ite (.andThen (.andThen (.andThen steps_atTime.mono steps_bump) with_time) with_time) (.andThen
      (.andThen (.andThen steps_atTime.mono steps_bump) with_time) steps_ptpMeasure)))))

theorem leads_execPtpFollowUpRx {m : PtpMsg} {s : State} : Leads [.time, .od, .ctr] s (execPtpFollowUpRx m s) := by
  unfold execPtpFollowUpRx
  refine .guardWf (.ite .refl (.ite steps_ptpBad.mono ?_))
  split
  · exact .ite (.andThen with_time.mono steps_ptpMeasure) .refl
  · exact .refl

theorem leads_execPtpAnnounceRx {m : PtpAnnounce} {s : State} : Leads [.time, .ctr] s (execPtpAnnounceRx m s) := by
  unfold execPtpAnnounceRx
  exact .guardWf (.ite .refl (.ite steps_ptpBad.mono with_time.mono))

theorem leads_execPtpDelayReqTx {t : Nat} {s : State} : Leads [.now, .time, .ctr, .out] s (execPtpDelayReqTx t s) := by
  unfold execPtpDelayReqTx
  exact .next (.ite steps_atTime.mono (.andThen (.andThen (.andThen steps_atTime.mono with_time) steps_bump) steps_emit))

theorem leads_execPtpDelayRespRx {m : PtpMsg} {s : State} : Leads [.time, .ctr] s (execPtpDelayRespRx m s) := by
  unfold execPtpDelayRespRx
  refine .guardWf (.ite .refl (.ite steps_ptpBad.mono ?_))
  split
  · exact .ite with_time.mono .refl
  · exact .refl

theorem leads_execPtpSyncTimeout {t : Nat} {s : State} : Leads [.now, .time, .od, .ctr] s (execPtpSyncTimeout t s) := by
  unfold execPtpSyncTimeout
  dsimp only
  refine .next ?_
  split
  · exact .ite (.andThen steps_atTime.mono steps_sourceLost) steps_atTime.mono
  · exact steps_atTime.mono

theorem leads_execTodFrame {bytes : List Byte} {t : Nat} {s : State} : Leads [.now, .time, .ctr] s (execTodFrame bytes t s) := by
  unfold execTodFrame
  exact .next (.ite steps_atTime.mono (.ite (.andThen steps_atTime.mono steps_bump) (.andThen (.andThen steps_atTime.mono steps_bump) with_time)))

theorem leads_execPpsEdge {t : Nat} {s : State} : Leads [.now, .time, .od, .ctr] s (execPpsEdge t s) := by
  unfold execPpsEdge
  dsimp only
  refine .next (.ite steps_atTime.mono ?_)
  split
  · exact .andThen (.andThen steps_atTime.mono with_time) steps_applyOffset
  · exact .andThen steps_atTime.mono with_time

theorem leads_execPpsMissing {t : Nat} {s : State} : Leads [.now, .time, .od, .ctr] s (execPpsMissing t s) := by
  unfold execPpsMissing
  exact .next (.ite steps_atTime.mono (.ite (.andThen (.andThen (.andThen steps_atTime.mono with_time) steps_bump) steps_sourceLost) (.andThen
      (.andThen steps_atTime.mono with_time) steps_bump)))

theorem leads_execSlotStart {k : Nat} {s : State} :
    Leads [.free, .mem, .health, .consists, .sems, .pools, .casts, .od, .ctr, .parts, .qps, .ports, .pow] s (execSlotStart k s) := by
  unfold execSlotStart
  refine .guardWf ?_
  dsimp only
  split
  · exact .ite .refl (.andThen (.andThen (.andThen steps_bump.mono steps_bump) steps_modCon) steps_resume)
  · exact .refl

theorem leads_execSlotComplete {k busy wait : Nat} {s : State} :
    Leads [.free, .mem, .health, .consists, .sems, .pools, .casts, .od, .ctr, .parts, .qps, .ports, .pow] s (execSlotComplete k busy wait s) := by
  unfold execSlotComplete
  refine .guardWf ?_
  dsimp only
  split
  · exact .refl
  · exact .ite .refl (.andThen (.andThen (.andThen steps_slotRecord.mono steps_bump) steps_bump) steps_slotReady)

theorem leads_execDeadlockSearch {s : State} :
    Leads [.free, .mem, .health, .consists, .sems, .od, .ctr, .parts, .qps, .ports, .queues, .link, .out] s (execDeadlockSearch s) := by
  unfold execDeadlockSearch
  exact .next (.foldl .refl fun _ _ => steps_lockStop)

theorem leads_execHrtWriteRx {f : HrtFrame} {s : State} :
    Leads [.now, .mem, .health, .consists, .sems, .od, .ctr, .parts, .qps, .ports, .chans, .queues, .link, .pow, .out] s (execHrtWriteRx f s) := by
  unfold execHrtWriteRx
  exact .guardWf (steps_hrtFrame (fun _ _ => steps_sequenced (fun _ _ => steps_applyData.mono)))

theorem leads_execHrtAddRx {f : HrtFrame} {s : State} :
    Leads [.now, .mem, .health, .consists, .sems, .od, .ctr, .parts, .qps, .ports, .chans, .queues, .link, .pow, .out] s (execHrtAddRx f s) := by
  unfold execHrtAddRx
  exact .guardWf (steps_hrtFrame (fun _ _ => steps_sequenced (fun _ _ => steps_applyData.mono)))

theorem leads_execHrtWindowWriteRx {f : HrtFrame} {s : State} :
    Leads [.now, .mem, .health, .consists, .sems, .od, .ctr, .parts, .qps, .ports, .chans, .queues, .link, .pow, .out] s
        (execHrtWindowWriteRx f s) := by
  unfold execHrtWindowWriteRx
  exact .guardWf (steps_hrtFrame (fun _ _ => steps_sequenced (fun _ _ => steps_applyData.mono)))

theorem leads_execVoteRx {f : HrtFrame} {s : State} :
    Leads [.now, .consists, .sems, .od, .ctr, .parts, .qps, .ports, .chans, .queues, .link, .out] s (execVoteRx f s) := by
  unfold execVoteRx
  exact .guardWf (steps_controlFrame (fun _ => .ite steps_voteArrive.mono .refl))

theorem leads_execDecisionRx {f : HrtFrame} {s : State} :
    Leads [.now, .consists, .sems, .od, .ctr, .parts, .qps, .ports, .chans, .queues, .link, .out] s (execDecisionRx f s) := by
  unfold execDecisionRx
  exact .guardWf (steps_controlFrame (fun _ => .ite steps_decisionArrive.mono .refl))

theorem leads_execRevisedVoteRx {f : HrtFrame} {s : State} :
    Leads [.now, .consists, .sems, .od, .ctr, .parts, .qps, .ports, .chans, .queues, .link, .out] s (execRevisedVoteRx f s) := by
  unfold execRevisedVoteRx
  exact .guardWf (steps_controlFrame (fun _ => .ite steps_revisedArrive.mono .refl))

theorem leads_execBufferFreeRx {f : HrtFrame} {s : State} :
    Leads [.now, .consists, .sems, .od, .ctr, .parts, .qps, .ports, .chans, .queues, .link, .out] s (execBufferFreeRx f s) := by
  unfold execBufferFreeRx
  exact .guardWf (steps_controlFrame (fun _ => .andThen steps_modPart.mono steps_retrySends))

theorem leads_execHrtAckRx {f : HrtFrame} {s : State} :
    Leads [.now, .consists, .od, .ctr, .parts, .qps, .ports, .chans, .queues, .link, .out] s (execHrtAckRx f s) := by
  unfold execHrtAckRx
  exact .guardWf (steps_hrtFrame (fun _ _ => steps_ackArrived.mono))

theorem leads_execHrtAckDelay {q : Nat} {s : State} : Leads [.ctr, .qps, .ports] s (execHrtAckDelay q s) := by
  unfold execHrtAckDelay
  refine .guardWf ?_
  split
  · exact .ite steps_sendAck .refl
  · exact .refl

theorem leads_execHrtRtoExpiry {q psn t : Nat} {s : State} : Leads [.now, .consists, .od, .ctr, .qps, .ports] s (execHrtRtoExpiry q psn t s) := by
  unfold execHrtRtoExpiry
  dsimp only
  refine .guardWf ?_
  split
  · exact steps_atTime.mono
  · split
    · exact steps_atTime.mono
    · exact .ite (.andThen (.andThen steps_atTime.mono steps_retransmit) steps_pumpAgain) steps_atTime.mono

theorem leads_execPartnerTimeout {q t : Nat} {s : State} : Leads [.now, .consists, .od, .ctr, .qps, .ports] s (execPartnerTimeout q t s) := by
  unfold execPartnerTimeout
  exact .guardWf (.ite (.andThen (.andThen steps_atTime.mono steps_peerAbsent) steps_endBlocked) steps_atTime.mono)

theorem leads_execPeerSlowDetect {q : Nat} {s : State} : Leads [.od, .ctr, .qps] s (execPeerSlowDetect q s) := by
  unfold execPeerSlowDetect
  exact .guardWf (.ite (.andThen (.andThen steps_setQp.mono steps_bump) steps_slowBit) .refl)

theorem leads_execPeerQuarantineClear {who : Who} {p i : Nat} {s : State} :
    Leads [.od, .ctr, .parts, .book, .out] s (execPeerQuarantineClear who p i s) := by
  unfold execPeerQuarantineClear
  exact .guardWf (steps_dictWrite (fun _ => .ite steps_modPart.mono .refl))

theorem leads_execKeyOfferRx {o : KeyOffer} {s : State} : Leads [.now, .od, .ctr, .ports, .chans] s (execKeyOfferRx o s) := by
  unfold execKeyOfferRx
  dsimp only
  refine .guardWf (.trans steps_atTime.mono (steps_keyFrame (fun _ _ => .ite .refl (.ite .refl ?_))))
  split
  · exact steps_bump.mono
  · exact .andThen steps_installSas.mono steps_sendKey

theorem leads_execKeyAcceptRx {o : KeyAccept} {s : State} : Leads [.now, .consists, .od, .ctr, .qps, .chans] s (execKeyAcceptRx o s) := by
  unfold execKeyAcceptRx
  dsimp only
  refine .guardWf (.trans steps_atTime.mono (steps_keyFrame (fun _ _ => ?_)))
  split
  · exact .refl
  · exact .ite .refl (.ite steps_installSas.mono steps_keyFailed.mono)

theorem leads_execKeyAcceptTimeout {p n peer t : Nat} {s : State} :
    Leads [.now, .free, .consists, .ctr, .qps, .ports, .chans] s (execKeyAcceptTimeout p n peer t s) := by
  unfold execKeyAcceptTimeout
  dsimp only
  refine .guardWf ?_
  split
  · exact .ite steps_atTime.mono (.ite (.andThen steps_atTime.mono steps_sendOffer) (.andThen steps_atTime.mono steps_keyFailed))
  · exact steps_atTime.mono

theorem leads_execLinkDown {n : Nat} {s : State} : Leads [.od, .ctr, .ports, .out] s (execLinkDown n s) := by
  unfold execLinkDown
  exact .guardWf (.ite steps_mgmtDown.mono steps_linkDown)

theorem leads_execLinkUp {n : Nat} {s : State} : Leads [.od, .ctr, .qps, .ports] s (execLinkUp n s) := by
  unfold execLinkUp
  exact .guardWf (.ite steps_setPort.mono steps_linkUp)

theorem leads_execCageModeWrite {who : Who} {v : Nat} {s : State} : Leads [.od, .ctr, .ports, .book, .out] s (execCageModeWrite who v s) := by
  unfold execCageModeWrite
  exact .guardWf (steps_dictWrite (fun _ => .andThen (.andThen (.foldl .refl fun _ _ =>
      (.andThen steps_linkDown.mono steps_linkDown)) steps_odSet) steps_odSet))

theorem leads_execPortEnableWrite {who : Who} {n v : Nat} {s : State} :
    Leads [.od, .ctr, .ports, .book, .out] s (execPortEnableWrite who n v s) := by
  unfold execPortEnableWrite
  exact .guardWf (steps_dictWrite (fun _ => .ite (.andThen steps_odSet.mono steps_linkDown) steps_odSet.mono))

theorem leads_execPauseRx {n quanta : Nat} {s : State} : Leads [.ctr, .ports] s (execPauseRx n quanta s) := by
  unfold execPauseRx
  exact .guardWf steps_pauseRx

theorem leads_execPfcRx {n classes : Nat} {quanta : List Nat} {s : State} : Leads [.ctr, .ports] s (execPfcRx n classes quanta s) := by
  unfold execPfcRx
  exact .guardWf steps_pfcRx

theorem leads_execPauseQuantaExpiry {n : Nat} {s : State} : Leads [.ports] s (execPauseQuantaExpiry n s) := by
  unfold execPauseQuantaExpiry
  refine .guardWf ?_
  split
  · exact .ite steps_setPort .refl
  · exact .refl

theorem leads_execPauseRefresh {n shared reserved : Nat} {s : State} : Leads [.ctr, .ports, .out] s (execPauseRefresh n shared reserved s) := by
  unfold execPauseRefresh
  exact .guardWf (.ite .refl (.ite (.ite (.ite steps_sendPause .refl) (.ite (.andThen steps_setPort.mono steps_sendPause) .refl)) steps_pauseStart))

theorem leads_execFrameRx {n : Nat} {f : RxFrame} {s : State} : Leads [.free, .ctr, .ports, .chans, .out] s (execFrameRx n f s) := by
  unfold execFrameRx
  exact .guardWf (.ite steps_mgmtRx.mono (.ite .refl (.ite (.andThen (.andThen (.andThen
      (.andThen steps_bump.mono steps_bump) steps_bump) steps_pauseStart) steps_bump) (.ite (.andThen (.andThen (.andThen
      (.andThen steps_bump.mono steps_bump) steps_bump) steps_pauseStart) steps_bump) (.ite (.andThen (.andThen (.andThen
      (.andThen steps_bump.mono steps_bump) steps_bump) steps_pauseStart) steps_bump) (.ite (.andThen (.andThen (.andThen
      (.andThen steps_bump.mono steps_bump) steps_bump) steps_pauseStart) steps_bump) (.ite (.andThen (.andThen (.andThen
      (.andThen steps_bump.mono steps_bump) steps_bump) steps_pauseStart) steps_bump) (.andThen (.andThen (.andThen
      (.andThen steps_bump.mono steps_bump) steps_bump) steps_pauseStart) steps_macRx))))))))

theorem leads_execFrameTx {n t : Nat} {s : State} : Leads [.now, .free, .ctr, .qps, .ports, .chans, .out] s (execFrameTx n t s) := by
  unfold execFrameTx
  exact .guardWf (.andThen steps_atTime.mono steps_frameTx)

theorem leads_execJobMapAddrWrite {who : Who} {p addr : Nat} {s : State} :
    Leads [.free, .consists, .od, .ctr, .parts, .qps, .ports, .chans, .hrtNext, .book, .out] s (execJobMapAddrWrite who p addr s) := by
  unfold execJobMapAddrWrite
  exact .guardWf (steps_dictWrite (fun _ => steps_latchJob.mono))

theorem leads_execPathShadowLoad {who : Who} {p addr : Nat} {s : State} :
    Leads [.od, .ctr, .parts, .book, .out] s (execPathShadowLoad who p addr s) := by
  unfold execPathShadowLoad
  exact .guardWf (steps_dictWrite (fun _ => steps_loadPaths.mono))

theorem leads_execPointsSwap {p : Nat} {s : State} : Leads [.consists, .od, .ctr, .parts] s (execPointsSwap p s) := by
  unfold execPointsSwap
  refine .guardWf ?_
  split
  · exact .refl
  · exact .ite .refl (.ite (.andThen (.andThen (.andThen (.andThen
      (.andThen steps_modPart.mono steps_odSet) steps_odSet) steps_bump) steps_pointsNext) steps_endVerb) (.andThen
      (.andThen steps_modPart.mono steps_odSet) steps_bump))

theorem leads_execWindowTableSwap {p : Nat} {s : State} : Leads [.consists, .od, .parts] s (execWindowTableSwap p s) := by
  unfold execWindowTableSwap
  exact .guardWf (.ite .refl (.foldl (.andThen steps_setPart.mono steps_odSet) fun _ _ => steps_endVerb.mono))

theorem leads_execLayerTableAddrWrite {who : Who} {p addr : Nat} {s : State} :
    Leads [.mem, .health, .od, .ctr, .parts, .book, .out] s (execLayerTableAddrWrite who p addr s) := by
  unfold execLayerTableAddrWrite
  exact .guardWf (steps_dictWrite (fun _ => .andThen (.andThen steps_odSet.mono steps_modStep) steps_layerTableReset))

theorem leads_execManifestFetch {q : Nat} {bytes : List Byte} {s : State} : Leads [.ctr, .queues, .out] s (execManifestFetch q bytes s) := by
  unfold execManifestFetch
  exact .guardWf (.ite .refl (.andThen steps_emit.mono steps_fetchSlots))

theorem leads_execManifestReread {q : Nat} {bytes : List Byte} {s : State} :
    Leads [.ctr, .queues, .link, .out] s (execManifestReread q bytes s) := by
  unfold execManifestReread
  refine .guardWf ?_
  dsimp only
  split
  · exact .refl
  · exact .ite .refl (.ite (.andThen (.andThen steps_emit.mono steps_bump) steps_fetched) (.ite (.andThen
      (.andThen steps_emit.mono steps_bump) steps_setQueue) (.andThen (.andThen (.andThen steps_emit.mono steps_bump) steps_queueStop) steps_bump)))

theorem leads_execManifestNop {q seq : Nat} {s : State} : Leads [.ctr, .queues] s (execManifestNop q seq s) := by
  unfold execManifestNop
  refine .guardWf (steps_runManifest (fun _ _ => ?_))
  dsimp only
  exact .refl

theorem leads_execImageLoad {q seq : Nat} {img : Image} {s : State} :
    Leads [.mem, .health, .consists, .sems, .pools, .casts, .od, .ctr, .queues] s (execImageLoad q seq img s) := by
  unfold execImageLoad
  refine .guardWf (steps_runManifest (fun _ _ => ?_))
  dsimp only
  split
  · dsimp only
    exact .refl
  · dsimp only
    exact .foldl (.foldl steps_noteImage.mono fun _ _ => steps_loadConsist.mono) fun _ _ => steps_declare.mono

theorem leads_execConsistControlStart {q seq : Nat} {s : State} :
    Leads [.free, .mem, .health, .consists, .pools, .casts, .od, .ctr, .queues] s (execConsistControlStart q seq s) := by
  unfold execConsistControlStart
  exact .guardWf steps_control

theorem leads_execConsistControlRestart {q seq : Nat} {s : State} :
    Leads [.free, .mem, .health, .consists, .pools, .casts, .od, .ctr, .queues] s (execConsistControlRestart q seq s) := by
  unfold execConsistControlRestart
  exact .guardWf steps_control

theorem leads_execConsistControlStop {q seq : Nat} {s : State} :
    Leads [.free, .mem, .health, .consists, .pools, .casts, .od, .ctr, .queues] s (execConsistControlStop q seq s) := by
  unfold execConsistControlStop
  exact .guardWf steps_control

theorem leads_execConsistControlUnload {q seq : Nat} {s : State} :
    Leads [.free, .mem, .health, .consists, .pools, .casts, .od, .ctr, .queues] s (execConsistControlUnload q seq s) := by
  unfold execConsistControlUnload
  exact .guardWf steps_control

theorem leads_execNounWrite {q seq : Nat} {image : Noun} {s : State} : Leads [.consists, .ctr, .queues] s (execNounWrite q seq image s) := by
  unfold execNounWrite
  refine .guardWf (steps_runManifest (fun _ _ => ?_))
  split
  · dsimp only
    exact .refl
  · dsimp only
    exact steps_putNoun.mono

theorem leads_execSemDeclare {q seq : Nat} {s : State} : Leads [.consists, .sems, .ctr, .queues] s (execSemDeclare q seq s) := by
  unfold execSemDeclare
  refine .guardWf (steps_runManifest (fun _ _ => .andThen ?_ steps_declare))
  exact .refl

theorem leads_execManifestSemReset {q seq : Nat} {s : State} : Leads [.consists, .sems, .ctr, .queues] s (execManifestSemReset q seq s) := by
  unfold execManifestSemReset
  refine .guardWf (steps_runManifest (fun _ _ => .andThen ?_ steps_semReset))
  exact .refl

theorem leads_execManifestCopy {q seq : Nat} {data : List Byte} {ecc : Ecc} {s : State} :
    Leads [.free, .mem, .health, .od, .ctr, .queues, .link, .pow, .out] s (execManifestCopy q seq data ecc s) := by
  unfold execManifestCopy
  refine .guardWf (steps_runManifest fun p b => ?_)
  refine .pair (.foldlFst (.pair .refl) fun y r => ?_)
  split
  exact .pair (.of_eq steps_copyPart.mono ‹_›)

theorem leads_execDepotRead {q seq : Nat} {ecc : Ecc} {s : State} :
    Leads [.mem, .health, .depot, .od, .ctr, .queues, .pow] s (execDepotRead q seq ecc s) := by
  unfold execDepotRead
  refine .guardWf (steps_runManifest (fun _ _ => .foldlFst (.andThen ?_ steps_touchDepot) fun _ _ => ?_))
  · exact .refl
  · exact .andThen steps_depotReadBytes.mono steps_devWrite

theorem leads_execDepotWrite {q seq : Nat} {ecc : Ecc} {s : State} :
    Leads [.free, .mem, .health, .depot, .od, .ctr, .queues, .pow] s (execDepotWrite q seq ecc s) := by
  unfold execDepotWrite
  refine .guardWf (steps_runManifest (fun _ _ => ?_))
  split
  · split
    · dsimp only
      exact .refl
    · exact .andThen (.andThen steps_touchDepot.mono steps_depotWriteBlocks) steps_modStarted

theorem leads_execRuleLoad {q seq : Nat} {rule : RuleImage} {s : State} : Leads [.od, .ctr, .parts, .queues] s (execRuleLoad q seq rule s) := by
  unfold execRuleLoad
  refine .guardWf (steps_runManifest (fun _ _ => ?_))
  split
  · dsimp only
    exact .refl
  · dsimp only
    exact .andThen (.andThen steps_noteImage.mono steps_modStep) steps_odSet

theorem leads_execLayerWrite {q seq : Nat} {s : State} : Leads [.mem, .health, .od, .ctr, .parts, .queues] s (execLayerWrite q seq s) := by
  unfold execLayerWrite
  refine .guardWf (steps_runManifest (fun _ _ => ?_))
  split
  · dsimp only
    exact .refl
  · dsimp only
    exact steps_layerWrite.mono

theorem leads_execManifestComplete {q seq : Nat} {s : State} :
    Leads [.consists, .sems, .od, .ctr, .parts, .qps, .ports, .queues, .link, .out] s (execManifestComplete q seq s) := by
  unfold execManifestComplete
  refine .guardWf ?_
  dsimp only
  split
  · exact .refl
  · exact .andThen (.andThen (.andThen (.ite (.andThen (.ite (.andThen
      (.andThen steps_setQueue.mono steps_enginePost) steps_castOwed) steps_setQueue.mono) steps_castVote) (.ite (.andThen
      (.andThen steps_setQueue.mono steps_enginePost) steps_castOwed) steps_setQueue.mono)) steps_extendImage) steps_deliver) steps_drained

theorem leads_execDoorbellSqTail {q v : Nat} {s : State} : Leads [.ctr, .queues, .link, .out] s (execDoorbellSqTail q v s) := by
  unfold execDoorbellSqTail
  exact .guardWf steps_sqTail

theorem leads_execDoorbellCqHead {q v : Nat} {s : State} : Leads [.ctr, .queues, .link, .out] s (execDoorbellCqHead q v s) := by
  unfold execDoorbellCqHead
  exact .guardWf steps_cqHead

theorem leads_execQueueEnable {q : Nat} {s : State} : Leads [.od, .ctr, .queues, .link, .out] s (execQueueEnable q s) := by
  unfold execQueueEnable
  exact .guardWf steps_enableQueue

theorem leads_execQueueDisable {q : Nat} {s : State} : Leads [.od, .queues] s (execQueueDisable q s) := by
  unfold execQueueDisable
  exact .guardWf steps_disableQueue

theorem leads_execQueueDescriptorWrite {q off : Nat} {bytes : List Byte} {s : State} :
    Leads [.ctr, .queues] s (execQueueDescriptorWrite q off bytes s) := by
  unfold execQueueDescriptorWrite
  exact .guardWf steps_descWrite

theorem leads_execApertureDescriptorWrite {a : Nat} {bytes : List Byte} {s : State} :
    Leads [.ctr, .apertures] s (execApertureDescriptorWrite a bytes s) := by
  unfold execApertureDescriptorWrite
  exact .guardWf (.ite steps_bump.mono steps_apertureWrite.mono)

theorem leads_execHostReservedAccess {off len : Nat} {write : Bool} {s : State} :
    Leads [.ctr, .out] s (execHostReservedAccess off len write s) := by
  unfold execHostReservedAccess
  exact .guardWf (.ite steps_hostRefused .refl)

theorem leads_execLinkError {l t : Nat} {s : State} : Leads [.now, .od, .ctr, .link] s (execLinkError l t s) := by
  unfold execLinkError
  exact .guardWf (.ite steps_atTime.mono (.andThen (.andThen (.andThen steps_atTime.mono steps_odSet) steps_setLinkErr) steps_bump))

theorem leads_execLinkRetrainDone {l t : Nat} {s : State} : Leads [.now, .od, .ctr, .link, .out] s (execLinkRetrainDone l t s) := by
  unfold execLinkRetrainDone
  exact .guardWf (.ite steps_atTime.mono (.andThen (.andThen (.andThen
      (.andThen steps_atTime.mono steps_odSet) steps_setLinkErr) with_link) steps_replay))

theorem leads_execLinkRetryExpiry {t : Nat} {s : State} :
    Leads [.now, .free, .mem, .health, .consists, .sems, .od, .ctr, .parts, .qps, .ports, .queues, .link, .pow] s (execLinkRetryExpiry t s) := by
  unfold execLinkRetryExpiry
  exact .next (.ite (.ite (.andThen steps_atTime.mono steps_hostLoss) steps_atTime.mono) (.foldl steps_atTime.mono fun _ _ => (.ite
      (.andThen with_link.mono steps_bump) .refl)))

theorem leads_execHostRstAssert {t : Nat} {s : State} :
    Leads [.now, .free, .mem, .health, .consists, .sems, .od, .ctr, .parts, .qps, .ports, .queues, .link, .boot, .pow] s
        (execHostRstAssert t s) := by
  unfold execHostRstAssert
  exact .next (.ite (.andThen (.andThen (.andThen steps_atTime.mono steps_odSet) with_link) with_boot) (.andThen (.andThen
      (.andThen steps_atTime.mono steps_odSet) with_link) steps_hostLoss))

theorem with_link_sec {s : State} {x_link} {x_sec} : Steps [.link, .sec] s { s with link := x_link, sec := x_sec } := ⟨rfl, le_rfl, id⟩

theorem leads_execHostRstRelease {t : Nat} {s : State} : Leads [.now, .link, .sec] s (execHostRstRelease t s) := by
  unfold execHostRstRelease
  exact .next (.andThen steps_atTime.mono with_link_sec)

theorem with_consists {s : State} {x_consists} : Steps [.consists] s { s with consists := x_consists } := ⟨rfl, le_rfl, id⟩

theorem leads_execHoldQuiesce {s : State} : Leads [.consists, .link] s (execHoldQuiesce s) := by
  unfold execHoldQuiesce
  exact .next (.ite .refl (.andThen with_link.mono with_consists))

theorem leads_execHoldRecordWrite {s : State} : Leads [.depot, .od, .link] s (execHoldRecordWrite s) := by
  unfold execHoldRecordWrite
  exact .next (.ite .refl (.andThen (.andThen (.andThen with_link.mono steps_depotProgrammed) steps_moveDomains) steps_odSet))

theorem leads_execAdopt {epoch : Nat} {digest : List Byte} {s : State} : Leads [.od, .ctr, .link] s (execAdopt epoch digest s) := by
  unfold execAdopt
  exact .guardWf (.ite (.andThen (.andThen with_link.mono with_link) steps_bump) (.andThen with_link.mono steps_odSet))

theorem leads_execAdoptionEnd {s : State} :
    Leads [.free, .mem, .health, .consists, .sems, .od, .ctr, .parts, .qps, .ports, .queues, .link, .pow] s (execAdoptionEnd s) := by
  unfold execAdoptionEnd
  exact .next (.ite .refl (.ite (.andThen (.andThen (.andThen (.andThen (.andThen
      (.andThen steps_moveDomains.mono steps_odSet) steps_timersAfresh) with_link) steps_bump) steps_orphanAll) steps_beginHold) (.foldl (.andThen
      (.andThen (.andThen (.andThen steps_moveDomains.mono steps_odSet) steps_timersAfresh) with_link) steps_bump) fun _ _ => steps_pump.mono)))

theorem leads_execReAttach {s : State} : Leads [.od, .link] s (execReAttach s) := by
  unfold execReAttach
  exact .next (.ite (.andThen with_link.mono steps_odSet) with_link.mono)

theorem leads_execGrantObjectWrite {who : Who} {p sub : Nat} {val : OdVal} {s : State} :
    Leads [.od, .ctr, .parts, .book, .out] s (execGrantObjectWrite who p sub val s) := by
  unfold execGrantObjectWrite
  exact .guardWf (steps_dictWrite (fun _ => steps_putShadow.mono))

theorem leads_execVidWrite {who : Who} {p v : Nat} {s : State} : Leads [.od, .ctr, .parts, .book, .out] s (execVidWrite who p v s) := by
  unfold execVidWrite
  exact .guardWf (steps_dictWrite (fun _ => steps_putShadow.mono))

theorem leads_execPortMapWrite {who : Who} {p v : Nat} {s : State} : Leads [.od, .ctr, .parts, .book, .out] s (execPortMapWrite who p v s) := by
  unfold execPortMapWrite
  exact .guardWf (steps_dictWrite (fun _ => steps_putShadow.mono))

theorem leads_execGrantCommit {who : Who} {p : Nat} {s : State} : Leads [.od, .ctr, .parts, .book, .out] s (execGrantCommit who p s) := by
  unfold execGrantCommit
  exact .guardWf (.ite (.andThen (.andThen (.andThen (steps_dictWrite (fun _ =>
      .andThen steps_modPart.mono steps_odSet)) steps_modPart) steps_odSet) steps_bump) (steps_dictWrite (fun _ =>
      .andThen steps_modPart.mono steps_odSet)))

theorem leads_execGrantDiscard {who : Who} {p : Nat} {s : State} : Leads [.od, .ctr, .parts, .book, .out] s (execGrantDiscard who p s) := by
  unfold execGrantDiscard
  exact .guardWf (steps_dictWrite (fun _ => steps_modPart.mono))

theorem leads_execGrantRelease {who : Who} {p : Nat} {s : State} : Leads [.od, .ctr, .parts, .book, .out] s (execGrantRelease who p s) := by
  unfold execGrantRelease
  exact .guardWf (steps_dictWrite (fun _ => steps_beginRelease.mono))

theorem leads_execGrantForceRelease {who : Who} {p : Nat} {s : State} :
    Leads [.free, .mem, .health, .consists, .sems, .od, .ctr, .parts, .qps, .ports, .book, .out] s (execGrantForceRelease who p s) := by
  unfold execGrantForceRelease
  exact .guardWf (steps_dictWrite (fun _ => steps_forceRelease.mono))

theorem leads_execGrantSwap {p : Nat} {s : State} :
    Leads [.free, .mem, .health, .consists, .sems, .od, .ctr, .parts, .qps, .ports, .chans, .queues, .apertures, .sec, .book] s
        (execGrantSwap p s) := by
  unfold execGrantSwap
  exact .guardWf steps_swap

theorem leads_execGranuleScrub {tier : ScrubTier} {g : Nat} {s : State} :
    Leads [.mem, .health, .depot, .od, .ctr] s (execGranuleScrub tier g s) := by
  unfold execGranuleScrub
  exact .guardWf (.ite (.andThen steps_scrubGranule.mono with_health) .refl)

theorem leads_execGranuleScrubEnd {tier : ScrubTier} {g : Nat} {s : State} : Leads [.health, .od] s (execGranuleScrubEnd tier g s) := by
  unfold execGranuleScrubEnd
  exact .guardWf steps_leftDone

theorem leads_execConsistClearEnd {k : Nat} {s : State} :
    Leads [.mem, .health, .consists, .pools, .casts, .od, .ctr] s (execConsistClearEnd k s) := by
  unfold execConsistClearEnd
  exact .guardWf (.ite (.andThen (.andThen (.andThen steps_dropPending.mono steps_clearConsist) steps_bump) steps_leftDone) .refl)

theorem leads_execDepotPreserveSet {who : Who} {q : Nat} {s : State} : Leads [.depot, .od, .ctr, .book, .out] s (execDepotPreserveSet who q s) := by
  unfold execDepotPreserveSet
  exact .guardWf (steps_dictWrite (fun _ => .andThen (.andThen with_depot.mono steps_preservedCount) steps_freeCounts))

theorem leads_execDepotPreserveClear {who : Who} {q : Nat} {s : State} :
    Leads [.health, .depot, .od, .ctr, .book, .out] s (execDepotPreserveClear who q s) := by
  unfold execDepotPreserveClear
  exact .guardWf (steps_dictWrite (fun _ => .andThen (.ite (.andThen (.andThen with_depot.mono steps_preservedCount) with_health)
      (.andThen with_depot.mono steps_preservedCount)) steps_freeCounts))

theorem leads_execPatrolRead {addr : Nat} {ecc : Ecc} {s : State} : Leads [.mem, .health, .od, .ctr] s (execPatrolRead addr ecc s) := by
  unfold execPatrolRead
  exact .guardWf (.ite .refl (.andThen (.andThen steps_eccRead steps_bump) with_health))

theorem leads_execQuoteRequest {who : Who} {bytes : List Byte} {s : State} :
    Leads [.free, .od, .ctr, .sec, .book, .out] s (execQuoteRequest who bytes s) := by
  unfold execQuoteRequest
  dsimp only
  exact .next (.ite (.andThen (.andThen (steps_dictWrite (fun _ => .andThen (.andThen
      (.andThen with_sec.mono steps_sign) steps_bump) steps_emit)) steps_bump) steps_emit) (steps_dictWrite (fun _ => .andThen (.andThen
      (.andThen with_sec.mono steps_sign) steps_bump) steps_emit)))

theorem leads_execDepotKeyImport {who : Who} {p : Nat} {cipher proof : List Byte} {s : State} :
    Leads [.free, .od, .ctr, .sec, .book, .out] s (execDepotKeyImport who p cipher proof s) := by
  unfold execDepotKeyImport
  exact .guardWf steps_importWrite

theorem leads_execDebugOpen {who : Who} {v : Nat} {s : State} : Leads [.od, .ctr, .chans, .sec, .book, .boot, .out] s (execDebugOpen who v s) := by
  unfold execDebugOpen
  exact .guardWf (steps_dictWrite (fun _ => .ite .refl steps_debugBegin.mono))

theorem leads_execTapInstructionLoad {i : TapInstr} {s : State} : Leads [.ctr, .sec, .out] s (execTapInstructionLoad i s) := by
  unfold execTapInstructionLoad
  exact .next (.ite (.ite (.andThen with_sec.mono steps_emit) with_sec.mono) (.andThen with_sec.mono steps_bump))

theorem leads_execTapUnlock {sigOk : Bool} {s : State} : Leads [.free, .od, .ctr, .chans, .sec, .book, .boot] s (execTapUnlock sigOk s) := by
  unfold execTapUnlock
  dsimp only
  exact .next (.ite .refl (.ite (.ite .refl steps_debugBegin.mono) (.andThen (.andThen steps_freshOctets.mono with_sec) steps_bump)))

theorem leads_execDebugEraseRelease {s : State} :
    Leads [.free, .mem, .health, .consists, .sems, .od, .ctr, .parts, .qps, .ports, .chans, .queues, .apertures, .link, .sec, .book] s
        (execDebugEraseRelease s) := by
  unfold execDebugEraseRelease
  exact .next (.ite .refl (.andThen (.foldl (.foldl .refl fun _ _ =>
      (.andThen steps_forceRelease.mono steps_swap)) fun _ _ => steps_setDom.mono) with_link_sec))

theorem with_consists_sems_casts {s : State} {x_consists} {x_sems} {x_casts} :
    Steps [.consists, .sems, .casts] s { s with consists := x_consists, sems := x_sems, casts := x_casts } := ⟨rfl, le_rfl, id⟩

theorem leads_execDebugEraseEnd {s : State} :
    Leads [.free, .mem, .health, .consists, .sems, .casts, .depot, .od, .sec] s (execDebugEraseEnd s) := by
  unfold execDebugEraseEnd
  exact .next (.ite .refl (.foldl (.andThen (.andThen (.andThen (.andThen (.andThen (.foldl
      (.andThen with_consists_sems_casts.mono steps_eraseMemory) fun _ _ => steps_depotDiscard.mono) steps_newKeys) steps_odSet) steps_measureLife) with_sec) steps_freeCounts) fun _ _ => steps_settleFree.mono))

theorem leads_execIdentityCertWrite {who : Who} {bytes : List Byte} {rootKey : Option (List Byte)} {s : State} :
    Leads [.od, .ctr, .sec, .book, .out] s (execIdentityCertWrite who bytes rootKey s) := by
  unfold execIdentityCertWrite
  exact .next (steps_dictWrite (fun _ => .andThen steps_odPut.mono with_sec))

theorem leads_execKeyListWrite {who : Who} {sub p : Nat} {bytes : List Byte} {s : State} :
    Leads [.od, .ctr, .book, .out] s (execKeyListWrite who sub p bytes s) := by
  unfold execKeyListWrite
  exact .guardWf (steps_dictWrite (fun _ => .andThen steps_odPut.mono steps_closeSessions))

theorem leads_execDomainOnRequest {who : Who} {d : Nat} {s : State} : Leads [.od, .ctr, .book, .pow, .out] s (execDomainOnRequest who d s) := by
  unfold execDomainOnRequest
  exact .guardWf steps_domainWrite

theorem leads_execDomainRetentionRequest {who : Who} {d : Nat} {s : State} :
    Leads [.od, .ctr, .book, .pow, .out] s (execDomainRetentionRequest who d s) := by
  unfold execDomainRetentionRequest
  exact .guardWf steps_domainWrite

theorem leads_execDomainOffRequest {who : Who} {d : Nat} {s : State} : Leads [.od, .ctr, .book, .pow, .out] s (execDomainOffRequest who d s) := by
  unfold execDomainOffRequest
  exact .guardWf steps_domainWrite

theorem leads_execDomainEntryEnd {d : Nat} {s : State} :
    Leads [.mem, .consists, .sems, .pools, .casts, .depot, .od, .ctr, .ports, .link, .pow, .out] s (execDomainEntryEnd d s) := by
  unfold execDomainEntryEnd
  exact .guardWf (.ite .refl (.foldl (.andThen steps_bump.mono steps_bump) fun _ _ => steps_endEntry))

theorem leads_execDomainWakeEnd {d : Nat} {s : State} : Leads [.od, .pow] s (execDomainWakeEnd d s) := by
  unfold execDomainWakeEnd
  exact .guardWf (.ite .refl (.foldl .refl fun _ _ => steps_endWake))

theorem leads_execEntryAbandoned {d : Nat} {s : State} : Leads [.od, .ctr, .pow] s (execEntryAbandoned d s) := by
  unfold execEntryAbandoned
  exact .guardWf (.ite .refl (.andThen (.foldl .refl fun _ _ => (.andThen with_pow.mono steps_setDom)) steps_bump))

theorem leads_execPadRelease {who : Who} {d : Nat} {s : State} : Leads [.od, .ctr, .book, .out] s (execPadRelease who d s) := by
  unfold execPadRelease
  exact .guardWf (steps_dictWrite (fun _ => .andThen (.foldl .refl fun _ _ => steps_setDom.mono) steps_bump))

theorem leads_execPowerCapWrite {who : Who} {v : Nat} {s : State} : Leads [.od, .ctr, .book, .out] s (execPowerCapWrite who v s) := by
  unfold execPowerCapWrite
  exact .guardWf (steps_dictWrite (fun _ => steps_odSet.mono))

theorem leads_execAirflowWrite {who : Who} {v : Nat} {s : State} : Leads [.od, .ctr, .book, .out] s (execAirflowWrite who v s) := by
  unfold execAirflowWrite
  exact .guardWf (steps_dictWrite (fun _ => .andThen steps_odSet.mono steps_recap))

theorem leads_execPowerGuard {draw : Nat} {s : State} : Leads [.od, .ctr] s (execPowerGuard draw s) := by
  unfold execPowerGuard
  exact .next (.ite (.andThen steps_clockTo steps_bump) .refl)

theorem leads_execArrayDutyAdjust {draw : Nat} {s : State} : Leads [.od, .ctr, .pow] s (execArrayDutyAdjust draw s) := by
  unfold execArrayDutyAdjust
  exact .guardWf (.ite (.andThen (.ite (.andThen (.andThen steps_odSet.mono steps_bump) steps_odSet)
      (.andThen steps_odSet.mono steps_bump)) with_pow) (.ite (.andThen (.andThen steps_odSet.mono steps_bump) with_pow) (.ite (.andThen (.andThen
      (.andThen steps_odSet.mono steps_bump) steps_odSet) with_pow) (.andThen (.andThen steps_odSet.mono steps_bump) with_pow))))

theorem leads_execThermalSample {temps : List Nat} {t : Nat} {s : State} :
    Leads [.now, .mem, .consists, .sems, .pools, .casts, .depot, .od, .ctr, .parts, .qps, .ports, .link, .pow, .out] s
        (execThermalSample temps t s) := by
  unfold execThermalSample
  exact .guardWf (.ite (.andThen steps_atTime.mono steps_odSet) (.ite (.andThen (.andThen
      (.andThen steps_atTime.mono steps_odSet) with_pow) steps_trip) (.andThen (.andThen (.andThen
      (.andThen steps_atTime.mono steps_odSet) with_pow) steps_throttleStep) steps_thermal)))

theorem leads_execInletSample {temp t : Nat} {s : State} : Leads [.now, .od, .pow] s (execInletSample temp t s) := by
  unfold execInletSample
  exact .guardWf (.andThen (.andThen (.andThen steps_atTime.mono steps_odSet) with_pow) steps_recap)

theorem leads_execInletCapRise {t : Nat} {s : State} : Leads [.now, .od, .pow] s (execInletCapRise t s) := by
  unfold execInletCapRise
  dsimp only
  refine .next ?_
  split
  · exact .ite (.andThen (.andThen steps_atTime.mono with_pow) steps_recap) steps_atTime.mono
  · exact steps_atTime.mono

theorem leads_execStartUp {e : BootEnv} {s : State} : Leads Field.all s (execStartUp e s) := by
  unfold execStartUp
  exact .guardWf (.andThen steps_atTime.mono steps_runSteps)

theorem leads_execStartupStepTimeout {step t : Nat} {s : State} : Leads Field.all s (execStartupStepTimeout step t s) := by
  unfold execStartupStepTimeout
  exact .guardWf (.ite (.andThen steps_atTime.mono steps_runStep) steps_atTime.mono)

theorem leads_execModuleRestart {who : Who} {s : State} : Leads Field.all s (execModuleRestart who s) := by
  unfold execModuleRestart
  exact .next (steps_dictWrite (fun _ => steps_beginStart))

theorem leads_execModuleRestartForce {who : Who} {s : State} : Leads Field.all s (execModuleRestartForce who s) := by
  unfold execModuleRestartForce
  exact .next (steps_dictWrite (fun _ => .andThen (.foldl .refl fun _ _ => steps_forceRelease.mono) steps_beginStart))

theorem leads_execLedgerClear {who : Who} {v : Nat} {s : State} : Leads [.od, .ctr, .book, .boot, .out] s (execLedgerClear who v s) := by
  unfold execLedgerClear
  exact .guardWf (steps_dictWrite (fun _ => with_boot.mono))

theorem leads_execHoldDiscard {s : State} : Leads Field.all s (execHoldDiscard s) := by
  unfold execHoldDiscard
  exact .next (.ite .refl steps_beginStart)

theorem leads_execRestoreDefaults {who : Who} {v : Nat} {s : State} : Leads [.od, .ctr, .book, .boot, .out] s (execRestoreDefaults who v s) := by
  unfold execRestoreDefaults
  exact .guardWf (steps_dictWrite (fun _ => with_boot.mono))

theorem leads_execFwChunk {who : Who} {bytes : List Byte} {s : State} : Leads [.od, .ctr, .book, .boot, .out] s (execFwChunk who bytes s) := by
  unfold execFwChunk
  exact .next (steps_dictWrite (fun _ => .andThen (.andThen (.ite steps_dropCandidate.mono .refl) with_boot) steps_odSet))

theorem leads_execFwVerify {who : Who} {sigKey : Option (List Byte)} {s : State} :
    Leads [.od, .ctr, .book, .boot, .out] s (execFwVerify who sigKey s) := by
  unfold execFwVerify
  exact .next (steps_dictWrite (fun _ => .ite (.andThen (.andThen (.andThen steps_odSet.mono with_boot) steps_odSet) steps_odSet) (.andThen
      (.andThen steps_odSet.mono steps_odSet) steps_bump)))

theorem leads_execFwCommit {who : Who} {s : State} : Leads [.od, .ctr, .book, .boot, .out] s (execFwCommit who s) := by
  unfold execFwCommit
  exact .next (steps_dictWrite (fun _ => .andThen with_boot.mono steps_odSet))

theorem leads_execFwCommitEnd {ok : Bool} {s : State} : Leads [.od, .ctr, .boot] s (execFwCommitEnd ok s) := by
  unfold execFwCommitEnd
  exact .next (.ite .refl (.ite (.andThen (.andThen (.andThen (.andThen with_boot.mono steps_odSet) steps_odSet) steps_odPut) steps_bump)
      (.ite with_boot.mono (.andThen (.andThen (.andThen with_boot.mono steps_odSet) steps_odSet) steps_bump))))

theorem leads_execFwActivate {who : Who} {s : State} : Leads Field.all s (execFwActivate who s) := by
  unfold execFwActivate
  exact .next (steps_dictWrite (fun _ => steps_beginStart))

theorem leads_execFwDrop {who : Who} {s : State} : Leads [.od, .ctr, .book, .boot, .out] s (execFwDrop who s) := by
  unfold execFwDrop
  exact .next (steps_dictWrite (fun _ => steps_dropCandidate.mono))

theorem leads_execRecoveryCommand {cmd : Nat} {sigKey : Option (List Byte)} {programmed : Bool} {s : State} :
    Leads Field.all s (execRecoveryCommand cmd sigKey programmed s) := by
  unfold execRecoveryCommand
  exact .guardWf (.ite .refl (.ite (.andThen (.andThen with_boot.mono steps_beginStart) steps_bump) (.andThen with_boot.mono steps_bump)))

theorem leads_execVinStart {v t : Nat} {s : State} : Leads Field.all s (execVinStart v t s) := by
  unfold execVinStart
  exact .guardWf (.ite (.andThen (.andThen (.andThen steps_atTime.mono steps_odSet) with_pow) steps_beginStart)
      (.andThen steps_atTime.mono steps_odSet))

theorem leads_execVinLoss {v t : Nat} {s : State} :
    Leads [.now, .mem, .consists, .sems, .pools, .casts, .depot, .od, .ctr, .ports, .link, .pow, .out] s (execVinLoss v t s) := by
  unfold execVinLoss
  exact .guardWf (.ite (.andThen steps_atTime.mono steps_odSet) (.andThen (.andThen (.andThen (.andThen (.foldl
      (.andThen steps_atTime.mono steps_odSet) fun _ _ =>
      (.andThen steps_offLoss.mono steps_setDom)) steps_depotProgrammed) with_pow) steps_odSet) steps_bump))

theorem leads_execTickBoundary {t : Nat} {draws : List Nat} {s : State} :
    Leads [.now, .free, .mem, .health, .consists, .sems, .time, .pools, .casts, .depot, .od, .ctr, .parts, .qps, .ports, .pow] s
        (execTickBoundary t draws s) := by
  unfold execTickBoundary
  refine .guardWf ?_
  dsimp only
  split
  · exact steps_atTime.mono
  · exact .ite steps_atTime.mono (.andThen (.andThen steps_atTime.mono steps_bump) steps_boundary)

theorem leads_execControlStateError {f : CtrlFault} {s : State} :
    Leads [.free, .mem, .health, .consists, .sems, .od, .ctr, .parts, .qps, .ports] s (execControlStateError f s) := by
  unfold execControlStateError
  split
  · exact .guardWf (.andThen (.andThen steps_enginePost.mono steps_castOwed) steps_bump)
  · exact .guardWf (.andThen steps_sequencerError steps_bump)
  · exact .guardWf (.andThen steps_scoreboardError.mono steps_bump)

theorem leads_execOsfpPresent {c t : Nat} {s : State} : Leads [.now, .od, .pow] s (execOsfpPresent c t s) := by
  unfold execOsfpPresent
  exact .guardWf (.ite steps_atTime.mono (.andThen (.andThen steps_atTime.mono steps_odSet) with_pow))

theorem leads_execOsfpLowPowerRelease {c t : Nat} {s : State} : Leads [.now, .pow] s (execOsfpLowPowerRelease c t s) := by
  unfold execOsfpLowPowerRelease
  exact .guardWf (.ite (.andThen steps_atTime.mono with_pow) steps_atTime.mono)

theorem leads_execOsfpPresenceDeassert {c : Nat} {s : State} : Leads [.od, .ctr, .ports, .pow, .out] s (execOsfpPresenceDeassert c s) := by
  unfold execOsfpPresenceDeassert
  exact .guardWf (.andThen (.andThen steps_odSet.mono steps_cageDown) with_pow)

theorem leads_execVosfpLoss {s : State} : Leads [.od, .ctr, .ports, .out] s (execVosfpLoss s) := by
  unfold execVosfpLoss
  exact .next (.foldl steps_odSet.mono fun _ _ => steps_linkDown)

theorem leads_execVosfpReturn {s : State} : Leads [.od] s (execVosfpReturn s) := by
  unfold execVosfpReturn
  exact .next steps_odSet

theorem leads_execLmpRead {r : LmpReq} {s : State} : Leads [.now, .od, .ctr, .link, .book, .out] s (execLmpRead r s) := by
  unfold execLmpRead
  refine .guardWf (steps_serve (fun _ _ _ => steps_readPart (fun _ => ?_)))
  split
  · dsimp only
    exact steps_clearView.mono
  · dsimp only
    exact .refl

theorem leads_execLmpReadIndex {r : LmpReq} {s : State} : Leads [.now, .od, .ctr, .link, .book, .out] s (execLmpReadIndex r s) := by
  unfold execLmpReadIndex
  exact .guardWf (steps_serve (fun _ _ _ => steps_readPart (fun _ => steps_readWhole.mono)))

theorem leads_execBookExportMarkWrite {who : Who} {v : Nat} {s : State} : Leads [.od, .ctr, .book, .out] s (execBookExportMarkWrite who v s) := by
  unfold execBookExportMarkWrite
  exact .guardWf (steps_dictWrite (fun _ => steps_odSet.mono))

theorem leads_octetWrite {s : State} {w : Who} {key : Nat} {b : List Byte} {found : Option (List Byte)} :
    Leads [.free, .time, .od, .ctr, .parts, .hrtNext, .sec, .book, .boot, .out] s (octetWrite s w key b found) := by
  unfold octetWrite
  split
  · exact leads_execQuoteRequest.mono
  · split
    · exact leads_execIdentityCertWrite.mono
    · split
      · exact leads_execKeyListWrite.mono
      · split
        · exact leads_execKeyListWrite.mono
        · split
          · exact leads_execFwChunk.mono
          · split
            · exact .next steps_plainWrite.mono
            · exact .ite leads_execKeyListWrite.mono (.ite leads_execDepotKeyImport.mono (.ite leads_execGrantObjectWrite.mono
                (.next steps_plainWrite.mono)))

theorem leads_execManifestSlotWrite {q seq : Nat} {s : State} : Leads [.consists, .ctr, .queues] s (execManifestSlotWrite q seq s) := by
  unfold execManifestSlotWrite
  refine .guardWf (steps_runManifest fun p b => ?_)
  dsimp only
  exact steps_modCon.mono

theorem leads_execHostApertureRead {off len : Nat} {ecc : Ecc} {s : State} :
    Leads [.mem, .health, .od, .ctr, .pow, .out] s (execHostApertureRead off len ecc s) := by
  unfold execHostApertureRead
  refine .guardWf ?_
  extract_lets t
  have h : Steps [.mem, .health, .od, .ctr, .pow, .out] s t := steps_brynqTouch.mono
  clear_value t
  refine .ite (.andThen h steps_recoveryRead) ?_
  split
  rename_i e
  have hf := Steps.of_eq (.foldlFst h fun x r => by
    split
    exact .of_eq steps_hostPartRead.mono ‹_›) e
  exact .andThen (.andThen hf steps_bump) steps_hostData

theorem leads_execHostApertureWrite {off : Nat} {bytes : List Byte} {s : State} :
    Leads [.mem, .health, .od, .ctr, .queues, .apertures, .link, .boot, .pow, .out] s (execHostApertureWrite off bytes s) := by
  unfold execHostApertureWrite
  refine .guardWf ?_
  extract_lets t
  have h : Steps [.mem, .health, .od, .ctr, .queues, .apertures, .link, .boot, .pow, .out] s t := steps_brynqTouch.mono
  clear_value t
  refine .ite (.andThen h steps_recoveryWrite) ?_
  split
  rename_i e
  have hf := Steps.of_eq (.foldlFst h fun x r => by
    split
    exact .of_eq steps_hostPartWrite.mono ‹_›) e
  exact .andThen hf steps_bump

theorem leads_numWrite {s : State} {w : Who} {key n : Nat} {found : Option (List Byte)} : Leads Field.all s (numWrite s w key n found) := by
  have bad {k v : Nat} : Leads Field.all s (.next (badCommand s w k v)) := .next steps_badCommand.mono
  have plain {v : OdVal} : Leads Field.all s (.next (plainWrite s w key v)) := .next steps_plainWrite.mono
  unfold numWrite
  extract_lets index sub
  refine .ite leads_execTickChangeAtWrite.mono <| .ite leads_execTickEpochWrite.mono <| .ite leads_execDepotPreserveSet.mono <|
    .ite leads_execDepotPreserveClear.mono <| .ite leads_execCageModeWrite.mono <| .ite leads_execDebugOpen.mono <|
    .ite leads_execBookExportMarkWrite.mono <| .ite leads_execRestoreDefaults.mono <|
    .ite (.ite leads_execModuleRestart.mono <| .ite leads_execModuleRestartForce.mono bad) <| .ite leads_execLedgerClear.mono <|
    .ite (.ite leads_execFwVerify.mono <| .ite leads_execFwCommit.mono <| .ite leads_execFwActivate.mono <| .ite leads_execFwDrop.mono bad) <|
    .ite leads_execPowerCapWrite.mono <| .ite leads_execAirflowWrite.mono <| .ite leads_execPadRelease.mono <|
    .ite (.next steps_domainWrite.mono) <| .ite leads_execPortEnableWrite.mono ?_
  split
  · exact plain
  · exact .ite leads_execVidWrite.mono <| .ite leads_execPortMapWrite.mono <| .ite leads_execPathShadowLoad.mono <|
      .ite leads_execPeerQuarantineClear.mono <| .ite leads_execGrantObjectWrite.mono <|
      .ite (.ite leads_execGrantCommit.mono <| .ite leads_execGrantRelease.mono <| .ite leads_execGrantDiscard.mono <|
        .ite leads_execGrantForceRelease.mono bad) <|
      .ite leads_execHoldDecision.mono <| .ite leads_execLayerTableAddrWrite.mono <| .ite leads_execInDoubtResolve.mono <|
      .ite leads_execJobMapAddrWrite.mono plain

theorem steps_wholeWrite {s : State} {w : Who} {key : Nat} {b : List Byte} {found : Option (List Byte)} :
    Steps Field.all s (wholeWrite s w key b found) := by
  have plain {v : OdVal} : Leads Field.all s (.next (plainWrite s w key v)) := .next steps_plainWrite.mono
  unfold wholeWrite
  extract_lets o
  have h : Leads Field.all s o := by
    unfold o
    split
    · exact plain
    · refine .ite plain ?_
      split
      · exact leads_numWrite
      · exact leads_octetWrite.mono
      · exact plain
  clear_value o
  split
  · exact h _ rfl
  · exact .refl

theorem steps_lmpWrite {r : LmpReq} {s : State} {w : Who} {k : Nat} : Steps Field.all s (lmpWrite r s w k).1 := by
  unfold lmpWrite
  extract_lets key others put finish
  have hput {x : State} {l : List SegWrite} : Steps Field.all x (put x l) := with_book.mono
  have hfinish {x : State} {b : List Byte} : Steps Field.all x (finish x b).1 := .iteFst .refl steps_wholeWrite
  clear_value put finish
  split
  · exact .iteFst .refl (.iteFst hput (.iteFst (hput.trans hfinish) hput))
  · exact .iteFst .refl (.iteFst hfinish hput)

theorem leads_execLmpWrite {r : LmpReq} {s : State} : Leads Field.all s (execLmpWrite r s) := by
  unfold execLmpWrite
  exact .guardWf (steps_serve fun _ _ _ => steps_lmpWrite)

theorem leads_execBookRead {r : LmpReq} {s : State} : Leads [.now, .od, .ctr, .link, .book, .out] s (execBookRead r s) := by
  unfold execBookRead
  refine .guardWf (steps_serve (fun _ _ _ => ?_))
  dsimp only
  split
  · split
    · dsimp only
      exact .refl
    · dsimp only
      exact .refl
  · split
    · dsimp only
      exact .refl
    · dsimp only
      exact .refl

theorem leads_execLmpCheckpointRead {r : LmpReq} {s : State} : Leads [.now, .od, .ctr, .link, .book, .out] s (execLmpCheckpointRead r s) := by
  unfold execLmpCheckpointRead
  refine .guardWf (steps_serve (fun _ _ _ => ?_))
  dsimp only
  split
  · dsimp only
    exact .refl
  · split
    · dsimp only
      exact .refl
    · split
      · dsimp only
        exact .refl
      · dsimp only
        exact .refl

theorem leads_execBookCheckpoint {t : Nat} {s : State} : Leads [.now, .od, .ctr, .book] s (execBookCheckpoint t s) := by
  unfold execBookCheckpoint
  exact .next (.ite (.andThen steps_atTime.mono steps_appendCheckpoint) steps_atTime.mono)

theorem leads_execBookCheckpointSign {s : State} : Leads [.free, .book] s (execBookCheckpointSign s) := by
  unfold execBookCheckpointSign
  refine .next ?_
  split
  · exact .refl
  · dsimp only
    exact .andThen steps_sign.mono with_book

theorem leads_execLmpOpen {r : LmpOpenReq} {s : State} : Leads [.now, .free, .ctr, .book, .out] s (execLmpOpen r s) := by
  unfold execLmpOpen
  dsimp only
  exact .guardWf (.ite steps_atTime.mono (.ite (.andThen steps_atTime.mono steps_bump) (.ite (.andThen
      (.andThen steps_atTime.mono steps_bump) steps_sendMgmt) (.andThen (.andThen (.andThen (.andThen
      (.andThen steps_atTime.mono steps_bump) steps_freshOctets) with_book) steps_putSession) steps_sendMgmt))))

theorem leads_execLmpOpenProof {session requestId : Nat} {proof : Option Bool} {t : Nat} {s : State} :
    Leads [.now, .od, .ctr, .link, .book, .out] s (execLmpOpenProof session requestId proof t s) := by
  unfold execLmpOpenProof
  refine .guardWf (.ite steps_atTime.mono ?_)
  split
  · exact .andThen steps_atTime.mono steps_bump
  · exact .ite (.andThen steps_atTime.mono steps_bump) (.ite (.andThen (.andThen (.andThen
      (.andThen steps_atTime.mono steps_bump) steps_putSession) steps_countSessions) steps_sendFrame) (.andThen (.ite (.andThen (.andThen
      (.andThen steps_atTime.mono steps_bump) steps_dropSession) steps_bump) (.andThen (.andThen (.andThen
      (.andThen steps_atTime.mono steps_bump) steps_dropSession) steps_bump) steps_appendEntry)) steps_sendMgmt))

theorem leads_execLmpClose {r : LmpReq} {s : State} : Leads [.now, .od, .ctr, .link, .book, .out] s (execLmpClose r s) := by
  unfold execLmpClose
  exact .guardWf (.ite (.andThen (steps_serve (fun _ _ _ => .refl)) steps_dropSession) (steps_serve (fun _ _ _ => .refl)))

theorem leads_execLmpOpenTimeout {session t : Nat} {s : State} : Leads [.now, .od, .book] s (execLmpOpenTimeout session t s) := by
  unfold execLmpOpenTimeout
  refine .next ?_
  dsimp only
  split
  · exact .ite (.andThen steps_atTime.mono steps_dropSession) steps_atTime.mono
  · exact steps_atTime.mono

theorem leads_execLmpIdleTimeout {session t : Nat} {s : State} : Leads [.now, .od, .book] s (execLmpIdleTimeout session t s) := by
  unfold execLmpIdleTimeout
  refine .next ?_
  dsimp only
  split
  · exact .ite (.andThen steps_atTime.mono steps_dropSession) steps_atTime.mono
  · exact steps_atTime.mono

theorem leads_execLmpSnapshotExpiry {session t : Nat} {s : State} : Leads [.now, .book] s (execLmpSnapshotExpiry session t s) := by
  unfold execLmpSnapshotExpiry
  refine .next ?_
  dsimp only
  split
  · exact .andThen steps_atTime.mono steps_putSession
  · exact steps_atTime.mono

theorem leads_execLmpSegmentTimeout {key t : Nat} {s : State} : Leads [.now, .book] s (execLmpSegmentTimeout key t s) := by
  unfold execLmpSegmentTimeout
  exact .next (.andThen steps_atTime.mono with_book)

theorem leads_execMgmtSettingsApply {t : Nat} {s : State} : Leads [.now, .od, .book] s (execMgmtSettingsApply t s) := by
  unfold execMgmtSettingsApply
  exact .next (.foldl (.andThen steps_atTime.mono with_book) fun _ _ => steps_odPut.mono)

/-! ### Every command -/

theorem leads_exec {i : Instr} {s : State} : Leads Field.all s (exec i s) := by
  cases i with
  | mma | mmaSplit2 | mmaSplit3 | vrun | stream | atomicAdd | post | wait | signalArrive | semReset | scaleAdjustShift | scaleAdjustFresh
  | scaleAdjustApply | loopBegin | loopEnd | slotWrite | nounSet | slotMark | nop | halt | allReduce | allReduceFree | reduceScatter
  | allGather | broadcast | reduceToRoot | allToAll | maxReduce | clusterBarrier | gatherLayer | dropLayer | sendActivations
  | recvActivations | ringExchange | statMergeAll | pointsChange | statMerge | softmaxRows | layerNorm | rmsNorm | gelu | siluGate
  | rotaryEmbed | dropoutMask | crossEntropy | lossSubmit | gradNorm | gradClip | scaleLayer | histogramClear | convert | transpose | fill
  | copy | gatherRows | scatterAddRows | spillToNear | resumeFromNear | prefetchLayer | checkpointWrite | checkpointRead | datasetRead
  | windowRegister | windowRelease | updateAdamw | updateAdamL2 | updateSgdMomentum | updateCustom | stepVote | stepCounterRead | freezeSet
  | layerScaleSet | sidingPark | sidingDrain | attentionFwd | attentionBwd | causalMask | attentionMerge | matmulBias | matmulFp32
  | topkRoute | expertDispatch | expertCombine | selfTest => exact leads_verb.mono
  | verbIssue => exact leads_execVerbIssue.mono
  | verbTokenPost => exact leads_execVerbTokenPost.mono
  | broadcastResume => exact leads_execBroadcastResume.mono
  | controlVerbRelease => exact leads_execControlVerbRelease.mono
  | updateShardCheck => exact leads_execUpdateShardCheck.mono
  | sidingEntryStart => exact leads_execSidingEntryStart.mono
  | tickBoundary => exact leads_execTickBoundary.mono
  | tickChange => exact leads_execTickChange.mono
  | tickChangeAtWrite => exact leads_execTickChangeAtWrite.mono
  | tickEpochWrite => exact leads_execTickEpochWrite.mono
  | slotStart => exact leads_execSlotStart.mono
  | slotComplete => exact leads_execSlotComplete.mono
  | deadlockSearch => exact leads_execDeadlockSearch.mono
  | ptpSyncRx => exact leads_execPtpSyncRx.mono
  | ptpFollowUpRx => exact leads_execPtpFollowUpRx.mono
  | ptpAnnounceRx => exact leads_execPtpAnnounceRx.mono
  | ptpDelayReqTx => exact leads_execPtpDelayReqTx.mono
  | ptpDelayRespRx => exact leads_execPtpDelayRespRx.mono
  | ptpSyncTimeout => exact leads_execPtpSyncTimeout.mono
  | alignmentRegain => exact leads_execAlignmentRegain.mono
  | timeStep => exact leads_execTimeStep.mono
  | granuleScrub => exact leads_execGranuleScrub.mono
  | granuleScrubEnd => exact leads_execGranuleScrubEnd.mono
  | patrolRead => exact leads_execPatrolRead.mono
  | blockDispatch => exact leads_execBlockDispatch.mono
  | blockComplete => exact leads_execBlockComplete.mono
  | multicastUncouple => exact leads_execMulticastUncouple.mono
  | depotWriteResume => exact leads_execDepotWriteResume.mono
  | depotBackgroundOp => exact leads_execDepotBackgroundOp.mono
  | depotDisturbRefresh => exact leads_execDepotDisturbRefresh.mono
  | depotAgeRefresh => exact leads_execDepotAgeRefresh.mono
  | depotPreserveSet => exact leads_execDepotPreserveSet.mono
  | depotPreserveClear => exact leads_execDepotPreserveClear.mono
  | layerTableAddrWrite => exact leads_execLayerTableAddrWrite.mono
  | voteRx => exact leads_execVoteRx.mono
  | stepWaitExpiry => exact leads_execStepWaitExpiry.mono
  | decisionRx => exact leads_execDecisionRx.mono
  | decisionApply => exact leads_execDecisionApply.mono
  | inflectorWalkEnd => exact leads_execInflectorWalkEnd.mono
  | shardApplyEnd => exact leads_execShardApplyEnd.mono
  | inDoubtEntry => exact leads_execInDoubtEntry.mono
  | inDoubtResolve => exact leads_execInDoubtResolve.mono
  | holdDecision => exact leads_execHoldDecision.mono
  | revisedVoteRx => exact leads_execRevisedVoteRx.mono
  | rollback => exact leads_execRollback.mono
  | jobMapAddrWrite => exact leads_execJobMapAddrWrite.mono
  | pointsSwap => exact leads_execPointsSwap.mono
  | pathShadowLoad => exact leads_execPathShadowLoad.mono
  | frameRx => exact leads_execFrameRx.mono
  | frameTx => exact leads_execFrameTx.mono
  | pauseRx => exact leads_execPauseRx.mono
  | pfcRx => exact leads_execPfcRx.mono
  | pauseRefresh => exact leads_execPauseRefresh.mono
  | pauseQuantaExpiry => exact leads_execPauseQuantaExpiry.mono
  | linkDown => exact leads_execLinkDown.mono
  | linkUp => exact leads_execLinkUp.mono
  | cageModeWrite => exact leads_execCageModeWrite.mono
  | vidWrite => exact leads_execVidWrite.mono
  | portMapWrite => exact leads_execPortMapWrite.mono
  | portEnableWrite => exact leads_execPortEnableWrite.mono
  | keyOfferRx => exact leads_execKeyOfferRx.mono
  | keyAcceptRx => exact leads_execKeyAcceptRx.mono
  | keyAcceptTimeout => exact leads_execKeyAcceptTimeout.mono
  | hrtWriteRx => exact leads_execHrtWriteRx.mono
  | hrtAddRx => exact leads_execHrtAddRx.mono
  | hrtAckRx => exact leads_execHrtAckRx.mono
  | hrtWindowWriteRx => exact leads_execHrtWindowWriteRx.mono
  | bufferFreeRx => exact leads_execBufferFreeRx.mono
  | hrtAckDelay => exact leads_execHrtAckDelay.mono
  | hrtRtoExpiry => exact leads_execHrtRtoExpiry.mono
  | partnerTimeout => exact leads_execPartnerTimeout.mono
  | peerSlowDetect => exact leads_execPeerSlowDetect.mono
  | peerQuarantineClear => exact leads_execPeerQuarantineClear.mono
  | linkError => exact leads_execLinkError.mono
  | linkRetrainDone => exact leads_execLinkRetrainDone.mono
  | linkRetryExpiry => exact leads_execLinkRetryExpiry.mono
  | hostRstAssert => exact leads_execHostRstAssert.mono
  | hostRstRelease => exact leads_execHostRstRelease.mono
  | holdQuiesce => exact leads_execHoldQuiesce.mono
  | holdRecordWrite => exact leads_execHoldRecordWrite.mono
  | adopt => exact leads_execAdopt.mono
  | adoptionEnd => exact leads_execAdoptionEnd.mono
  | reAttach => exact leads_execReAttach.mono
  | holdDiscard => exact leads_execHoldDiscard.mono
  | doorbellSqTail => exact leads_execDoorbellSqTail.mono
  | doorbellCqHead => exact leads_execDoorbellCqHead.mono
  | manifestFetch => exact leads_execManifestFetch.mono
  | manifestReread => exact leads_execManifestReread.mono
  | manifestNop => exact leads_execManifestNop.mono
  | imageLoad => exact leads_execImageLoad.mono
  | consistControlStart => exact leads_execConsistControlStart.mono
  | consistControlRestart => exact leads_execConsistControlRestart.mono
  | consistControlStop => exact leads_execConsistControlStop.mono
  | consistControlUnload => exact leads_execConsistControlUnload.mono
  | nounWrite => exact leads_execNounWrite.mono
  | manifestSlotWrite => exact leads_execManifestSlotWrite.mono
  | semDeclare => exact leads_execSemDeclare.mono
  | manifestSemReset => exact leads_execManifestSemReset.mono
  | manifestCopy => exact leads_execManifestCopy.mono
  | depotRead => exact leads_execDepotRead.mono
  | depotWrite q seq ecc => exact Leads.mono (o := execDepotWrite q seq ecc s) leads_execDepotWrite
  | ruleLoad => exact leads_execRuleLoad.mono
  | layerWrite => exact leads_execLayerWrite.mono
  | manifestComplete => exact leads_execManifestComplete.mono
  | queueEnable => exact leads_execQueueEnable.mono
  | queueDisable => exact leads_execQueueDisable.mono
  | apertureDescriptorWrite => exact leads_execApertureDescriptorWrite.mono
  | hostApertureRead => exact leads_execHostApertureRead.mono
  | hostApertureWrite => exact leads_execHostApertureWrite.mono
  | hostReservedAccess => exact leads_execHostReservedAccess.mono
  | grantObjectWrite => exact leads_execGrantObjectWrite.mono
  | grantCommit => exact leads_execGrantCommit.mono
  | grantRelease => exact leads_execGrantRelease.mono
  | grantDiscard => exact leads_execGrantDiscard.mono
  | grantForceRelease => exact leads_execGrantForceRelease.mono
  | grantSwap => exact leads_execGrantSwap.mono
  | windowTableSwap => exact leads_execWindowTableSwap.mono
  | consistClearEnd => exact leads_execConsistClearEnd.mono
  | quoteRequest => exact leads_execQuoteRequest.mono
  | depotKeyImport => exact leads_execDepotKeyImport.mono
  | debugOpen => exact leads_execDebugOpen.mono
  | tapUnlock => exact leads_execTapUnlock.mono
  | tapInstructionLoad => exact leads_execTapInstructionLoad.mono
  | debugEraseRelease => exact leads_execDebugEraseRelease.mono
  | debugEraseEnd => exact leads_execDebugEraseEnd.mono
  | identityCertWrite => exact leads_execIdentityCertWrite.mono
  | keyListWrite => exact leads_execKeyListWrite.mono
  | lmpRead => exact leads_execLmpRead.mono
  | lmpWrite => exact leads_execLmpWrite.mono
  | lmpReadIndex => exact leads_execLmpReadIndex.mono
  | bookRead => exact leads_execBookRead.mono
  | lmpCheckpointRead => exact leads_execLmpCheckpointRead.mono
  | lmpOpen => exact leads_execLmpOpen.mono
  | lmpOpenProof => exact leads_execLmpOpenProof.mono
  | lmpClose => exact leads_execLmpClose.mono
  | lmpOpenTimeout => exact leads_execLmpOpenTimeout.mono
  | lmpIdleTimeout => exact leads_execLmpIdleTimeout.mono
  | lmpSnapshotExpiry => exact leads_execLmpSnapshotExpiry.mono
  | lmpSegmentTimeout => exact leads_execLmpSegmentTimeout.mono
  | mgmtSettingsApply => exact leads_execMgmtSettingsApply.mono
  | bookCheckpoint => exact leads_execBookCheckpoint.mono
  | bookCheckpointSign => exact leads_execBookCheckpointSign.mono
  | bookExportMarkWrite => exact leads_execBookExportMarkWrite.mono
  | restoreDefaults => exact leads_execRestoreDefaults.mono
  | startUp => exact leads_execStartUp.mono
  | startupStepTimeout => exact leads_execStartupStepTimeout.mono
  | moduleRestart => exact leads_execModuleRestart.mono
  | moduleRestartForce => exact leads_execModuleRestartForce.mono
  | ledgerClear => exact leads_execLedgerClear.mono
  | fwChunk => exact leads_execFwChunk.mono
  | fwVerify => exact leads_execFwVerify.mono
  | fwCommit => exact leads_execFwCommit.mono
  | fwCommitEnd => exact leads_execFwCommitEnd.mono
  | fwActivate => exact leads_execFwActivate.mono
  | fwDrop => exact leads_execFwDrop.mono
  | recoveryCommand => exact leads_execRecoveryCommand.mono
  | domainOnRequest => exact leads_execDomainOnRequest.mono
  | domainRetentionRequest => exact leads_execDomainRetentionRequest.mono
  | domainOffRequest => exact leads_execDomainOffRequest.mono
  | domainEntryEnd => exact leads_execDomainEntryEnd.mono
  | domainWakeEnd => exact leads_execDomainWakeEnd.mono
  | padRelease => exact leads_execPadRelease.mono
  | powerCapWrite => exact leads_execPowerCapWrite.mono
  | airflowWrite => exact leads_execAirflowWrite.mono
  | powerGuard => exact leads_execPowerGuard.mono
  | arrayDutyAdjust => exact leads_execArrayDutyAdjust.mono
  | thermalSample => exact leads_execThermalSample.mono
  | inletSample => exact leads_execInletSample.mono
  | inletCapRise => exact leads_execInletCapRise.mono
  | vinStart => exact leads_execVinStart.mono
  | vinLoss => exact leads_execVinLoss.mono
  | ppsEdge => exact leads_execPpsEdge.mono
  | todFrame => exact leads_execTodFrame.mono
  | ppsMissing => exact leads_execPpsMissing.mono
  | osfpPresent => exact leads_execOsfpPresent.mono
  | osfpLowPowerRelease => exact leads_execOsfpLowPowerRelease.mono
  | controlStateError => exact leads_execControlStateError.mono
  | vosfpLoss => exact leads_execVosfpLoss.mono
  | vosfpReturn => exact leads_execVosfpReturn.mono
  | osfpPresenceDeassert => exact leads_execOsfpPresenceDeassert.mono
  | queueDescriptorWrite => exact leads_execQueueDescriptorWrite.mono
  | entryAbandoned => exact leads_execEntryAbandoned.mono

theorem guardWf_congr {b c : Bool} {t : State} (e : b = c) : guardWf b t = guardWf c t := by rw [e]

theorem rowControl_eq (f : HrtFrame) (c : Nat) : rowControl f c = (f.wf && decide (f.hdr.opcode = 3 ∧ f.hdr.code = c)) := by
  rw [rowControl, frameOk_eq_wf, Bool.decide_and, Bool.and_assoc]

theorem bootEnv_guard (e : BootEnv) : (e.findings.all findingOk && decide (e.failedCores.length = 40 ∧ e.failedSpares.length = 8 ∧ e.memChannels < 2 ^ 64) &&
      e.failedSpares.all (· ≤ 4) && decide (e.components.length = 5)) = e.wf := by
  unfold BootEnv.wf findingOk
  rw [Bool.eq_iff_iff]
  simp only [Bool.and_eq_true, decide_eq_true_eq]
  tauto

theorem temps_guard (temps : List Nat) : (decide (temps ≠ []) && temps.all isF32) = (temps.all f32Ok && decide (temps ≠ [])) := by
  rw [Bool.and_comm, show isF32 = f32Ok from funext isF32_eq_f32Ok]

theorem bufferFree_guard (f : HrtFrame) : (frameOk f && f.hdr.opcode = 3 && (f.hdr.code = 0x20 || controlLen f.hdr.code = none)) =
    (f.wf && (f.hdr.code = 0x20 || ctrlReserved f.hdr.code) && decide (f.hdr.opcode = 3)) := by
  rw [frameOk_eq_wf, controlLen_none, Bool.and_right_comm]

theorem verb_guard {h : VerbHdr} {v : Verb} {s : State} {b : Bool} (e : (h.wf && verbOk v) = b) : ∃ t, verb h v s = guardWf b t :=
  ⟨_, guardWf_congr (by rw [hdrOk_eq_wf, e])⟩

theorem exec_guard (i : Instr) (s : State) : ∃ t, exec i s = guardWf i.wf t := by
  cases i with
  | verbIssue => exact ⟨_, rfl⟩
  | verbTokenPost => exact ⟨_, rfl⟩
  | broadcastResume => exact ⟨_, rfl⟩
  | controlVerbRelease => exact ⟨_, rfl⟩
  | updateShardCheck => exact ⟨_, rfl⟩
  | sidingEntryStart => exact ⟨_, rfl⟩
  | tickBoundary => exact ⟨_, rfl⟩
  | tickChange => exact ⟨_, rfl⟩
  | tickChangeAtWrite => exact ⟨_, rfl⟩
  | tickEpochWrite => exact ⟨_, rfl⟩
  | slotStart => exact ⟨_, rfl⟩
  | slotComplete => exact ⟨_, rfl⟩
  | deadlockSearch => exact ⟨_, rfl⟩
  | ptpSyncRx => exact ⟨_, rfl⟩
  | ptpFollowUpRx => exact ⟨_, rfl⟩
  | ptpAnnounceRx => exact ⟨_, rfl⟩
  | ptpDelayReqTx => exact ⟨_, rfl⟩
  | ptpDelayRespRx => exact ⟨_, rfl⟩
  | ptpSyncTimeout => exact ⟨_, rfl⟩
  | alignmentRegain => exact ⟨_, rfl⟩
  | timeStep => exact ⟨_, rfl⟩
  | granuleScrub => exact ⟨_, rfl⟩
  | granuleScrubEnd => exact ⟨_, rfl⟩
  | patrolRead => exact ⟨_, rfl⟩
  | blockDispatch => exact ⟨_, rfl⟩
  | blockComplete => exact ⟨_, rfl⟩
  | multicastUncouple => exact ⟨_, rfl⟩
  | depotWriteResume => exact ⟨_, rfl⟩
  | depotBackgroundOp => exact ⟨_, rfl⟩
  | depotDisturbRefresh => exact ⟨_, rfl⟩
  | depotAgeRefresh => exact ⟨_, rfl⟩
  | depotPreserveSet => exact ⟨_, rfl⟩
  | depotPreserveClear => exact ⟨_, rfl⟩
  | layerTableAddrWrite => exact ⟨_, rfl⟩
  | voteRx => exact ⟨_, guardWf_congr (rowControl_eq _ _)⟩
  | stepWaitExpiry => exact ⟨_, rfl⟩
  | decisionRx => exact ⟨_, guardWf_congr (rowControl_eq _ _)⟩
  | decisionApply => exact ⟨_, rfl⟩
  | inflectorWalkEnd => exact ⟨_, rfl⟩
  | shardApplyEnd => exact ⟨_, rfl⟩
  | inDoubtEntry => exact ⟨_, rfl⟩
  | inDoubtResolve => exact ⟨_, rfl⟩
  | holdDecision => exact ⟨_, rfl⟩
  | revisedVoteRx => exact ⟨_, guardWf_congr (rowControl_eq _ _)⟩
  | rollback => exact ⟨_, rfl⟩
  | jobMapAddrWrite => exact ⟨_, rfl⟩
  | pointsSwap => exact ⟨_, rfl⟩
  | pathShadowLoad => exact ⟨_, rfl⟩
  | frameRx => exact ⟨_, guardWf_congr (Bool.and_comm _ _)⟩
  | frameTx => exact ⟨_, rfl⟩
  | pauseRx => exact ⟨_, rfl⟩
  | pfcRx => exact ⟨_, guardWf_congr (Bool.and_comm _ _)⟩
  | pauseRefresh => exact ⟨_, rfl⟩
  | pauseQuantaExpiry => exact ⟨_, rfl⟩
  | linkDown => exact ⟨_, rfl⟩
  | linkUp => exact ⟨_, rfl⟩
  | cageModeWrite => exact ⟨_, rfl⟩
  | vidWrite => exact ⟨_, rfl⟩
  | portMapWrite => exact ⟨_, rfl⟩
  | portEnableWrite => exact ⟨_, rfl⟩
  | keyOfferRx => exact ⟨_, rfl⟩
  | keyAcceptRx => exact ⟨_, rfl⟩
  | keyAcceptTimeout => exact ⟨_, rfl⟩
  | hrtWriteRx => exact ⟨_, rfl⟩
  | hrtAddRx => exact ⟨_, rfl⟩
  | hrtAckRx => exact ⟨_, rfl⟩
  | hrtWindowWriteRx => exact ⟨_, rfl⟩
  | bufferFreeRx => exact ⟨_, guardWf_congr (bufferFree_guard _)⟩
  | hrtAckDelay => exact ⟨_, rfl⟩
  | hrtRtoExpiry => exact ⟨_, rfl⟩
  | partnerTimeout => exact ⟨_, rfl⟩
  | peerSlowDetect => exact ⟨_, rfl⟩
  | peerQuarantineClear => exact ⟨_, rfl⟩
  | linkError => exact ⟨_, rfl⟩
  | linkRetrainDone => exact ⟨_, rfl⟩
  | linkRetryExpiry => exact ⟨_, rfl⟩
  | hostRstAssert => exact ⟨_, rfl⟩
  | hostRstRelease => exact ⟨_, rfl⟩
  | holdQuiesce => exact ⟨_, rfl⟩
  | holdRecordWrite => exact ⟨_, rfl⟩
  | adopt => exact ⟨_, rfl⟩
  | adoptionEnd => exact ⟨_, rfl⟩
  | reAttach => exact ⟨_, rfl⟩
  | holdDiscard => exact ⟨_, rfl⟩
  | doorbellSqTail => exact ⟨_, rfl⟩
  | doorbellCqHead => exact ⟨_, rfl⟩
  | manifestFetch => exact ⟨_, rfl⟩
  | manifestReread => exact ⟨_, rfl⟩
  | manifestNop => exact ⟨_, rfl⟩
  | imageLoad => exact ⟨_, rfl⟩
  | consistControlStart => exact ⟨_, rfl⟩
  | consistControlRestart => exact ⟨_, rfl⟩
  | consistControlStop => exact ⟨_, rfl⟩
  | consistControlUnload => exact ⟨_, rfl⟩
  | nounWrite => exact ⟨_, rfl⟩
  | manifestSlotWrite => exact ⟨_, rfl⟩
  | semDeclare => exact ⟨_, rfl⟩
  | manifestSemReset => exact ⟨_, rfl⟩
  | manifestCopy => exact ⟨_, rfl⟩
  | depotRead => exact ⟨_, rfl⟩
  | depotWrite => exact ⟨_, rfl⟩
  | ruleLoad => exact ⟨_, rfl⟩
  | layerWrite => exact ⟨_, rfl⟩
  | manifestComplete => exact ⟨_, rfl⟩
  | queueEnable => exact ⟨_, rfl⟩
  | queueDisable => exact ⟨_, rfl⟩
  | apertureDescriptorWrite => exact ⟨_, rfl⟩
  | hostApertureRead => exact ⟨_, rfl⟩
  | hostApertureWrite => exact ⟨_, rfl⟩
  | hostReservedAccess => exact ⟨_, rfl⟩
  | grantObjectWrite => exact ⟨_, rfl⟩
  | grantCommit => exact ⟨_, rfl⟩
  | grantRelease => exact ⟨_, rfl⟩
  | grantDiscard => exact ⟨_, rfl⟩
  | grantForceRelease => exact ⟨_, rfl⟩
  | grantSwap => exact ⟨_, rfl⟩
  | windowTableSwap => exact ⟨_, rfl⟩
  | consistClearEnd => exact ⟨_, rfl⟩
  | quoteRequest => exact ⟨_, rfl⟩
  | depotKeyImport => exact ⟨_, rfl⟩
  | debugOpen => exact ⟨_, rfl⟩
  | tapUnlock => exact ⟨_, rfl⟩
  | tapInstructionLoad => exact ⟨_, rfl⟩
  | debugEraseRelease => exact ⟨_, rfl⟩
  | debugEraseEnd => exact ⟨_, rfl⟩
  | identityCertWrite => exact ⟨_, rfl⟩
  | keyListWrite => exact ⟨_, rfl⟩
  | lmpRead => exact ⟨_, rfl⟩
  | lmpWrite => exact ⟨_, rfl⟩
  | lmpReadIndex => exact ⟨_, rfl⟩
  | bookRead => exact ⟨_, rfl⟩
  | lmpCheckpointRead => exact ⟨_, rfl⟩
  | lmpOpen => exact ⟨_, rfl⟩
  | lmpOpenProof => exact ⟨_, rfl⟩
  | lmpClose => exact ⟨_, rfl⟩
  | lmpOpenTimeout => exact ⟨_, rfl⟩
  | lmpIdleTimeout => exact ⟨_, rfl⟩
  | lmpSnapshotExpiry => exact ⟨_, rfl⟩
  | lmpSegmentTimeout => exact ⟨_, rfl⟩
  | mgmtSettingsApply => exact ⟨_, rfl⟩
  | bookCheckpoint => exact ⟨_, rfl⟩
  | bookCheckpointSign => exact ⟨_, rfl⟩
  | bookExportMarkWrite => exact ⟨_, rfl⟩
  | restoreDefaults => exact ⟨_, rfl⟩
  | startUp => exact ⟨_, guardWf_congr (bootEnv_guard _)⟩
  | startupStepTimeout => exact ⟨_, rfl⟩
  | moduleRestart => exact ⟨_, rfl⟩
  | moduleRestartForce => exact ⟨_, rfl⟩
  | ledgerClear => exact ⟨_, rfl⟩
  | fwChunk => exact ⟨_, rfl⟩
  | fwVerify => exact ⟨_, rfl⟩
  | fwCommit => exact ⟨_, rfl⟩
  | fwCommitEnd => exact ⟨_, rfl⟩
  | fwActivate => exact ⟨_, rfl⟩
  | fwDrop => exact ⟨_, rfl⟩
  | recoveryCommand => exact ⟨_, rfl⟩
  | domainOnRequest => exact ⟨_, rfl⟩
  | domainRetentionRequest => exact ⟨_, rfl⟩
  | domainOffRequest => exact ⟨_, rfl⟩
  | domainEntryEnd => exact ⟨_, rfl⟩
  | domainWakeEnd => exact ⟨_, rfl⟩
  | padRelease => exact ⟨_, rfl⟩
  | powerCapWrite => exact ⟨_, rfl⟩
  | airflowWrite => exact ⟨_, rfl⟩
  | powerGuard => exact ⟨_, rfl⟩
  | arrayDutyAdjust => exact ⟨_, rfl⟩
  | thermalSample => exact ⟨_, guardWf_congr (temps_guard _)⟩
  | inletSample => exact ⟨_, guardWf_congr (isF32_eq_f32Ok _)⟩
  | inletCapRise => exact ⟨_, rfl⟩
  | vinStart => exact ⟨_, guardWf_congr (isF32_eq_f32Ok _)⟩
  | vinLoss => exact ⟨_, guardWf_congr (isF32_eq_f32Ok _)⟩
  | ppsEdge => exact ⟨_, rfl⟩
  | todFrame => exact ⟨_, rfl⟩
  | ppsMissing => exact ⟨_, rfl⟩
  | osfpPresent => exact ⟨_, rfl⟩
  | osfpLowPowerRelease => exact ⟨_, rfl⟩
  | controlStateError f => cases f <;> exact ⟨_, rfl⟩
  | vosfpLoss => exact ⟨_, rfl⟩
  | vosfpReturn => exact ⟨_, rfl⟩
  | osfpPresenceDeassert => exact ⟨_, rfl⟩
  | queueDescriptorWrite => exact ⟨_, rfl⟩
  | entryAbandoned => exact ⟨_, rfl⟩
  | mma | mmaSplit2 | mmaSplit3 | vrun | stream | atomicAdd | post | wait | signalArrive | semReset | scaleAdjustShift | scaleAdjustFresh
  | scaleAdjustApply | loopBegin | loopEnd | slotWrite | nounSet | slotMark | nop | halt | allReduce | allReduceFree | reduceScatter
  | allGather | broadcast | reduceToRoot | allToAll | maxReduce | clusterBarrier | gatherLayer | dropLayer | sendActivations
  | recvActivations | ringExchange | statMergeAll | pointsChange | statMerge | softmaxRows | layerNorm | rmsNorm | gelu | siluGate
  | rotaryEmbed | dropoutMask | crossEntropy | lossSubmit | gradNorm | gradClip | scaleLayer | histogramClear | convert | transpose | fill
  | copy | gatherRows | scatterAddRows | spillToNear | resumeFromNear | prefetchLayer | checkpointWrite | checkpointRead | datasetRead
  | windowRegister | windowRelease | updateAdamw | updateAdamL2 | updateSgdMomentum | updateCustom | stepVote | stepCounterRead | freezeSet
  | layerScaleSet | sidingPark | sidingDrain | attentionFwd | attentionBwd | causalMask | attentionMerge | matmulBias | matmulFp32
  | topkRoute | expertDispatch | expertCombine | selfTest => exact verb_guard (by simp [Instr.wf, verbOk])

/-- A well-formed command at the front of the queue is carried out. -/
theorem exec_next {i : Instr} {s : State} (w : i.wf = true) : ∃ t, exec i s = .next t := by
  obtain ⟨t, e⟩ := exec_guard i s
  exact ⟨t, by rw [e, guardWf, if_pos w]⟩

theorem steps_exec {i : Instr} {s t : State} (e : exec i s = .next t) : Steps Field.all s t := leads_exec t e

/-- What a step keeps, whatever waits: memory's canonical form and the order of time. -/
theorem step_kept {s t : State} (e : step s = .next t) : s.now ≤ t.now ∧ (Memory.wf s.mem = true → Memory.wf t.mem = true) := by
  unfold step at e
  split at e
  · cases e
    exact ⟨le_rfl, id⟩
  · have h := steps_exec e
    exact ⟨h.now_le, h.mem_wf⟩

end Sys2Proof.Machine

open Sys2Proof Sys2Proof.Machine

/-- Settles O3: a command's guard is its well-formedness. -/
theorem wellFormedRuns : Obligations.WellFormedRuns := by
  intro i s
  obtain ⟨t, e⟩ := exec_guard i s
  rw [e]
  exact ⟨fun w => ⟨t, by rw [guardWf, if_pos w]⟩, fun w => by rw [guardWf, w]; rfl⟩

/-- Settles O4: no operation of the model touches the queue, so that a step leaves the queue's rest. -/
theorem queueKept : Obligations.QueueKept := by
  intro s w
  unfold step
  match e : s.pending with
  | [] => exact ⟨s, rfl, by rw [e]; rfl, w⟩
  | c :: rest =>
    have hw : c.wf = true ∧ rest.all (·.wf) = true := by simpa [queueWf, e] using w
    obtain ⟨t, ht⟩ := exec_next (s := { s with pending := rest }) hw.1
    have hp : t.pending = rest := (steps_exec ht).pending
    exact ⟨t, ht, hp, by rw [queueWf, hp]; exact hw.2⟩

/-- Settles O5: every write to memory goes through cells that keep the canonical form. -/
theorem memoryKept : Obligations.MemoryKept := fun _ _ w e => (step_kept e).2 w

/-- Settles O6: a command's time comes into force by the later of two. -/
theorem timeNeverBack : Obligations.TimeNeverBack := fun _ _ e => (step_kept e).1
end

section
/-! What an operation that may change only some fields leaves of the others: objects, counters, tables. -/

namespace Sys2Proof.Machine

-- Checked one after another: the check allows too few threads for more.
set_option Elab.async false

/-! ### Fields that an operation leaves -/

namespace Steps

variable {F : List Field} {s t : State}

theorem od_eq (h : Steps F s t) (n : F.contains .od = false := by rfl) : t.od = s.od := by
  have e := congrArg State.od h.frame
  rwa [State.merge, n] at e
theorem ctr_eq (h : Steps F s t) (n : F.contains .ctr = false := by rfl) : t.ctr = s.ctr := by
  have e := congrArg State.ctr h.frame
  rwa [State.merge, n] at e
theorem pow_eq (h : Steps F s t) (n : F.contains .pow = false := by rfl) : t.pow = s.pow := by
  have e := congrArg State.pow h.frame
  rwa [State.merge, n] at e
theorem time_eq (h : Steps F s t) (n : F.contains .time = false := by rfl) : t.time = s.time := by
  have e := congrArg State.time h.frame
  rwa [State.merge, n] at e
theorem mem_eq (h : Steps F s t) (n : F.contains .mem = false := by rfl) : t.mem = s.mem := by
  have e := congrArg State.mem h.frame
  rwa [State.merge, n] at e
theorem sems_eq (h : Steps F s t) (n : F.contains .sems = false := by rfl) : t.sems = s.sems := by
  have e := congrArg State.sems h.frame
  rwa [State.merge, n] at e
theorem consists_eq (h : Steps F s t) (n : F.contains .consists = false := by rfl) : t.consists = s.consists := by
  have e := congrArg State.consists h.frame
  rwa [State.merge, n] at e
theorem parts_eq (h : Steps F s t) (n : F.contains .parts = false := by rfl) : t.parts = s.parts := by
  have e := congrArg State.parts h.frame
  rwa [State.merge, n] at e
theorem depot_eq (h : Steps F s t) (n : F.contains .depot = false := by rfl) : t.depot = s.depot := by
  have e := congrArg State.depot h.frame
  rwa [State.merge, n] at e
theorem qps_eq (h : Steps F s t) (n : F.contains .qps = false := by rfl) : t.qps = s.qps := by
  have e := congrArg State.qps h.frame
  rwa [State.merge, n] at e
theorem ports_eq (h : Steps F s t) (n : F.contains .ports = false := by rfl) : t.ports = s.ports := by
  have e := congrArg State.ports h.frame
  rwa [State.merge, n] at e
theorem boot_eq (h : Steps F s t) (n : F.contains .boot = false := by rfl) : t.boot = s.boot := by
  have e := congrArg State.boot h.frame
  rwa [State.merge, n] at e
theorem link_eq (h : Steps F s t) (n : F.contains .link = false := by rfl) : t.link = s.link := by
  have e := congrArg State.link h.frame
  rwa [State.merge, n] at e
theorem sec_eq (h : Steps F s t) (n : F.contains .sec = false := by rfl) : t.sec = s.sec := by
  have e := congrArg State.sec h.frame
  rwa [State.merge, n] at e
theorem queues_eq (h : Steps F s t) (n : F.contains .queues = false := by rfl) : t.queues = s.queues := by
  have e := congrArg State.queues h.frame
  rwa [State.merge, n] at e
theorem out_eq (h : Steps F s t) (n : F.contains .out = false := by rfl) : t.out = s.out := by
  have e := congrArg State.out h.frame
  rwa [State.merge, n] at e
theorem now_eq (h : Steps F s t) (n : F.contains .now = false := by rfl) : t.now = s.now := by
  have e := congrArg State.now h.frame
  rwa [State.merge, n] at e
theorem free_eq (h : Steps F s t) (n : F.contains .free = false := by rfl) : t.free = s.free := by
  have e := congrArg State.free h.frame
  rwa [State.merge, n] at e

end Steps

/-! ### Objects and counters -/

theorem odVal_congr {s t : State} (h : t.od = s.od) (k : Nat) : odVal t k = odVal s k := by simp only [odVal, h]
theorem odN_congr {s t : State} (h : t.od = s.od) (k : Nat) : odN t k = odN s k := by simp only [odN, odVal_congr h]
theorem ctrGet_congr {s t : State} (h : t.ctr = s.ctr) (k v : Nat) : ctrGet t k v = ctrGet s k v := by simp only [ctrGet, h]
theorem con_congr {s t : State} (h : t.consists = s.consists) (k : Nat) : con t k = con s k := by simp only [con, h]
theorem part_congr {s t : State} (h : t.parts = s.parts) (p : Nat) : part t p = part s p := by simp only [part, h]
theorem domState_congr {s t : State} (h : t.od = s.od) (d : Nat) : domState t d = domState s d := odN_congr h _

theorem odKept_of_od {l : List Nat} {s t : State} (h : t.od = s.od) : OdKept l s t := fun k _ => odVal_congr h k
theorem ctrKept_of_ctr {l : List Nat} {s t : State} (h : t.ctr = s.ctr) : CtrKept l s t := fun k v _ _ => ctrGet_congr h k v

theorem CtrKept.operator {l : List Nat} {s t : State} (h : CtrKept l s t) {k : Nat} (hk : k ∉ l) : ctrGet t k 0 = ctrGet s k 0 :=
  h k 0 (by decide) hk

theorem counted_bump (s : State) (k : Nat) {n : Nat} (p : Option Nat) (h : n ≠ 0 := by decide) : Counted s (bump s k n p) k n :=
  ctrGet_bump_operator s k n p h

/-- Counts of other counters before and after. -/
theorem Counted.after {s t u : State} {k n : Nat} (h : ctrGet t k 0 = ctrGet s k 0) (c : Counted t u k n) : Counted s u k n := by
  rw [Counted, ← h]; exact c
theorem Counted.before {s t u : State} {k n : Nat} (c : Counted s t k n) (h : ctrGet u k 0 = ctrGet t k 0) : Counted s u k n := h.trans c

theorem ctrKept_entered (s : State) (w : Who) (k : Nat) (v : OdVal) : CtrKept [kBookEntries, kBookEntriesOverwritten] s (entered s w k v) :=
  ctrKept_appendEntry s _

theorem odKept_answered {l : List Nat} {s t : State} (h : OdKept l s t) (key : Nat) : OdKept l s (answered t key) := h.trans (odKept_emit _ _ _)

theorem steps_entered {s : State} {w : Who} {k : Nat} {v : OdVal} : Steps [.od, .ctr, .book] s (entered s w k v) := steps_appendEntry

/-! ### Domains (R490, R491) -/

theorem moved_congr {s t : State} (h : odN t kCageModeActive = odN s kCageModeActive) (d : Nat) : moved t d = moved s d := by
  unfold moved isMate
  rw [h]

/-- Each domain's state is an object of its own, and no other object. -/
theorem kDomainState_inj {d e : Nat} : kDomainState (d + 1) = kDomainState (e + 1) ↔ d = e := by simp [kDomainState]

theorem domState_setDom (s : State) (d x v : Nat) : domState (setDom s d v) x = if x = d then v else domState s x := by
  split
  · next h => rw [h, domState_setDom_same]
  · next h => exact domState_setDom_ne s (mt kDomainState_inj.mp h)

/-- The domains that move on a request have numbers below 128. -/
theorem moved_lt {s : State} {d e : Nat} (hd : d < 128) (h : e ∈ moved s d) : e < 128 := by
  unfold moved at h
  split at h
  · simp at h; omega
  · simp at h; omega

theorem moved_nodup (s : State) (d : Nat) : (moved s d).Nodup := by
  unfold moved
  split <;> simp

theorem mem_moved (s : State) (d : Nat) : d ∈ moved s d := by
  unfold moved
  split <;> simp

end Sys2Proof.Machine
end

section
/-! O14 to O16: the cap's write, pads, and the domains' transitions (R490 to R500). -/

namespace Sys2Proof.Machine

-- Checked one after another: the check allows too few threads for more.
set_option Elab.async false

/-- The answer to a write changes what the write changed, and what is shown. -/
theorem Steps.answered {F : List Field} {s t : State} (h : Steps F s t) (key : Nat) (n : F.contains .out = false := by rfl) :
    answered t key = { s.merge F t with out := .written key 0 :: s.out } := by
  rw [← h.frame, ← h.out_eq n]; rfl

@[simp] theorem odN_answered (s : State) (key k : Nat) : odN (answered s key) k = odN s k := rfl
@[simp] theorem domState_answered (s : State) (key d : Nat) : domState (answered s key) d = domState s d := rfl
@[simp] theorem ctrGet_answered (s : State) (key k v : Nat) : ctrGet (answered s key) k v = ctrGet s k v := rfl
@[simp] theorem answered_pow (s : State) (key : Nat) : (answered s key).pow = s.pow := rfl
@[simp] theorem answered_time (s : State) (key : Nat) : (answered s key).time = s.time := rfl

theorem Counted.answered {s t : State} {k n : Nat} (c : Counted s t k n) (key : Nat) : Counted s (answered t key) k n :=
  c.before (ctrGet_answered t key k 0)

theorem isMate_of_lt {s : State} {d : Nat} (h : d < 0x60) : isMate s d = false := by
  simp [isMate, show ¬ 0x60 ≤ d by omega]

theorem moved_of_lt {s : State} {d : Nat} (h : d < 0x60) : moved s d = [d] := by
  rw [moved, if_neg (by omega)]

theorem moved_of_ge {s : State} {d : Nat} (h : 0x68 ≤ d) : moved s d = [d] := by
  rw [moved, if_neg (by omega)]

/-- The object of a domain's state is neither the book's nor the cages'. -/
theorem kDomainState_notMem_bookKeys (d : Nat) : kDomainState (d + 1) ∉ bookKeys := by
  simp [bookKeys, kDomainState, kBookHeadSerial, kBookHeadHash, kBookOldestSerial]; omega

theorem domState_entered (s : State) (w : Who) (k : Nat) (v : OdVal) (d : Nat) : domState (entered s w k v) d = domState s d :=
  odN_entered s w k v (kDomainState_notMem_bookKeys d)

theorem moved_entered (s : State) (w : Who) (k : Nat) (v : OdVal) (d : Nat) : moved (entered s w k v) d = moved s d :=
  moved_congr (odN_entered s w k v (by decide)) d

theorem entered_out (s : State) (w : Who) (k : Nat) (v : OdVal) : (entered s w k v).out = s.out := appendEntry_out s _

/-- What each of a list of domains reads when an operation has met them one after another, each of its own alone. -/
theorem foldl_each {α : Type} {op : State → Nat → State} {g f : State → Nat → α} (same : ∀ s d, g (op s d) d = f s d)
    (other : ∀ s d e, e ≠ d → g (op s d) e = g s e) (keep : ∀ s d e, e ≠ d → f (op s d) e = f s e) {l : List Nat} (nd : l.Nodup)
    (s : State) (e : Nat) : g (l.foldl op s) e = if e ∈ l then f s e else g s e := by
  induction l generalizing s with
  | nil => rfl
  | cons d r ih =>
    obtain ⟨hd, hr⟩ := List.nodup_cons.mp nd
    rw [List.foldl_cons, ih hr]
    by_cases h : e = d
    · subst h; simp [hd, same]
    · simp [h, other _ _ _ h, keep _ _ _ h]

/-- Objects that a fold over domains keeps. -/
theorem odKept_foldl {op : State → Nat → State} (h : ∀ s d, OdKept [kDomainState (d + 1)] s (op s d)) (l : List Nat) (s : State) :
    OdKept (l.map fun e => kDomainState (e + 1)) s (l.foldl op s) := by
  induction l generalizing s with
  | nil => exact .refl _ s
  | cons d r ih =>
    exact ((h s d).mono (by simp)).trans ((ih _).mono (by simp +contextual))

theorem domState_foldl_setDom (l : List Nat) (nd : l.Nodup) (v : Nat) (s : State) (e : Nat) :
    domState (l.foldl (fun s d => setDom s d v) s) e = if e ∈ l then v else domState s e :=
  foldl_each (f := fun _ _ => v) (by simp) (by simp +contextual [domState_setDom]) (by simp) nd s e

theorem odKept_setDom (s : State) (d v : Nat) : OdKept [kDomainState (d + 1)] s (setDom s d v) := odKept_odSet s v (by simp)

/-! ### The cap's write and pads (R500, R501) -/

theorem exec_powerCapWrite_taken {who : Who} {v : Nat} {s : State} (hr : who.role = .operator) (ho : writeOpen s kPowerCap (.num v) = true)
    (h1 : 900 ≤ v) (h2 : v ≤ 1800) (h3 : v % 50 = 0) :
    exec (.powerCapWrite who v) s = .next (answered (odSet (entered s who kPowerCap (.num v)) kPowerCap v) kPowerCap) := by
  have hc : opOnly who (if v < 900 ∨ 1800 < v ∨ v % 50 ≠ 0 then .malformed else .ok) = .ok := by
    rw [opOnly, if_pos hr, if_neg (by omega)]
  show execPowerCapWrite who v s = _
  rw [execPowerCapWrite, decide_eq_true (show v < 65536 by omega), guardWf_true, dictWrite_taken ho hc]

/-- The effect of an accepted release: the pads of each domain that moves go on, and the release counts. -/
def padsReleased (s : State) (d : Nat) : State := bump ((moved s d).foldl (fun s d => setDom s d 0) s) kPadReleases 1 none

theorem exec_padRelease_taken {who : Who} {d : Nat} {s : State} (hr : who.role = .operator) (ho : writeOpen s kPadRelease (.num d) = true)
    (hd : isDomain d = true) (hm : isMate s d = false) (h5 : domState s d = 5) :
    exec (.padRelease who d) s = .next (answered (padsReleased (entered s who kPadRelease (.num d)) d) kPadRelease) := by
  have hl : d < 256 := by
    simp only [isDomain, Bool.or_eq_true, Bool.and_eq_true, decide_eq_true_eq] at hd; omega
  show execPadRelease who d s = _
  rw [execPadRelease, decide_eq_true hl, guardWf_true, dictWrite_taken ho (by simp [domainRole, hr, hm, hd, h5]), padsReleased]

theorem domState_padsReleased (s : State) (d e : Nat) (h : e ∈ moved s d) : domState (padsReleased s d) e = 0 := by
  rw [padsReleased, domState_congr (bump_od ..), domState_foldl_setDom _ (moved_nodup s d), if_pos h]

theorem odKept_padsReleased (s : State) (d : Nat) : OdKept ((moved s d).map fun e => kDomainState (e + 1)) s (padsReleased s d) :=
  (odKept_foldl (fun s d => odKept_setDom s d 0) _ s).trans (odKept_bump _ _ _ _ _)

theorem steps_padsReleased {s : State} {d : Nat} : Steps [.od, .ctr] s (padsReleased s d) :=
  .andThen (.foldl .refl fun _ _ => steps_setDom.mono) steps_bump

theorem counted_padsReleased (s : State) (d : Nat) : Counted s (padsReleased s d) kPadReleases 1 :=
  .after (ctrGet_congr ((Steps.foldl (F := [.od]) .refl fun _ _ => steps_setDom).ctr_eq) _ _) (counted_bump _ _ _)

/-! ### Requests (R492 to R494, R497) -/

theorem exec_domainWrite_taken {who : Who} {d v : Nat} {s : State} (ho : writeOpen s (kDomainState (d + 1)) (.num v) = true)
    (hc : domainCheck s who d v = .ok) : domainWrite who d v s =
      answered (if v = 0 then requestOn (entered s who (kDomainState (d + 1)) (.num v)) d
        else requestDeep (entered s who (kDomainState (d + 1)) (.num v)) d v) (kDomainState (d + 1)) := by
  rw [domainWrite, dictWrite_taken ho hc]

/-- The checks of a request for on that R493 lets through. -/
theorem domainCheck_ok {s : State} {who : Who} {d v : Nat} (hr : domainRole s who d v = true) (hd : isDomain d = true)
    (hv : v ≤ 2) (h7 : d = 0x7F → v = 0) (hm : isMate s d = false) (hh : holding s = false) (h2 : domState s d ≤ 2)
    (ha : d < 40 → bitOf (odN s kConsistAvailableMap) d = true) (hs : v ≠ 0 → mustStay s d v = false) : domainCheck s who d v = .ok := by
  unfold domainCheck
  rw [if_neg (by simp [hd, hr]), if_neg (by simp [hm]; omega), if_neg (by simp [hh]; omega), if_neg (by simpa using ha)]
  by_cases h : domState s d = v
  · simp [h]
  · rw [if_neg h, if_neg (by simpa using hs)]

/-- What a wake event makes of a domain's state. -/
def woken (v : Nat) : Nat := if v = 1 ∨ v = 2 then 4 else v

theorem wakeOne_low {s : State} {d : Nat} (h : domState s d = 1 ∨ domState s d = 2) : wakeOne s d = beginWake s d := by
  obtain h | h := h <;> simp only [wakeOne, h]

theorem wakeOne_entering {s : State} {d : Nat} (h : domState s d = 3) : wakeOne s d = meetEntry s d := by simp only [wakeOne, h]

theorem wakeOne_other {s : State} {d : Nat} (h : domState s d ≠ 1) (h2 : domState s d ≠ 2) (h3 : domState s d ≠ 3) : wakeOne s d = s := by
  unfold wakeOne
  split
  · exact absurd ‹_› h
  · exact absurd ‹_› h2
  · exact absurd ‹_› h3
  · rfl

theorem domState_wakeOne (s : State) (d e : Nat) :
    domState (wakeOne s d) e = if e = d then woken (domState s d) else domState s e := by
  by_cases h : domState s d = 1 ∨ domState s d = 2
  · rw [wakeOne_low h, beginWake, domState_setDom, woken, if_pos h]; rfl
  · obtain ⟨h1, h2⟩ := not_or.mp h
    have : domState (wakeOne s d) e = domState s e := by
      by_cases h3 : domState s d = 3
      · rw [wakeOne_entering h3]; exact domState_congr steps_meetEntry.od_eq e
      · rw [wakeOne_other h1 h2 h3]
    rw [this, woken, if_neg h]
    split
    · next he => rw [he]
    · rfl

theorem waking_wakeOne (s : State) (d e : Nat) : tget 0 (wakeOne s d).pow.waking e =
    if e = d ∧ (domState s d = 1 ∨ domState s d = 2) then domState s d else tget 0 s.pow.waking e := by
  by_cases h : domState s d = 1 ∨ domState s d = 2
  · rw [wakeOne_low h]
    by_cases he : e = d
    · subst he; rw [if_pos ⟨rfl, h⟩]; exact tget_tset_same _ _ _ _
    · rw [if_neg (by simp [he])]; exact tget_tset_ne _ _ _ he
  · rw [if_neg (by simp [h])]
    obtain ⟨h1, h2⟩ := not_or.mp h
    by_cases h3 : domState s d = 3
    · rw [wakeOne_entering h3]; unfold meetEntry; simp
    · rw [wakeOne_other h1 h2 h3]

/-- The die that contains the domain, woken first. -/
def dieWoken (s : State) (d : Nat) : State := match dieOf d with
  | some n => wakeOne s n
  | none => s

theorem requestOn_eq (s : State) (d : Nat) : requestOn s d = (moved (dieWoken s d) d).foldl wakeOne (dieWoken s d) := rfl

theorem domState_dieWoken (s : State) (d e : Nat) :
    domState (dieWoken s d) e = if dieOf d = some e then woken (domState s e) else domState s e := by
  unfold dieWoken
  split
  · next n hn =>
    rw [domState_wakeOne, hn]
    by_cases h : e = n
    · simp [h]
    · simp [h, Ne.symm h]
  · next hn => simp [hn]

theorem steps_dieWoken {s : State} {d : Nat} : Steps [.od, .ctr, .pow] s (dieWoken s d) := by
  unfold dieWoken
  split
  · exact steps_wakeOne
  · exact .refl

/-- A die is not among the domains that move with one that it contains. -/
theorem dieOf_notMem_moved {s : State} {d e : Nat} (h : e ∈ moved s d) : dieOf d ≠ some e := by
  unfold dieOf moved at *
  intro h'
  split at h' <;> split at h <;> try split at h'
  all_goals simp at h h'; try omega

theorem odKept_wakeOne (s : State) (d : Nat) : OdKept [kDomainState (d + 1)] s (wakeOne s d) := by
  unfold wakeOne
  split
  · exact odKept_setDom _ _ _
  · exact odKept_setDom _ _ _
  · exact odKept_of_od steps_meetEntry.od_eq
  · exact .refl _ s

theorem moved_dieWoken (s : State) (d : Nat) : moved (dieWoken s d) d = moved s d := by
  refine moved_congr ?_ d
  unfold dieWoken
  split
  · next n hn =>
    refine (odKept_wakeOne s n).odN_eq ?_
    have : n < 0x38 := by
      unfold dieOf at hn
      split at hn
      · simp at hn; omega
      · split at hn
        · simp at hn; omega
        · cases hn
    simp [kCageModeActive, kDomainState]; omega
  · rfl

/-- A request for on wakes each domain that moves, and the die that contains it. -/
theorem domState_requestOn (s : State) (d e : Nat) :
    domState (requestOn s d) e = if e ∈ moved s d ∨ dieOf d = some e then woken (domState s e) else domState s e := by
  rw [requestOn_eq, moved_dieWoken, foldl_each (g := domState) (f := fun s d => woken (domState s d)) (by simp [domState_wakeOne])
    (by simp +contextual [domState_wakeOne]) (by simp +contextual [domState_wakeOne]) (moved_nodup s d), domState_dieWoken]
  by_cases h : e ∈ moved s d
  · simp [h, dieOf_notMem_moved h]
  · simp [h]

theorem waking_requestOn (s : State) {d e : Nat} (h : e ∈ moved s d) (hl : domState s e = 1 ∨ domState s e = 2) :
    tget 0 (requestOn s d).pow.waking e = domState s e := by
  have hd : domState (dieWoken s d) e = domState s e := by rw [domState_dieWoken, if_neg (dieOf_notMem_moved h)]
  rw [requestOn_eq, moved_dieWoken, foldl_each (g := fun s e => tget 0 s.pow.waking e)
    (f := fun s d => if domState s d = 1 ∨ domState s d = 2 then domState s d else tget 0 s.pow.waking d) (by simp [waking_wakeOne])
    (by simp +contextual [waking_wakeOne]) (by simp +contextual [waking_wakeOne, domState_wakeOne]) (moved_nodup s d), if_pos h, hd, if_pos hl]

/-- One domain begins its entry to `v`. -/
def beginEntry (v : Nat) (s : State) (d : Nat) : State :=
  setDom { s with pow := { s.pow with entering := tset 0 s.pow.entering d v, wakeMet := setDel s.pow.wakeMet d } } d 3

theorem requestDeep_eq {s : State} {d v : Nat} (h : domState s d ≠ v) : requestDeep s d v = (moved s d).foldl (beginEntry v) s := if_neg h

theorem domState_beginEntries (v : Nat) (l : List Nat) (nd : l.Nodup) (s : State) (e : Nat) :
    domState (l.foldl (beginEntry v) s) e = if e ∈ l then 3 else domState s e :=
  foldl_each (op := beginEntry v) (f := fun _ _ => 3) (fun _ _ => domState_setDom_same _ _ _)
    (fun _ _ _ h => (domState_setDom _ _ _ _).trans (if_neg h)) (fun _ _ _ _ => rfl) nd s e

theorem entering_beginEntries (v : Nat) (l : List Nat) (nd : l.Nodup) (s : State) (e : Nat) :
    tget 0 (l.foldl (beginEntry v) s).pow.entering e = if e ∈ l then v else tget 0 s.pow.entering e :=
  foldl_each (op := beginEntry v) (g := fun s e => tget 0 s.pow.entering e) (f := fun _ _ => v) (fun _ _ => tget_tset_same _ _ _ _)
    (fun _ _ _ h => tget_tset_ne _ _ _ h) (fun _ _ _ _ => rfl) nd s e

theorem exec_domainOnRequest (who : Who) {d : Nat} (s : State) (h : d < 128) :
    exec (.domainOnRequest who d) s = .next (domainWrite who d 0 s) := by
  show execDomainOnRequest who d s = _
  rw [execDomainOnRequest, decide_eq_true h, guardWf_true]

/-- The two commands that ask for less than on. -/
theorem exec_domainDeepRequest {who : Who} {d v : Nat} {i : Instr} (s : State)
    (hi : v = 1 ∧ i = .domainRetentionRequest who d ∨ v = 2 ∧ i = .domainOffRequest who d) (h : d < 128) :
    exec i s = .next (domainWrite who d v s) := by
  obtain ⟨rfl, rfl⟩ | ⟨rfl, rfl⟩ := hi
  · show execDomainRetentionRequest who d s = _
    rw [execDomainRetentionRequest, decide_eq_true h, guardWf_true]
  · show execDomainOffRequest who d s = _
    rw [execDomainOffRequest, decide_eq_true h, guardWf_true]

end Sys2Proof.Machine

open Sys2Proof Sys2Proof.Machine

/-- Settles O14: both writes are taken; the cap's sets one object, the release sets the domains that move. -/
theorem powerCapWritten : Obligations.PowerCapWritten := by
  refine ⟨?cap, ?pads⟩
  case cap =>
    intro who v s hr ho h1 h2 h3
    refine ⟨_, exec_powerCapWrite_taken hr ho h1 h2 h3, ?value, ?others, ?frame⟩
    case value => rw [odN_answered, odN_odSet_same]
    case others =>
      exact odKept_answered (((odKept_entered s who _ _).mono (by simp +contextual)).trans (odKept_odSet _ v (by simp))) _
    case frame => exact (steps_entered.andThen steps_odSet).answered _
  case pads =>
    intro who d s hr ho hd hm h5
    refine ⟨_, exec_padRelease_taken hr ho hd hm h5, ?on, ?others, ?count, ?frame⟩
    case on => exact fun e he => (domState_answered _ _ e).trans (domState_padsReleased _ d e (by rwa [moved_entered]))
    case others =>
      have h := odKept_padsReleased (entered s who kPadRelease (.num d)) d
      rw [moved_entered] at h
      exact odKept_answered (((odKept_entered s who _ _).mono (by simp +contextual)).trans (h.mono (by simp +contextual))) _
    case count => exact ((counted_padsReleased _ d).after ((ctrKept_entered s who _ _).operator (by decide))).answered _
    case frame => exact (steps_entered.andThen steps_padsReleased).answered _

/-- Settles O15: the checks pass, and the request meets each domain that moves, the die first. -/
theorem domainsMove : Obligations.DomainsMove := by
  refine ⟨?on, ?deep⟩
  case on =>
    intro who d s hr ho hl hd hm hh h2 ha
    have he : ∀ e, domState (entered s who (kDomainState (d + 1)) (.num 0)) e = domState s e := domState_entered s who _ _
    have hc := domainCheck_ok hr hd (by decide) (by simp) hm hh h2 ha (by simp)
    refine ⟨_, (exec_domainOnRequest who s hl).trans (congrArg _ (exec_domainWrite_taken ho hc)), ?woken, ?die, ?others, ?frame⟩
    case woken =>
      intro e hm hl
      have hme : e ∈ moved (entered s who (kDomainState (d + 1)) (.num 0)) d := by rwa [moved_entered]
      constructor
      · exact (domState_requestOn _ d e).trans (by rw [if_pos (.inl hme), he, woken, if_pos hl])
      · exact (waking_requestOn _ hme (by rwa [he])).trans (he e)
    case die => exact fun n hn hl => (domState_requestOn _ d n).trans (by rw [if_pos (.inr hn), he, woken, if_pos hl])
    case others => exact fun e _ hm hd => (domState_requestOn _ d e).trans (by rw [moved_entered, if_neg (not_or.mpr ⟨hm, hd⟩), he])
    case frame => exact (Steps.andThen (F := [.od, .ctr, .book, .pow]) steps_entered.mono steps_requestOn).answered _
  case deep =>
    intro who d v i s hi hr ho hl hd hm hh h2 hne ha hs
    have hv : v = 1 ∨ v = 2 := hi.imp And.left And.left
    have hv0 : v ≠ 0 := by omega
    have hc := domainCheck_ok hr hd (by omega) (by omega) hm hh h2 ha fun _ => hs
    have he : ∀ e, domState (entered s who (kDomainState (d + 1)) (.num v)) e = domState s e := domState_entered s who _ _
    have ht := (exec_domainDeepRequest s hi (by omega)).trans (congrArg _ (exec_domainWrite_taken ho hc))
    rw [if_neg hv0] at ht
    have hq := requestDeep_eq (s := entered s who (kDomainState (d + 1)) (.num v)) (d := d) (v := v) (by rwa [he])
    rw [moved_entered] at hq
    refine ⟨_, ht, ?entering, ?others, ?frame⟩
    case entering =>
      intro e hm
      rw [hq]
      constructor
      · exact (domState_beginEntries v _ (moved_nodup s d) _ e).trans (if_pos hm)
      · exact (entering_beginEntries v _ (moved_nodup s d) _ e).trans (if_pos hm)
    case others =>
      intro e _ hm
      rw [hq]
      exact (domState_beginEntries v _ (moved_nodup s d) _ e).trans ((if_neg hm).trans (he e))
    case frame => exact (Steps.andThen (F := [.od, .ctr, .book, .pow]) steps_entered.mono steps_requestDeep).answered _
end

section
/-! O16: the ends of entries and wakes (R495 to R499). -/

namespace Sys2Proof.Machine

-- Checked one after another: the check allows too few threads for more.
set_option Elab.async false

/-- What one domain's entry leaves before its state is set. -/
def entryLeft (s : State) (d : Nat) : State :=
  if tget 0 s.pow.entering d = 2 then offLoss s d else if d = 0x71 then depotProgrammed s else s

/-- The entry's record of one domain is closed. -/
def entryClosed (s : State) (d : Nat) : State :=
  { s with pow := { s.pow with entering := tdel s.pow.entering d, wakeMet := setDel s.pow.wakeMet d } }

/-- An entry that no wake event met ends in its target. -/
theorem endEntry_unmet {s : State} {d : Nat} (h : s.pow.wakeMet.contains d = false) :
    endEntry s d = setDom (entryClosed (entryLeft s d) d) d (tget 0 s.pow.entering d) := by
  unfold endEntry
  rw [h]; rfl

theorem contains_setDel (l : List Nat) {d e : Nat} (h : l.contains e = false) : (setDel l d).contains e = false := by
  simp only [List.contains_eq_mem, decide_eq_false_iff_not, setDel, List.mem_filter] at *
  exact fun hm => h hm.1

/-- An entry that no wake event met, to retention. -/
def intoRetention (s : State) (d : Nat) : State := setDom (entryClosed (if d = 0x71 then depotProgrammed s else s) d) d 1

theorem endEntry_retention {s : State} {d : Nat} (h : s.pow.wakeMet.contains d = false) (h1 : tget 0 s.pow.entering d = 1) :
    endEntry s d = intoRetention s d := by
  rw [endEntry_unmet h, entryLeft, h1, if_neg (by decide), intoRetention]

theorem intoRetention_pow (s : State) (d : Nat) :
    (intoRetention s d).pow = { s.pow with entering := tdel s.pow.entering d, wakeMet := setDel s.pow.wakeMet d } := by
  unfold intoRetention entryClosed
  split <;> rfl

theorem foldl_endEntry_retention {l : List Nat} (nd : l.Nodup) {s : State} (h : ∀ e ∈ l, s.pow.wakeMet.contains e = false)
    (h1 : ∀ e ∈ l, tget 0 s.pow.entering e = 1) : l.foldl endEntry s = l.foldl intoRetention s := by
  induction l generalizing s with
  | nil => rfl
  | cons d r ih =>
    obtain ⟨hd, hr⟩ := List.nodup_cons.mp nd
    rw [List.foldl_cons, List.foldl_cons, endEntry_retention (h d (by simp)) (h1 d (by simp))]
    refine ih hr (fun e he => ?_) fun e he => ?_
    · rw [intoRetention_pow]; exact contains_setDel _ (h e (by simp [he]))
    · rw [intoRetention_pow]
      exact (tget_tdel_ne _ _ (by rintro rfl; exact hd he)).trans (h1 e (by simp [he]))

theorem domState_intoRetention (s : State) (d e : Nat) : domState (intoRetention s d) e = if e = d then 1 else domState s e := by
  rw [intoRetention, domState_setDom]
  split
  · rfl
  · split <;> rfl

theorem domState_foldl_retain {l : List Nat} (nd : l.Nodup) (s : State) (e : Nat) :
    domState (l.foldl intoRetention s) e = if e ∈ l then 1 else domState s e :=
  foldl_each (f := fun _ _ => 1) (by simp [domState_intoRetention]) (by simp +contextual [domState_intoRetention]) (by simp) nd s e

theorem steps_intoRetention {s : State} {d : Nat} : Steps [.od, .pow, .depot] s (intoRetention s d) := by
  unfold intoRetention
  refine .andThen (.andThen (F := [.od, .pow, .depot]) ?_ (with_pow (s := _))) steps_setDom
  exact .ite steps_depotProgrammed.mono .refl

theorem intoRetention_depot (s : State) (d : Nat) : (intoRetention s d).depot = if d = 0x71 then { s.depot with buffer := [] } else s.depot := by
  unfold intoRetention entryClosed
  split <;> rfl

/-- The domains that move with another one than the depot's are others than the depot's. -/
theorem notMem_moved_depot {s : State} {d : Nat} (h : d ≠ 0x71) : 0x71 ∉ moved s d := by
  unfold moved
  split <;> simp <;> omega

theorem depot_foldl_intoRetention {l : List Nat} (h : 0x71 ∉ l) (s : State) : (l.foldl intoRetention s).depot = s.depot := by
  induction l generalizing s with
  | nil => rfl
  | cons d r ih =>
    obtain ⟨hd, hr⟩ := not_or.mp (mt List.mem_cons.mpr h)
    rw [List.foldl_cons, ih hr, intoRetention_depot, if_neg (Ne.symm hd)]

/-- The end of an entry counts, before the domains change. -/
theorem exec_domainEntryEnd {d : Nat} {s : State} (hl : d < 128) (h3 : domState s d = 3) (hm : isMate s d = false)
    (hw : s.pow.wakeMet.contains d = false) :
    exec (.domainEntryEnd d) s = .next ((moved s d).foldl endEntry (bump s kEntriesCompleted 1 none)) := by
  show execDomainEntryEnd d s = _
  rw [execDomainEntryEnd, decide_eq_true hl, guardWf_true, if_neg (by simp [h3, hm])]
  simp only [hw, Bool.and_false, Bool.false_eq_true, if_false, bump_zero]
  rw [moved_congr (odN_bump ..)]

theorem exec_domainWakeEnd {d : Nat} {s : State} (hl : d < 128) (h4 : domState s d = 4) (hm : isMate s d = false)
    (hd : ∀ n, dieOf d = some n → domState s n = 0 ∨ domState s n = 5) :
    exec (.domainWakeEnd d) s = .next ((moved s d).foldl endWake s) := by
  show execDomainWakeEnd d s = _
  rw [execDomainWakeEnd, decide_eq_true hl, guardWf_true]
  congr 1
  refine if_neg ?_
  cases h : dieOf d with
  | none => simp [h4, hm]
  | some n => simpa [h4, hm] using fun h0 => (hd n h).resolve_left h0

theorem domState_foldl_endWake {l : List Nat} (nd : l.Nodup) (s : State) (e : Nat) : domState (l.foldl endWake s) e =
    if e ∈ l then (if tget 0 s.pow.waking e = 2 then 5 else 0) else domState s e :=
  foldl_each (op := endWake) (f := fun s d => if tget 0 s.pow.waking d = 2 then 5 else 0) (fun _ _ => domState_setDom_same _ _ _)
    (fun _ _ _ h => (domState_setDom _ _ _ _).trans (if_neg h))
    (fun _ _ _ h => by simp only [endWake, setDom_pow, tget_tdel_ne _ _ h]) nd s e

theorem odKept_endWake (s : State) (d : Nat) : OdKept [kDomainState (d + 1)] s (endWake s d) := odKept_setDom _ d _

/-- One domain's entry is abandoned: it reads on again. -/
def abandon (s : State) (d : Nat) : State := setDom (entryClosed s d) d 0

theorem exec_entryAbandoned {d : Nat} {s : State} (hl : d < 128) (h3 : domState s d = 3) (hw : s.pow.wakeMet.contains d = true)
    (ha : abortable s = true) (hm : isMate s d = false) :
    exec (.entryAbandoned d) s = .next (bump ((moved s d).foldl abandon s) kEntriesAbandoned 1 none) := by
  show execEntryAbandoned d s = _
  rw [execEntryAbandoned, decide_eq_true hl, guardWf_true, if_neg (by simp only [h3, hw, ha, hm]; decide)]; rfl

theorem steps_abandon {s : State} {d : Nat} : Steps [.od, .pow] s (abandon s d) := .andThen with_pow.mono steps_setDom

theorem domState_foldl_abandon {l : List Nat} (nd : l.Nodup) (s : State) (e : Nat) : domState (l.foldl abandon s) e =
    if e ∈ l then 0 else domState s e :=
  foldl_each (op := abandon) (f := fun _ _ => 0) (fun _ _ => domState_setDom_same _ _ _)
    (fun _ _ _ h => (domState_setDom _ _ _ _).trans (if_neg h)) (fun _ _ _ _ => rfl) nd s e

theorem offLoss_group {s : State} {d : Nat} (h : d < 40) : con (offLoss s d) d = Consist.reset := by
  rw [offLoss, if_pos h]
  exact con_setCon_same _ _ _

end Sys2Proof.Machine

open Sys2Proof Sys2Proof.Machine

/-- Settles O16: each domain that moves ends its transition alone, in the state that the transition names. -/
theorem domainsArrive : Obligations.DomainsArrive := by
  refine ⟨?retention, ?off, ?wake, ?abandoned⟩
  case retention =>
    intro d s hl h3 hm hw h1
    have ht := exec_domainEntryEnd hl h3 hm (hw d (mem_moved s d))
    rw [foldl_endEntry_retention (moved_nodup s d) (by simpa using hw) (by simpa using h1)] at ht
    have fold : Steps [.od, .pow, .depot] (bump s kEntriesCompleted 1 none) ((moved s d).foldl intoRetention (bump s kEntriesCompleted 1 none)) :=
      .foldl .refl fun _ _ => steps_intoRetention
    refine ⟨_, ht, ?state, ?count, ?frame, ?others, ?depot⟩
    case state => exact fun e he => (domState_foldl_retain (moved_nodup s d) _ e).trans (if_pos he)
    case count => exact (counted_bump s _ none).before (ctrGet_congr fold.ctr_eq _ _)
    case frame => exact (Steps.andThen (F := [.od, .ctr, .pow, .depot]) steps_bump.mono fold).frame
    case others => exact fun h => (depot_foldl_intoRetention (notMem_moved_depot h) _).trans (bump_depot ..)
    case depot =>
      rintro rfl
      rw [moved_of_ge (by decide), List.foldl_cons, List.foldl_nil, intoRetention_depot, if_pos rfl]
  case off =>
    intro d s hl h3 hw h2
    have ht := exec_domainEntryEnd (by omega) h3 (isMate_of_lt (by omega)) hw
    rw [moved_of_lt (by omega), List.foldl_cons, List.foldl_nil, endEntry_unmet (by simpa using hw)] at ht
    refine ⟨_, ht, ?state, ?consist⟩
    case state => rw [domState_setDom_same, bump_pow, h2]
    case consist =>
      rw [con_congr (setDom_consists ..)]
      show con (entryLeft _ _) d = _
      rw [entryLeft, if_pos (by simpa using h2), offLoss_group hl]
  case wake =>
    intro d s hl h4 hm hd
    refine ⟨_, exec_domainWakeEnd hl h4 hm hd, ?state, ?others, ?frame⟩
    case state => exact fun e he => (domState_foldl_endWake (moved_nodup s d) s e).trans (if_pos he)
    case others => exact odKept_foldl odKept_endWake _ s
    case frame => exact (Steps.foldl (F := [.od, .pow]) .refl fun _ _ => steps_endWake).frame
  case abandoned =>
    intro d s hl h3 hw ha hm
    have fold : Steps [.od, .pow] s ((moved s d).foldl abandon s) := .foldl .refl fun _ _ => steps_abandon
    refine ⟨_, exec_entryAbandoned hl h3 hw ha hm, ?state, ?others, ?count, ?frame⟩
    case state =>
      exact fun e he => (domState_congr (bump_od ..) e).trans ((domState_foldl_abandon (moved_nodup s d) s e).trans (if_pos he))
    case others => exact (odKept_foldl (fun s d => odKept_setDom (entryClosed s d) d 0) _ s).trans (odKept_bump _ _ _ _ _)
    case count => exact (counted_bump _ _ none).after (ctrGet_congr fold.ctr_eq _ _)
    case frame => exact (Steps.andThen (F := [.od, .ctr, .pow]) fold.mono steps_bump).frame
end

section
/-! O17, O18: the guard, the duty and the temperatures (R502 to R508). -/

namespace Sys2Proof.Machine

-- Checked one after another: the check allows too few threads for more.
set_option Elab.async false

/-! ### The clock and the duty (R502, R503) -/

theorem odN_clockTo (s : State) (f : Nat) : odN (clockTo s f) kClockNow = min (odN s kClockNow) f := by
  unfold clockTo
  by_cases h : odN s kClockNow ≤ f
  · rw [if_pos h, min_eq_left h]
  · rw [if_neg h, odN_bump, odN_odSet_same]; omega

theorem odKept_clockTo (s : State) (f : Nat) : OdKept [kClockNow] s (clockTo s f) := by
  unfold clockTo
  dsimp only
  split
  · exact .refl _ s
  · exact (odKept_odSet s f (by simp)).trans (odKept_bump _ _ _ _ _)

theorem ctrKept_clockTo (s : State) (f : Nat) : CtrKept [kClockStepsDown] s (clockTo s f) := by
  unfold clockTo
  dsimp only
  split
  · exact .refl _ s
  · exact (ctrKept_of_ctr rfl).trans (ctrKept_bump _ _ none nofun (by simp))

theorem exec_powerGuard {draw : Nat} {s : State} (h : odN s kPowerCapEffective < draw) :
    exec (.powerGuard draw) s = .next (bump (clockTo s (max 800 (odN s kClockNow - 200))) kGuardSteps 1 none) := by
  show execPowerGuard draw s = _
  rw [execPowerGuard, if_pos h]

/-- The draw of a millisecond is shown, and a duty below 16 counts. -/
def drawShown (s : State) (draw : Nat) : State := bump (odSet s kPowerDraw draw) kDutyLimitedMs (if odN s kArrayDuty < 16 then 1 else 0) none

theorem odN_drawShown (s : State) (draw : Nat) {k : Nat} (h : k ≠ kPowerDraw) : odN (drawShown s draw) k = odN s k :=
  (odN_bump ..).trans (odN_odSet_ne s _ h)

/-- The millisecond's record. -/
def withMs (s : State) (n : Nat) : State := { s with pow := { s.pow with lastMs := n } }

theorem exec_arrayDutyAdjust_over {draw : Nat} {s : State} (hw : draw < 65536) (h : odN s kPowerCapEffective < draw)
    (hc : odN s kClockNow = 800) :
    exec (.arrayDutyAdjust draw) s = .next (withMs (odSet (drawShown s draw) kArrayDuty (max 4 (odN s kArrayDuty - 1))) 0) := by
  show execArrayDutyAdjust draw s = _
  rw [execArrayDutyAdjust, decide_eq_true hw, guardWf_true]
  change Host.Outcome.next (if odN (drawShown s draw) kPowerCapEffective < draw then _ else _) = _
  rw [if_pos (by rwa [odN_drawShown s draw (by decide)])]
  change Host.Outcome.next (withMs (if odN (drawShown s draw) kClockNow = 800 then _ else _) 0) = _
  rw [if_pos (by rwa [odN_drawShown s draw (by decide)])]; rfl

theorem exec_arrayDutyAdjust_tenth {draw : Nat} {s : State} (hw : draw < 65536) (h : draw ≤ odN s kPowerCapEffective)
    (hd : odN s kArrayDuty < 16) (h9 : s.pow.lastMs = 9) :
    exec (.arrayDutyAdjust draw) s = .next (withMs (odSet (drawShown s draw) kArrayDuty (odN s kArrayDuty + 1)) 0) := by
  show execArrayDutyAdjust draw s = _
  rw [execArrayDutyAdjust, decide_eq_true hw, guardWf_true]
  change Host.Outcome.next (if odN (drawShown s draw) kPowerCapEffective < draw then _ else _) = _
  rw [if_neg (by rw [odN_drawShown s draw (by decide)]; omega), if_neg (by omega)]
  have : (drawShown s draw).pow.lastMs = 9 := (congrArg PowSt.lastMs (bump_pow (odSet s kPowerDraw draw) ..)).trans h9
  exact congrArg _ (if_pos this)

theorem odKept_dutySet (s : State) (draw duty n : Nat) :
    OdKept [kArrayDuty, kPowerDraw] s (withMs (odSet (drawShown s draw) kArrayDuty duty) n) :=
  .trans (.trans (odKept_odSet s draw (by simp)) (odKept_bump _ _ _ _ _)) (odKept_odSet (drawShown s draw) duty (by simp))

theorem odN_dutySet_draw (s : State) (draw duty n : Nat) : odN (withMs (odSet (drawShown s draw) kArrayDuty duty) n) kPowerDraw = draw := by
  show odN (odSet (drawShown s draw) kArrayDuty duty) kPowerDraw = draw
  rw [odN_odSet_ne _ _ (by decide), drawShown, odN_bump, odN_odSet_same]

theorem odN_dutySet_duty (s : State) (draw duty n : Nat) : odN (withMs (odSet (drawShown s draw) kArrayDuty duty) n) kArrayDuty = duty :=
  odN_odSet_same (drawShown s draw) _ _

theorem steps_dutySet {s : State} {draw duty n : Nat} :
    Steps [.od, .ctr, .pow] s (withMs (odSet (drawShown s draw) kArrayDuty duty) n) :=
  .andThen (.andThen (.andThen steps_odSet.mono steps_bump) steps_odSet) with_pow

theorem ctrKept_dutySet (s : State) (draw duty n : Nat) :
    CtrKept [kDutyLimitedMs] s (withMs (odSet (drawShown s draw) kArrayDuty duty) n) :=
  .trans (t := drawShown s draw) (.trans (t := odSet s kPowerDraw draw) (ctrKept_of_ctr rfl) (ctrKept_bump _ _ none nofun (by simp)))
    (ctrKept_of_ctr rfl)

theorem counted_dutySet {s : State} (draw duty n : Nat) (h : odN s kArrayDuty < 16) :
    Counted s (withMs (odSet (drawShown s draw) kArrayDuty duty) n) kDutyLimitedMs 1 := by
  refine .before (t := drawShown s draw) ?_ rfl
  rw [drawShown, if_pos h]
  exact counted_bump (odSet s kPowerDraw draw) _ none

/-! ### Temperatures (R504 to R508) -/

/-- The hottest junction of a sample. -/
def hottest (temps : List Nat) : Nat :=
  temps.foldl (fun m w => if (decodeVal fmtFp32 m).lt (decodeVal fmtFp32 w) then w else m) (lget 0 temps 0)

/-- A sample is shown, and the count of hot readings in a row follows it. -/
def sampled (s : State) (u top hot : Nat) : State :=
  { odSet (atTime s u) kDieTempMax top with pow := { s.pow with hot := hot } }

theorem exec_thermalSample {temps : List Nat} {u : Nat} {s : State} (hn : temps ≠ []) (hf : temps.all isF32 = true)
    (h4 : odN s kThermalState ≠ 4) (hs : s.pow.stopped = false) :
    exec (.thermalSample temps u) s = .next
      (let hot := if 110 ≤ floorF32 (hottest temps) then s.pow.hot + 1 else 0
       if 2 ≤ hot then trip (sampled s u (hottest temps) hot)
       else thermal (throttleStep (sampled s u (hottest temps) hot) (floorF32 (hottest temps)))) := by
  have h4' : odN (odSet (atTime s u) kDieTempMax (hottest temps)) kThermalState ≠ 4 := by
    rwa [odN_odSet_ne _ _ (by decide), odN_atTime]
  show execThermalSample temps u s = _
  rw [execThermalSample, show (decide (temps ≠ []) && temps.all isF32) = true by simp [hn, hf], guardWf_true]
  exact congrArg _ (if_neg (not_or.mpr ⟨h4', by simp [hs]⟩))

theorem odN_trip (s : State) : odN (trip s) kThermalState = 4 ∧ odN (trip s) kBootState = 3 := by
  unfold trip
  simp only [odN_bump, odN_odSet_same, odN_odSet_ne _ _ (show kThermalState ≠ kBootState by decide), and_self]

theorem inletCapAt_congr {s t : State} (h : odB t kOrderingCode = odB s kOrderingCode) (c : Int) : inletCapAt t c = inletCapAt s c := by
  simp only [inletCapAt, h]

theorem odB_odSet_ne (s : State) {k x : Nat} (n : Nat) (h : x ≠ k) : odB (odSet s k n) x = odB s x := odB_odPut_ne s _ h

/-- The times since which each higher cap's threshold has stayed. -/
def inletTimed (s : State) (c : Int) : Tab Nat :=
  inletLevels.foldl (fun x l => if l ≤ inletCapAt s (c + 1) then (if tget 0 x l = 0 then tset 0 x l (s.now + 1) else x) else tdel x l)
    s.pow.inletBelow

/-- An inlet temperature is shown, and the cap falls to its own. -/
def inletShown (s : State) (temp u : Nat) : State :=
  { odSet (atTime s u) kInletTemp temp with
    pow := { s.pow with inletCap := min s.pow.inletCap (inletCapAt s (ceilF32 temp)), outside := inletCapAt s (ceilF32 temp) = 900,
                        inletBelow := inletTimed (odSet (atTime s u) kInletTemp temp) (ceilF32 temp) } }

theorem exec_inletSample {temp : Nat} (u : Nat) (s : State) (h : isF32 temp = true) :
    exec (.inletSample temp u) s = .next (recap (inletShown s temp u)) := by
  have hc : inletCapAt (odSet (atTime s u) kInletTemp temp) (ceilF32 temp) = inletCapAt s (ceilF32 temp) :=
    inletCapAt_congr (odB_odSet_ne _ _ (by decide)) _
  show execInletSample temp u s = _
  rw [execInletSample, h, guardWf_true, inletShown, ← hc]; rfl

theorem airflowCap_odSet (s : State) (k n : Nat) (h : kAirflowAssuredCfm ≠ k) : airflowCap (odSet s k n) = airflowCap s :=
  airflowCap_congr (odN_odSet_ne s n h)

/-- A higher inlet cap. -/
def inletRisen (s : State) (u l : Nat) : State := { atTime s u with pow := { s.pow with inletCap := l } }

theorem exec_inletCapRise {u l : Nat} {s : State} (h : inletLevels.find? (fun x => tget 0 s.pow.inletBelow x ≠ 0 &&
      decide (tget 0 s.pow.inletBelow x + 60_000_000_000 ≤ max s.now u + 1)) = some l) (hl : s.pow.inletCap < l) :
    exec (.inletCapRise u) s = .next (recap (inletRisen s u l)) := by
  show execInletCapRise u s = _
  unfold execInletCapRise
  simp only [show (atTime s u).pow = s.pow from rfl, show (atTime s u).now = max s.now u from rfl]
  rw [h]
  exact congrArg _ (if_pos hl)

end Sys2Proof.Machine

open Sys2Proof Sys2Proof.Machine

/-- Settles O17: each command shows what it read, and moves one object by the rule's step. -/
theorem clockAndDutyFollowTheCap : Obligations.ClockAndDutyFollowTheCap := by
  refine ⟨?guard, ?beyond, ?tenth⟩
  case guard =>
    intro draw s h
    refine ⟨_, exec_powerGuard h, ?clock, ?count, ?others, ?counters, ?frame⟩
    case clock => rw [odN_bump, odN_clockTo]
    case count => exact .after ((ctrKept_clockTo s _).operator (by decide)) (counted_bump _ _ none)
    case others => exact (odKept_clockTo s _).trans (odKept_bump _ _ _ _ _)
    case counters => exact ((ctrKept_clockTo s _).mono (by simp)).trans (ctrKept_bump _ _ none nofun (by simp))
    case frame => exact (steps_clockTo.andThen steps_bump).frame
  case beyond =>
    intro draw s hw h hc
    exact ⟨_, exec_arrayDutyAdjust_over hw h hc, odN_dutySet_duty _ _ _ _, odN_dutySet_draw _ _ _ _, odKept_dutySet _ _ _ _,
      ctrKept_dutySet _ _ _ _, steps_dutySet.frame⟩
  case tenth =>
    intro draw s hw h hd h9
    exact ⟨_, exec_arrayDutyAdjust_tenth hw h hd h9, odN_dutySet_duty _ _ _ _, odN_dutySet_draw _ _ _ _, counted_dutySet _ _ _ hd,
      odKept_dutySet _ _ _ _, steps_dutySet.frame⟩

/-- Settles O18: each command shows its sample; the caps and `thermal_state` follow, and a second hot reading trips. -/
theorem temperaturesAct : Obligations.TemperaturesAct := by
  refine ⟨?cool, ?hot, ?inlet, ?rise⟩
  case cool =>
    intro temps u top s hn hf rfl h4 hs ht h97
    change floorF32 (hottest temps) < 97 at h97
    have e := exec_thermalSample (u := u) hn hf h4 hs
    rw [if_neg (show ¬ 110 ≤ floorF32 (hottest temps) by omega)] at e
    have still : throttleStep (sampled s u (hottest temps) 0) (floorF32 (hottest temps)) = sampled s u (hottest temps) 0 := by
      have : (sampled s u (hottest temps) 0).pow.throttle = false := ht
      simp [throttleStep, this]; omega
    refine ⟨thermal (sampled s u (hottest temps) 0), ?run, ?value, ?power, ?others, ?frame⟩
    case run => rw [e]; simp [still]
    case value => rw [(odKept_thermal _).odN_eq (by decide)]; exact odN_odSet_same _ _ _
    case power => exact steps_thermal.pow_eq
    case others =>
      exact .trans (t := sampled s u (hottest temps) 0) (odKept_odSet (atTime s u) _ (by simp)) ((odKept_thermal _).mono (by simp))
    case frame =>
      have step : Steps [.now, .od, .pow] s (sampled s u (hottest temps) 0) :=
        .andThen (.andThen steps_atTime.mono steps_odSet) with_pow
      have h := (step.andThen steps_thermal).frame
      have hn : (thermal (sampled s u (hottest temps) 0)).now = max s.now u := steps_thermal.now_eq
      rw [← hn]; exact h
  case hot =>
    intro temps u top s hn hf rfl h4 hs h1 h110
    change 110 ≤ floorF32 (hottest temps) at h110
    have e := exec_thermalSample (u := u) hn hf h4 hs
    rw [if_pos h110] at e
    exact ⟨_, e.trans (congrArg _ (if_pos (by omega))), odN_trip _⟩
  case inlet =>
    intro temp u s h
    refine ⟨_, exec_inletSample u s h, ?value, ?cap, ?inForce, ?others, ?frame⟩
    case value => rw [(odKept_recap _).odN_eq (by decide)]; exact odN_odSet_same _ _ _
    case cap => exact congrArg PowSt.inletCap (steps_recap (s := inletShown s temp u)).pow_eq
    case inForce =>
      rw [odN_recap_powerCapEffective, steps_recap.pow_eq]
      exact congrArg (fun c => min _ (min _ c)) (airflowCap_odSet (atTime s u) kInletTemp temp (by decide))
    case others => exact .trans (t := inletShown s temp u) (odKept_odSet (atTime s u) _ (by simp)) ((odKept_recap _).mono (by simp))
    case frame =>
      have step : Steps [.now, .od, .pow] s (inletShown s temp u) := .andThen (.andThen steps_atTime.mono steps_odSet) with_pow
      have hn : (recap (inletShown s temp u)).now = max s.now u := steps_recap.now_eq
      rw [← hn]; exact (step.andThen steps_recap).frame
  case rise =>
    intro u l s h hl
    refine ⟨_, exec_inletCapRise h hl, ?power, ?inForce, ?others, ?frame⟩
    case power => exact steps_recap.pow_eq
    case inForce => exact odN_recap_powerCapEffective _
    case others => exact .trans (t := inletRisen s u l) (odKept_of_od rfl) ((odKept_recap _).mono (by simp))
    case frame =>
      have step : Steps [.now, .od, .pow] s (inletRisen s u l) := .andThen steps_atTime.mono with_pow
      have hn : (recap (inletRisen s u l)).now = max s.now u := steps_recap.now_eq
      rw [← hn]; exact (step.andThen steps_recap).frame
end

section
/-! O19 to O21: the tick and the alignment (R166 to R173). -/

namespace Sys2Proof.Machine

-- Checked one after another: the check allows too few threads for more.
set_option Elab.async false

/-! ### What module time and the tick read -/

theorem moduleTime_congr {s t : State} (hn : t.now = s.now) (ht : t.time.offset = s.time.offset) : moduleTime t = moduleTime s := by
  simp only [moduleTime, hn, ht]

theorem tickPeriod_congr {s t : State} (h : odN t kTickCycles = odN s kTickCycles) : tickPeriod t = tickPeriod s := by
  simp only [tickPeriod, h]

theorem moduleTime_lt (s : State) : moduleTime s < 2 ^ 64 := by
  unfold moduleTime; omega

theorem conPart_congr {s t : State} (h : t.parts = s.parts) (k : Nat) : conPart t k = conPart s k := by simp only [conPart, h]

theorem anyOpen_congr {s t : State} (h : t.parts = s.parts) : anyOpen t = anyOpen s := by simp only [anyOpen, h]

/-- A consist's partition is one of those that the table lists. -/
theorem conPart_lt {s : State} {n : Nat} (h : ∀ x ∈ s.parts, x.1 < n) {k p : Nat} (e : conPart s k = some p) : p < n := by
  unfold conPart at e
  obtain ⟨x, hx, rfl⟩ := Option.map_eq_some_iff.mp e
  exact h x (List.mem_of_find?_eq_some hx)

theorem entered_time (s : State) (w : Who) (k : Nat) (v : OdVal) : (entered s w k v).time = s.time := appendEntry_time s _
theorem entered_now (s : State) (w : Who) (k : Nat) (v : OdVal) : (entered s w k v).now = s.now := appendEntry_now s _

/-! ### The tick's objects (R167 to R170) -/

/-- The change of tick `v` scheduled. -/
def changeScheduled (s : State) (v : Nat) : State := { odSet s kTickChangeAt v with time := { s.time with change := some v } }

theorem odN_changeScheduled (s : State) (v : Nat) : odN (changeScheduled s v) kTickChangeAt = v := odN_odSet_same s _ v

theorem changeScheduled_time (s : State) (v : Nat) : (changeScheduled s v).time = { s.time with change := some v } := rfl

theorem odKept_changeScheduled (s : State) (v : Nat) : OdKept [kTickChangeAt] s (changeScheduled s v) := odKept_odSet s v (by simp)

theorem steps_changeScheduled {s : State} {v : Nat} : Steps [.od, .time] s (changeScheduled s v) := .andThen steps_odSet.mono with_time

theorem exec_tickChangeAtWrite_taken {who : Who} {v : Nat} {s : State} (hr : who.role = .operator)
    (ho : writeOpen s kTickChangeAt (.num v) = true) (hv : v < 2 ^ 64) (ha : anyOpen s = false) (h : tickNow s + 1 < v) :
    exec (.tickChangeAtWrite who v) s = .next (answered (changeScheduled (entered s who kTickChangeAt (.num v)) v) kTickChangeAt) := by
  have hc : opOnly who (if anyOpen s then .denied else if v ≤ tickNow s + 1 then .malformed else .ok) = .ok := by
    rw [opOnly, if_pos hr, ha, if_neg (by simp), if_neg (by omega)]
  show execTickChangeAtWrite who v s = _
  rw [execTickChangeAtWrite, decide_eq_true hv, guardWf_true, dictWrite_taken ho hc]
  generalize entered s who _ _ = x
  rfl

/-- The epoch stored, before the tick is computed anew. -/
def epochStored (s : State) (v : Nat) : State := odSet { s with time := { s.time with rebased := false } } kTickEpoch v

/-- The epoch stored and the tick computed anew. -/
def epochSet (s : State) (v : Nat) : State :=
  { epochStored s v with time := { s.time with rebased := false, tick := (tickAt (epochStored s v) (moduleTime s)).getD 0 } }

theorem odN_epochSet (s : State) (v : Nat) : odN (epochSet s v) kTickEpoch = v := odN_odSet_same { s with time := _ } _ v

theorem odKept_epochSet (s : State) (v : Nat) : OdKept [kTickEpoch] s (epochSet s v) := odKept_odSet { s with time := _ } v (by simp)

theorem exec_tickEpochWrite_taken {who : Who} {v : Nat} {s : State} (hr : who.role = .operator)
    (ho : writeOpen s kTickEpoch (.num v) = true) (hv : v < 2 ^ 64) (ha : anyOpen s = false) :
    exec (.tickEpochWrite who v) s = .next (answered (epochSet (entered s who kTickEpoch (.num v)) v) kTickEpoch) := by
  have hc : opOnly who (if anyOpen s then .denied else .ok) = .ok := by rw [opOnly, if_pos hr, ha, if_neg (by simp)]
  show execTickEpochWrite who v s = _
  rw [execTickEpochWrite, decide_eq_true hv, guardWf_true, dictWrite_taken ho hc]
  generalize entered s who _ _ = x
  rfl

/-- The tick after the epoch is stored: the boundaries since it, by the shorter way round (R167). -/
theorem tickAt_epochStored {s : State} {v : Nat} (hv : v < 2 ^ 64) (mt : Nat) : (tickAt (epochStored s v) mt).getD 0 =
    if (mt + 2 ^ 64 - v) % 2 ^ 64 < 2 ^ 63 ∧ tickPeriod s ≠ 0 then (mt + 2 ^ 64 - v) % 2 ^ 64 / tickPeriod s % 2 ^ 48 else 0 := by
  have hp : tickPeriod (epochStored s v) = tickPeriod s := tickPeriod_congr (odN_odSet_ne _ _ (by decide))
  have he : odN (epochStored s v) kTickEpoch = v := odN_odSet_same _ _ _
  have hr : (epochStored s v).time.rebased = false := rfl
  have hs : sinceEpoch (epochStored s v) mt =
      if (mt + 2 ^ 64 - v) % 2 ^ 64 < 2 ^ 63 then some ((mt + 2 ^ 64 - v) % 2 ^ 64) else none := by
    unfold sinceEpoch
    rw [he, hr, Nat.mod_eq_of_lt hv]
    simp only [Bool.false_eq_true, false_or]
  unfold tickAt
  rw [hp, hs]
  generalize (mt + 2 ^ 64 - v) % 2 ^ 64 = d
  dsimp only
  by_cases h0 : tickPeriod s = 0
  · simp [h0]
  · by_cases h : d < 2 ^ 63
    · rw [if_neg h0, if_pos h, if_pos ⟨h, h0⟩, Option.map_some, Option.getD_some]
    · rw [if_neg h0, if_neg h, if_neg fun h' => h h'.1, Option.map_none, Option.getD_none]

theorem steps_epochSet {s : State} {v : Nat} : Steps [.od, .time] s (epochSet s v) :=
  .andThen (.andThen with_time.mono steps_odSet) with_time

/-- The period of the coming ticks in force. -/
def cyclesTaken (s : State) : State := odSet s kTickCycles (odN s kTickCyclesNext)

/-- The epoch rebased to the period in force, so that boundary `v` of the old period `old` keeps its number. -/
def epochRebased (s : State) (v old : Nat) : State :=
  odSet s kTickEpoch (((odN s kTickEpoch + v * old : Nat) - (v * tickPeriod s : Nat) : Int) % 2 ^ 64).toNat

/-- The change of period carried out. -/
def periodChanged (s : State) (v : Nat) : State :=
  setCyclesPerTick { epochRebased (cyclesTaken s) v (tickPeriod s) with time := { s.time with change := none, rebased := true } }

theorem exec_tickChange {v : Nat} {s : State} (h : s.time.change = some v) (hn : tickNow s = v % 2 ^ 48) :
    exec .tickChange s = .next (periodChanged s v) := by
  have he : odN (cyclesTaken s) kTickEpoch = odN s kTickEpoch := odN_odSet_ne _ _ (by decide)
  show execTickChange s = _
  unfold execTickChange
  rw [h]
  refine congrArg Host.Outcome.next ((if_neg (not_not.mpr hn)).trans ?_)
  unfold periodChanged epochRebased
  rw [he]; rfl

theorem odKept_epochRebased (s : State) (v old : Nat) : OdKept [kTickEpoch] s (epochRebased s v old) := odKept_odSet s _ (by simp)

/-! ### The boundary (R168) -/

theorem exec_tickBoundary {u n d : Nat} {draws : List Nat} {s : State} (hl : draws.length = 11)
    (ht : tickAt (atTime s u) (moduleTime (atTime s u)) = some n) (hd : d = (n + 2 ^ 48 - s.time.tick % 2 ^ 48) % 2 ^ 48) (h0 : d ≠ 0)
    (h47 : d < 2 ^ 47) (hp : s.pow.stopped = false) :
    exec (.tickBoundary u draws) s = .next (boundary (bump (atTime s u) kTickBoundaries d none) n draws) := by
  show execTickBoundary u draws s = _
  rw [execTickBoundary, decide_eq_true hl, guardWf_true]
  simp only [ht]
  subst hd
  exact congrArg _ (if_neg (by rw [not_or, not_or]; exact ⟨h0, by rw [not_le]; exact h47, by simp [hp]⟩))

theorem capNow_chooseClock (s : State) (draws : List Nat) : (chooseClock s draws).pow.capNow = s.pow.capNow := by
  have top (x : State) (f c n : Nat) : (setCyclesPerTick (if c < f then odSet x kClockNow n else clockTo x f)).pow = x.pow := by
    refine Steps.pow_eq (F := [.od, .ctr]) (.andThen (.ite steps_odSet.mono steps_clockTo) steps_setCyclesPerTick)
  unfold chooseClock
  dsimp only
  rw [top]
  split
  · rw [steps_thermal.pow_eq]
  · rfl

/-- With no consist in use a boundary resumes none and meets none that waits. -/
theorem releaseBoundaries_none {s : State} (h : s.consists = []) : releaseBoundaries s = s := by
  simp [releaseBoundaries, h]

/-- What a boundary does of its own: the part before consists go on. -/
def boundaryTurned (s : State) (n : Nat) (draws : List Nat) : State :=
  let s' := countOverruns { s with time := { s.time with tick := n, resumePaths := false } } (tickNow s) ((n + 2 ^ 48 - tickNow s) % 2 ^ 48)
  sampleWindows (chooseClock (depotSwap (recap { s' with pow := { s'.pow with capNow := odN s' kPowerCap } })) draws)

theorem boundary_none {s : State} (n : Nat) (draws : List Nat) (h : s.consists = []) :
    boundary s n draws = countPaths (boundaryTurned s n draws) := by
  have hc : (boundaryTurned s n draws).consists = [] := by
    rw [boundaryTurned, steps_sampleWindows.consists_eq, steps_chooseClock.consists_eq, steps_depotSwap.consists_eq, steps_recap.consists_eq]
    exact (steps_countOverruns.consists_eq).trans h
  have hb : boundary s n draws = ((countPaths (releaseBoundaries (boundaryTurned s n draws))).consists.map fun x => x.1).foldl
    (fun s k => markWaits k s) (countPaths (releaseBoundaries (boundaryTurned s n draws))) := rfl
  rw [hb, releaseBoundaries_none hc, steps_countPaths.consists_eq, hc, List.map_nil, List.foldl_nil]

theorem boundaryTurned_time (s : State) (n : Nat) (draws : List Nat) :
    (boundaryTurned s n draws).time = { s.time with tick := n, resumePaths := false } := by
  rw [boundaryTurned, steps_sampleWindows.time_eq, steps_chooseClock.time_eq, steps_depotSwap.time_eq, steps_recap.time_eq]
  exact steps_countOverruns.time_eq

theorem boundaryTurned_capNow (s : State) (n : Nat) (draws : List Nat) : (boundaryTurned s n draws).pow.capNow = odN s kPowerCap := by
  rw [boundaryTurned, steps_sampleWindows.pow_eq, capNow_chooseClock, steps_depotSwap.pow_eq, steps_recap.pow_eq]
  exact odN_congr steps_countOverruns.od_eq _

theorem steps_boundaryTurned {s : State} {n : Nat} {draws : List Nat} :
    Steps [.time, .depot, .od, .ctr, .qps, .pow] s (boundaryTurned s n draws) := by
  unfold boundaryTurned
  exact .andThen (.andThen (.andThen (.andThen (.andThen (.andThen with_time.mono steps_countOverruns) with_pow) steps_recap) steps_depotSwap)
    steps_chooseClock) steps_sampleWindows

/-! ### Alignment (R172, R173) -/

/-- The tick aligned again. -/
def aligned (s : State) (u : Nat) : State := { odSet (atTime s u) kTickAligned 1 with time := { s.time with resumePaths := true } }

theorem exec_alignmentRegain {u w : Nat} {s : State} (hw : s.time.withinSince = some w) (h1 : w + 1_000_000_000 ≤ max s.now u)
    (hp : s.time.pendingStep = none) (hb : odN s kOffsetBound ≤ odN s kAlignLimit) (hs : odN s kTimeSource ≠ 2)
    (ha : odN s kTickAligned = 0) : exec (.alignmentRegain u) s = .next (aligned s u) := by
  show execAlignmentRegain u s = _
  unfold execAlignmentRegain
  dsimp only
  split
  · next e =>
    cases hw.symm.trans e
    exact congrArg Host.Outcome.next (if_pos (And.intro h1 ⟨hb, hp, hs, ha⟩))
  · next e => cases hw.symm.trans e

/-- Module time stepped by `d`, before the tick follows it. -/
def timeStepped (s : State) (u : Nat) (d : Int) : State :=
  bump (odSet { atTime s u with time := { s.time with offset := s.time.offset + d, pendingStep := none, filtered := 0,
                                                      withinSince := some (max s.now u) } } kOffsetBound 8) kTimeSteps 1 none

/-- The tick follows a step of time forward. -/
def tickForward (s : State) : State := match tickAt s (moduleTime s) with
  | some n =>
    let ahead := ticksAhead s n
    if ahead = 0 then s
    else
      let s := countOverruns s (tickNow s) ahead
      bump { s with time := { s.time with tick := n } } kTicksSkipped ahead none
  | none => s

theorem exec_timeStep (u : Nat) {d : Int} {s : State} (h : s.time.pendingStep = some d) (ha : anyOpen s = false) :
    exec (.timeStep u) s = .next (tickForward (timeStepped s u d)) := by
  show execTimeStep u s = _
  unfold execTimeStep
  simp only [show (atTime s u).time = s.time from rfl, h, show anyOpen (atTime s u) = false from ha, Bool.false_eq_true, if_false]
  rfl

theorem ctrKept_countOverruns (s : State) (old d : Nat) (hp : ∀ x ∈ s.parts, x.1 < 40) : CtrKept [kSlotOverruns] s (countOverruns s old d) := by
  unfold countOverruns
  generalize s.consists = l
  induction l generalizing s with
  | nil => exact .refl _ s
  | cons x r ih =>
    rw [List.foldl_cons]
    split
    · dsimp only
      split
      · refine (ctrKept_bump s 1 _ (fun q hq => (conPart_lt hp hq).trans (by decide)) (by simp)).trans (ih _ ?_)
        rwa [bump_parts]
      · exact ih s hp
    · exact ih s hp

theorem steps_tickForward {s : State} : Steps [.ctr, .time] s (tickForward s) := by
  unfold tickForward
  dsimp only
  split
  · exact .ite .refl (.andThen (.andThen steps_countOverruns.mono with_time) steps_bump)
  · exact .refl

theorem tickForward_time (s : State) : ∃ n, (tickForward s).time = { s.time with tick := n } ∧
    (n = s.time.tick ∨ tickAfter n (tickNow s) = true) := by
  unfold tickForward
  dsimp only
  split
  · next n _ =>
    split
    · exact ⟨_, rfl, .inl rfl⟩
    · next h =>
      refine ⟨n, by rw [bump_time, steps_countOverruns.time_eq], .inr ?_⟩
      unfold ticksAhead at h
      by_contra h'
      exact h (if_neg h')
  · exact ⟨_, rfl, .inl rfl⟩

theorem ctrKept_tickForward (s : State) (hp : ∀ x ∈ s.parts, x.1 < 40) : CtrKept [kTicksSkipped, kSlotOverruns] s (tickForward s) := by
  unfold tickForward
  dsimp only
  split
  · split
    · exact .refl _ s
    · exact .trans (t := { countOverruns s (tickNow s) _ with time := _ }) (((ctrKept_countOverruns s _ _ hp).mono (by simp)).trans
        (ctrKept_of_ctr rfl)) (ctrKept_bump _ _ none nofun (by simp))
  · exact .refl _ s

theorem timeStepped_time (s : State) (u : Nat) (d : Int) : (timeStepped s u d).time =
    { s.time with offset := s.time.offset + d, pendingStep := none, filtered := 0, withinSince := some (max s.now u) } := bump_time ..

theorem steps_timeStepped {s : State} {u : Nat} {d : Int} : Steps [.now, .od, .ctr, .time] s (timeStepped s u d) :=
  .andThen (.andThen (.andThen steps_atTime.mono with_time) steps_odSet) steps_bump

end Sys2Proof.Machine

open Sys2Proof Sys2Proof.Machine

/-- Settles O19: the writes set one object and the schedule or the tick; the change keeps the boundary's number. -/
theorem tickIsSet : Obligations.TickIsSet := by
  refine ⟨?changeAt, ?epoch, ?change⟩
  case changeAt =>
    intro who v s hr ho hv ha hn
    refine ⟨_, exec_tickChangeAtWrite_taken hr ho hv ha hn, ?value, ?time, ?others, ?frame⟩
    case value => rw [odN_answered, odN_changeScheduled]
    case time => rw [answered_time, changeScheduled_time, entered_time]
    case others =>
      exact odKept_answered (((odKept_entered s who _ _).mono (by simp +contextual)).trans ((odKept_changeScheduled _ v).mono (by simp))) _
    case frame => exact (Steps.andThen (F := [.od, .ctr, .book, .time]) steps_entered.mono steps_changeScheduled).answered _
  case epoch =>
    intro who v s hr ho hv ha
    refine ⟨_, exec_tickEpochWrite_taken hr ho hv ha, ?value, ?time, ?others, ?frame⟩
    case value => rw [odN_answered, odN_epochSet]
    case time =>
      have hp : tickPeriod (entered s who kTickEpoch (.num v)) = tickPeriod s := tickPeriod_congr (odN_entered s who _ _ (by decide))
      have hm : moduleTime (entered s who kTickEpoch (.num v)) = moduleTime s :=
        moduleTime_congr (entered_now ..) (by rw [entered_time])
      rw [answered_time, epochSet, tickAt_epochStored hv, hp, hm, entered_time]
    case others =>
      exact odKept_answered (((odKept_entered s who _ _).mono (by simp +contextual)).trans ((odKept_epochSet _ v).mono (by simp))) _
    case frame => exact (Steps.andThen (F := [.od, .ctr, .book, .time]) steps_entered.mono steps_epochSet).answered _
  case change =>
    intro v s h hn
    have hc : OdKept [kCyclesPerTickNow] (epochRebased (cyclesTaken s) v (tickPeriod s)) (periodChanged s v) :=
      odKept_odSet { epochRebased (cyclesTaken s) v (tickPeriod s) with time := _ } _ (by simp)
    have hcyc : odN (epochRebased (cyclesTaken s) v (tickPeriod s)) kTickCycles = odN s kTickCyclesNext := by
      rw [(odKept_epochRebased _ _ _).odN_eq (by decide), cyclesTaken, odN_odSet_same]
    have hp : tickPeriod (periodChanged s v) = tickPeriod (epochRebased (cyclesTaken s) v (tickPeriod s)) := tickPeriod_congr (hc.odN_eq (by decide))
    refine ⟨_, exec_tickChange h hn, ?cycles, ?epoch, ?perTick, rfl, ?others, ?frame⟩
    case cycles => rw [hc.odN_eq (by decide), hcyc]
    case epoch =>
      have hpc : tickPeriod (epochRebased (cyclesTaken s) v (tickPeriod s)) = tickPeriod (cyclesTaken s) :=
        tickPeriod_congr ((odKept_epochRebased _ _ _).odN_eq (by decide))
      rw [hc.odN_eq (by decide), hp, hpc, epochRebased, odN_odSet_same, Int.toNat_of_nonneg (by omega), cyclesTaken,
        odN_odSet_ne _ _ (show kTickEpoch ≠ kTickCycles by decide)]
      push_cast; rfl
    case perTick =>
      rw [hp]
      refine (odN_odSet_same _ _ _).trans ?_
      congr 2
      exact ((odKept_epochRebased _ _ _).odN_eq (by decide)).trans (odN_odSet_ne _ _ (by decide))
    case others =>
      exact ((odKept_odSet s _ (by simp)).trans ((odKept_epochRebased _ _ _).mono (by simp))).trans (hc.mono (by simp))
    case frame =>
      exact (Steps.andThen (F := [.od, .time]) (.andThen (.andThen steps_odSet.mono steps_odSet) with_time) steps_setCyclesPerTick).frame

/-- Settles O20: a boundary that has come is counted and carried out; with no consist in use nothing waits for it. -/
theorem tickBoundaryPasses : Obligations.TickBoundaryPasses := by
  refine ⟨?carriedOut, ?none⟩
  case carriedOut => exact fun u n d draws s hl ht hd h0 h47 hp => exec_tickBoundary hl ht hd h0 h47 hp
  case none =>
    intro u n d draws s hl ht hd h0 h47 hp hc
    have counted : Steps [.now, .ctr] s (bump (atTime s u) kTickBoundaries d none) := .andThen steps_atTime.mono steps_bump
    have hb := boundary_none (s := bump (atTime s u) kTickBoundaries d none) n draws (counted.consists_eq.trans hc)
    refine ⟨_, exec_tickBoundary hl ht hd h0 h47 hp, ?time, ?cap, ?mem, ?sems⟩
    case time => rw [hb, steps_countPaths.time_eq, boundaryTurned_time, counted.time_eq]
    case cap => rw [hb, steps_countPaths.pow_eq, boundaryTurned_capNow, odN_congr counted.od_eq]
    case mem => rw [hb, steps_countPaths.mem_eq, steps_boundaryTurned.mem_eq, counted.mem_eq]
    case sems => rw [hb, steps_countPaths.sems_eq, steps_boundaryTurned.sems_eq, counted.sems_eq]

/-- Settles O21: the tick follows module time forward only; what a step passes over is counted. -/
theorem alignmentMoves : Obligations.AlignmentMoves := by
  refine ⟨?regain, ?step⟩
  case regain =>
    intro u w s hw h1 hp hb hs ha
    refine ⟨_, exec_alignmentRegain hw h1 hp hb hs ha, ?value, rfl, ?others, rfl⟩
    case value => exact odN_odSet_same (atTime s u) kTickAligned 1
    case others => exact odKept_odSet (k := kTickAligned) (atTime s u) 1 (by simp)
  case step =>
    intro u d s hd ha hp
    obtain ⟨n, ht, hn⟩ := tickForward_time (timeStepped s u d)
    have forward : CtrKept [kTicksSkipped, kSlotOverruns] (timeStepped s u d) (tickForward (timeStepped s u d)) :=
      ctrKept_tickForward _ (by rwa [steps_timeStepped.parts_eq])
    have bound : OdKept [kOffsetBound] s (timeStepped s u d) :=
      (odKept_odSet { atTime s u with time := _ } 8 (by simp)).trans (odKept_bump _ _ _ _ _)
    refine ⟨_, exec_timeStep u hd ha, ?offset, ?pending, ?tick, ?count, ?value, ?others, ?counters, ?frame⟩
    case offset => rw [ht, timeStepped_time]
    case pending => rw [ht, timeStepped_time]
    case tick =>
      rw [ht]
      exact hn.imp (fun h => h.trans (by rw [timeStepped_time])) (fun h => by rwa [tickNow, timeStepped_time] at h)
    case count =>
      refine .before (t := timeStepped s u d) ?_ (forward.operator (by decide))
      exact counted_bump (odSet { atTime s u with time := _ } kOffsetBound 8) kTimeSteps none
    case value => rw [odN_congr steps_tickForward.od_eq, timeStepped, odN_bump, odN_odSet_same]
    case others => exact bound.trans (odKept_of_od steps_tickForward.od_eq)
    case counters =>
      refine .trans (t := timeStepped s u d) ?_ (forward.mono (by simp +contextual))
      exact ctrKept_bump (odSet { atTime s u with time := _ } kOffsetBound 8) 1 none nofun (by simp)
    case frame =>
      have h := (Steps.andThen (F := [.now, .od, .ctr, .time]) steps_timeStepped (steps_tickForward (s := timeStepped s u d))).frame
      have hn : (tickForward (timeStepped s u d)).now = max s.now u := steps_tickForward.now_eq.trans (bump_now ..)
      rw [← hn]; exact h
end

section
/-! O22 to O24: PTP, the reference input, slots and deadlocks (R172 to R196, R345, R346, R537). -/

namespace Sys2Proof.Machine

-- Checked one after another: the check allows too few threads for more.
set_option Elab.async false

/-- What a command changes that sets the time of the latest command. -/
theorem Steps.frame_now {F : List Field} {s t : State} {n : Nat} (h : Steps F s t) (hn : t.now = n) : t = { s.merge F t with now := n } :=
  h.frame.trans (congrArg (fun n => { s.merge F t with now := n }) ((congrArg State.now h.frame).symm.trans hn))

theorem Steps.frame_clock {s t : State} {n : Nat} (h : Steps [.now, .od, .ctr, .time] s t) (hn : t.now = n) :
    t = { s with now := n, od := t.od, ctr := t.ctr, time := t.time } := h.frame_now hn

/-! ### A lost alignment and a measured offset (R172, R173) -/

theorem loseAlign_aligned {s : State} (h : odN s kTickAligned = 1) :
    loseAlign s = bump (odSet s kTickAligned 0) kAlignmentLosses 1 none := if_pos h

theorem odKept_loseAlign (s : State) : OdKept [kTickAligned] s (loseAlign s) := by
  unfold loseAlign
  split
  · exact (odKept_odSet s 0 (by simp)).trans (odKept_bump _ _ _ _ _)
  · exact .refl _ s

/-- A loss that is due only at times leaves the time's record. -/
theorem time_ite_loseAlign (c : Prop) [Decidable c] (s : State) : (if c then loseAlign s else s).time = s.time := by
  split
  · exact steps_loseAlign.time_eq
  · rfl

theorem odKept_loseAlign_of_od {s t : State} (h : t.od = s.od) : OdKept [kTickAligned] s (loseAlign t) :=
  (odKept_of_od h).trans (odKept_loseAlign t)

theorem odKept_ite_loseAlign (c : Prop) [Decidable c] {s t : State} (h : t.od = s.od) :
    OdKept [kTickAligned] s (if c then loseAlign t else t) := by
  split
  · exact odKept_loseAlign_of_od h
  · exact odKept_of_od h

/-- The record of a silent source. -/
def silent (s : State) : State := { s with time := { s.time with overRun := 4, withinSince := none } }

theorem sourceLost_eq (s : State) : sourceLost s = loseAlign (silent s) := rfl

theorem odN_sourceLost {s : State} (h : odN s kTickAligned = 1) : odN (sourceLost s) kTickAligned = 0 := by
  rw [sourceLost_eq, loseAlign_aligned (s := silent s) h, odN_bump, odN_odSet_same]

theorem counted_sourceLost {s : State} (h : odN s kTickAligned = 1) : Counted s (sourceLost s) kAlignmentLosses 1 := by
  rw [sourceLost_eq, loseAlign_aligned (s := silent s) h]
  exact counted_bump (odSet (silent s) kTickAligned 0) kAlignmentLosses none

theorem odKept_sourceLost (s : State) : OdKept [kTickAligned] s (sourceLost s) := odKept_loseAlign (silent s)

theorem sourceLost_time (s : State) : (sourceLost s).time = { s.time with overRun := 4, withinSince := none } :=
  (steps_loseAlign (s := silent s)).time_eq

/-- The record of module time after a measurement within 1,000 ns: the offset is noted, and no step waits. -/
theorem applyOffset_time (s : State) {d : Int} (e : Nat) (h : d.natAbs ≤ 1000) : ∃ o w b,
    (applyOffset s d e).time = { s.time with filtered := d, overRun := o, withinSince := w, pendingStep := none, offset := b } := by
  unfold applyOffset
  dsimp only
  rw [if_neg (by omega)]
  exact ⟨_, _, _, time_ite_loseAlign _ _⟩

/-- What every measurement does to the objects: the bound follows, and nothing else but the alignment. -/
theorem odKept_applyOffset (s : State) (d : Int) (e : Nat) :
    OdKept [kTickAligned] (odSet s kOffsetBound (min (d.natAbs + 8) 0xFFFF_FFFF)) (applyOffset s d e) := by
  unfold applyOffset
  dsimp only
  by_cases h : 1000 < d.natAbs
  · rw [if_pos h]; exact odKept_loseAlign_of_od rfl
  · rw [if_neg h]; exact odKept_ite_loseAlign _ rfl

theorem odN_applyOffset_bound (s : State) {d : Int} (e : Nat) (h : d.natAbs ≤ 1000) : odN (applyOffset s d e) kOffsetBound = d.natAbs + 8 := by
  rw [(odKept_applyOffset s d e).odN_eq (by decide), odN_odSet_same]; omega

theorem odKept_applyOffset_all (s : State) (d : Int) (e : Nat) : OdKept [kOffsetBound, kTickAligned] s (applyOffset s d e) :=
  (odKept_odSet s _ (by simp)).trans ((odKept_applyOffset s d e).mono (by simp))

/-! ### PTP (R345, R346) -/

theorem ptpHeard_congr {s t : State} (h : t.od = s.od) (n : Nat) : ptpHeard t n = ptpHeard s n := by simp only [ptpHeard, odN_congr h]
theorem ptpOk_congr {s t : State} (h : t.od = s.od) (b : Bool) (n : Nat) : ptpOk t b n = ptpOk s b n := by simp only [ptpOk, odN_congr h]
theorem ptpIsMaster_congr {s t : State} (h : t.time.master = s.time.master) (m : Nat) : ptpIsMaster t m = ptpIsMaster s m := by
  simp only [ptpIsMaster, h]

/-- The message counted at its arrival. -/
def syncHeard (s : State) (m : PtpMsg) : State := bump (atTime s m.ingress) (kPtpEventRx m.port) 1 none

theorem steps_syncHeard {s : State} {m : PtpMsg} : Steps [.now, .ctr] s (syncHeard s m) := .andThen steps_atTime.mono steps_bump

theorem syncHeard_now (s : State) (m : PtpMsg) : (syncHeard s m).now = max s.now m.ingress := bump_now ..

theorem counted_syncHeard (s : State) (m : PtpMsg) : Counted s (syncHeard s m) (kPtpEventRx m.port) 1 :=
  counted_bump (atTime s m.ingress) _ none

/-- The Sync noted with its time and interval. -/
def syncNoted (s : State) (m : PtpMsg) : State :=
  { syncHeard s m with time := { s.time with lastSync := some (max s.now m.ingress, m.intervalNs) } }

/-- The Sync's time of arrival. -/
def syncArrival (s : State) (m : PtpMsg) : Int := (moduleTime (atTime s m.ingress) : Int) + ingressLatency s m.port

theorem exec_ptpSyncRx {m : PtpMsg} {s : State} (hp : m.port < 8) (hh : ptpHeard s m.port = true) (ho : ptpOk s m.ok m.domain = true)
    (h1 : 7_812_500 ≤ m.intervalNs) (h2 : m.intervalNs ≤ 1_000_000_000) (hm : ptpIsMaster s m.master = true) :
    exec (.ptpSyncRx m) s = .next (if m.twoStep then
        { syncNoted s m with time := { (syncNoted s m).time with twoStep := some (m.seq, syncArrival s m) } }
      else ptpMeasure (syncNoted s m) ((m.originTime : Int) + m.correction) (syncArrival s m)) := by
  have od : (syncHeard s m).od = s.od := steps_syncHeard.od_eq
  have time : (syncHeard s m).time = s.time := steps_syncHeard.time_eq
  have arrival : (moduleTime (syncHeard s m) : Int) + ingressLatency (syncHeard s m) m.port = syncArrival s m := by
    rw [syncArrival, ingressLatency, ingressLatency, odN_congr od, moduleTime_congr (s := atTime s m.ingress) (syncHeard_now s m) (by rw [time]; rfl)]
  have noted : { syncHeard s m with time := { (syncHeard s m).time with lastSync := some ((syncHeard s m).now, m.intervalNs) } } = syncNoted s m := by
    simp only [syncNoted, time, syncHeard_now]
  show execPtpSyncRx m s = _
  rw [execPtpSyncRx, decide_eq_true hp, guardWf_true]
  refine congrArg Host.Outcome.next ((if_neg ?_).trans ((if_neg ?_).trans ((if_neg ?_).trans ?_)))
  · exact fun h => by rw [← syncHeard, ptpHeard_congr od, hh] at h; exact Bool.noConfusion h
  · rintro (h | h | h)
    · rw [← syncHeard, ptpOk_congr od, ho] at h; exact Bool.noConfusion h
    · omega
    · omega
  · exact fun h => by rw [← syncHeard, ptpIsMaster_congr (congrArg TimeSt.master time), hm] at h; exact Bool.noConfusion h
  · rw [← arrival, ← noted]; rfl

theorem steps_syncNoted {s : State} {m : PtpMsg} : Steps [.now, .ctr, .time] s (syncNoted s m) := .andThen steps_syncHeard.mono with_time

/-- The Sync that waited for its Follow_Up no longer does. -/
def followed (s : State) : State := { s with time := { s.time with twoStep := none } }

theorem exec_ptpFollowUpRx {m : PtpMsg} {t2 : Int} {s : State} (hp : m.port < 8) (hh : ptpHeard s m.port = true)
    (ho : ptpOk s m.ok m.domain = true) (h2 : s.time.twoStep = some (m.seq, t2)) (hm : ptpIsMaster s m.master = true) :
    exec (.ptpFollowUpRx m) s =
      .next (ptpMeasure (followed s) ((m.originTime : Int) + m.correction) t2) := by
  show execPtpFollowUpRx m s = _
  rw [execPtpFollowUpRx, decide_eq_true hp, guardWf_true, if_neg (by simp [hh]), if_neg (by simp [ho])]
  simp only [h2]
  exact congrArg Host.Outcome.next (if_pos (And.intro trivial hm))

/-- A measurement: the offset applied, and the measurement kept for the path delay. -/
theorem ptpMeasure_eq (s : State) (t1 t2 : Int) : ∃ e, ptpMeasure s t1 t2 =
    { applyOffset s (t2 - t1 - s.time.pathDelay) e with
      time := { (applyOffset s (t2 - t1 - s.time.pathDelay) e).time with measured := some (s.now, t2 - t1) } } := by
  unfold ptpMeasure
  dsimp only
  split <;> exact ⟨_, by rw [steps_applyOffset.now_eq]⟩

theorem ptpMeasure_time (s : State) {t1 t2 : Int} (h : (t2 - t1 - s.time.pathDelay).natAbs ≤ 1000) : ∃ o w b,
    (ptpMeasure s t1 t2).time = { s.time with filtered := t2 - t1 - s.time.pathDelay, overRun := o, withinSince := w, pendingStep := none,
                                              offset := b, measured := some (s.now, t2 - t1) } := by
  obtain ⟨e, he⟩ := ptpMeasure_eq s t1 t2
  obtain ⟨o, w, b, ht⟩ := applyOffset_time s e h
  exact ⟨o, w, b, by rw [he, ht]⟩

theorem odN_ptpMeasure_bound (s : State) {t1 t2 : Int} (h : (t2 - t1 - s.time.pathDelay).natAbs ≤ 1000) :
    odN (ptpMeasure s t1 t2) kOffsetBound = (t2 - t1 - s.time.pathDelay).natAbs + 8 := by
  obtain ⟨e, he⟩ := ptpMeasure_eq s t1 t2
  rw [he]
  exact odN_applyOffset_bound s e h

theorem odKept_ptpMeasure (s : State) (t1 t2 : Int) : OdKept [kOffsetBound, kTickAligned] s (ptpMeasure s t1 t2) := by
  obtain ⟨e, he⟩ := ptpMeasure_eq s t1 t2
  rw [he]
  exact odKept_applyOffset_all s _ e

theorem exec_ptpAnnounceRx {m : PtpAnnounce} {s : State} (hp : m.port < 8) (hh : ptpHeard s m.port = true)
    (ho : ptpOk s m.ok m.domain = true) : exec (.ptpAnnounceRx m) s = .next { s with time := { s.time with
      announces := tins (tdel s.time.announces m.master) m.master m.rank,
      master := bestMaster (tins (tdel s.time.announces m.master) m.master m.rank) } } := by
  show execPtpAnnounceRx m s = _
  rw [execPtpAnnounceRx, decide_eq_true hp, guardWf_true, if_neg (by simp [hh]), if_neg (by simp [ho])]

/-- A delay request's number and the state in which it has left. -/
def delayAsked (s : State) (u q x : Nat) : State :=
  emit (bump { atTime s u with time := { s.time with delayReq := some (q, x) } } (kPtpEventTx (odN s kPtpPort)) 1 none)
    (.delayReq (odN s kPtpPort) x (odN s kPtpVid) (odN s kPtpDomain))

theorem exec_ptpDelayReqTx (u : Nat) {s : State} (h0 : odN s kTimeSource = 0) (hm : s.time.master ≠ none) : ∃ q,
    exec (.ptpDelayReqTx u) s =
      .next (delayAsked s u q ((moduleTime (atTime s u) : Int) + egressLatency s (odN s kPtpPort)).toNat) := by
  show ∃ q, execPtpDelayReqTx u s = _
  unfold execPtpDelayReqTx
  dsimp only
  refine ⟨_, congrArg Host.Outcome.next ((if_neg ?_).trans rfl)⟩
  exact not_or.mpr ⟨not_not.mpr h0, hm⟩

theorem exec_ptpDelayRespRx {m : PtpMsg} {t3 u : Nat} {ms : Int} {s : State} (hp : m.port < 8) (hh : ptpHeard s m.port = true)
    (ho : ptpOk s m.ok m.domain = true) (hr : s.time.delayReq = some (m.seq, t3)) (hms : s.time.measured = some (u, ms))
    (hm : ptpIsMaster s m.master = true) : exec (.ptpDelayRespRx m) s =
      .next { s with time := { s.time with pathDelay := (ms + ((m.originTime : Int) - m.correction - t3)) / 2 } } := by
  show execPtpDelayRespRx m s = _
  rw [execPtpDelayRespRx, decide_eq_true hp, guardWf_true, if_neg (by simp [hh]), if_neg (by simp [ho])]
  split
  · next e1 e2 =>
    cases hr.symm.trans e1; cases hms.symm.trans e2
    exact congrArg _ (if_pos ⟨rfl, hm⟩)
  · next h => exact absurd hms (h _ _ _ _ hr)

theorem exec_ptpSyncTimeout {u v iv : Nat} {s : State} (h : s.time.lastSync = some (v, iv)) (h0 : odN s kTimeSource = 0)
    (hi : v + 4 * iv ≤ max s.now u) : exec (.ptpSyncTimeout u) s = .next (sourceLost (atTime s u)) := by
  show execPtpSyncTimeout u s = _
  unfold execPtpSyncTimeout
  dsimp only
  split
  · next e =>
    cases h.symm.trans e
    exact congrArg Host.Outcome.next (if_pos (And.intro h0 hi))
  · next e => cases h.symm.trans e

/-! ### The reference input (R537) -/

theorem exec_todFrame {bytes : List Byte} (u : Nat) {s : State} (h1 : odN s kTimeSource = 1) (hl : bytes.length = 12)
    (b0 : lget 0 bytes 0 = 0x54) (b1 : lget 0 bytes 1 = 0x44) (b11 : lget 0 bytes 11 = 0x0A)
    (hx : (lget 0 bytes 10).toNat = (bytes.take 10).foldl (fun x b => x ^^^ b.toNat) 0) : ∃ n,
    exec (.todFrame bytes u) s = .next { bump (atTime s u) kRefTodSteps n none with
      time := { s.time with todPending := some (leNat ((bytes.drop 2).take 8)) } } := by
  show ∃ n, execTodFrame bytes u s = _
  unfold execTodFrame
  dsimp only
  rw [if_neg (by simp [h1]), if_neg (by rw [hl, b0, b1, b11, hx]; simp only [ne_eq, not_true_eq_false, or_false]; decide), bump_time]
  exact ⟨_, rfl⟩

/-- An edge taken for second `x`, before it is measured. -/
def edgeTaken (s : State) (u x : Nat) : State :=
  { atTime s u with time := { s.time with ppsMissed := 0, todPending := none, ppsSecond := some (x + 1), lastPps := some (max s.now u) } }

theorem steps_edgeTaken {s : State} {u x : Nat} : Steps [.now, .time] s (edgeTaken s u x) := .andThen steps_atTime.mono with_time

theorem exec_ppsEdge {u x : Nat} {s : State} (h1 : odN s kTimeSource = 1) (h : s.time.todPending = some x) :
    exec (.ppsEdge u) s = .next (applyOffset (edgeTaken s u x) ((moduleTime (atTime s u) : Int) - (x * 1_000_000_000 : Nat))
      (max s.now u - s.time.lastPps.getD (max s.now u))) := by
  show execPpsEdge u s = _
  unfold execPpsEdge
  dsimp only
  rw [if_neg (by simp [h1]), show (atTime s u).time.todPending = some x from h]
  rfl

/-- A missing edge counted, and the second advanced. -/
def edgeMissed (s : State) (u : Nat) : State :=
  bump { atTime s u with time := { s.time with ppsMissed := s.time.ppsMissed + 1, ppsSecond := s.time.ppsSecond.map (· + 1), todPending := none } }
    kRefPpsMissing 1 none

theorem exec_ppsMissing (u : Nat) {s : State} (h1 : odN s kTimeSource = 1) :
    exec (.ppsMissing u) s = .next (if s.time.ppsMissed + 1 = 4 then sourceLost (edgeMissed s u) else edgeMissed s u) := by
  show execPpsMissing u s = _
  exact congrArg Host.Outcome.next (if_neg (by simp [h1]))

theorem edgeMissed_time (s : State) (u : Nat) : (edgeMissed s u).time =
    { s.time with ppsMissed := s.time.ppsMissed + 1, ppsSecond := s.time.ppsSecond.map (· + 1), todPending := none } := bump_time ..

theorem edgeMissed_now (s : State) (u : Nat) : (edgeMissed s u).now = max s.now u := bump_now ..

theorem steps_edgeMissed {s : State} {u : Nat} : Steps [.now, .ctr, .time] s (edgeMissed s u) :=
  .andThen (.andThen steps_atTime.mono with_time) steps_bump

theorem edgeMissed_eq (s : State) (u : Nat) : edgeMissed s u =
    { s with now := max s.now u, ctr := (edgeMissed s u).ctr, time := (edgeMissed s u).time } := by
  have h := (steps_edgeMissed (s := s) (u := u)).frame_now (edgeMissed_now s u)
  generalize edgeMissed s u = t at h ⊢
  exact h

theorem counted_edgeMissed (s : State) (u : Nat) : Counted s (edgeMissed s u) kRefPpsMissing 1 :=
  (counted_bump { atTime s u with time := _ } _ none).after rfl

theorem ctrKept_edgeMissed (s : State) (u : Nat) : CtrKept [kRefPpsMissing] s (edgeMissed s u) :=
  (ctrKept_of_ctr (t := { atTime s u with time := _ }) rfl).trans (ctrKept_bump _ _ none nofun (by simp))

/-! ### Slots (R177 to R182) -/

theorem exec_slotStart {k n target start : Nat} {s : State} (hk : k < 40) (h : (con s k).hold = some (.slot n target (some start)))
    (hr : (con s k).pstate = .running) (ht : tickAfter (tickNow s) start = true) (hl : live s k = true)
    (he : sinceEpoch s (moduleTime s) ≠ none) :
    exec (.slotStart k) s = .next (resume k (modCon (bump (bump s kSlotsLate (if start = target then 0 else 1) (conPart s k))
      kSlotOverruns (if tickAfter (tickNow s) (start + 1) then 1 else 0) (conPart s k)) k
      fun c => { c with slot := some ⟨n, target, start⟩ })) := by
  show execSlotStart k s = _
  rw [execSlotStart, decide_eq_true hk, guardWf_true]
  simp only [h]
  rw [if_neg (by simp [hr, ht, hl, he]), tickNow, bump_time, conPart_congr (bump_parts ..)]; rfl

theorem exec_slotComplete {k busy wait : Nat} {r : SlotRun} {s : State} (hk : k < 40) (h : (con s k).slot = some r)
    (hv : (con s k).verbs = []) (hs : (con s k).sidingRuns = []) (hh : (con s k).hold = some (.slot 0 0 none)) :
    exec (.slotComplete k busy wait) s = .next (slotReady k (bump (bump (slotRecord s k (if tickNow s = r.start then 0 else 0x05) busy wait)
      kSlotsCompleted 1 (conPart (slotRecord s k (if tickNow s = r.start then 0 else 0x05) busy wait) k))
      kSignalWaitCycles wait (conPart (slotRecord s k (if tickNow s = r.start then 0 else 0x05) busy wait) k))) := by
  show execSlotComplete k busy wait s = _
  rw [execSlotComplete, decide_eq_true hk, guardWf_true]
  simp only [h, hh]
  rw [if_neg (by simp [hv, hs])]

/-! ### Deadlock detection (R191 to R196) -/

/-- A member that depends on itself alone reaches itself alone. -/
theorem reachFrom_self {edges : Waiter → List Waiter} {x : Waiter} (h : edges x = [x]) (n : Nat) : reachFrom edges (n + 2) [x] [] = [x] := by
  simp only [reachFrom, h, List.nil_append, List.append_nil, List.contains_nil, List.contains_cons, beq_self_eq_true, Bool.true_or, if_true,
    Bool.false_eq_true, if_false]
  cases n <;> rfl

/-- The one loop of a member that depends on itself alone. -/
theorem loops_self {edges : Waiter → List Waiter} {x : Waiter} (h : edges x = [x]) (n : Nat) :
    let reach := fun y => reachFrom edges (n + 2) (edges y) []
    let looped := [x].filter fun y => (reach y).contains y
    (looped.map fun y => looped.filter fun z => (reach y).contains z && (reach z).contains y).eraseDups = [[x]] := by
  have hr : reachFrom edges (n + 2) (edges x) [] = [x] := by rw [h]; exact reachFrom_self h n
  simp [hr, List.eraseDups_cons]

/-- The waits of a wait that depends on itself, as the search takes them. -/
def selfEdges (s : State) (r : WaitRec) (x : Waiter) : List Waiter :=
  match [r].find? fun w => decide (w.who = x) with
  | some w => (depends s [r] w).filter fun y => ([r].map fun w => w.who).contains y
  | none => []

theorem selfEdges_self {s : State} {r : WaitRec} (hd : depends s [r] r = [r.who]) : selfEdges s r r.who = [r.who] := by
  simp [selfEdges, hd]

/-- A wait that depends on itself is a loop of its own. -/
theorem exec_deadlockSearch_self {r : WaitRec} {s : State} (h : ((List.range 40).flatMap fun k => consistWaits s k) = [r])
    (ho : 2 < (tickNow s + 2 ^ 48 - r.since % 2 ^ 48) % 2 ^ 48) (hd : depends s [r] r = [r.who]) :
    exec .deadlockSearch s = .next (lockStop s [r] [r.who]) := by
  have old : ([r].filter fun w : WaitRec => decide (2 < (tickNow s + 2 ^ 48 - w.since % 2 ^ 48) % 2 ^ 48)) = [r] :=
    List.filter_cons_of_pos (p := fun w : WaitRec => decide (2 < (tickNow s + 2 ^ 48 - w.since % 2 ^ 48) % 2 ^ 48)) (decide_eq_true ho)
  show execDeadlockSearch s = _
  unfold execDeadlockSearch
  dsimp only
  rw [h, old]
  exact congrArg (fun l => Host.Outcome.next (l.foldl (fun s l => lockStop s [r] l) s)) (loops_self (selfEdges_self hd) 1999)

/-- With no wait that old the search finds no loop. -/
theorem exec_deadlockSearch_none {s : State}
    (h : ∀ k, k < 40 → ∀ r ∈ consistWaits s k, (tickNow s + 2 ^ 48 - r.since % 2 ^ 48) % 2 ^ 48 ≤ 2) : exec .deadlockSearch s = .next s := by
  have none : (((List.range 40).flatMap fun k => consistWaits s k).filter fun w => 2 < (tickNow s + 2 ^ 48 - w.since % 2 ^ 48) % 2 ^ 48) = [] := by
    rw [List.filter_eq_nil_iff]
    intro r hr
    obtain ⟨k, hk, hr⟩ := List.mem_flatMap.mp hr
    simpa using h k (List.mem_range.mp hk) r hr
  show execDeadlockSearch s = _
  unfold execDeadlockSearch
  dsimp only
  rw [none]; rfl

end Sys2Proof.Machine

open Sys2Proof Sys2Proof.Machine

/-- Settles O22: each message that reaches the engine notes what it brings; a measurement within 1,000 ns is slewed. -/
theorem ptpMessagesTaken : Obligations.PtpMessagesTaken := by
  refine ⟨?twoStep, ?oneStep, ?followUp, ?announce, ?delayReq, ?delayResp, ?timeout⟩
  case twoStep =>
    intro m s hp hh ho h1 h2 hm ht
    have e := exec_ptpSyncRx hp hh ho h1 h2 hm
    rw [ht, if_pos rfl] at e
    refine ⟨_, e, (counted_syncHeard s m).before rfl, rfl, ?_⟩
    exact (Steps.andThen (F := [.now, .ctr, .time]) steps_syncNoted with_time).frame_now (syncHeard_now s m)
  case oneStep =>
    intro m s hp hh ho h1 h2 hm ht
    have e := exec_ptpSyncRx hp hh ho h1 h2 hm
    rw [ht, if_neg (by simp)] at e
    refine ⟨_, e, (counted_syncHeard s m).before rfl, rfl, ?_⟩
    exact steps_syncNoted.frame_now (syncHeard_now s m)
  case followUp =>
    intro m t2 s hp hh ho h2 hm hd
    obtain ⟨o, w, b, time⟩ := ptpMeasure_time (followed s) hd
    refine ⟨_, exec_ptpFollowUpRx hp hh ho h2 hm, ?filtered, ?measured, ?paired, ?lastSync, ?bound, ?others, ?state⟩
    case filtered => rw [time]; rfl
    case measured => rw [time]; rfl
    case paired => rw [time]; rfl
    case lastSync => rw [time]; rfl
    case bound => exact odN_ptpMeasure_bound (followed s) hd
    case others => exact odKept_ptpMeasure (followed s) _ _
    case state => exact (Steps.andThen (F := [.od, .ctr, .time]) with_time.mono (steps_ptpMeasure (s := followed s))).frame
  case announce =>
    exact fun m s hp hh ho => ⟨_, exec_ptpAnnounceRx hp hh ho, tget_tins_same _ _ _ _, rfl, rfl⟩
  case delayReq =>
    intro u s h0 hm
    obtain ⟨q, e⟩ := exec_ptpDelayReqTx u h0 hm
    refine ⟨_, _, e, rfl, ⟨q, ?asked⟩, ?count, ?left⟩
    case asked => exact (emit_time ..).trans (bump_time ..)
    case count => exact counted_bump { atTime s u with time := _ } _ none
    case left =>
      rw [delayAsked, bump_eq]; rfl
  case delayResp => exact fun m t3 u ms s hp hh ho hr hms hm => exec_ptpDelayRespRx hp hh ho hr hms hm
  case timeout =>
    intro u v iv s h h0 hi ha
    refine ⟨_, exec_ptpSyncTimeout h h0 hi, odN_sourceLost ha, counted_sourceLost (s := atTime s u) ha, sourceLost_time _,
      odKept_sourceLost (atTime s u), ?_⟩
    have hn : (sourceLost (atTime s u)).now = max s.now u := steps_sourceLost.now_eq
    exact (Steps.andThen steps_atTime.mono steps_sourceLost).frame_clock hn

/-- Settles O23: a frame names the second, an edge is measured against it, and a missing edge counts. -/
theorem referenceInput : Obligations.ReferenceInput := by
  refine ⟨?frame, ?edge, ?missing, ?fourth⟩
  case frame =>
    intro bytes u s h1 hl b0 b1 b11 hx
    obtain ⟨n, e⟩ := exec_todFrame u h1 hl b0 b1 b11 hx
    refine ⟨_, e, rfl, ?counters, ?state⟩
    case counters => exact (ctrKept_bump (atTime s u) n none nofun (by simp)).trans (ctrKept_of_ctr rfl)
    case state => rw [bump_eq]; rfl
  case edge =>
    intro u x s h1 h hd
    obtain ⟨o, w, b, htime⟩ := applyOffset_time (edgeTaken s u x) (max s.now u - s.time.lastPps.getD (max s.now u)) hd
    refine ⟨_, exec_ppsEdge h1 h, ?second, ?missed, ?pending, ?filtered, ?others, ?state⟩
    case second => exact congrArg TimeSt.ppsSecond htime
    case missed => exact congrArg TimeSt.ppsMissed htime
    case pending => exact congrArg TimeSt.todPending htime
    case filtered => exact congrArg TimeSt.filtered htime
    case others => exact .trans (t := edgeTaken s u x) (odKept_of_od rfl) (odKept_applyOffset_all _ _ _)
    case state =>
      have hn (d : Int) (e : Nat) : (applyOffset (edgeTaken s u x) d e).now = max s.now u := steps_applyOffset.now_eq
      exact (Steps.andThen steps_edgeTaken.mono steps_applyOffset).frame_clock (hn _ _)
  case missing =>
    intro u s h1 h3
    have e := exec_ppsMissing u h1
    rw [if_neg (by omega)] at e
    refine ⟨_, e, counted_edgeMissed s u, edgeMissed_time s u, ?_⟩
    exact edgeMissed_eq s u
  case fourth =>
    intro u s h1 h3 ha
    have e := exec_ppsMissing u h1
    rw [if_pos (by omega)] at e
    have ha' : odN (edgeMissed s u) kTickAligned = 1 := (odN_congr steps_edgeMissed.od_eq _).trans ha
    refine ⟨_, e, odN_sourceLost ha', ?count, (odKept_of_od steps_edgeMissed.od_eq).trans (odKept_sourceLost _)⟩
    exact (counted_sourceLost ha').after ((ctrKept_edgeMissed s u).operator (by decide))

/-- Settles O24: a slot that waits begins at its boundary, and a wait that depends on itself stops its consist. -/
theorem slotsAndDeadlocks : Obligations.SlotsAndDeadlocks :=
  ⟨fun _ _ _ _ _ hk h hr ht hl he => exec_slotStart hk h hr ht hl he, fun _ _ _ _ _ hk h hv hs hh => exec_slotComplete hk h hv hs hh,
    fun _ _ h ho hd => exec_deadlockSearch_self h ho hd, fun _ h => exec_deadlockSearch_none h⟩
end

section
/-! O25, O27, O28: links, cages and pauses (R325 to R349, R538 to R540). -/

namespace Sys2Proof.Machine

-- Checked one after another: the check allows too few threads for more.
set_option Elab.async false

/-! ### Ports -/

@[simp] theorem port_setPort_same (s : State) (n : Nat) (v : Port) : port (setPort s n v) n = v := tget_tset_same _ _ _ _
theorem port_setPort_ne (s : State) {n m : Nat} (v : Port) (h : m ≠ n) : port (setPort s n v) m = port s m := tget_tset_ne _ _ _ h
theorem odB_congr {s t : State} (h : t.od = s.od) (k : Nat) : odB t k = odB s k := by simp only [odB, odVal_congr h]

theorem port_congr {s t : State} (h : t.ports = s.ports) (n : Nat) : port t n = port s n := by simp only [port, h]

theorem kLinkUp_inj {m n : Nat} : kLinkUp m = kLinkUp n ↔ m = n := by simp [kLinkUp]
theorem kLinkUp_ne_speed (m n : Nat) : kLinkUp m ≠ kPortSpeed n := by simp [kLinkUp, kPortSpeed]; omega

theorem counted_foldl_bump {α : Type} (l : List α) (f : α → Nat) (k : Nat) (s : State) (h : ∀ a ∈ l, f a < 61) :
    CtrKept [k] s (l.foldl (fun s a => bump s k 1 (some (f a))) s) := by
  induction l generalizing s with
  | nil => exact .refl _ s
  | cons a r ih =>
    have hp : ∀ q, some (f a) = some q → q < 61 := fun q e => Option.some.inj e ▸ h a (by simp)
    rw [List.foldl_cons]
    exact .trans (t := bump s k 1 (some (f a))) (ctrKept_bump s 1 _ hp (by simp)) (ih _ fun b hb => h b (by simp [hb]))

/-! ### A link that goes down (R333) -/

/-- The frames of a port discarded and counted. -/
def framesDropped (s : State) (n : Nat) : State :=
  ((port s n).txq ++ (port s n).wait).foldl (fun s f => bump s (kTxLinkDownDrops n) 1 (some f.part)) s

theorem steps_framesDropped {s : State} {n : Nat} : Steps [.ctr] s (framesDropped s n) := .foldl .refl fun _ _ => steps_bump

/-- The port emptied, and the frame on the wire cut short. -/
def portEmptied (s : State) (n : Nat) : State :=
  let t := setPort (framesDropped s n) n { port s n with txq := [], wait := [], lastEnd := 0 }
  if s.now < (port s n).lastEnd then emit t (.cut n) else t

theorem portEmptied_frame (s : State) (n : Nat) : portEmptied s n = { s with
    ctr := (framesDropped s n).ctr
    ports := tset Port.reset s.ports n { port s n with txq := [], wait := [], lastEnd := 0 }
    out := (if s.now < (port s n).lastEnd then [.cut n] else []) ++ s.out } := by
  have h := (steps_framesDropped (s := s) (n := n)).frame
  unfold portEmptied
  generalize framesDropped s n = t at h ⊢
  rw [h]
  split <;> rfl

theorem linkDown_down {s : State} {n : Nat} (h : odN s (kLinkUp n) = 0) : linkDown s n = s := if_pos h

theorem linkDown_up {s : State} {n : Nat} (h : odN s (kLinkUp n) ≠ 0) :
    linkDown s n = bump (odSet (odSet (portEmptied s n) (kLinkUp n) 0) (kPortSpeed n) 0) (kLinkDownEvents n) 1 none := by
  have now : (framesDropped s n).now = s.now := steps_framesDropped.now_eq
  unfold linkDown
  rw [if_neg h, portEmptied, ← now]; rfl

theorem odKept_linkDown (s : State) (n : Nat) : OdKept [kLinkUp n, kPortSpeed n] s (linkDown s n) := by
  by_cases h : odN s (kLinkUp n) = 0
  · rw [linkDown_down h]; exact .refl _ s
  · have empty : OdKept [kLinkUp n, kPortSpeed n] s (portEmptied s n) := by rw [portEmptied_frame]; exact odKept_of_od rfl
    rw [linkDown_up h]
    exact ((empty.trans (odKept_odSet _ 0 (by simp))).trans (odKept_odSet _ 0 (by simp))).trans (odKept_bump _ _ _ _ _)

theorem odN_linkDown (s : State) (n : Nat) : odN (linkDown s n) (kLinkUp n) = 0 := by
  by_cases h : odN s (kLinkUp n) = 0
  · rw [linkDown_down h, h]
  · rw [linkDown_up h, odN_bump, odN_odSet_ne _ _ (kLinkUp_ne_speed n n), odN_odSet_same]

theorem odN_linkDown_speed {s : State} {n : Nat} (h : odN s (kLinkUp n) ≠ 0) : odN (linkDown s n) (kPortSpeed n) = 0 := by
  rw [linkDown_up h, odN_bump, odN_odSet_same]

/-- A link that is down stays down while another goes down. -/
theorem odN_linkDown_other (s : State) {m n : Nat} (h : m = n ∨ odN s (kLinkUp m) = 0) : odN (linkDown s n) (kLinkUp m) = 0 := by
  by_cases e : m = n
  · rw [e]; exact odN_linkDown s n
  · rw [(odKept_linkDown s n).odN_eq (by simp [kLinkUp_inj, e, kLinkUp_ne_speed])]
    exact h.resolve_left e

theorem linkDown_out (s : State) (n : Nat) : (linkDown s n).out =
    (if odN s (kLinkUp n) ≠ 0 ∧ s.now < (port s n).lastEnd then [.cut n] else []) ++ s.out := by
  by_cases h : odN s (kLinkUp n) = 0
  · rw [linkDown_down h, if_neg (by simp [h])]; rfl
  · have : (portEmptied s n).out = _ := congrArg State.out (portEmptied_frame s n)
    rw [linkDown_up h, bump_out]
    refine this.trans ?_
    simp only [h, ne_eq, not_false_eq_true, true_and]

theorem linkDown_ports {s : State} {n : Nat} (h : odN s (kLinkUp n) ≠ 0) :
    (linkDown s n).ports = tset Port.reset s.ports n { port s n with txq := [], wait := [], lastEnd := 0 } := by
  rw [linkDown_up h, bump_ports]
  exact congrArg State.ports (portEmptied_frame s n)

theorem counted_linkDown {s : State} {n : Nat} (h : odN s (kLinkUp n) ≠ 0) (hp : ∀ f ∈ (port s n).txq ++ (port s n).wait, f.part < 40) :
    Counted s (linkDown s n) (kLinkDownEvents n) 1 := by
  have drops : CtrKept [kTxLinkDownDrops n] s (framesDropped s n) :=
    counted_foldl_bump _ _ _ _ fun f hf => (hp f hf).trans (by decide)
  have empty : ctrGet (odSet (odSet (portEmptied s n) (kLinkUp n) 0) (kPortSpeed n) 0) (kLinkDownEvents n) 0 = ctrGet s (kLinkDownEvents n) 0 := by
    rw [ctrGet_odSet, ctrGet_odSet, ctrGet_congr (congrArg State.ctr (portEmptied_frame s n))]
    exact drops.operator (by simp [kLinkDownEvents, kTxLinkDownDrops])
  rw [linkDown_up h]
  exact (counted_bump _ _ none).after empty

/-! ### Several links that go down -/

/-- Frames on the wire cut short are all that is shown. -/
def OnlyCuts (s t : State) : Prop := ∃ l, (∀ o ∈ l, ∃ n, o = Out.cut n) ∧ t.out = l ++ s.out

theorem OnlyCuts.refl (s : State) : OnlyCuts s s := ⟨[], nofun, rfl⟩

theorem OnlyCuts.trans {s t u : State} (h : OnlyCuts s t) (g : OnlyCuts t u) : OnlyCuts s u := by
  obtain ⟨l, hl, ht⟩ := h
  obtain ⟨m, hm, hu⟩ := g
  refine ⟨m ++ l, fun o ho => (List.mem_append.mp ho).elim (hm o) (hl o), ?_⟩
  rw [hu, ht, List.append_assoc]

theorem onlyCuts_of_out {s t : State} (h : t.out = s.out) : OnlyCuts s t := ⟨[], nofun, h⟩

theorem onlyCuts_linkDown (s : State) (n : Nat) : OnlyCuts s (linkDown s n) := by
  refine ⟨_, ?_, linkDown_out s n⟩
  split <;> simp

/-- After several links have gone down: those that have, and those that were down. -/
theorem odN_foldl_linkDown (l : List Nat) (s : State) {m : Nat} (h : m ∈ l ∨ odN s (kLinkUp m) = 0) :
    odN (l.foldl linkDown s) (kLinkUp m) = 0 := by
  induction l generalizing s with
  | nil => exact h.resolve_left (by simp)
  | cons n r ih =>
    refine ih _ ?_
    rcases h with h | h
    · rcases List.mem_cons.mp h with e | h
      · exact .inr (odN_linkDown_other s (.inl e))
      · exact .inl h
    · exact .inr (odN_linkDown_other s (.inr h))

theorem onlyCuts_foldl_linkDown (l : List Nat) (s : State) : OnlyCuts s (l.foldl linkDown s) := by
  induction l generalizing s with
  | nil => exact .refl s
  | cons n r ih => exact (onlyCuts_linkDown s n).trans (ih _)

theorem steps_foldl_linkDown {l : List Nat} {s : State} : Steps [.od, .ctr, .ports, .out] s (l.foldl linkDown s) :=
  .foldl .refl fun _ _ => steps_linkDown

/-- The two ports of each of some cages. -/
def cagePorts (l : List Nat) : List Nat := l.flatMap fun c => [2 * c, 2 * c + 1]

theorem foldl_cages (l : List Nat) (s : State) :
    l.foldl (fun s c => linkDown (linkDown s (2 * c)) (2 * c + 1)) s = (cagePorts l).foldl linkDown s := by
  induction l generalizing s with
  | nil => rfl
  | cons c r ih => exact ih _

theorem cageDown_eq (s : State) (c : Nat) : cageDown s c = (cagePorts [c]).foldl linkDown s := rfl

theorem odKept_foldl_linkDown (l : List Nat) (s : State) :
    OdKept (l.flatMap fun n => [kLinkUp n, kPortSpeed n]) s (l.foldl linkDown s) := by
  induction l generalizing s with
  | nil => exact .refl _ s
  | cons n r ih =>
    exact ((odKept_linkDown s n).mono (by simp +contextual)).trans ((ih _).mono (by simp +contextual))

/-- Objects other than links' and speeds' stay while links go down. -/
theorem odN_foldl_linkDown_other (l : List Nat) (s : State) {k : Nat} (h : ∀ n, k ≠ kLinkUp n ∧ k ≠ kPortSpeed n) :
    odN (l.foldl linkDown s) k = odN s k :=
  (odKept_foldl_linkDown l s).odN_eq (by simp [h])

/-! ### Cages (R538 to R540) -/

theorem exec_osfpPresent {c : Nat} (u : Nat) {s : State} (hc : c < 4) (h : bitOf (odN s kOsfpPresent) c = false) :
    exec (.osfpPresent c u) s = .next { odSet (atTime s u) kOsfpPresent (bitSet (odN s kOsfpPresent) c) with
      pow := { s.pow with lowPower := bitSet s.pow.lowPower c, cageSince := tset 0 s.pow.cageSince c (max s.now u + 1) } } := by
  show execOsfpPresent c u s = _
  rw [execOsfpPresent, decide_eq_true hc, guardWf_true]
  refine congrArg Host.Outcome.next (if_neg ?_)
  exact fun h' => Bool.noConfusion (h.symm.trans h')

theorem exec_osfpLowPowerRelease {c n u : Nat} {s : State} (hc : c < 4) (hp : bitOf (odN s kOsfpPresent) c = true)
    (ht : tget 0 s.pow.cageSince c + 100_000_000 ≤ max s.now u + 1) (hn : n = 2 * c ∨ n = 2 * c + 1) (he : portExists s n = true)
    (hon : odN s (kPortEnable n) = 1) : exec (.osfpLowPowerRelease c u) s = .next { atTime s u with
      pow := { s.pow with lowPower := bitClr s.pow.lowPower c, cageSince := tdel s.pow.cageSince c } } := by
  have use : (portExists s n && odN s (kPortEnable n) = 1) = true := by simp [he, hon]
  show execOsfpLowPowerRelease c u s = _
  rw [execOsfpLowPowerRelease, decide_eq_true hc, guardWf_true]
  refine congrArg Host.Outcome.next (if_pos ⟨hp, ht, ?_⟩)
  rcases hn with rfl | rfl
  · exact Bool.or_eq_true_iff.mpr (.inl use)
  · exact Bool.or_eq_true_iff.mpr (.inr use)

/-- The cage's bit cleared and its ports down. -/
def cageEmptied (s : State) (c : Nat) : State := (cagePorts [c]).foldl linkDown (odSet s kOsfpPresent (bitClr (odN s kOsfpPresent) c))

theorem steps_cageEmptied {s : State} {c : Nat} : Steps [.od, .ctr, .ports, .out] s (cageEmptied s c) :=
  steps_odSet.mono.andThen steps_foldl_linkDown

/-- The cage out of low power besides. -/
def cageGone (s : State) (c : Nat) : State :=
  { cageEmptied s c with pow := { s.pow with lowPower := bitClr s.pow.lowPower c, cageSince := tdel s.pow.cageSince c } }

theorem exec_osfpPresenceDeassert {c : Nat} (s : State) (hc : c < 4) : exec (.osfpPresenceDeassert c) s = .next (cageGone s c) := by
  show execOsfpPresenceDeassert c s = _
  rw [execOsfpPresenceDeassert, decide_eq_true hc, guardWf_true, cageDown_eq, cageGone]
  change Host.Outcome.next { cageEmptied s c with pow := { (cageEmptied s c).pow with
    lowPower := bitClr (cageEmptied s c).pow.lowPower c, cageSince := tdel (cageEmptied s c).pow.cageSince c } } = _
  have h : (cageEmptied s c).pow = s.pow := steps_cageEmptied.pow_eq
  generalize cageEmptied s c = t at h ⊢
  rw [h]

theorem odN_with_pow (s : State) (p : PowSt) (k : Nat) : odN { s with pow := p } k = odN s k := rfl
theorem onlyCuts_with_pow {s t : State} (p : PowSt) (h : OnlyCuts s t) : OnlyCuts s { t with pow := p } := h

theorem odN_cageGone (s : State) (c k : Nat) : odN (cageGone s c) k = odN (cageEmptied s c) k := odN_with_pow _ _ k

theorem onlyCuts_cageGone (s : State) (c : Nat) : OnlyCuts s (cageGone s c) :=
  onlyCuts_with_pow _ ((onlyCuts_of_out (steps_odSet (s := s)).out_eq).trans (onlyCuts_foldl_linkDown _ _))

theorem odN_cageEmptied_present (s : State) (c : Nat) : odN (cageEmptied s c) kOsfpPresent = bitClr (odN s kOsfpPresent) c := by
  rw [cageEmptied, odN_foldl_linkDown_other _ _ fun n => by simp [kOsfpPresent, kLinkUp, kPortSpeed]; omega, odN_odSet_same]

theorem odN_cageEmptied_link (s : State) {c n : Nat} (h : n = 2 * c ∨ n = 2 * c + 1) : odN (cageEmptied s c) (kLinkUp n) = 0 :=
  odN_foldl_linkDown _ _ (.inl (by simpa [cagePorts] using h))

theorem steps_cageGone {s : State} {c : Nat} : Steps [.od, .ctr, .ports, .pow, .out] s (cageGone s c) :=
  steps_cageEmptied.mono.andThen with_pow

theorem cageGone_frame (s : State) (c : Nat) : cageGone s c =
    { s with od := (cageGone s c).od, ctr := (cageGone s c).ctr, ports := (cageGone s c).ports, pow := (cageGone s c).pow,
             out := (cageGone s c).out } := by
  have h := (steps_cageGone (s := s) (c := c)).frame
  generalize cageGone s c = t at h ⊢
  exact h

theorem exec_vosfpLoss (s : State) : exec .vosfpLoss s = .next ((List.range 8).foldl linkDown (odSet s kVosfpPresent 0)) := rfl

/-! ### Links and modes (R325 to R327, R347, R348) -/

theorem exec_linkDown {n : Nat} (s : State) (h : n < 8) : exec (.linkDown n) s = .next (linkDown s n) := by
  show execLinkDown n s = _
  rw [execLinkDown, decide_eq_true (by omega), guardWf_true, if_neg (by omega)]

theorem exec_linkDown_mgmt (s : State) : exec (.linkDown 8) s = .next (mgmtDown s) := rfl
theorem exec_linkUp_mgmt (s : State) : exec (.linkUp 8) s = .next (setPort s 8 { port s 8 with noLink := false }) := rfl

theorem exec_linkUp {n : Nat} {s : State} (hn : n < 8) (h1 : s.boot.portsOff = false) (h2 : portExists s n = true)
    (h3 : odN s (kPortEnable n) = 1) (h4 : odN s (kLinkUp n) = 0) (h5 : odN s kVosfpPresent = 1)
    (h6 : bitOf (odN s kOsfpPresent) (n / 2) = true) (h7 : bitOf s.pow.lowPower (n / 2) = false) (h8 : domState s (0x60 + n) = 0) :
    exec (.linkUp n) s = .next (pumpPort (odSet (odSet s (kLinkUp n) 1) (kPortSpeed n) (modeSpeed s n)) n) := by
  show execLinkUp n s = _
  rw [execLinkUp, decide_eq_true (by omega), guardWf_true, if_neg (by omega), linkUp, if_pos]
  exact ⟨by simp [h1], h2, h3, h4, h5, h6, by simp [h7], h8⟩

/-- The effect of a cage mode. -/
def modeSet (s : State) (v : Nat) : State :=
  odSet (odSet ((cagePorts ((List.range 4).filter fun c => bitOf v c ≠ bitOf (odN s kCageModeActive) c)).foldl linkDown s) kCageMode v)
    kCageModeActive v

theorem exec_cageModeWrite_taken {who : Who} {v : Nat} {s : State} (hr : who.role = .operator) (ho : writeOpen s kCageMode (.num v) = true)
    (ha : anyOpen s = false) (hv : v ≤ 15)
    (hp : odN s kPtpPort % 2 = 1 → bitOf v (odN s kPtpPort / 2) = false ∨ bitOf (odN s kCageMode) (odN s kPtpPort / 2) = true) :
    exec (.cageModeWrite who v) s = .next (answered (modeSet (entered s who kCageMode (.num v)) v) kCageMode) := by
  have hc : opOnly who (if anyOpen s then .denied
      else if 15 < v ∨ (odN s kPtpPort % 2 = 1 ∧ bitOf v (odN s kPtpPort / 2) ∧ !bitOf (odN s kCageMode) (odN s kPtpPort / 2)) then .malformed
      else .ok) = .ok := by
    rw [opOnly, if_pos hr, ha, if_neg (by simp), if_neg]
    rintro (h | ⟨h1, h2, h3⟩)
    · omega
    · rcases hp h1 with h | h <;> simp_all
  show execCageModeWrite who v s = _
  rw [execCageModeWrite, decide_eq_true (show v < 256 by omega), guardWf_true, dictWrite_taken ho hc]
  generalize entered s who kCageMode (.num v) = x
  simp only [foldl_cages]; rfl

theorem steps_modeSet {s : State} {v : Nat} : Steps [.od, .ctr, .ports, .out] s (modeSet s v) :=
  (steps_foldl_linkDown.andThen steps_odSet).andThen steps_odSet

theorem odN_modeSet_linkUp (s : State) {v c : Nat} (hc : c < 4) (h : bitOf v c ≠ bitOf (odN s kCageModeActive) c) :
    odN (modeSet s v) (kLinkUp (2 * c)) = 0 ∧ odN (modeSet s v) (kLinkUp (2 * c + 1)) = 0 := by
  have mem : c ∈ (List.range 4).filter fun c => bitOf v c ≠ bitOf (odN s kCageModeActive) c := by simpa [hc] using h
  have keys (n : Nat) : kLinkUp n ≠ kCageModeActive ∧ kLinkUp n ≠ kCageMode := by
    simp [kLinkUp, kCageModeActive, kCageMode]; omega
  constructor
  · rw [modeSet, odN_odSet_ne _ _ (keys _).1, odN_odSet_ne _ _ (keys _).2]
    exact odN_foldl_linkDown _ s (.inl (List.mem_flatMap.mpr ⟨c, mem, by simp⟩))
  · rw [modeSet, odN_odSet_ne _ _ (keys _).1, odN_odSet_ne _ _ (keys _).2]
    exact odN_foldl_linkDown _ s (.inl (List.mem_flatMap.mpr ⟨c, mem, by simp⟩))

/-- The effect of a port's enable. -/
def enableSet (s : State) (n v : Nat) : State := if v = 0 then linkDown (odSet s (kPortEnable n) v) n else odSet s (kPortEnable n) v

theorem portEnable_octet : ∀ n, n < 8 → tyOctets (keyTy (kPortEnable n)) = 1 := by decide +kernel

/-- A number of a type of one octet. -/
theorem lt_of_typeOk_octet {ty : OdTy} {v : Nat} (h : typeOk ty (.num v) = true) (hn : tyOctets ty = 1) : v < 256 := by
  cases ty with
  | u8 => exact of_decide_eq_true (p := v < 256) h
  | bool => exact (of_decide_eq_true (p := v < 2) h).trans (by decide)
  | _ => simp [tyOctets] at hn

theorem typeOk_of_writeOpen {s : State} {k : Nat} {v : OdVal} (h : writeOpen s k v = true) : typeOk (keyTy k) v = true :=
  ((Bool.and_eq_true _ _).mp h).2

theorem exec_portEnableWrite_taken {who : Who} {n v : Nat} {s : State} (hr : who.role = .operator) (hn : n < 8)
    (ho : writeOpen s (kPortEnable n) (.num v) = true) (he : portExists s n = true) :
    exec (.portEnableWrite who n v) s = .next (answered (enableSet (entered s who (kPortEnable n) (.num v)) n v) (kPortEnable n)) := by
  have hv : v < 256 := lt_of_typeOk_octet (typeOk_of_writeOpen ho) (portEnable_octet n hn)
  have hc : opOnly who (if (!portExists s n) = true then .denied else .ok) = .ok := by simp [opOnly, hr, he]
  show execPortEnableWrite who n v s = _
  rw [execPortEnableWrite, decide_eq_true (show n < 8 ∧ v < 256 from ⟨hn, hv⟩), guardWf_true, dictWrite_taken ho hc]; rfl

theorem kPortEnable_ne (m n : Nat) : kPortEnable m ≠ kLinkUp n ∧ kPortEnable m ≠ kPortSpeed n := by
  simp [kPortEnable, kLinkUp, kPortSpeed]; omega

theorem odN_enableSet (s : State) (n v : Nat) : odN (enableSet s n v) (kPortEnable n) = v := by
  unfold enableSet
  split
  · rw [(odKept_linkDown _ n).odN_eq (by simp [kPortEnable_ne]), odN_odSet_same]
  · exact odN_odSet_same _ _ _

theorem odN_enableSet_link (s : State) (n : Nat) : odN (enableSet s n 0) (kLinkUp n) = 0 := odN_linkDown _ n

theorem odKept_enableSet (s : State) (n v : Nat) : OdKept [kPortEnable n, kLinkUp n, kPortSpeed n] s (enableSet s n v) := by
  unfold enableSet
  split
  · exact (odKept_odSet s v (by simp)).trans ((odKept_linkDown _ n).mono (by simp +contextual))
  · exact odKept_odSet s v (by simp)

theorem enableSet_out (s : State) (n v : Nat) : (enableSet s n v).out =
    (if v = 0 ∧ odN s (kLinkUp n) ≠ 0 ∧ s.now < (port s n).lastEnd then [Out.cut n] else []) ++ s.out := by
  unfold enableSet
  split
  · next h =>
    rw [linkDown_out, odN_odSet_ne _ _ (kPortEnable_ne n n).1.symm]
    simp only [h, true_and]; rfl
  · next h => simp [h]

theorem steps_enableSet {s : State} {n v : Nat} : Steps [.od, .ctr, .ports, .out] s (enableSet s n v) :=
  .ite (.andThen steps_odSet.mono steps_linkDown) steps_odSet.mono

theorem steps_answered {s : State} {key : Nat} : Steps [.out] s (answered s key) := steps_emit

theorem entered_ports (s : State) (w : Who) (k : Nat) (v : OdVal) : (entered s w k v).ports = s.ports := steps_entered.ports_eq

/-! ### Flow control (R338) -/

theorem exec_pauseRx {n q : Nat} (s : State) (hn : n < 8) (hq : q < 65536) :
    exec (.pauseRx n q) s = .next (pauseFor (bump s (kRxPauseFrames n) 1 none) n q) := by
  show execPauseRx n q s = _
  rw [execPauseRx, decide_eq_true ⟨hn, hq⟩, guardWf_true, pauseRx]

/-- What a received pause makes of the port. -/
def pausedPort (s : State) (n q : Nat) : Port :=
  if odN s kFlowControl = 0 then port s n
  else if q = 0 then { port s n with pausedUntil := none }
  else { port s n with pausedUntil := some (s.now + ceilDiv (512 * q) (max 1 (odN s (kPortSpeed n)))) }

theorem port_pauseFor (s : State) (n q m : Nat) : port (pauseFor s n q) m = if m = n then pausedPort s n q else port s m := by
  unfold pauseFor pausedPort
  by_cases h : m = n
  · subst h
    rw [if_pos rfl]
    split
    · rfl
    · split <;> exact port_setPort_same _ _ _
  · rw [if_neg h]
    split
    · rfl
    · split <;> exact port_setPort_ne _ _ h

theorem pausedPort_congr {s t : State} (hp : t.ports = s.ports) (hn : t.now = s.now) (ho : t.od = s.od) (n q : Nat) :
    pausedPort t n q = pausedPort s n q := by
  simp only [pausedPort, port_congr hp, hn, odN_congr ho]

theorem pausedPort_bump (s : State) (k a : Nat) (p : Option Nat) (n q : Nat) : pausedPort (bump s k a p) n q = pausedPort s n q :=
  pausedPort_congr (bump_ports ..) (bump_now ..) (bump_od ..) n q

theorem exec_pfcRx {n classes : Nat} {qs : List Nat} (s : State) (hn : n < 8) (hc : classes < 256) (hl : qs.length = 8)
    (hq : (qs.all fun q => decide (q < 65536)) = true) : exec (.pfcRx n classes qs) s = .next
      (if bitOf classes (odN s kPcpFree) then pauseFor (bump s (kRxPfcFrames n) 1 none) n (lget 0 qs (odN s kPcpFree))
       else bump s (kRxPfcFrames n) 1 none) := by
  show execPfcRx n classes qs s = _
  rw [execPfcRx, decide_eq_true ⟨hn, hc, hl⟩, hq, Bool.and_self, guardWf_true, pfcRx]
  simp only [odN_bump]

theorem steps_pauseReceived {s : State} {k n q : Nat} : Steps [.ctr, .ports] s (pauseFor (bump s k 1 none) n q) :=
  .andThen steps_bump.mono steps_pauseFor

theorem ctr_pauseFor (s : State) (n q : Nat) : (pauseFor s n q).ctr = s.ctr := steps_pauseFor.ctr_eq

theorem port_bump (s : State) (k a : Nat) (p : Option Nat) (n : Nat) : port (bump s k a p) n = port s n := port_congr (bump_ports ..) n

theorem pauseOctets_congr {s t : State} (h : t.od = s.od) (n : Nat) (pfc : Bool) (quanta : Nat) :
    pauseOctets t n pfc quanta = pauseOctets s n pfc quanta := by
  simp only [pauseOctets, odN_congr h, odB_congr h]

/-- The counter of the frames that hold the peer back. -/
def pauseKey (s : State) (n : Nat) : Nat := if odN s kFlowControl = 2 then kTxPfcFrames n else kTxPauseFrames n

/-- A pause or PFC frame on the wire. -/
def pauseOut (s : State) (n quanta : Nat) : Out := .pause n (odN s kFlowControl = 2) quanta (pauseOctets s n (odN s kFlowControl = 2) quanta)

theorem sendPause_eq (s : State) (n quanta : Nat) : sendPause s n quanta =
    emit (bump (setPort s n { port s n with lastPause := s.now }) (pauseKey s n) 1 none) (pauseOut s n quanta) := by
  have octets := pauseOctets_congr (s := s) (t := setPort s n { port s n with lastPause := s.now }) rfl n (odN s kFlowControl = 2) quanta
  unfold sendPause pauseKey pauseOut
  dsimp only
  rw [octets]
  simp only [decide_eq_true_eq]

theorem port_sendPause (s : State) (n quanta m : Nat) :
    port (sendPause s n quanta) m = if m = n then { port s n with lastPause := s.now } else port s m := by
  rw [sendPause_eq, port_congr (emit_ports ..), port_bump]
  split
  · next h => rw [h, port_setPort_same]
  · next h => exact port_setPort_ne _ _ h

theorem counted_sendPause (s : State) (n quanta : Nat) : Counted s (sendPause s n quanta) (pauseKey s n) 1 := by
  rw [sendPause_eq]
  exact (counted_bump (setPort s n _) _ none).before (ctrGet_emit ..)

theorem sendPause_frame (s : State) (n quanta : Nat) : sendPause s n quanta =
    { s with ctr := (sendPause s n quanta).ctr, ports := (sendPause s n quanta).ports, out := pauseOut s n quanta :: s.out } := by
  rw [sendPause_eq, bump_eq]; rfl

/-- A pause whose port's record has changed before. -/
def pauseAs (s : State) (n quanta : Nat) (b : Bool) : State := sendPause (setPort s n { port s n with pausing := b }) n quanta

theorem port_pauseAs (s : State) (n quanta : Nat) (b : Bool) (m : Nat) :
    port (pauseAs s n quanta b) m = if m = n then { port s n with pausing := b, lastPause := s.now } else port s m := by
  rw [pauseAs, port_sendPause, port_setPort_same]
  split
  · rfl
  · next h => exact port_setPort_ne _ _ h

theorem counted_pauseAs (s : State) (n quanta : Nat) (b : Bool) : Counted s (pauseAs s n quanta b) (pauseKey s n) 1 :=
  counted_sendPause (setPort s n _) n quanta

theorem pauseAs_frame (s : State) (n quanta : Nat) (b : Bool) : pauseAs s n quanta b =
    { s with ctr := (pauseAs s n quanta b).ctr, ports := (pauseAs s n quanta b).ports, out := pauseOut s n quanta :: s.out } := by
  refine (sendPause_frame (setPort s n _) n quanta).trans ?_
  rw [show pauseOut (setPort s n _) n quanta = pauseOut s n quanta from
    congrArg (Out.pause n _ quanta) (pauseOctets_congr (s := s) rfl n _ quanta)]
  rfl

theorem exec_pauseRefresh {n shared reserved : Nat} {s : State} (hn : n < 8) (hs : shared ≤ bufferHalf) (hr : reserved ≤ bufferHalf) :
    exec (.pauseRefresh n shared reserved) s = .next (
      if odN s kFlowControl = 0 ∨ odN s (kLinkUp n) = 0 then s
      else if (port s n).pausing then
        if bufferHalf < 2 * shared then (if (port s n).lastPause + 40_000 ≤ s.now then sendPause s n 0xFFFF else s)
        else if 2 * shared < bufferHalf then pauseAs s n 0 false
        else s
      else if 3 * bufferHalf < 4 * shared then pauseAs s n 0xFFFF true else s) := by
  show execPauseRefresh n shared reserved s = _
  rw [execPauseRefresh, decide_eq_true ⟨hn, hs, hr⟩, guardWf_true]
  by_cases h0 : odN s kFlowControl = 0 ∨ odN s (kLinkUp n) = 0
  · rw [if_pos h0, if_pos h0]
  · rw [if_neg h0, if_neg h0]
    by_cases hp : (port s n).pausing = true
    · rw [if_pos hp, if_pos hp]; rfl
    · obtain ⟨h1, h2⟩ := not_or.mp h0
      rw [if_neg hp, if_neg hp]
      simp [pauseStart, pauseAs, h1, h2, hp]

theorem exec_pauseQuantaExpiry {n : Nat} (s : State) (hn : n < 8) : exec (.pauseQuantaExpiry n) s = .next (match (port s n).pausedUntil with
    | some u => if u ≤ s.now then setPort s n { port s n with pausedUntil := none } else s
    | none => s) := by
  show execPauseQuantaExpiry n s = _
  rw [execPauseQuantaExpiry, decide_eq_true hn]; rfl

end Sys2Proof.Machine

open Sys2Proof Sys2Proof.Machine

/-- Settles O25: a cage's ports go down one after the other, and only frames cut short are shown. -/
theorem cagesAndTheirSupply : Obligations.CagesAndTheirSupply := by
  refine ⟨?present, ?release, ?gone, ?loss, ?back⟩
  case present =>
    intro c u s hc h
    refine ⟨_, exec_osfpPresent u hc h, odN_odSet_same (atTime s u) kOsfpPresent _, rfl, ?since, ?others, rfl⟩
    case since => exact tget_tset_same (α := Nat) 0 s.pow.cageSince c (max s.now u + 1)
    case others => exact odKept_odSet (k := kOsfpPresent) (atTime s u) _ (by simp)
  case release => exact fun c n u s hc hp ht hn he hon => ⟨_, exec_osfpLowPowerRelease hc hp ht hn he hon, rfl, rfl⟩
  case gone =>
    intro c s hc
    refine ⟨_, exec_osfpPresenceDeassert s hc, ?bit, ?first, ?second, rfl, ?cuts, cageGone_frame s c⟩
    case bit => rw [odN_cageGone, odN_cageEmptied_present]
    case first => rw [odN_cageGone, odN_cageEmptied_link s (.inl rfl)]
    case second => rw [odN_cageGone, odN_cageEmptied_link s (.inr rfl)]
    case cuts => exact onlyCuts_cageGone s c
  case loss =>
    refine fun s => ⟨_, exec_vosfpLoss s, ?value, ?down, onlyCuts_foldl_linkDown _ (odSet s kVosfpPresent 0), ?frame⟩
    case value =>
      refine (odN_foldl_linkDown_other _ (odSet s kVosfpPresent 0) fun n => ?_).trans (odN_odSet_same s _ _)
      simp [kVosfpPresent, kLinkUp, kPortSpeed]; omega
    case down => exact fun n hn => odN_foldl_linkDown _ _ (.inl (List.mem_range.mpr hn))
    case frame => exact (Steps.andThen (F := [.od, .ctr, .ports, .out]) steps_odSet.mono steps_foldl_linkDown).frame
  case back => exact fun s => ⟨_, rfl, odN_odSet_same s _ _, odKept_odSet s 1 (by simp), rfl⟩

/-- Settles O27: a link goes down as a whole, and modes and enables take the links down that they concern. -/
theorem portsGoUpAndDown : Obligations.PortsGoUpAndDown := by
  refine ⟨?down, ?already, ?mgmt, ?mgmtAlready, ?mgmtUp, ?up, ?mode, ?enable⟩
  case down =>
    intro n s hn hl hp
    have ports := linkDown_ports hl
    refine ⟨_, exec_linkDown s hn, odN_linkDown s n, odN_linkDown_speed hl, ?port, ?shown, counted_linkDown hl hp, ?others,
      odKept_linkDown s n, steps_linkDown.frame⟩
    case port => rw [port, ports]; exact tget_tset_same _ _ _ _
    case shown => rw [linkDown_out]; simp [hl]
    case others => exact fun m hm => by rw [port, ports]; exact tget_tset_ne _ _ _ hm
  case already => exact fun n s hn h => (exec_linkDown s hn).trans (congrArg _ (linkDown_down h))
  case mgmt =>
    intro s h
    have e : mgmtDown s = bump (setPort s 8 { port s 8 with noLink := true }) (kLinkDownEvents 8) 1 none := if_neg (by simp [h])
    refine ⟨_, (exec_linkDown_mgmt s).trans (congrArg _ e), ?port, ?others, counted_bump (setPort s 8 _) _ none,
      ctrKept_bump (setPort s 8 _) 1 none nofun (by simp), ?frame⟩
    case port => rw [port_bump, port_setPort_same]
    case others => exact fun m hm => (port_bump ..).trans (port_setPort_ne s _ hm)
    case frame => exact (Steps.andThen (F := [.ctr, .ports]) steps_setPort.mono steps_bump).frame
  case mgmtAlready => exact fun s h => (exec_linkDown_mgmt s).trans (congrArg _ (if_pos h))
  case mgmtUp => exact fun s => ⟨_, exec_linkUp_mgmt s, port_setPort_same _ _ _, fun m hm => port_setPort_ne s _ hm, rfl⟩
  case up => exact fun n s hn h1 h2 h3 h4 h5 h6 h7 h8 => exec_linkUp hn h1 h2 h3 h4 h5 h6 h7 h8
  case mode =>
    intro who v s hr ho ha hv hp
    have active : odN (entered s who kCageMode (.num v)) kCageModeActive = odN s kCageModeActive := odN_entered s who _ _ (by decide)
    refine ⟨_, exec_cageModeWrite_taken hr ho ha hv hp, ?mode, ?active, ?links, ?cuts, ?frame⟩
    case mode => rw [odN_answered, modeSet, odN_odSet_ne _ _ (by decide), odN_odSet_same]
    case active => rw [odN_answered, modeSet, odN_odSet_same]
    case links => exact fun c hc hb => odN_modeSet_linkUp _ hc (by rwa [active])
    case cuts =>
      obtain ⟨l, hl, ho⟩ := onlyCuts_foldl_linkDown
        (cagePorts ((List.range 4).filter fun c => bitOf v c ≠ bitOf (odN (entered s who kCageMode (.num v)) kCageModeActive) c))
        (entered s who kCageMode (.num v))
      refine ⟨l, hl, congrArg (Out.written kCageMode 0 :: ·) (ho.trans ?_)⟩
      rw [entered_out]
    case frame => exact (Steps.andThen (F := [.od, .ctr, .book, .ports, .out]) (.andThen steps_entered.mono steps_modeSet) steps_answered).frame
  case enable =>
    intro who n v s hr hn ho he
    have link : odN (entered s who (kPortEnable n) (.num v)) (kLinkUp n) = odN s (kLinkUp n) :=
      odN_entered s who _ _ (by simp [bookKeys, kLinkUp, kBookHeadSerial, kBookHeadHash, kBookOldestSerial]; omega)
    refine ⟨_, exec_portEnableWrite_taken hr hn ho he, ?value, ?off, ?others, ?shown, ?frame⟩
    case value => rw [odN_answered, odN_enableSet]
    case off => rintro rfl; rw [odN_answered, odN_enableSet_link]
    case others =>
      exact odKept_answered (((odKept_entered s who _ _).mono (by simp +contextual)).trans ((odKept_enableSet _ n v).mono (by simp +contextual))) _
    case shown =>
      refine congrArg (Out.written (kPortEnable n) 0 :: ·) ((enableSet_out _ n v).trans ?_)
      rw [link, entered_now, port_congr (entered_ports ..), entered_out]
    case frame => exact (Steps.andThen (F := [.od, .ctr, .book, .ports, .out]) (.andThen steps_entered.mono steps_enableSet) steps_answered).frame

/-- Settles O28: a received pause sets the port's record, and the buffer's level decides which pause goes out. -/
theorem pausesTaken : Obligations.PausesTaken := by
  refine ⟨?pause, ?pfc, ?early, ?expiry, ?first, ?again, ?release, ?still⟩
  case pause =>
    intro n q s hn hq
    refine ⟨_, exec_pauseRx s hn hq, ?count, ?port, ?others, ?counters, steps_pauseReceived.frame⟩
    case count => exact (counted_bump s _ none).before (ctrGet_congr (ctr_pauseFor ..) _ _)
    case port => rw [port_pauseFor, if_pos rfl, pausedPort_bump]; rfl
    case others => exact fun m hm => by rw [port_pauseFor, if_neg hm, port_bump]
    case counters => exact (ctrKept_bump s 1 none nofun (by simp)).trans (ctrKept_of_ctr (ctr_pauseFor ..))
  case pfc =>
    intro n classes qs s hn hc hl hq
    have e := exec_pfcRx s hn hc hl hq
    by_cases hb : bitOf classes (odN s kPcpFree) = true
    · rw [if_pos hb] at e
      refine ⟨_, e, ?count, ?port, ?others, ?counters, steps_pauseReceived.frame⟩
      case count => exact (counted_bump s _ none).before (ctrGet_congr (ctr_pauseFor ..) _ _)
      case port =>
        rw [port_pauseFor, if_pos rfl, pausedPort_bump]
        simp only [hb, Bool.true_eq_false, or_false]; rfl
      case others => exact fun m hm => by rw [port_pauseFor, if_neg hm, port_bump]
      case counters => exact (ctrKept_bump s 1 none nofun (by simp)).trans (ctrKept_of_ctr (ctr_pauseFor ..))
    · rw [if_neg hb] at e
      refine ⟨_, e, counted_bump s _ none, ?_, fun m _ => port_bump .., ctrKept_bump s 1 none nofun (by simp),
        (steps_bump.mono (F := [.ctr, .ports])).frame⟩
      rw [if_pos (.inr (Bool.not_eq_true _ ▸ hb)), port_bump]
  case early =>
    intro n s hn h
    refine (exec_pauseQuantaExpiry s hn).trans (congrArg _ ?_)
    split
    · next u e => exact if_neg (Nat.not_le.mpr (h u e))
    · rfl
  case expiry =>
    intro n u s hn h hu
    refine ⟨setPort s n { port s n with pausedUntil := none }, (exec_pauseQuantaExpiry s hn).trans ?_, port_setPort_same _ _ _,
      fun m hm => port_setPort_ne s _ hm, rfl⟩
    rw [h]; exact congrArg _ (if_pos hu)
  case first =>
    intro n shared reserved s hn hs hr hf hl hp h
    have e := exec_pauseRefresh (s := s) hn hs hr
    rw [if_neg (not_or.mpr ⟨hf, hl⟩), if_neg (by simp [hp]), if_pos h] at e
    exact ⟨_, e, (port_pauseAs s n _ true n).trans (if_pos rfl), fun m hm => (port_pauseAs s n _ true m).trans (if_neg hm),
      counted_pauseAs s n _ true, pauseAs_frame s n _ true⟩
  case again =>
    intro n shared reserved s hn hs hr hf hl hp h ht
    have e := exec_pauseRefresh (s := s) hn hs hr
    rw [if_neg (not_or.mpr ⟨hf, hl⟩), if_pos hp, if_pos h, if_pos ht] at e
    exact ⟨_, e, (port_sendPause s n _ n).trans (if_pos rfl), fun m hm => (port_sendPause s n _ m).trans (if_neg hm),
      counted_sendPause s n _, sendPause_frame s n _⟩
  case release =>
    intro n shared reserved s hn hr hf hl hp h
    have e := exec_pauseRefresh (s := s) hn (show shared ≤ bufferHalf by omega) hr
    rw [if_neg (not_or.mpr ⟨hf, hl⟩), if_pos hp, if_neg (by omega), if_pos h] at e
    exact ⟨_, e, (port_pauseAs s n _ false n).trans (if_pos rfl), fun m hm => (port_pauseAs s n _ false m).trans (if_neg hm),
      counted_pauseAs s n _ false, pauseAs_frame s n _ false⟩
  case still =>
    intro n shared reserved s hn hs hr h
    rw [exec_pauseRefresh hn hs hr]
    by_cases h0 : odN s kFlowControl = 0 ∨ odN s (kLinkUp n) = 0
    · rw [if_pos h0]
    · rw [if_neg h0]
      rcases or_assoc.mpr h with h | ⟨hp, h⟩ | ⟨hp, h | ⟨h, ht⟩⟩
      · exact absurd h h0
      · rw [if_neg (by simp [hp]), if_neg (by omega)]
      · rw [if_pos hp, if_neg (by omega), if_neg (by omega)]
      · rw [if_pos hp, if_pos h, if_neg (by omega)]
end

section
/-! O26: errors in control state (R517). -/

namespace Sys2Proof.Machine

-- Checked one after another: the check allows too few threads for more.
set_option Elab.async false

/-- Where no partition owes a no-vote none is cast. -/
theorem castOwed_none {s : State} (h : nothingOwed s = true) : castOwed s = s := by
  have none (x : Nat × Part) (hx : x ∈ s.parts) : (part s x.1).step.owed = none := by
    simpa using List.all_eq_true.mp h x hx
  unfold castOwed
  generalize s.parts = l at none
  induction l with
  | nil => rfl
  | cons x r ih =>
    rw [List.foldl_cons, none x (by simp)]
    exact ih fun y hy => none y (by simp [hy])

theorem nothingOwed_congr {s t : State} (h : t.parts = s.parts) : nothingOwed t = nothingOwed s := by
  simp only [nothingOwed, part_congr h, h]

/-- Outside a step an error token calls for no vote. -/
theorem noteError_closed {s : State} {p st : Nat} (h : stepOpen s p = false) : noteError s (some p) st = s := by
  unfold noteError
  exact if_neg fun h' => Bool.noConfusion (h.symm.trans h'.2.1)

/-- The state in which the module has posted poisoned on a semaphore. -/
def semPoisoned (s : State) (i : Nat) (q : Option Nat) : State :=
  bump (bump (semSet s i ((semGet s i).post 2 0xFF (tickNow s))) kTokensPosted 1 q) kTokensError 1 q

theorem steps_semPoisoned {s : State} {i : Nat} {q : Option Nat} : Steps [.consists, .sems, .ctr] s (semPoisoned s i q) :=
  .andThen (.andThen steps_semSet.mono steps_bump) steps_bump

theorem enginePost_poisoned (s : State) (i : Nat) (q : Option Nat) : (enginePost s i 0x02 0xFF q).1 = noteError (semPoisoned s i q) q 0x02 := by
  unfold enginePost semPoisoned
  dsimp only
  rw [if_pos (.inl rfl)]; rfl

theorem enginePost_closed {s : State} {i : Nat} {q : Option Nat} (h : ∀ p, q = some p → stepOpen s p = false) :
    (enginePost s i 0x02 0xFF q).1 = semPoisoned s i q := by
  rw [enginePost_poisoned]
  cases q with
  | none => rfl
  | some p =>
    refine noteError_closed ?_
    rw [stepOpen, part_congr steps_semPoisoned.parts_eq]
    exact h p rfl

theorem semGet_congr {s t : State} (h : t.sems = s.sems) (i : Nat) : semGet t i = semGet s i := by simp only [semGet, h]

theorem semGet_semPoisoned (s : State) (i : Nat) (q : Option Nat) (j : Nat) :
    semGet (semPoisoned s i q) j = if j = i then (semGet s i).post 2 0xFF (tickNow s) else semGet s j := by
  rw [semPoisoned, semGet_congr (bump_sems ..), semGet_congr (bump_sems ..)]
  split
  · next h => rw [h, semGet_semSet_same]
  · next h => exact semGet_semSet_ne s _ h

/-- The partition to which a semaphore's error is attributed. -/
def semOwner (s : State) (i : Nat) : Option Nat := if (semGet s i).part = 0xFF then none else some (semGet s i).part

theorem exec_controlStateError_semaphore {i : Nat} (s : State) (hi : i < 65536) : exec (.controlStateError (.semaphore i)) s =
    .next (bump (castOwed (enginePost s i 0x02 0xFF (semOwner s i)).1) kSramUncorrectable 1 (semOwner s i)) := by
  show execControlStateError (.semaphore i) s = _
  rw [execControlStateError, decide_eq_true hi, guardWf_true]; rfl

theorem exec_controlStateError_sequencer {k : Nat} (s : State) (hk : k < 40) : exec (.controlStateError (.sequencer k)) s =
    .next (bump (sequencerError s k) kSramUncorrectable 1 (conPart s k)) := by
  show execControlStateError (.sequencer k) s = _
  rw [execControlStateError, decide_eq_true hk, guardWf_true]

theorem exec_controlStateError_scoreboard {k core : Nat} (vi : Nat) (s : State) (hk : k < 40) (hc : core < 20) :
    exec (.controlStateError (.scoreboard k core vi)) s = .next (bump (scoreboardError s k core vi) kSramUncorrectable 1 (conPart s k)) := by
  show execControlStateError (.scoreboard k core vi) s = _
  rw [execControlStateError, decide_eq_true ⟨hk, hc⟩, guardWf_true]

/-- A verb that writes nothing yet: its part on the core ends poisoned. -/
theorem scoreboardError_bare {s : State} {k core : Nat} {e : VEntry} (hv : (con s k).verbs = [e])
    (ho : (outNouns s k e).filter (fun r => r.handle ≠ 0) = []) : scoreboardError s k core e.vi =
      endPart (modVerb s k e.vi fun x => { x with issued := bitSet x.issued core }) k e.vi core .poisoned := by
  have hf : findVerb s k e.vi = some e := by simp [findVerb, hv]
  unfold scoreboardError
  rw [hf]
  dsimp only
  rw [ho]; rfl

theorem con_modVerb (s : State) (k vi : Nat) (f : VEntry → VEntry) :
    con (modVerb s k vi f) k = { con s k with verbs := (con s k).verbs.map fun e => if e.vi = vi then f e else e } := con_modCon_same _ _ _

/-- The only verb in flight, changed. -/
theorem verbs_modVerb_single {s : State} {k : Nat} {e : VEntry} (hv : (con s k).verbs = [e]) (f : VEntry → VEntry) :
    (con (modVerb s k e.vi f) k).verbs = [f e] := by
  rw [con_modVerb, hv]; simp

theorem verbs_markWaits_single {s : State} {k : Nat} {e : VEntry} (hv : (con s k).verbs = [e]) :
    ∃ w, (con (markWaits k s) k).verbs = [{ e with since := w }] := by
  have : (con (markWaits k s) k).verbs = (con s k).verbs.map fun x =>
      if heldByTokens (con s k) x then { x with since := some (x.since.getD (tickNow s)) } else { x with since := none } := by
    rw [markWaits, con_modCon_same]
  rw [this, hv, List.map_singleton]
  split
  · exact ⟨_, rfl⟩
  · exact ⟨_, rfl⟩

end Sys2Proof.Machine

open Sys2Proof Sys2Proof.Machine

/-- Settles O26: each error has its effect once and is counted. -/
theorem controlStateErrors : Obligations.ControlStateErrors := by
  refine ⟨?effect, ?closed, ?sequencer, ?scoreboard⟩
  case effect => rintro i q s hi rfl; exact exec_controlStateError_semaphore s hi
  case closed =>
    intro i s hi hn ho
    have own : ∀ p, semOwner s i = some p → stepOpen s p = false := by
      intro p hp
      unfold semOwner at hp
      split at hp
      · cases hp
      · exact Option.some.inj hp ▸ ho
    have ht := exec_controlStateError_semaphore s hi
    rw [enginePost_closed own, castOwed_none ((nothingOwed_congr steps_semPoisoned.parts_eq).trans hn)] at ht
    refine ⟨_, ht, ?post, ?others, ?frame⟩
    case post => rw [semGet_congr (bump_sems ..), semGet_semPoisoned, if_pos rfl]; rfl
    case others => exact fun j hj => by rw [semGet_congr (bump_sems ..), semGet_semPoisoned, if_neg hj]
    case frame => exact (Steps.andThen (F := [.sems, .consists, .ctr]) steps_semPoisoned.mono steps_bump).frame
  case sequencer => exact fun k s hk _ => exec_controlStateError_sequencer s hk
  case scoreboard =>
    rintro k core vi e s hk hc hv rfl - ho
    have ht := exec_controlStateError_scoreboard e.vi s hk hc
    rw [scoreboardError_bare hv ho] at ht
    have h1 := verbs_modVerb_single hv fun x => { x with issued := bitSet x.issued core }
    have h2 := verbs_modVerb_single h1 fun x => { x with parts := lset x.parts core (some .poisoned) }
    obtain ⟨w, hw⟩ := verbs_markWaits_single h2
    refine ⟨_, ht, ⟨w, ?verb⟩, ?frame⟩
    case verb => rw [con_congr (bump_consists ..)]; exact hw
    case frame => exact (Steps.andThen (F := [.consists, .ctr]) (.andThen steps_modVerb.mono steps_endPart) steps_bump).frame
end

section
/-! O30: the operator's writes of a partition's grant (R334, R417 to R419, R422). -/

namespace Sys2Proof.Machine

-- Checked one after another: the check allows too few threads for more.
set_option Elab.async false

theorem part_entered (s : State) (w : Who) (k : Nat) (v : OdVal) (p : Nat) : part (entered s w k v) p = part s p :=
  part_congr steps_entered.parts_eq p

@[simp] theorem part_answered (s : State) (key p : Nat) : part (answered s key) p = part s p := rfl

theorem shadowOf_congr {s t : State} (h : t.parts = s.parts) (p : Nat) : shadowOf t p = shadowOf s p := by
  simp only [shadowOf, grantOf, part_congr h]

theorem opOnly_operator {w : Who} {st : Status} (h : w.role = .operator) : opOnly w st = st := if_pos h

/-- The state after a write that was entered and that changed one partition. -/
def partWritten (s : State) (who : Who) (key : Nat) (v : OdVal) (p : Nat) (f : Part → Part) : State :=
  answered (modPart (entered s who key v) p f) key

section
variable (s : State) (who : Who) (key : Nat) (v : OdVal) (p : Nat) (f : Part → Part)

theorem part_partWritten_same : part (partWritten s who key v p f) p = f (part s p) := by
  rw [partWritten, part_answered, part_modPart_same, part_entered]

theorem part_partWritten_ne {q : Nat} (h : q ≠ p) : part (partWritten s who key v p f) q = part s q := by
  rw [partWritten, part_answered, part_modPart_ne _ _ h, part_entered]

theorem odKept_partWritten : OdKept bookKeys s (partWritten s who key v p f) :=
  odKept_answered ((odKept_entered s who key v).trans (odKept_of_od steps_modPart.od_eq)) key

theorem partWritten_frame : partWritten s who key v p f = { s with
    od := (partWritten s who key v p f).od, ctr := (partWritten s who key v p f).ctr, book := (partWritten s who key v p f).book
    parts := (partWritten s who key v p f).parts, out := .written key 0 :: s.out } :=
  (Steps.andThen (F := [.od, .ctr, .book, .parts]) steps_entered.mono steps_modPart).answered key

end

/-- A shadow copy written, with what the copy held before. -/
theorem putShadow_entered (s : State) (who : Who) (key : Nat) (v : OdVal) (p : Nat) (f : Grant → Grant) :
    answered (putShadow (entered s who key v) p (f (shadowOf (entered s who key v) p))) key =
      partWritten s who key v p fun q => { q with shadow := some (f (shadowOf s p)), ready := false } := by
  rw [shadowOf_congr steps_entered.parts_eq]; rfl

theorem exec_grantObjectWrite_taken {who : Who} {p sub : Nat} {val : OdVal} {s : State} (hr : who.role = .operator) (hp : p < 40)
    (h2 : 2 ≤ sub) (h8 : sub ≤ 8) (ho : writeOpen s (0x610000 + 256 * p + sub) val = true)
    (hl : (∃ n, val = .num n ∧ sub = 2 ∧ n < 2 ^ 64) ∨ ∃ b, val = .octets b ∧ sub ≠ 2 ∧ b.length = grantLen sub) :
    exec (.grantObjectWrite who p sub val) s = .next (partWritten s who (0x610000 + 256 * p + sub) val p fun q =>
      { q with shadow := some (setGrantField (shadowOf s p) sub (valNat val)), ready := false }) := by
  show execGrantObjectWrite who p sub val s = _
  rw [execGrantObjectWrite.eq_def, decide_eq_true ⟨hp, h2, h8⟩, guardWf_true]
  dsimp only
  rw [dictWrite_taken ho, putShadow_entered (f := fun g => setGrantField g sub (valNat val))]
  rw [opOnly_operator hr]
  refine if_pos ?_
  obtain ⟨n, rfl, hs, hn⟩ | ⟨b, rfl, hs, hb⟩ := hl
  · exact Bool.and_eq_true_iff.mpr ⟨decide_eq_true hs, decide_eq_true hn⟩
  · exact Bool.and_eq_true_iff.mpr ⟨decide_eq_true hs, decide_eq_true hb⟩

theorem exec_vidWrite_taken {who : Who} {p v : Nat} {s : State} (hr : who.role = .operator) (hp : p < 40)
    (ho : writeOpen s (kVid p) (.num v) = true) (ht : vidTaken s p v = false) (h0 : 0 < v) (h1 : v < 4095) (hv : v ≠ odN s kPtpVid) :
    exec (.vidWrite who p v) s = .next (partWritten s who (kVid p) (.num v) p fun q =>
      { q with shadow := some { shadowOf s p with vid := v }, ready := false }) := by
  show execVidWrite who p v s = _
  rw [execVidWrite, decide_eq_true ⟨hp, by omega⟩, guardWf_true, dictWrite_taken ho]
  · exact congrArg _ (putShadow_entered s who (kVid p) (.num v) p fun g => { g with vid := v })
  · rw [opOnly_operator hr, ht, if_neg Bool.false_ne_true, if_neg (by omega)]

theorem exec_portMapWrite_taken {who : Who} {p v : Nat} {s : State} (hr : who.role = .operator) (hp : p < 40) (hv : v < 256)
    (ho : writeOpen s (kPortMap p) (.num v) = true) (he : (bitList 8 v).all (portExists s) = true) :
    exec (.portMapWrite who p v) s = .next (partWritten s who (kPortMap p) (.num v) p fun q =>
      { q with shadow := some { shadowOf s p with portMap := v }, ready := false }) := by
  show execPortMapWrite who p v s = _
  rw [execPortMapWrite, decide_eq_true ⟨hp, hv⟩, guardWf_true, dictWrite_taken ho]
  · exact congrArg _ (putShadow_entered s who (kPortMap p) (.num v) p fun g => { g with portMap := v })
  · rw [opOnly_operator hr, if_pos he]

/-- The effect of a commit whose checks pass. -/
def commitReady (s : State) (p : Nat) : State :=
  odSet (modPart s p fun q => { q with shadow := some (shadowOf s p), ready := true }) (kGrantStatus p) (stCode .notReady)

theorem odKept_commitReady (s : State) (p : Nat) : OdKept [kGrantStatus p] s (commitReady s p) :=
  .trans (t := modPart s p fun q => { q with shadow := some (shadowOf s p), ready := true }) (odKept_of_od rfl) (odKept_odSet _ _ (by simp))

theorem exec_grantCommit_taken {who : Who} {p : Nat} {s : State} (hr : who.role = .operator) (hp : p < 40)
    (ho : writeOpen s (kGrantCommit p) (.num 1) = true) (hc : commitCheck s p = .ok) : exec (.grantCommit who p) s =
      .next (answered (commitReady (entered s who (kGrantCommit p) (.num 1)) p) (kGrantCommit p)) := by
  show execGrantCommit who p s = _
  rw [execGrantCommit, decide_eq_true hp, guardWf_true]
  dsimp only
  rw [if_neg (fun h => h.2 hc), dictWrite_taken ho ((opOnly_operator hr).trans hc)]; rfl

theorem exec_grantDiscard_taken {who : Who} {p : Nat} {s : State} (hr : who.role = .operator) (hp : p < 40)
    (ho : writeOpen s (kGrantCommit p) (.num 3) = true) : exec (.grantDiscard who p) s =
      .next (partWritten s who (kGrantCommit p) (.num 3) p fun q => { q with shadow := none, ready := false }) := by
  show execGrantDiscard who p s = _
  rw [execGrantDiscard, decide_eq_true hp, guardWf_true, dictWrite_taken ho (opOnly_operator hr)]; rfl

theorem exec_grantRelease_taken {who : Who} {p : Nat} {s : State} (hr : who.role = .operator) (hp : p < 40)
    (ho : writeOpen s (kGrantCommit p) (.num 2) = true) (hc : grantsClosed s = false) (hs : stepOpen s p = false) :
    exec (.grantRelease who p) s = .next (answered (beginRelease (entered s who (kGrantCommit p) (.num 2)) p) (kGrantCommit p)) := by
  show execGrantRelease who p s = _
  rw [execGrantRelease, decide_eq_true hp, guardWf_true, dictWrite_taken ho]
  rw [opOnly_operator hr, hc, hs]; rfl

theorem exec_grantForceRelease_taken {who : Who} {p : Nat} {s : State} (hr : who.role = .operator) (hp : p < 40)
    (ho : writeOpen s (kGrantCommit p) (.num 4) = true) (hc : grantsClosed s = false) :
    exec (.grantForceRelease who p) s = .next (answered (forceRelease (entered s who (kGrantCommit p) (.num 4)) p) (kGrantCommit p)) := by
  show execGrantForceRelease who p s = _
  rw [execGrantForceRelease, decide_eq_true hp, guardWf_true, dictWrite_taken ho]
  rw [opOnly_operator hr, hc]; rfl

/-- A partition that leaves at the next boundary. -/
theorem beginRelease_granted {s : State} {p : Nat} (h : (part s p).grant ≠ none) : beginRelease s p =
    odSet (modPart s p fun q => { q with leaves := true, ready := false, shadow := none }) (kPartState p) 2 := if_neg h

theorem odKept_beginRelease (s : State) (p : Nat) : OdKept [kPartState p] s (beginRelease s p) := by
  by_cases h : (part s p).grant = none
  · rw [beginRelease, if_pos h]; exact .refl _ s
  · rw [beginRelease_granted h]
    exact .trans (t := modPart s p fun q => { q with leaves := true, ready := false, shadow := none }) (odKept_of_od rfl)
      (odKept_odSet _ _ (by simp))

end Sys2Proof.Machine

open Sys2Proof Sys2Proof.Machine

/-- Settles O30: each write is entered, and changes the one partition. -/
theorem grantsWritten : Obligations.GrantsWritten := by
  refine ⟨?object, ?consists, ?vid, ?ports, ?commit, ?discard, ?release, ?force⟩
  case object =>
    intro who p sub b s hr hp h3 h8 hl ho
    refine ⟨_, exec_grantObjectWrite_taken hr hp (by omega) h8 ho (.inr ⟨b, rfl, by omega, hl⟩), part_partWritten_same .., fun q h => part_partWritten_ne _ _ _ _ _ _ h,
      odKept_partWritten _ _ _ _ _ _, partWritten_frame ..⟩
  case consists =>
    intro who p v s hr hp hv ho
    exact ⟨_, exec_grantObjectWrite_taken hr hp (by omega) (by omega) ho (.inl ⟨v, rfl, rfl, hv⟩), part_partWritten_same ..,
      fun q h => part_partWritten_ne _ _ _ _ _ _ h⟩
  case vid =>
    intro who p v s hr hp ho ht h0 h1 hv
    exact ⟨_, exec_vidWrite_taken hr hp ho ht h0 h1 hv, part_partWritten_same .., fun q h => part_partWritten_ne _ _ _ _ _ _ h,
      odKept_partWritten _ _ _ _ _ _⟩
  case ports =>
    intro who p v s hr hp hv ho he
    exact ⟨_, exec_portMapWrite_taken hr hp hv ho he, part_partWritten_same .., fun q h => part_partWritten_ne _ _ _ _ _ _ h,
      odKept_partWritten _ _ _ _ _ _⟩
  case commit =>
    intro who p s hr hp ho hc
    have parts : (entered s who (kGrantCommit p) (.num 1)).parts = s.parts := steps_entered.parts_eq
    refine ⟨_, exec_grantCommit_taken hr hp ho hc, ?copy, ?others, ?status, ?kept⟩
    case copy =>
      rw [part_answered, commitReady, part_odSet, part_modPart_same, part_congr parts, shadowOf_congr parts]
    case others => exact fun q h => by rw [part_answered, commitReady, part_odSet, part_modPart_ne _ _ h, part_congr parts]
    case status => exact (odN_answered _ _ _).trans (odN_odSet_same _ _ _)
    case kept =>
      exact odKept_answered (((odKept_entered s who _ _).mono (by simp +contextual)).trans ((odKept_commitReady _ p).mono (by simp))) _
  case discard =>
    intro who p s hr hp ho
    exact ⟨_, exec_grantDiscard_taken hr hp ho, part_partWritten_same .., fun q h => part_partWritten_ne _ _ _ _ _ _ h,
      odKept_partWritten _ _ _ _ _ _⟩
  case release =>
    intro who p s hr hp ho hc hs hg
    have parts : (entered s who (kGrantCommit p) (.num 2)).parts = s.parts := steps_entered.parts_eq
    have hg' : (part (entered s who (kGrantCommit p) (.num 2)) p).grant ≠ none := by rwa [part_congr parts]
    refine ⟨_, exec_grantRelease_taken hr hp ho hc hs, ?leaves, ?others, ?state, ?kept⟩
    case leaves => rw [part_answered, beginRelease_granted hg', part_odSet, part_modPart_same, part_congr parts]
    case others =>
      exact fun q h => by rw [part_answered, beginRelease_granted hg', part_odSet, part_modPart_ne _ _ h, part_congr parts]
    case state => rw [odN_answered, beginRelease_granted hg', odN_odSet_same]
    case kept =>
      exact odKept_answered (((odKept_entered s who _ _).mono (by simp +contextual)).trans ((odKept_beginRelease _ p).mono (by simp))) _
  case force => exact fun who p s hr hp ho hc => exec_grantForceRelease_taken hr hp ho hc
end

section
/-! O31, O32: the swap of a grant, the scrubs, preserved granules and the patrol (R215 to R223, R265, R266, R417, R420, R428). -/

namespace Sys2Proof.Machine

-- Checked one after another: the check allows too few threads for more.
set_option Elab.async false

theorem Steps.health_eq {F : List Field} {s t : State} (h : Steps F s t) (n : F.contains .health = false := by rfl) :
    t.health = s.health := by
  have e := congrArg State.health h.frame
  rwa [State.merge, n] at e

/-! ### The counts of free granules (Table 3 of 07, Table 3 of 09) -/

theorem odKept_freeCounts (s : State) :
    OdKept [kNearGranulesFree, kFarGranulesFree, kStagingGranulesFree, kDepotGranulesFree] s (freeCounts s) :=
  (((odKept_odSet s _ (by simp)).trans (odKept_odSet _ _ (by simp))).trans (odKept_odSet _ _ (by simp))).trans (odKept_odSet _ _ (by simp))

/-! ### The swap (R417) -/

/-- A partition that the swap of its ready copy has made granted, with its keys where it had none. -/
def granted (s : State) (p : Nat) : State :=
  let t := modPart (moveTables s p (grantOf s p) (shadowOf s p) 255) p fun x =>
    { x with grant := some (shadowOf s p), shadow := none, ready := false }
  if (part s p).grant = none then firstKeys t p else t

theorem parts_granted (s : State) (p : Nat) : (granted s p).parts =
    (modPart (moveTables s p (grantOf s p) (shadowOf s p) 255) p fun x =>
      { x with grant := some (shadowOf s p), shadow := none, ready := false }).parts := by
  unfold granted
  split
  · exact steps_firstKeys.parts_eq
  · rfl

theorem exec_grantSwap_ready {p : Nat} {s : State} (hp : p < 40) (hl : (part s p).leaves = false) (hr : (part s p).ready = true)
    (ha : addsFree s p = true) (hs : odN s (kPartState p) ≠ 2) : exec (.grantSwap p) s = .next (freeCounts (bump (odSet (odSet
      (odSet (granted s p) (kGrantEpoch p) (odN (granted s p) (kGrantEpoch p) + 1)) (kGrantStatus p) 0) (kPartState p) 1) kGrantSwaps 1 none)) := by
  show execGrantSwap p s = _
  rw [execGrantSwap, decide_eq_true hp, guardWf_true, swap.eq_def]
  dsimp only
  rw [if_neg (by simp [hl]), if_pos ⟨hr, ha, hs⟩]; rfl

/-! ### Scrubs (R216, R217, R265) -/

/-- The bytes listed once a range is zeroed are those outside it. -/
theorem find_zeroRange (s : State) (a n x : Nat) : (zeroRange s a n).mem.cells.find? (·.1 = x) =
    if a ≤ x ∧ x < a + n then none else s.mem.cells.find? (·.1 = x) := by
  have hm : (zeroRange s a n).mem.cells = s.mem.cells.filter (fun c => !decide (a ≤ c.1 ∧ c.1 < a + n)) := by
    unfold zeroRange
    dsimp only
    split <;> rfl
  rw [hm, List.find?_filter]
  split
  · next h =>
    refine List.find?_eq_none.mpr fun c _ hc => ?_
    simp only [decide_eq_true_eq, Bool.not_eq_true', decide_eq_false_iff_not] at hc
    exact hc.1 (hc.2 ▸ h)
  · next h =>
    congr 1
    funext c
    by_cases e : c.1 = x
    · simp [e, h]
    · simp [e]

theorem farGen_zeroRange (s : State) (a n : Nat) : (zeroRange s a n).mem.farGen = s.mem.farGen := by
  unfold zeroRange
  dsimp only
  split <;> rfl

theorem memGet_zeroRange_out (s : State) {a n x : Nat} (h : x < a ∨ a + n ≤ x) : memGet (zeroRange s a n).mem x = memGet s.mem x := by
  simp only [memGet, find_zeroRange, farGen_zeroRange, if_neg (show ¬ (a ≤ x ∧ x < a + n) by omega)]

theorem memGet_zeroRange_in (s : State) {a n x : Nat} (h : a ≤ x ∧ x < a + n) (hf : isFar x = false) : memGet (zeroRange s a n).mem x = 0 := by
  simp only [memGet, find_zeroRange, if_pos h, defaultByte, hf]; rfl

/-- A byte of the far tier lies in one granule; the free values of the others stay. -/
theorem memGet_farGen (m : MemSt) (g x : Nat) (h : x < farBase + g * 2 ^ 32 ∨ farBase + g * 2 ^ 32 + 2 ^ 32 ≤ x) :
    memGet { m with farGen := tmod 0 m.farGen g (· + 1) } x = memGet m x := by
  by_cases hf : isFar x = true
  · have hb : farBase ≤ x := by
      simp only [isFar, Bool.and_eq_true, decide_eq_true_eq] at hf; exact hf.1
    have hg : (x - farBase) / 2 ^ 32 ≠ g := by omega
    simp only [memGet, tget_tmod_ne _ _ _ hg]
  · simp only [memGet, defaultByte, hf]; rfl

/-- The state in which a granule's scrub is marked as running. -/
def scrubRuns (s : State) (tier : ScrubTier) (g : Nat) : State :=
  { s with health := { s.health with leaving := s.health.leaving.map (fun l =>
      if l.tier = tierCode tier ∧ l.no = g then { l with running := true } else l) } }

theorem exec_granuleScrub_runs {tier : ScrubTier} {g : Nat} {s : State} (hg : g < 6400)
    (hl : (s.health.leaving.any fun l => l.tier = tierCode tier && l.no = g && !l.running) = true) (hb : granuleBusy s tier g = false) :
    exec (.granuleScrub tier g) s = .next (scrubRuns (scrubGranule s tier g) tier g) := by
  show execGranuleScrub tier g s = _
  rw [execGranuleScrub, decide_eq_true hg, guardWf_true, hl, hb]; rfl

theorem exec_granuleScrub_waits {tier : ScrubTier} {g : Nat} {s : State} (hg : g < 6400)
    (h : (s.health.leaving.any fun l => l.tier = tierCode tier && l.no = g && !l.running) = false ∨ granuleBusy s tier g = true) :
    exec (.granuleScrub tier g) s = .next s := by
  show execGranuleScrub tier g s = _
  rw [execGranuleScrub, decide_eq_true hg, guardWf_true]
  refine congrArg _ (if_neg ?_)
  obtain h | h := h <;> simp [h]

/-- Memory once a granule of a tier other than the depot is scrubbed. -/
theorem mem_scrubGranule {tier : ScrubTier} (s : State) (g : Nat) (h : tier ≠ .depot) : (scrubGranule s tier g).mem =
    let z := (zeroRange s (granuleRange tier g).1 (granuleRange tier g).2).mem
    if tier = .far then { z with farGen := tmod 0 z.farGen g (· + 1) } else z := by
  cases tier with
  | near => rw [scrubGranule, bump_mem]; simp only [granuleRange]; rfl
  | far => rw [scrubGranule, bump_mem]; simp only [granuleRange]; rfl
  | staging => rw [scrubGranule, bump_mem]; simp only [granuleRange]; rfl
  | depot => exact absurd rfl h

theorem memKept_scrubGranule {tier : ScrubTier} (s : State) (g : Nat) (h : tier ≠ .depot) :
    MemKept s (scrubGranule s tier g) (granuleRange tier g).1 (granuleRange tier g).2 := by
  intro x hx
  have zero : memGet (zeroRange s (granuleRange tier g).1 (granuleRange tier g).2).mem x = memGet s.mem x := by
    exact memGet_zeroRange_out s hx
  rw [mem_scrubGranule s g h]
  dsimp only
  split
  · next ht => subst ht; rw [memGet_farGen _ _ _ hx, zero]
  · exact zero

theorem memGet_scrubGranule_zero {tier : ScrubTier} (s : State) {g x : Nat} (h : tier = .near ∨ tier = .staging)
    (hx : (granuleRange tier g).1 ≤ x ∧ x < (granuleRange tier g).1 + (granuleRange tier g).2) (hf : isFar x = false) :
    memGet (scrubGranule s tier g).mem x = 0 := by
  have hd : tier ≠ .depot := by rintro rfl; simp at h
  have hn : tier ≠ .far := by rintro rfl; simp at h
  rw [mem_scrubGranule s g hd]
  dsimp only
  rw [if_neg hn]
  exact memGet_zeroRange_in s hx hf

theorem memGet_scrubGranule_far (s : State) {g x : Nat} (hg : g < 256) (h1 : farBase + g * 2 ^ 32 ≤ x) (h2 : x < farBase + (g + 1) * 2 ^ 32) :
    memGet (scrubGranule s .far g).mem x = Config.farUnwritten (tget 0 s.mem.farGen g + 1) x := by
  have hf : isFar x = true := by
    rw [isFar, decide_eq_true (show farBase ≤ x by omega), decide_eq_true (show x < 2 * farBase by unfold farBase at *; omega)]; rfl
  have hgx : (x - farBase) / 2 ^ 32 = g := by omega
  have none : (zeroRange s (granuleRange .far g).1 (granuleRange .far g).2).mem.cells.find? (·.1 = x) = none := by
    rw [find_zeroRange]
    exact if_pos ⟨h1, by simp only [granuleRange]; omega⟩
  rw [mem_scrubGranule s g (by simp)]
  dsimp only
  rw [if_pos rfl]
  simp only [memGet, none, defaultByte, hf, if_true, Option.getD_none, hgx, tget_tmod_same, farGen_zeroRange]

theorem counted_scrubGranule {tier : ScrubTier} (s : State) (g : Nat) (h : tier ≠ .depot) :
    Counted s (scrubGranule s tier g) kScrubBytes (granuleRange tier g).2 := by
  have zero (a n : Nat) : ctrGet (zeroRange s a n) kScrubBytes 0 = ctrGet s kScrubBytes 0 := ctrGet_congr steps_zeroRange.ctr_eq _ _
  have count (t : State) (n : Nat) (hn : n ≠ 0) (ht : ctrGet t kScrubBytes 0 = ctrGet s kScrubBytes 0) :
      Counted s (bump t kScrubBytes n none) kScrubBytes n := (counted_bump t _ none hn).after ht
  cases tier with
  | near => rw [scrubGranule, show (granuleRange .near g).2 = 2 ^ 30 from rfl]; exact count _ _ (by simp) (zero _ _)
  | far => rw [scrubGranule, show (granuleRange .far g).2 = 2 ^ 32 from rfl]; exact count _ _ (by simp) (zero _ _)
  | staging => rw [scrubGranule, show (granuleRange .staging g).2 = 65536 from rfl]; exact count _ _ (by simp) (zero _ _)
  | depot => exact absurd rfl h

theorem depot_scrubGranule {tier : ScrubTier} (s : State) (g : Nat) (h : tier ≠ .depot) : (scrubGranule s tier g).depot = s.depot := by
  cases tier with
  | near => rw [scrubGranule]; exact steps_bump.depot_eq.trans steps_zeroRange.depot_eq
  | far => rw [scrubGranule]; exact steps_bump.depot_eq.trans steps_zeroRange.depot_eq
  | staging => rw [scrubGranule]; exact steps_bump.depot_eq.trans steps_zeroRange.depot_eq
  | depot => exact absurd rfl h

/-- What the depot reads once a granule's blocks are discarded (R265). -/
theorem depotByte_depotDiscard (s : State) (g a : Nat) :
    depotByte (depotDiscard s g).depot a = if a / 65536 / 65536 = g then 0 else depotByte s.depot a := by
  have hf : (depotDiscard s g).depot.cells.find? (·.1 = a) = if a / 65536 / 65536 = g then none else s.depot.cells.find? (·.1 = a) := by
    rw [show (depotDiscard s g).depot.cells = s.depot.cells.filter (fun c => !decide (c.1 / depotBlock / 65536 = g)) from rfl, List.find?_filter]
    split
    · next h =>
      refine List.find?_eq_none.mpr fun c _ hc => ?_
      simp only [decide_eq_true_eq, Bool.not_eq_true', decide_eq_false_iff_not] at hc
      exact hc.1 (hc.2 ▸ h)
    · next h =>
      congr 1
      funext c
      by_cases e : c.1 = a
      · simp [e, h, depotBlock]
      · simp [e]
  by_cases h : a / 65536 / 65536 = g
  · simp only [depotByte, hf, if_pos h]
  · simp only [depotByte, hf, if_neg h]

/-! ### The end of a scrub, and of a consist's clearing (R420, R422) -/

/-- An entry of what leaves, taken away with what was counted for it. -/
def entryGone (s : State) (tier no : Nat) : State :=
  { s with health := { s.health with leaving := s.health.leaving.filter fun l => !(l.tier = tier && l.no = no) } }

theorem leftDone_some {s : State} {tier no : Nat} {x : Leaving}
    (h : s.health.leaving.find? (fun l => l.tier = tier && l.no = no && l.running) = some x) :
    leftDone s tier no = settleFree (freeCounts (entryGone s tier no)) x.part := by
  unfold leftDone
  rw [h]; rfl

theorem leftDone_none {s : State} {tier no : Nat} (h : s.health.leaving.find? (fun l => l.tier = tier && l.no = no && l.running) = none) :
    leftDone s tier no = s := by
  unfold leftDone
  rw [h]

theorem steps_leftDone_od {s : State} {tier no p : Nat} : Steps [.od] (entryGone s tier no) (settleFree (freeCounts (entryGone s tier no)) p) :=
  .andThen steps_freeCounts steps_settleFree

theorem steps_entryGone {s : State} {tier no : Nat} : Steps [.health] s (entryGone s tier no) := with_health

theorem isLeaving_entryGone (s : State) (tier no : Nat) : isLeaving (entryGone s tier no) tier no = false := by
  simp only [isLeaving, entryGone, List.any_filter, List.any_eq_false]
  intro l _
  cases decide (l.tier = tier) && decide (l.no = no) <;> simp

theorem isLeaving_congr {s t : State} (h : t.health = s.health) (tier no : Nat) : isLeaving t tier no = isLeaving s tier no := by
  simp only [isLeaving, h]

theorem exec_granuleScrubEnd_eq {tier : ScrubTier} {g : Nat} (s : State) (hg : g < 6400) :
    exec (.granuleScrubEnd tier g) s = .next (leftDone s (tierCode tier) g) := by
  show execGranuleScrubEnd tier g s = _
  rw [execGranuleScrubEnd, decide_eq_true hg, guardWf_true]

/-- The consist cleared and the clearing counted. -/
def consistCleared (s : State) (k : Nat) : State := bump (clearConsist (dropPending s k) k) kConsistScrubs 1 none

/-- A consist that leaves goes with its partition, or to no other. -/
def leavesReleased (s : State) (k : Nat) : Bool := s.health.leaving.any fun l => l.tier = 4 && l.no = k && decide (l.part < 40)

theorem exec_consistClearEnd_done {k : Nat} {s : State} (hk : k < 40) (hl : isLeaving s 4 k = true)
    (hb : consistBusy s k (leavesReleased s k) = false) : exec (.consistClearEnd k) s = .next (leftDone (consistCleared s k) 4 k) := by
  show execConsistClearEnd k s = _
  rw [execConsistClearEnd, decide_eq_true hk, guardWf_true]
  exact congrArg _ (if_pos (Bool.and_eq_true_iff.mpr ⟨hl, (Bool.not_eq_true' _).mpr hb⟩))

theorem exec_consistClearEnd_waits {k : Nat} {s : State} (hk : k < 40)
    (h : isLeaving s 4 k = false ∨ consistBusy s k (leavesReleased s k) = true) : exec (.consistClearEnd k) s = .next s := by
  show execConsistClearEnd k s = _
  rw [execConsistClearEnd, decide_eq_true hk, guardWf_true]
  refine congrArg _ (if_neg fun hc => ?_)
  obtain ⟨hl, hb⟩ := Bool.and_eq_true_iff.mp hc
  obtain h | h := h
  · exact Bool.noConfusion (h.symm.trans hl)
  · exact Bool.noConfusion (((Bool.not_eq_true' _).mp hb).symm.trans h)

theorem con_consistCleared (s : State) (k : Nat) : con (consistCleared s k) k = Consist.reset := by
  rw [consistCleared, con_congr (bump_consists ..)]
  exact con_setCon_same _ _ _

theorem counted_consistCleared (s : State) (k : Nat) : Counted s (consistCleared s k) kConsistScrubs 1 := by
  have h : Steps [.pools, .casts, .mem, .consists, .od] s (clearConsist (dropPending s k) k) := .andThen steps_dropPending.mono steps_clearConsist
  exact (counted_bump _ _ none).after (ctrGet_congr h.ctr_eq _ _)

theorem steps_consistCleared {s : State} {k : Nat} : Steps [.pools, .casts, .mem, .consists, .od, .ctr] s (consistCleared s k) :=
  .andThen (.andThen steps_dropPending.mono steps_clearConsist) steps_bump

/-! ### Preserved granules (R266, R428) -/

theorem any_tins {α : Type} (t : Tab α) (k : Nat) (v : α) : ((tins t k v).any fun x => x.1 = k) = true := by
  induction t with
  | nil => simp [tins]
  | cons c r ih =>
    unfold tins
    split
    · simp
    · split
      · simp
      · simp only [List.any_cons, ih, Bool.or_true]

theorem key_ne_of_mem_tdel {α : Type} {t : Tab α} {k : Nat} {x : Nat × α} (h : x ∈ tdel t k) : x.1 ≠ k := by
  have := find_tdel_same t k
  rw [List.find?_eq_none] at this
  simpa using this x h

/-- The depot's table of preserved granules replaced, and counted. -/
def preservedAs (s : State) (t : Tab (List Byte)) : State := preservedCount { s with depot := { s.depot with preserved := t } }

theorem odN_preservedAs (s : State) (t : Tab (List Byte)) : odN (preservedAs s t) kDepotPreservedGranules = t.length := odN_odSet_same _ _ _

theorem depot_preservedAs (s : State) (t : Tab (List Byte)) (key : Nat) :
    (answered (freeCounts (preservedAs s t)) key).depot.preserved = t := rfl

theorem steps_preservedAs {s : State} {t : Tab (List Byte)} : Steps [.depot, .od] s (preservedAs s t) := .andThen with_depot.mono steps_preservedCount

/-- Counting the free granules and answering leaves every other table. -/
theorem countedFree_kept (s : State) (key : Nat) : (answered (freeCounts s) key).mem = s.mem ∧ (answered (freeCounts s) key).parts = s.parts ∧
    (answered (freeCounts s) key).depot = s.depot := by
  have h : Steps [.od] s (freeCounts s) := steps_freeCounts
  generalize freeCounts s = t at h ⊢
  exact ⟨h.mem_eq, h.parts_eq, h.depot_eq⟩

theorem odN_freeCounts {s : State} {k : Nat} (h : k ∉ [kNearGranulesFree, kFarGranulesFree, kStagingGranulesFree, kDepotGranulesFree]) :
    odN (freeCounts s) k = odN s k := (odKept_freeCounts s).odN_eq h

theorem exec_depotPreserveSet_free {who : Who} {q : Nat} {s : State} (hr : who.role = .operator) (h1 : q < 65536) (h2 : q < depotGranules s)
    (ho : writeOpen s kDepotPreserveSet (.num q) = true) (hf : (s.parts.find? fun x => bitOf (grantOf s x.1).depot q) = none) :
    exec (.depotPreserveSet who q) s = .next (answered (freeCounts (preservedAs (entered s who kDepotPreserveSet (.num q))
      (tins (tdel (entered s who kDepotPreserveSet (.num q)).depot.preserved q) q
        (tget (zeros 16) (entered s who kDepotPreserveSet (.num q)).depot.preserved q)))) kDepotPreserveSet) := by
  show execDepotPreserveSet who q s = _
  rw [execDepotPreserveSet, decide_eq_true h1, guardWf_true]
  dsimp only
  rw [hf, dictWrite_taken ho ((opOnly_operator hr).trans (if_neg (by omega)))]; rfl

/-- The mark cleared; a granule that nobody holds is to be scrubbed. -/
def preserveCleared (s : State) (q : Nat) : State :=
  let marked := s.depot.preserved.any fun x => x.1 = q
  let s := preservedAs s (tdel s.depot.preserved q)
  if marked && !heldBy s (·.depot) q && !isLeaving s 3 q then
    { s with health := { s.health with leaving := s.health.leaving ++ [⟨3, q, 255, false⟩] } }
  else s

theorem preserveCleared_kept (s : State) (q : Nat) : (preserveCleared s q).depot.preserved = tdel s.depot.preserved q ∧
    odN (preserveCleared s q) kDepotPreservedGranules = (tdel s.depot.preserved q).length ∧
    (preserveCleared s q).mem = s.mem ∧ (preserveCleared s q).parts = s.parts := by
  unfold preserveCleared
  dsimp only
  split <;> exact ⟨rfl, odN_preservedAs _ _, rfl, rfl⟩

theorem exec_depotPreserveClear_taken {who : Who} {q : Nat} {s : State} (hr : who.role = .operator) (h1 : q < 65536) (h2 : q < depotGranules s)
    (ho : writeOpen s kDepotPreserveClear (.num q) = true) : exec (.depotPreserveClear who q) s =
      .next (answered (freeCounts (preserveCleared (entered s who kDepotPreserveClear (.num q)) q)) kDepotPreserveClear) := by
  show execDepotPreserveClear who q s = _
  rw [execDepotPreserveClear, decide_eq_true h1, guardWf_true,
    dictWrite_taken ho ((opOnly_operator hr).trans (if_neg (by omega)))]
  generalize entered s who kDepotPreserveClear (.num q) = x
  rfl

/-! ### The patrol (R223) -/

/-- A read that finds nothing leaves everything as it was, where no far channel has failed. -/
theorem eccRead_clean {s : State} {a : Nat} (n : Nat) (p : Option Nat) (h : isFar a = false ∨ odN s kFarChannelFailed = 0) :
    (eccRead s a n Ecc.clean p).1 = s := by
  unfold eccRead eccLines
  cases hf : isFar a with
  | false =>
    rw [if_neg Bool.false_ne_true]
    generalize (if a < nearEnd then (kNearCorrected, kNearUncorrectable) else (kSramCorrected, kSramUncorrectable)) = k
    show bump (bump s k.1 0 p) k.2 0 p = s
    rw [bump_zero, bump_zero]
  | true =>
    rw [if_pos rfl, if_pos (h.resolve_left (by rw [hf]; exact Bool.noConfusion))]
    show bump (bump s kFarCorrected 0 p) kFarUncorrectable 0 p = s
    rw [bump_zero, bump_zero]

/-- The patrol's place after a line. -/
def patrolNext (s : State) (a : Nat) (far : Bool) : Nat := if a / 64 * 64 = lastLine s far then 0 else a / 64 * 64 + 64

/-- The state after a clean patrol read of a line. -/
def patrolled (s : State) (a : Nat) (far : Bool) : State :=
  let t := bump s kPatrolPasses (if a / 64 * 64 = lastLine s far then 1 else 0) none
  { t with health := if far then { t.health with patrolFar := patrolNext s a far } else { t.health with patrolNear := patrolNext s a far } }

theorem isFar_of_near {a : Nat} (ha : a < nearEnd) : isFar a = false := by
  rw [isFar, decide_eq_false (show ¬ farBase ≤ a by unfold farBase; unfold nearEnd at ha; omega), Bool.false_and]

theorem isFar_of_far {s : State} {a : Nat} (h : region s a = .far) : isFar a = true := by
  unfold region at h
  split at h
  · split at h <;> cases h
  · split at h
    · next hf => rw [isFar, decide_eq_true hf.1, decide_eq_true hf.2]; rfl
    · split at h
      · dsimp only at h; split at h <;> cases h
      · split at h
        · dsimp only at h; split at h <;> cases h
        · split at h
          · cases h
          · split at h <;> cases h

/-- A line lies in the far tier with each of its bytes. -/
theorem isFar_line (a : Nat) : isFar (a / 64 * 64) = isFar a := by
  unfold isFar farBase
  rw [decide_eq_decide.mpr (show 0x0100_0000_0000 ≤ a / 64 * 64 ↔ 0x0100_0000_0000 ≤ a by omega),
    decide_eq_decide.mpr (show a / 64 * 64 < 2 * 0x0100_0000_0000 ↔ a < 2 * 0x0100_0000_0000 by omega)]

theorem exec_patrolRead_clean {a : Nat} {s : State} (ha : a < 2 ^ 64) (hr : region s a = .near ∨ region s a = .far)
    (h : isFar a = false ∨ odN s kFarChannelFailed = 0) : exec (.patrolRead a Ecc.clean) s = .next (patrolled s a (isFar a)) := by
  have hc : (eccRead s (a / 64 * 64) 64 Ecc.clean none).1 = s := eccRead_clean 64 none (by rwa [isFar_line])
  show execPatrolRead a Ecc.clean s = _
  rw [execPatrolRead.eq_def, decide_eq_true ha, guardWf_true]
  dsimp only
  rw [if_neg (by rintro ⟨h1, h2⟩; exact hr.elim h1 h2), hc]
  simp only [patrolled, patrolNext, decide_eq_true_eq]

theorem patrolled_frame (s : State) (a : Nat) (far : Bool) :
    patrolled s a far = { s with ctr := (patrolled s a far).ctr, health := (patrolled s a far).health } := by
  have h := (steps_bump (s := s) (key := kPatrolPasses) (n := if a / 64 * 64 = lastLine s far then 1 else 0) (part := none)).frame
  unfold patrolled
  dsimp only
  generalize bump s kPatrolPasses _ none = t at h ⊢
  rw [h]; rfl

theorem health_patrolled (s : State) (a : Nat) (far : Bool) : (patrolled s a far).health =
    if far then { s.health with patrolFar := patrolNext s a far } else { s.health with patrolNear := patrolNext s a far } := by
  unfold patrolled
  dsimp only
  rw [steps_bump.health_eq]

theorem counted_patrolled {s : State} {a : Nat} {far : Bool} (h : a / 64 * 64 = lastLine s far) :
    Counted s (patrolled s a far) kPatrolPasses 1 := by
  have := counted_bump s kPatrolPasses (n := 1) none
  unfold patrolled
  rw [if_pos h]
  exact this

end Sys2Proof.Machine

open Sys2Proof Sys2Proof.Machine

/-- Settles O31: the ready copy is granted; each scrub clears its own granule; the ends take their entries away. -/
theorem grantsSwap : Obligations.GrantsSwap := by
  refine ⟨?swap, ?scrub, ?waits, ?ends, ?idle, ?cleared, ?busy⟩
  case swap =>
    intro p s hp hl hr ha hs
    have parts (a b c : Nat) : ∀ t, part (freeCounts (bump (odSet (odSet (odSet t (kGrantEpoch p) a) (kGrantStatus p) b)
        (kPartState p) c) kGrantSwaps 1 none)) p = part t p := by
      intro t
      rw [part_congr steps_freeCounts.parts_eq, part_bump, part_odSet, part_odSet, part_odSet]
    have now := (part_congr (parts_granted s p) p).trans (part_modPart_same _ _ _)
    refine ⟨_, exec_grantSwap_ready hp hl hr ha hs, ?grant, ?ready, ?shadow, ?status, ?state⟩
    case grant => rw [grantOf, parts, now]; rfl
    case ready => rw [parts, now]
    case shadow => rw [parts, now]
    case status =>
      rw [odN_freeCounts (by simp [kGrantStatus, kNearGranulesFree, kFarGranulesFree, kStagingGranulesFree, kDepotGranulesFree]; omega),
        odN_bump, odN_odSet_ne _ _ (by simp [kGrantStatus, kPartState]), odN_odSet_same]
    case state =>
      rw [odN_freeCounts (by simp [kPartState, kNearGranulesFree, kFarGranulesFree, kStagingGranulesFree, kDepotGranulesFree]; omega),
        odN_bump, odN_odSet_same]
  case scrub =>
    intro tier g s hg hl hb
    have hh : (scrubGranule s tier g).health = s.health := steps_scrubGranule.health_eq
    refine ⟨_, exec_granuleScrub_runs hg hl hb, ?running, ?zero, ?far, ?memory, ?depot, ?frame⟩
    case running => rw [scrubRuns, hh]
    case zero => exact fun ht a h1 h2 hf => memGet_scrubGranule_zero s ht ⟨h1, h2⟩ hf
    case far =>
      intro ht hg a h1 h2
      exact (congrArg (fun t => memGet (scrubGranule s t g).mem a) ht).trans (memGet_scrubGranule_far s hg h1 h2)
    case memory => exact fun ht => ⟨memKept_scrubGranule s g ht, counted_scrubGranule s g ht, depot_scrubGranule s g ht⟩
    case depot =>
      rintro rfl
      refine ⟨rfl, depotByte_depotDiscard s g, fun b hb => ?_⟩
      have := (List.mem_filter.mp hb).2
      simpa using this
    case frame => exact (Steps.andThen (F := [.od, .ctr, .mem, .depot, .health]) steps_scrubGranule.mono with_health).frame
  case waits => exact fun tier g s hg h => exec_granuleScrub_waits hg h
  case ends =>
    intro tier g x s hg hx
    have ht := exec_granuleScrubEnd_eq (tier := tier) s hg
    rw [leftDone_some hx] at ht
    refine ⟨_, ht, ?gone, ?health, ?frame⟩
    case gone => exact (isLeaving_congr steps_leftDone_od.health_eq _ _).trans (isLeaving_entryGone ..)
    case health => exact steps_leftDone_od.health_eq
    case frame => exact (Steps.andThen (F := [.od, .health]) (steps_entryGone (tier := tierCode tier) (no := g)).mono steps_leftDone_od).frame
  case idle =>
    intro tier g s hg hx
    have ht := exec_granuleScrubEnd_eq (tier := tier) s hg
    rwa [leftDone_none hx] at ht
  case cleared =>
    intro k s hk hl hb
    have hleaves : isLeaving s 4 k = true := by
      obtain ⟨l, hm, h⟩ := List.any_eq_true.mp hl
      exact List.any_eq_true.mpr ⟨l, hm, (Bool.and_eq_true_iff.mp h).1⟩
    have ht := exec_consistClearEnd_done hk hleaves hb
    have health : (consistCleared s k).health = s.health := steps_consistCleared.health_eq
    obtain ⟨x, hx⟩ : ∃ x, (consistCleared s k).health.leaving.find? (fun l => l.tier = 4 && l.no = k && l.running) = some x := by
      rw [health]
      exact Option.isSome_iff_exists.mp (List.find?_isSome.mpr (List.any_eq_true.mp hl))
    refine ⟨_, ht, ?reset, ?gone, ?count⟩
    case reset => rw [con_congr steps_leftDone.consists_eq, con_consistCleared]
    case gone =>
      rw [leftDone_some hx]
      exact (isLeaving_congr steps_leftDone_od.health_eq _ _).trans (isLeaving_entryGone ..)
    case count => exact (counted_consistCleared s k).before (ctrGet_congr steps_leftDone.ctr_eq _ _)
  case busy => exact fun k s hk h => exec_consistClearEnd_waits hk h

/-- Settles O32: the mark's table is the depot's; a read that finds nothing moves the patrol alone. -/
theorem preserveAndPatrol : Obligations.PreserveAndPatrol := by
  refine ⟨?set, ?clear, ?near, ?far⟩
  case set =>
    intro who q s hr h1 h2 ho hf
    have hd : (entered s who kDepotPreserveSet (.num q)).depot = s.depot := steps_entered.depot_eq
    have hm : (entered s who kDepotPreserveSet (.num q)).mem = s.mem := steps_entered.mem_eq
    have hp : (entered s who kDepotPreserveSet (.num q)).parts = s.parts := steps_entered.parts_eq
    refine ⟨_, exec_depotPreserveSet_free hr h1 h2 ho hf, ?_⟩
    generalize entered s who kDepotPreserveSet (.num q) = t at hd hm hp ⊢
    rw [depot_preservedAs, odN_answered, odN_freeCounts (by decide), odN_preservedAs, hd]
    obtain ⟨mem, parts, -⟩ := countedFree_kept (preservedAs t (tins (tdel s.depot.preserved q) q (tget (zeros 16) s.depot.preserved q)))
      kDepotPreserveSet
    refine ⟨?same, any_tins _ q _, ?others, rfl, (mem.trans steps_preservedAs.mem_eq).trans hm,
      (parts.trans steps_preservedAs.parts_eq).trans hp⟩
    case same => exact tget_tins_same _ _ _ _
    case others => exact fun r hr => (tget_tins_ne _ _ _ hr).trans (tget_tdel_ne _ _ hr)
  case clear =>
    intro who q s hr h1 h2 ho
    have hm : (entered s who kDepotPreserveClear (.num q)).mem = s.mem := steps_entered.mem_eq
    have hp : (entered s who kDepotPreserveClear (.num q)).parts = s.parts := steps_entered.parts_eq
    refine ⟨_, exec_depotPreserveClear_taken hr h1 h2 ho, ?_⟩
    obtain ⟨table, count, mem, parts⟩ := preserveCleared_kept (entered s who kDepotPreserveClear (.num q)) q
    generalize entered s who kDepotPreserveClear (.num q) = t at *
    generalize preserveCleared t q = u at *
    obtain ⟨hmem, hparts, hdepot⟩ := countedFree_kept u kDepotPreserveClear
    rw [hdepot, table]
    refine ⟨fun x hx => key_ne_of_mem_tdel hx, ?count, (hmem.trans mem).trans hm, (hparts.trans parts).trans hp⟩
    rw [odN_answered, odN_freeCounts (by decide), count]
  case near =>
    intro a s ha hr
    have hf := isFar_of_near ha
    have ht := exec_patrolRead_clean (s := s) (a := a) (by unfold nearEnd at ha; omega) (.inl hr) (.inl hf)
    rw [hf] at ht
    exact ⟨_, ht, health_patrolled s a false, counted_patrolled, patrolled_frame s a false⟩
  case far =>
    intro a s hr h0
    have hf := isFar_of_far hr
    have hb : a < 2 * farBase := by
      rw [isFar, Bool.and_eq_true] at hf
      exact of_decide_eq_true hf.2
    have ht := exec_patrolRead_clean (s := s) (a := a) (by unfold farBase at hb; omega) (.inr hr) (.inr h0)
    rw [hf] at ht
    exact ⟨_, ht, health_patrolled s a true, counted_patrolled, patrolled_frame s a true⟩
end

section
/-! O33: quotes, imported keys, certificates and key lists (R427, R433 to R436, R441 to R443, R459). -/

namespace Sys2Proof.Machine

-- Checked one after another: the check allows too few threads for more.
set_option Elab.async false

theorem OdKept.odB_eq {l : List Nat} {s t : State} (h : OdKept l s t) {k : Nat} (hk : k ∉ l) : odB t k = odB s k := by simp only [odB, h k hk]

theorem odB_odSet (s : State) {k x : Nat} (n : Nat) (h : x ≠ k) : odB (odSet s k n) x = odB s x := odB_odPut_ne s _ h

section
variable (s : State) (key k : Nat)
theorem odB_answered : odB (answered s key) k = odB s k := rfl
theorem answered_sec : (answered s key).sec = s.sec := rfl
theorem answered_mem : (answered s key).mem = s.mem := rfl
theorem answered_parts : (answered s key).parts = s.parts := rfl
theorem answered_depot : (answered s key).depot = s.depot := rfl
theorem answered_boot : (answered s key).boot = s.boot := rfl
theorem answered_out : (answered s key).out = .written key 0 :: s.out := rfl
end

theorem lowestStatus_ok_ok : lowestStatus [.ok, .ok] = .ok := rfl

/-! ### Quotes (R433 to R435) -/

/-- The quotes that are still outstanding. -/
def quotesOut (s : State) : List Nat := s.sec.quotes.filter fun t => s.now < t

/-- The next quote's serial, and the quote among those outstanding. -/
def quoteNoted (s : State) (out : List Nat) : State :=
  { s with sec := { s.sec with quoteSerial := s.sec.quoteSerial + 1, quotes := out ++ [s.now + 5_000_000] } }

/-- What the module's own quote signs. -/
def quoteBody (s : State) (bytes : List Byte) : List Byte := quoteHeader s (bytes.take 32) 0xFF ++ fit 1024 (odB s kMeasurementSlots) ++ []

/-- The module's own quote: the body, then its signature under the identity key. -/
def quoteOf (s : State) (bytes : List Byte) : List Byte := quoteBody s bytes ++ (sign s s.sec.identity ctxQuote (quoteBody s bytes)).2

/-- The body signed, counted and returned. -/
def quoteSigned (s : State) (bytes : List Byte) : State :=
  emit (bump (sign s s.sec.identity ctxQuote (quoteBody s bytes)).1 kQuotesSigned 1 none) (.quote 0 (quoteOf s bytes))

theorem exec_quoteRequest_module {who : Who} {bytes : List Byte} {s : State} (hl : bytes.length = 33) (hn : (lget 0 bytes 32).toNat = 0xFF)
    (hq : (quotesOut s).length < 8) (ho : writeOpen s kQuoteRequest (.octets bytes) = true) : exec (.quoteRequest who bytes) s =
      .next (answered (quoteSigned (quoteNoted (entered s who kQuoteRequest (.octets bytes)) (quotesOut s)) bytes) kQuoteRequest) := by
  show execQuoteRequest who bytes s = _
  rw [execQuoteRequest]
  dsimp only
  rw [hn, if_neg (show ¬ bytes.length ≠ 33 by omega), if_pos rfl, if_neg (show ¬ 8 ≤ (s.sec.quotes.filter fun t => s.now < t).length from Nat.not_le.mpr hq), lowestStatus_ok_ok,
    if_neg (fun h => h.2 rfl), dictWrite_taken ho rfl, if_pos rfl]
  generalize entered s who kQuoteRequest (.octets bytes) = t
  rfl

theorem quoteHeader_length (s : State) (nonce : List Byte) (p : Nat) : (quoteHeader s nonce p).length = 128 := by
  simp [quoteHeader, leBytes_length, fit_length]

theorem quoteBody_length (s : State) (bytes : List Byte) : (quoteBody s bytes).length = 1152 := by
  simp [quoteBody, quoteHeader_length, fit_length]

/-- The nonce stands at octet 96 of the header. -/
theorem quoteHeader_nonce (s : State) {nonce : List Byte} (p : Nat) (h : nonce.length = 32) : (quoteHeader s nonce p).drop 96 = nonce := by
  have hf : fit 32 nonce = nonce := by rw [fit, List.take_append_of_le_length (by omega), List.take_of_length_le (by omega)]
  unfold quoteHeader
  rw [hf]
  refine List.drop_left' ?_
  simp [leBytes_length, fit_length]

theorem sig_length (s : State) (key ctx msg : List Byte) : (sign s key ctx msg).2.length = 3309 := by simp [sign]

theorem steps_quoteSigned {s : State} {bytes : List Byte} : Steps [.free, .ctr, .out] s (quoteSigned s bytes) :=
  .andThen (.andThen steps_sign.mono steps_bump) steps_emit

theorem counted_quoteSigned (s : State) (bytes : List Byte) : Counted s (quoteSigned s bytes) kQuotesSigned 1 := by
  unfold quoteSigned
  generalize quoteOf s bytes = q
  generalize quoteBody s bytes = b
  generalize s.sec.identity = k
  have h : Steps [.free] s (sign s k ctxQuote b).1 := steps_sign
  generalize (sign s k ctxQuote b).1 = t at h ⊢
  exact ((counted_bump t _ none).after (ctrGet_congr h.ctr_eq _ _)).before ((ctrKept_emit [] _ _).operator (by simp))

theorem quoteSigned_out (s : State) (bytes : List Byte) : (quoteSigned s bytes).out = .quote 0 (quoteOf s bytes) :: s.out := by
  unfold quoteSigned
  generalize quoteOf s bytes = q
  generalize quoteBody s bytes = b
  show _ :: (bump _ _ _ _).out = _
  rw [bump_out]; rfl

theorem take_quoteOf (s : State) (bytes : List Byte) : (quoteOf s bytes).take 1152 = quoteBody s bytes := by
  rw [quoteOf, List.take_append_of_le_length (quoteBody_length s bytes).ge, List.take_of_length_le (quoteBody_length s bytes).le]

theorem drop_quoteOf (s : State) (bytes : List Byte) : (quoteOf s bytes).drop 1152 =
    (List.range 3309).map (Config.signature s.sec.identity ctxQuote ((quoteOf s bytes).take 1152) s.free) := by
  rw [take_quoteOf, quoteOf, List.drop_append_of_le_length (quoteBody_length s bytes).ge, List.drop_of_length_le (quoteBody_length s bytes).le,
    List.nil_append]
  generalize quoteBody s bytes = b
  simp only [sign]

theorem length_quoteOf (s : State) (bytes : List Byte) : (quoteOf s bytes).length = 1152 + 3309 := by
  rw [quoteOf, List.length_append, quoteBody_length, sig_length]

theorem nonce_quoteOf (s : State) {bytes : List Byte} (h : bytes.length = 33) : ((quoteOf s bytes).drop 96).take 32 = bytes.take 32 := by
  have hn : (bytes.take 32).length = 32 := by rw [List.length_take]; omega
  have hh : 96 ≤ (quoteHeader s (bytes.take 32) 0xFF).length := by rw [quoteHeader_length]; omega
  rw [quoteOf, quoteBody, List.append_assoc, List.append_assoc, List.drop_append_of_le_length hh, quoteHeader_nonce s _ hn,
    List.take_append_of_le_length hn.ge, List.take_of_length_le hn.le]

/-! ### Imported keys (R427) -/

theorem importSecret_congr {s t : State} (h : t.sec = s.sec) (bytes : List Byte) : importSecret t bytes = importSecret s bytes := by
  simp only [importSecret, h]

theorem importCheck_ok {s : State} {who : Who} {p : Nat} {bytes : List Byte} (hr : who.role = .tenant) (hp : who.part = p)
    (hg : (part s p).grant ≠ none) (h1 : (grantOf s p).depot = 0) (h2 : (shadowOf s p).depot = 0) (hl : bytes.length = 1120)
    (hb : bytes.drop 1088 = importProof s p (importSecret s bytes)) : importCheck s who p bytes = .ok := by
  unfold importCheck
  dsimp only
  rw [if_neg (by simp [hr, hp, hg]), if_neg (by omega), if_neg (by omega), if_pos (decide_eq_true hb)]
  rfl

/-- The imported key, its check value and the mode (R427). -/
def keyImported (s : State) (p : Nat) (bytes : List Byte) : State :=
  let k := importSecret s bytes
  let ks := (tget none s.sec.keys p).getD ⟨[], [], []⟩
  let s := { s with sec := { s.sec with keys := tset none s.sec.keys p (some { ks with depot := shake256 (labelDepot ++ k) 64 }) } }
  odSet (odPut s (kDepotKeyCheck p) (.octets (shake256 (labelKcv ++ k) 16))) (kDepotKeyMode p) 1

/-- A new challenge for the partition's next import. -/
def challenged (s : State) (p : Nat) : State :=
  odPut (freshOctets (bump s kKeyImportFailures 0 none) 8 32).1 (kKeyChallenge p)
    (.octets (freshOctets (bump s kKeyImportFailures 0 none) 8 32).2)

theorem exec_depotKeyImport_taken {who : Who} {p : Nat} {cipher proof : List Byte} {s : State} (hp : p < 40)
    (hc : importCheck s who p (cipher ++ proof) = .ok) (ho : writeOpen s (kDepotKeyImport p) (.octets (cipher ++ proof)) = true) :
    ∃ b : Bool, exec (.depotKeyImport who p cipher proof) s = .next (
      if b then challenged (answered (keyImported (entered s who (kDepotKeyImport p) (.octets (cipher ++ proof))) p (cipher ++ proof))
        (kDepotKeyImport p)) p
      else answered (keyImported (entered s who (kDepotKeyImport p) (.octets (cipher ++ proof))) p (cipher ++ proof)) (kDepotKeyImport p)) := by
  refine ⟨decide (who.role = .tenant ∧ who.part = p ∧ (part s p).grant ≠ none ∧ dictUp s ∧ !starting s ∧ !bookFull s 1024), ?_⟩
  show execDepotKeyImport who p cipher proof s = _
  rw [execDepotKeyImport, decide_eq_true hp, guardWf_true, importWrite]
  dsimp only
  rw [dictWrite_taken ho hc, hc, if_neg (show ¬ Status.ok = .authFail by decide)]
  generalize entered s who (kDepotKeyImport p) (.octets (cipher ++ proof)) = t
  simp only [decide_eq_true_eq]
  rfl

theorem odKept_keyImported (s : State) (p : Nat) (bytes : List Byte) : OdKept [kDepotKeyMode p, kDepotKeyCheck p] s (keyImported s p bytes) :=
  .trans (t := { s with sec := (keyImported s p bytes).sec }) (odKept_of_od rfl)
    ((odKept_odPut _ _ (by simp)).trans (odKept_odSet _ 1 (by simp)))

theorem odB_keyImported (s : State) (p : Nat) (bytes : List Byte) :
    odB (keyImported s p bytes) (kDepotKeyCheck p) = shake256 (labelKcv ++ importSecret s bytes) 16 := by
  unfold keyImported
  dsimp only
  rw [odB_odSet _ _ (by simp [kDepotKeyCheck, kDepotKeyMode]), odB_odPut_same]

theorem keys_keyImported (s : State) (p : Nat) (bytes : List Byte) :
    ∃ x, tget none (keyImported s p bytes).sec.keys p = some x ∧ x.depot = shake256 (labelDepot ++ importSecret s bytes) 64 := by
  have h : (keyImported s p bytes).sec.keys = tset none s.sec.keys p (some { (tget none s.sec.keys p).getD ⟨[], [], []⟩ with
    depot := shake256 (labelDepot ++ importSecret s bytes) 64 }) := rfl
  rw [h]
  exact ⟨_, tget_tset_same _ _ _ _, rfl⟩

theorem steps_keyImported {s : State} {p : Nat} {bytes : List Byte} : Steps [.sec, .od] s (keyImported s p bytes) :=
  .andThen (.andThen with_sec.mono steps_odPut) steps_odSet

theorem steps_challenged {s : State} {p : Nat} : Steps [.od, .free, .ctr] s (challenged s p) :=
  .andThen (.andThen steps_bump.mono steps_freshOctets) steps_odPut

theorem odKept_challenged (s : State) (p : Nat) : OdKept [kKeyChallenge p] s (challenged s p) := by
  unfold challenged
  have h : (freshOctets (bump s kKeyImportFailures 0 none) 8 32).1.od = s.od := steps_freshOctets.od_eq.trans (bump_od ..)
  generalize freshOctets (bump s kKeyImportFailures 0 none) 8 32 = t at h ⊢
  exact .trans (t := t.1) (odKept_of_od h) (odKept_odPut _ _ (by simp))

/-- What an import leaves is the same whether the challenge is renewed or not, but for the challenge. -/
theorem challenged_kept (s : State) (p : Nat) (b : Bool) : OdKept [kKeyChallenge p] s (if b then challenged s p else s) ∧
    (if b then challenged s p else s).sec = s.sec ∧ (if b then challenged s p else s).mem = s.mem ∧
    (if b then challenged s p else s).depot = s.depot := by
  cases b with
  | true => exact ⟨odKept_challenged s p, steps_challenged.sec_eq, steps_challenged.mem_eq, steps_challenged.depot_eq⟩
  | false => exact ⟨.refl _ s, rfl, rfl, rfl⟩

/-! ### Certificates and key lists (R441 to R443, R459) -/

/-- The certificate chain replaced; an open debug port is locked at the next start-up. -/
def certWritten (s : State) (bytes : List Byte) : State :=
  let t := odPut s kIdentityChain (.octets bytes)
  { t with sec := { t.sec with relock := t.sec.relock || decide (odN t kDebugState = 2) } }

theorem exec_identityCertWrite_taken {who : Who} {bytes : List Byte} {k : Option (List Byte)} {s : State} (hr : who.role = .service)
    (hl : bytes.length = 11834) (hk : ownKeys s bytes = true) (hf : fusedKey s.sec.rootKey k = true)
    (ho : writeOpen s kIdentityCertWrite (.octets bytes) = true) : exec (.identityCertWrite who bytes k) s =
      .next (answered (certWritten (entered s who kIdentityCertWrite (.octets bytes)) bytes) kIdentityCertWrite) := by
  show execIdentityCertWrite who bytes k s = _
  rw [execIdentityCertWrite, dictWrite_taken ho]
  · generalize entered s who kIdentityCertWrite (.octets bytes) = t
    rfl
  · rw [if_neg (by simp [hr]), if_neg (by omega), hk, hf]; rfl

/-- Where the keys of a role are kept, and which sessions hang on them. -/
def keyListRole (sub : Nat) : Role := if sub = 0x0C then .operator else if sub = 0x0D then .observer else .tenant

/-- A role's key list replaced; sessions under a key that it does not hold any more end. -/
def keysReplaced (s : State) (sub p key : Nat) (bytes : List Byte) : State :=
  closeSessions (odPut s key (.octets bytes)) fun x =>
    x.role = keyListRole sub && (keyListRole sub ≠ .tenant || x.part = p) && !((keysIn bytes).map fingerprint).contains x.keyFp

/-- The key lists that KEY_LIST_WRITE may write, with what each takes. -/
def keyListFits (sub p key : Nat) (bytes : List Byte) : Prop :=
  sub = 0x0C ∧ key = kOperatorKeys ∧ bytes.length % 1952 = 0 ∧ bytes.length ≤ 4 * 1952 ∨
    sub = 0x0D ∧ key = kObserverKeys ∧ bytes.length % 1952 = 0 ∧ bytes.length ≤ 4 * 1952 ∨
    sub = 0x0E ∧ key = kTenantKey p ∧ bytes.length = 1952

theorem exec_keyListWrite_taken {who : Who} {sub p key : Nat} {bytes : List Byte} {s : State} (hr : who.role = .operator) (hp : p < 40)
    (h : keyListFits sub p key bytes) (ho : writeOpen s key (.octets bytes) = true) : exec (.keyListWrite who sub p bytes) s =
      .next (answered (keysReplaced (entered s who key (.octets bytes)) sub p key bytes) key) := by
  have hk : (if sub = 0x0C then kOperatorKeys else if sub = 0x0D then kObserverKeys else kTenantKey p) = key := by
    obtain ⟨rfl, rfl, -⟩ | ⟨rfl, rfl, -⟩ | ⟨rfl, rfl, -⟩ := h <;> rfl
  have hl : if sub = 0x0E then bytes.length = 1952 else (decide (bytes.length % 1952 = 0) && decide (bytes.length ≤ 4 * 1952)) = true := by
    obtain ⟨rfl, -, h1, h2⟩ | ⟨rfl, -, h1, h2⟩ | ⟨rfl, -, h⟩ := h
    · simp [h1, h2]
    · simp [h1, h2]
    · exact h
  have hs : 0x0C ≤ sub ∧ sub ≤ 0x0E ∧ p < 40 := by
    obtain ⟨rfl, -⟩ | ⟨rfl, -⟩ | ⟨rfl, -⟩ := h <;> exact ⟨by omega, by omega, hp⟩
  show execKeyListWrite who sub p bytes s = _
  rw [execKeyListWrite, decide_eq_true hs, guardWf_true]
  dsimp only
  rw [hk, dictWrite_taken ho]
  · generalize entered s who key (.octets bytes) = t
    rfl
  · rw [opOnly_operator hr]; exact if_pos hl

theorem odKept_keysReplaced (s : State) (sub p key : Nat) (bytes : List Byte) : OdKept [key, kLmpSessionsOpen] s (keysReplaced s sub p key bytes) := by
  unfold keysReplaced closeSessions
  exact .trans (t := odPut s key (.octets bytes)) (odKept_odPut _ _ (by simp)) (.trans (odKept_of_od rfl) (odKept_odSet _ _ (by simp)))

theorem odB_keysReplaced (s : State) (sub p : Nat) {key : Nat} (bytes : List Byte) (h : key ≠ kLmpSessionsOpen) :
    odB (keysReplaced s sub p key bytes) key = bytes := by
  unfold keysReplaced closeSessions
  rw [odB_odSet _ _ h]
  exact odB_odPut_same _ _ _

theorem steps_keysReplaced {s : State} {sub p key : Nat} {bytes : List Byte} : Steps [.od, .book] s (keysReplaced s sub p key bytes) :=
  .andThen steps_odPut.mono steps_closeSessions

end Sys2Proof.Machine

open Sys2Proof Sys2Proof.Machine

/-- Settles O33: the checks pass, and each write has its own effect after its entry. -/
theorem quotesAndKeys : Obligations.QuotesAndKeys := by
  refine ⟨?quote, ?key, ?cert, ?keyList⟩
  case quote =>
    intro who bytes s hl hn hq ho
    have free : (entered s who kQuoteRequest (.octets bytes)).free = s.free := steps_entered.free_eq
    have now : (entered s who kQuoteRequest (.octets bytes)).now = s.now := steps_entered.now_eq
    have sec : (entered s who kQuoteRequest (.octets bytes)).sec = s.sec := steps_entered.sec_eq
    have mem : (entered s who kQuoteRequest (.octets bytes)).mem = s.mem := steps_entered.mem_eq
    have parts : (entered s who kQuoteRequest (.octets bytes)).parts = s.parts := steps_entered.parts_eq
    have out := entered_out s who kQuoteRequest (.octets bytes)
    have kept := odKept_entered s who kQuoteRequest (.octets bytes)
    have count := (ctrKept_entered s who kQuoteRequest (.octets bytes)).operator (k := kQuotesSigned) (by decide)
    refine ⟨_, quoteOf (quoteNoted (entered s who kQuoteRequest (.octets bytes)) (quotesOut s)) bytes, exec_quoteRequest_module hl hn hq ho, ?_⟩
    generalize entered s who kQuoteRequest (.octets bytes) = t at free now sec mem parts out kept count ⊢
    have steps : Steps [.free, .ctr, .out] (quoteNoted t (quotesOut s)) (quoteSigned (quoteNoted t (quotesOut s)) bytes) := steps_quoteSigned
    have hcount := counted_quoteSigned (quoteNoted t (quotesOut s)) bytes
    have hout := quoteSigned_out (quoteNoted t (quotesOut s)) bytes
    generalize quoteSigned (quoteNoted t (quotesOut s)) bytes = u at steps hcount hout ⊢
    refine ⟨?out, length_quoteOf _ _, nonce_quoteOf _ hl, ?signature, ?noted, ?count, ?kept, steps.mem_eq.trans mem, steps.parts_eq.trans parts⟩
    case out => rw [answered_out, hout]; exact congrArg _ (congrArg _ out)
    case signature => rw [← sec, ← free]; exact drop_quoteOf _ _
    case noted =>
      rw [answered_sec, steps.sec_eq]
      unfold quoteNoted quotesOut
      rw [sec, now]
    case count => exact (hcount.after (t := quoteNoted t (quotesOut s)) count).answered _
    case kept => exact odKept_answered (kept.trans (.trans (t := quoteNoted t (quotesOut s)) (odKept_of_od rfl) (odKept_of_od steps.od_eq))) _
  case key =>
    rintro who p cipher proof bytes s rfl hp hr hw hg h1 h2 hl hb ho
    have sec : (entered s who (kDepotKeyImport p) (.octets (cipher ++ proof))).sec = s.sec := steps_entered.sec_eq
    have mem : (entered s who (kDepotKeyImport p) (.octets (cipher ++ proof))).mem = s.mem := steps_entered.mem_eq
    have depot : (entered s who (kDepotKeyImport p) (.octets (cipher ++ proof))).depot = s.depot := steps_entered.depot_eq
    have kept := odKept_entered s who (kDepotKeyImport p) (.octets (cipher ++ proof))
    obtain ⟨b, ht⟩ := exec_depotKeyImport_taken hp (importCheck_ok hr hw hg h1 h2 hl hb) ho
    refine ⟨_, ht, ?_⟩
    generalize entered s who (kDepotKeyImport p) (.octets (cipher ++ proof)) = t at sec mem depot kept ⊢
    have imported := odKept_keyImported t p (cipher ++ proof)
    have hcheck := odB_keyImported t p (cipher ++ proof)
    have hmode : odN (keyImported t p (cipher ++ proof)) (kDepotKeyMode p) = 1 := odN_odSet_same _ _ _
    obtain ⟨x, hx, hkey⟩ := keys_keyImported t p (cipher ++ proof)
    have hmem : (keyImported t p (cipher ++ proof)).mem = s.mem := steps_keyImported.mem_eq.trans mem
    have hdepot : (keyImported t p (cipher ++ proof)).depot = s.depot := steps_keyImported.depot_eq.trans depot
    rw [importSecret_congr sec] at hcheck hkey
    generalize keyImported t p (cipher ++ proof) = u at imported hcheck hmode hx hmem hdepot ⊢
    obtain ⟨cod, csec, cmem, cdepot⟩ := challenged_kept (answered u (kDepotKeyImport p)) p b
    generalize (if b then challenged (answered u (kDepotKeyImport p)) p else answered u (kDepotKeyImport p)) = w at cod csec cmem cdepot ⊢
    refine ⟨?mode, ?check, ⟨x, ?key, hkey⟩, ?kept, cmem.trans hmem, cdepot.trans hdepot⟩
    case mode => exact (cod.odN_eq (by simp [kDepotKeyMode, kKeyChallenge])).trans hmode
    case check => exact (cod.odB_eq (by simp [kDepotKeyCheck, kKeyChallenge])).trans hcheck
    case key => exact (congrArg (fun c : SecSt => tget none c.keys p) csec).trans hx
    case kept =>
      have written : OdKept (kDepotKeyMode p :: kDepotKeyCheck p :: kKeyChallenge p :: bookKeys) s (answered u (kDepotKeyImport p)) :=
        odKept_answered ((kept.mono (by simp +contextual)).trans (imported.mono (by simp +contextual))) _
      exact written.trans (cod.mono (by simp +contextual))
  case cert =>
    intro who bytes k s hr hl hk hf ho
    have sec : (entered s who kIdentityCertWrite (.octets bytes)).sec = s.sec := steps_entered.sec_eq
    have state : odN (entered s who kIdentityCertWrite (.octets bytes)) kDebugState = odN s kDebugState := odN_entered s who _ _ (by decide)
    have kept := odKept_entered s who kIdentityCertWrite (.octets bytes)
    refine ⟨_, exec_identityCertWrite_taken hr hl hk hf ho, ?_⟩
    generalize entered s who kIdentityCertWrite (.octets bytes) = t at sec state kept ⊢
    refine ⟨odB_odPut_same _ _ _, ?relock, odKept_answered ?kept _⟩
    case relock =>
      have : odN (odPut t kIdentityChain (.octets bytes)) kDebugState = odN s kDebugState := (odN_odPut_ne t _ (by decide)).trans state
      rw [answered_sec, certWritten, ← sec, this]; rfl
    case kept =>
      exact (kept.mono (by simp +contextual)).trans (.trans (t := odPut t kIdentityChain (.octets bytes)) (odKept_odPut _ _ (by simp))
        (odKept_of_od rfl))
  case keyList =>
    intro who sub p key bytes s hr hp h ho
    have hk : key ≠ kLmpSessionsOpen := by
      obtain ⟨-, rfl, -⟩ | ⟨-, rfl, -⟩ | ⟨-, rfl, -⟩ := h
      · decide
      · decide
      · simp [kTenantKey, kLmpSessionsOpen]; omega
    refine ⟨_, exec_keyListWrite_taken hr hp h ho, ?held, ?kept, ?frame⟩
    case held => rw [odB_answered, odB_keysReplaced _ sub p bytes hk]
    case kept =>
      exact odKept_answered (((odKept_entered s who key (.octets bytes)).mono (by simp +contextual)).trans
        ((odKept_keysReplaced _ sub p key bytes).mono (by simp +contextual))) key
    case frame => exact (Steps.andThen (F := [.od, .ctr, .book]) steps_entered.mono steps_keysReplaced).answered key
end

section
/-! O34: debug access (R438 to R441). -/

namespace Sys2Proof.Machine

-- Checked one after another: the check allows too few threads for more.
set_option Elab.async false

theorem Steps.chans_eq {F : List Field} {s t : State} (h : Steps F s t) (n : F.contains .chans = false := by rfl) : t.chans = s.chans := by
  have e := congrArg State.chans h.frame
  rwa [State.merge, n] at e

/-! ### The erase begins (R439) -/

theorem odKept_appendEntry (s : State) (i : BookInfo) : OdKept bookKeys s (appendEntry s i) := fun _ h => odVal_appendEntry s i h

theorem odKept_extendSlot (s : State) (slot : Nat) (d : List Byte) : OdKept [kMeasurementSlots, kMeasurementLog] s (extendSlot s slot d) := by
  unfold extendSlot
  dsimp only
  split
  · exact odKept_odPut _ _ (by simp)
  · exact (odKept_odPut _ _ (by simp)).trans (odKept_odPut _ _ (by simp))

theorem odKept_measureLife (s : State) : OdKept [kMeasurementSlots, kMeasurementLog] s (measureLife s) := by
  unfold measureLife measure
  exact odKept_extendSlot _ _ _

theorem odKept_dropCandidate (s : State) : OdKept [kFwCandidateState, kFwCandidateStatus, kFwCandidateVersion] s (dropCandidate s) :=
  .trans (t := { s with boot := (dropCandidate s).boot }) (odKept_of_od rfl)
    (((odKept_odSet _ 0 (by simp)).trans (odKept_odSet _ 0 (by simp))).trans (odKept_odSet _ 0 (by simp)))

/-- The channels gone, and the port's state at erasing. -/
def channelsGone (s : State) : State := odSet ((List.range 40).foldl countChannels { s with chans := [] }) kDebugState 1

theorem steps_channelsGone {s : State} : Steps [.chans, .od] s (channelsGone s) :=
  .andThen (.foldl with_chans.mono fun _ _ => steps_countChannels.mono) steps_odSet

theorem chans_channelsGone (s : State) : (channelsGone s).chans = [] :=
  (Steps.andThen (F := [.od]) (.foldl (s := { s with chans := [] }) .refl fun _ _ => steps_countChannels) steps_odSet).chans_eq

/-- The entry of the opening, the measurement and the candidate's end. -/
def debugNoted (s : State) (origin role : Nat) (fp : List Byte) : State :=
  dropCandidate (measureLife (appendEntry s ⟨4, origin, role, 0xFF, 0, 0, 0, 0, 0, fp, zeros 32⟩))

theorem steps_debugNoted {s : State} {origin role : Nat} {fp : List Byte} : Steps [.od, .ctr, .book, .boot] s (debugNoted s origin role fp) :=
  .andThen (.andThen steps_appendEntry.mono steps_measureLife) steps_dropCandidate

theorem odN_debugNoted (s : State) (origin role : Nat) (fp : List Byte) : odN (debugNoted s origin role fp) kDebugState = odN s kDebugState := by
  rw [debugNoted, (odKept_dropCandidate _).odN_eq (by decide), (odKept_measureLife _).odN_eq (by decide),
    (odKept_appendEntry s _).odN_eq (by decide)]

theorem debugBegin_eq (s : State) (origin role : Nat) (fp : List Byte) :
    debugBegin s origin role fp = { debugNoted (channelsGone s) origin role fp with
      sec := { (debugNoted (channelsGone s) origin role fp).sec with
        keys := [], identity := zeros 32, deviceKem := zeros 32, bookKey := zeros 32, release := true, tapOpen := false } } := by
  unfold debugBegin debugNoted channelsGone
  rfl

theorem debugBegin_erases (s : State) (origin role : Nat) (fp : List Byte) : odN (debugBegin s origin role fp) kDebugState = 1 ∧
    (debugBegin s origin role fp).sec.keys = [] ∧ (debugBegin s origin role fp).sec.release = true ∧ (debugBegin s origin role fp).chans = [] := by
  have state : odN (debugNoted (channelsGone s) origin role fp) kDebugState = 1 := by
    rw [odN_debugNoted, channelsGone, odN_odSet_same]
  have chans : (debugNoted (channelsGone s) origin role fp).chans = [] :=
    steps_debugNoted.chans_eq.trans (chans_channelsGone s)
  rw [debugBegin_eq]
  generalize debugNoted (channelsGone s) origin role fp = t at state chans ⊢
  exact ⟨state, rfl, rfl, chans⟩

theorem exec_debugOpen_taken {who : Who} {s : State} (hr : who.role = .service) (hc : odN s kDebugConsent ≠ 0)
    (ho : writeOpen s kDebugOpen (.num 1) = true) (hs : odN s kDebugState ≠ 1) : exec (.debugOpen who 1) s =
      .next (answered (debugBegin (entered s who kDebugOpen (.num 1)) who.origin 3 who.keyFp) kDebugOpen) := by
  have he : odN (entered s who kDebugOpen (.num 1)) kDebugState ≠ 1 := by rwa [odN_entered s who _ _ (by decide)]
  show execDebugOpen who 1 s = _
  rw [execDebugOpen, decide_eq_true (by decide), guardWf_true, dictWrite_taken ho, if_neg he]
  rw [if_neg (by simp [hr, hc]), if_neg (by simp)]

theorem exec_tapUnlock_good {s : State} (ht : s.sec.tap = 4) (hs : odN s kDebugState ≠ 1) :
    exec (.tapUnlock true) s = .next (debugBegin s 2 0xFF []) := by
  show execTapUnlock true s = _
  rw [execTapUnlock, if_neg (by simp [ht]), if_pos rfl, if_neg hs]

/-- A failed unlock: a new challenge, and the count. -/
def unlockFailed (s : State) : State :=
  bump { (freshOctets s 18 32).1 with sec := { (freshOctets s 18 32).1.sec with tapChallenge := (freshOctets s 18 32).2 } } kDebugUnlockFailures 1 none

theorem exec_tapUnlock_bad {s : State} (ht : s.sec.tap = 4) : exec (.tapUnlock false) s = .next (unlockFailed s) := by
  show execTapUnlock false s = _
  rw [execTapUnlock, if_neg (by simp [ht]), if_neg Bool.false_ne_true]; rfl

/-! ### The port's instructions (R438) -/

theorem exec_tapInstructionLoad_taken {l : TapInstr} {s : State} (h1 : l = .extest → s.link.resetLow = true)
    (h2 : l = .privateInstr → s.sec.tapOpen = true) : exec (.tapInstructionLoad l) s = .next { s with
      sec := { s.sec with tap := tapCode l }, out := if l = .unlock then .tap s.sec.tapChallenge :: s.out else s.out } := by
  show execTapInstructionLoad l s = _
  unfold execTapInstructionLoad
  cases l with
  | extest => dsimp only; rw [if_pos (h1 rfl)]; rfl
  | privateInstr => dsimp only; rw [if_pos (h2 rfl)]; rfl
  | bypass => rfl
  | idcode => rfl
  | samplePreload => rfl
  | unlock => rfl

theorem exec_tapInstructionLoad_refused {s : State} (h : s.sec.tapOpen = false) :
    exec (.tapInstructionLoad .privateInstr) s = .next (bump { s with sec := { s.sec with tap := 0 } } kTapRefused 1 none) := by
  show execTapInstructionLoad .privateInstr s = _
  unfold execTapInstructionLoad
  dsimp only
  rw [h, if_neg Bool.false_ne_true]

/-! ### The release (R440) -/

/-- The near tier's stacks that hold has in self-refresh, back on. -/
def stacksWoken (s : State) : State :=
  (if holding s then ((List.range 16).map (· + 0x40)).filter fun d => domState s d = 1 else []).foldl (fun s d => setDom s d 0) s

/-- Every partition that is granted leaves. -/
def allReleased (s : State) : State :=
  ((s.parts.filter fun x => x.2.grant ≠ none).map (·.1)).foldl (fun s p => swap (forceRelease s p) p) s

theorem exec_debugEraseRelease_taken {s : State} (h : s.sec.release = true) : exec .debugEraseRelease s =
    .next { stacksWoken (allReleased s) with
      sec := { (stacksWoken (allReleased s)).sec with release := false }
      link := { (stacksWoken (allReleased s)).link with recordGone :=
        (stacksWoken (allReleased s)).link.recordGone || holding (stacksWoken (allReleased s)) } } := by
  show execDebugEraseRelease s = _
  unfold execDebugEraseRelease
  rw [if_neg (by rw [h]; exact Bool.false_ne_true)]; rfl

theorem allReleased_free {s : State} (h : ∀ x ∈ s.parts, x.2.grant = none) : allReleased s = s := by
  have : (s.parts.filter fun x => x.2.grant ≠ none) = [] := List.filter_eq_nil_iff.mpr fun x hx => by simp [h x hx]
  rw [allReleased, this]; rfl

theorem steps_stacksWoken {s : State} : Steps [.od] s (stacksWoken s) := .foldl .refl fun _ _ => steps_setDom

theorem stackList_nodup : ((List.range 16).map (· + 0x40)).Nodup := by decide

theorem domState_stacksWoken (s : State) {d : Nat} (h1 : 0x40 ≤ d) (h2 : d < 0x50) :
    domState (stacksWoken s) d = if holding s = true ∧ domState s d = 1 then 0 else domState s d := by
  have hm : d ∈ (List.range 16).map (· + 0x40) := List.mem_map.mpr ⟨d - 0x40, by simp; omega, by omega⟩
  unfold stacksWoken
  split
  · next hh =>
    rw [domState_foldl_setDom _ (stackList_nodup.filter _)]
    simp only [List.mem_filter, hm, true_and, decide_eq_true_eq, hh]
  · next hh => rw [if_neg fun c => hh c.1]; rfl

theorem odKept_stacksWoken (s : State) : OdKept ((List.range 16).map fun d => kDomainState (d + 0x41)) s (stacksWoken s) := by
  refine (odKept_foldl (fun s d => odKept_setDom s d 0) _ s).mono fun k hk => ?_
  obtain ⟨d, hd, rfl⟩ := List.mem_map.mp hk
  split at hd
  · obtain ⟨e, he, rfl⟩ := List.mem_map.mp (List.mem_of_mem_filter hd)
    exact List.mem_map.mpr ⟨e, he, rfl⟩
  · simp at hd

/-! ### The erase's end (R440) -/

/-- The state once memory, the consists and the depot are erased. -/
def allErased (s : State) : State :=
  let s := eraseMemory { s with consists := [], sems := [], casts := [] }
  ((s.depot.mapped.map fun b => b / 65536).eraseDups).foldl depotDiscard s

/-- Private instructions may be loaded. -/
def tapOpens (s : State) : State := { s with sec := { s.sec with tapOpen := true } }

/-- The erased module with its new keys and an open port. -/
def portOpened (s : State) : State := tapOpens (measureLife (odSet (newKeys (allErased s)) kDebugState 2))

/-- The partitions whose entries the erase ends are free. -/
def allSettled (s : State) (gone : List Nat) : State := gone.foldl settleFree (freeCounts s)

theorem exec_debugEraseEnd_done {s : State} (h1 : odN s kDebugState = 1) (h2 : s.sec.release = false)
    (h3 : ∀ x ∈ s.pools, x.2.flight = [] ∧ x.2.pending = []) :
    ∃ gone, exec .debugEraseEnd s = .next (allSettled (portOpened s) gone) := by
  refine ⟨(s.health.leaving.map fun l => l.part).eraseDups, ?_⟩
  have hp : (s.pools.any fun x => x.2.flight ≠ [] || x.2.pending ≠ []) = false := by
    rw [List.any_eq_false]
    intro x hx
    obtain ⟨hf, hp⟩ := h3 x hx
    rw [hf, hp]; decide
  show execDebugEraseEnd s = _
  unfold execDebugEraseEnd
  rw [h1, h2, hp, if_neg (by decide)]
  extract_lets gone erased cleared measured src opened
  have hc : cleared = allErased s := rfl
  have hm : measured = measureLife (odSet (newKeys (allErased s)) kDebugState 2) := by rw [← hc]
  have hp : opened = portOpened s := by unfold portOpened; rw [← hm]; rfl
  rw [hp]; rfl

theorem allErased_empty (s : State) : (allErased s).mem.cells = [] ∧ (allErased s).consists = [] ∧ (allErased s).sems = [] := by
  have h : Steps [.depot] (eraseMemory { s with consists := [], sems := [], casts := [] }) (allErased s) :=
    .foldl .refl fun _ _ => steps_depotDiscard
  exact ⟨congrArg MemSt.cells h.mem_eq, h.consists_eq, h.sems_eq⟩

theorem steps_portOpened {s : State} : Steps [.free, .od, .sec] (allErased s) (portOpened s) :=
  .andThen (.andThen (.andThen steps_newKeys.mono steps_odSet) steps_measureLife) with_sec

theorem odN_portOpened (s : State) : odN (portOpened s) kDebugState = 2 := by
  unfold portOpened
  generalize newKeys (allErased s) = t
  have h : odN (measureLife (odSet t kDebugState 2)) kDebugState = 2 := by
    rw [(odKept_measureLife _).odN_eq (by decide), odN_odSet_same]
  generalize measureLife (odSet t kDebugState 2) = u at h ⊢
  exact h

theorem steps_allSettled {s : State} {gone : List Nat} : Steps [.od] s (allSettled s gone) :=
  .foldl steps_freeCounts fun _ _ => steps_settleFree

theorem odVal_odClearIndex (s : State) {index k : Nat} (h : k / 256 ≠ index) : odVal (odClearIndex s index) k = odVal s k := by
  have hf : (s.od.filter (·.1 / 256 ≠ index)).find? (·.1 = k) = s.od.find? (·.1 = k) := by
    rw [List.find?_filter]
    congr 1
    funext c
    by_cases e : c.1 = k
    · simp [e, h]
    · simp [e]
  unfold odVal odClearIndex
  rw [hf]

theorem odN_settleFree (s : State) (p : Nat) : odN (settleFree s p) kDebugState = odN s kDebugState := by
  unfold settleFree
  split
  · next h =>
    have : kDebugState / 256 ≠ 0x6100 + p := by unfold kDebugState; omega
    simp only [odN, odVal_odClearIndex s this]
  · rfl

theorem odN_allSettled (s : State) (gone : List Nat) : odN (allSettled s gone) kDebugState = odN s kDebugState := by
  unfold allSettled
  rw [← odN_freeCounts (s := s) (k := kDebugState) (by decide)]
  generalize freeCounts s = t
  induction gone generalizing t with
  | nil => rfl
  | cons p r ih => rw [List.foldl_cons, ih, odN_settleFree]

end Sys2Proof.Machine

open Sys2Proof Sys2Proof.Machine

/-- Settles O34: the erase takes every key, and its end opens the port of an empty module. -/
theorem debugOpensByErasing : Obligations.DebugOpensByErasing := by
  refine ⟨?opened, ?unlock, ?failed, ?load, ?refused, ?release, ?ends⟩
  case opened =>
    intro who s hr hc ho hs
    have mem : (entered s who kDebugOpen (.num 1)).mem = s.mem := steps_entered.mem_eq
    refine ⟨_, exec_debugOpen_taken hr hc ho hs, ?_⟩
    generalize entered s who kDebugOpen (.num 1) = t at mem ⊢
    obtain ⟨state, keys, release, chans⟩ := debugBegin_erases t who.origin 3 who.keyFp
    have hm : (debugBegin t who.origin 3 who.keyFp).mem = s.mem := steps_debugBegin.mem_eq.trans mem
    generalize debugBegin t who.origin 3 who.keyFp = u at *
    exact ⟨state, keys, release, chans, hm⟩
  case unlock =>
    intro s ht hs
    exact ⟨_, exec_tapUnlock_good ht hs, debugBegin_erases s 2 0xFF []⟩
  case failed =>
    intro s ht
    refine ⟨_, exec_tapUnlock_bad ht, counted_bump _ _ _, ?length, ?frame⟩
    case length =>
      rw [unlockFailed, bump_sec]
      simp [freshOctets]
    case frame =>
      have h := (steps_bump (s := { s with free := s.free + 1, sec := { s.sec with tapChallenge := (freshOctets s 18 32).2 } })
        (key := kDebugUnlockFailures) (n := 1) (part := none)).frame
      have hs : (unlockFailed s).sec = { s.sec with tapChallenge := (freshOctets s 18 32).2 } := bump_sec ..
      rw [hs]
      exact h
  case load => exact fun l s h1 h2 => ⟨_, exec_tapInstructionLoad_taken h1 h2, rfl⟩
  case refused =>
    intro s h
    exact ⟨_, exec_tapInstructionLoad_refused h, counted_bump _ _ _, steps_bump.frame⟩
  case release =>
    intro s h
    refine ⟨_, exec_debugEraseRelease_taken h, rfl, fun hg => ?_⟩
    rw [allReleased_free hg]
    have woken : Steps [.od] s (stacksWoken s) := steps_stacksWoken
    have hold : holding (stacksWoken s) = holding s := by
      unfold holding held
      rw [(odKept_stacksWoken s).odN_eq (by decide)]
    refine ⟨fun d h1 h2 => domState_stacksWoken s h1 h2, odKept_stacksWoken s, ?_⟩
    rw [hold]
    generalize stacksWoken s = t at woken ⊢
    rw [woken.frame]; rfl
  case ends =>
    intro s h1 h2 h3
    obtain ⟨gone, ht⟩ := exec_debugEraseEnd_done h1 h2 h3
    obtain ⟨mem, consists, sems⟩ := allErased_empty s
    refine ⟨_, ht, (odN_allSettled _ _).trans (odN_portOpened s), ?mem, ?consists, ?sems, ?tap⟩
    case mem => rw [steps_allSettled.mem_eq, steps_portOpened.mem_eq, mem]
    case consists => rw [steps_allSettled.consists_eq, steps_portOpened.consists_eq, consists]
    case sems => rw [steps_allSettled.sems_eq, steps_portOpened.sems_eq, sems]
    case tap => rw [steps_allSettled.sec_eq]; rfl
end

section
/-! O36 to O38: restarts, start-up, and firmware update (R448, R471 to R487, R536). -/

namespace Sys2Proof.Machine

-- Checked one after another: the check allows too few threads for more.
set_option Elab.async false

/-! ### A start-up begins (R471) -/

theorem settleWrites_out (s : State) : (settleWrites s).out = s.out := by rw [odOnly_settleWrites s]
theorem settleWrites_boot (s : State) : (settleWrites s).boot = s.boot := by rw [odOnly_settleWrites s]

/-- What a start-up empties, and what it keeps. -/
theorem beginStart_kept (s : State) (c : Nat) : (beginStart s c).mem.cells = [] ∧ (beginStart s c).consists = [] ∧ (beginStart s c).sems = [] ∧
    (beginStart s c).parts = [] ∧ (beginStart s c).ctr = [] ∧ (beginStart s c).depot.cells = s.depot.cells ∧ (beginStart s c).out = s.out := by
  refine ⟨rfl, rfl, rfl, rfl, rfl, ?_, ?_⟩
  · have h : (beginStart s c).depot.cells = (settleWrites s).depot.cells := rfl
    rw [h, settleWrites_depot]
  · exact settleWrites_out s

/-- The boot state that a start-up begins with. -/
theorem beginStart_boot (s : State) (c : Nat) : (beginStart s c).boot.flash = s.boot.flash ∧ (beginStart s c).boot.inRecovery = false := by
  refine ⟨?_, rfl⟩
  have h : (beginStart s c).boot.flash = (settleWrites s).boot.flash := rfl
  rw [h, settleWrites_boot]

theorem exec_moduleRestart_taken {who : Who} {s : State} (hr : who.role = .operator) (ho : writeOpen s kModuleRestart (.num 1) = true)
    (hh : odN s kHoldState = 0) (hp : anyPart s = false) : exec (.moduleRestart who) s =
      .next (answered (beginStart (entered s who kModuleRestart (.num 1)) 2) kModuleRestart) := by
  show execModuleRestart who s = _
  rw [execModuleRestart, dictWrite_taken ho]
  rw [restartCheck, opOnly_operator hr, hh, hp]; rfl

/-- Every granted partition released by force. -/
def partsForced (s : State) : State := ((s.parts.filter fun x => x.2.grant ≠ none).map fun x => x.1).foldl forceRelease s

theorem exec_moduleRestartForce_taken {who : Who} {s : State} (hr : who.role = .operator)
    (ho : writeOpen s kModuleRestart (.num 2) = true) : exec (.moduleRestartForce who) s =
      .next (answered (beginStart (partsForced (entered s who kModuleRestart (.num 2))) 2) kModuleRestart) := by
  show execModuleRestartForce who s = _
  rw [execModuleRestartForce, dictWrite_taken ho (opOnly_operator hr)]
  generalize entered s who kModuleRestart (.num 2) = t
  rfl

/-- The state after a write that was entered and that changed the boot state. -/
def bootWritten (s : State) (who : Who) (key : Nat) (v : OdVal) (b : BootSt) : State :=
  answered { entered s who key v with boot := b } key

theorem bootWritten_kept (s : State) (who : Who) (key : Nat) (v : OdVal) (b : BootSt) :
    (bootWritten s who key v b).boot = b ∧ OdKept bookKeys s (bootWritten s who key v b) ∧ bootWritten s who key v b = { s with
      od := (bootWritten s who key v b).od, ctr := (bootWritten s who key v b).ctr, book := (bootWritten s who key v b).book
      boot := (bootWritten s who key v b).boot, out := .written key 0 :: s.out } := by
  have h : Steps [.od, .ctr, .book] s (entered s who key v) := steps_entered
  have kept := odKept_entered s who key v
  unfold bootWritten
  generalize entered s who key v = t at h kept ⊢
  exact ⟨rfl, odKept_answered (kept.trans (odKept_of_od rfl)) key,
    (Steps.andThen (F := [.od, .ctr, .book, .boot]) h.mono with_boot).answered key⟩

theorem exec_ledgerClear_taken {who : Who} {s : State} (hr : who.role = .operator) (ho : writeOpen s kLedgerClear (.num 1) = true) :
    exec (.ledgerClear who 1) s = .next (bootWritten s who kLedgerClear (.num 1) { s.boot with clearLedger := true }) := by
  have hb : (entered s who kLedgerClear (.num 1)).boot = s.boot := steps_entered.boot_eq
  show execLedgerClear who 1 s = _
  rw [execLedgerClear, decide_eq_true (by decide), guardWf_true, dictWrite_taken ho (opOnly_operator hr), bootWritten, ← hb]

theorem exec_restoreDefaults_taken {who : Who} {s : State} (hr : who.role = .service) (ho : writeOpen s kRestoreDefaults (.num 1) = true) :
    exec (.restoreDefaults who 1) s = .next (bootWritten s who kRestoreDefaults (.num 1) { s.boot with restoreDefaults := true }) := by
  have hb : (entered s who kRestoreDefaults (.num 1)).boot = s.boot := steps_entered.boot_eq
  show execRestoreDefaults who 1 s = _
  rw [execRestoreDefaults, decide_eq_true (by decide), guardWf_true, dictWrite_taken ho (by simp [hr]), bootWritten, ← hb]

/-! ### The input's return over a write that waits (R448, R536) -/

/-- A module without input power, with a write that waits and that names the object of the input voltage. -/
def waitingVoltage : State := { State.reset with pow := { PowSt.reset with stopped := true }, hrtNext := [(kVinVoltage, some 7)] }

theorem exec_vinStart_waiting : exec (.vinStart 0x42200000 0) waitingVoltage =
    .next (beginStart { odSet (atTime waitingVoltage 0) kVinVoltage 0x42200000 with
      pow := { (odSet (atTime waitingVoltage 0) kVinVoltage 0x42200000).pow with stopped := false } } 1) := by
  have hv : isF32 0x42200000 = true := by decide +kernel
  have hl : f32Lt vinStart 0x42200000 = true := by decide +kernel
  show execVinStart 0x42200000 0 waitingVoltage = _
  rw [execVinStart, hv, guardWf_true]
  exact congrArg _ (if_pos ⟨rfl, hl⟩)

theorem odN_vinStart_waiting : odN (beginStart { odSet (atTime waitingVoltage 0) kVinVoltage 0x42200000 with
    pow := { (odSet (atTime waitingVoltage 0) kVinVoltage 0x42200000).pow with stopped := false } } 1) kVinVoltage = 7 := by
  decide +kernel

/-! ### Firmware (R482 to R487) -/

/-- The first chunk of a new candidate. -/
def chunkTaken (s : State) (bytes : List Byte) : State :=
  let s := dropCandidate s
  odSet { s with boot := { s.boot with
    candLength := leNat ((bytes.drop 4).take 4), candChunks := tset [] s.boot.candChunks 0 (bytes.drop 8) } } kFwCandidateState 1

theorem exec_fwChunk_first {who : Who} {bytes : List Byte} {s : State} (hr : who.role = .operator)
    (ho : writeOpen s kFwChunk (.octets bytes) = true) (hc : s.boot.committing = false) (h1 : 9 ≤ bytes.length) (h2 : bytes.length ≤ 32776)
    (h0 : leNat (bytes.take 4) = 0) (hl : bytes.length - 8 ≤ leNat ((bytes.drop 4).take 4)) : exec (.fwChunk who bytes) s =
      .next (answered (chunkTaken (entered s who kFwChunk (.octets bytes)) bytes) kFwChunk) := by
  show execFwChunk who bytes s = _
  rw [execFwChunk, dictWrite_taken ho]
  · generalize entered s who kFwChunk (.octets bytes) = t
    rw [h0]; rfl
  · rw [opOnly_operator hr, chunkCheck]
    rw [h0, hc, if_neg Bool.false_ne_true, if_neg (by omega), lowestStatus_ok_ok]

theorem odKept_chunkTaken (s : State) (bytes : List Byte) :
    OdKept [kFwCandidateState, kFwCandidateStatus, kFwCandidateVersion] s (chunkTaken s bytes) :=
  (odKept_dropCandidate s).trans (.trans (t := { dropCandidate s with boot := (chunkTaken s bytes).boot }) (odKept_of_od rfl)
    (odKept_odSet _ _ (by simp)))

theorem boot_chunkTaken (s : State) {bytes : List Byte} (h : 9 ≤ bytes.length) : (chunkTaken s bytes).boot = { s.boot with
    candLength := leNat ((bytes.drop 4).take 4), candChunks := [(0, bytes.drop 8)], candHeader := none, candDigest := [], candKey := [] } := by
  have hb : bytes.drop 8 ≠ [] := by
    intro e
    have := congrArg List.length e
    simp at this; omega
  have ht : tset [] ([] : Tab (List Byte)) 0 (bytes.drop 8) = [(0, bytes.drop 8)] := by rw [tset, if_neg hb]; rfl
  rw [← ht]; rfl

/-- A candidate that has passed its checks. -/
def candVerified (s : State) : State :=
  let t := odSet s kFwCandidateStatus 0
  let u : State := { t with boot := { t.boot with
    candHeader := some (parseFw (candBytes s)), candDigest := shake256 (candBytes s) 64, candKey := t.sec.firmwareKey } }
  odSet (odSet u kFwCandidateState 2) kFwCandidateVersion (parseFw (candBytes s)).version

theorem odN_with_boot (s : State) (b : BootSt) (k : Nat) : odN { s with boot := b } k = odN s k := rfl

theorem candBytes_congr {s t : State} (h : t.boot = s.boot) : candBytes t = candBytes s := by simp only [candBytes, h]
theorem candWhole_congr {s t : State} (h : t.boot = s.boot) : candWhole t = candWhole s := by simp only [candWhole, h]

theorem fwCheck_congr {s t : State} (h : odN t kFwMinSecurityVersion = odN s kFwMinSecurityVersion) (w : FwHeader) (a b : Bool) :
    fwCheck t w a b = fwCheck s w a b := by simp only [fwCheck, h]

theorem exec_fwVerify_good {who : Who} {k : Option (List Byte)} {s : State} (hr : who.role = .operator)
    (ho : writeOpen s kFwControl (.num 1) = true) (hc : s.boot.committing = false) (hk : fusedKey s.sec.firmwareKey k = true)
    (hf : fwCheck s (parseFw (candBytes s)) (candWhole s && (parseFw (candBytes s)).imageLength = s.boot.candLength) true = .ok) :
    exec (.fwVerify who k) s = .next (answered (candVerified (entered s who kFwControl (.num 1))) kFwControl) := by
  have sec : (entered s who kFwControl (.num 1)).sec = s.sec := steps_entered.sec_eq
  have boot : (entered s who kFwControl (.num 1)).boot = s.boot := steps_entered.boot_eq
  have level : odN (entered s who kFwControl (.num 1)) kFwMinSecurityVersion = odN s kFwMinSecurityVersion := odN_entered s who _ _ (by decide)
  show execFwVerify who k s = _
  rw [execFwVerify, dictWrite_taken ho]
  · generalize entered s who kFwControl (.num 1) = t at sec boot level ⊢
    rw [← candBytes_congr boot, ← candWhole_congr boot, ← boot, ← fwCheck_congr level] at hf
    rw [← sec] at hk
    dsimp only
    rw [hk, hf, if_pos rfl]; rfl
  · rw [opOnly_operator hr, hc]; rfl

theorem exec_fwCommit_taken {who : Who} {s : State} (hr : who.role = .operator) (ho : writeOpen s kFwControl (.num 2) = true)
    (hc : s.boot.committing = false) (h2 : odN s kFwCandidateState = 2) (hb : odN s kBootState ≠ 0) (hh : holding s = false) :
    exec (.fwCommit who) s = .next (answered (odSet { entered s who kFwControl (.num 2) with
      boot := { (entered s who kFwControl (.num 2)).boot with committing := true, commitRetry := false, flash := none } } kFwCandidateState 3) kFwControl) := by
  show execFwCommit who s = _
  rw [execFwCommit, dictWrite_taken ho]
  rw [opOnly_operator hr, if_neg (by simp [hc, h2, hb, hh])]

/-- The candidate in the flash. -/
def committed (s : State) : BootSt :=
  { s.boot with committing := false, flash := s.boot.candHeader, flashDigest := s.boot.candDigest, flashKey := s.boot.candKey }

/-- The state once a commit's read-back has matched. -/
def commitEnded (s : State) : State :=
  odPut (odSet (odSet { s with boot := committed s } kFwCandidateState 4) kFwCandidateStatus 0) kFwImageDigest (.octets (committed s).flashDigest)

theorem exec_fwCommitEnd_good {s : State} (h : s.boot.committing = true) :
    exec (.fwCommitEnd true) s = .next (bump (commitEnded s) kFwCommits 1 none) := by
  show execFwCommitEnd true s = _
  rw [execFwCommitEnd, h, if_neg (by decide), if_pos rfl]; rfl

theorem exec_fwActivate_taken {who : Who} {s : State} (hr : who.role = .operator) (ho : writeOpen s kFwControl (.num 3) = true)
    (hc : s.boot.committing = false) (h4 : odN s kFwCandidateState = 4) (hh : odN s kHoldState = 0) (hp : anyPart s = false) :
    exec (.fwActivate who) s = .next (answered (beginStart (entered s who kFwControl (.num 3)) 4) kFwControl) := by
  show execFwActivate who s = _
  rw [execFwActivate, dictWrite_taken ho]
  rw [restartCheck, opOnly_operator hr, hh, hp, hc, h4]; rfl

theorem exec_fwDrop_taken {who : Who} {s : State} (hr : who.role = .operator) (ho : writeOpen s kFwControl (.num 4) = true)
    (hc : s.boot.committing = false) : exec (.fwDrop who) s =
      .next (answered (dropCandidate (entered s who kFwControl (.num 4))) kFwControl) := by
  show execFwDrop who s = _
  rw [execFwDrop, dictWrite_taken ho]
  rw [opOnly_operator hr, hc]; rfl

/-- The image in the recovery buffer. -/
def recoveryImage (s : State) : List Byte := (List.range s.boot.recoveryLength).map fun i => tget 0 s.boot.recBuf i

/-- The flash with the recovery image in it. -/
def recovered (s : State) : State := { s with boot := { s.boot with
  flash := some (parseFw (recoveryImage s)), flashDigest := shake256 (recoveryImage s) 64, flashKey := s.sec.firmwareKey, inRecovery := false } }

theorem exec_recoveryCommand_good {k : Option (List Byte)} {s : State} (hi : s.boot.inRecovery = true) (hk : fusedKey s.sec.firmwareKey k = true)
    (hf : fwCheck s (parseFw (recoveryImage s)) ((parseFw (recoveryImage s)).imageLength = s.boot.recoveryLength) true = .ok) :
    exec (.recoveryCommand 1 k true) s = .next (bump (beginStart (recovered s) 6) kRecoveries 1 none) := by
  unfold recoveryImage at hf
  show execRecoveryCommand 1 k true s = _
  rw [execRecoveryCommand, decide_eq_true (by decide), guardWf_true, hi, if_neg (by decide)]
  dsimp only
  rw [hk, hf]; rfl

end Sys2Proof.Machine

open Sys2Proof Sys2Proof.Machine

/-- Settles O36: a restart begins a start-up; what waits for one is the boot state's. -/
theorem restartsBegin : Obligations.RestartsBegin := by
  refine ⟨?restart, ?forced, ?ledger, ?defaults⟩
  case restart =>
    intro who s hr ho hh hp
    have depot : (entered s who kModuleRestart (.num 1)).depot = s.depot := steps_entered.depot_eq
    have out := entered_out s who kModuleRestart (.num 1)
    refine ⟨_, exec_moduleRestart_taken hr ho hh hp, ?_⟩
    generalize entered s who kModuleRestart (.num 1) = t at depot out ⊢
    obtain ⟨hm, hc, hs, hp, -, hd, ho⟩ := beginStart_kept t 2
    refine ⟨odN_beginStart_bootState t 2, odN_beginStart_bootCause t 2, hm, hc, hs, hp, ?_, ?_⟩
    · exact hd.trans (congrArg DepotSt.cells depot)
    · exact congrArg _ (ho.trans out)
  case forced =>
    intro who s hr ho
    refine ⟨_, exec_moduleRestartForce_taken hr ho, ?_⟩
    generalize partsForced (entered s who kModuleRestart (.num 2)) = t
    obtain ⟨hm, hc, hs, hp, -⟩ := beginStart_kept t 2
    exact ⟨odN_beginStart_bootState t 2, odN_beginStart_bootCause t 2, hm, hc, hs, hp⟩
  case ledger => exact fun who s hr ho => ⟨_, exec_ledgerClear_taken hr ho, bootWritten_kept s who _ _ _⟩
  case defaults => exact fun who s hr ho => ⟨_, exec_restoreDefaults_taken hr ho, bootWritten_kept s who _ _ _⟩

/-- Refutes O37: nothing is asked of the writes that wait, and a start-up takes each of them for the value of the object that it names,
the input voltage's with them. -/
theorem not_startUpSteps : ¬ Obligations.StartUpSteps := by
  rintro ⟨-, -, -, -, h, -⟩
  obtain ⟨t, ht, -, -, -, hv, -⟩ := h 0x42200000 0 waitingVoltage (by decide +kernel) rfl (by decide +kernel)
  obtain rfl := Host.Outcome.next.inj (exec_vinStart_waiting.symm.trans ht)
  exact absurd (odN_vinStart_waiting.symm.trans hv) (by decide)

/-- Settles O38: the checks pass, and each step of an update has its own effect. -/
theorem firmwareMoves : Obligations.FirmwareMoves := by
  refine ⟨?chunk, ?verify, ?commit, ?ends, ?activate, ?drop, ?recovery⟩
  case chunk =>
    intro who bytes s hr ho hc h1 h2 h0 hl
    have boot : (entered s who kFwChunk (.octets bytes)).boot = s.boot := steps_entered.boot_eq
    have kept := odKept_entered s who kFwChunk (.octets bytes)
    refine ⟨_, exec_fwChunk_first hr ho hc h1 h2 h0 hl, ?_⟩
    generalize entered s who kFwChunk (.octets bytes) = t at boot kept ⊢
    refine ⟨?state, ?boot, odKept_answered ((kept.mono (by simp +contextual)).trans ((odKept_chunkTaken t bytes).mono (by simp +contextual))) _⟩
    case state => rw [odN_answered, chunkTaken, odN_odSet_same]
    case boot => rw [answered_boot, boot_chunkTaken t h1, boot]
  case verify =>
    intro who k s hr ho hc hk hf
    have sec : (entered s who kFwControl (.num 1)).sec = s.sec := steps_entered.sec_eq
    have boot : (entered s who kFwControl (.num 1)).boot = s.boot := steps_entered.boot_eq
    refine ⟨_, exec_fwVerify_good hr ho hc hk hf, ?_⟩
    generalize entered s who kFwControl (.num 1) = t at sec boot ⊢
    rw [← candBytes_congr boot, ← boot, ← sec]
    refine ⟨?state, ?status, ?version, rfl⟩
    case version => rw [odN_answered, candVerified, odN_odSet_same]
    case state => rw [odN_answered, candVerified, odN_odSet_ne _ _ (by decide), odN_odSet_same]
    case status =>
      rw [odN_answered, candVerified, odN_odSet_ne _ _ (by decide), odN_odSet_ne _ _ (by decide),
        odN_with_boot, odN_odSet_same]
  case commit =>
    intro who s hr ho hc h2 hb hh
    have boot : (entered s who kFwControl (.num 2)).boot = s.boot := steps_entered.boot_eq
    refine ⟨_, exec_fwCommit_taken hr ho hc h2 hb hh, ?_⟩
    generalize entered s who kFwControl (.num 2) = t at boot ⊢
    rw [← boot]
    exact ⟨by rw [odN_answered, odN_odSet_same], rfl⟩
  case ends =>
    intro s h
    refine ⟨_, exec_fwCommitEnd_good h, ?state, ?status, bump_boot .., (counted_bump _ _ none).after rfl⟩
    case state => rw [odN_bump, commitEnded, odN_odPut_ne _ _ (by decide), odN_odSet_ne _ _ (by decide), odN_odSet_same]
    case status => rw [odN_bump, commitEnded, odN_odPut_ne _ _ (by decide), odN_odSet_same]
  case activate =>
    intro who s hr ho hc h4 hh hp
    have boot : (entered s who kFwControl (.num 3)).boot = s.boot := steps_entered.boot_eq
    refine ⟨_, exec_fwActivate_taken hr ho hc h4 hh hp, ?_⟩
    generalize entered s who kFwControl (.num 3) = t at boot ⊢
    rw [← boot]
    exact ⟨odN_beginStart_bootCause t 4, odN_beginStart_bootState t 4, (beginStart_boot t 4).1, rfl⟩
  case drop =>
    intro who s hr ho hc
    have boot : (entered s who kFwControl (.num 4)).boot = s.boot := steps_entered.boot_eq
    refine ⟨_, exec_fwDrop_taken hr ho hc, ?_⟩
    generalize entered s who kFwControl (.num 4) = t at boot ⊢
    rw [← boot]
    refine ⟨?state, ?status, ?version, rfl⟩
    case version => rw [odN_answered, dropCandidate, odN_odSet_same]
    case state => rw [odN_answered, dropCandidate, odN_odSet_ne _ _ (by decide), odN_odSet_ne _ _ (by decide), odN_odSet_same]
    case status => rw [odN_answered, dropCandidate, odN_odSet_ne _ _ (by decide), odN_odSet_same]
  case recovery =>
    intro k s hi hk hf
    refine ⟨_, exec_recoveryCommand_good hi hk hf, ?recovery, ?cause, ?state, ?flash, ?count⟩
    case recovery => rw [bump_boot]; exact (beginStart_boot (recovered s) 6).2
    case cause => rw [odN_bump, odN_beginStart_bootCause]
    case state => rw [odN_bump, odN_beginStart_bootState]
    case flash => rw [bump_boot]; exact (beginStart_boot (recovered s) 6).1
    case count => exact (counted_bump _ _ none).after (ctrGet_congr (s := State.reset) (beginStart_kept (recovered s) 6).2.2.2.2.1 _ _)
end

section
/-! O41: the register book's checkpoints, their signatures, the mark of what is exported, and settings that come into force (R464, R466, R469). -/

namespace Sys2Proof.Machine

-- Checked one after another: the check allows too few threads for more.
set_option Elab.async false

/-! ### Checkpoints (R464) -/

/-- The entry of a checkpoint that the state makes next. -/
def checkpointInfo (s : State) : BookInfo :=
  ⟨2, 3, 0xFF, 0xFF, 0, 0, 0, s.book.since, s.book.lastCheckpoint.getD (2 ^ 64 - 1), fingerprint (odB s kBookPublicKey),
    shake256 (fit 1024 (odB s kMeasurementSlots)) 32⟩

/-- The state after the entry and its count. -/
def checkpointEntered (s : State) : State := bump (appendEntry s (checkpointInfo s)) kBookCheckpoints 1 none

theorem appendCheckpoint_eq (s : State) : appendCheckpoint s = { checkpointEntered s with
    book := { (checkpointEntered s).book with since := 0, lastCheckpoint := some (nextSerial s), lastTime := s.now,
                                              unsigned := (checkpointEntered s).book.unsigned ++ [nextSerial s] } } := by
  unfold appendCheckpoint checkpointEntered checkpointInfo
  cases s.book.lastCheckpoint <;> rfl

theorem steps_checkpointEntered {s : State} : Steps [.od, .ctr, .book] s (checkpointEntered s) :=
  .andThen steps_appendEntry.mono steps_bump

theorem odKept_checkpointEntered (s : State) : OdKept bookKeys s (checkpointEntered s) :=
  (odKept_appendEntry s _).trans (odKept_bump _ _ _ _ _)

theorem odN_checkpointEntered_headSerial (s : State) : odN (checkpointEntered s) kBookHeadSerial = nextSerial s := by
  rw [checkpointEntered, odN_congr (bump_od _ _ _ _), odN_appendEntry_headSerial]

theorem unsigned_checkpointEntered (s : State) : (checkpointEntered s).book.unsigned = s.book.unsigned := by
  rw [checkpointEntered, bump_book]
  unfold appendEntry
  dsimp only
  split <;> simp

theorem counted_checkpointEntered (s : State) : Counted s (checkpointEntered s) kBookCheckpoints 1 :=
  .after ((ctrKept_appendEntry s _).operator (by decide)) (counted_bump _ _ _)

theorem exec_bookCheckpoint_due {u : Nat} {s : State} (hu : dictUp s = true) (hd : odN s kBookCheckpointInterval ≤ s.book.since) :
    exec (.bookCheckpoint u) s = .next (appendCheckpoint (atTime s u)) := by
  show execBookCheckpoint u s = _
  have due : decide (odN (atTime s u) kBookCheckpointInterval ≤ s.book.since) = true := decide_eq_true hd
  have up : dictUp (atTime s u) = true := hu
  simp only [execBookCheckpoint, up]
  rw [show (atTime s u).book.since = s.book.since from rfl, due]
  rfl

/-! ### Signatures (R464) -/

/-- A lookup by key passes over the entries that a filter on the keys takes away. -/
theorem tget_filter {α : Type} (d : α) (good : Nat → Bool) (l : Tab α) (k : Nat) (h : good k = true) :
    tget d (l.filter fun x => good x.1) k = tget d l k := by
  induction l with
  | nil => rfl
  | cons x l ih =>
    obtain ⟨i, v⟩ := x
    by_cases hi : i = k
    · subst hi; simp [tget, h]
    · by_cases hg : good i = true <;> simp [tget, hg, hi, ih]

theorem sign_eq (s : State) (key ctx msg : List Byte) :
    sign s key ctx msg = ({ s with free := s.free + 1 }, (List.range 3309).map (Config.signature key ctx msg s.free)) := by rw [sign]

/-- The signatures after checkpoint n took its own. -/
def sigsWith (s : State) (n : Nat) : Tab (List Byte) :=
  (tins s.book.sigs n (sign s s.sec.bookKey ctxBook (entryAt s n)).2).filter fun x => odN s kBookOldestSerial ≤ x.1

theorem tget_sigsWith {s : State} {n : Nat} (h : odN s kBookOldestSerial ≤ n) :
    tget [] (sigsWith s n) n = (sign s s.sec.bookKey ctxBook (entryAt s n)).2 := by
  rw [sigsWith, tget_filter [] (fun k => odN s kBookOldestSerial ≤ k) _ _ (decide_eq_true h), tget_tins_same]

theorem tget_sigsWith_eq {s : State} {n : Nat} (h : odN s kBookOldestSerial ≤ n) :
    tget [] (sigsWith s n) n = (List.range 3309).map (Config.signature s.sec.bookKey ctxBook (entryAt s n) s.free) := by
  rw [tget_sigsWith h, sign_eq]

theorem exec_bookCheckpointSign_next {n : Nat} {rest : List Nat} {s : State} (h : s.book.unsigned = n :: rest) :
    exec .bookCheckpointSign s =
      .next { s with free := s.free + 1, book := { s.book with unsigned := rest, sigs := sigsWith s n } } := by
  show execBookCheckpointSign s = _
  have same : odN { s with free := s.free + 1 } kBookOldestSerial = odN s kBookOldestSerial := rfl
  simp only [execBookCheckpointSign, h, sigsWith, sign_eq, same]

/-! ### The mark of what is exported (R466) -/

/-- The state after the mark of what is exported has risen. -/
def markRaised (s : State) (who : Who) (v : Nat) : State :=
  answered (odSet (enteredAs s who kBookExportMark (.num v) .ok) kBookExportMark v) kBookExportMark

theorem exec_bookExportMarkWrite_taken {who : Who} {v : Nat} {s : State} (hr : who.role = .operator) (hu : dictUp s = true)
    (hs : starting s = false) (hv : v < 2 ^ 64) (hm : odN s kBookExportMark ≤ v) (ht : typeOk (keyTy kBookExportMark) (.num v) = true) :
    exec (.bookExportMarkWrite who v) s = .next (markRaised s who v) := by
  show execBookExportMarkWrite who v s = _
  have hc : opOnly who (if v < odN s kBookExportMark then .malformed else .ok) = .ok := by
    rw [opOnly_operator hr, if_neg (Nat.not_lt.mpr hm)]
  have hst : writeStatus s kBookExportMark (.num v) (fun s => opOnly who (if v < odN s kBookExportMark then .malformed else .ok)) = .ok := by
    simp [writeStatus, hs, hc, ht]
  rw [execBookExportMarkWrite, decide_eq_true hv, guardWf_true, dictWrite_entered hu (by simp) hst]
  rfl

theorem markRaised_kept (s : State) (who : Who) (v : Nat) : odN (markRaised s who v) kBookExportMark = v ∧
    OdKept (kBookExportMark :: bookKeys) s (markRaised s who v) ∧
    markRaised s who v = { s with
      od := (markRaised s who v).od, ctr := (markRaised s who v).ctr, book := (markRaised s who v).book
      out := .written kBookExportMark 0 :: s.out } := by
  have h : Steps [.od, .ctr, .book] s (enteredAs s who kBookExportMark (.num v) .ok) := steps_appendEntry
  have kept := (odKept_enteredAs s who kBookExportMark (.num v) .ok).mono (m := kBookExportMark :: bookKeys) fun _ hk => .tail _ hk
  unfold markRaised
  generalize enteredAs s who kBookExportMark (.num v) .ok = t at h kept ⊢
  refine ⟨?_, odKept_answered (kept.trans (odKept_odSet _ v (by simp))) _, (h.andThen steps_odSet).answered _⟩
  rw [odN_answered, odN_odSet_same]

/-! ### Settings (R469) -/

theorem exec_mgmtSettingsApply_due {u d key : Nat} {v : OdVal} {s : State} (h : s.book.settings = [(d, key, v)]) (hd : d ≤ max s.now u) :
    exec (.mgmtSettingsApply u) s = .next (odPut { atTime s u with book := { s.book with settings := [] } } key v) := by
  have due : s.book.settings.filter (fun x => decide (x.1 ≤ max s.now u)) = [(d, key, v)] := by simp [h, le_max_iff.mp hd]
  have late : s.book.settings.filter (fun x => decide (max s.now u < x.1)) = [] := by rw [h]; simpa [-sup_lt_iff] using hd
  show Host.Outcome.next ((s.book.settings.filter fun x => decide (x.1 ≤ max s.now u)).foldl (fun s x => odPut s x.2.1 x.2.2)
    { atTime s u with book := { s.book with settings := s.book.settings.filter fun x => decide (max s.now u < x.1) } }) = _
  rw [due, late]
  rfl

end Sys2Proof.Machine

open Sys2Proof Sys2Proof.Machine

/-- Settles O41: each command's result is written out once, and the state is read off it. -/
theorem bookKeepsItself : Obligations.BookKeepsItself := by
  unfold Obligations.BookKeepsItself
  refine ⟨?checkpoint, ?sign, ?mark, ?setting⟩
  case checkpoint =>
    intro u s hu hd
    refine ⟨_, exec_bookCheckpoint_due hu hd, ?_⟩
    have h := steps_checkpointEntered (s := atTime s u)
    have kept : OdKept bookKeys s (checkpointEntered (atTime s u)) := odKept_checkpointEntered (atTime s u)
    have head : odN (checkpointEntered (atTime s u)) kBookHeadSerial = nextSerial s := odN_checkpointEntered_headSerial (atTime s u)
    have unsigned : (checkpointEntered (atTime s u)).book.unsigned = s.book.unsigned := unsigned_checkpointEntered (atTime s u)
    have counted : Counted s (checkpointEntered (atTime s u)) kBookCheckpoints 1 := counted_checkpointEntered (atTime s u)
    rw [appendCheckpoint_eq]
    generalize checkpointEntered (atTime s u) = t at h kept head unsigned counted ⊢
    refine ⟨rfl, rfl, congrArg (· ++ [nextSerial s]) unsigned, rfl, head, kept, counted, ?_⟩
    exact congrArg (fun x : State => { x with book := { t.book with
      since := 0, lastCheckpoint := some (nextSerial s), lastTime := max s.now u, unsigned := t.book.unsigned ++ [nextSerial s] } }) h.frame
  case sign =>
    intro n rest s h ho
    refine ⟨_, exec_bookCheckpointSign_next h, rfl, ?_, tget_sigsWith_eq ho, rfl⟩
    exact (congrArg List.length (tget_sigsWith ho)).trans (sig_length _ _ _ _)
  case mark =>
    intro who v s hr hu hs hv hm ht
    exact ⟨_, exec_bookExportMarkWrite_taken hr hu hs hv hm ht, markRaised_kept s who v⟩
  case setting =>
    intro u d key v s h hd
    exact ⟨_, exec_mgmtSettingsApply_due h hd, odVal_odPut_same _ _ _, rfl, odKept_odPut _ v (by simp), rfl⟩

end

section
/-! O40: sessions of the management protocol open, prove themselves and end (R454, R455, R458 to R461). -/

namespace Sys2Proof.Machine

-- Checked one after another: the check allows too few threads for more.
set_option Elab.async false

/-! ### Sessions (R459) -/

theorem session?_congr {s t : State} (h : t.book.sessions = s.book.sessions) (k : Nat) : session? t k = session? s k := by
  simp only [session?, h]

@[simp] theorem session?_putSession_same (s : State) (k : Nat) (v : Session) : session? (putSession s k v) k = some v := by
  have gone : (s.book.sessions.filter fun x => x.1 ≠ k).find? (fun x => x.1 = k) = none := by simp
  simp only [session?, putSession, List.find?_append, gone]
  simp

theorem session?_filter_ne (l : Tab Session) {j k : Nat} (h : j ≠ k) :
    (l.filter fun x => x.1 ≠ k).find? (fun x => x.1 = j) = l.find? fun x => x.1 = j := by
  rw [List.find?_filter]
  congr 1
  funext x
  by_cases hx : x.1 = j <;> simp [hx, h]

theorem session?_putSession_ne (s : State) (v : Session) {j k : Nat} (h : j ≠ k) : session? (putSession s k v) j = session? s j := by
  have new : ([(k, v)] : Tab Session).find? (fun x => x.1 = j) = none := by simp [Ne.symm h]
  simp only [session?, putSession, List.find?_append, session?_filter_ne _ h, new, Option.or_none]

@[simp] theorem sessions_countSessions (s : State) : (countSessions s).book.sessions = s.book.sessions := by
  show s.book.sessions.filter (fun _ => true) = _
  simp

@[simp] theorem session?_countSessions (s : State) (k : Nat) : session? (countSessions s) k = session? s k :=
  session?_congr (sessions_countSessions s) k

theorem sessions_dropSession (s : State) (k : Nat) : (dropSession s k).book.sessions = s.book.sessions.filter fun x => x.1 ≠ k :=
  sessions_countSessions _

@[simp] theorem session?_dropSession_same (s : State) (k : Nat) : session? (dropSession s k) k = none := by
  rw [session?, sessions_dropSession]; simp

theorem session?_dropSession_ne (s : State) {j k : Nat} (h : j ≠ k) : session? (dropSession s k) j = session? s j := by
  rw [session?, sessions_dropSession, session?_filter_ne _ h, session?]

/-- The end of one session, as the statements speak of it. -/
theorem dropSession_kept (s : State) (k : Nat) : session? (dropSession s k) k = none ∧
    (∀ j, j ≠ k → session? (dropSession s k) j = session? s j) ∧ (dropSession s k).mem = s.mem :=
  ⟨session?_dropSession_same s k, fun _ h => session?_dropSession_ne s h, steps_dropSession.mem_eq⟩

theorem odKept_closeSessions (s : State) (gone : Session → Bool) : OdKept [kLmpSessionsOpen] s (closeSessions s gone) :=
  .trans (t := { s with book := (closeSessions s gone).book }) (odKept_of_od rfl) (odKept_odSet _ _ (by simp))

theorem odKept_dropSession (s : State) (k : Nat) : OdKept [kLmpSessionsOpen] s (dropSession s k) :=
  .trans (t := { s with book := { s.book with sessions := s.book.sessions.filter fun x => x.1 ≠ k } }) (odKept_of_od rfl)
    (odKept_closeSessions _ _)

/-! ### Responses (R458, R460) -/

theorem sendMgmt_out (s : State) (k q st : Nat) (f : List Byte) (tag : Nat) : (sendMgmt s k q st f tag).out = .answer k q st f :: s.out := by
  simp [sendMgmt, emit]

theorem sendMgmt_book (s : State) (k q st : Nat) (f : List Byte) (tag : Nat) : (sendMgmt s k q st f tag).book = s.book := by
  simp [sendMgmt, emit]

@[simp] theorem session?_sendMgmt (s : State) (k q st : Nat) (f : List Byte) (tag j : Nat) :
    session? (sendMgmt s k q st f tag) j = session? s j := session?_congr (by rw [sendMgmt_book]) j

/-- A response on the management port is counted at that port alone (R347). -/
theorem ctrGet_sendMgmt (s : State) (k q st : Nat) (f : List Byte) (tag : Nat) {key v : Nat} (hv : v < 64) (h1 : key ≠ kTxFrames 8)
    (h2 : key ≠ kTxBytes 8) : ctrGet (sendMgmt s k q st f tag) key v = ctrGet s key v := by
  rw [sendMgmt]
  exact (ctrGet_bump_ne _ _ _ none h2 hv (by simp)).trans (ctrGet_bump_ne _ _ _ none h1 hv (by simp))

theorem lmpOctets_value (op index sub q session seq : Nat) (a : LmpAns) : (lmpOctets op index sub q session seq a).drop 32 = a.value := by
  rw [lmpOctets, List.drop_left' (leBytes_length _ _)]

theorem lmpOctets_header (op index sub q session seq : Nat) (a : LmpAns) : 32 ≤ (lmpOctets op index sub q session seq a).length := by
  rw [lmpOctets, List.length_append, leBytes_length]; omega

/-- The frame number goes into the header: the value behind it stays. -/
theorem drop_patch_header {f : List Byte} (h : 32 ≤ f.length) (n : Nat) : (patch f 12 (leBytes 4 n)).drop 32 = f.drop 32 := by
  have front : (f.take 12 ++ leBytes 4 n).length = 16 := by simp [leBytes_length]; omega
  rw [patch, leBytes_length, List.drop_append, front, List.drop_eq_nil_of_le (by omega), List.nil_append, List.drop_drop]

/-- A frame that leaves carries the value of the frame it was made from. -/
theorem sendFrame_answers (s : State) (k q st : Nat) {f : List Byte} (h : 32 ≤ f.length) :
    ∃ c f', Out.answer c q st f' ∈ (sendFrame s k q st f).out ∧ f'.drop 32 = f.drop 32 := by
  unfold sendFrame
  split
  · exact ⟨0, f, .head _, rfl⟩
  · split
    next v _ =>
      refine ⟨k, patch f 12 (leBytes 4 (v.txSeq + 1)), ?_, drop_patch_header h _⟩
      have sent (x : State) : Out.answer k q st (patch f 12 (leBytes 4 (v.txSeq + 1))) ∈
          (sendMgmt x k q st (patch f 12 (leBytes 4 (v.txSeq + 1))) 16).out := by rw [sendMgmt_out]; exact .head _
      dsimp only
      split
      · rw [steps_dropSession.out_eq]; exact sent _
      · exact sent _
    next => exact ⟨k, f, by rw [sendMgmt_out]; exact .head _, rfl⟩

/-! ### Requests that are carried out (R456 to R461) -/

/-- What follows a request's work: the response is kept and sent, and the last number of a direction, or a write of the addresses,
ends sessions. -/
def responded (op : Nat) (r : LmpReq) (closes : Bool) (k : Nat) (s : State) (a : LmpAns) : State :=
  let frame := lmpOctets op r.index r.sub r.requestId r.session 0 a
  let s := sendFrame (keepAnswer s k r.requestId (stCode a.status) frame) k r.requestId (stCode a.status) frame
  let s := if r.session ≠ 0 ∧ r.frameSeq = 2 ^ 32 - 1 then dropSession s k else s
  if closes ∧ a.status = .ok then closeSessions s fun _ => true else s

theorem serve_ok {op : Nat} {r : LmpReq} {closes : Bool} {work : LmpWork} {s s1 x : State} {k : Nat} {v : Session} {a : LmpAns}
    (hg : gate (atTime s r.t) r = (s1, some (k, v))) (hn : v.answers.find? (fun x => x.1 = r.requestId) = none) (hf : reqForm r = true)
    (hw : work (bump s1 kLmpRequests 1 none) (whoOf k v) k = (x, a)) (ha : a.status = .ok) :
    serve op r closes work s = responded op r closes k x a := by
  simp only [serve, hg, hn, hf, hw, if_true, responded, ha]
  rfl

theorem steps_responded {op : Nat} {r : LmpReq} {closes : Bool} {k : Nat} {s : State} {a : LmpAns} :
    Steps [.od, .ctr, .link, .book, .out] s (responded op r closes k s a) := by
  unfold responded
  exact .ite (.andThen (.ite (.andThen (.andThen steps_keepAnswer.mono steps_sendFrame) steps_dropSession)
    (.andThen steps_keepAnswer.mono steps_sendFrame)) steps_closeSessions)
    (.ite (.andThen (.andThen steps_keepAnswer.mono steps_sendFrame) steps_dropSession) (.andThen steps_keepAnswer.mono steps_sendFrame))

/-- The response to a request is among what left, with the answer's value behind its header. -/
theorem responded_answers (op : Nat) (r : LmpReq) (closes : Bool) (k : Nat) (s : State) (a : LmpAns) :
    ∃ c f, Out.answer c r.requestId (stCode a.status) f ∈ (responded op r closes k s a).out ∧ f.drop 32 = a.value := by
  unfold responded
  dsimp only
  generalize hf : lmpOctets op r.index r.sub r.requestId r.session 0 a = frame
  have hv : frame.drop 32 = a.value := hf ▸ lmpOctets_value ..
  obtain ⟨c, f, sent, value⟩ := sendFrame_answers (keepAnswer s k r.requestId (stCode a.status) frame) k r.requestId (stCode a.status)
    (f := frame) (hf ▸ lmpOctets_header ..)
  generalize sendFrame (keepAnswer s k r.requestId (stCode a.status) frame) k r.requestId (stCode a.status) frame = t at sent
  have dropped : (if r.session ≠ 0 ∧ r.frameSeq = 2 ^ 32 - 1 then dropSession t k else t).out = t.out := by
    split
    · exact steps_dropSession.out_eq
    · rfl
  refine ⟨c, f, ?_, value.trans hv⟩
  split
  · rw [steps_closeSessions.out_eq, dropped]; exact sent
  · rw [dropped]; exact sent

/-- A request of the wire's form. -/
theorem reqForm_formOk {r : LmpReq} (h : reqForm r = true) : r.formOk = true := by
  simp only [reqForm, Bool.and_eq_true] at h
  exact h.1.1

/-! ### A session opens (R459 steps 1 and 2) -/

/-- The session that an open makes. -/
def openedSession (r : LmpOpenReq) (s : State) : Session :=
  { role := roleOf r.role, part := r.part, keyFp := r.keyFp, clientNonce := r.clientNonce, moduleNonce := (freshOctets s 19 32).2
    secret := r.secret, proved := false, last := s.now, rxSeq := 0, txSeq := 0, answers := [], snapshots := [] }

/-- The state with the new session in it, before the answer. -/
def sessionAdded (r : LmpOpenReq) (s : State) : State :=
  putSession { s with free := s.free + 1, book := { s.book with nextSession := freshSession s + 1 } } (freshSession s) (openedSession r s)

/-- The answer to an open: the module's nonce. -/
def openAnswer (r : LmpOpenReq) (s : State) : List Byte :=
  lmpOctets 6 0 0 r.requestId (freshSession s) 0 (plainAns .ok (openedSession r s).moduleNonce)

/-- The state after an open that was answered ok. -/
def sessionOpened (r : LmpOpenReq) (s : State) : State :=
  sendMgmt (sessionAdded r s) (freshSession s) r.requestId 0 (openAnswer r s) 0

theorem nonce_openedSession (r : LmpOpenReq) (s : State) : (openedSession r s).moduleNonce.length = 32 := by
  simp [openedSession, freshOctets]

theorem exec_lmpOpen_room {r : LmpOpenReq} {s : State} (hq : r.requestId < 2 ^ 32) (hf : openForm r = true) (hu : dictUp s = true)
    (hm : odB s kMgmtIp ≠ zeros 16) (hn : (s.book.sessions.filter fun x => x.1 < 2 ^ 32).length < 16) :
    exec (.lmpOpen r) s = .next (sessionOpened r (bump (atTime s r.t) kLmpRequests 1 none)) := by
  have hform := hf
  simp only [openForm, Bool.and_eq_true, decide_eq_true_eq] at hform
  obtain ⟨⟨⟨⟨_, hrole⟩, hpart⟩, _⟩, _⟩ := hform
  have range : r.requestId < 2 ^ 32 ∧ r.role < 256 ∧ r.part < 256 := by
    refine ⟨hq, by omega, ?_⟩
    split at hpart <;> simp only [decide_eq_true_eq] at hpart <;> omega
  have up : dictUp (atTime s r.t) = true := hu
  have ip : odB (atTime s r.t) kMgmtIp ≠ zeros 16 := hm
  have room : ¬ 16 ≤ ((bump (atTime s r.t) kLmpRequests 1 none).book.sessions.filter fun x => x.1 < 2 ^ 32).length := by
    rw [bump_book]; exact Nat.not_le.mpr hn
  show execLmpOpen r s = _
  rw [execLmpOpen, decide_eq_true range, guardWf_true]
  refine congrArg Host.Outcome.next ?_
  dsimp only
  rw [if_neg (by simp [up]), if_neg (fun h => h.elim (by simp [hf]) ip), if_neg room]
  rfl

/-! ### The proof (R459 steps 3 and 4) -/

/-- The answer to a proof. -/
def proofAnswer (k q : Nat) (st : Status) : List Byte := lmpOctets 7 0 0 q k 0 (plainAns st [])

/-- The session after its proof was accepted. -/
def provedSession (v : Session) (now : Nat) : Session := { v with proved := true, last := now }

/-- The state after a proof that was accepted, before the answer. -/
def sessionProved (s : State) (k : Nat) (v : Session) : State := countSessions (putSession s k (provedSession v s.now))

theorem session?_sessionProved (s : State) (k : Nat) (v : Session) : session? (sessionProved s k v) k = some (provedSession v s.now) := by
  rw [sessionProved, session?_countSessions, session?_putSession_same]

theorem odKept_sessionProved (s : State) (k : Nat) (v : Session) : OdKept [kLmpSessionsOpen] s (sessionProved s k v) :=
  .trans (t := putSession s k (provedSession v s.now)) (odKept_of_od rfl) (odKept_closeSessions _ _)

/-- A session below the last number takes the next one with each frame it sends (R460). -/
theorem sendFrame_next {s : State} {k q st : Nat} {f : List Byte} {v : Session} (hk : k < 2 ^ 32) (hs : session? s k = some v)
    (hn : v.txSeq + 1 ≠ 2 ^ 32 - 1) : sendFrame s k q st f =
      sendMgmt (putSession s k { v with txSeq := v.txSeq + 1 }) k q st (patch f 12 (leBytes 4 (v.txSeq + 1))) 16 := by
  simp only [sendFrame, hs]
  rw [if_neg (Nat.not_le.mpr hk), if_neg hn]

theorem exec_lmpOpenProof_proved {k q u : Nat} {v : Session} {s : State} (hk : k < 2 ^ 32) (hq : q < 2 ^ 32) (hu : dictUp s = true)
    (hs : session? s k = some v) (hp : v.proved = false) (hn : keyNamed s v.role v.part v.keyFp = true) :
    exec (.lmpOpenProof k q (some true) u) s = .next (sendFrame (sessionProved (bump (atTime s u) kLmpRequests 1 none) k v) k q 0
      (proofAnswer k q .ok)) := by
  have up : dictUp (atTime s u) = true := hu
  have here : session? (atTime s u) k = some v := hs
  have named : keyNamed (bump (atTime s u) kLmpRequests 1 none) v.role v.part v.keyFp = true := by
    rw [← hn]
    simp only [keyNamed, odB_congr (bump_od _ _ _ _), part_congr (bump_parts _ _ _ _)]
    rfl
  show execLmpOpenProof k q (some true) u s = _
  rw [execLmpOpenProof, decide_eq_true ⟨hk, hq⟩, guardWf_true]
  refine congrArg Host.Outcome.next ?_
  dsimp only
  rw [if_neg (by simp [up]), here]
  dsimp only
  rw [if_neg (by simp [hp]), if_pos ⟨rfl, named⟩]
  rfl

/-- The book's entry of a failed proof. -/
def failedInfo (v : Session) : BookInfo := ⟨5, 1, 0xFF, 0xFF, 0, 0, 8, 0, roleCode v.role, v.keyFp, zeros 32⟩

/-- The state after a proof that failed, before the answer. -/
def proofFailed (s : State) (k : Nat) (v : Session) : State :=
  let t := bump (dropSession s k) kLmpAuthFailures 1 none
  if bookFull t 1024 then t else appendEntry t (failedInfo v)

theorem session?_appendEntry (s : State) (i : BookInfo) (k : Nat) : session? (appendEntry s i) k = session? s k := by
  refine session?_congr ?_ k
  unfold appendEntry
  dsimp only
  split <;> simp

theorem session?_proofFailed (s : State) (k : Nat) (v : Session) : session? (proofFailed s k v) k = none := by
  have gone : session? (bump (dropSession s k) kLmpAuthFailures 1 none) k = none := by
    rw [session?_congr (s := dropSession s k) (by rw [bump_book]), session?_dropSession_same]
  unfold proofFailed
  dsimp only
  split
  · exact gone
  · rw [session?_appendEntry]; exact gone

theorem counted_proofFailed (s : State) (k : Nat) (v : Session) : Counted s (proofFailed s k v) kLmpAuthFailures 1 := by
  have h : Counted s (bump (dropSession s k) kLmpAuthFailures 1 none) kLmpAuthFailures 1 :=
    .after (ctrGet_congr steps_dropSession.ctr_eq _ _) (counted_bump _ _ _)
  unfold proofFailed
  dsimp only
  split
  · exact h
  · exact h.before ((ctrKept_appendEntry _ _).operator (by decide))

theorem exec_lmpOpenProof_failed {k q u : Nat} {v : Session} {s : State} (hk : k < 2 ^ 32) (hq : q < 2 ^ 32) (hu : dictUp s = true)
    (hs : session? s k = some v) (hp : v.proved = false) :
    exec (.lmpOpenProof k q (some false) u) s = .next (sendMgmt (proofFailed (bump (atTime s u) kLmpRequests 1 none) k v) k q 8
      (proofAnswer k q .authFail) 0) := by
  have up : dictUp (atTime s u) = true := hu
  have here : session? (atTime s u) k = some v := hs
  show execLmpOpenProof k q (some false) u s = _
  rw [execLmpOpenProof, decide_eq_true ⟨hk, hq⟩, guardWf_true]
  refine congrArg Host.Outcome.next ?_
  dsimp only
  rw [if_neg (by simp [up]), here]
  dsimp only
  rw [if_neg (by simp [hp]), if_neg (by simp)]
  rfl

theorem exec_lmpOpenProof_illFormed {k q u : Nat} {s : State} (hk : k < 2 ^ 32) (hq : q < 2 ^ 32) (hu : dictUp s = true) :
    exec (.lmpOpenProof k q none u) s = .next (bump (atTime s u) kLmpDropped 1 none) := by
  have up : dictUp (atTime s u) = true := hu
  show execLmpOpenProof k q none u s = _
  rw [execLmpOpenProof, decide_eq_true ⟨hk, hq⟩, guardWf_true]
  refine congrArg Host.Outcome.next ?_
  dsimp only
  rw [if_neg (by simp [up])]
  split
  · rfl
  · exact if_pos (.inr rfl)

/-! ### Sessions end (R454, R455, R459) -/

theorem exec_lmpClose_taken {r : LmpReq} {s s1 : State} {v : Session} (hw : r.wf = true) (hf : reqForm r = true) (hv : r.value = [])
    (hl : r.length = 0) (hr : r.session ≠ 0) (hg : gate (atTime s r.t) r = (s1, some (r.session, v)))
    (hn : v.answers.find? (fun x => x.1 = r.requestId) = none) : exec (.lmpClose r) s =
      .next (dropSession (responded 8 r false r.session (bump s1 kLmpRequests 1 none) (plainAns .ok [])) r.session) := by
  have same : (r.formOk && decide (r.value = []) && decide (r.length = 0)) = r.formOk := by simp [hv, hl]
  have range : reqWf r = true := hw
  show execLmpClose r s = _
  rw [execLmpClose, range, guardWf_true]
  refine congrArg Host.Outcome.next ?_
  dsimp only
  rw [same, if_pos ⟨by rw [Bool.and_eq_true]; exact ⟨hf, by rw [hg]; rfl⟩, hr⟩]
  exact congrArg (dropSession · r.session) (serve_ok hg hn hf rfl rfl)

theorem exec_lmpOpenTimeout_due {k u : Nat} {v : Session} {s : State} (hs : session? s k = some v) (hp : v.proved = false)
    (hd : v.last + 5_000_000_000 ≤ max s.now u) : exec (.lmpOpenTimeout k u) s = .next (dropSession (atTime s u) k) := by
  have here : session? (atTime s u) k = some v := hs
  show execLmpOpenTimeout k u s = _
  rw [execLmpOpenTimeout]
  refine congrArg Host.Outcome.next ?_
  dsimp only
  rw [here]
  exact if_pos ⟨by simp [hp], hd⟩

theorem exec_lmpIdleTimeout_due {k u : Nat} {v : Session} {s : State} (hk : k < 2 ^ 32) (hs : session? s k = some v) (hp : v.proved = true)
    (hd : v.last + odN s kLmpIdleS * 1_000_000_000 ≤ max s.now u) : exec (.lmpIdleTimeout k u) s = .next (dropSession (atTime s u) k) := by
  have here : session? (atTime s u) k = some v := hs
  show execLmpIdleTimeout k u s = _
  rw [execLmpIdleTimeout]
  refine congrArg Host.Outcome.next ?_
  dsimp only
  rw [here]
  exact if_pos ⟨hk, hp, hd⟩

theorem exec_lmpSnapshotExpiry_eq {k u : Nat} {v : Session} {s : State} (hs : session? s k = some v) :
    exec (.lmpSnapshotExpiry k u) s = .next (putSession (atTime s u) k
      { v with snapshots := v.snapshots.filter fun x => max s.now u < x.2.1 + 10_000_000_000 }) := by
  have here : session? (atTime s u) k = some v := hs
  show execLmpSnapshotExpiry k u s = _
  rw [execLmpSnapshotExpiry]
  refine congrArg Host.Outcome.next ?_
  dsimp only
  rw [here]
  rfl

end Sys2Proof.Machine

open Sys2Proof Sys2Proof.Machine

/-- Settles O40: each command is written out as a change of the session's entry and a response, and the laws of both give the rest. -/
theorem sessionsOpenAndEnd : Obligations.SessionsOpenAndEnd := by
  unfold Obligations.SessionsOpenAndEnd
  refine ⟨?openRoom, ?proved, ?failed, ?illFormed, ?close, ?openTimeout, ?idle, ?snapshots, ?segments⟩
  case openRoom =>
    intro r s hq hf hu hm hn
    refine ⟨_, freshSession (bump (atTime s r.t) kLmpRequests 1 none), openedSession r (bump (atTime s r.t) kLmpRequests 1 none),
      openAnswer r (bump (atTime s r.t) kLmpRequests 1 none),
      exec_lmpOpen_room hq hf hu hm hn, ?_, rfl, rfl, rfl, nonce_openedSession _ _, ?_, ?_, ?_, ?_⟩
    · rw [sessionOpened, session?_sendMgmt, sessionAdded, session?_putSession_same]
    · rw [sessionOpened, sendMgmt_out]
      exact congrArg _ (bump_out _ _ _ _)
    · exact lmpOctets_value ..
    · rw [sessionOpened, steps_sendMgmt.mem_eq]
      exact bump_mem _ _ _ _
    · rw [sessionOpened, steps_sendMgmt.od_eq]
      exact bump_od _ _ _ _
  case proved =>
    intro k q u v s hk hq hu hs hp hn hx
    have there := session?_sessionProved (bump (atTime s u) kLmpRequests 1 none) k v
    have kept := odKept_sessionProved (bump (atTime s u) kLmpRequests 1 none) k v
    have now : (bump (atTime s u) kLmpRequests 1 none).now = max s.now u := bump_now _ _ _ _
    have od : OdKept [kLmpSessionsOpen] s (bump (atTime s u) kLmpRequests 1 none) := odKept_of_od (bump_od _ _ _ _)
    rw [now] at there
    refine ⟨_, k, patch (proofAnswer k q .ok) 12 (leBytes 4 (v.txSeq + 1)), exec_lmpOpenProof_proved hk hq hu hs hp hn, ?_⟩
    rw [sendFrame_next hk there hx]
    generalize sessionProved (bump (atTime s u) kLmpRequests 1 none) k v = t at kept
    refine ⟨?_, ?_, (od.trans kept).trans (odKept_of_od steps_sendMgmt.od_eq)⟩
    · rw [session?_sendMgmt, session?_putSession_same]; rfl
    · rw [sendMgmt_out]; exact .head _
  case failed =>
    intro k q u v s hk hq hu hs hp
    refine ⟨_, k, proofAnswer k q .authFail, exec_lmpOpenProof_failed hk hq hu hs hp, ?_, ?_, ?_⟩
    · rw [session?_sendMgmt, session?_proofFailed]
    · refine .before (.after ?_ (counted_proofFailed _ k v)) (ctrGet_sendMgmt _ _ _ _ _ _ (by decide) (by decide) (by decide))
      exact ctrGet_bump_ne _ _ _ none (by decide) (by decide) (by simp)
    · rw [sendMgmt_out]; exact .head _
  case illFormed =>
    intro k q u s hk hq hu
    exact ⟨_, exec_lmpOpenProof_illFormed hk hq hu, counted_bump (atTime s u) _ _, ctrKept_bump (atTime s u) _ _ (by simp) (by simp),
      bump_eq (atTime s u) _ _ _⟩
  case close =>
    intro r s s1 v hw hf hv hl hr hg hn
    obtain ⟨c, f, sent, -⟩ := responded_answers 8 r false r.session (bump s1 kLmpRequests 1 none) (plainAns .ok [])
    refine ⟨_, c, f, exec_lmpClose_taken hw hf hv hl hr hg hn, session?_dropSession_same _ _, ?_⟩
    rw [steps_dropSession.out_eq]; exact sent
  case openTimeout =>
    intro k u v s hs hp hd
    exact ⟨_, exec_lmpOpenTimeout_due hs hp hd, dropSession_kept (atTime s u) k⟩
  case idle =>
    intro k u v s hk hs hp hd
    exact ⟨_, exec_lmpIdleTimeout_due hk hs hp hd, dropSession_kept (atTime s u) k⟩
  case snapshots =>
    intro k u v s hs
    exact ⟨_, exec_lmpSnapshotExpiry_eq hs, session?_putSession_same _ _ _, fun j h => session?_putSession_ne (atTime s u) _ h, rfl⟩
  case segments =>
    intro key u s
    refine ⟨_, rfl, ?_, ?_, rfl⟩
    · intro g hg
      obtain ⟨mem, keep⟩ := List.mem_filter.mp hg
      refine ⟨mem, fun hk => ?_⟩
      simpa [hk, atTime] using keep
    · intro g hg hk
      exact List.mem_filter.mpr ⟨hg, by simp [hk]⟩

end

section
/-! O39: requests that are carried out and answered (R450 to R455, R457 to R461, R467). -/

namespace Sys2Proof.Machine

-- Checked one after another: the check allows too few threads for more.
set_option Elab.async false

/-! ### What a response leaves as it was -/

theorem ctrKept_sendMgmt (s : State) (k q st : Nat) (f : List Byte) (tag : Nat) :
    CtrKept [kTxFrames 8, kTxBytes 8] s (sendMgmt s k q st f tag) := by
  intro key v hv hk
  simp only [List.mem_cons, List.not_mem_nil, or_false, not_or] at hk
  exact ctrGet_sendMgmt s k q st f tag hv hk.1 hk.2

theorem ctrKept_sendFrame (s : State) (k q st : Nat) (f : List Byte) : CtrKept [kTxFrames 8, kTxBytes 8] s (sendFrame s k q st f) := by
  unfold sendFrame
  split
  · exact ctrKept_of_ctr (steps_mailAnswer.ctr_eq.trans steps_emit.ctr_eq)
  · split
    next v _ =>
      have sent := (ctrKept_of_ctr (l := [kTxFrames 8, kTxBytes 8]) (steps_putSession (s := s) (k := k) (v := { v with txSeq := v.txSeq + 1 })).ctr_eq).trans
        (ctrKept_sendMgmt _ k q st (patch f 12 (leBytes 4 (v.txSeq + 1))) 16)
      dsimp only
      split
      · exact sent.trans (ctrKept_of_ctr steps_dropSession.ctr_eq)
      · exact sent
    next => exact ctrKept_sendMgmt _ _ _ _ _ _

theorem odKept_sendFrame (s : State) (k q st : Nat) (f : List Byte) : OdKept [kLmpSessionsOpen] s (sendFrame s k q st f) := by
  unfold sendFrame
  split
  · exact odKept_of_od (steps_mailAnswer.od_eq.trans steps_emit.od_eq)
  · split
    next v _ =>
      have sent := (odKept_of_od (l := [kLmpSessionsOpen]) (steps_putSession (s := s) (k := k) (v := { v with txSeq := v.txSeq + 1 })).od_eq).trans
        (odKept_of_od (steps_sendMgmt (k := k) (requestId := q) (st := st) (frame := patch f 12 (leBytes 4 (v.txSeq + 1))) (tag := 16)).od_eq)
      dsimp only
      split
      · exact sent.trans (odKept_dropSession _ _)
      · exact sent
    next => exact odKept_of_od steps_sendMgmt.od_eq

/-- After a request's work its response changes, beside the sessions, only the counters of the management port and of its own state. -/
theorem responded_kept (op : Nat) (r : LmpReq) (closes : Bool) (k : Nat) (s : State) (a : LmpAns) :
    OdKept [kLmpSessionsOpen] s (responded op r closes k s a) ∧ CtrKept [kTxFrames 8, kTxBytes 8] s (responded op r closes k s a) := by
  unfold responded
  dsimp only
  generalize lmpOctets op r.index r.sub r.requestId r.session 0 a = frame
  have od : OdKept [kLmpSessionsOpen] s (sendFrame (keepAnswer s k r.requestId (stCode a.status) frame) k r.requestId (stCode a.status) frame) :=
    (odKept_of_od steps_keepAnswer.od_eq).trans (odKept_sendFrame _ _ _ _ _)
  have ctr : CtrKept [kTxFrames 8, kTxBytes 8] s
      (sendFrame (keepAnswer s k r.requestId (stCode a.status) frame) k r.requestId (stCode a.status) frame) :=
    (ctrKept_of_ctr steps_keepAnswer.ctr_eq).trans (ctrKept_sendFrame _ _ _ _ _)
  generalize sendFrame (keepAnswer s k r.requestId (stCode a.status) frame) k r.requestId (stCode a.status) frame = t at od ctr ⊢
  have dropped : OdKept [kLmpSessionsOpen] s (if r.session ≠ 0 ∧ r.frameSeq = 2 ^ 32 - 1 then dropSession t k else t) ∧
      CtrKept [kTxFrames 8, kTxBytes 8] s (if r.session ≠ 0 ∧ r.frameSeq = 2 ^ 32 - 1 then dropSession t k else t) := by
    split
    · exact ⟨od.trans (odKept_dropSession t k), ctr.trans (ctrKept_of_ctr steps_dropSession.ctr_eq)⟩
    · exact ⟨od, ctr⟩
  split
  · exact ⟨dropped.1.trans (odKept_closeSessions _ _), dropped.2.trans (ctrKept_of_ctr steps_closeSessions.ctr_eq)⟩
  · exact dropped

/-! ### Reading (R450, R453, R454) -/

/-- A read from offset 0 of a value that fits one answer returns it whole, with no part left to latch. -/
theorem readPart_whole {s x : State} {k key : Nat} {r : LmpReq} {value : State → State × Option (List Byte)} {b : List Byte}
    (ho : r.offset = 0) (hv : value s = (x, some b)) (h1 : b.length ≤ 8144) (h2 : b.length ≤ r.length) :
    ∃ y, readPart s k key r value true = (y, plainAns .ok b) ∧ Steps [.book] x y := by
  have whole : b.take (min 8144 r.length) = b := List.take_of_length_le (by omega)
  simp only [readPart, Bool.not_true, Bool.false_eq_true, if_false, ho, if_true, hv, whole, Nat.lt_irrefl, decide_true]
  refine ⟨_, rfl, ?_⟩
  split
  · exact steps_putSession
  · exact .refl

/-- The state from which a request's work starts. -/
def requested (s : State) : State := bump s kLmpRequests 1 none

theorem mem_requested {s s1 : State} {r : LmpReq} {o : Option (Nat × Session)} (h : gate (atTime s r.t) r = (s1, o)) :
    (requested s1).mem = s.mem := by
  have passed : Steps [.ctr, .book] (atTime s r.t) s1 := .of_eq steps_gate h
  rw [requested, bump_mem, passed.mem_eq]
  rfl

theorem ctrGet_clearView {s : State} {w : Who} {key : Nat} {row : OdRow} (hr : odRow key = some row) (hc : row.acc = .rc) :
    ctrGet (clearView s w key) key (viewOf w) = 0 := by
  simp [clearView, hr, hc, ctrGet]

/-- A read request's own form adds nothing where the frame's form and the read's hold. -/
theorem formOk_and {r : LmpReq} {b : Bool} (h : b = true) : (r.formOk && b) = r.formOk := by rw [h, Bool.and_true]

theorem exec_lmpRead_whole {r : LmpReq} {s s1 : State} {k : Nat} {v : Session} {b : List Byte} (hw : r.wf = true) (hf : reqForm r = true)
    (hr : readForm r = true) (hg : gate (atTime s r.t) r = (s1, some (k, v)))
    (hn : v.answers.find? (fun x => x.1 = r.requestId) = none) (ho : r.offset = 0)
    (hb : readOctets (requested s1) (whoOf k v) (r.index * 256 + r.sub) = some b) (h1 : b.length ≤ 8144) (h2 : b.length ≤ r.length) :
    ∃ x, exec (.lmpRead r) s = .next (responded 1 r false k x (plainAns .ok b)) ∧
      Steps [.book] (clearView (requested s1) (whoOf k v) (r.index * 256 + r.sub)) x := by
  have range : reqWf r = true := hw
  obtain ⟨x, read, same⟩ := readPart_whole (s := requested s1) (k := k) (key := r.index * 256 + r.sub) (value := fun s =>
    match readOctets s (whoOf k v) (r.index * 256 + r.sub) with
    | some b => (clearView s (whoOf k v) (r.index * 256 + r.sub), some b)
    | none => (s, none)) ho (by rw [hb]) h1 h2
  refine ⟨x, ?_, same⟩
  show execLmpRead r s = _
  rw [execLmpRead, range, guardWf_true, formOk_and hr]
  refine congrArg Host.Outcome.next (serve_ok hg hn hf ?_ rfl)
  rw [← read]
  exact congrArg (readPart (requested s1) k _ r _) (Option.isSome_iff_exists.mpr ⟨b, hb⟩)

theorem exec_lmpReadIndex_whole {r : LmpReq} {s s1 : State} {k : Nat} {v : Session} {b : List Byte} (hw : r.wf = true) (hf : reqForm r = true)
    (hr : readForm r = true) (hg : gate (atTime s r.t) r = (s1, some (k, v)))
    (hn : v.answers.find? (fun x => x.1 = r.requestId) = none) (ho : r.offset = 0)
    (hb : (readWhole (requested s1) (whoOf k v) r.index).2 = some b) (h1 : b.length ≤ 8144) (h2 : b.length ≤ r.length) :
    ∃ x, exec (.lmpReadIndex r) s = .next (responded 3 r false k x (plainAns .ok b)) ∧
      Steps [.ctr, .book] (requested s1) x := by
  have range : reqWf r = true := hw
  have value : readWhole (requested s1) (whoOf k v) r.index = ((readWhole (requested s1) (whoOf k v) r.index).1, some b) := Prod.ext rfl hb
  obtain ⟨x, read, same⟩ := readPart_whole (k := k) (key := r.index * 256) (value := fun s => readWhole s (whoOf k v) r.index) ho value h1 h2
  refine ⟨x, ?_, steps_readWhole.mono.trans same.mono⟩
  show execLmpReadIndex r s = _
  rw [execLmpReadIndex, range, guardWf_true, formOk_and hr]
  refine congrArg Host.Outcome.next (serve_ok hg hn hf ?_ rfl)
  rw [← read]
  exact congrArg (readPart (requested s1) k _ r _) (Option.isSome_iff_exists.mpr ⟨b, hb⟩)

/-! ### Writing (R447, R450, R451) -/

theorem exec_lmpWrite_whole {r : LmpReq} {s s1 x : State} {k : Nat} {v : Session} (hw : r.wf = true) (hf : reqForm r = true)
    (hl : r.length = r.value.length) (hg : gate (atTime s r.t) r = (s1, some (k, v)))
    (hn : v.answers.find? (fun x => x.1 = r.requestId) = none) (ho : r.offset = 0) (ht : r.total = r.length) (hx : r.final = true)
    (hs : s1.book.segs.find? (fun x => x.key = r.index * 256 + r.sub) = none)
    (hv : x = wholeWrite (requested s1) (whoOf k v) (r.index * 256 + r.sub) r.value r.found)
    (ha : (writeAnswer (requested s1) x (r.index * 256 + r.sub)).status = .ok) :
    exec (.lmpWrite r) s = .next (responded 2 r (settingKey (r.index * 256 + r.sub) && r.final) k x
      (writeAnswer (requested s1) x (r.index * 256 + r.sub))) := by
  have range : reqWf r = true := hw
  have size : r.value.length ≤ 8144 := by
    simp only [reqForm, Bool.and_eq_true, decide_eq_true_eq] at hf
    exact hf.1.2
  have alone : (requested s1).book.segs.find? (fun x => x.key = r.index * 256 + r.sub) = none := by rw [requested, bump_book, hs]
  show execLmpWrite r s = _
  rw [execLmpWrite, range, guardWf_true, formOk_and (decide_eq_true hl)]
  refine congrArg Host.Outcome.next (serve_ok hg hn hf ?_ ha)
  show lmpWrite r (requested s1) (whoOf k v) k = _
  simp only [lmpWrite, alone]
  rw [if_neg (by omega), if_pos hx, if_neg (by omega), ← hv]

theorem leNat_leBytes_two {n : Nat} (h : n < 65536) : leNat (leBytes 2 n) = n := by
  simp only [leBytes, leNat, BitVec.toNat_ofNat]
  omega

theorem odRow_powerCap : (odRow kPowerCap).map (fun r => (r.ty, r.acc)) = some (.u16, .rw) := rfl
theorem present_powerCap (s : State) : present s kPowerCap = true := rfl
theorem numWrite_powerCap (s : State) (w : Who) (n : Nat) (found : Option (List Byte)) :
    numWrite s w kPowerCap n found = execPowerCapWrite w n s := rfl

/-- The two octets of a number reach `power_cap` by its own command. -/
theorem wholeWrite_powerCap {w : Who} {n : Nat} {s t : State} (hn : n < 65536) (h : exec (.powerCapWrite w n) s = .next t) :
    wholeWrite s w kPowerCap (leBytes 2 n) none = t := by
  obtain ⟨row, hrow, hty⟩ := Option.map_eq_some_iff.mp odRow_powerCap
  obtain ⟨ty, acc⟩ := Prod.mk.inj hty
  have value : octetsVal row.ty (leBytes 2 n) = some (.num n) := by
    rw [ty, octetsVal, if_neg (by decide)]
    exact (if_pos (leBytes_length 2 n)).trans (by rw [leNat_leBytes_two hn])
  have run : execPowerCapWrite w n s = .next t := h
  simp only [wholeWrite, hrow, acc, present_powerCap, value, numWrite_powerCap, run]
  rfl

/-! ### The register book (R464, R467) -/

theorem headSerial_requested (s : State) : odN (requested s) kBookHeadSerial = odN s kBookHeadSerial := odN_congr (bump_od _ _ _ _) _

theorem entryAt_requested (s : State) (n : Nat) : entryAt (requested s) n = entryAt s n := by
  simp only [entryAt, headSerial_requested]
  rw [requested, bump_book]

theorem serialCheck_requested (s : State) (n : Nat) : serialCheck (requested s) n = serialCheck s n := by
  simp only [serialCheck, headSerial, headSerial_requested]
  rw [requested, bump_book, odN_congr (bump_od _ _ _ _)]

theorem masked_operator {w : Who} (h : w.role = .operator) (e : List Byte) : masked w e = e := by
  simp only [masked]
  exact if_pos (.inl (by simp [h]))

theorem exec_bookRead_range {r : LmpReq} {s s1 : State} {k n m : Nat} {v : Session} (hw : r.wf = true) (hf : reqForm r = true)
    (hv : r.value.length = 12) (hl : r.length = 12) (hg : gate (atTime s r.t) r = (s1, some (k, v)))
    (hn : v.answers.find? (fun x => x.1 = r.requestId) = none) (ho : v.role = .operator) (hfirst : n = leNat (r.value.take 8))
    (hcount : m = leNat (r.value.drop 8)) (h0 : 0 < m) (h46 : m ≤ 46) (hc : serialCheck s1 n = .ok) (hh : n + m ≤ odN s1 kBookHeadSerial + 1) :
    exec (.bookRead r) s = .next (responded 4 r false k (requested s1)
      (plainAns .ok ((List.range m).flatMap fun i => entryAt s1 (n + i)))) := by
  have range : reqWf r = true := hw
  have entries : (List.range m).flatMap (fun i => masked (whoOf k v) (entryAt (requested s1) (n + i))) =
      (List.range m).flatMap fun i => entryAt s1 (n + i) := by simp only [masked_operator (w := whoOf k v) ho, entryAt_requested]
  show execBookRead r s = _
  rw [execBookRead, range, guardWf_true, Bool.and_assoc, formOk_and (by simp [hv, hl])]
  refine congrArg Host.Outcome.next (serve_ok hg hn hf ?_ rfl)
  show _ = (requested s1, _)
  rw [← hfirst, ← hcount]
  show (if (if m = 0 ∨ 46 < m then Status.malformed else serialCheck (requested s1) n) ≠ .ok then _ else _) = _
  rw [if_neg (by rw [if_neg (by omega), serialCheck_requested, hc]; simp)]
  show (requested s1, plainAns .ok ((List.range (min m (odN (requested s1) kBookHeadSerial + 1 - n))).flatMap fun i =>
    masked (whoOf k v) (entryAt (requested s1) (n + i)))) = _
  rw [headSerial_requested, Nat.min_eq_left (by omega)]
  exact congrArg (fun b => (requested s1, plainAns .ok b)) entries

theorem exec_lmpCheckpointRead_signed {r : LmpReq} {s s1 : State} {k : Nat} {v : Session} (hw : r.wf = true) (hf : reqForm r = true)
    (hv : r.value.length = 8) (hl : r.length = 8) (hg : gate (atTime s r.t) r = (s1, some (k, v)))
    (hn : v.answers.find? (fun x => x.1 = r.requestId) = none) (hc : serialCheck s1 (leNat r.value) = .ok)
    (hk : lget 0 (entryAt s1 (leNat r.value)) 21 = 2) (hs : tget [] s1.book.sigs (leNat r.value) ≠ []) :
    exec (.lmpCheckpointRead r) s = .next (responded 5 r false k (requested s1)
      (plainAns .ok (entryAt s1 (leNat r.value) ++ tget [] s1.book.sigs (leNat r.value)))) := by
  have range : reqWf r = true := hw
  have sigs : (requested s1).book.sigs = s1.book.sigs := by rw [requested, bump_book]
  show execLmpCheckpointRead r s = _
  rw [execLmpCheckpointRead, range, guardWf_true, Bool.and_assoc, formOk_and (by simp [hv, hl])]
  refine congrArg Host.Outcome.next (serve_ok hg hn hf ?_ rfl)
  generalize leNat r.value = n at hc hk hs ⊢
  show (if serialCheck (requested s1) n ≠ .ok then _ else if lget 0 (entryAt (requested s1) n) 21 ≠ 2 then _ else
    if tget [] (requested s1).book.sigs n = [] then _ else (requested s1, plainAns .ok (entryAt (requested s1) n ++ tget [] (requested s1).book.sigs n))) = _
  rw [entryAt_requested, serialCheck_requested, sigs, if_neg (by simp [hc]), if_neg (fun h => h hk), if_neg hs]

end Sys2Proof.Machine

open Sys2Proof Sys2Proof.Machine

/-- Settles O39: each request's work is worked out on its own, and one law of the response gives its frame. -/
theorem requestsAnswered : Obligations.RequestsAnswered := by
  unfold Obligations.RequestsAnswered
  refine ⟨?read, ?index, ?write, ?cap, ?entries, ?checkpoint⟩
  case read =>
    intro r s s1 k v b hw hf hr hg hn ho hb h1 h2 hview
    obtain ⟨x, run, same⟩ := exec_lmpRead_whole hw hf hr hg hn ho hb h1 h2
    obtain ⟨c, f, sent, value⟩ := responded_answers 1 r false k x (plainAns .ok b)
    refine ⟨_, c, f, run, sent, value, ?_, ?_⟩
    · intro row hrow hacc hport
      have sub : r.sub < 256 := by
        simp only [LmpReq.wf, decide_eq_true_eq] at hw
        obtain ⟨_, _, _, _, _, h, _⟩ := hw
        exact h
      have other : r.index * 256 + r.sub ∉ [kTxFrames 8, kTxBytes 8] := by
        simp only [kTxFrames, kTxBytes, List.mem_cons, List.not_mem_nil, or_false]
        omega
      rw [(responded_kept 1 r false k x (plainAns .ok b)).2 _ _ hview other, ctrGet_congr same.ctr_eq, ctrGet_clearView hrow hacc]
    · rw [steps_responded.mem_eq, same.mem_eq, steps_clearView.mem_eq, mem_requested hg]
  case index =>
    intro r s s1 k v b hw hf hr hg hn ho hb h1 h2
    obtain ⟨x, run, same⟩ := exec_lmpReadIndex_whole hw hf hr hg hn ho hb h1 h2
    obtain ⟨c, f, sent, value⟩ := responded_answers 3 r false k x (plainAns .ok b)
    refine ⟨_, c, f, run, sent, value, ?_⟩
    rw [steps_responded.mem_eq, same.mem_eq, mem_requested hg]
  case write =>
    intro r s s1 x k v hw hf hl hg hn ho ht hx hs hv ha
    obtain ⟨c, f, sent, -⟩ := responded_answers 2 r (settingKey (r.index * 256 + r.sub) && r.final) k x
      (writeAnswer (requested s1) x (r.index * 256 + r.sub))
    refine ⟨_, c, f, exec_lmpWrite_whole hw hf hl hg hn ho ht hx hs hv ha, ?_, steps_responded.mem_eq, (responded_kept ..).1⟩
    rwa [show stCode (writeAnswer (requested s1) x (r.index * 256 + r.sub)).status = 0 from congrArg stCode ha] at sent
  case cap => exact fun w n s t hn h => wholeWrite_powerCap hn h
  case entries =>
    intro r s s1 k n m v hw hf hv hl hg hn ho hfirst hcount h0 h46 hc hh
    obtain ⟨c, f, sent, value⟩ := responded_answers 4 r false k (requested s1)
      (plainAns .ok ((List.range m).flatMap fun i => entryAt s1 (n + i)))
    exact ⟨_, c, f, exec_bookRead_range hw hf hv hl hg hn ho hfirst hcount h0 h46 hc hh, sent, value⟩
  case checkpoint =>
    intro r s s1 k v hw hf hv hl hg hn hc hk hs
    obtain ⟨c, f, sent, value⟩ := responded_answers 5 r false k (requested s1)
      (plainAns .ok (entryAt s1 (leNat r.value) ++ tget [] s1.book.sigs (leNat r.value)))
    exact ⟨_, c, f, exec_lmpCheckpointRead_signed hw hf hv hl hg hn hc hk hs, sent, value⟩

end

section
/-! What an access to memory leaves as it was of the dictionary and the counters: the wake of its domains (R496), a poisoned store
(R213, R220, R221), and the refusal of one that may not go where it names (R199, R275, R281). -/

namespace Sys2Proof.Machine

-- Checked one after another: the check allows too few threads for more.
set_option Elab.async false

/-- Object k and the operator's view of counter c are as before. -/
def Spared (k c : Nat) (s t : State) : Prop := odN t k = odN s k ∧ ctrGet t c 0 = ctrGet s c 0

/-- Objects that an access to memory may set, beside those of the domains. -/
def accessKeys : List Nat := [kFarPoisonEntries, kFarChannelFailed, kFarDegradedGroups]

/-- Counters that an access to memory may move. -/
def accessCounters : List Nat :=
  [kPoisonTableFull, kFarReconstructed, kFarUncorrectable, kFarRmwWrites, kAutoWakes, kWakesDuringEntry, kAccessDenied, kYardLockedWrites]

variable {k c : Nat} {s t u : State}

theorem Spared.refl : Spared k c s s := ⟨rfl, rfl⟩
theorem Spared.trans (a : Spared k c s t) (b : Spared k c t u) : Spared k c s u := ⟨b.1.trans a.1, b.2.trans a.2⟩

theorem spared_of_same (od : t.od = s.od) (ctr : t.ctr = s.ctr) : Spared k c s t := ⟨odN_congr od k, ctrGet_congr ctr c 0⟩

theorem spared_bump {x n : Nat} {p : Option Nat} (hp : ∀ q, p = some q → q < 61) (h : c ≠ x) : Spared k c s (bump s x n p) :=
  ⟨odN_bump .., ctrGet_bump_ne s n 0 p h (by decide) hp⟩

theorem spared_odSet {x n : Nat} (h : k ≠ x) : Spared k c s (odSet s x n) := ⟨odN_odSet_ne s n h, rfl⟩

/-- A fold whose steps spare them. -/
theorem Spared.foldl {α : Type} {f : State → α → State} {l : List α} (h : Spared k c s t) (hf : ∀ s a, Spared k c s (f s a)) :
    Spared k c s (l.foldl f t) := by
  induction l generalizing t with
  | nil => exact h
  | cons a l ih => exact ih (h.trans (hf t a))

/-- A fold that gathers something beside the state. -/
theorem Spared.foldlFst {α β : Type} {f : State × β → α → State × β} {l : List α} {x : State × β} (h : Spared k c s x.1)
    (hf : ∀ x a, Spared k c x.1 (f x a).1) : Spared k c s (l.foldl f x).1 := by
  induction l generalizing x with
  | nil => exact h
  | cons a l ih => exact ih (h.trans (hf x a))

theorem Spared.of_eq {β : Type} {x : State × β} {b : β} (h : Spared k c s x.1) (e : x = (t, b)) : Spared k c s t := by
  rw [e] at h; exact h

theorem Spared.ite {p : Prop} [Decidable p] {a b : State} (ha : Spared k c s a) (hb : Spared k c s b) : Spared k c s (if p then a else b) := by
  split
  · exact ha
  · exact hb

theorem Spared.iteFst {β : Type} {p : Prop} [Decidable p] {a b : State × β} (ha : Spared k c s a.1) (hb : Spared k c s b.1) :
    Spared k c s (if p then a else b).1 := by
  split
  · exact ha
  · exact hb

section
variable {pt : Option Nat} (hp : ∀ q, pt = some q → q < 61) (hk : k ∉ accessKeys) (hd : ∀ d, k ≠ kDomainState d) (hc : c ∉ accessCounters)

include hd hc in
theorem spared_touchDomain (d : Nat) : Spared k c s (touchDomain s d).1 := by
  have none {x : Nat} (s : State) (n : Nat) (h : x ∈ accessCounters) : Spared k c s (bump s x n none) :=
    spared_bump (by simp) fun e => hc (e ▸ h)
  unfold touchDomain
  split
  · exact .refl
  · have wake : Spared k c s (beginWake s d) := .trans (t := { s with pow := _ }) (spared_of_same rfl rfl) (spared_odSet (hd _))
    exact wake.trans (none _ 1 (by simp [accessCounters]))
  · split
    · exact (none s _ (by simp [accessCounters])).trans (spared_of_same rfl rfl)
    · exact .refl
  · exact .refl
  · exact .refl

include hd hc in
theorem spared_touch (a n : Nat) : Spared k c s (touch s a n).1 := by
  unfold touch touchAll
  refine .iteFst .refl (.foldlFst .refl fun x d => ?_)
  split
  next h => exact .of_eq (spared_touchDomain hd hc d) h

include hp hk hc in
theorem spared_poisonAt (a : Nat) : Spared k c s (poisonAt s a pt).1 := by
  have key : k ≠ kFarPoisonEntries := fun e => hk (by simp [e, accessKeys])
  have counter : c ≠ kPoisonTableFull := fun e => hc (by simp [e, accessCounters])
  unfold poisonAt
  dsimp only
  split
  · split
    · exact .refl
    · split
      · exact spared_bump hp counter
      · exact .trans (t := { s with mem := _ }) (spared_of_same rfl rfl) (spared_odSet key)
  · exact spared_of_same rfl rfl

include hk in
theorem spared_noteChannel (x : Nat) : Spared k c s (noteChannel s x) := by
  have failed : k ≠ kFarChannelFailed := fun e => hk (by simp [e, accessKeys])
  have degraded : k ≠ kFarDegradedGroups := fun e => hk (by simp [e, accessKeys])
  unfold noteChannel channelRead
  refine .ite .refl ?_
  extract_lets l src y
  have noted : Spared k c s y := spared_of_same rfl rfl
  clear_value y
  exact .ite (.ite ((noted.trans (spared_odSet failed)).trans (spared_odSet degraded)) (noted.trans (spared_odSet failed))) noted

include hp hk hc in
theorem spared_stripeRead (a : Nat) (bad : List Nat) (parity : Bool) : Spared k c s (stripeRead s a bad parity pt).1 := by
  have rebuilt : c ≠ kFarReconstructed := fun e => hc (by simp [e, accessCounters])
  have lost : c ≠ kFarUncorrectable := fun e => hc (by simp [e, accessCounters])
  have noted (l : List Nat) : Spared k c s (l.foldl noteChannel s) := Spared.foldl .refl fun s x => spared_noteChannel hk x
  unfold stripeRead
  extract_lets cs failed gone pch parityLost x
  have hx : Spared k c s x := noted _
  clear_value x
  exact .iteFst (hx.trans (spared_bump hp rebuilt))
    (.foldl (hx.trans (spared_bump hp lost)) fun s c => spared_poisonAt hp hk hc _)

include hp hk hc in
theorem spared_noteRmw (a n : Nat) : Spared k c s (noteRmw s a n pt) := by
  have counter : c ≠ kFarRmwWrites := fun e => hc (by simp [e, accessCounters])
  unfold noteRmw
  exact .ite (spared_bump hp counter) (.foldl (spared_bump hp counter) fun s x => spared_stripeRead hp hk hc x [] false)

include hp hk hc in
theorem spared_storePoison (a n : Nat) : Spared k c s (storePoison s a n pt).1 := by
  have piece (s : State) (q : Nat) : Spared k c s (poisonPiece s q pt).1 := by
    unfold poisonPiece
    split
    · exact spared_poisonAt hp hk hc q
    · exact .refl
  unfold storePoison poisonPieces
  refine .trans (.foldlFst (x := (s, [])) .refl fun x q => ?_) (spared_noteRmw hp hk hc a n)
  split
  next h => exact .of_eq (piece _ _) h

end

theorem spared_writeAllowed {p : Nat} (hp : p < 61) (hc : c ∉ accessCounters) (a n : Nat) : Spared k c s (writeAllowed s p a n).1 := by
  have one (q : Nat) (h : some p = some q) : q < 61 := by cases h; exact hp
  unfold writeAllowed rangesWritable rangesLocked
  split
  · exact spared_bump one fun e => hc (by simp [e, accessCounters])
  · split
    · exact .refl
    · split
      · exact spared_bump one fun e => hc (by simp [e, accessCounters])
      · exact .refl

end Sys2Proof.Machine
end

section
/-! O43: the Brynq links fail, retrain and end their retry window, and the host reset is released (R386, R387, R405, R413, R533). -/

namespace Sys2Proof.Machine

-- Checked one after another: the check allows too few threads for more.
set_option Elab.async false

/-! ### An error and a retrained link (R386) -/

/-- Link l down, and when its error came. -/
def linkFailed (s : State) (l : Nat) : State :=
  setLinkErr (odSet s kBrynqLinksUp (bitClr (odN s kBrynqLinksUp) l)) l (some s.now)

theorem linkErr_setLinkErr (s : State) (l : Nat) (e : Option Nat) : linkErr (setLinkErr s l e) l = e := by
  unfold linkErr setLinkErr
  split <;> rfl

theorem linkErr_congr {s t : State} (h : t.link = s.link) (l : Nat) : linkErr t l = linkErr s l := by simp only [linkErr, h]

theorem setLinkErr_eq (s : State) (l : Nat) (e : Option Nat) : setLinkErr s l e = { s with link := (setLinkErr s l e).link } := rfl

theorem exec_linkError_up {l u : Nat} {s : State} (hl : l < 2) (h : bitOf (odN s kBrynqLinksUp) l = true) :
    exec (.linkError l u) s = .next (bump (linkFailed (atTime s u) l) kLinkRetrains 1 none) := by
  have up : bitOf (odN (atTime s u) kBrynqLinksUp) l = true := h
  show execLinkError l u s = _
  rw [execLinkError, decide_eq_true hl, guardWf_true]
  refine congrArg Host.Outcome.next (if_neg ?_)
  rw [up]; decide

/-- Link l up again with no error noted, before the replay. -/
def linkTrained (s : State) (l : Nat) : State :=
  let t := setLinkErr (odSet s kBrynqLinksUp (bitSet (odN s kBrynqLinksUp) l)) l none
  { t with link := { t.link with degraded := bitClr t.link.degraded l } }

theorem linkTrained_link (s : State) (l : Nat) : linkErr (linkTrained s l) l = none ∧
    (linkTrained s l).link.degraded = bitClr s.link.degraded l ∧ (linkTrained s l).link.unacked = s.link.unacked := by
  by_cases h : l = 0 <;> simp [linkTrained, setLinkErr, linkErr, h]

theorem exec_linkRetrainDone_up {l u : Nat} {s : State} (hl : l < 2) (hr : s.link.resetLow = false) (hd : domState s 0x70 = 0)
    (hn : s.boot.noHost = false) : exec (.linkRetrainDone l u) s = .next (replay (linkTrained (atTime s u) l)) := by
  have idle : ¬ ((atTime s u).link.resetLow = true ∨ domState (atTime s u) 0x70 ≠ 0 ∨ (atTime s u).boot.noHost = true) := by
    rintro (h | h | h)
    · exact absurd (hr.symm.trans h) (by decide)
    · exact h hd
    · exact absurd (hn.symm.trans h) (by decide)
  show execLinkRetrainDone l u s = _
  rw [execLinkRetrainDone, decide_eq_true hl, guardWf_true]
  exact congrArg Host.Outcome.next (if_neg idle)

theorem replay_eq (s : State) : replay s = { s with
    ctr := (replay s).ctr, link := { s.link with unacked := [] }
    out := (s.link.unacked.map fun w => Out.hostWrite w.addr w.bytes).reverse ++ s.out } :=
  foldl_hostWritten_eq s.link.unacked { s with link := { s.link with unacked := [] } }

theorem counted_hostWritten {s : State} {w : Posted} (h : w.done ≠ none) : Counted s (hostWritten s w) kCompletionsWritten 1 := by
  rw [hostWritten_done h]
  exact counted_bump (emit s w.shown) _ _

theorem Counted.trans {s t u : State} {k m n : Nat} (a : Counted s t k m) (b : Counted t u k n) : Counted s u k (m + n) := by
  unfold Counted at *
  omega

/-- Each completion that the writes make visible counts; where they make none, the counter keeps its value. -/
theorem ctrGet_foldl_hostWritten (ws : List Posted) (s : State) :
    (∀ w ∈ ws, w.done = none) ∧ ctrGet (ws.foldl hostWritten s) kCompletionsWritten 0 = ctrGet s kCompletionsWritten 0 ∨
    Counted s (ws.foldl hostWritten s) kCompletionsWritten (ws.filter fun w => w.done ≠ none).length := by
  induction ws generalizing s with
  | nil => exact .inl ⟨by simp, rfl⟩
  | cons w ws ih =>
    rw [List.foldl_cons]
    by_cases h : w.done = none
    · have same : ctrGet (hostWritten s w) kCompletionsWritten 0 = ctrGet s kCompletionsWritten 0 := by rw [hostWritten_plain h]; rfl
      rcases ih (hostWritten s w) with ⟨none, keep⟩ | counted
      · exact .inl ⟨by simpa [h] using none, keep.trans same⟩
      · refine .inr ?_
        rw [List.filter_cons_of_neg (by simp [h])]
        exact counted.after same
    · refine .inr ?_
      rw [List.filter_cons_of_pos (by simp [h]), List.length_cons, Nat.add_comm]
      rcases ih (hostWritten s w) with ⟨none, keep⟩ | counted
      · have empty : (ws.filter fun w => decide (w.done ≠ Option.none)) = [] := by simpa using none
        rw [empty]
        exact (counted_hostWritten h).before keep
      · exact (counted_hostWritten h).trans counted

theorem counted_replay (s : State) (h : ∃ w ∈ s.link.unacked, w.done ≠ none) :
    Counted s (replay s) kCompletionsWritten (s.link.unacked.filter fun w => w.done ≠ none).length := by
  obtain ⟨w, hw, hd⟩ := h
  rcases ctrGet_foldl_hostWritten s.link.unacked { s with link := { s.link with unacked := [] } } with ⟨none, -⟩ | counted
  · exact absurd (none w hw) hd
  · exact counted

/-! ### The retry window ends (R386) -/

/-- Link 0 down beyond its window while link 1 is up. -/
def linkDegraded (s : State) : State := { s with link := { s.link with degraded := bitSet s.link.degraded 0 } }

theorem exec_linkRetryExpiry_degraded {u e : Nat} {s : State} (hu : odN s kBrynqLinksUp ≠ 0) (he : s.link.error0 = some e)
    (hw : e + odN s kBrynqRetryWindow * 1000 ≤ max s.now u) (h1 : s.link.error1 = none) (hd : bitOf s.link.degraded 0 = false) :
    exec (.linkRetryExpiry u) s =
      .next (bump (linkDegraded (atTime s u)) kLinkDegradedEvents 1 none) := by
  have up : odN (atTime s u) kBrynqLinksUp ≠ 0 := hu
  have first : linkErr (atTime s u) 0 = some e := he
  have second : linkErr (atTime s u) 1 = none := h1
  have ended : decide (e + odN (atTime s u) kBrynqRetryWindow * 1000 ≤ (atTime s u).now) = true := decide_eq_true hw
  have sound : bitOf (atTime s u).link.degraded 0 = false := hd
  show execLinkRetryExpiry u s = _
  rw [execLinkRetryExpiry]
  refine congrArg Host.Outcome.next ((if_neg up).trans ?_)
  simp only [List.foldl_cons, List.foldl_nil, first, second, ended, sound]
  rfl

/-! ### Host loss where the module runs through (R405, R413) -/

/-- What the end of queue q's manifests keeps: the mode and the count of host losses, whose queue it is, and the other queues. -/
def LossStep (q : Nat) (s t : State) : Prop :=
  Spared kHostLossMode kHostLosses s t ∧ (queue t q).part = (queue s q).part ∧ ∀ r, r ≠ q → queue t r = queue s r

theorem LossStep.refl (q : Nat) (s : State) : LossStep q s s := ⟨.refl, rfl, fun _ _ => rfl⟩
theorem LossStep.trans {q : Nat} {s t u : State} (a : LossStep q s t) (b : LossStep q t u) : LossStep q s u :=
  ⟨a.1.trans b.1, b.2.1.trans a.2.1, fun r h => (b.2.2 r h).trans (a.2.2 r h)⟩

theorem queue_congr {s t : State} (h : t.queues = s.queues) (q : Nat) : queue t q = queue s q := by simp only [queue, h]
theorem lossStep_of_queues {q : Nat} {s t : State} (h : Spared kHostLossMode kHostLosses s t) (e : t.queues = s.queues) : LossStep q s t :=
  ⟨h, by rw [queue_congr e], fun r _ => queue_congr e r⟩

theorem lossStep_setQueue {q : Nat} {s : State} {v : HQueue} (h : v.part = (queue s q).part) : LossStep q s (setQueue s q v) :=
  ⟨spared_of_same rfl rfl, by rw [queue_setQueue_same, h], fun _ hr => queue_setQueue_ne s v hr⟩

theorem lossStep_bump {q : Nat} {s : State} {x n : Nat} {p : Option Nat} (hp : ∀ q, p = some q → q < 61) (h : kHostLosses ≠ x) :
    LossStep q s (bump s x n p) := lossStep_of_queues (spared_bump hp h) (bump_queues ..)

theorem lossStep_manifestParts {q : Nat} {s : State} (n : Nat) (l : List (Nat × Status)) (st : Status) :
    LossStep q s (manifestParts s q n l st) := lossStep_setQueue rfl

theorem lossStep_noteRefusal {q : Nat} {s : State} (st : Status) : LossStep q s (noteRefusal s q st) := by
  unfold noteRefusal
  exact lossStep_setQueue rfl

theorem lossStep_retain {q : Nat} {s : State} (l : List Completion) : LossStep q s (retain s q l) := by
  unfold retain
  generalize hv : queue s q = v
  have kept : LossStep q s (setQueue s q { v with retained := v.retained ++ l.take (1024 - v.retained.length) }) :=
    lossStep_setQueue (by rw [hv])
  exact kept.trans (lossStep_bump (by simp) (by decide))

theorem domainKey_ne (d : Nat) : kHostLossMode ≠ kDomainState d := by
  unfold kHostLossMode kDomainState; omega

theorem lossStep_loseCopy {q : Nat} {s : State} {p : Nat} (hp : p < 61) (b : List Byte) : LossStep q s (loseCopy s p b) := by
  have one (q : Nat) (h : some p = some q) : q < 61 := by cases h; exact hp
  have queues (s : State) (a n : Nat) : (storePoison (touch s a n).1 a n (some p)).1.queues = s.queues :=
    steps_storePoison.queues_eq.trans steps_touch.queues_eq
  unfold loseCopy
  split
  · exact .refl _ _
  · generalize copyParts (mB b 20 4) = l
    induction l generalizing s with
    | nil => exact .refl _ _
    | cons r l ih =>
      refine .trans ?_ ih
      dsimp only
      split
      · exact .refl _ _
      · have allowed := spared_writeAllowed (k := kHostLossMode) (c := kHostLosses) (s := s) hp (by decide) (mB b 12 8 + r.1) r.2
        have same : (writeAllowed s p (mB b 12 8 + r.1) r.2).1.queues = s.queues := steps_writeAllowed.queues_eq
        refine lossStep_of_queues ?_ ?_
        all_goals
          generalize writeAllowed s p (mB b 12 8 + r.1) r.2 = x at allowed same ⊢
          split
        · exact (allowed.trans (spared_touch domainKey_ne (by decide) _ _)).trans (spared_storePoison one (by decide) (by decide) _ _)
        · exact allowed
        · exact (queues _ _ _).trans same
        · exact same

theorem lossStep_loseManifest {q : Nat} {s : State} (h : (queue s q).part < 61) (x : Started) : LossStep q s (loseManifest s q x) := by
  have one (p : Nat) (e : some (queue s q).part = some p) : p < 61 := by cases e; exact h
  unfold loseManifest
  split
  · exact .refl _ _
  · split
    · dsimp only
      split
      · exact .refl _ _
      · exact lossStep_manifestParts _ _ _
    · extract_lets v inside st
      clear_value st inside
      split
      · refine .trans (.trans ?_ (lossStep_noteRefusal _)) (lossStep_manifestParts _ _ _)
        split
        · exact .refl _ _
        · exact lossStep_bump one (by decide)
      · exact (lossStep_loseCopy h _).trans (lossStep_manifestParts _ _ _)

/-- Every queue that is not disabled belongs to one of the 40 partitions. -/
def QueuesOwned (s : State) : Prop := ∀ q, (queue s q).state ≠ 0 → (queue s q).part < 40

theorem queuesOwned_of_table {s : State} (h : ∀ x ∈ s.queues, x.2.part < 40) : QueuesOwned s := by
  intro q hq
  unfold Machine.queue at hq ⊢
  generalize s.queues = l at h hq ⊢
  induction l with
  | nil => exact absurd rfl hq
  | cons y l ih =>
    obtain ⟨i, v⟩ := y
    by_cases hi : i = q
    · rw [tget, if_pos hi]; exact h _ (.head _)
    · rw [tget, if_neg hi] at hq ⊢
      exact ih (fun z hz => h z (.tail _ hz)) hq

theorem lossStep_orphan {q : Nat} {s : State} (h : QueuesOwned s) : LossStep q s (orphan s q) := by
  unfold orphan
  dsimp only
  split
  next => exact .refl _ _
  next hs =>
    have owned : (queue s q).part < 61 := by
      have := h q fun e => hs (.inl e)
      omega
    have gone (l : List Started) (t : State) (ht : LossStep q s t) : LossStep q s (l.foldl (fun s x => loseManifest s q x) t) := by
      induction l generalizing t with
      | nil => exact ht
      | cons x l ih => exact ih _ (ht.trans (lossStep_loseManifest (ht.2.1 ▸ owned) x))
    have lost := gone (queue s q).started s (.refl q s)
    generalize (queue s q).started.foldl (fun s x => loseManifest s q x) s = t at lost ⊢
    have orphaned : LossStep q t (setQueue t q { queue t q with state := 3, retry := none, waiting := [] }) := lossStep_setQueue rfl
    exact (lost.trans orphaned).trans (lossStep_retain _)

theorem LossStep.owned {q : Nat} {s t : State} (a : LossStep q s t) (h : QueuesOwned s) (hq : (queue s q).state = 0 → (queue t q).state = 0) :
    QueuesOwned t := by
  intro r hr
  by_cases e : r = q
  · subst e; rw [a.2.1]; exact h r fun z => hr (hq z)
  · rw [a.2.2 r e] at hr ⊢; exact h r hr

theorem orphan_disabled {q : Nat} {s : State} (h : (queue s q).state = 0) : orphan s q = s := if_pos (.inl h)

theorem spared_orphanAll {s : State} (h : ∀ x ∈ s.queues, x.2.part < 40) : Spared kHostLossMode kHostLosses s (orphanAll s) := by
  have all (l : Tab HQueue) (t : State) (ht : QueuesOwned t) : Spared kHostLossMode kHostLosses t (l.foldl (fun s x => orphan s x.1) t) := by
    induction l generalizing t with
    | nil => exact .refl
    | cons x l ih =>
      have one := lossStep_orphan (q := x.1) ht
      exact one.1.trans (ih _ (one.owned ht fun e => by rw [orphan_disabled e]; exact e))
  unfold orphanAll
  have each := all s.queues s (queuesOwned_of_table h)
  generalize s.queues.foldl (fun s x => orphan s x.1) s = t at each ⊢
  exact (each.trans (spared_bump (x := kHostWritesDropped) (n := t.link.unacked.length) (by simp) (by decide))).trans
    (.trans (t := { bump t kHostWritesDropped t.link.unacked.length none with link := { t.link with unacked := [] } })
      (spared_of_same rfl rfl) (spared_odSet (by decide)))

/-- The state after a host loss that the module runs through. -/
def runThrough (s : State) (cause : Nat) : State :=
  odSet { orphanAll (bump s kHostLosses 1 none) with link := { (orphanAll (bump s kHostLosses 1 none)).link with
    lossCause := cause, holdEntryTick := tickNow (orphanAll (bump s kHostLosses 1 none)) } } kHoldState 3

theorem hostLoss_runThrough {s : State} {cause : Nat} (h0 : odN s kHoldState = 0) (hs : starting s = false) (hm : odN s kHostLossMode = 1)
    (hq : ∀ x ∈ s.queues, x.2.part < 40) : hostLoss s cause = runThrough s cause := by
  have kept : Spared kHostLossMode kHostLosses (bump s kHostLosses 1 none) (orphanAll (bump s kHostLosses 1 none)) :=
    spared_orphanAll (by rw [bump_queues]; exact hq)
  have mode : odN (orphanAll (bump s kHostLosses 1 none)) kHostLossMode = 1 := by rw [kept.1, odN_bump, hm]
  unfold hostLoss enterLoss runThrough
  rw [if_neg (by rw [h0]; decide), if_neg (by simp [h0, hs])]
  exact if_pos mode

theorem runThrough_counted {s : State} (cause : Nat) (hq : ∀ x ∈ s.queues, x.2.part < 40) : Counted s (runThrough s cause) kHostLosses 1 := by
  have kept : Spared kHostLossMode kHostLosses (bump s kHostLosses 1 none) (orphanAll (bump s kHostLosses 1 none)) :=
    spared_orphanAll (by rw [bump_queues]; exact hq)
  exact (counted_bump s kHostLosses none).before kept.2

theorem exec_linkRetryExpiry_lost {u e : Nat} {s : State} (hu : odN s kBrynqLinksUp = 0) (he : s.link.error0 = some e)
    (hw : e + odN s kBrynqRetryWindow * 1000 ≤ max s.now u) : exec (.linkRetryExpiry u) s = .next (hostLoss (atTime s u) 1) := by
  have down : odN (atTime s u) kBrynqLinksUp = 0 := hu
  have first : linkErr (atTime s u) 0 = some e := he
  have ended : decide (e + odN (atTime s u) kBrynqRetryWindow * 1000 ≤ (atTime s u).now) = true := decide_eq_true hw
  show execLinkRetryExpiry u s = _
  rw [execLinkRetryExpiry]
  refine congrArg Host.Outcome.next ((if_pos down).trans ?_)
  simp only [first, ended, Bool.true_or, if_true]

end Sys2Proof.Machine

open Sys2Proof Sys2Proof.Machine

/-- Settles O43: the links' registers are read off each result; a loss that is run through ends the queues' manifests, which counts nothing
among the host losses. -/
theorem linksFailAndReturn : Obligations.LinksFailAndReturn := by
  unfold Obligations.LinksFailAndReturn
  refine ⟨?error, ?retrained, ?degraded, ?lost, fun _ _ => rfl⟩
  case error =>
    intro l u s hl h
    refine ⟨_, exec_linkError_up hl h, ?_, ?_, counted_bump (linkFailed (atTime s u) l) _ _, ?_, ?_⟩
    · rw [odN_bump, linkFailed]; exact odN_odSet_same (atTime s u) _ _
    · rw [linkErr_congr (bump_link ..), linkFailed, linkErr_setLinkErr]; rfl
    · exact .trans (t := linkFailed (atTime s u) l) (odKept_odSet (atTime s u) _ (by simp)) (odKept_bump _ _ _ _ _)
    · rw [bump_eq]; rfl
  case retrained =>
    intro l u s hl hr hd hn
    obtain ⟨err, degraded, unacked⟩ := linkTrained_link (atTime s u) l
    have up : odN (linkTrained (atTime s u) l) kBrynqLinksUp = bitSet (odN s kBrynqLinksUp) l := odN_odSet_same (atTime s u) _ _
    have kept : OdKept [kBrynqLinksUp] s (linkTrained (atTime s u) l) := odKept_odSet (atTime s u) (bitSet (odN s kBrynqLinksUp) l) (by simp)
    have frame : linkTrained (atTime s u) l = { s with
      now := max s.now u, od := (linkTrained (atTime s u) l).od, link := (linkTrained (atTime s u) l).link } := rfl
    have out : (linkTrained (atTime s u) l).out = s.out := rfl
    have counts := counted_replay (linkTrained (atTime s u) l)
    have before : ctrGet (linkTrained (atTime s u) l) kCompletionsWritten 0 = ctrGet s kCompletionsWritten 0 := rfl
    refine ⟨_, exec_linkRetrainDone_up hl hr hd hn, ?_⟩
    generalize linkTrained (atTime s u) l = t at err degraded unacked up kept frame out counts before ⊢
    have same := replay_eq t
    rw [unacked] at counts
    refine ⟨?_, ?_, ?_, ?_, ?_, ?_, ?_, ?_⟩
    · rw [same]; exact up
    · rw [same]; exact err
    · rw [same]; exact degraded
    · rw [same]
    · rw [same]; exact kept
    · rw [same, unacked, out, List.map_reverse]; rfl
    · exact fun h => (counts h).after before
    · rw [same, frame]
  case degraded =>
    intro u e s hu he hw h1 hd
    refine ⟨_, exec_linkRetryExpiry_degraded hu he hw h1 hd, ?_, ?_, ?_⟩
    · rw [bump_link]; rfl
    · exact counted_bump (linkDegraded (atTime s u)) _ _
    · have frame : linkDegraded (atTime s u) = { s with now := max s.now u, link := (linkDegraded (atTime s u)).link } := rfl
      generalize linkDegraded (atTime s u) = t at frame ⊢
      rw [bump_link]
      exact (bump_eq t _ _ _).trans (congrArg (fun x : State => { x with ctr := (bump t kLinkDegradedEvents 1 none).ctr }) frame)
  case lost =>
    intro u e s hu he hw h0 hs hm hq
    refine ⟨_, (exec_linkRetryExpiry_lost hu he hw).trans
      (congrArg Host.Outcome.next (hostLoss_runThrough (s := atTime s u) h0 hs hm hq)), ?_, rfl, runThrough_counted (s := atTime s u) 1 hq⟩
    rw [runThrough, odN_odSet_same]

end

section
/-! O44: hold, adoption and run-through (R406 to R410, R413, R530, R531). -/

namespace Sys2Proof.Machine

-- Checked one after another: the check allows too few threads for more.
set_option Elab.async false

/-! ### Every sequencer is held at the boundary (R406 step 2) -/

/-- A consist as the boundary finds it. -/
def heldAtBoundary (c : Consist) : Consist :=
  if c.pstate = .running ∧ c.hold = none then { c with hold := some .boundary } else c

theorem tget_map {α : Type} (d : α) (f : α → α) (hd : f d = d) (l : Tab α) (k : Nat) :
    tget d (l.map fun x => (x.1, f x.2)) k = f (tget d l k) := by
  induction l with
  | nil => exact hd.symm
  | cons x l ih =>
    rw [List.map_cons, tget, tget, ih]
    split <;> rfl

/-- The state in which all sequencers have stopped. -/
def quiesced (s : State) : State :=
  { s with link := { s.link with quiesced := true }, consists := s.consists.map fun x => (x.1, heldAtBoundary x.2) }

theorem con_quiesced (s : State) (k : Nat) : con (quiesced s) k = heldAtBoundary (con s k) := tget_map Consist.reset heldAtBoundary rfl _ k

theorem exec_holdQuiesce_begun {s : State} (h : odN s kHoldState = 1) (hq : s.link.quiesced = false) :
    exec .holdQuiesce s = .next (quiesced s) :=
  congrArg Host.Outcome.next (if_neg (by simp [h, hq]))

/-! ### The hold record (R406 steps 3 and 4, R407) -/

theorem moveDomains_keeps (src dst : Nat) (s : State) : OdKept (holdDomains.map fun d => kDomainState (d + 1)) s (moveDomains s src dst) := by
  unfold moveDomains
  refine odKept_foldl (fun s d => ?_) _ _
  split
  · exact odKept_setDom s d dst
  · exact .refl _ _

/-- A domain that hold moves, and that is there, reads the state it was moved to. -/
theorem domState_moveDomains {src dst : Nat} {s : State} {d : Nat} (hd : d ∈ holdDomains) (h : domState s d = src)
    (av : d < 40 → bitOf (odN s kConsistAvailableMap) d = true) : domState (moveDomains s src dst) d = dst := by
  unfold moveDomains
  generalize holdDomains = l at hd
  have keep : ∀ (l : List Nat) (s : State), domState s d = dst → domState (l.foldl (fun s d =>
      if odN s (kDomainState (d + 1)) = src ∧ (d < 40 → bitOf (odN s kConsistAvailableMap) d) then odSet s (kDomainState (d + 1)) dst else s) s) d = dst := by
    intro l
    induction l with
    | nil => exact fun _ h => h
    | cons e l ih =>
      intro s h
      refine ih _ ?_
      dsimp only
      split
      · exact (domState_setDom s e d dst).trans (by split <;> simp [h])
      · exact h
  induction l generalizing s with
  | nil => simp at hd
  | cons e l ih =>
    rw [List.foldl_cons]
    by_cases he : d = e
    · subst he
      refine keep l _ ?_
      rw [if_pos ⟨h, av⟩]
      exact (domState_setDom s d d dst).trans (if_pos rfl)
    · have mem : d ∈ l := (List.mem_cons.mp hd).resolve_left he
      split
      · have same : domState (setDom s e dst) d = src := by rw [domState_setDom, if_neg he, h]
        have map : odN (setDom s e dst) kConsistAvailableMap = odN s kConsistAvailableMap :=
          (odKept_setDom s e dst).odN_eq (by simp [kDomainState, kConsistAvailableMap]; omega)
        exact ih same (by rw [← map] at av; exact av) mem
      · exact ih h av mem

/-- The record's digest stands, and the depot's write buffer has been programmed. -/
def digestStands (s : State) (d : List Byte) : State := depotProgrammed { s with link := { s.link with holdDigest := d } }

/-- The state in hold. -/
def inHoldNow (s : State) (d : List Byte) : State := odSet (moveDomains (digestStands s d) 0 1) kHoldState 2

theorem inHoldNow_kept (s : State) (d : List Byte) : odN (inHoldNow s d) kHoldState = 2 ∧ (inHoldNow s d).link.holdDigest = d ∧
    inHoldNow s d = { s with
      od := (inHoldNow s d).od, link := { s.link with holdDigest := (inHoldNow s d).link.holdDigest }, depot := { s.depot with buffer := [] } } := by
  have frame := steps_moveDomains (s := digestStands s d) (src := 0) (dst := 1)
  unfold inHoldNow
  generalize moveDomains (digestStands s d) 0 1 = t at frame ⊢
  rw [frame.frame]
  exact ⟨odN_odSet_same _ _ _, rfl, rfl⟩

theorem domState_inHoldNow (s : State) (d : List Byte) {x : Nat} (hx : x ∈ holdDomains) (h : domState s x = 0)
    (av : x < 40 → bitOf (odN s kConsistAvailableMap) x = true) : domState (inHoldNow s d) x = 1 :=
  (odN_odSet_ne _ _ (by unfold kDomainState kHoldState; omega)).trans
    (domState_moveDomains (s := digestStands s d) hx h av)

theorem exec_holdRecordWrite_ended {s : State} (h : odN s kHoldState = 1) (hq : s.link.quiesced = true) (hd : drainedAll s = true) :
    exec .holdRecordWrite s = .next (inHoldNow s (recordDigest s)) :=
  congrArg Host.Outcome.next (if_neg (by simp [h, hq, hd]))

theorem recordDigest_length (s : State) : (recordDigest s).length = 32 := shake256_length _ _

/-! ### Adoption (R409, R410) -/

/-- The state after the host named an epoch and a digest. -/
def adoptNamed (s : State) (e : Nat) (d : List Byte) : State := { s with link := { s.link with adoptEpoch := e, adoptDigest := d } }

theorem recordDigest_adoptNamed (s : State) (e : Nat) (d : List Byte) : recordDigest (adoptNamed s e d) = recordDigest s := rfl

theorem exec_adopt_taken {e : Nat} {d : List Byte} {s : State} (he : e < 2 ^ 64) (hd : d.length = 32) (h : odN s kHoldState = 2)
    (epoch : e = s.link.holdEpoch) (digest : d = s.link.holdDigest) (gone : s.link.recordGone = false)
    (record : recordDigest s = s.link.holdDigest) : exec (.adopt e d) s = .next (odSet (adoptNamed s e d) kHoldState 4) := by
  have hold : ¬ odN (adoptNamed s e d) kHoldState ≠ 2 := fun n => n h
  have authentic : ¬ (e ≠ s.link.holdEpoch ∨ d ≠ s.link.holdDigest ∨ s.link.recordGone = true ∨ recordDigest (adoptNamed s e d) ≠ s.link.holdDigest) := by
    rw [recordDigest_adoptNamed]
    simp [epoch, digest, gone, record]
  show execAdopt e d s = _
  rw [execAdopt, decide_eq_true ⟨he, hd⟩, guardWf_true]
  refine congrArg Host.Outcome.next (if_neg ?_)
  show ¬ (if odN (adoptNamed s e d) kHoldState ≠ 2 then Status.notReady else if e ≠ s.link.holdEpoch ∨ d ≠ s.link.holdDigest ∨
    s.link.recordGone = true ∨ recordDigest (adoptNamed s e d) ≠ s.link.holdDigest then Status.authFail else Status.ok) ≠ Status.ok
  rw [if_neg hold, if_neg authentic]
  exact fun n => n rfl

/-- The state after an adoption that was refused as not authentic. -/
def adoptRefused (s : State) (e : Nat) (d : List Byte) : State :=
  bump { adoptNamed s e d with link := { (adoptNamed s e d).link with adoptStatus := stCode .authFail } } kAdoptionFailures 1 none

theorem exec_adopt_refused {e : Nat} {d : List Byte} {s : State} (he : e < 2 ^ 64) (hd : d.length = 32) (h : odN s kHoldState = 2)
    (bad : e ≠ s.link.holdEpoch ∨ d ≠ s.link.holdDigest ∨ s.link.recordGone = true ∨ recordDigest s ≠ s.link.holdDigest) :
    exec (.adopt e d) s = .next (adoptRefused s e d) := by
  have hold : ¬ odN (adoptNamed s e d) kHoldState ≠ 2 := fun n => n h
  have status : (if odN (adoptNamed s e d) kHoldState ≠ 2 then Status.notReady else if e ≠ s.link.holdEpoch ∨ d ≠ s.link.holdDigest ∨
      s.link.recordGone = true ∨ recordDigest (adoptNamed s e d) ≠ s.link.holdDigest then Status.authFail else Status.ok) = .authFail := by
    rw [if_neg hold, recordDigest_adoptNamed, if_pos bad]
  show execAdopt e d s = _
  rw [execAdopt, decide_eq_true ⟨he, hd⟩, guardWf_true]
  refine congrArg Host.Outcome.next ((if_pos ?_).trans ?_)
  · exact fun n => absurd (status.symm.trans n) (by decide)
  · exact congrArg (fun st : Status => bump { adoptNamed s e d with link := { (adoptNamed s e d).link with adoptStatus := stCode st } }
      kAdoptionFailures 1 none) status

/-! ### Frames that hold kept back go out (R379) -/

/-- Every QP belongs to whom it belonged to. -/
def OwnersKept (s t : State) : Prop := ∀ r, (qp t r).part = (qp s r).part

theorem OwnersKept.refl (s : State) : OwnersKept s s := fun _ => rfl
theorem OwnersKept.trans {s t u : State} (a : OwnersKept s t) (b : OwnersKept t u) : OwnersKept s u := fun r => (b r).trans (a r)

theorem ownersKept_of_qps {s t : State} (h : t.qps = s.qps) : OwnersKept s t := fun r => by simp only [qp, h]

theorem ownersKept_setQp {s : State} {q : Nat} {v : Qp} (h : v.part = (qp s q).part) : OwnersKept s (setQp s q v) := by
  intro r
  by_cases e : r = q
  · subst e; exact (congrArg Qp.part (tget_tset_same _ _ _ _)).trans h
  · exact congrArg Qp.part (tget_tset_ne _ _ _ e)

theorem ownersKept_frames {s : State} {q : Nat} {l : List TxFrame} : OwnersKept s (setQp s q { qp s q with frames := l }) := ownersKept_setQp rfl
theorem ownersKept_setPort {s : State} {n : Nat} {v : Port} : OwnersKept s (setPort s n v) := ownersKept_of_qps rfl
theorem ownersKept_bump {s : State} {k n : Nat} {p : Option Nat} : OwnersKept s (bump s k n p) := ownersKept_of_qps (bump_qps _ _ _ _)

/-- What handing frames over keeps: the owners, and every counter but the retransmissions' (R363). -/
def Pumped (s t : State) : Prop := OwnersKept s t ∧ ∀ k, k ≠ kHrtRetransmits → ctrGet t k 0 = ctrGet s k 0

theorem Pumped.refl (s : State) : Pumped s s := ⟨.refl s, fun _ _ => rfl⟩
theorem Pumped.trans {s t u : State} (a : Pumped s t) (b : Pumped t u) : Pumped s u :=
  ⟨a.1.trans b.1, fun k h => (b.2 k h).trans (a.2 k h)⟩

theorem pumped_pumpAgain {s : State} {q : Nat} (h : (qp s q).part < 61) : Pumped s (pumpAgain s q) := by
  unfold pumpAgain
  dsimp only
  split
  · exact .refl s
  · refine ⟨?_, fun k hk => ?_⟩
    · exact (OwnersKept.trans ownersKept_frames ownersKept_setPort).trans ownersKept_bump
    · exact (ctrGet_bump_ne _ _ 0 _ hk (by decide) (fun p e => by cases e; exact h)).trans rfl

theorem pumped_pump {s : State} {q : Nat} (h : (qp s q).part < 61) : Pumped s (pump s q) := by
  have first := pumped_pumpAgain h
  unfold pump
  generalize pumpAgain s q = t at first ⊢
  have each (l : List TxFrame) (x : State × Bool × Bool) (hx : Pumped s x.1) : Pumped s (l.foldl (fun (x : State × Bool × Bool) f =>
      let (s, stop, full) := x
      let v := qp s q
      if f.sent ≠ none then x
      else if mayHand s q v f ∧ !full ∧ (f.hdr.timetabled ∨ !stop) then
        let s := setQp s q { v with frames := v.frames.map fun g => if g.hdr.psn = f.hdr.psn then { g with sent := some s.now } else g }
        let n := qpPort q
        (setPort s n { port s n with txq := (port s n).txq ++ [macFrame s v q f] }, stop, full)
      else (s, stop || !fitsWindow v f, full || !txRoom s q v f)) x).1 := by
    induction l generalizing x with
    | nil => exact hx
    | cons f l ih =>
      obtain ⟨y, stop, full⟩ := x
      refine ih _ ?_
      dsimp only
      split
      · exact hx
      · split
        · exact hx.trans ⟨.trans ownersKept_frames ownersKept_setPort, fun _ _ => rfl⟩
        · exact hx
  exact each _ (t, false, _) first

/-- All of them, one after another. -/
theorem pumped_all {s : State} (l : Tab Qp) (h : ∀ x ∈ l, (qp s x.1).part < 61) : Pumped s (l.foldl (fun s x => pump s x.1) s) := by
  have each (l : Tab Qp) (t : State) (ht : Pumped s t) (h : ∀ x ∈ l, (qp s x.1).part < 61) : Pumped s (l.foldl (fun s x => pump s x.1) t) := by
    induction l generalizing t with
    | nil => exact ht
    | cons x l ih =>
      refine ih _ (ht.trans (pumped_pump ?_)) fun y hy => h y (.tail _ hy)
      rw [ht.1]; exact h x (.head _)
  exact each l s (.refl s) h

theorem qp_of_mem {s : State} (h : ∀ x ∈ s.qps, x.2.part < 40) {x : Nat × Qp} (hx : x ∈ s.qps) : (qp s x.1).part < 61 := by
  unfold qp
  generalize s.qps = l at h hx ⊢
  induction l with
  | nil => simp at hx
  | cons y l ih =>
    by_cases e : y.1 = x.1
    · rw [tget, if_pos e]
      have := h y (.head _)
      omega
    · rw [tget, if_neg e]
      exact ih (fun z hz => h z (.tail _ hz)) ((List.mem_cons.mp hx).resolve_left fun e' => e (e' ▸ rfl))

/-- The state when an adoption has ended, before the frames go out. -/
def adoptionEnded (s : State) : State :=
  bump { timersAfresh (odSet (moveDomains s 1 0) kHoldState 0) with
    link := { (timersAfresh (odSet (moveDomains s 1 0) kHoldState 0)).link with adoptStatus := 0, quiesced := false, relost := false } }
    kAdoptions 1 none

theorem exec_adoptionEnd_kept {s : State} (h : odN s kHoldState = 4) (hr : s.link.relost = false) :
    exec .adoptionEnd s = .next ((adoptionEnded s).qps.foldl (fun s x => pump s x.1) (adoptionEnded s)) := by
  show execAdoptionEnd s = _
  rw [execAdoptionEnd]
  refine congrArg Host.Outcome.next ((if_neg (fun n => n h)).trans (if_neg ?_))
  rw [hr]; decide

theorem adoptionEnded_kept (s : State) : odN (adoptionEnded s) kHoldState = 0 ∧ (adoptionEnded s).qps = s.qps ∧
    (adoptionEnded s).link = { s.link with adoptStatus := 0, quiesced := false, relost := false } ∧ Counted s (adoptionEnded s) kAdoptions 1 ∧
    Steps [.od, .ctr, .link, .parts] s (adoptionEnded s) := by
  have moved : Steps [.od] s (odSet (moveDomains s 1 0) kHoldState 0) := steps_moveDomains.andThen steps_odSet
  have zero : odN (odSet (moveDomains s 1 0) kHoldState 0) kHoldState = 0 := odN_odSet_same _ _ _
  unfold adoptionEnded
  generalize odSet (moveDomains s 1 0) kHoldState 0 = t at moved zero ⊢
  have fresh := steps_timersAfresh (s := t)
  generalize timersAfresh t = u at fresh ⊢
  have all : Steps [.od, .ctr, .link, .parts] s u := moved.mono.trans fresh.mono
  refine ⟨?_, ?_, ?_, ?_, ?_⟩
  · rw [odN_bump]; exact (odN_congr fresh.od_eq _).trans zero
  · rw [bump_qps]; exact all.qps_eq
  · rw [bump_link, (moved.mono.trans fresh.mono : Steps [.od, .parts] s u).link_eq]
  · refine (counted_bump _ _ _).after ?_
    exact ctrGet_congr ((moved.mono.trans fresh.mono : Steps [.od, .parts] s u).ctr_eq) _ _
  · exact (all.andThen with_link).andThen steps_bump

/-! ### Run-through (R413) -/

/-- The state after a host re-attached. -/
def reAttached (s : State) : State := odSet { s with link := { s.link with adoptStatus := 0 } } kHoldState 0

theorem exec_reAttach_taken {s : State} (h : odN s kHoldState = 3) (he : s.link.adoptEpoch = s.link.holdEpoch) :
    exec .reAttach s = .next (reAttached s) := by
  have status : (if odN s kHoldState ≠ 3 then Status.notReady else if s.link.adoptEpoch ≠ s.link.holdEpoch then .authFail else .ok) = .ok := by
    rw [if_neg (fun n => n h), if_neg (fun n => n he)]
  show execReAttach s = _
  rw [execReAttach, status]
  rfl

end Sys2Proof.Machine

open Sys2Proof Sys2Proof.Machine

/-- Settles O44: each command's result is written out; the frames handed over at the adoption's end keep the owners and every counter but
the retransmissions'. -/
theorem holdAndAdoption : Obligations.HoldAndAdoption := by
  unfold Obligations.HoldAndAdoption
  refine ⟨?quiesce, ?record, ?taken, ?refused, ?ended, ?attach⟩
  case quiesce =>
    intro s h hq
    refine ⟨_, exec_holdQuiesce_begun h hq, rfl, ?_, ?_, rfl⟩
    · intro k hr hn
      rw [con_quiesced, heldAtBoundary, if_pos ⟨hr, hn⟩]
    · intro k hk
      rw [con_quiesced, heldAtBoundary, if_neg (by rintro ⟨hr, hn⟩; exact hk.elim (· hr) (· hn))]
  case record =>
    intro s h hq hd
    have run := exec_holdRecordWrite_ended h hq hd
    have size := recordDigest_length s
    generalize recordDigest s = digest at run size ⊢
    obtain ⟨state, stands, frame⟩ := inHoldNow_kept s digest
    exact ⟨_, run, state, stands, (congrArg List.length stands).trans size, fun _ hx hz av => domState_inHoldNow s digest hx hz av, frame⟩
  case taken =>
    intro e d s he hd h epoch digest gone record
    exact ⟨_, exec_adopt_taken he hd h epoch digest gone record, odN_odSet_same _ _ _, odKept_odSet (adoptNamed s e d) 4 (by simp), rfl⟩
  case refused =>
    intro e d s he hd h bad
    refine ⟨_, exec_adopt_refused he hd h bad, ?_, ?_, ?_, ?_⟩
    · rw [adoptRefused, odN_bump]; exact h
    · rw [adoptRefused, bump_link]; rfl
    · exact counted_bump { adoptNamed s e d with link := { (adoptNamed s e d).link with adoptStatus := stCode .authFail } } _ _
    · rw [adoptRefused, bump_od]; rfl
  case ended =>
    intro s h hr
    obtain ⟨zero, qps, link, counted, frame⟩ := adoptionEnded_kept s
    refine ⟨_, exec_adoptionEnd_kept h hr, ?_⟩
    generalize adoptionEnded s = t at zero qps link counted frame ⊢
    have out : Steps [.ctr, .qps, .ports] t (t.qps.foldl (fun s x => pump s x.1) t) := .foldl .refl fun _ _ => steps_pump
    refine ⟨(odN_congr out.od_eq _).trans zero, out.link_eq.trans link, fun owned => ?_, ?_⟩
    · refine counted.before ((pumped_all t.qps fun x hx => ?_).2 _ (by decide))
      exact qp_of_mem (by rw [qps]; exact owned) hx
    · exact (frame.mono.trans out.mono : Steps [.od, .ctr, .link, .parts, .qps, .ports] s _).frame
  case attach =>
    intro s h he
    exact ⟨_, exec_reAttach_taken h he, odN_odSet_same _ _ _,
      .trans (t := { s with link := { s.link with adoptStatus := 0 } }) (odKept_of_od rfl) (odKept_odSet _ 0 (by simp)), rfl⟩

end

section
/-! O45, O47: host queues, their doorbells, and the manifests that they fetch (R392 to R396, R402). -/

namespace Sys2Proof.Machine

-- Checked one after another: the check allows too few threads for more.
set_option Elab.async false

/-! ### What writing completions keeps of a queue (R401, R402) -/

/-- A queue's state and error are as before. -/
def StateKept (q : Nat) (s t : State) : Prop := (queue t q).state = (queue s q).state ∧ (queue t q).lastError = (queue s q).lastError

theorem StateKept.refl (q : Nat) (s : State) : StateKept q s s := ⟨rfl, rfl⟩
theorem StateKept.trans {q : Nat} {s t u : State} (a : StateKept q s t) (b : StateKept q t u) : StateKept q s u :=
  ⟨b.1.trans a.1, b.2.trans a.2⟩

theorem stateKept_setQueue {q : Nat} {s : State} {v : HQueue} (h : v.state = (queue s q).state) (e : v.lastError = (queue s q).lastError) :
    StateKept q s (setQueue s q v) := ⟨by rw [queue_setQueue_same, h], by rw [queue_setQueue_same, e]⟩

theorem stateKept_putCompletion {q : Nat} {s : State} (c : Completion) : StateKept q s (putCompletion s q c) := by
  constructor <;> rw [queue_putCompletion]

theorem stateKept_flushOne (q : Nat) (s : State) : StateKept q s (flushOne q s) := by
  unfold flushOne
  dsimp only
  split
  · exact .refl q s
  · split
    · exact .trans (stateKept_setQueue (by rfl) (by rfl)) (stateKept_putCompletion _)
    · exact .trans (stateKept_setQueue (by rfl) (by rfl)) (stateKept_putCompletion _)
    · exact .refl q s

theorem stateKept_flushWaiting (q : Nat) (s : State) : StateKept q s (flushWaiting s q) := by
  unfold flushWaiting upto
  generalize List.range ((queue s q).retained.length + (queue s q).waiting.length) = l
  have each (l : List Nat) (t : State) (h : StateKept q s t) : StateKept q s (l.foldl (fun s _ => flushOne q s) t) := by
    induction l generalizing t with
    | nil => exact h
    | cons i l ih => exact ih _ (h.trans (stateKept_flushOne q t))
  exact each l s (.refl q s)

/-- A queue that is not orphaned keeps its state when a completion is delivered to it. -/
theorem stateKept_deliver {q : Nat} {s : State} (h : (queue s q).state ≠ 3) (c : Completion) (r : Bool) : StateKept q s (deliver s q c r) := by
  unfold deliver
  dsimp only
  rw [if_neg h]
  split
  · exact .refl q s
  · split
    · exact stateKept_putCompletion c
    · exact .trans (stateKept_setQueue (by rfl) (by rfl)) (stateKept_flushWaiting q _)

/-- With nothing retained and nothing waiting there is nothing to write. -/
theorem flushWaiting_empty {s : State} {q : Nat} (hr : (queue s q).retained = []) (hw : (queue s q).waiting = []) : flushWaiting s q = s := by
  rw [flushWaiting, hr, hw]; rfl

theorem queueStop_state (s : State) (q : Nat) (st : Status) :
    (queue (queueStop s q st) q).state = 2 ∧ (queue (queueStop s q st) q).lastError = stCode st := by
  unfold queueStop
  dsimp only
  have stopped : (queue (setQueue s q { queue s q with state := 2, lastError := stCode st, retry := none }) q) =
    { queue s q with state := 2, lastError := stCode st, retry := none } := queue_setQueue_same _ _ _
  have kept := stateKept_deliver (q := q) (s := setQueue s q { queue s q with state := 2, lastError := stCode st, retry := none })
    (by rw [stopped]; simp) ⟨stCode st, 0, (queue s q).seqExpected, 0, 0, 0, false⟩ false
  exact ⟨kept.1.trans (by rw [stopped]), kept.2.trans (by rw [stopped])⟩

/-! ### Descriptors and doorbells (R392, R394) -/

theorem exec_queueDescriptorWrite_open {q off : Nat} {bs : List Byte} {s : State} (hq : q < 256) (hl : off + bs.length ≤ 64)
    (hh : holding s = false) (he : (queue s q).enable = false) :
    exec (.queueDescriptorWrite q off bs) s = .next (setQueue s q (withDesc (queue s q) (patch (descRaw (queue s q)) off bs))) := by
  show execQueueDescriptorWrite q off bs s = _
  rw [execQueueDescriptorWrite, decide_eq_true ⟨hq, hl⟩, guardWf_true]
  refine congrArg Host.Outcome.next ((if_neg (by simp [hh])).trans (if_neg ?_))
  rw [he]
  simp

/-- A queue as `enable` 1 starts it. -/
def enabledQueue (v : HQueue) : HQueue :=
  { v with enable := true, state := 1, cqWritten := 0, seqExpected := v.seqNext, sqTail := v.seqNext, cqHead := 0, retry := none, lastError := 0 }

theorem exec_queueEnable_good {q : Nat} {s : State} (hq : q < 256) (hh : holding s = false) (hn : s.boot.noHost = false)
    (he : (queue s q).enable = false) (h1 : (queue s q).sqBase % 4096 = 0) (h2 : (queue s q).cqBase % 4096 = 0) (h3 : 6 ≤ (queue s q).sqOrder)
    (h4 : (queue s q).sqOrder ≤ 16) (h5 : 6 ≤ (queue s q).cqOrder) (h6 : (queue s q).cqOrder ≤ 16) (hr : (queue s q).reserved = 0)
    (ha : assigned s (queue s q).part = true) (hs : (queue s q).state ≠ 4) :
    exec (.queueEnable q) s = .next (countQueues (flushWaiting (setQueue s q (enabledQueue (queue s q))) q)) := by
  have good : (decide ((queue s q).sqBase % 4096 ≠ 0) || decide ((queue s q).cqBase % 4096 ≠ 0) || decide ((queue s q).sqOrder < 6) ||
      decide (16 < (queue s q).sqOrder) || decide ((queue s q).cqOrder < 6) || decide (16 < (queue s q).cqOrder) ||
      decide ((queue s q).reserved ≠ 0)) = false := by
    simp [h1, h2, h3, h4, h5, h6, hr]
  show execQueueEnable q s = _
  rw [execQueueEnable, decide_eq_true hq, guardWf_true]
  refine congrArg Host.Outcome.next ?_
  unfold enableQueue
  dsimp only
  rw [if_neg (by simp [hh, hn, he, hs]), good, ha]
  exact if_neg (fun n => n lowestStatus_ok_ok)

/-- A count of the queues sets one object. -/
theorem countQueues_kept (s : State) (q : Nat) : queue (countQueues s) q = queue s q ∧ OdKept [kHostQueuesEnabled] s (countQueues s) ∧
    countQueues s = { s with od := (countQueues s).od } := ⟨rfl, odKept_odSet s _ (by simp), rfl⟩

/-- Queue q set to v, as the statements speak of it. -/
theorem setQueue_kept (s : State) (q : Nat) (v : HQueue) : queue (setQueue s q v) q = v ∧
    (∀ r, r ≠ q → queue (setQueue s q v) r = queue s r) ∧ setQueue s q v = { s with queues := (setQueue s q v).queues } :=
  ⟨queue_setQueue_same s q v, fun _ h => queue_setQueue_ne s v h, rfl⟩

theorem countQueues_setQueue_kept (s : State) (q : Nat) (v : HQueue) : queue (countQueues (setQueue s q v)) q = v ∧
    (∀ r, r ≠ q → queue (countQueues (setQueue s q v)) r = queue s r) ∧ OdKept [kHostQueuesEnabled] s (countQueues (setQueue s q v)) ∧
    countQueues (setQueue s q v) = { s with od := (countQueues (setQueue s q v)).od, queues := (countQueues (setQueue s q v)).queues } :=
  ⟨queue_setQueue_same s q v, fun _ h => queue_setQueue_ne s v h, odKept_odSet (setQueue s q v) _ (by simp), rfl⟩

/-- An idle queue that `enable` 0 leaves disabled. -/
def disabledQueue (v : HQueue) : HQueue := { v with enable := false, state := 0, retry := none }

theorem setQueue_setQueue (s : State) (q : Nat) (v w : HQueue) (r : Nat) :
    queue (setQueue (setQueue s q v) q w) r = queue (setQueue s q w) r := by
  by_cases h : r = q
  · subst h; simp
  · rw [queue_setQueue_ne _ _ h, queue_setQueue_ne _ _ h, queue_setQueue_ne _ _ h]

theorem exec_queueDisable_idle {q : Nat} {s : State} (hq : q < 256) (hh : holding s = false) (he : (queue s q).enable = true)
    (h3 : (queue s q).state ≠ 3) (hs : (queue s q).started = []) (hw : (queue s q).waiting = []) (hr : (queue s q).retained = []) :
    exec (.queueDisable q) s = .next (countQueues (setQueue (setQueue s q { queue s q with enable := false, state := 4, retry := none }) q
      (disabledQueue (queue s q)))) := by
  show execQueueDisable q s = _
  rw [execQueueDisable, decide_eq_true hq, guardWf_true]
  refine congrArg Host.Outcome.next ((if_neg (by simp [hh, he])).trans ((if_neg h3).trans (congrArg countQueues ?_)))
  unfold drained
  dsimp only
  rw [queue_setQueue_same]
  exact if_pos ⟨rfl, hs, hw, hr⟩

theorem exec_doorbellSqTail_inside {q v : Nat} {s : State} (hq : q < 256) (hv : v < 2 ^ 32) (hh : holding s = false)
    (hi : (v + 2 ^ 32 - (queue s q).seqExpected) % 2 ^ 32 ≤ 2 ^ (queue s q).sqOrder) :
    exec (.doorbellSqTail q v) s = .next (setQueue s q { queue s q with sqTail := v }) := by
  show execDoorbellSqTail q v s = _
  rw [execDoorbellSqTail, decide_eq_true ⟨hq, hv⟩, guardWf_true]
  exact congrArg Host.Outcome.next ((if_neg (by simp [hh])).trans (if_neg fun n => absurd n.2 (Nat.not_lt.mpr hi)))

theorem exec_doorbellSqTail_ahead {q v : Nat} {s : State} (hq : q < 256) (hv : v < 2 ^ 32) (hh : holding s = false) (hs : (queue s q).state = 1)
    (ha : 2 ^ (queue s q).sqOrder < (v + 2 ^ 32 - (queue s q).seqExpected) % 2 ^ 32) :
    exec (.doorbellSqTail q v) s = .next (queueStop (setQueue s q { queue s q with sqTail := v }) q .malformed) := by
  show execDoorbellSqTail q v s = _
  rw [execDoorbellSqTail, decide_eq_true ⟨hq, hv⟩, guardWf_true]
  exact congrArg Host.Outcome.next ((if_neg (by simp [hh])).trans (if_pos ⟨hs, ha⟩))

theorem exec_doorbellCqHead_inside {q v : Nat} {s : State} (hq : q < 256) (hv : v < 2 ^ 32) (hh : holding s = false) (hs : (queue s q).state = 1)
    (hw : (queue s q).waiting = []) (hr : (queue s q).retained = [])
    (hi : ((queue s q).cqWritten + 2 ^ 32 - v) % 2 ^ 32 ≤ 2 ^ (queue s q).cqOrder) :
    exec (.doorbellCqHead q v) s = .next (setQueue s q { queue s q with cqHead := v }) := by
  have taken : queue (setQueue s q { queue s q with cqHead := v }) q = { queue s q with cqHead := v } := queue_setQueue_same _ _ _
  show execDoorbellCqHead q v s = _
  rw [execDoorbellCqHead, decide_eq_true ⟨hq, hv⟩, guardWf_true]
  refine congrArg Host.Outcome.next ((if_neg (by simp [hh])).trans ((if_neg (Nat.not_lt.mpr hi)).trans ?_))
  rw [flushWaiting_empty (by rw [taken]; exact hr) (by rw [taken]; exact hw), drained_of_state_ne (by rw [taken]; simp [hs])]

theorem exec_doorbellCqHead_beyond {q v : Nat} {s : State} (hq : q < 256) (hv : v < 2 ^ 32) (hh : holding s = false)
    (hb : 2 ^ (queue s q).cqOrder < ((queue s q).cqWritten + 2 ^ 32 - v) % 2 ^ 32) :
    exec (.doorbellCqHead q v) s = .next (bump s kDoorbellErrors 1 none) := by
  show execDoorbellCqHead q v s = _
  rw [execDoorbellCqHead, decide_eq_true ⟨hq, hv⟩, guardWf_true]
  exact congrArg Host.Outcome.next ((if_neg (by simp [hh])).trans (if_pos hb))

/-! ### Manifests that are fetched (R394, R396) -/

/-- A queue with one more manifest fetched. -/
def fetchedQueue (v : HQueue) (b : List Byte) : HQueue :=
  { v with started := v.started ++ [⟨v.seqExpected, b, none, .ok, [], [], []⟩], seqExpected := (v.seqExpected + 1) % 2 ^ 32, retry := none }

theorem fetched_kept (s : State) (q : Nat) (b : List Byte) : queue (fetched s q b) q = fetchedQueue (queue s q) b ∧
    (∀ r, r ≠ q → queue (fetched s q b) r = queue s r) ∧ Counted s (fetched s q b) kManifestsFetched 1 ∧ CtrKept [kManifestsFetched] s (fetched s q b) ∧
    fetched s q b = { s with ctr := (fetched s q b).ctr, queues := (fetched s q b).queues } := by
  have one : fetched s q b = bump (setQueue s q (fetchedQueue (queue s q) b)) kManifestsFetched 1 none := rfl
  have set := setQueue_kept s q (fetchedQueue (queue s q) b)
  have counted := counted_bump (setQueue s q (fetchedQueue (queue s q) b)) kManifestsFetched (n := 1) none
  have others : CtrKept [kManifestsFetched] s (bump (setQueue s q (fetchedQueue (queue s q) b)) kManifestsFetched 1 none) :=
    .trans (t := setQueue s q (fetchedQueue (queue s q) b)) (ctrKept_of_ctr rfl) (ctrKept_bump _ 1 none (by simp) (by simp))
  rw [one]
  generalize setQueue s q (fetchedQueue (queue s q) b) = t at set counted others ⊢
  obtain ⟨here, there, frame⟩ := set
  refine ⟨?_, fun r h => ?_, ?_, others, ?_⟩
  · rw [queue_congr (bump_queues ..), here]
  · rw [queue_congr (bump_queues ..), there r h]
  · exact counted.after (by rw [frame]; rfl)
  · rw [bump_queues]
    exact (bump_eq t _ _ _).trans (congrArg (fun x : State => { x with ctr := (bump t kManifestsFetched 1 none).ctr }) frame)

theorem exec_manifestFetch_slots {q n : Nat} {bs : List Byte} {s : State} (hq : q < 256) (h1 : bs.length % 64 = 0) (h2 : 64 ≤ bs.length)
    (h3 : bs.length ≤ 1024) (hs : (queue s q).state = 1) (ht : (queue s q).seqExpected ≠ (queue s q).sqTail) (hr : (queue s q).retry = none)
    (hf : slotFree (queue s q) = true) (hn : n = min (bs.length / 64) (fetchCount (queue s q))) :
    exec (.manifestFetch q bs) s = .next (fetchSlots q ((List.range n).map fun i => (bs.drop (64 * i)).take 64)
      (emit s (.hostRead (slotAddr (queue s q) (queue s q).seqExpected) (64 * n)))) := by
  subst hn
  show execManifestFetch q bs s = _
  rw [execManifestFetch, decide_eq_true ⟨hq, h1, h2, h3⟩, guardWf_true]
  exact congrArg Host.Outcome.next (if_neg (by simp [hs, ht, hr, hf]))

theorem fetchSlots_one {q : Nat} {b : List Byte} {s : State} (hf : slotFree (queue s q) = true) (hv : mValid b (queue s q).seqExpected = true) :
    fetchSlots q [b] s = fetched s q b := by
  simp [fetchSlots, hf, hv]

/-- The state after a slot was read again. -/
def slotReread (s : State) (q : Nat) : State :=
  bump (emit s (.hostRead (slotAddr (queue s q) (queue s q).seqExpected) 64)) kManifestRereads 1 none

theorem queue_slotReread (s : State) (q r : Nat) : queue (slotReread s q) r = queue s r := queue_congr (bump_queues _ _ _ _) r

theorem exec_manifestReread_taken {q n : Nat} {b : List Byte} {s : State} (hq : q < 256) (hb : b.length = 64) (hs : (queue s q).state = 1)
    (hr : (queue s q).retry = some n) (hf : slotFree (queue s q) = true) (hv : mValid b (queue s q).seqExpected = true) :
    exec (.manifestReread q b) s = .next (fetched (slotReread s q) q b) := by
  show execManifestReread q b s = _
  rw [execManifestReread, decide_eq_true ⟨hq, hb⟩, guardWf_true]
  refine congrArg Host.Outcome.next ?_
  simp only [hr]
  exact (if_neg (by simp [hs, hf])).trans (if_pos hv)

theorem exec_manifestReread_stale {q : Nat} {b : List Byte} {s : State} (hq : q < 256) (hb : b.length = 64) (hs : (queue s q).state = 1)
    (hr : (queue s q).retry = some 15) (hf : slotFree (queue s q) = true) (hv : mValid b (queue s q).seqExpected = false) :
    exec (.manifestReread q b) s = .next (bump (queueStop (slotReread s q) q .staleManifest) kStaleManifests 1 none) := by
  show execManifestReread q b s = _
  rw [execManifestReread, decide_eq_true ⟨hq, hb⟩, guardWf_true]
  refine congrArg Host.Outcome.next ?_
  simp only [hr]
  exact (if_neg (by simp [hs, hf])).trans ((if_neg (by simp [hv])).trans (if_neg (by decide)))

/-- The counter that queues which stop move: the completions'. -/
theorem ctrKept_hostPost (s : State) (w : Posted) : CtrKept [kCompletionsWritten] s (hostPost s w) := by
  unfold hostPost hostWritten
  dsimp only
  split
  · split
    · exact ctrKept_of_ctr rfl
    · exact .trans (t := emit s (.hostWrite w.addr w.bytes)) (ctrKept_of_ctr rfl) (ctrKept_bump _ _ _ (by simp) (by simp))
  · exact ctrKept_of_ctr rfl

theorem ctrKept_putCompletion (s : State) (q : Nat) (c : Completion) : CtrKept [kCompletionsWritten] s (putCompletion s q c) := by
  unfold putCompletion
  dsimp only
  have put : CtrKept [kCompletionsWritten] s (setQueue s q { queue s q with cqWritten := (queue s q).cqWritten + 1 }) := ctrKept_of_ctr rfl
  split
  · exact ((put.trans (ctrKept_hostPost _ _)).trans (ctrKept_hostPost _ _)).trans (ctrKept_hostPost _ _)
  · exact (put.trans (ctrKept_hostPost _ _)).trans (ctrKept_hostPost _ _)

theorem ctrKept_flushWaiting (s : State) (q : Nat) : CtrKept [kCompletionsWritten] s (flushWaiting s q) := by
  have one (t : State) : CtrKept [kCompletionsWritten] t (flushOne q t) := by
    unfold flushOne
    dsimp only
    split
    · exact .refl _ _
    · split
      · exact .trans (ctrKept_of_ctr rfl) (ctrKept_putCompletion _ _ _)
      · exact .trans (ctrKept_of_ctr rfl) (ctrKept_putCompletion _ _ _)
      · exact .refl _ _
  have each (l : List Nat) (t : State) (h : CtrKept [kCompletionsWritten] s t) :
      CtrKept [kCompletionsWritten] s (l.foldl (fun s _ => flushOne q s) t) := by
    induction l generalizing t with
    | nil => exact h
    | cons i l ih => exact ih _ (h.trans (one t))
  exact each _ s (.refl _ s)

theorem ctrKept_deliver (s : State) (q : Nat) (c : Completion) (r : Bool) :
    CtrKept [kCompletionsWritten, kCompletionsRetained] s (deliver s q c r) := by
  unfold deliver retain
  dsimp only
  split
  · exact .trans (ctrKept_of_ctr rfl) (ctrKept_bump _ _ _ (by simp) (by simp))
  · split
    · exact .refl _ _
    · split
      · exact (ctrKept_putCompletion s q c).mono (by simp)
      · exact .trans (ctrKept_of_ctr rfl) ((ctrKept_flushWaiting _ q).mono (by simp))

theorem ctrKept_queueStop (s : State) (q : Nat) (st : Status) : CtrKept [kCompletionsWritten, kCompletionsRetained] s (queueStop s q st) :=
  .trans (t := setQueue s q { queue s q with state := 2, lastError := stCode st, retry := none }) (ctrKept_of_ctr rfl) (ctrKept_deliver _ _ _ _)

end Sys2Proof.Machine

open Sys2Proof Sys2Proof.Machine

/-- Settles O45: each command sets its queue; a stop delivers a completion, which keeps the queue's state and error. -/
theorem queuesRun : Obligations.QueuesRun := by
  unfold Obligations.QueuesRun
  refine ⟨?descriptor, ?enable, ?disable, ?tail, ?tailAhead, ?head, ?headBeyond⟩
  case descriptor =>
    intro q off bs s hq hl hh he
    exact ⟨_, exec_queueDescriptorWrite_open hq hl hh he, setQueue_kept s q _⟩
  case enable =>
    intro q s hq hh hn he h1 h2 h3 h4 h5 h6 hr ha hs
    have run := exec_queueEnable_good hq hh hn he h1 h2 h3 h4 h5 h6 hr ha hs
    refine ⟨enabledQueue (queue s q), _, rfl, rfl, run, fun er ew => ⟨_, run, ?_⟩⟩
    have set : queue (setQueue s q (enabledQueue (queue s q))) q = enabledQueue (queue s q) := queue_setQueue_same _ _ _
    rw [flushWaiting_empty (by rw [set]; exact er) (by rw [set]; exact ew)]
    exact countQueues_setQueue_kept s q _
  case disable =>
    intro q s hq hh he h3 hs hw hr
    refine ⟨_, exec_queueDisable_idle hq hh he h3 hs hw hr, queue_setQueue_same _ _ _, fun r h => ?_, ?_, rfl⟩
    · exact (setQueue_setQueue _ _ _ _ _).trans (queue_setQueue_ne s _ h)
    · exact odKept_odSet (setQueue (setQueue s q { queue s q with enable := false, state := 4, retry := none }) q
        (disabledQueue (queue s q))) _ (by simp)
  case tail =>
    intro q v s hq hv hh _ hi
    exact ⟨_, exec_doorbellSqTail_inside hq hv hh hi, setQueue_kept s q _⟩
  case tailAhead =>
    intro q v s hq hv hh hs ha
    exact ⟨_, exec_doorbellSqTail_ahead hq hv hh hs ha, queueStop_state _ _ _⟩
  case head =>
    intro q v s hq hv hh hs hw hr hi
    exact ⟨_, exec_doorbellCqHead_inside hq hv hh hs hw hr hi, setQueue_kept s q _⟩
  case headBeyond =>
    intro q v s hq hv hh hb
    exact ⟨_, exec_doorbellCqHead_beyond hq hv hh hb, counted_bump _ _ _, bump_eq _ _ _ _⟩

/-- Settles O47: a slot that checks is fetched, and the sixteenth failure stops the queue before it is counted. -/
theorem manifestsFetched : Obligations.ManifestsFetched := by
  unfold Obligations.ManifestsFetched
  refine ⟨?fetch, ?slots, ?reread, ?stale⟩
  case fetch =>
    intro q b s hq hb hs ht hr hf hc hv
    have one : 1 = min (b.length / 64) (fetchCount (queue s q)) := by rw [hb]; omega
    have slot : (List.range 1).map (fun i => (b.drop (64 * i)).take 64) = [b] := by simp [List.take_of_length_le (Nat.le_of_eq hb)]
    have run := exec_manifestFetch_slots hq (by omega) (by omega) (by omega) hs ht hr hf one
    rw [slot, fetchSlots_one (s := emit s _) hf hv] at run
    obtain ⟨here, there, counted, -, frame⟩ := fetched_kept (emit s (.hostRead (slotAddr (queue s q) (queue s q).seqExpected) (64 * 1))) q b
    exact ⟨_, run, here, there, counted, frame⟩
  case slots =>
    intro q n bs s hq h1 h2 h3 hs ht hr hf hn
    exact exec_manifestFetch_slots hq h1 h2 h3 hs ht hr hf hn
  case reread =>
    intro q n b s hq hb hs hr hf hv
    obtain ⟨here, there, counted, others, -⟩ := fetched_kept (slotReread s q) q b
    have reread : Counted s (slotReread s q) kManifestRereads 1 := counted_bump (emit s _) _ _
    have same : ctrGet (slotReread s q) kManifestsFetched 0 = ctrGet s kManifestsFetched 0 :=
      ctrGet_bump_ne (emit s _) 1 0 none (by decide) (by decide) (by simp)
    refine ⟨_, exec_manifestReread_taken hq hb hs hr hf hv, ?_, fun r h => ?_, reread.before (others.operator (by decide)), counted.after same⟩
    · rw [here, queue_slotReread]; rfl
    · rw [there r h, queue_slotReread]
  case stale =>
    intro q b s hq hb hs hr hf hv
    obtain ⟨state, error⟩ := queueStop_state (slotReread s q) q .staleManifest
    have stop := ctrKept_queueStop (slotReread s q) q .staleManifest
    have same : ctrGet (slotReread s q) kStaleManifests 0 = ctrGet s kStaleManifests 0 :=
      ctrGet_bump_ne (emit s _) 1 0 none (by decide) (by decide) (by simp)
    refine ⟨_, exec_manifestReread_stale hq hb hs hr hf hv, ?_, ?_, ?_⟩
    · rw [queue_congr (bump_queues _ _ _ _), state]
    · rw [queue_congr (bump_queues _ _ _ _), error]; rfl
    · exact (counted_bump _ _ _).after ((stop.operator (by decide)).trans same)

end

section
/-! O46: apertures, and what the host reads and writes through them (R389, R391). -/

namespace Sys2Proof.Machine

-- Checked one after another: the check allows too few threads for more.
set_option Elab.async false

/-! ### Clean accesses through the link (R219, R496) -/

/-- No line of a range reads poisoned or lies on a failed channel. -/
def CleanLines (s : State) (a n : Nat) : Prop := ((linesOf a n).all fun l => !badAt s.mem (l * 64) && !farDown s (l * 64)) = true

theorem CleanLines.line {s : State} {a n : Nat} (h : CleanLines s a n) {l : Nat} (hl : l ∈ linesOf a n) :
    badAt s.mem (l * 64) = false ∧ farDown s (l * 64) = false := by
  simpa using List.all_eq_true.mp h l hl

theorem eccLines_clean {s : State} {ls : List Nat} (a : Nat) (p : Option Nat) (h : ∀ l ∈ ls, farDown s (l * 64) = false) :
    eccLines s a ls Ecc.clean p = (s, []) := by
  unfold eccLines
  cases isFar a with
  | false =>
    rw [if_neg Bool.false_ne_true]
    generalize (if a < nearEnd then (kNearCorrected, kNearUncorrectable) else (kSramCorrected, kSramUncorrectable)) = k
    show (bump (bump s k.1 0 p) k.2 0 p, []) = _
    rw [bump_zero, bump_zero]
  | true =>
    have down : (if odN s kFarChannelFailed = 0 then [] else ls.filter fun l => farDown s (l * 64)) = [] := by
      split
      · rfl
      · exact List.filter_eq_nil_iff.mpr fun l hl => by simp [h l hl]
    rw [if_pos rfl, down]
    show (bump (bump s kFarCorrected 0 p) kFarUncorrectable 0 p, []) = _
    rw [bump_zero, bump_zero]

theorem lineRanges_none {a n : Nat} {bad : Nat → Bool} (h : ∀ l ∈ linesOf a n, bad l = false) : lineRanges a n bad = [] := by
  rw [lineRanges, List.filter_eq_nil_iff.mpr fun l hl => by simp [h l hl]]
  rfl

theorem devRead_clean {s : State} {a n : Nat} (p : Nat) (ht : (touch s a n).1 = s) (h : CleanLines s a n) :
    devRead s a n Ecc.clean p = (s, memRead s.mem a n, []) := by
  unfold devRead eccRead
  rw [ht]
  dsimp only
  rw [eccLines_clean a (some p) fun l hl => (h.line hl).2]
  dsimp only
  rw [lineRanges_none]
  intro l hl
  simp [h.line hl, farLost]

theorem copyBytes_clean (s : State) (a : Nat) (bs : List Byte) (p : Option Nat) : copyBytes s a bs [] p = storeBytes s a bs p :=
  if_pos (by simp)

theorem devWrite_clean {s : State} {p a : Nat} {bs : List Byte} (hw : writeAllowed s p a bs.length = (s, .ok))
    (ht : (touch s a bs.length).1 = s) : devWrite s p a bs [] = storeBytes s a bs (some p) := by
  unfold devWrite
  rw [hw]
  dsimp only
  rw [if_neg (fun n => n rfl), ht, copyBytes_clean]

/-! ### Aperture descriptors (R391) -/

theorem exec_apertureDescriptorWrite_open {a : Nat} {bs : List Byte} {s : State} (h1 : 1 ≤ a) (h2 : a < 32) (hl : bs.length = 32)
    (hh : holding s = false) : exec (.apertureDescriptorWrite a bs) s = .next (apertureWrite s a bs) := by
  show execApertureDescriptorWrite a bs s = _
  rw [execApertureDescriptorWrite, decide_eq_true ⟨h1, h2, hl⟩, guardWf_true]
  exact congrArg Host.Outcome.next (if_neg (by simp [hh]))

/-! ### Windows (R389, R391) -/

/-- An offset that falls in a window, and where that window ends. -/
theorem hostPlace_window {off a x : Nat} (h : hostPlace off = .window a x) :
    0x2_0000_0000 ≤ off ∧ placeEnd off = off + (0x2_0000_0000 - x) ∧ x < 0x2_0000_0000 := by
  have here : 0x2_0000_0000 ≤ off ∧ x = off % 0x2_0000_0000 := by
    unfold hostPlace at h
    split at h
    · cases h
    split at h
    · split at h
      · cases h
      · split at h <;> cases h
    split at h
    · cases h
    split at h
    · cases h
    split at h
    · cases h
    split at h
    · cases h
    split at h
    · next hw => cases h; exact ⟨hw.1, rfl⟩
    · cases h
  obtain ⟨low, rfl⟩ := here
  refine ⟨low, ?_, by omega⟩
  have last : placeEnd off = (off / 0x2_0000_0000 + 1) * 0x2_0000_0000 := by
    unfold placeEnd
    dsimp only
    rw [if_neg (by omega), if_neg (by omega), if_neg (by omega), if_neg (by omega), if_neg (by omega), if_neg (by omega), if_neg (by omega),
      if_neg (by omega), if_neg (by omega)]
  rw [last]
  omega

/-- An access inside one window has one part. -/
theorem hostParts_window {off len a x : Nat} (h : hostPlace off = .window a x) (hl : 0 < len) (hx : x + len ≤ 2 ^ 33) (n : Nat) :
    hostParts (n + 2) off len = [(off, len)] := by
  obtain ⟨-, last, -⟩ := hostPlace_window h
  have whole : min len (placeEnd off - off) = len := by omega
  rw [hostParts, if_neg (by omega), whole]
  dsimp only
  rw [hostParts, if_pos (Nat.sub_self len)]

theorem brynqTouch_on {s : State} (h : domState s 0x70 = 0) : brynqTouch s = s := by
  unfold brynqTouch touchDomain
  rw [h]
  rfl

/-- Bytes none of whose lines is poisoned are delivered as they are. -/
theorem windowRead_clean {s : State} {a x len : Nat} (hh : holding s = false) (he : (aperture s a).enable = true)
    (hr : (aperture s a).read = true) (hp : x + len ≤ (aperture s a).pages * 4096)
    (hl : linkReach s (aperture s a).part ((aperture s a).base + x) len false = true) (ht : (touch s ((aperture s a).base + x) len).1 = s)
    (hc : CleanLines s ((aperture s a).base + x) len) :
    windowRead s a x len Ecc.clean = (s, memRead s.mem ((aperture s a).base + x) len, false, false) := by
  unfold windowRead
  dsimp only
  rw [if_neg (by simp [hh, he, hr]; omega), if_neg (by simp [hl]), devRead_clean _ ht hc]
  have bytes (b : List Byte) : (b.zipIdx.map fun y => y.1) = b := by simp
  simp [bytes]

theorem exec_hostApertureRead_clean {off len a x ad : Nat} {s : State} (hb : off + len ≤ 2 ^ 38) (h0 : 0 < len) (hl : len ≤ 4096)
    (hd : domState s 0x70 = 0) (hr : s.boot.inRecovery = false) (hw : hostPlace off = .window a x) (hh : holding s = false)
    (he : (aperture s a).enable = true) (hread : (aperture s a).read = true) (hp : x + len ≤ (aperture s a).pages * 4096)
    (hx : x + len ≤ 2 ^ 33) (ha : ad = (aperture s a).base + x) (hreach : linkReach s (aperture s a).part ad len false = true)
    (ht : (touch s ad len).1 = s) (hc : CleanLines s ad len) :
    exec (.hostApertureRead off len Ecc.clean) s = .next (hostData s (memRead s.mem ad len) false) := by
  subst ha
  show execHostApertureRead off len Ecc.clean s = _
  rw [execHostApertureRead, decide_eq_true ⟨hl, hb⟩, guardWf_true]
  refine congrArg Host.Outcome.next ?_
  dsimp only
  rw [brynqTouch_on hd, if_neg (by simp [hr]), hostParts_window hw h0 hx 254]
  have part : hostPartRead off len Ecc.clean s = (s, memRead s.mem ((aperture s a).base + x) len, false, false) := by
    unfold hostPartRead
    rw [hw]
    exact windowRead_clean hh he hread hp hreach ht hc
  simp only [List.foldl_cons, List.foldl_nil, part, List.nil_append, Bool.or_self, Bool.false_eq_true, if_false, bump_zero]

theorem exec_hostApertureWrite_clean {off a x ad : Nat} {bs : List Byte} {s : State} (hb : off + bs.length ≤ 2 ^ 38) (h0 : 0 < bs.length)
    (hl : bs.length ≤ 4096) (hd : domState s 0x70 = 0) (hr : s.boot.inRecovery = false) (hw : hostPlace off = .window a x)
    (hh : holding s = false) (he : (aperture s a).enable = true) (hwrite : (aperture s a).write = true)
    (hp : x + bs.length ≤ (aperture s a).pages * 4096) (hx : x + bs.length ≤ 2 ^ 33) (ha : ad = (aperture s a).base + x)
    (hreach : linkReach s (aperture s a).part ad bs.length true = true)
    (hallow : writeAllowed s (aperture s a).part ad bs.length = (s, .ok)) (ht : (touch s ad bs.length).1 = s) :
    exec (.hostApertureWrite off bs) s = .next (storeBytes s ad bs (some (aperture s a).part)).1 := by
  subst ha
  show execHostApertureWrite off bs s = _
  rw [execHostApertureWrite, decide_eq_true ⟨hl, hb⟩, guardWf_true]
  refine congrArg Host.Outcome.next ?_
  dsimp only
  rw [brynqTouch_on hd, if_neg (by simp [hr]), hostParts_window hw h0 hx 254]
  have part (whole : Bool) : hostPartWrite off bs whole s = ((storeBytes s ((aperture s a).base + x) bs (some (aperture s a).part)).1, false) := by
    unfold hostPartWrite
    rw [hw]
    show windowWrite s a x bs = _
    unfold windowWrite
    dsimp only
    rw [if_neg (by simp [hh, he, hwrite]; omega), if_neg (by simp [hreach]), devWrite_clean hallow ht]
  simp only [List.foldl_cons, List.foldl_nil, Nat.sub_self, List.drop_zero, List.take_length, part, Bool.or_self, Bool.false_eq_true, if_false,
    bump_zero]

theorem exec_hostApertureWrite_nil {off : Nat} {s : State} (hb : off ≤ 2 ^ 38) (hd : domState s 0x70 = 0) (hr : s.boot.inRecovery = false) :
    exec (.hostApertureWrite off []) s = .next s := by
  show execHostApertureWrite off [] s = _
  rw [execHostApertureWrite, decide_eq_true ⟨by simp, hb⟩, guardWf_true]
  refine congrArg Host.Outcome.next ?_
  dsimp only
  rw [brynqTouch_on hd, if_neg (by simp [hr])]
  exact bump_zero _ _ _

theorem exec_hostReservedAccess_refused {off len : Nat} {write : Bool} {s : State} (hl : len ≤ 4096) (ho : off < 2 ^ 38)
    (hp : hostPlace off = .reserved) : exec (.hostReservedAccess off len write) s = .next (hostRefused s len write) := by
  show execHostReservedAccess off len write s = _
  rw [execHostReservedAccess, decide_eq_true ⟨hl, ho⟩, guardWf_true]
  exact congrArg Host.Outcome.next (if_pos hp)

theorem hostRefused_read (s : State) (len : Nat) : Counted s (hostRefused s len false) kApertureRefused 1 ∧ hostRefused s len false =
    { s with ctr := (hostRefused s len false).ctr, out := .hostData (List.replicate len 0xFF) false :: s.out } := by
  have h : hostRefused s len false = emit (bump s kApertureRefused 1 none) (.hostData (List.replicate len 0xFF) false) := rfl
  have counted := counted_bump s kApertureRefused (n := 1) none
  have frame := bump_eq s kApertureRefused 1 none
  rw [h]
  generalize bump s kApertureRefused 1 none = t at counted frame ⊢
  refine ⟨counted, ?_⟩
  rw [frame]
  rfl

end Sys2Proof.Machine

open Sys2Proof Sys2Proof.Machine

/-- Settles O46: an access inside a window has one part, and a clean part is a read or a store of memory. -/
theorem hostRegionAccessed : Obligations.HostRegionAccessed := by
  unfold Obligations.HostRegionAccessed
  refine ⟨?descriptor, ?read, ?write, ?reservedRead, ?reservedWrite⟩
  case descriptor =>
    intro a bs s h1 h2 hl hh
    exact ⟨_, exec_apertureDescriptorWrite_open h1 h2 hl hh, tget_tset_same _ _ _ _, fun b h => tget_tset_ne _ _ _ h, rfl⟩
  case read =>
    intro off len a x ad s hb h0 hl hd hr hw hh he hread hp hx ha hreach ht hc
    exact ⟨_, exec_hostApertureRead_clean hb h0 hl hd hr hw hh he hread hp hx ha hreach ht hc, rfl, rfl, rfl, rfl, rfl⟩
  case write =>
    intro off a x ad bs s hb hl hd hr hw hh he hwrite hp hx ha hreach hallow ht hf hz
    rcases Nat.eq_zero_or_pos bs.length with h0 | h0
    · obtain rfl := List.eq_nil_of_length_eq_zero h0
      exact ⟨_, exec_hostApertureWrite_nil hb hd hr, rfl, fun _ _ => rfl, rfl, rfl⟩
    · obtain ⟨-, outside, back, -⟩ := memoryReadsBack s ad bs (some (aperture s a).part) hf
      exact ⟨_, exec_hostApertureWrite_clean hb h0 hl hd hr hw hh he hwrite hp hx ha hreach hallow ht, back hz, outside,
        steps_storeBytes.consists_eq, steps_storeBytes.sems_eq⟩
  case reservedRead =>
    intro off len s hl ho hp
    exact ⟨_, exec_hostReservedAccess_refused hl ho hp, hostRefused_read s len⟩
  case reservedWrite =>
    intro off len s hl ho hp
    exact ⟨bump s kApertureRefused 1 none, exec_hostReservedAccess_refused hl ho hp, counted_bump s _ _, bump_eq s _ _ _⟩

end

section
/-! O49, O50: manifests that program the consists and that write the module's tables (R399, Table 8 of 14). -/

namespace Sys2Proof.Machine

-- Checked one after another: the check allows too few threads for more.
set_option Elab.async false

/-! ### A manifest that runs (R399) -/

/-- A manifest that may start is of the kind asked for, and any other selection that takes its record finds the same. -/
theorem startable_taken {s : State} {q seq : Nat} {sel : List Byte → Bool} {x : Started} (h : startable s q seq sel = some x) :
    sel x.bytes = true ∧ ∀ sel' : List Byte → Bool, sel' x.bytes = true → startable s q seq sel' = some x := by
  unfold startable at h ⊢
  dsimp only at h ⊢
  split at h
  · cases h
  · next y hy =>
    split at h
    · cases h
    · next hn =>
      obtain rfl : y = x := Option.some.inj h
      refine ⟨by_contra fun e => hn (.inr (.inl (by simpa using e))), fun sel' hs => ?_⟩
      refine if_neg fun n => hn ?_
      rcases n with a | a | a
      · exact .inl a
      · simp [hs] at a
      · exact .inr (.inr a)

/-- A manifest that may start and passes its checks runs its parts. -/
theorem runManifest_taken {s t : State} {q seq : Nat} {sel sel' : List Byte → Bool} {reach : Nat → List Byte → Bool}
    {check : Nat → List Byte → Status} {act : Nat → List Byte → State × Option (List (Nat × Status))} {x : Started} {parts : List (Nat × Status)}
    (h : startable s q seq sel = some x) (hs : sel' x.bytes = true) (hc : commonCheck s (queue s q).part x.bytes = .ok)
    (hr : reach (queue s q).part x.bytes = true) (hk : check (queue s q).part x.bytes = .ok) (ha : act (queue s q).part x.bytes = (t, some parts)) :
    runManifest s q seq sel' reach check act = manifestParts t q seq parts (tokenStatus (parts.map (·.2))) := by
  unfold runManifest
  rw [(startable_taken h).2 sel' hs]
  dsimp only
  rw [hr, hc, hk, ha]
  exact if_neg fun n => n.1 rfl

theorem tokenStatus_ok : tokenStatus ([((0 : Nat), Status.ok)].map (·.2)) = .ok := rfl

theorem startable_isOp {s : State} {q seq op : Nat} {x : Started} (h : startable s q seq (isOp op) = some x) : isOp op x.bytes = true :=
  (startable_taken h).1

theorem startable_mOp {s : State} {q seq op : Nat} {x : Started} (h : startable s q seq (isOp op) = some x) : mOp x.bytes = op := by
  simpa [isOp] using startable_isOp h

theorem rowOk_true {q seq : Nat} (hq : q < 256) (hs : seq < 2 ^ 32) : rowOk q seq = true := decide_eq_true ⟨hq, hs⟩

@[simp] theorem con_manifestParts (s : State) (q seq : Nat) (l : List (Nat × Status)) (st : Status) (k : Nat) :
    con (manifestParts s q seq l st) k = con s k := rfl
@[simp] theorem semGet_manifestParts (s : State) (q seq : Nat) (l : List (Nat × Status)) (st : Status) (i : Nat) :
    semGet (manifestParts s q seq l st) i = semGet s i := rfl
@[simp] theorem part_manifestParts (s : State) (q seq : Nat) (l : List (Nat × Status)) (st : Status) (p : Nat) :
    part (manifestParts s q seq l st) p = part s p := rfl
@[simp] theorem con_noteImage (s : State) (q seq a n k : Nat) : con (noteImage s q seq a n) k = con s k := rfl
@[simp] theorem part_noteImage (s : State) (q seq a n p : Nat) : part (noteImage s q seq a n) p = part s p := rfl

/-! ### Tables that a manifest writes (R137, R154, R184, R276, R288) -/

section
variable {q seq : Nat} {x : Started} {s : State} (hq : q < 256) (hs : seq < 2 ^ 32)
  (hc : commonCheck s (queue s q).part x.bytes = .ok)
include hq hs hc

theorem exec_nounWrite_taken {n : Noun} (hx : startable s q seq (isOp 0x03) = some x)
    (ho : bitOf (grantOf s (queue s q).part).consists (mB x.bytes 4 1) = true) (ha : mB x.bytes 8 8 % 64 = 0)
    (hl : listRegionOk s (mB x.bytes 8 8) = true) (hr : allotted s (queue s q).part (mB x.bytes 8 8) 64 false = true)
    (hb : rangeLost s (mB x.bytes 8 8) 64 = false)
    (hn : nounStatus s (queue s q).part (mB x.bytes 5 2) n (loopIndices (con s (mB x.bytes 4 1))) = .ok) :
    exec (.nounWrite q seq n) s = .next (manifestParts (putNoun s (mB x.bytes 4 1) (mB x.bytes 5 2) n) q seq [(0, .ok)] .ok) := by
  show execNounWrite q seq n s = _
  rw [execNounWrite, rowOk_true hq hs, guardWf_true]
  refine congrArg Host.Outcome.next (runManifest_taken hx (startable_isOp hx) hc (by rw [hl, hr]; rfl) ?_ ?_)
  · dsimp only
    rw [ho, hb, hn, ha]; rfl
  · rw [hb]; rfl

theorem exec_manifestSlotWrite_taken (hx : startable s q seq (isOp 0x04) = some x)
    (ho : bitOf (grantOf s (queue s q).part).consists (mB x.bytes 4 1) = true) (hm : mB x.bytes 5 1 ≤ 63) :
    exec (.manifestSlotWrite q seq) s = .next (manifestParts (modCon s (mB x.bytes 4 1) fun c =>
      { c with slots := tset 0 c.slots (mB x.bytes 5 1) (mB x.bytes 8 4) }) q seq [(0, .ok)] .ok) := by
  show execManifestSlotWrite q seq s = _
  rw [execManifestSlotWrite, rowOk_true hq hs, guardWf_true]
  refine congrArg Host.Outcome.next (runManifest_taken hx (startable_isOp hx) hc (by rfl) ?_ (by rfl))
  rw [ho, if_neg (Nat.not_lt.mpr hm)]; rfl

theorem exec_semDeclare_taken (hx : startable s q seq (isOp 0x05) = some x) (ho : (semGet s (mB x.bytes 4 2)).part = (queue s q).part)
    (hd : declOk ⟨mB x.bytes 4 2, mB x.bytes 6 1, mB x.bytes 7 1, mB x.bytes 8 4⟩ = true) :
    exec (.semDeclare q seq) s = .next (manifestParts (declare s ⟨mB x.bytes 4 2, mB x.bytes 6 1, mB x.bytes 7 1, mB x.bytes 8 4⟩)
      q seq [(0, .ok)] .ok) := by
  show execSemDeclare q seq s = _
  rw [execSemDeclare, rowOk_true hq hs, guardWf_true]
  refine congrArg Host.Outcome.next (runManifest_taken hx (startable_isOp hx) hc (by rfl) ?_ (by rfl))
  rw [if_pos ho, hd]; rfl

theorem exec_manifestSemReset_taken (hx : startable s q seq (isOp 0x06) = some x)
    (ho : (semGet s (mB x.bytes 4 2)).part = (queue s q).part) :
    exec (.manifestSemReset q seq) s = .next (manifestParts (semReset s (mB x.bytes 4 2) ((semGet s (mB x.bytes 4 2)).clear (mB x.bytes 8 4)))
      q seq [(0, .ok)] .ok) := by
  show execManifestSemReset q seq s = _
  rw [execManifestSemReset, rowOk_true hq hs, guardWf_true]
  exact congrArg Host.Outcome.next (runManifest_taken hx (startable_isOp hx) hc (by rfl) (if_pos ho) (by rfl))

/-- The state once a rule's code is in its slot (R288). -/
def ruleLoaded (s : State) (q seq p i a n : Nat) (code : List YInstr) : State :=
  odSet (modStep (noteImage s q seq a n) p fun x => { x with rules := tins (tdel x.rules i) i code }) (kRuleSlotsLoaded p)
    (bitSet (odN s (kRuleSlotsLoaded p)) i)

omit hq hs hc in
theorem steps_ruleLoaded {p i a n : Nat} {code : List YInstr} : Steps [.od, .parts, .queues] s (ruleLoaded s q seq p i a n code) := by
  unfold ruleLoaded
  exact .andThen (.andThen steps_noteImage.mono steps_modStep) steps_odSet

theorem exec_ruleLoad_taken {rule : RuleImage} (hx : startable s q seq (isOp 0x0A) = some x) (h3 : 3 ≤ mB x.bytes 4 1) (h7 : mB x.bytes 4 1 ≤ 7)
    (hr : linkReach s (queue s q).part (mB x.bytes 8 8) (mB x.bytes 16 4) false = true) (hb : builtFor s rule.part rule.oviMajor = true)
    (hl : rule.code.length ≤ 128) (hd : rangeLost s (mB x.bytes 8 8) (mB x.bytes 16 4) = false) :
    exec (.ruleLoad q seq rule) s = .next (manifestParts (ruleLoaded s q seq (queue s q).part (mB x.bytes 4 1) (mB x.bytes 8 8) (mB x.bytes 16 4)
      rule.code) q seq [(0, .ok)] .ok) := by
  show execRuleLoad q seq rule s = _
  rw [execRuleLoad, rowOk_true hq hs, guardWf_true]
  refine congrArg Host.Outcome.next (runManifest_taken hx (startable_isOp hx) hc hr ?_ ?_)
  · rw [hb, decide_eq_false (Nat.not_lt.mpr h3), decide_eq_false (Nat.not_lt.mpr h7), decide_eq_false (Nat.not_lt.mpr hl)]; rfl
  · rw [hd]; rfl

theorem exec_layerWrite_taken (hx : startable s q seq (isOp 0x0B) = some x)
    (hr : linkReach s (queue s q).part (mB x.bytes 8 8) 32 false = true) (hd : rangeLost s (mB x.bytes 8 8) 32 = false)
    (hw : (layerWrite s (queue s q).part (mB x.bytes 4 2) (memRead s.mem (mB x.bytes 8 8) 32)).2 = .ok) :
    exec (.layerWrite q seq) s = .next (manifestParts (layerWrite s (queue s q).part (mB x.bytes 4 2) (memRead s.mem (mB x.bytes 8 8) 32)).1
      q seq [(0, .ok)] .ok) := by
  show execLayerWrite q seq s = _
  rw [execLayerWrite, rowOk_true hq hs, guardWf_true]
  refine congrArg Host.Outcome.next (runManifest_taken hx (startable_isOp hx) hc hr ?_ ?_)
  · dsimp only; rw [hd, if_neg Bool.false_ne_true]; exact hw
  · dsimp only; rw [hd, if_neg Bool.false_ne_true]; rfl

end

/-- A reset of a semaphore sets its slot, and marks waits of consists besides (R187). -/
theorem semGet_semReset (s : State) (i : Nat) (v : Sem) (j : Nat) : semGet (semReset s i v) j = semGet (semSet s i v) j :=
  semGet_congr (Steps.sems_eq (F := [.consists]) (Steps.foldl .refl fun _ _ => steps_markWaits)) j

theorem semGet_semReset_same (s : State) (i : Nat) (v : Sem) : semGet (semReset s i v) i = v := by
  rw [semGet_semReset, semGet_semSet_same]

theorem semGet_semReset_ne (s : State) {i j : Nat} (v : Sem) (h : j ≠ i) : semGet (semReset s i v) j = semGet s j := by
  rw [semGet_semReset, semGet_semSet_ne _ _ h]

end Sys2Proof.Machine

open Sys2Proof Sys2Proof.Machine

/-- Settles O50: each manifest runs its one part, whose effect is the write of one table's entry. -/
theorem manifestsWriteState : Obligations.ManifestsWriteState := by
  unfold Obligations.ManifestsWriteState
  refine ⟨?noun, ?slot, ?declare, ?reset, ?rule, ?layer⟩
  case noun =>
    intro q seq x n s hq hs hx hc ho ha hl hr hb hn
    refine ⟨_, exec_nounWrite_taken hq hs hc hx ho ha hl hr hb hn, ?_, fun h hh => ?_, rfl⟩
    · rw [con_manifestParts, putNoun, con_modCon_same, tget_tset_same]; rfl
    · rw [con_manifestParts, putNoun, con_modCon_same, tget_tset_ne _ _ _ hh]
  case slot =>
    intro q seq x s hq hs hx hc ho hm
    refine ⟨_, exec_manifestSlotWrite_taken hq hs hc hx ho hm, ?_, fun h hh => ?_, rfl⟩
    · rw [con_manifestParts, con_modCon_same, tget_tset_same]
    · rw [con_manifestParts, con_modCon_same, tget_tset_ne _ _ _ hh]
  case declare =>
    intro q seq x s hq hs hx hc ho hd
    refine ⟨_, exec_semDeclare_taken hq hs hc hx ho hd, ?_, fun j hj => ?_, ?_⟩
    · rw [semGet_manifestParts, declare, semGet_semReset_same]; rfl
    · rw [semGet_manifestParts, declare, semGet_semReset_ne _ _ hj]
    · exact (Steps.andThen (F := [.sems, .consists, .queues]) steps_declare.mono steps_modStarted).frame
  case reset =>
    intro q seq x s hq hs hx hc ho
    refine ⟨_, exec_manifestSemReset_taken hq hs hc hx ho, ?_, fun j hj => ?_, ?_⟩
    · rw [semGet_manifestParts, semGet_semReset_same]
    · rw [semGet_manifestParts, semGet_semReset_ne _ _ hj]
    · exact (Steps.andThen (F := [.sems, .consists, .queues]) steps_semReset.mono steps_modStarted).frame
  case rule =>
    rintro q seq p i x rule s hq hs hx rfl hc rfl h3 h7 hr hb hl hd
    refine ⟨_, exec_ruleLoad_taken hq hs hc hx h3 h7 hr hb hl hd, ?_, ?_, ?_, ?_⟩
    · rw [part_manifestParts, ruleLoaded, part_odSet, modStep, part_modPart_same]
      exact tget_tins_same ..
    · exact odN_odSet_same ..
    · exact odKept_odSet (modStep (noteImage s q seq _ _) _ _) _ (by simp)
    · exact (Steps.andThen (F := [.od, .parts, .queues]) steps_ruleLoaded.mono steps_modStarted).frame
  case layer =>
    rintro q seq p x s hq hs hx rfl hc hr hd hw
    exact exec_layerWrite_taken hq hs hc hx hr hd hw
end

section
/-! O49: manifests that load images and control the consists' programs (R36, R124, R153). -/

namespace Sys2Proof.Machine

-- Checked one after another: the check allows too few threads for more.
set_option Elab.async false

/-! ### Bytes stored below a chunk outside the far tier -/

theorem isFar_of_staging {a x : Nat} (ha : stagingBase ≤ a) (h : a ≤ x) : isFar x = false := by
  rw [isFar, decide_eq_false (show ¬ x < 2 * farBase by unfold farBase; unfold stagingBase at ha; omega), Bool.and_false]

theorem all_farWritable_staging (s : State) {a : Nat} (ha : stagingBase ≤ a) (l : List Nat) :
    (l.all fun l => farWritable s (max a (l * 64))) = true :=
  List.all_eq_true.mpr fun l _ => by simp [farWritable, isFar_of_staging ha (le_max_left a (l * 64))]

/-- A write shorter than a chunk takes no far-tier mark, so no object follows it. -/
theorem od_clearMarks_short (s : State) {a n : Nat} (hn : n < 2048) : (clearMarks s a n).od = s.od := by
  have kept : (s.mem.farPoison.filter fun c => !decide (a ≤ c * 2048 ∧ c * 2048 + 2048 ≤ a + n)) = s.mem.farPoison :=
    List.filter_eq_self.mpr fun c _ => by simp; omega
  unfold clearMarks
  dsimp only
  rw [if_pos (by rw [kept])]

theorem noteRmw_staging (s : State) {a : Nat} (n : Nat) (ha : stagingBase ≤ a) (p : Option Nat) : noteRmw s a n p = s := by
  have none : rmwStripes s a n = 0 := by rw [rmwStripes, isFar_of_staging ha le_rfl]; simp
  unfold noteRmw
  dsimp only
  rw [none, bump_zero]
  exact if_pos (.inl (by rw [none]))

theorem od_poke_staging (s : State) {a : Nat} (bs : List Byte) (ha : stagingBase ≤ a) (hn : bs.length < 2048) : (poke s a bs).od = s.od := by
  unfold poke storeBytes
  rw [all_farWritable_staging s ha]
  dsimp only
  rw [if_pos rfl]
  dsimp only
  rw [noteRmw_staging _ _ ha, od_clearMarks_short _ hn]

theorem memGet_of_memRead {m : MemSt} {a n : Nat} (h : memRead m a n = zeros n) {i : Nat} (hi : i < n) : memGet m (a + i) = 0 := by
  induction n generalizing a i with
  | zero => omega
  | succ n ih =>
    obtain ⟨h0, hr⟩ := List.cons.inj h
    cases i with
    | zero => exact h0
    | succ i => rw [Nat.add_comm i 1, ← Nat.add_assoc]; exact ih hr (by omega)

/-- Every byte of a range of zeros reads 0 after its first, which may be one that takes no write (R88). -/
theorem memGet_poke_zeros (s : State) {a n i : Nat} (ha : stagingBase ≤ a) (hz : a % 0x1_0000 = 0) (hn : n < 0x1_0000) (h0 : 0 < i) (hi : i < n) :
    memGet (poke s a (zeros n)).mem (a + i) = 0 := by
  obtain ⟨m, rfl⟩ : ∃ m, n = m + 1 := ⟨n - 1, by omega⟩
  obtain ⟨j, rfl⟩ : ∃ j, i = 1 + j := ⟨i - 1, by omega⟩
  have inside : NoHistZero (a + 1) (zeros m).length := fun x l u => by
    rw [zeros, List.length_replicate] at u
    simp only [histZero, show x % 0x1_0000 ≠ 0 by omega, and_false, decide_false, Bool.and_false]
  have read : memRead { s.mem with cells := cellsWrite (cellSet s.mem.cells a 0) (a + 1) (zeros m) } (a + 1) m = zeros m := by
    have r := memRead_cellsWrite s.mem (zeros m) (cellSet s.mem.cells a 0) (a + 1) inside
    rwa [zeros, List.length_replicate] at r
  rw [poke, memGet_storeBytes _ _ _ _ (all_farWritable_staging s ha _), ← Nat.add_assoc]
  exact memGet_of_memRead read (by omega)

theorem memKept_poke_staging (s : State) {a : Nat} (bs : List Byte) (ha : stagingBase ≤ a) : MemKept s (poke s a bs) a bs.length := by
  obtain ⟨-, outside, -, -⟩ := memoryReadsBack s a bs none (all_farWritable_staging s ha _)
  exact outside

theorem histTable_staging (k : Nat) : stagingBase ≤ histTable k ∧ histTable k % 0x1_0000 = 0 := by
  unfold histTable stagingBase; omega

/-! ### A consist that is loaded and runs nothing (R36, R124) -/

/-- A consist that holds a program and has not started. -/
def Fresh (g : Program) (c : Consist) : Prop := c.pstate = .idle ∧ c.prog = some g ∧ c.verbs = [] ∧ c.faultSerial = 0

theorem fresh_markWaits {g : Program} {s : State} {k : Nat} (j : Nat) (h : Fresh g (con s k)) : Fresh g (con (markWaits j s) k) := by
  by_cases e : k = j
  · subst e
    obtain ⟨hp, hg, hv, hf⟩ := h
    rw [markWaits, con_modCon_same]
    exact ⟨hp, hg, by rw [hv]; rfl, hf⟩
  · rwa [markWaits, con_modCon_ne _ _ e]

theorem con_semSet (s : State) (i : Nat) (v : Sem) (k : Nat) :
    con (semSet s i v) k = judgeConsist (tset Sem.reset s.sems i v) i (con s k) :=
  tget_map Consist.reset (judgeConsist _ i) rfl _ k

theorem fresh_semReset {g : Program} {s : State} {k : Nat} (i : Nat) (v : Sem) (h : Fresh g (con s k)) : Fresh g (con (semReset s i v) k) := by
  have set : Fresh g (con (semSet s i v) k) := by
    obtain ⟨hp, hg, hv, hf⟩ := h
    rw [con_semSet]
    exact ⟨hp, hg, by simp [judgeConsist, hv], hf⟩
  exact List.foldlRecOn (motive := fun t => Fresh g (con t k)) _ _ set fun _ ht j _ => fresh_markWaits j ht

theorem fresh_declares {g : Program} {s : State} {k : Nat} (l : List SemDecl) (h : Fresh g (con s k)) : Fresh g (con (l.foldl declare s) k) :=
  List.foldlRecOn (motive := fun t => Fresh g (con t k)) l _ h fun _ ht _ _ => fresh_semReset _ _ ht

/-- A consist as its image loads it. -/
def loadedConsist (img : Image) (ci : ConsistImage) : Consist :=
  { Consist.reset with
    prog := some ⟨ci.stream, img.kernels, img.segments, ci.nouns⟩
    nouns := ci.nouns.foldl (fun t x => tset none t x.1 (some ⟨x.2, false, none, false⟩)) [] }

theorem loadConsist_found {s : State} {k : Nat} {img : Image} {ci : ConsistImage} (h : img.consists.find? (fun c => c.consist = k) = some ci) :
    loadConsist s k img = setCon (poke (forsake s k) (histTable k) (zeros 256)) k (loadedConsist img ci) := by
  unfold loadConsist
  rw [h]; rfl

/-- The state once an image with one consist is loaded. -/
def imageLoaded (s : State) (q seq k a n : Nat) (img : Image) : State := img.sems.foldl declare (loadConsist (noteImage s q seq a n) k img)

theorem fresh_imageLoaded (s : State) (q seq : Nat) {k : Nat} {img : Image} {ci : ConsistImage} (a n : Nat)
    (h : img.consists.find? (fun c => c.consist = k) = some ci) :
    Fresh ⟨ci.stream, img.kernels, img.segments, ci.nouns⟩ (con (imageLoaded s q seq k a n img) k) := by
  refine fresh_declares _ ?_
  rw [loadConsist_found h, con_setCon_same]
  exact ⟨rfl, rfl, rfl, rfl⟩

/-- A load of an image writes zeros to the consist's histogram bases, and no other byte, no object and no partition. -/
theorem imageLoaded_kept (s : State) (q seq : Nat) {k : Nat} {img : Image} {ci : ConsistImage} (a n : Nat)
    (h : img.consists.find? (fun c => c.consist = k) = some ci) :
    (∀ i, 0 < i → i < 256 → memGet (imageLoaded s q seq k a n img).mem (histTable k + i) = 0) ∧
      MemKept s (imageLoaded s q seq k a n img) (histTable k) 256 ∧ (imageLoaded s q seq k a n img).od = s.od ∧
      (imageLoaded s q seq k a n img).parts = s.parts := by
  have declared : Steps [.consists, .sems] (loadConsist (noteImage s q seq a n) k img) (imageLoaded s q seq k a n img) :=
    .foldl .refl fun _ _ => steps_declare
  have noted : Steps [.queues, .pools, .casts] s (forsake (noteImage s q seq a n) k) := .andThen steps_noteImage.mono steps_forsake
  have loaded : Steps [.mem, .health, .consists, .pools, .casts, .od, .ctr, .queues] s (loadConsist (noteImage s q seq a n) k img) :=
    .andThen steps_noteImage.mono steps_loadConsist
  have mem : (imageLoaded s q seq k a n img).mem = (poke (forsake (noteImage s q seq a n) k) (histTable k) (zeros 256)).mem := by
    rw [declared.mem_eq, loadConsist_found h, setCon_mem]
  have od : (imageLoaded s q seq k a n img).od = (poke (forsake (noteImage s q seq a n) k) (histTable k) (zeros 256)).od := by
    rw [declared.od_eq, loadConsist_found h, setCon_od]
  have parts := declared.parts_eq.trans loaded.parts_eq
  generalize imageLoaded s q seq k a n img = t at mem od parts
  generalize forsake (noteImage s q seq a n) k = u at mem od noted
  obtain ⟨hs, hz⟩ := histTable_staging k
  have short : (zeros 256).length = 256 := List.length_replicate
  refine ⟨fun i h0 h1 => ?_, fun y hy => ?_, od.trans ?_, parts⟩
  · rw [mem]; exact memGet_poke_zeros _ hs hz (by decide) h0 h1
  · rw [mem, memKept_poke_staging u (zeros 256) hs y (by rwa [short]), noted.mem_eq]
  · rw [od_poke_staging u _ hs (by rw [short]; decide), noted.od_eq]

section
variable {q seq : Nat} {x : Started} {s : State} (hq : q < 256) (hs : seq < 2 ^ 32)
  (hc : commonCheck s (queue s q).part x.bytes = .ok)
include hq hs hc

theorem exec_manifestNop_taken (hx : startable s q seq (isOp 0) = some x) :
    exec (.manifestNop q seq) s = .next (manifestParts s q seq [(0, .ok)] .ok) := by
  show execManifestNop q seq s = _
  rw [execManifestNop, rowOk_true hq hs, guardWf_true]
  have op := startable_mOp hx
  exact congrArg Host.Outcome.next (runManifest_taken hx (by simp [op]) hc (by rfl) (if_pos op) (by rfl))

theorem exec_imageLoad_taken {k : Nat} {img : Image} (hx : startable s q seq (isOp 0x01) = some x)
    (hi : imageCheck s (queue s q).part x.bytes img = .ok)
    (hr : rangeInTier s (queue s q).part 2 (mB x.bytes 4 8) (mB x.bytes 12 4) false = true)
    (hl : rangeLost s (mB x.bytes 4 8) (mB x.bytes 12 4) = false) (hk : bitList 40 (mB x.bytes 16 5) = [k]) :
    exec (.imageLoad q seq img) s = .next (manifestParts (imageLoaded s q seq k (mB x.bytes 4 8) (mB x.bytes 12 4) img) q seq [(k, .ok)] .ok) := by
  show execImageLoad q seq img s = _
  rw [execImageLoad, rowOk_true hq hs, guardWf_true]
  refine congrArg Host.Outcome.next (runManifest_taken hx (startable_isOp hx) hc hr hi ?_)
  rw [hl, hk]; rfl

omit hq hs in
/-- A `consist_control` of one consist of the partition. -/
theorem control_taken {k action : Nat} {sel : Nat → Bool} (hx : startable s q seq (isOp 0x02) = some x)
    (hk : bitList 40 (mB x.bytes 4 5) = [k]) (ho : bitOf (grantOf s (queue s q).part).consists k = true) (ha : mB x.bytes 9 1 = action)
    (h3 : action ≤ 3) (hsel : sel action = true) (hp : (controlPart s k action).2 = .ok) :
    control q seq action sel s = manifestParts (controlPart s k action).1 q seq [(k, .ok)] .ok := by
  have op : (mOp x.bytes = 2) := startable_mOp hx
  refine runManifest_taken hx (by simp [op, ha, hsel]) hc (by rfl) ?_ ?_
  · rw [hk, if_pos (by simp [ho]), if_neg (by omega)]; rfl
  · rw [hk, ← hp]; rfl

end

section
variable {q seq k : Nat} {x : Started} {s : State} (hq : q < 256) (hs : seq < 2 ^ 32) (hc : commonCheck s (queue s q).part x.bytes = .ok)
  (hx : startable s q seq (isOp 0x02) = some x) (hk : bitList 40 (mB x.bytes 4 5) = [k])
  (ho : bitOf (grantOf s (queue s q).part).consists k = true)
include hq hs hc hx hk ho

theorem exec_consistControlStart_taken (ha : mB x.bytes 9 1 = 0) (hp : (controlPart s k 0).2 = .ok) :
    exec (.consistControlStart q seq) s = .next (manifestParts (controlPart s k 0).1 q seq [(k, .ok)] .ok) := by
  show execConsistControlStart q seq s = _
  rw [execConsistControlStart, rowOk_true hq hs, guardWf_true, control_taken hc hx hk ho ha (by omega) (by rfl) hp]

theorem exec_consistControlRestart_taken (ha : mB x.bytes 9 1 = 1) (hp : (controlPart s k 1).2 = .ok) :
    exec (.consistControlRestart q seq) s = .next (manifestParts (controlPart s k 1).1 q seq [(k, .ok)] .ok) := by
  show execConsistControlRestart q seq s = _
  rw [execConsistControlRestart, rowOk_true hq hs, guardWf_true, control_taken hc hx hk ho ha (by omega) (by rfl) hp]

theorem exec_consistControlStop_taken (ha : mB x.bytes 9 1 = 2) (hp : (controlPart s k 2).2 = .ok) :
    exec (.consistControlStop q seq) s = .next (manifestParts (controlPart s k 2).1 q seq [(k, .ok)] .ok) := by
  show execConsistControlStop q seq s = _
  rw [execConsistControlStop, rowOk_true hq hs, guardWf_true, control_taken hc hx hk ho ha (by omega) (by rfl) hp]

theorem exec_consistControlUnload_taken (ha : mB x.bytes 9 1 = 3) (hp : (controlPart s k 3).2 = .ok) :
    exec (.consistControlUnload q seq) s = .next (manifestParts (controlPart s k 3).1 q seq [(k, .ok)] .ok) := by
  show execConsistControlUnload q seq s = _
  rw [execConsistControlUnload, rowOk_true hq hs, guardWf_true, control_taken hc hx hk ho ha (by omega) (by rfl) hp]

end

/-! ### Starts, stops and restarts (R124) -/

theorem finishCheck_goesOn {s : State} {k : Nat} (h : (con s k).ending = false) : finishCheck k s = s :=
  if_neg fun n => by simp [h] at n

/-- A consist as it starts a stream that has verbs. -/
def startedConsist (c : Consist) : Consist :=
  { c with pstate := .running, pos := 0, vi := 0, loops := [], hold := none, ahead := [], afterVote := none, ending := false }

theorem startConsist_first {s : State} {k : Nat} {g : Program} (hg : (con s k).prog = some g) (hn : g.stream ≠ []) :
    startConsist s k = setCon s k (startedConsist (con s k)) := by
  have start : startConsist s k = finishCheck k (setCon s k (startedConsist (con s k))) := by
    unfold startConsist modCon startedConsist
    dsimp only
    rw [hg]
    dsimp only
    rw [decide_eq_false hn]
  rw [start, finishCheck_goesOn (by rw [con_setCon_same]; rfl)]

/-- A stream without a verb has stopped with its start. -/
theorem startConsist_empty {s : State} {k : Nat} {g : Program} (hg : (con s k).prog = some g) (hn : g.stream = [])
    (hv : (con s k).verbs = []) (hr : (con s k).sidingRuns = []) :
    (con (startConsist s k) k).pstate = .stopped ∧ (con (startConsist s k) k).prog = (con s k).prog := by
  unfold startConsist finishCheck
  dsimp only
  rw [con_modCon_same, if_pos ⟨by rw [hg]; exact decide_eq_true hn, rfl, hv, hr⟩, con_setCon_same]
  exact ⟨rfl, rfl⟩

theorem verbs_countStall (s : State) (k : Nat) : con (countStall s k) k = con s k := con_congr steps_countStall.consists_eq k

theorem verbs_slotRecord (s : State) (k status busy wait : Nat) : (con (slotRecord s k status busy wait) k).verbs = (con s k).verbs := by
  unfold slotRecord
  dsimp only
  split
  · rfl
  · rw [con_setCon_same]

theorem verbs_slotCut (s : State) (k status : Nat) : (con (slotCut s k status) k).verbs = (con s k).verbs := by
  unfold slotCut
  split
  · rfl
  · exact (congrArg Consist.verbs (con_congr (bump_consists _ _ _ _) k)).trans (verbs_slotRecord s k _ _ _)

theorem stopConsist_stops (s : State) (k status : Nat) : (con (stopConsist s k status) k).pstate = .stopped ∧
    (con (stopConsist s k status) k).verbs = (con s k).verbs ∧ (con (stopConsist s k status) k).hold = none := by
  rw [stopConsist, con_modCon_same]
  exact ⟨rfl, (verbs_slotCut _ k status).trans (congrArg Consist.verbs (verbs_countStall s k)), rfl⟩

theorem con_forsake (s : State) (k j : Nat) : con (forsake s k) j = con s j := rfl

theorem con_reload {s : State} {k : Nat} {g : Program} (h : (con s k).prog = some g) :
    (con (reload s k) k).prog = some g ∧ (con (reload s k) k).verbs = [] := by
  rw [reload, con_modCon_same, h]
  exact ⟨rfl, rfl⟩

end Sys2Proof.Machine

open Sys2Proof Sys2Proof.Machine

/-- Settles O49: the manifest runs its one part, a load, a start, a stop, an unload or a restart of the one consist that it names. -/
theorem manifestsProgramConsists : Obligations.ManifestsProgramConsists := by
  unfold Obligations.ManifestsProgramConsists
  refine ⟨?nop, ?load, ?control⟩
  case nop => exact fun q seq x s hq hs hx hc => exec_manifestNop_taken hq hs hc hx
  case load =>
    intro q seq k x img ci s hq hs hx hc hi hr hl hk hf
    have fresh := fresh_imageLoaded s q seq (mB x.bytes 4 8) (mB x.bytes 12 4) hf
    obtain ⟨mem, outside, od, parts⟩ := imageLoaded_kept s q seq (mB x.bytes 4 8) (mB x.bytes 12 4) hf
    have out := exec_imageLoad_taken hq hs hc hx hi hr hl hk
    generalize imageLoaded s q seq k (mB x.bytes 4 8) (mB x.bytes 12 4) img = t at fresh mem outside od parts out
    obtain ⟨hp, hg, hv, hfs⟩ := fresh
    exact ⟨_, out, hp, hg, hv, hfs, outside, mem, od, parts⟩
  case control =>
    intro q seq k x g s hq hs hx hc hk ho hg
    refine ⟨fun ha hi hn => ?start, fun ha hi hn hv hr => ?empty, fun ha hr hn => ?restart, fun ha hr => ?stop, fun ha => ?unload⟩
    case start =>
      have part : controlPart s k 0 = (startConsist s k, .ok) := by simp [controlPart, hi, hg]
      refine ⟨_, exec_consistControlStart_taken hq hs hc hx hk ho ha (by rw [part]), ?_⟩
      rw [part, startConsist_first hg hn]
      simp only [con_manifestParts, con_setCon_same]
      exact ⟨rfl, rfl, rfl, rfl, rfl⟩
    case empty =>
      have part : controlPart s k 0 = (startConsist s k, .ok) := by simp [controlPart, hi, hg]
      refine ⟨_, exec_consistControlStart_taken hq hs hc hx hk ho ha (by rw [part]), ?_⟩
      rw [part]
      exact startConsist_empty hg hn hv hr
    case restart =>
      have part : controlPart s k 1 = (startConsist (reload (forsake s k) k) k, .ok) := by simp [controlPart, hr, hg]
      obtain ⟨program, verbs⟩ := con_reload (s := forsake s k) hg
      have steps : Steps [.consists, .pools, .casts] s (reload (forsake s k) k) := .andThen steps_forsake.mono steps_reload
      refine ⟨_, exec_consistControlRestart_taken hq hs hc hx hk ho ha (by rw [part]), ?_⟩
      rw [part, startConsist_first program hn]
      simp only [con_manifestParts, con_setCon_same]
      exact ⟨rfl, rfl, rfl, verbs, steps.mem_eq, steps.od_eq⟩
    case stop =>
      have part : controlPart s k 2 = (stopConsist s k 0x0E, .ok) := by simp [controlPart, hr]
      refine ⟨_, exec_consistControlStop_taken hq hs hc hx hk ho ha (by rw [part]), ?_⟩
      rw [part]
      exact stopConsist_stops s k 0x0E
    case unload =>
      refine ⟨_, exec_consistControlUnload_taken hq hs hc hx hk ho ha (by rfl), ?_⟩
      simp only [controlPart, con_manifestParts, con_setCon_same]
      exact ⟨rfl, rfl, rfl⟩
end

section
/-! O51: manifests that move bytes between the host, the memory and the depot (R252 to R258, Table 8 of 14). -/

namespace Sys2Proof.Machine

-- Checked one after another: the check allows too few threads for more.
set_option Elab.async false

/-! ### Domains that an access reaches (R490, R496) -/

theorem odKept_touchDomain (s : State) (d : Nat) : OdKept [kDomainState (d + 1)] s (touchDomain s d).1 := by
  have wake : OdKept [kDomainState (d + 1)] s (beginWake s d) := odKept_odSet { s with pow := { s.pow with waking := tset 0 s.pow.waking d (domState s d) } } 4 (by simp)
  unfold touchDomain
  split
  · exact .refl _ _
  · exact wake.trans (odKept_bump _ _ _ _ _)
  · split
    · exact odKept_bump [kDomainState (d + 1)] s _ _ _
    · exact .refl _ _
  · exact .refl _ _
  · exact .refl _ _

/-- Where an address of a region lies, as far as its domains depend on it. -/
inductive RegionAt (a : Nat) : Region → Prop
  | near (h : a < nearEnd) : RegionAt a .near
  | far (h : a < 2 * farBase) : RegionAt a .far
  | staging {d : Nat} (o : Nat) (h : d < 8) : RegionAt a (.staging d o)
  | scratch {c : Nat} (o : Nat) (h : c < 800) : RegionAt a (.scratch c o)
  | sems (h : a < semBase + 0x40_0000) : RegionAt a .sems
  | control : RegionAt a .control
  | unmapped : RegionAt a .unmapped

theorem regionAt_region (s : State) (a : Nat) : RegionAt a (region s a) := by
  unfold region
  dsimp only
  split
  · next h => split <;> [exact .unmapped; exact .near h]
  split
  · next h => split <;> [exact .unmapped; exact .far h.2]
  split
  · next h =>
    have die : (a - stagingBase) / 0x1000_0000 < 8 := Nat.div_lt_of_lt_mul (by rw [Nat.mul_comm]; exact Nat.sub_lt_left_of_lt_add h.1 h.2)
    split <;> [exact .staging _ die; exact .unmapped]
  split
  · next h =>
    have core : (a - scratchBase) / 0x40_0000 < 800 := Nat.div_lt_of_lt_mul (by rw [Nat.mul_comm]; exact Nat.sub_lt_left_of_lt_add h.1 h.2)
    split <;> [exact .scratch _ core; exact .unmapped]
  split
  · next h => exact .sems h.2
  · split <;> [exact .control; exact .unmapped]

theorem domainsAt_lt {s : State} {a d : Nat} (h : d ∈ domainsAt s a) : d < 0x80 := by
  have place := regionAt_region s a
  unfold domainsAt at h
  generalize region s a = r at h place
  cases place with
  | near ha =>
    have : a < 8 * 0x12_0000_0000 := ha
    simp only [List.mem_cons, List.not_mem_nil, or_false] at h
    omega
  | far ha =>
    have : a < 0x200_0000_0000 := ha
    simp only [List.mem_cons, List.not_mem_nil, or_false, farBase] at h
    omega
  | staging o hd => simp only [List.mem_cons, List.not_mem_nil, or_false] at h; omega
  | scratch o hc => simp only [List.mem_cons, List.not_mem_nil, or_false] at h; omega
  | sems ha => simp only [List.mem_cons, List.not_mem_nil, or_false] at h; omega
  | control => cases h
  | unmapped => cases h

theorem odN_touch {s : State} {k : Nat} (a n : Nat) (h : ∀ d, d < 0x80 → k ≠ kDomainState (d + 1)) : odN (touch s a n).1 k = odN s k := by
  unfold touch touchAll
  split
  · rfl
  · have low : ∀ d ∈ ([a, min (a + 4096) (a + n - 1), a + n - 1].flatMap fun x => domainsAt s x).eraseDups, d < 0x80 := fun d hd => by
      obtain ⟨x, -, hx⟩ := List.mem_flatMap.mp (List.mem_eraseDups.mp hd)
      exact domainsAt_lt hx
    refine List.foldlRecOn (motive := fun x : State × Bool => odN x.1 k = odN s k) _ _ rfl fun x hx d hd => ?_
    exact ((odKept_touchDomain x.1 d).odN_eq (by simpa using h d (low d hd))).trans hx

/-- Whether the far tier takes a write follows the channels that have failed and the groups that are protected. -/
theorem farWritable_congr {s t : State} (hf : odN t kFarChannelFailed = odN s kFarChannelFailed)
    (hp : odN t kFarParityActive = odN s kFarParityActive) (a : Nat) : farWritable t a = farWritable s a := by
  simp only [farWritable, farFailed, farChannel, farProtected, hf, hp]
  rfl

theorem farWritable_touch (s : State) (a n x : Nat) : farWritable (touch s a n).1 x = farWritable s x :=
  farWritable_congr (odN_touch a n fun d _ => by unfold kFarChannelFailed kDomainState; omega)
    (odN_touch a n fun d _ => by unfold kFarParityActive kDomainState; omega) x

section
variable {s t : State} (ho : t.od = s.od) (hp : t.parts = s.parts)

include ho in
theorem region_congr : region t = region s := by
  have od : odN t = odN s := funext fun k => odN_congr ho k
  funext a
  simp only [region, farProtected, od]
  rfl

include hp in
theorem grantOf_congr : grantOf t = grantOf s := funext fun p => by rw [grantOf, grantOf, part_congr hp]

include ho hp in
theorem allotted_congr : allotted t = allotted s := by
  have at' : allotAt t = allotAt s := by
    funext p a w
    unfold allotAt sysRegionOk
    rw [region_congr ho, grantOf_congr hp]
  funext p a n w
  rw [allotted, allotted, at']

include ho hp in
/-- Whether a write is allowed follows the grants, the locks and the objects. -/
theorem writeAllowed_congr {p a n : Nat} (h : writeAllowed s p a n = (s, .ok)) : writeAllowed t p a n = (t, .ok) := by
  have od : odN t = odN s := funext fun k => odN_congr ho k
  have parts : part t = part s := funext fun q => part_congr hp q
  have shard : shardLocked t = shardLocked s := by
    funext p a n
    simp only [shardLocked, parts, shardRanges, shardStateBytes, farProtected, od]
    rfl
  have layer : layerLocked t = layerLocked s := by
    funext p a n
    rw [layerLocked, layerLocked, od]
  unfold writeAllowed rangesWritable rangesLocked at h ⊢
  rw [allotted_congr ho hp, shard, layer]
  split at h
  · cases congrArg Prod.snd h
  · next free =>
    split at h
    · cases congrArg Prod.snd h
    · next noLayer =>
      split at h
      · cases congrArg Prod.snd h
      · next noShard => rw [if_neg free, if_neg noLayer, if_neg noShard]

end

/-- What a write of a partition that is allowed stores. -/
theorem devWrite_stores {s : State} {p a : Nat} {bs : List Byte} (hw : writeAllowed s p a bs.length = (s, .ok))
    (hf : ((linesOf a bs.length).all fun l => farWritable s (max a (l * 64))) = true) (hz : NoHistZero a bs.length) :
    memRead (devWrite s p a bs []).1.mem a bs.length = bs ∧ MemKept s (devWrite s p a bs []).1 a bs.length := by
  have stored : devWrite s p a bs [] = storeBytes (touch s a bs.length).1 a bs (some p) := by
    unfold devWrite
    rw [hw]
    dsimp only
    rw [if_neg (fun n => n rfl), copyBytes_clean]
  have takes : ((linesOf a bs.length).all fun l => farWritable (touch s a bs.length).1 (max a (l * 64))) = true := by
    simpa only [farWritable_touch] using hf
  obtain ⟨-, outside, back, -⟩ := memoryReadsBack _ a bs (some p) takes
  rw [stored]
  exact ⟨back hz, fun x hx => (outside x hx).trans (by rw [steps_touch.mem_eq])⟩

/-! ### Copies (Table 8 of 14) -/

theorem copyParts_one {len : Nat} (h0 : 0 < len) (hl : len ≤ 0x10_0000) : copyParts len = [(0, len)] := by
  have one : ceilDiv len 0x10_0000 = 1 := by unfold ceilDiv; omega
  have size : len ≤ ceilDiv (ceilDiv len 1) 4096 * 4096 := by unfold ceilDiv; omega
  unfold copyParts
  rw [one]
  simpa using size

theorem fit_self (bs : List Byte) : fit bs.length bs = bs := by simp [fit, zeros]

section
variable {q seq p src dst len : Nat} {data : List Byte} {x : Started} {s t : State} (hq : q < 256) (hs : seq < 2 ^ 32)
  (hx : startable s q seq (isOp 0x07) = some x) (hp : p = (queue s q).part) (hc : commonCheck s p x.bytes = .ok)
  (hsrc : src = mB x.bytes 4 8) (hdst : dst = mB x.bytes 12 8) (hlen : len = mB x.bytes 20 4) (h0 : 0 < len) (hl : len ≤ 0x10_0000)
include hq hs hx hp hc hsrc hdst hlen h0 hl

/-- A copy of at most 1 MiB is one part. -/
theorem exec_manifestCopy_one (hr : copyReach s p x.bytes = true) (hk : copyCheck (queue s q) x.bytes = .ok)
    (ha : copyPart p (mB x.bytes 24 1) src dst data Ecc.clean (0, len) s = (t, .ok)) :
    exec (.manifestCopy q seq data Ecc.clean) s = .next (manifestParts t q seq [(0, .ok)] .ok) := by
  subst hp hsrc hdst hlen
  show execManifestCopy q seq data Ecc.clean s = _
  rw [execManifestCopy, rowOk_true hq hs, guardWf_true]
  refine congrArg Host.Outcome.next (runManifest_taken hx (startable_isOp hx) hc hr hk ?_)
  dsimp only
  rw [copyParts_one h0 hl, List.foldl_cons, List.foldl_nil]
  dsimp only
  rw [ha]
  rfl

theorem exec_manifestCopy_toHost (hd : mB x.bytes 24 1 = 1) (hr : linkReach s p src len false = true) (hh : hostRange (queue s q) dst len = true)
    (ht : (touch s src len).1 = s) (hb : CleanLines s src len) :
    exec (.manifestCopy q seq [] Ecc.clean) s =
      .next (manifestParts (hostPost s ⟨dst, memRead s.mem src len, none⟩) q seq [(0, .ok)] .ok) := by
  refine exec_manifestCopy_one (data := []) hq hs hx hp hc hsrc hdst hlen h0 hl ?_ ?_ ?_
  · unfold copyReach; rw [hd, ← hsrc, ← hlen]; exact hr
  · unfold copyCheck; rw [hd, ← hdst, ← hlen]; dsimp only; rw [hh]; rfl
  · unfold copyPart
    rw [hd]
    dsimp only
    rw [Nat.add_zero, Nat.add_zero, devRead_clean p ht hb]
    exact if_pos rfl

theorem exec_manifestCopy_fromHost (hd : mB x.bytes 24 1 = 0) (hdata : data.length = len) (hr : linkReach s p dst len true = true)
    (hh : hostRange (queue s q) src len = true) (hw : (devWrite s p dst data []).2 = .ok) :
    exec (.manifestCopy q seq data Ecc.clean) s = .next (manifestParts (devWrite s p dst data []).1 q seq [(0, .ok)] .ok) := by
  refine exec_manifestCopy_one hq hs hx hp hc hsrc hdst hlen h0 hl ?_ ?_ ?_
  · unfold copyReach; rw [hd, ← hdst, ← hlen]; exact hr
  · unfold copyCheck; rw [hd, ← hsrc, ← hlen]; dsimp only; rw [hh]; rfl
  · unfold copyPart
    rw [hd]
    dsimp only
    rw [Nat.add_zero, List.drop_zero, ← hdata, fit_self]
    exact Prod.ext rfl hw

end

/-! ### The depot's blocks (R250 to R255) -/

theorem depotByte_eq (d : DepotSt) (a : Nat) : depotByte d a = tget 0 d.cells a := by
  unfold depotByte
  generalize d.cells = l
  induction l with
  | nil => rfl
  | cons c l ih =>
    obtain ⟨i, v⟩ := c
    by_cases h : i = a <;> simp_all [tget]

theorem tget_depotCellsWrite_below (bs : List Byte) (c : List Host.Cell) {a x : Nat} (h : x < a) :
    tget 0 (depotCellsWrite c a bs) x = tget 0 c x := by
  induction bs generalizing c a with
  | nil => rfl
  | cons b bs ih => rw [depotCellsWrite, ih _ (by omega), tget_tset_ne _ _ _ (by omega)]

theorem depotBytes_congr {d e : DepotSt} (h : d.cells = e.cells) (a n : Nat) : depotBytes d a n = depotBytes e a n := by
  induction n generalizing a with
  | zero => rfl
  | succ n ih => rw [depotBytes, depotBytes, ih, depotByte_eq, depotByte_eq, h]

/-- Bytes written to the depot are read back. -/
theorem depotBytes_depotCellsWrite {bs : List Byte} {n : Nat} (hn : bs.length = n) {d : DepotSt} {c : List Host.Cell} {a : Nat}
    (h : d.cells = depotCellsWrite c a bs) : depotBytes d a n = bs := by
  subst hn
  induction bs generalizing c a with
  | nil => rfl
  | cons b bs ih =>
    rw [List.length_cons, depotBytes, ih h, depotByte_eq, h, depotCellsWrite,
      tget_depotCellsWrite_below _ _ (Nat.lt_succ_self a), tget_tset_same]

theorem depotBytes_length (d : DepotSt) (a n : Nat) : (depotBytes d a n).length = n := by
  induction n generalizing a with
  | zero => rfl
  | succ n ih => rw [depotBytes, List.length_cons, ih]

theorem memRead_length (m : MemSt) (a n : Nat) : (memRead m a n).length = n := by
  induction n generalizing a with
  | zero => rfl
  | succ n ih => rw [memRead, List.length_cons, ih]

theorem touchDepot_on {s : State} (h : domState s 0x71 = 0) : touchDepot s = (s, true) := by
  unfold touchDepot touchDomain
  rw [h]; rfl

theorem depotSpan_one (b : Nat) : depotSpan b 65536 = [b] := by
  have one : List.range (ceilDiv 65536 depotBlock) = [0] := by decide
  rw [depotSpan, one, List.map_singleton, Nat.zero_add]

theorem depotParts_one (b : Nat) : depotParts b 1 = [(b, 1)] := by simp [depotParts, ceilDiv]

/-- A clean read of one block that is not poisoned delivers its bytes and changes no block. -/
theorem depotReadBytes_one {s : State} {b : Nat} (p : Option Nat) (h : s.depot.poison.contains b = false) :
    (depotReadBytes s b 65536 Ecc.clean p).2 = (depotBytes s.depot (b * 65536) 65536, []) ∧
      (depotReadBytes s b 65536 Ecc.clean p).1.depot.cells = s.depot.cells := by
  have none (l : List Nat) : l.filter (fun x => Ecc.clean.bad.contains x) = [] := List.filter_eq_nil_iff.mpr fun _ _ => Bool.false_ne_true
  have rebuilt (l m : List Nat) : l.filter (fun x => Ecc.clean.parity.contains x && !m.contains x) = [] :=
    List.filter_eq_nil_iff.mpr fun _ _ => Bool.false_ne_true
  have fine : [b].filter (fun x => s.depot.poison.contains x) = [] := by simp only [List.filter_cons, h, List.filter_nil]; rfl
  unfold depotReadBytes
  rw [depotSpan_one]
  dsimp only
  rw [none, rebuilt]
  generalize [b].filter (fun x => s.depot.mapped.contains x) = hit
  simp only [bump_depot, List.foldl_nil]
  exact ⟨Prod.ext (depotBytes_congr (by rfl) _ _) fine, trivial⟩

theorem mem_setAdd_self (l : List Nat) (k : Nat) : k ∈ setAdd l k := by
  induction l with
  | nil => simp [setAdd]
  | cons i l ih => rw [setAdd]; split <;> [simp_all; (split <;> simp_all)]

/-- A write of one whole clean block, which the depot takes, stores its bytes and maps it. -/
theorem depotWriteBytes_one {s : State} {b : Nat} {bs : List Byte} (p : Option Nat) (hr : odN s kDepotReadOnly ≠ 1) (hl : bs.length = 65536) :
    (depotWriteBytes s b bs [] Ecc.clean p).2 = .ok ∧ depotBytes (depotWriteBytes s b bs [] Ecc.clean p).1.depot (b * 65536) 65536 = bs ∧
      (depotWriteBytes s b bs [] Ecc.clean p).1.depot.mapped.contains b = true := by
  unfold depotWriteBytes
  rw [if_neg hr, hl, depotSpan_one]
  have whole : (65536 % depotBlock ≠ 0) = False := by decide
  simp only [whole, odSet_depot, bump_depot, decide_false, Bool.false_and, Bool.false_eq_true, if_false, List.zipIdx_cons, List.zipIdx_nil,
    List.foldl_cons, List.foldl_nil]
  exact ⟨trivial, depotBytes_depotCellsWrite hl (by rfl), List.contains_iff_mem.mpr (mem_setAdd_self _ b)⟩

section
variable {q seq p b a : Nat} {x : Started} {s : State} (hq : q < 256) (hs : seq < 2 ^ 32) (hp : p = (queue s q).part)
  (hc : commonCheck s p x.bytes = .ok) (hb : b = mB x.bytes 4 4) (h1 : mB x.bytes 8 4 = 1) (ha : a = mB x.bytes 12 8)
  (hk : depotCheck s p x.bytes = .ok) (hd : domState s 0x71 = 0)

/-- The state once a block has been read from the depot to memory. -/
def depotCopied (s : State) (p b a : Nat) : State × Status :=
  let r := depotReadBytes s b 65536 Ecc.clean (some p)
  devWrite r.1 p a r.2.1 (r.2.2.map fun y => ((y - b) * 65536, 65536))

omit hq hs hp hc hb h1 ha hk hd in
/-- The one part of a depot read of one block, whatever reads and writes. -/
theorem foldl_readOne {S : Type} (read : S → Nat → Nat → S × List Byte × List Nat)
    (write : S → Nat → List Byte → List (Nat × Nat) → S × Status) {s t : S} {b a : Nat} {st : Status}
    (h : (let y := read s b 65536; write y.1 a y.2.1 (y.2.2.map fun z => ((z - b) * 65536, 65536))) = (t, st)) :
    (depotParts b 1).foldl (fun (x : S × List Status) r =>
        let (s, bs, bad) := read x.1 r.1 (r.2 * 65536)
        let (s, st) := write s (a + (r.1 - b) * 65536) bs (bad.map fun y => ((y - r.1) * 65536, 65536))
        (s, x.2 ++ [st])) (s, []) = (t, [st]) := by
  rw [depotParts_one]
  simp only [List.foldl_cons, List.foldl_nil, Nat.sub_self, Nat.zero_mul, Nat.add_zero, Nat.one_mul, List.nil_append, h]

omit hq hs hp hc hb h1 ha hk hd in
/-- Parts are numbered from 0. -/
theorem numbered_one {y : State × List Status} {t : State} {st : Status} (h : y = (t, [st])) :
    (y.1, some (y.2.zipIdx.map fun z => (z.2, z.1))) = (t, some [(0, st)]) := by rw [h]; rfl

include hq hs hp hc hb h1 ha hk hd in
theorem exec_depotRead_one {t : State} {st : Status} (hx : startable s q seq (isOp 0x08) = some x) (hr : depotReach s true p x.bytes = true)
    (hw : depotCopied s p b a = (t, st)) :
    exec (.depotRead q seq Ecc.clean) s = .next (manifestParts t q seq [(0, st)] (tokenStatus [st])) := by
  subst hp hb ha
  unfold depotCopied at hw
  have copied := foldl_readOne (fun u b n => depotReadBytes u b n Ecc.clean (some (queue s q).part))
    (fun u a bs bad => devWrite u (queue s q).part a bs bad) hw
  show execDepotRead q seq Ecc.clean s = _
  rw [execDepotRead, rowOk_true hq hs, guardWf_true]
  refine congrArg Host.Outcome.next (runManifest_taken (parts := [(0, st)]) hx (startable_isOp hx) hc hr hk ?_)
  rw [touchDepot_on hd, h1]
  extract_lets first u y
  have parts : y = (t, [st]) := copied
  clear_value y
  exact numbered_one parts

/-- A block read to memory that takes it stands there, and the depot keeps its own. -/
theorem depotCopied_one {s : State} {p b a : Nat} (hw : writeAllowed s p a 65536 = (s, .ok)) (hb : s.depot.poison.contains b = false)
    (hf : ((linesOf a 65536).all fun l => farWritable s (max a (l * 64))) = true) (hz : NoHistZero a 65536) :
    memRead (depotCopied s p b a).1.mem a 65536 = depotBytes s.depot (b * 65536) 65536 ∧ MemKept s (depotCopied s p b a).1 a 65536 ∧
      (depotCopied s p b a).1.depot.cells = s.depot.cells := by
  obtain ⟨bytes, cells⟩ := depotReadBytes_one (some p) hb
  have steps := steps_depotReadBytes (s := s) (b := b) (len := 65536) (e := Ecc.clean) (pt := some p)
  have copied : depotCopied s p b a = devWrite (depotReadBytes s b 65536 Ecc.clean (some p)).1 p a (depotBytes s.depot (b * 65536) 65536) [] := by
    unfold depotCopied; dsimp only; rw [bytes]; rfl
  rw [copied]
  generalize (depotReadBytes s b 65536 Ecc.clean (some p)).1 = u at cells steps
  have len := depotBytes_length s.depot (b * 65536) 65536
  generalize depotBytes s.depot (b * 65536) 65536 = bs at len
  have allowed : writeAllowed u p a bs.length = (u, .ok) := by rw [len]; exact writeAllowed_congr steps.od_eq steps.parts_eq hw
  have takes : ((linesOf a bs.length).all fun l => farWritable u (max a (l * 64))) = true := by
    rw [len]
    simpa only [farWritable_congr (odN_congr steps.od_eq _) (odN_congr steps.od_eq _)] using hf
  obtain ⟨back, outside⟩ := devWrite_stores allowed takes (by rwa [len])
  rw [len] at back outside
  exact ⟨back, fun y hy => (outside y hy).trans (by rw [steps.mem_eq]), (congrArg DepotSt.cells steps_devWrite.depot_eq).trans cells⟩

/-- A manifest that may start and passes its checks, and has to wait. -/
theorem runManifest_waits {s t : State} {q seq : Nat} {sel sel' : List Byte → Bool} {reach : Nat → List Byte → Bool}
    {check : Nat → List Byte → Status} {act : Nat → List Byte → State × Option (List (Nat × Status))} {x : Started}
    (h : startable s q seq sel = some x) (hs : sel' x.bytes = true) (hc : commonCheck s (queue s q).part x.bytes = .ok)
    (hr : reach (queue s q).part x.bytes = true) (hk : check (queue s q).part x.bytes = .ok) (ha : act (queue s q).part x.bytes = (t, none)) :
    runManifest s q seq sel' reach check act = t := by
  unfold runManifest
  rw [(startable_taken h).2 sel' hs]
  dsimp only
  rw [hr, hc, hk, ha]
  exact if_neg fun n => n.1 rfl

/-- A manifest of a depot write that has begun, with the blocks written and those that wait. -/
def keepBlocks (s : State) (q seq : Nat) (x : Started) : State := modStarted s q seq fun y => { y with blocks := x.blocks, held := x.held }

/-- A list of checks that ends ok has no check that fails. -/
theorem lowestStatus_ok {l : List Status} (h : lowestStatus l = .ok) : ∀ st ∈ l, st = .ok := by
  have low (l : List Status) (m : Status)
      (h : l.foldl (fun m st => if st = .ok then m else if m = .ok then st else if stCode st < stCode m then st else m) m = .ok) :
      m = .ok ∧ ∀ st ∈ l, st = .ok := by
    induction l generalizing m with
    | nil => exact ⟨h, nofun⟩
    | cons st l ih =>
      obtain ⟨hm, hl⟩ := ih _ h
      have first : m = .ok ∧ st = .ok := by
        dsimp only at hm
        split at hm
        · next e => exact ⟨hm, e⟩
        · next e =>
          split at hm
          · exact absurd hm e
          · next n => split at hm <;> [exact absurd hm e; exact absurd hm n]
      exact ⟨first.1, List.forall_mem_cons.mpr ⟨first.2, hl⟩⟩
  exact (low l .ok h).2

theorem startable_found {s : State} {q seq : Nat} {sel : List Byte → Bool} {x : Started} (h : startable s q seq sel = some x) :
    ((queue s q).started.find? fun x => x.seq = seq) = some x := by
  unfold startable at h
  dsimp only at h
  split at h
  · cases h
  · next y hy =>
    split at h
    · cases h
    · rw [hy, Option.some.inj h]

include hq hs hp hc hb h1 hk hd in
/-- A depot write whose block has to wait keeps it. -/
theorem exec_depotWrite_waits (hx : startable s q seq (isOp 0x09) = some x) (hr : depotReach s false p x.bytes = true)
    (hl : channelLow s (depotChannel b) = true) (ho : odN s kDepotReadOnly = 0) (hn : x.blocks = []) (hh : x.held = []) :
    exec (.depotWrite q seq Ecc.clean) s = .next (keepBlocks (bump s kDepotWriteWaits 1 (some p)) q seq { x with held := [b] }) := by
  subst hp hb
  have found := startable_found hx
  have waits : depotWriteBlocks (queue s q).part (mB x.bytes 4 4) 1 (mB x.bytes 12 8) Ecc.clean x s =
      (bump s kDepotWriteWaits 1 (some (queue s q).part), { x with held := [mB x.bytes 4 4] }) := by
    have one : List.range 1 = [0] := rfl
    unfold depotWriteBlocks
    rw [one, List.foldl_cons, List.foldl_nil, Nat.add_zero]
    refine (if_neg (by simp [hn])).trans ((if_pos ⟨hl, ho⟩).trans ((if_neg (by simp [hh])).trans ?_))
    rw [hh]; rfl
  show execDepotWrite q seq Ecc.clean s = _
  rw [execDepotWrite, rowOk_true hq hs, guardWf_true]
  refine congrArg Host.Outcome.next (runManifest_waits hx (startable_isOp hx) hc hr hk ?_)
  dsimp only
  rw [found]
  dsimp only
  rw [touchDepot_on hd, h1, waits]
  dsimp only
  rw [hn]
  rfl

/-- The state once a block has been written from memory to the depot. -/
def depotStored (s : State) (p b a : Nat) : State := (depotWriteBytes s b (memRead s.mem a 65536) [] Ecc.clean (some p)).1

include hq hs hp hc hb h1 ha hk hd in
theorem exec_depotWrite_stores (hx : startable s q seq (isOp 0x09) = some x) (hr : depotReach s false p x.bytes = true)
    (hl : channelLow s (depotChannel b) = false) (ho : odN s kDepotReadOnly ≠ 1) (hn : x.blocks = []) (ht : (touch s a 65536).1 = s)
    (hcl : CleanLines s a 65536) :
    exec (.depotWrite q seq Ecc.clean) s = .next (manifestParts (keepBlocks (depotStored s p b a) q seq { x with blocks := [(b, .ok)] })
      q seq [(0, .ok)] .ok) := by
  subst hp hb ha
  have found := startable_found hx
  have mine : depotAllowed s (queue s q).part (mB x.bytes 4 4) 65536 = true := by
    unfold depotCheck at hk
    dsimp only at hk
    have first := lowestStatus_ok hk _ (List.mem_cons_self ..)
    rw [h1, Nat.one_mul] at first
    by_contra n
    simp [n] at first
  have reach : allotted s (queue s q).part (mB x.bytes 12 8) 65536 false = true := by
    rw [depotReach, h1, Nat.one_mul, Bool.and_eq_true] at hr
    exact hr.1
  have block : depotWriteBlock (queue s q).part (mB x.bytes 12 8) (mB x.bytes 4 4) Ecc.clean s =
      (depotStored s (queue s q).part (mB x.bytes 4 4) (mB x.bytes 12 8), .ok) := by
    obtain ⟨written, -, -⟩ := depotWriteBytes_one (b := mB x.bytes 4 4) (bs := memRead s.mem (mB x.bytes 12 8) 65536) (some (queue s q).part) ho (memRead_length ..)
    unfold depotWriteBlock
    rw [if_neg (by simp [mine, reach]), devRead_clean _ ht hcl]
    exact Prod.ext rfl (by simp [written])
  have stores : depotWriteBlocks (queue s q).part (mB x.bytes 4 4) 1 (mB x.bytes 12 8) Ecc.clean x s =
      (depotStored s (queue s q).part (mB x.bytes 4 4) (mB x.bytes 12 8), { x with blocks := [(mB x.bytes 4 4, .ok)] }) := by
    have one : List.range 1 = [0] := rfl
    unfold depotWriteBlocks
    rw [one, List.foldl_cons, List.foldl_nil, Nat.add_zero, Nat.zero_mul, Nat.add_zero]
    refine (if_neg (by simp [hn])).trans ((if_neg (by simp [hl])).trans ?_)
    rw [block, hn]; rfl
  show execDepotWrite q seq Ecc.clean s = _
  rw [execDepotWrite, rowOk_true hq hs, guardWf_true]
  refine congrArg Host.Outcome.next (runManifest_taken hx (startable_isOp hx) hc hr hk ?_)
  dsimp only
  rw [found]
  dsimp only
  rw [touchDepot_on hd, h1, stores, depotParts_one]
  have status : blocksStatus { x with blocks := [(mB x.bytes 4 4, .ok)] } (mB x.bytes 4 4, 1) = .ok := by
    simp [blocksStatus, firstBad]
  rw [List.zipIdx_cons, List.zipIdx_nil, List.map_singleton, status]
  exact congrArg _ (if_neg (by simp))

end

theorem startable_congr {s t : State} {q seq : Nat} {sel : List Byte → Bool} {x : Started} (h : Steps [.ctr] s t)
    (hx : startable s q seq sel = some x) : startable t q seq sel = some x := by
  have hold : holding t = holding s := by rw [holding, holding, held, held, odN_congr h.od_eq]
  simpa only [startable, queue_congr h.queues_eq, hold] using hx

/-- The manifest kept stays startable, with the blocks that wait. -/
theorem startable_keepBlocks {s : State} {q seq : Nat} {sel : List Byte → Bool} {x y : Started} (h : startable s q seq sel = some x) :
    startable (keepBlocks s q seq y) q seq sel = some { x with blocks := y.blocks, held := y.held } := by
  have taken (l : List Started) : (l.map fun z => if z.seq = seq then { z with blocks := y.blocks, held := y.held } else z).takeWhile
      (fun z => z.seq ≠ seq) = l.takeWhile fun z => z.seq ≠ seq := by
    induction l with
    | nil => rfl
    | cons z l ih => by_cases e : z.seq = seq <;> simp_all
  have found (l : List Started) (hl : (l.find? fun z => z.seq = seq) = some x) :
      (l.map fun z => if z.seq = seq then { z with blocks := y.blocks, held := y.held } else z).find? (fun z => z.seq = seq) =
        some { x with blocks := y.blocks, held := y.held } := by
    induction l with
    | nil => cases hl
    | cons z l ih => by_cases e : z.seq = seq <;> simp_all
  have here := startable_found h
  unfold startable at h ⊢
  unfold keepBlocks modStarted
  dsimp only at h ⊢
  rw [queue_setQueue_same]
  dsimp only
  rw [taken, found _ here]
  rw [here] at h
  dsimp only at h ⊢
  split at h
  · cases h
  · next n => exact if_neg n

end Sys2Proof.Machine

open Sys2Proof Sys2Proof.Machine

/-- Settles O51: a copy of at most 1 MiB is one part, a depot manifest of one block is one block's read or write. -/
theorem manifestsMoveData : Obligations.ManifestsMoveData := by
  unfold Obligations.ManifestsMoveData
  refine ⟨?toHost, ?fromHost, ?read, ?waits, ?write⟩
  case toHost =>
    intro q seq p src dst len x s hq hs hx hp hc hd hsrc hdst hlen h0 hl hr hh ht hb
    have out := exec_manifestCopy_toHost hq hs hx hp hc hsrc hdst hlen h0 hl hd hr hh ht hb
    refine ⟨fun hu hn => ⟨_, out, ?_⟩, fun hw => ⟨_, out, ?_⟩⟩
    · rw [hostPost, if_pos ⟨hu, hn⟩, hostWritten_plain rfl]
      exact ⟨rfl, rfl⟩
    · rw [hostPost, if_neg hw]
      exact ⟨rfl, rfl⟩
  case fromHost =>
    intro q seq p src dst len data x s hq hs hx hp hc hd hsrc hdst hlen h0 hl hdata hr hh ht hw hf hz
    subst hdata
    have ok : (devWrite s p dst data []).2 = .ok := by rw [devWrite_clean hw ht]; exact (storeBytes_ok _ _ _ _ hf).1
    obtain ⟨back, outside⟩ := devWrite_stores hw hf hz
    exact ⟨_, exec_manifestCopy_fromHost hq hs hx hp hc hsrc hdst hlen h0 hl hd rfl hr hh ok, back, outside,
      steps_devWrite.consists_eq, steps_devWrite.sems_eq, steps_devWrite.out_eq⟩
  case read =>
    intro q seq p b a x s hq hs hx hp hc hb h1 ha hr hk hd _ hw hn hf hz
    obtain ⟨back, outside, cells⟩ := depotCopied_one hw hn hf hz
    rcases copied : depotCopied s p b a with ⟨t, st⟩
    rw [copied] at back outside cells
    exact ⟨_, exec_depotRead_one hq hs hp hc hb h1 ha hk hd hx hr copied, back, outside, cells⟩
  case waits =>
    intro q seq p b a x s hq hs hx hp hc hb h1 ha hr hk hd _ hl ho hn hh
    have counted := counted_bump s kDepotWriteWaits (n := 1) (some p)
    have stays := startable_congr (steps_bump (s := s) (key := kDepotWriteWaits) (n := 1) (part := some p)) hx
    have frame := bump_eq s kDepotWriteWaits 1 (some p)
    have out := exec_depotWrite_waits hq hs hp hc hb h1 hk hd hx hr hl ho hn hh
    generalize bump s kDepotWriteWaits 1 (some p) = t at counted frame out stays
    refine ⟨_, out, counted, ?_, ?_⟩
    · rw [startable_keepBlocks stays]
    · rw [frame]; rfl
  case write =>
    intro q seq p b a x s hq hs hx hp hc hb h1 ha hr hk hd ht hl ho hn hcl
    obtain ⟨-, bytes, mapped⟩ := depotWriteBytes_one (b := b) (some p) ho (memRead_length s.mem a 65536)
    have mem : (depotStored s p b a).mem = s.mem := steps_depotWriteBytes.mem_eq
    have out := exec_depotWrite_stores hq hs hp hc hb h1 ha hk hd hx hr hl ho hn ht hcl
    rw [← depotStored] at bytes mapped
    generalize depotStored s p b a = t at *
    exact ⟨_, out, bytes, mapped, mem⟩
end

section
/-! O52: the depot's background work, its refreshes, and writes that wait for room (R257 to R263). -/

namespace Sys2Proof.Machine

-- Checked one after another: the check allows too few threads for more.
set_option Elab.async false

/-! ### Background work (R257) -/

/-- The state once background work has taken its effect and its time. -/
def bgDone (s e : State) (c us : Nat) : State :=
  bump { e with depot := { e.depot with window := tset [] e.depot.window c (bgBooked s c us) } } kDepotBgBusyUs us none

theorem background_free {s : State} {c us : Nat} {f : State → State} (h : channelReadQueued s c = false) :
    background c us f s = bgDone s (f s) c us := if_neg (by simp [h])

theorem background_late {s : State} {c us : Nat} {f : State → State} (h : channelReadQueued s c = true) (hf : bgFits s c us = false) :
    background c us f s = s := if_pos ⟨h, by simp [hf]⟩

theorem exec_depotBackgroundOp {op : DepotBg} {us u : Nat} {s : State} (h : bgChannel op < 16) :
    exec (.depotBackgroundOp op us u) s = .next (depotBackground s op us u) := by
  show execDepotBackgroundOp op us u s = _
  rw [execDepotBackgroundOp, decide_eq_true h, guardWf_true]

theorem steps_bgDone (s e : State) (c us : Nat) : Steps [.depot, .ctr] e (bgDone s e c us) := .andThen with_depot.mono steps_bump

theorem bgDone_depot (s e : State) (c us : Nat) :
    (bgDone s e c us).depot = { e.depot with window := tset [] e.depot.window c (bgBooked s c us) } := by rw [bgDone, bump_depot]

theorem ctrKept_bgDone (s e : State) (c us : Nat) : CtrKept [kDepotBgBusyUs] e (bgDone s e c us) :=
  (ctrKept_of_ctr (t := { e with depot := _ }) rfl).trans (ctrKept_bump _ us none nofun (by simp))

/-- What background work leaves of the depot's contents. -/
def ContentsKept (s t : State) : Prop := t.depot.cells = s.depot.cells ∧ t.depot.mapped = s.depot.mapped ∧ t.depot.poison = s.depot.poison

theorem ContentsKept.refl (s : State) : ContentsKept s s := ⟨rfl, rfl, rfl⟩
theorem ContentsKept.trans {s t u : State} (a : ContentsKept s t) (b : ContentsKept t u) : ContentsKept s u :=
  ⟨b.1.trans a.1, b.2.1.trans a.2.1, b.2.2.trans a.2.2⟩

theorem contentsKept_bgDone (s e : State) (c us : Nat) : ContentsKept e (bgDone s e c us) := by
  rw [ContentsKept, bgDone_depot]
  exact ⟨rfl, rfl, rfl⟩

/-- A relocation changes the shadow copies alone, and draws one number (R259). -/
theorem relocate_kept (until' : Nat) (s : State) (b : Nat) : ContentsKept s (relocate until' s b) ∧
    (relocate until' s b).depot.reads = s.depot.reads ∧ Steps [.depot, .free] s (relocate until' s b) := by
  have steps : Steps [.depot, .free] s (relocate until' s b) := steps_relocate.mono
  unfold relocate at steps ⊢
  split
  · exact ⟨.refl s, rfl, .refl⟩
  · exact ⟨⟨rfl, rfl, rfl⟩, rfl, ⟨rfl, le_rfl, id⟩⟩

/-- A block with no copy under way, on a channel with an erased block, has a copy noted. -/
theorem relocate_noted {s : State} {b : Nat} (until' : Nat) (hm : s.depot.mapped.contains b = true)
    (hs : (s.depot.shadow.any fun x => x.1 = b) = false) (hf : channelFree s (depotChannel b) ≠ 0) :
    (relocate until' s b).depot.shadow = tins s.depot.shadow b (erasePlace b s.free, until') := by
  unfold relocate
  rw [if_neg (by rw [hm, hs]; simp [hf])]

/-- Work other than the last spare block's end leaves the contents and the counters. -/
theorem bgEffect_kept (until' : Nat) (s : State) {op : DepotBg} (h : ∀ c, op ≠ .exhaust c) :
    ContentsKept s (bgEffect until' s op) ∧ Steps [.depot, .free] s (bgEffect until' s op) := by
  cases op with
  | collect c => exact ⟨⟨rfl, rfl, rfl⟩, rfl, le_rfl, id⟩
  | erase c => exact ⟨⟨rfl, rfl, rfl⟩, rfl, le_rfl, id⟩
  | exhaust c => exact absurd rfl (h c)
  | relocate b => exact ⟨(relocate_kept until' s b).1, (relocate_kept until' s b).2.2⟩
  | level b => exact ⟨(relocate_kept until' s b).1, (relocate_kept until' s b).2.2⟩

theorem exec_depotBackgroundOp_free {op : DepotBg} {us u : Nat} {s : State} (h : bgChannel op < 16)
    (hf : channelReadQueued s (bgChannel op) = false) :
    exec (.depotBackgroundOp op us u) s = .next (bgDone { s with now := max s.now u }
      (bgEffect (max s.now u + 1000 * us) { s with now := max s.now u } op) (bgChannel op) us) := by
  rw [exec_depotBackgroundOp h]
  exact congrArg Host.Outcome.next (background_free (s := atTime s u) (f := fun s => bgEffect (s.now + 1000 * us) s op) hf)

/-! ### Refreshes (R260) -/

/-- The microseconds of a refresh, which no command carries. -/
def refreshUs (s : State) : Nat := Config.freeCount kDepotBgBusyUs s.free

/-- The state once a refresh of a channel has taken its effect. -/
def refreshed (s : State) (c : Nat) (f : Nat → State → State) : State :=
  bgDone { s with free := s.free + 1 } (f (s.now + 1000 * refreshUs s) { s with free := s.free + 1 }) c (refreshUs s)

theorem refresh_free {s : State} {c : Nat} {f : Nat → State → State} (h : channelReadQueued s c = false) : refresh c f s = refreshed s c f :=
  background_free (s := { s with free := s.free + 1 }) h

/-- An erase block's valid blocks are relocated and its reads counted afresh. -/
def disturbEffect (e until' : Nat) (s : State) : State :=
  let t := (s.depot.mapped.filter fun b => eraseOf s.depot b = e).foldl (relocate until') s
  bump { t with depot := { t.depot with reads := tdel t.depot.reads e } } kDepotDisturbRefreshes 1 none

theorem exec_depotDisturbRefresh_read {b : Nat} {s : State} (hb : b < 2 ^ 32) (hl : b < odN s kDepotLogicalBlocks)
    (hm : s.depot.mapped.contains b = true) (hr : 100_000 ≤ tget 0 s.depot.reads (eraseOf s.depot b))
    (hf : channelReadQueued s (depotChannel b) = false) :
    exec (.depotDisturbRefresh b) s = .next (refreshed s (depotChannel b) (disturbEffect (eraseOf s.depot b))) := by
  show execDepotDisturbRefresh b s = _
  rw [execDepotDisturbRefresh, decide_eq_true hb, guardWf_true]
  exact congrArg Host.Outcome.next ((if_pos ⟨hl, hm, hr⟩).trans (refresh_free hf))

theorem exec_depotAgeRefresh_old {b : Nat} {s : State} (hb : b < 2 ^ 32) (hl : b < odN s kDepotLogicalBlocks)
    (hm : s.depot.mapped.contains b = true) (ho : tget 0 s.depot.written b + 90 * 86_400_000_000_000 < s.now)
    (hf : channelReadQueued s (depotChannel b) = false) :
    exec (.depotAgeRefresh b) s = .next (refreshed s (depotChannel b) fun until' s => relocate until' s b) := by
  show execDepotAgeRefresh b s = _
  rw [execDepotAgeRefresh, decide_eq_true hb, guardWf_true]
  exact congrArg Host.Outcome.next ((if_pos ⟨hl, hm, ho⟩).trans (refresh_free hf))

theorem relocates_kept (until' : Nat) (s : State) (l : List Nat) :
    ContentsKept s (l.foldl (relocate until') s) ∧ Steps [.depot, .free] s (l.foldl (relocate until') s) :=
  List.foldlRecOn (motive := fun t => ContentsKept s t ∧ Steps [.depot, .free] s t) l _ ⟨.refl s, .refl⟩ fun t h b _ =>
    ⟨h.1.trans (relocate_kept until' t b).1, h.2.trans (relocate_kept until' t b).2.2⟩

theorem disturbEffect_kept (e until' : Nat) (s : State) : ContentsKept s (disturbEffect e until' s) ∧
    Steps [.depot, .ctr, .free] s (disturbEffect e until' s) ∧ tget 0 (disturbEffect e until' s).depot.reads e = 0 ∧
    Counted s (disturbEffect e until' s) kDepotDisturbRefreshes 1 ∧ (disturbEffect e until' s).depot.shadow =
      ((s.depot.mapped.filter fun b => eraseOf s.depot b = e).foldl (relocate until') s).depot.shadow := by
  unfold disturbEffect
  obtain ⟨kept, steps⟩ := relocates_kept until' s (s.depot.mapped.filter fun b => eraseOf s.depot b = e)
  generalize (s.depot.mapped.filter fun b => eraseOf s.depot b = e).foldl (relocate until') s = t at kept steps
  dsimp only
  rw [ContentsKept, bump_depot]
  obtain ⟨cells, mapped, poison⟩ := kept
  refine ⟨⟨cells, mapped, poison⟩, .andThen (.andThen steps.mono with_depot) steps_bump, tget_tdel_same .., ?_, rfl⟩
  exact .after (t := { t with depot := _ }) (ctrGet_congr steps.ctr_eq _ _) (counted_bump (n := 1) _ _ _)

/-! ### Writes that wait for room (R258) -/

/-- The state once one block of a porter that waited goes on. -/
def resumedOne (s : State) (die i : Nat) : State :=
  let t := { s with depot := { s.depot with waiting := [] } }
  setPool t die { pool s die with flight := (pool s die).flight.map fun f => if f.id = i then { f with waits := false } else f }

theorem exec_depotWriteResume_one {c die i : Nat} {s : State} (hc : c < 16) (hl : channelLow s c = false)
    (hw : s.depot.waiting = [(c, die, i)]) : exec (.depotWriteResume c) s = .next (resumedOne s die i) := by
  show execDepotWriteResume c s = _
  rw [execDepotWriteResume, decide_eq_true hc, guardWf_true]
  refine congrArg Host.Outcome.next ((if_neg (by simp [hl])).trans ?_)
  have go : s.depot.waiting.filter (fun w => w.1 = c) = [(c, die, i)] := by rw [hw]; simp
  have stay : s.depot.waiting.filter (fun w => w.1 ≠ c) = [] := by rw [hw]; simp
  rw [go, stay]
  rfl

end Sys2Proof.Machine

open Sys2Proof Sys2Proof.Machine

/-- Settles O52: background work is its effect and its time; a refresh is work of a free time. -/
theorem depotKeepsItself : Obligations.DepotKeepsItself := by
  unfold Obligations.DepotKeepsItself
  refine ⟨?work, ?late, ?exhaust, ?disturb, ?age, ?resume⟩
  case work =>
    intro op us u s e hus hc hf hx he
    have out := exec_depotBackgroundOp_free (us := us) (u := u) hc hf
    obtain ⟨⟨cells, mapped, poison⟩, steps⟩ := bgEffect_kept (max s.now u + 1000 * us) { s with now := max s.now u } hx
    rw [← he] at out cells mapped poison steps
    have depot := bgDone_depot { s with now := max s.now u } e (bgChannel op) us
    refine ⟨_, out, depot, ?cells, ?mapped, ?poison, ?busy, ?stale, ?noted, ?frame⟩
    case cells => rw [depot]; exact cells
    case mapped => rw [depot]; exact mapped
    case poison => rw [depot]; exact poison
    case busy =>
      exact .after (t := { e with depot := _ }) (ctrGet_congr steps.ctr_eq _ _) (counted_bump _ _ _ (Nat.ne_of_gt hus))
    case stale =>
      rw [depot]
      rintro (h | h) <;> rw [he, h] <;> exact tget_tdel_same ..
    case noted =>
      rw [depot]
      rintro b (rfl | rfl) hm hs hn <;> rw [he] <;> exact relocate_noted (s := { s with now := max s.now u }) _ hm hs hn
    case frame =>
      exact (Steps.andThen (F := [.depot, .ctr, .free]) steps.mono (steps_bgDone _ _ _ _)).frame
  case late =>
    intro op us u s hc hq hf
    rw [exec_depotBackgroundOp hc]
    exact congrArg Host.Outcome.next (background_late (s := atTime s u) (f := fun s => bgEffect (s.now + 1000 * us) s op) hq hf)
  case exhaust =>
    intro c us u s hc hf
    have out := exec_depotBackgroundOp_free (op := .exhaust c) (us := us) (u := u) hc hf
    have steps := steps_bgDone { s with now := max s.now u } (odSet { s with now := max s.now u } kDepotReadOnly 1) c us
    obtain ⟨cells, mapped, -⟩ := contentsKept_bgDone { s with now := max s.now u } (odSet { s with now := max s.now u } kDepotReadOnly 1) c us
    have only := (odN_congr steps.od_eq kDepotReadOnly).trans (odN_odSet_same _ _ _)
    refine ⟨_, out, only, ?kept, cells, mapped, steps.mem_eq, fun b bs bad e p => if_pos only⟩
    exact .trans (odKept_odSet (l := [kDepotReadOnly]) { s with now := max s.now u } 1 (by simp)) (odKept_of_od steps.od_eq)
  case disturb =>
    rintro b c s hb hl hm rfl hr hf
    have out := exec_depotDisturbRefresh_read hb hl hm hr hf
    obtain ⟨⟨cells, mapped, -⟩, steps, fresh, counted, shadow⟩ :=
      disturbEffect_kept (eraseOf s.depot b) (s.now + 1000 * refreshUs s) { s with free := s.free + 1 }
    unfold refreshed at out
    generalize disturbEffect (eraseOf s.depot b) (s.now + 1000 * refreshUs s) { s with free := s.free + 1 } = e at *
    have depot := bgDone_depot { s with free := s.free + 1 } e (depotChannel b) (refreshUs s)
    refine ⟨_, out, ?fresh, ?cells, ?mapped, ?counted, ?copied, ?frame⟩
    case fresh => rw [depot]; exact fresh
    case cells => rw [depot]; exact cells
    case mapped => rw [depot]; exact mapped
    case counted => exact counted.before ((ctrKept_bgDone _ e _ _).operator (by decide))
    case copied =>
      intro ho hs hn
      rw [depot]
      dsimp only
      rw [shadow, ho, List.foldl_cons, List.foldl_nil, relocate_noted (s := { s with free := s.free + 1 }) _ hm hs hn]
      exact any_tins ..
    case frame => exact (Steps.andThen (F := [.depot, .ctr, .free]) (.andThen (with_free.mono) steps) (steps_bgDone _ _ _ _)).frame
  case age =>
    rintro b c s hb hl hm rfl ho hf hs hn
    have out := exec_depotAgeRefresh_old hb hl hm ho hf
    have noted := relocate_noted (s := { s with free := s.free + 1 }) (s.now + 1000 * refreshUs s) hm hs hn
    obtain ⟨⟨cells, mapped, -⟩, -, steps⟩ := relocate_kept (s.now + 1000 * refreshUs s) { s with free := s.free + 1 } b
    unfold refreshed at out
    dsimp only at out
    generalize relocate (s.now + 1000 * refreshUs s) { s with free := s.free + 1 } b = e at *
    have depot := bgDone_depot { s with free := s.free + 1 } e (depotChannel b) (refreshUs s)
    refine ⟨_, (erasePlace b (s.free + 1), s.now + 1000 * refreshUs s), out, ?noted, ?cells, ?mapped, ?frame⟩
    case noted => rw [depot]; exact noted
    case cells => rw [depot]; exact cells
    case mapped => rw [depot]; exact mapped
    case frame => exact (Steps.andThen (F := [.depot, .ctr, .free]) (.andThen (with_free.mono) steps) (steps_bgDone _ _ _ _)).frame
  case resume =>
    intro c die i s hc hd hl hw
    exact ⟨_, exec_depotWriteResume_one hc hl hw, rfl, pool_setPool_same .., rfl⟩
end

section
/-! How a command of a stream runs (R123 to R127), and O55: the control verbs (R152 to R154, R177 to R179, R309 to R313). -/

namespace Sys2Proof.Machine

-- Checked one after another: the check allows too few threads for more.
set_option Elab.async false

/-! ### A command of a stream -/

/-- What `reaches` says, part by part. -/
structure Reached (x : VerbIn) (p : Nat) (s : State) : Prop where
  running : (con s x.h.consist).pstate = .running
  ending : (con s x.h.consist).ending = false
  hold : (con s x.h.consist).hold = none
  ahead : (con s x.h.consist).ahead = []
  live : live s x.h.consist = true
  part : conPart s x.h.consist = some p
  stall : (con s x.h.consist).stall = none
  judged : (con s x.h.consist).judged = none

theorem reached_of_reaches {x : VerbIn} {p : Nat} {s : State} (h : reaches x p s = true) : Reached x p s := by
  simp only [reaches, Bool.and_eq_true, decide_eq_true_eq, Bool.not_eq_true'] at h
  obtain ⟨⟨⟨⟨⟨⟨⟨running, ending⟩, hold⟩, ahead⟩, live⟩, part⟩, stall⟩, judged⟩ := h
  exact ⟨running, ending, hold, ahead, live, part, stall, judged⟩

theorem take_of_reached {x : VerbIn} {p : Nat} {s : State} (h : Reached x p s) : take x s = reach x s := by
  unfold take
  dsimp only
  rw [if_neg (by simp [h.running, h.ending]), if_neg (by simp [h.hold, h.stall, h.ahead, h.live])]

theorem clearJudged_none {k : Nat} {s : State} (h : (con s k).judged = none) : clearJudged k s = s := if_pos h

/-! ### Control verbs (R127) -/

/-- The tokens that a verb awaits at the loop indices in force. -/
def tokensOf (x : VerbIn) (s : State) : List (Nat × Nat) := awaited x.h (loopIndices (con s x.h.consist))

/-- The status in which a control verb runs whose tokens have arrived (R145). -/
def tokenSt (o : Option (Nat × Nat)) : Status := if o = none then .ok else .aborted

theorem tokenSt_eq (o : Option (Nat × Nat)) : (if o ≠ none then Status.aborted else .ok) = tokenSt o := by
  cases o <;> rfl

section
variable {x : VerbIn} {p : Nat} {s : State} (h : Reached x p s) (hc : isControl x.v = true) (hp : ∀ y ∈ tokensOf x s, (semGet s y.1).part = p)

include h hp in
theorem tokens_granted : ((tokensOf x s).any fun w => some (semGet s w.1).part ≠ conPart s x.h.consist) = false := by
  rw [h.part]
  exact List.any_eq_false.mpr fun w hw => by simp [hp w hw]

include h hc hp

/-- A control verb whose tokens have arrived runs, with the judgement of its tokens. -/
theorem reach_control (ha : waitsArrived s (tokensOf x s) = true) (hm : ∀ o, x.v = .slotMark o → slotClear (con s x.h.consist) = true) :
    reach x s = runControl x (tokenSt (errorOrigin s.sems (tokensOf x s))) (errorOrigin s.sems (tokensOf x s)) s := by
  have granted := tokens_granted h hp
  have origin : (con s x.h.consist).judged.getD (errorOrigin s.sems (tokensOf x s)) = errorOrigin s.sems (tokensOf x s) := by rw [h.judged]; rfl
  unfold tokensOf at *
  unfold reach
  dsimp only
  rw [granted, ha, origin, clearJudged_none h.judged, if_neg Bool.false_ne_true, tokenSt_eq]
  split
  · next e => rw [e] at hc; cases hc
  · rw [if_pos hc, if_neg (by simp)]
    split
    · next o e => exact if_pos (.inl (hm o e))
    · rfl

/-- A control verb awaits its tokens, and the broadcast with it. -/
theorem reach_waits (ha : waitsArrived s (tokensOf x s) = false) : reach x s = holdAt x (.control (tokensOf x s) (some (tickNow s))) s := by
  have granted := tokens_granted h hp
  unfold tokensOf at *
  unfold reach
  dsimp only
  rw [granted, ha, clearJudged_none h.judged]
  split
  · next e => rw [e] at hc; cases hc
  · rw [if_pos hc]; rfl

end

/-- What `controlRuns` says. -/
theorem controlRuns_iff {x : VerbIn} {p : Nat} {s : State} (h : controlRuns x p s = true) : Reached x p s ∧ isControl x.v = true ∧
    x.h.post = none ∧ (∀ y ∈ tokensOf x s, (semGet s y.1).part = p) ∧ waitsArrived s (tokensOf x s) = true ∧
    errorOrigin s.sems (tokensOf x s) = none := by
  simp only [controlRuns, Bool.and_eq_true, decide_eq_true_eq, List.all_eq_true] at h
  obtain ⟨⟨⟨⟨⟨reaches, control⟩, post⟩, granted⟩, arrived⟩, fine⟩ := h
  exact ⟨reached_of_reaches reaches, control, post, granted, arrived, fine⟩

/-- A control verb whose tokens have arrived without an error runs where the sequencer reaches it. -/
theorem exec_control {i : Instr} {x : VerbIn} {p : Nat} {s : State} (hv : verbOf i = some x) (w : i.wf = true) (h : controlRuns x p s = true)
    (hm : ∀ o, x.v = .slotMark o → slotClear (con s x.h.consist) = true) :
    exec i s = .next (finishCheck x.h.consist (runControl x .ok none s)) := by
  obtain ⟨reached, control, -, granted, arrived, fine⟩ := controlRuns_iff h
  rw [exec_verb hv w, take_of_reached reached, reach_control reached control granted arrived hm, fine]
  rfl

/-! ### The place in the stream -/

/-- What the check for the end of a stream leaves of a consist (R124). -/
theorem con_finishCheck (k : Nat) (s : State) : con (finishCheck k s) k = con s k ∨
    con (finishCheck k s) k = { con s k with pstate := .stopped, ending := false, hold := none, ahead := [] } := by
  unfold finishCheck
  dsimp only
  split
  · exact .inr (con_setCon_same ..)
  · exact .inl rfl

theorem con_finishCheck_ne {k j : Nat} (s : State) (h : j ≠ k) : con (finishCheck k s) j = con s j := by
  unfold finishCheck
  dsimp only
  split
  · exact con_setCon_ne _ _ h
  · rfl

theorem nouns_finishCheck (k : Nat) (s : State) : (con (finishCheck k s) k).nouns = (con s k).nouns := by
  obtain h | h := con_finishCheck k s <;> rw [h]
theorem pos_finishCheck (k : Nat) (s : State) : (con (finishCheck k s) k).pos = (con s k).pos := by
  obtain h | h := con_finishCheck k s <;> rw [h]
theorem vi_finishCheck (k : Nat) (s : State) : (con (finishCheck k s) k).vi = (con s k).vi := by
  obtain h | h := con_finishCheck k s <;> rw [h]
theorem siding_finishCheck (k : Nat) (s : State) : (con (finishCheck k s) k).siding = (con s k).siding := by
  obtain h | h := con_finishCheck k s <;> rw [h]
theorem verbs_finishCheck (k : Nat) (s : State) : (con (finishCheck k s) k).verbs = (con s k).verbs := by
  obtain h | h := con_finishCheck k s <;> rw [h]

/-- A consist one position on in its stream; at its end the stream ends (R124, R146). -/
def steppedOn (c : Consist) : Consist :=
  { c with
    pos := c.pos + 1, vi := (c.vi + 1) % 2 ^ 32
    ending := c.ending || (match c.prog with
      | some g => decide (g.stream.length ≤ c.pos + 1)
      | none => true) }

theorem con_advance (k : Nat) (s : State) : con (advance k s) k = steppedOn (con s k) := by
  rw [advance, moveTo, nextNumber, con_modCon_same, placeAt, con_modCon_same]
  rfl

theorem con_advance_ne {k j : Nat} (s : State) (h : j ≠ k) : con (advance k s) j = con s j := by
  rw [advance, moveTo, nextNumber, con_modCon_ne _ _ h, placeAt, con_modCon_ne _ _ h]

theorem nouns_advance (k : Nat) (s : State) : (con (advance k s) k).nouns = (con s k).nouns := by rw [con_advance]; rfl
theorem pos_advance (k : Nat) (s : State) : (con (advance k s) k).pos = (con s k).pos + 1 := by rw [con_advance]; rfl

/-! ### What each control verb does (R152 to R154, R177 to R179, R313) -/

section
variable {h : VerbHdr} {s : State} (post : h.post = none)
include post

theorem runControl_loopBegin {slot p : Nat} (part : conPart s h.consist = some p) (hs : slot ≤ 63) (hl : (con s h.consist).loops.length < 4) :
    runControl ⟨h, .loopBegin slot⟩ .ok none s =
      (if tget 0 (con s h.consist).slots slot = 0 then
        moveTo h.consist (skipLoop (match (con s h.consist).prog with
          | some g => g.stream.drop ((con s h.consist).pos + 1)
          | none => []) ((con s h.consist).pos + 1) 0) (bump s kLoopsZeroCount 1 (some p))
      else advance h.consist (setCon s h.consist { con s h.consist with
        loops := (con s h.consist).loops ++ [⟨tget 0 (con s h.consist).slots slot, 0, (con s h.consist).pos + 1⟩] })) := by
  have fine : ¬ (63 < slot ∨ 4 ≤ (con s h.consist).loops.length) := by omega
  unfold runControl
  simp only [post, part, if_neg fine, ne_eq, not_true_eq_false, or_self, if_false, if_true] <;> rfl

theorem runControl_loopEnd {l : LoopLevel} (hl : (con s h.consist).loops.getLast? = some l) :
    runControl ⟨h, .loopEnd⟩ .ok none s =
      (if l.index + 1 < l.count then moveTo h.consist l.start (setCon s h.consist { con s h.consist with
        loops := (con s h.consist).loops.dropLast ++ [{ l with index := l.index + 1 }] })
      else advance h.consist (setCon s h.consist { con s h.consist with loops := (con s h.consist).loops.dropLast })) := by
  unfold runControl
  simp only [post, hl, ne_eq, not_true_eq_false, or_self, if_false, true_and]

theorem runControl_slotWrite {a slot p : Nat} {bs : List Byte} {s' : State} (part : conPart s h.consist = some p) (hs : slot ≤ 63)
    (ha : a % 4 = 0) (hr : seqRead s p a 4 h.ecc = (s', .ok, bs)) :
    runControl ⟨h, .slotWrite a slot⟩ .ok none s = advance h.consist (setCon s' h.consist { con s h.consist with
      slots := tset 0 (con s h.consist).slots slot (leNat bs) }) := by
  have fine : ¬ (63 < slot ∨ a % 4 ≠ 0) := by omega
  unfold runControl
  simp only [post, part, if_neg fine, ne_eq, not_true_eq_false, or_self, if_false, if_true, Option.getD_some, hr]

theorem runControl_nounSet {handle a p : Nat} {image : Noun} {bs : List Byte} {s' : State} (part : conPart s h.consist = some p)
    (ha : a % 64 = 0) (hr : seqRead s p a 64 h.ecc = (s', .ok, bs)) (hn : nounStatus s' p handle image (loopIndices (con s h.consist)) = .ok) :
    runControl ⟨h, .nounSet handle a image⟩ .ok none s = advance h.consist (putNoun s' h.consist handle image) := by
  unfold runControl
  simp only [post, part, ha, ne_eq, not_true_eq_false, or_self, if_false, if_true, Option.getD_some, hr, hn]

/-- The target of a mark: its anchor's tick and offset; without an anchor a free tick stands for it. -/
def markTarget (k : Nat) (anchor : Option Nat) (o : MarkOps) : Nat := (anchor.getD (Config.noAnchor k) + o.offset) % 2 ^ 48

/-- A mark with its anchor read holds the broadcast for its boundary. -/
def marked (s s' : State) (k : Nat) (o : MarkOps) (anchor : Option Nat) : State :=
  advance k (setCon s' k { con s k with
    anchor := anchor, hold := some (.slot o.slot (markTarget k anchor o) (some (tickMax (markTarget k anchor o) (tickNow s' + 1)))) })

theorem runControl_slotMark_again {o : MarkOps} (ho : o.anchor = none) :
    runControl ⟨h, .slotMark o⟩ .ok none s = marked s s h.consist o (con s h.consist).anchor := by
  unfold runControl
  simp only [post, ho, ne_eq, not_true_eq_false, or_self, if_false]
  rfl

theorem runControl_slotMark_read {o : MarkOps} {a p : Nat} {bs : List Byte} {s' : State} (part : conPart s h.consist = some p)
    (ho : o.anchor = some a) (hr : seqRead s p a 8 h.ecc = (s', .ok, bs)) (hb : bits (leNat bs) 48 16 = 0) :
    runControl ⟨h, .slotMark o⟩ .ok none s = marked s s' h.consist o (some (leNat bs)) := by
  unfold runControl
  simp only [post, part, ho, ne_eq, not_true_eq_false, or_self, if_false, Option.getD_some, hr, hb]
  rfl

theorem runControl_nop : runControl ⟨h, .nop⟩ .ok none s = advance h.consist s := by
  unfold runControl
  simp only [post, ne_eq, not_true_eq_false, or_self, if_false]

theorem runControl_halt : runControl ⟨h, .halt⟩ .ok none s = modCon (advance h.consist s) h.consist fun c => { c with ending := true } := by
  unfold runControl
  simp only [post, ne_eq, not_true_eq_false, or_self, if_false, decide_true, Bool.or_true]

end

/-- A `nop` that names a post, or met an error, posts. -/
theorem runControl_nop_token {h : VerbHdr} {s : State} {o : Option (Nat × Nat)} (hp : h.post ≠ none ∨ o ≠ none) :
    runControl ⟨h, .nop⟩ (tokenSt o) o s = postToken (advance h.consist s) h.consist (con s h.consist).vi h.queue 6 h.post
      (if o = none then 0 else 0x0E) noParts o := by
  have code : stCode (tokenSt o) = if o = none then 0 else 0x0E := by cases o <;> rfl
  have posts : tokenSt o ≠ .ok ∨ h.post ≠ none := by
    cases o with
    | none => exact .inr (hp.resolve_right (· rfl))
    | some o => exact .inl nofun
  unfold runControl
  simp only [if_pos posts, code]

/-! ### Parks and drains (R309, R313) -/

theorem tdel_tins {α : Type} (t : Tab α) (k : Nat) (v : α) : tdel (tins t k v) k = tdel t k := by
  induction t with
  | nil => simp [tins, tdel]
  | cons x t ih => obtain ⟨i, w⟩ := x; rw [tins]; split_ifs <;> simp_all [tdel]

theorem tins_tins {α : Type} (t : Tab α) (k : Nat) (v w : α) : tins (tins t k v) k w = tins t k w := by
  induction t with
  | nil => simp [tins]
  | cons x t ih => obtain ⟨i, u⟩ := x; simp only [tins]; split_ifs <;> simp_all [tins]

/-- Of two writes of a consist that runs the later one stands. -/
theorem setCon_setCon_eq {s : State} {k : Nat} {c d : Consist} (h : c.pstate = .running) : setCon (setCon s k c) k d = setCon s k d := by
  have loaded : c ≠ Consist.reset := fun e => by rw [e] at h; cases h
  have table : tset Consist.reset (tset Consist.reset s.consists k c) k d = tset Consist.reset s.consists k d := by
    simp only [tset, if_neg loaded, tdel_tins, tins_tins]
  simp only [setCon, table]

theorem modCon_setCon {s : State} {k : Nat} {c : Consist} (f : Consist → Consist) (h : c.pstate = .running) :
    modCon (setCon s k c) k f = setCon s k (f c) := by
  rw [modCon, con_setCon_same, setCon_setCon_eq h]

theorem advance_setCon {s : State} {k : Nat} {c : Consist} (h : c.pstate = .running) : advance k (setCon s k c) = setCon s k (steppedOn c) := by
  rw [advance, moveTo, placeAt, con_setCon_same, modCon_setCon _ h, nextNumber, modCon_setCon]
  · rfl
  · exact h

theorem runControl_drain {h : VerbHdr} {s : State} {p : Nat} (post : h.post = none) (reached : Reached ⟨h, .drain⟩ p s)
    (hs : (con s h.consist).siding = []) (hr : (con s h.consist).sidingRuns = []) :
    runControl ⟨h, .drain⟩ .ok none s = advance h.consist (setCon (bump s kPhrasebookCalls 1 (some p)) h.consist
      { con s h.consist with draining := none, drainStatus := 0, hold := none }) := by
  have running := reached.running
  have judged := reached.judged
  have part := reached.part
  dsimp only at running judged part
  unfold runControl
  dsimp only
  rw [part, if_neg (fun n => n rfl)]
  generalize bump s kPhrasebookCalls 1 (some p) = u
  generalize con s h.consist = c at *
  rw [advance_setCon, nextNumber, modCon_setCon]
  rotate_left
  · exact running
  · exact running
  unfold drainWork
  simp only [con_setCon_same, hs, hr, List.foldl_nil, post, ne_eq, not_true_eq_false, or_self, if_false]
  rw [setCon_setCon_eq, placeAt, modCon_setCon]
  rotate_left
  · exact running
  · exact running
  simp only [steppedOn, judged] <;> rfl

/-- The entry that a park puts in the siding (R309). -/
def parkEntry (h : VerbHdr) (o : ParkOps) (s : State) : SidingEntry :=
  { segment := o.segment, queue := h.queue, cost := o.cost, nouns := o.nouns, loopIx := loopIndices (con s h.consist), post := h.post
    scalars := o.scalars.map fun c => BitVec.ofNat 64 (scalVal h.consist 0 (loopIndices (con s h.consist)) (bindStage s h.consist c))
    waits := awaited h (loopIndices (con s h.consist)), vi := (con s h.consist).vi
    judged := judgeWaits s.sems (awaited h (loopIndices (con s h.consist))) none }

/-- The state in which a park has counted its call and opened its step. -/
def parkOpened (h : VerbHdr) (p : Nat) (s : State) : State := openStep (bump (nextNumber h.consist s) kPhrasebookCalls 1 (some p)) p

/-- The state in which a park's entry stands behind the others. -/
def parkQueued (h : VerbHdr) (o : ParkOps) (p : Nat) (s : State) : State :=
  bump (modCon (parkOpened h p s) h.consist fun c => { c with siding := c.siding ++ [parkEntry h o s] }) kSidingParks 1 (some p)

theorem con_parkOpened (h : VerbHdr) (p : Nat) (s : State) :
    con (parkOpened h p s) h.consist = { con s h.consist with vi := ((con s h.consist).vi + 1) % 2 ^ 32 } := by
  rw [parkOpened, con_congr steps_openStep.consists_eq, con_bump, nextNumber, con_modCon_same]

theorem parkAt_behind {h : VerbHdr} {o : ParkOps} {p : Nat} {g : Program} {s : State} (reached : Reached ⟨h, .park o⟩ p s)
    (hg : (con s h.consist).prog = some g) (h1 : o.segment < g.segments.length) (h2 : o.cost ≠ 0) (h3 : o.cost < 2 ^ 32)
    (h4 : o.nouns.length ≤ 8) (h5 : o.scalars.length ≤ 4) (h6 : o.scalars.any scalOpen = false)
    (hl : (con s h.consist).siding.length < odN s (kSidingLimit p)) :
    parkAt ⟨h, .park o⟩ o (loopIndices (con s h.consist)) s = odSet (parkQueued h o p s) (kSidingParkedMax p)
      (max (odN (parkQueued h o p s) (kSidingParkedMax p)) (con (parkQueued h o p s) h.consist).siding.length) := by
  have part := reached.part
  dsimp only at part
  have fine : ¬ (g.segments.length ≤ o.segment ∨ o.cost = 0 ∨ 2 ^ 32 ≤ o.cost ∨ 8 < o.nouns.length ∨ 4 < o.scalars.length ∨ o.scalars.any scalOpen) := by
    simp [h6]; omega
  have room : ¬ odN (parkOpened h p s) (kSidingLimit p) ≤ (con (parkOpened h p s) h.consist).siding.length := by
    rw [con_parkOpened, parkOpened, odN_congr steps_openStep.od_eq, odN_bump]
    exact Nat.not_le.mpr hl
  unfold parkAt
  dsimp only
  rw [part, hg]
  dsimp only
  rw [if_neg fine]
  exact if_neg room

theorem steps_parkQueued {h : VerbHdr} {o : ParkOps} {p : Nat} {s : State} : Steps [.consists, .ctr, .parts] s (parkQueued h o p s) := by
  unfold parkQueued parkOpened
  exact .andThen (.andThen (.andThen (.andThen steps_nextNumber.mono steps_bump) steps_openStep) steps_modCon) steps_bump

theorem con_parkQueued (h : VerbHdr) (o : ParkOps) (p : Nat) (s : State) : con (parkQueued h o p s) h.consist =
    { con s h.consist with vi := ((con s h.consist).vi + 1) % 2 ^ 32, siding := (con s h.consist).siding ++ [parkEntry h o s] } := by
  rw [parkQueued, con_bump, con_modCon_same, con_parkOpened]

theorem reach_park (h : VerbHdr) (o : ParkOps) (s : State) : reach ⟨h, .park o⟩ s =
    placeAt h.consist ((con s h.consist).pos + 1) (parkAt ⟨h, .park o⟩ o (loopIndices (con s h.consist)) s) := rfl

theorem parkQueued_counts (h : VerbHdr) (o : ParkOps) {p : Nat} (hp : p < 40) (s : State) :
    Counted s (parkQueued h o p s) kSidingParks 1 ∧ Counted s (parkQueued h o p s) kPhrasebookCalls 1 := by
  have call : Counted s (parkOpened h p s) kPhrasebookCalls 1 :=
    .before (.after (t := nextNumber h.consist s) rfl (counted_bump (n := 1) _ _ _)) (ctrGet_congr steps_openStep.ctr_eq _ _)
  have other : CtrKept [kPhrasebookCalls] s (parkOpened h p s) :=
    (ctrKept_bump (nextNumber h.consist s) 1 (some p) (by rintro q ⟨⟩; omega) (by simp)).trans (ctrKept_of_ctr steps_openStep.ctr_eq)
  have park : CtrKept [kSidingParks] (parkOpened h p s) (parkQueued h o p s) :=
    ctrKept_bump (modCon (parkOpened h p s) _ _) 1 (some p) (by rintro q ⟨⟩; omega) (by simp)
  exact ⟨.after (t := modCon (parkOpened h p s) _ _) (other.operator (by decide)) (counted_bump (n := 1) _ _ _),
    call.before (park.operator (by decide))⟩

end Sys2Proof.Machine

open Sys2Proof Sys2Proof.Machine

/-- Settles O55: each control verb runs at once, and what it does is its own branch of the sequencer. -/
theorem controlVerbsRun : Obligations.ControlVerbsRun := by
  unfold Obligations.ControlVerbsRun
  refine ⟨?begin, ?back, ?slot, ?noun, ?mark, ?park, ?drain, ?nop, ?halt, ?token, ?waits⟩
  case begin =>
    intro h slot p s w hr hs hl
    obtain ⟨reached, -, post, -⟩ := controlRuns_iff hr
    rw [exec_control rfl w hr nofun, runControl_loopBegin post reached.part hs hl] <;> rfl
  case back =>
    intro h p l s w hr hl
    obtain ⟨-, -, post, -⟩ := controlRuns_iff hr
    rw [exec_control rfl w hr nofun, runControl_loopEnd post hl]
  case slot =>
    intro h a slot p bs s s' w hr hs ha hb
    obtain ⟨reached, -, post, -⟩ := controlRuns_iff hr
    rw [exec_control rfl w hr nofun, runControl_slotWrite post reached.part hs ha hb]
  case noun =>
    intro h handle a p image bs s s' w hr ha hb hn
    obtain ⟨reached, -, post, -⟩ := controlRuns_iff hr
    have out := exec_control (i := .nounSet h handle a image) rfl w hr nofun
    rw [runControl_nounSet post reached.part ha hb hn] at out
    have read : Steps [.mem, .health, .od, .ctr] s s' := .of_eq steps_seqRead hb
    have same := con_congr read.consists_eq
    refine ⟨_, out, ?set, ?others, ?pos, ?consists, ?frame⟩
    case set => rw [nouns_finishCheck, nouns_advance, putNoun, con_modCon_same, tget_tset_same]; rfl
    case others =>
      intro n hn
      rw [nouns_finishCheck, nouns_advance, putNoun, con_modCon_same, tget_tset_ne _ _ _ hn, same]
    case pos => rw [pos_finishCheck, pos_advance, putNoun, con_modCon_same, same]
    case consists =>
      intro j hj
      rw [con_finishCheck_ne _ hj, con_advance_ne _ hj, putNoun, con_modCon_ne _ _ hj, same]
    case frame => exact (Steps.andThen (F := [.consists]) (.andThen steps_putNoun steps_advance) steps_finishCheck).frame
  case mark =>
    intro h o p bs s s' w hr hc ha
    obtain ⟨reached, -, post, -⟩ := controlRuns_iff hr
    rw [exec_control rfl w hr fun _ _ => hc]
    cases ho : o.anchor with
    | none =>
      rw [ho] at ha
      rw [runControl_slotMark_again post ho, show s' = s from ha]; rfl
    | some a =>
      rw [ho] at ha
      obtain ⟨read, low⟩ := ha
      rw [runControl_slotMark_read post reached.part ho read low]; rfl
  case nop =>
    intro h p s w hr
    obtain ⟨-, -, post, -⟩ := controlRuns_iff hr
    rw [exec_control rfl w hr nofun, runControl_nop post]
  case halt =>
    intro h p s w hr
    obtain ⟨-, -, post, -⟩ := controlRuns_iff hr
    rw [exec_control rfl w hr nofun, runControl_halt post]
  case token =>
    intro h p s w hr w' hp ha ht
    have reached := reached_of_reaches hr
    rw [exec_verb (x := ⟨h, .nop⟩) rfl w, take_of_reached reached, reach_control reached rfl hp ha nofun, runControl_nop_token (o := errorOrigin s.sems (tokensOf ⟨h, .nop⟩ s)) ht]
    rfl
  case waits =>
    intro i x p s hv w hr hc w' hp ha
    have reached := reached_of_reaches hr
    rw [exec_verb hv w, take_of_reached reached, reach_waits reached hc hp ha, finishCheck_goesOn]
    · rfl
    · rw [holdAt, con_modCon_same]; exact reached.ending
  case drain =>
    intro h p s w hr hs he
    obtain ⟨reached, -, post, -⟩ := controlRuns_iff hr
    rw [exec_control rfl w hr nofun, runControl_drain post reached hs he]
  case park =>
    intro h o p g s w hr hp hg h1 h2 h3 h4 h5 h6 hl
    have reached := reached_of_reaches hr
    have out := exec_verb (x := ⟨h, .park o⟩) rfl w (s := s)
    rw [take_of_reached reached, reach_park, parkAt_behind reached hg h1 h2 h3 h4 h5 h6 hl] at out
    obtain ⟨parks, calls⟩ := parkQueued_counts h o hp s
    refine ⟨_, out, ?siding, ?pos, ?vi, ?parks, ?calls, ?mem, ?sems⟩
    case siding => rw [siding_finishCheck, placeAt, con_modCon_same, con_odSet, con_parkQueued]; rfl
    case pos => rw [pos_finishCheck, placeAt, con_modCon_same]
    case vi => rw [vi_finishCheck, placeAt, con_modCon_same, con_odSet, con_parkQueued]
    case parks => exact parks.before (ctrGet_congr (Steps.ctr_eq (F := [.consists, .od]) (.andThen (.andThen steps_odSet.mono steps_placeAt) steps_finishCheck)) _ _)
    case calls => exact calls.before (ctrGet_congr (Steps.ctr_eq (F := [.consists, .od]) (.andThen (.andThen steps_odSet.mono steps_placeAt) steps_finishCheck)) _ _)
    case mem =>
      exact (Steps.andThen (F := [.consists, .ctr, .parts, .od]) (.andThen (.andThen steps_parkQueued.mono steps_odSet) steps_placeAt)
        steps_finishCheck).mem_eq
    case sems =>
      exact (Steps.andThen (F := [.consists, .ctr, .parts, .od]) (.andThen (.andThen steps_parkQueued.mono steps_odSet) steps_placeAt)
        steps_finishCheck).sems_eq
end

section
/-! O57: the porters (R233 to R242). The statement fails on an unreachable state alone: a porter slot that shares its number with one
that waits for the uncoupled receiver ends with it, and the block in it may count under a partition number beyond the table's 40. -/

namespace Sys2Proof.Machine

-- Checked one after another: the check allows too few threads for more.
set_option Elab.async false

/-- A block of consist `k` for the scratch of consist 0. -/
def castBlock (k : Nat) : Block :=
  { consist := k, vi := 0, core := 0, order := 0, entry := 0, body := .raw (.dev 0) (.castScratch 0) 1 false 0, back := false, cast := [0]
    arrive := none, refetch := none, sched := 0, bad := .ok, stale := false }

/-- That block in slot 0, with the receivers that have still to complete it. -/
def castFlight (k : Nat) (todo : List Nat) (wrote : Bool) : InFlight := ⟨0, castBlock k, [], [], [], .ok, todo, wrote, false, false, Ecc.clean⟩

/-- The grant of one consist and of nothing else. -/
def grantedConsist (k : Nat) : Part := { Part.reset with grant := some ⟨2 ^ k, 0, 0, 0, 0, 0, 0, 0, 0⟩ }

/-- The stream that receivers 0 and 9 are coupled to, which receiver 0 has held at four boundaries. -/
def sharedStream : CastStream := ⟨0, 0, [0, 9], [(0, 4)], [], []⟩

/-- Receiver 0 holds the stream of consist 0 for the fifth time; a block of consist 5, which the partition numbered 381 holds, has been
written by all its receivers and stands under the number of the slots that wait. -/
def sharedSlots : State := { State.reset with
  casts := [sharedStream]
  parts := [(0, grantedConsist 0), (381, grantedConsist 5)]
  pools := [(0, { Pool.reset with flight := List.replicate 64 (castFlight 0 [0, 8] false) ++ [castFlight 5 [] true] })] }

theorem findVerb_none {s : State} (h : s.consists = []) (k vi : Nat) : findVerb s k vi = none := by
  rw [findVerb, con, h]; rfl

/-- A block without an arrival that is no part of a verb leaves its counts, and nothing else but its consist's entry. -/
theorem blockEnded_alone {s : State} {b : Block} (st : Status) (n : Nat) (hc : s.consists = []) (ha : b.arrive = none) (hs : b.stale = false) :
    (blockEnded s b st n).ctr = (countBlock s b st n).ctr ∧ (blockEnded s b st n).parts = s.parts := by
  have steps : Steps [.ctr] s (countBlock s b st n) := steps_countBlock
  have none_ : (countBlock s b st n).consists = [] := steps.consists_eq.trans hc
  have parts := steps.parts_eq
  unfold blockEnded
  generalize countBlock s b st n = t at *
  simp only [ha, hs, Bool.false_eq_true, if_false]
  rw [findVerb_none]
  · exact ⟨steps_modVerb.ctr_eq, steps_modVerb.parts_eq.trans parts⟩
  · rw [modVerb, modCon, setCon, con, none_]; rfl

theorem foldl_single {α β : Type} {f : β → α → β} {b : β} {l : List α} {a : α} (h : l = [a]) : l.foldl f b = f b a := by rw [h]; rfl

theorem modVerb_none {s : State} (h : s.consists = []) (k vi : Nat) (f : VEntry → VEntry) : (modVerb s k vi f).consists = [] := by
  rw [modVerb, modCon, setCon, con, h]; rfl

theorem refetch_alone {s : State} (h : s.consists = []) (casts : List CastStream) (die : Nat) (q : Pool) (k vi r : Nat) (bs : List Block) :
    Steps [.consists, .pools, .casts] s (refetch (setPool { s with casts := casts } die q) k vi r bs) ∧
      (refetch (setPool { s with casts := casts } die q) k vi r bs).consists = [] :=
  ⟨.andThen (.andThen with_casts.mono steps_setPool) steps_refetch, by
    rw [refetch, submit]
    exact modVerb_none (s := setPool { s with casts := casts } die q) h ..⟩

/-- The countings of the shared slot's end reach the operator's view of the uncouplings, 381 partitions further on. -/
theorem countBlock_shared {s : State} (h : conPart s 5 = some 381) :
    ctrGet (countBlock s (castBlock 5) .ok 1) kUncouplings 0 = (ctrGet s kUncouplings 0 + 1) % 2 ^ 64 := by
  have moved : countBlock s (castBlock 5) .ok 1 = bump (bump s kBlocksMoved 1 (some 381)) kBytesMoved 1 (some 381) := by
    unfold countBlock
    rw [show (castBlock 5).consist = 5 from rfl, h]; rfl
  rw [moved]
  unfold ctrGet bump ctrAdd
  simp only [Nat.one_ne_zero, if_false]
  simp only [kBytesMoved, kBlocksMoved, kUncouplings, tget_tmod_same, tget_tmod_ne, Nat.reduceMul, Nat.reduceAdd, ne_eq, Nat.reduceEqDiff, not_false_eq_true]

theorem uncouple_shared {s : State} (hq : pool s 0 = (pool sharedSlots 0)) (hp : s.parts = sharedSlots.parts) (hc : s.consists = []) :
    ctrGet (uncouple s sharedStream 0) kUncouplings 0 = ((ctrGet s kUncouplings 0 + 1) % 2 ^ 64 + 1) % 2 ^ 64 ∧
      (uncouple s sharedStream 0).parts = s.parts := by
  have part : conPart s 0 = some 0 ∧ conPart s 5 = some 381 := by rw [conPart, conPart, hp]; decide +kernel
  unfold uncouple
  dsimp only
  rw [show conDie sharedStream.consist = 0 from rfl, hq, foldl_single (a := castFlight 5 [] true)]
  rotate_left
  · decide +kernel
  generalize counted : bump s kUncouplings 1 (conPart s sharedStream.consist) = b
  have ctr : ctrGet b kUncouplings 0 = (ctrGet s kUncouplings 0 + 1) % 2 ^ 64 := by
    rw [← counted]; exact ctrGet_bump_operator s _ 1 _ (by decide)
  have steps : Steps [.ctr] s b := counted ▸ steps_bump
  obtain ⟨rest, no⟩ := refetch_alone (steps.consists_eq.trans hc) _ 0 _ sharedStream.consist sharedStream.vi 0 _
  generalize refetch _ _ _ _ _ = u at rest no ⊢
  obtain ⟨ended, same⟩ := blockEnded_alone (s := u) (b := castBlock 5) .ok 1 no rfl rfl
  refine ⟨?_, same.trans (rest.parts_eq.trans steps.parts_eq)⟩
  refine (ctrGet_congr ended _ _).trans ?_
  rw [countBlock_shared ((conPart_congr (rest.parts_eq.trans steps.parts_eq) _).trans part.2), ctrGet_congr rest.ctr_eq, ctr]

/-- The state in which the sample of the fifth boundary has been taken. -/
def heldSlots : State :=
  bumpFree { sharedSlots with casts := [{ sharedStream with held := [(0, 5)] }] } kMulticastWindowStalls (some 0)

theorem castSample_shared : castSample sharedSlots = uncouple heldSlots sharedStream 0 := by
  have full : windowFull (pool sharedSlots 0) sharedStream.consist sharedStream.vi = true := by decide +kernel
  have held : (sharedStream.coupled.foldl
      (fun t r => if holds (pool sharedSlots 0) sharedStream r then tmod 0 t r (· + 1) else tdel t r) sharedStream.held) = [(0, 5)] := by
    decide +kernel
  rw [castSample, show sharedSlots.casts = [sharedStream] from rfl, List.foldl_cons, List.foldl_nil]
  dsimp only
  rw [show conDie sharedStream.consist = 0 from rfl, if_neg (by decide), if_pos full, held]
  exact foldl_single (by decide)

/-- At the fifth boundary the receiver is uncoupled, and the uncouplings read two. -/
theorem uncouplings_shared : ctrGet (castOwed (castSample sharedSlots)) kUncouplings 0 = 2 := by
  have steps : Steps [.free, .casts, .ctr] sharedSlots heldSlots := .andThen with_casts.mono steps_bumpFree
  have zero : ctrGet heldSlots kUncouplings 0 = 0 := ctrGet_bump_ne _ _ _ _ (by decide) (by decide) (by rintro q ⟨⟩; decide)
  obtain ⟨two, same⟩ := uncouple_shared (s := heldSlots) (by rw [steps.frame]; rfl) steps.parts_eq steps.consists_eq
  have owed : nothingOwed sharedSlots = true := by decide +kernel
  rw [castSample_shared, castOwed_none ((nothingOwed_congr (same.trans steps.parts_eq)).trans owed), two, zero]
  rfl

end Sys2Proof.Machine

open Sys2Proof Sys2Proof.Machine

/-- Refutes O57: a porter slot that shares its number with one that the uncoupled receiver held ends with it, and its block's counting
under a partition numbered 381 reaches the operator's view of the uncouplings. -/
theorem not_portersMove : ¬ Obligations.PortersMove := by
  rintro ⟨-, -, -, h⟩
  obtain ⟨t, ht, -, counted⟩ := h sharedStream 0 9 0 sharedSlots rfl (by decide +kernel) (by decide) rfl (by decide) (by decide +kernel)
    (by decide +kernel) rfl (by decide +kernel) (by decide +kernel)
  obtain rfl := Host.Outcome.next.inj (show Host.Outcome.next (castOwed (castSample sharedSlots)) = .next t from ht)
  exact absurd (uncouplings_shared.symm.trans counted) (by decide)
end

section
/-! O56: issue on the cores, tokens, and what held the broadcast or the siding goes on (R126, R127, R144, R148, R311). -/

namespace Sys2Proof.Machine

-- Checked one after another: the check allows too few threads for more.
set_option Elab.async false

theorem live_congr {s t : State} {k : Nat} (ho : t.od = s.od) (hl : t.link = s.link) : live t k = live s k := by
  simp only [live, conOn, quiet, odN_congr ho, hl]

theorem stepLocked_congr {s t : State} {k : Nat} (ho : t.od = s.od) (hp : t.parts = s.parts) : stepLocked t k = stepLocked s k := by
  simp only [stepLocked, conPart_congr hp, odN_congr ho]

/-! ### Issue of one core (R148) -/

section
variable {k core cycles : Nat} {e : VEntry} {s : State}

/-- The state in which the core has issued the verb. -/
def issuedOn (k core cycles : Nat) (e : VEntry) (s : State) : State :=
  modVerb (bump s kScoreboardFullCycles cycles (conPart s k)) k e.vi fun e => { e with issued := bitSet e.issued core }

theorem exec_verbIssue_ready (hk : k < 40) (hc : core < 20) (running : (con s k).pstate = .running) (hl : live s k = true)
    (locked : stepLocked s k = false) (ready : readyHead (con s k) core = some e) (found : findVerb s k e.vi = some e)
    (origin : e.origin = none) (last : bitSet e.issued core ≠ 2 ^ 20 - 1) : exec (.verbIssue k core cycles) s =
      .next (markWaits k (if runsWhole k e (issuedOn k core cycles e s) then issuedOn k core cycles e s
        else runPart k core e (issuedOn k core cycles e s))) := by
  have same : Steps [.ctr] s (bump s kScoreboardFullCycles cycles (conPart s k)) := steps_bump
  show execVerbIssue k core cycles s = _
  rw [execVerbIssue, decide_eq_true ⟨hk, hc⟩, guardWf_true, issuedOn]
  generalize bump s kScoreboardFullCycles cycles (conPart s k) = u at same ⊢
  have consists : con u k = con s k := con_congr same.consists_eq k
  have found' : findVerb u k e.vi = some e := (congrArg (fun c => c.verbs.find? (·.vi = e.vi)) consists).trans found
  have go : ¬((con u k).pstate ≠ .running ∨ !live u k ∨ stepLocked u k) := by
    rw [consists, live_congr same.od_eq same.link_eq, stepLocked_congr same.od_eq same.parts_eq, running, hl, locked]; simp
  refine congrArg Host.Outcome.next ((if_neg go).trans ?_)
  rw [consists, ready]
  dsimp only
  rw [issueOne, found']
  dsimp only
  rw [if_neg (show ¬ bitSet e.issued core = allCores from last), if_neg (fun n => n origin)]

end

/-! ### The end of a verb alone in flight (R144) -/

/-- A consist with nothing in flight, in its siding or in the way of its broadcast. -/
structure Idle (c : Consist) : Prop where
  verbs : c.verbs = []
  siding : c.siding = []
  runs : c.sidingRuns = []
  draining : c.draining = none
  hold : c.hold = none
  ending : c.ending = false

theorem con_modCon_idle {s : State} {k : Nat} {f : Consist → Consist} (h : f (con s k) = con s k) (j : Nat) : con (modCon s k f) j = con s j := by
  by_cases e : j = k
  · rw [e, con_modCon_same, h]
  · rw [con_modCon_ne _ _ e]

theorem setCon_setCon_of_ne {s : State} {k : Nat} {c d : Consist} (h : c ≠ Consist.reset) : setCon (setCon s k c) k d = setCon s k d := by
  have table : tset Consist.reset (tset Consist.reset s.consists k c) k d = tset Consist.reset s.consists k d := by
    simp only [tset, if_neg h, tdel_tins, tins_tins]
  simp only [setCon, table]

theorem sidingFeed_idle {s : State} {k : Nat} (h : (con s k).sidingRuns = []) : sidingFeed k s = s := by
  rw [sidingFeed, h]; rfl

theorem con_sidingSweep_idle {s : State} {k : Nat} (h : (con s k).sidingRuns = []) :
    con (sidingSweep k s) k = con s k ∧ Steps [.consists] s (sidingSweep k s) := by
  have swept : sidingSweep k s = modCon s k fun c => { c with sidingRuns := c.sidingRuns.filter fun r => !(r.rest = [] && r.out = []) } := by
    rw [sidingSweep, h]; rfl
  rw [swept]
  refine ⟨con_modCon_idle ?_ k, steps_modCon⟩
  rw [h, List.filter_nil, ← h]

theorem con_markWaits_idle {s : State} {k : Nat} (h : (con s k).verbs = []) : con (markWaits k s) k = con s k := by
  refine con_modCon_idle ?_ k
  rw [h, List.map_nil, ← h]

theorem tryVote_none {s : State} {p : Nat} (h : (part s p).step.voters = []) : tryVote s p = s := by
  rw [tryVote, h]
  exact if_neg (by simp)

theorem slotReady_free {s : State} {k : Nat} (h : (con s k).hold = none) : slotReady k s = s := by
  rw [slotReady, h]

theorem finishCheck_open {s : State} {k : Nat} (h : (con s k).ending = false) : finishCheck k s = s := if_neg (by simp [h])

/-- What follows a post finds nothing to do on an idle consist. -/
theorem settle_idle {s : State} {k p : Nat} (h : Idle (con s k)) (hp : conPart s k = some p) (hv : (part s p).step.voters = []) :
    con (settle k s) k = con s k ∧ Steps [.consists] s (settle k s) := by
  obtain ⟨verbs, siding, runs, draining, hold, ending⟩ := h
  obtain ⟨same, steps⟩ := con_sidingSweep_idle runs
  unfold settle
  rw [sidingFeed_idle runs]
  generalize sidingSweep k s = t at same steps ⊢
  dsimp only
  rw [if_neg (by rw [same, draining]; simp), conPart_congr steps.parts_eq, hp]
  dsimp only
  rw [tryVote_none (by rw [part_congr steps.parts_eq, hv]), slotReady_free (by rw [same, hold]), finishCheck_open (by rw [same, ending])]
  exact ⟨(con_markWaits_idle (by rw [same, verbs])).trans same, .andThen steps steps_markWaits⟩

/-- The state once a queue has posted a token that its own semaphore takes. -/
def tokenPosted (s : State) (k q i p : Nat) : State :=
  bump (semSet s i ((semGet s i).post 0 (queueCode k q) (tickNow s))) kTokensPosted 1 (some p)

section
variable {s : State} {k q i p : Nat}

theorem endToken_posted (vi cls : Nat) (parts : List (Option Status)) (origin : Option (Nat × Nat)) (hp : conPart s k = some p)
    (own : (semGet s i).part = p) (kind : (semGet s i).kind = 0) (setter : (semGet s i).setter = queueCode k q) (die : semDie i = conDie k) :
    endToken s k vi q cls (some i) 0 parts origin = (tokenPosted s k q i p, 0) := by
  have post : queuePost s k q i 0 = (tokenPosted s k q i p, .ok) := by
    rw [queuePost, if_neg (by simp [hp, own, setter, die]), if_neg (by simp [kind]), hp]; rfl
  rw [endToken, post]
  have fine : ¬ errCode 0 = true := by decide
  simp only [Nat.zero_ne_one, Nat.reduceEqDiff, false_and, if_false, if_true, bump_zero, fine, Bool.false_eq_true]

theorem judgeConsist_idle {c : Consist} (h : Idle c) (sems : Tab Sem) (i : Nat) : judgeConsist sems i c = c := by
  obtain ⟨verbs, siding, runs, draining, hold, ending⟩ := h
  cases c
  simp only at verbs siding hold
  subst verbs siding hold
  rfl

theorem tokenPosted_con (hi : Idle (con s k)) :
    con (tokenPosted s k q i p) k = con s k ∧ Steps [.sems, .consists, .ctr] s (tokenPosted s k q i p) := by
  refine ⟨?_, .andThen steps_semSet.mono steps_bump⟩
  rw [tokenPosted, con_bump, con_semSet, judgeConsist_idle hi]

theorem tokenPosted_sems : semGet (tokenPosted s k q i p) i = (semGet s i).post 0 (queueCode k q) (tickNow s) ∧
    (∀ j, j ≠ i → semGet (tokenPosted s k q i p) j = semGet s j) ∧ Counted s (tokenPosted s k q i p) kTokensPosted 1 := by
  refine ⟨?_, ?_, ?_⟩
  · rw [tokenPosted, semGet_bump, semGet_semSet_same]
  · intro j hj
    rw [tokenPosted, semGet_bump, semGet_semSet_ne _ _ hj]
  · exact .after (ctrGet_congr steps_semSet.ctr_eq _ _) (counted_bump (n := 1) _ _ _)

/-- The state once the cycles of the verb's wait are counted, outside a slot (R181). -/
def waitCounted (s : State) (k : Nat) : State := if (con s k).slot = none then bumpFree s kSignalWaitCycles (conPart s k) else s

theorem waitCounted_kept (hp : conPart s k = some p) (h : p < 40) :
    Steps [.ctr, .free] s (waitCounted s k) ∧ CtrKept [kSignalWaitCycles] s (waitCounted s k) := by
  rw [waitCounted, hp]
  split
  · exact ⟨steps_bumpFree.mono, (ctrKept_bump s _ (some p) (by rintro q ⟨⟩; omega) (by simp)).trans (ctrKept_of_ctr rfl)⟩
  · exact ⟨.refl, .refl _ _⟩

/-- The last report of a verb alone in flight that is no call: its token goes, and nothing follows. -/
theorem tokenPost_alone {e : VEntry} (hv : (con s k).verbs = [e]) (parts : e.parts = List.replicate 20 (some .ok)) (issued : e.issued = allCores)
    (recv : e.recv = []) (call : ∀ r o, e.verb ≠ .call r o) :
    tokenPost k e.vi s = finishVerb k e 0 e.parts e.origin (waitCounted s k) := by
  have found : findVerb s k e.vi = some e := by simp [findVerb, hv]
  have all : e.parts.any (· = none) = false := by rw [parts]; decide
  have ok : stCode (tokenStatus (e.parts.filterMap id)) = 0 := by rw [parts]; decide
  rw [tokenPost, found]
  dsimp only
  rw [if_neg (by rw [all, recv, issued]; simp [waitsArrived]), ok]
  split
  next r o _ h _ => exact absurd h (call r o)
  next => rfl

/-- The state in which the only verb in flight has gone and its token is posted. -/
def tokenGone (s : State) (k q i p : Nat) : State := tokenPosted (modCon s k fun c => { c with verbs := [] }) k q i p

theorem steps_tokenGone : Steps [.consists, .sems, .ctr] s (tokenGone s k q i p) := by
  rw [tokenGone, tokenPosted]
  exact .andThen (.andThen steps_modCon.mono steps_semSet) steps_bump

theorem errorToken_fine (s : State) (p : Option Nat) : errorToken s p 0 = s := by
  cases p with
  | none => rfl
  | some p => rfl

theorem con_sidingNote_idle {vi st : Nat} (h : (con s k).sidingRuns = []) : con (sidingNote k vi st s) k = con s k := by
  refine con_modCon_idle ?_ k
  rw [h, List.map_nil, ← h]

/-- A verb alone in flight ends ok: its token is posted, its consist keeps the rest, and nothing else changes but counters. -/
theorem finishVerb_alone {e : VEntry} (parts : List (Option Status)) (origin : Option (Nat × Nat)) (hv : (con s k).verbs = [e])
    (post : e.post = some i) (hp : conPart s k = some p) (own : (semGet s i).part = p) (kind : (semGet s i).kind = 0)
    (setter : (semGet s i).setter = queueCode k e.queue) (die : semDie i = conDie k) (idle : Idle { con s k with verbs := [] })
    (voters : (part s p).step.voters = []) :
    con (finishVerb k e 0 parts origin s) k = { con s k with verbs := [] } ∧
      Steps [.consists] (tokenGone s k e.queue i p) (finishVerb k e 0 parts origin s) := by
  have gone : (modCon s k fun c => { c with verbs := c.verbs.filter fun f => f.vi ≠ e.vi }) = modCon s k fun c => { c with verbs := [] } := by
    simp [modCon, hv]
  have here : con (modCon s k fun c => { c with verbs := [] }) k = { con s k with verbs := [] } := con_modCon_same _ _ _
  have kept := steps_modCon (s := s) (k := k) (f := fun c => { c with verbs := [] })
  rw [finishVerb, gone, post, tokenGone]
  generalize modCon s k (fun c => { c with verbs := [] }) = u at here kept ⊢
  have idle' : Idle (con u k) := here ▸ idle
  have own' : semGet u i = semGet s i := semGet_congr kept.sems_eq i
  rw [endToken_posted _ _ _ _ ((conPart_congr kept.parts_eq k).trans hp) (own' ▸ own) (own' ▸ kind) (own' ▸ setter) die]
  dsimp only
  rw [errorToken_fine]
  obtain ⟨same, steps⟩ := tokenPosted_con (q := e.queue) (i := i) (p := p) idle'
  have parts := steps.parts_eq.trans kept.parts_eq
  generalize tokenPosted u k e.queue i p = v at same parts ⊢
  have note : con (sidingNote k e.vi 0 v) k = con v k := con_sidingNote_idle (by rw [same]; exact idle'.runs)
  have noted : Steps [.consists] v (sidingNote k e.vi 0 v) := steps_modCon
  generalize sidingNote k e.vi 0 v = w at note noted ⊢
  obtain ⟨settled, after⟩ := settle_idle (s := w) (k := k) (p := p) (by rw [note, same]; exact idle')
    (by rw [conPart_congr (noted.parts_eq.trans parts), hp]) (by rw [part_congr (noted.parts_eq.trans parts), voters])
  exact ⟨settled.trans (note.trans (same.trans here)), .andThen noted after⟩

end

end Sys2Proof.Machine

open Sys2Proof Sys2Proof.Machine

/-- Settles O56: each engine's command finds its verb, entry or held broadcast, and does that one's work. -/
theorem issueAndTokens : Obligations.IssueAndTokens := by
  refine ⟨?issue, ?token, ?resume, ?release, ?siding⟩
  case issue =>
    intro k core cycles e s hk hc running hl locked ready found origin last s0 s1 reads
    have out : exec (.verbIssue k core cycles) s = .next (markWaits k (if runsWhole k e s1 then s1 else runPart k core e s1)) :=
      exec_verbIssue_ready hk hc running hl locked ready found origin last
    clear_value s1
    refine ⟨fun kind o hv hr => ?_, fun o hv hf => ?_, fun o a hv => ?_, fun hw => ?_⟩
    · rw [out, if_neg (by rw [runsWhole, hv]; simp [hr]), runPart, hv] <;> rfl
    · rw [out, if_neg (by rw [runsWhole, hv]; simp [hf]), runPart, hv] <;> rfl
    · obtain ⟨rfl, hv⟩ | ⟨rfl, hv⟩ := hv
      · rw [out, if_neg (by rw [runsWhole, hv]; simp), runPart, hv] <;> rfl
      · rw [out, if_neg (by rw [runsWhole, hv]; simp), runPart, hv] <;> rfl
    · rw [out, if_pos hw]
  case token =>
    intro k vi i p e s hk hp running hv rfl parts issued recv call post part own kind setter die siding runs draining hold ending voters
    show ∃ t, execVerbTokenPost k e.vi s = .next t ∧ _
    rw [execVerbTokenPost, decide_eq_true hk, guardWf_true, tokenPost_alone hv parts issued recv call]
    obtain ⟨steps, ctr⟩ := waitCounted_kept part hp
    generalize waitCounted s k = u at steps ctr ⊢
    have same : con u k = con s k := con_congr steps.consists_eq k
    obtain ⟨here, frame⟩ := finishVerb_alone (s := u) (p := p) e.parts e.origin (same ▸ hv) post
      ((conPart_congr steps.parts_eq k).trans part) (semGet_congr steps.sems_eq i ▸ own) (semGet_congr steps.sems_eq i ▸ kind)
      (semGet_congr steps.sems_eq i ▸ setter) die (same ▸ ⟨rfl, siding, runs, draining, hold, ending⟩) (part_congr steps.parts_eq p ▸ voters)
    obtain ⟨own', others, posted⟩ := tokenPosted_sems (s := modCon u k fun c => { c with verbs := [] }) (k := k) (q := e.queue) (i := i) (p := p)
    have base : Steps [.ctr, .free, .consists] s (modCon u k fun c => { c with verbs := [] }) := .andThen steps.mono steps_modCon
    have all : Steps [.ctr, .free, .consists, .sems] s (finishVerb k e 0 e.parts e.origin u) :=
      .andThen (.andThen steps.mono steps_tokenGone) frame
    have sems : ∀ j, semGet (modCon u k fun c => { c with verbs := [] }) j = semGet s j := semGet_congr base.sems_eq
    have tick : tickNow (modCon u k fun c => { c with verbs := [] }) = tickNow s := by rw [tickNow, base.time_eq]; rfl
    refine ⟨_, rfl, ?sem, ?sems, here.trans (same ▸ rfl), ?counted, ?mem, ?od, ?parts⟩
    case sem => rw [semGet_congr frame.sems_eq, tokenGone, own', sems, tick]
    case sems =>
      intro j hj
      rw [semGet_congr frame.sems_eq, tokenGone, others j hj, sems]
    case counted =>
      exact (posted.before (ctrGet_congr frame.ctr_eq _ _)).after ((ctrGet_congr steps_modCon.ctr_eq _ _).trans (ctr.operator (by decide)))
    case mem => exact all.mem_eq
    case od => exact all.od_eq
    case parts => exact all.parts_eq
  case resume =>
    intro k cycles q since x s hk hl hold room stall ahead
    have same : Steps [.ctr] s (bump s kQueueFullStalls cycles (conPart s k)) := steps_bump
    have full : fullQueue (con s k) = some q := by rw [fullQueue, stall, hold]
    show execBroadcastResume k cycles s = _
    rw [execBroadcastResume, decide_eq_true hk, guardWf_true]
    refine congrArg Host.Outcome.next ((if_neg (by rw [hl]; simp)).trans ?_)
    rw [full]
    refine (if_neg (by omega)).trans ?_
    generalize bump s kQueueFullStalls cycles (conPart s k) = u at same ⊢
    rw [← con_congr same.consists_eq k] at hold stall ahead ⊢
    have met : { con u k with stall := none, hold := if (con u k).stall = none then none else (con u k).hold } ≠ Consist.reset := by
      intro h
      have := congrArg Consist.ahead h
      rw [show _ = [x] from ahead] at this
      cases this
    rw [broadcastGo, if_pos (by rw [con_modCon_same]; simp [stall]), resume, con_modCon_same, ahead, modCon, modCon, con_setCon_same, setCon_setCon_of_ne met]
    refine congrArg (fun d => sidingSweep k (sidingFeed k (finishCheck k (take x (setCon u k d))))) ?_
    generalize con u k = c at stall ⊢
    cases c
    cases stall
    rfl
  case release =>
    intro k w since x s hk hl hold ha draining stall ahead
    show execControlVerbRelease k s = _
    rw [execControlVerbRelease, decide_eq_true hk, guardWf_true, hold]
    refine congrArg Host.Outcome.next ((if_neg (by rw [ha, hl, stall]; simp)).trans ((if_neg (fun n => n draining)).trans ?_))
    rw [resume, ahead]; rfl
  case siding =>
    intro k idle left e s hk hl running draining hi verbs siding ha cost judged
    show execSidingEntryStart k idle left s = _
    rw [execSidingEntryStart, decide_eq_true hk, guardWf_true]
    refine congrArg Host.Outcome.next ((if_neg (by rw [hl, running, draining, verbs]; simp; omega)).trans ?_)
    rw [siding, List.find?_singleton, if_pos (by rw [ha]; simpa using cost)]
    refine congrArg (settle k) ?_
    have gone : (modCon s k fun c => { c with siding := c.siding.erase e }) = modCon s k fun c => { c with siding := [] } := by
      simp [modCon, siding]
    rw [sidingRun, gone, show errorOrigin (modCon s k fun c => { c with siding := [] }).sems e.waits = errorOrigin s.sems e.waits from rfl, judged] <;> rfl
end

section
/-! How a verb of the cores is broadcast (R125 to R128, R148), and O53. -/

namespace Sys2Proof.Machine

-- Checked one after another: the check allows too few threads for more.
set_option Elab.async false

/-! ### The broadcast of a verb -/

/-- What `broadcasts` says, part by part. -/
structure Broadcast (x : VerbIn) (p : Nat) (s : State) : Prop where
  reached : Reached x p s
  part_lt : p < 40
  cores : isControl x.v = false
  park : ∀ o, x.v ≠ .park o
  room : queueUsed (con s x.h.consist) x.h.queue < 64
  fresh : ∀ e ∈ (con s x.h.consist).verbs, e.vi ≠ (con s x.h.consist).vi
  check : broadcastCheck s p (loopIndices (con s x.h.consist)) (bound x s) (entryOf x s).waits
    (resolveAll s x.h.consist (verbHandles (bound x s).v) (loopIndices (con s x.h.consist))).1
    (resolveAll s x.h.consist (verbHandles (bound x s).v) (loopIndices (con s x.h.consist))).2 = .ok

theorem broadcast_of_broadcasts {x : VerbIn} {p : Nat} {s : State} (h : broadcasts x p s = true) : Broadcast x p s := by
  simp only [broadcasts, Bool.and_eq_true, decide_eq_true_eq, Bool.not_eq_true', List.all_eq_true] at h
  obtain ⟨⟨⟨⟨⟨⟨reaches, part⟩, cores⟩, park⟩, room⟩, fresh⟩, check⟩ := h
  exact ⟨reached_of_reaches reaches, part, cores, fun o e => by simp [e] at park, room, fresh, check⟩

section
variable {x : VerbIn} {p : Nat} {s : State}

/-- A verb that passes its checks enters the scoreboards and is issued where it is the ready head. -/
theorem enter_admitted (part : conPart s x.h.consist = some p) (h : Broadcast x p (openStep s p)) :
    (enter x (loopIndices (con s x.h.consist)) s).1 =
      markWaits x.h.consist (issueReady x.h.consist (con s x.h.consist).vi (admitted x p (openStep s p))) := by
  have same : con (openStep s p) x.h.consist = con s x.h.consist := con_congr steps_openStep.consists_eq _
  have check := h.check
  rw [← same]
  unfold enter
  dsimp only
  rw [part]
  dsimp only
  generalize openStep s p = u at check ⊢
  rw [if_neg (fun n => n check)] <;> rfl

/-- The sequencer reaches a verb of the cores: broadcast, and passed. -/
theorem reach_broadcast (h : Broadcast x p (openStep s p)) :
    reach x s = passed x (advance x.h.consist (enter x (loopIndices (con s x.h.consist)) s).1) := by
  have same : con (openStep s p) x.h.consist = con s x.h.consist := con_congr steps_openStep.consists_eq _
  have room := h.room
  rw [same] at room
  unfold reach
  dsimp only
  split
  · next o e => exact absurd e (h.park o)
  · rw [if_neg (by rw [h.cores]; simp), if_neg (by omega)] <;> rfl

theorem reached_closed (part : conPart s x.h.consist = some p) (h : Reached x p (openStep s p)) : Reached x p s := by
  have same : con (openStep s p) x.h.consist = con s x.h.consist := con_congr steps_openStep.consists_eq _
  obtain ⟨running, ending, hold, ahead, lively, -, stall, judged⟩ := h
  rw [same] at running ending hold ahead stall judged
  exact ⟨running, ending, hold, ahead, (live_congr steps_openStep.od_eq steps_openStep.link_eq).symm.trans lively, part, stall, judged⟩

/-- A command of a verb that passes the checks of its broadcast. -/
theorem exec_broadcast {i : Instr} (hv : verbOf i = some x) (w : i.wf = true) (part : conPart s x.h.consist = some p)
    (h : Broadcast x p (openStep s p)) : exec i s =
      .next (finishCheck x.h.consist (passed x (advance x.h.consist (markWaits x.h.consist
        (issueReady x.h.consist (con s x.h.consist).vi (admitted x p (openStep s p))))))) := by
  rw [exec_verb hv w, take_of_reached (reached_closed part h.reached), reach_broadcast h, enter_admitted part h]

theorem passed_kept (x : VerbIn) (s : State) : (con (passed x s) x.h.consist).verbs = (con s x.h.consist).verbs ∧
    (con (passed x s) x.h.consist).pos = (con s x.h.consist).pos ∧ (con (passed x s) x.h.consist).vi = (con s x.h.consist).vi ∧
    (∀ j, j ≠ x.h.consist → con (passed x s) j = con s j) ∧ Steps [.consists] s (passed x s) := by
  unfold passed
  split
  · split
    · exact ⟨by rw [con_modCon_same], by rw [con_modCon_same], by rw [con_modCon_same], fun j hj => con_modCon_ne _ _ hj, steps_modCon⟩
    · exact ⟨rfl, rfl, rfl, fun _ _ => rfl, .refl⟩
  · exact ⟨rfl, rfl, rfl, fun _ _ => rfl, .refl⟩

/-- The state once a verb that has been broadcast is passed. -/
def sentOn (x : VerbIn) (s : State) : State := finishCheck x.h.consist (passed x (advance x.h.consist (markWaits x.h.consist s)))

/-- The sequencer goes on to the next verb; verbs that are in flight stay there. -/
theorem sentOn_kept :
    ((con (sentOn x s) x.h.consist).verbs.map fun e => { e with since := none }) =
      ((con s x.h.consist).verbs.map fun e => { e with since := none }) ∧
    (con (sentOn x s) x.h.consist).pos = (con s x.h.consist).pos + 1 ∧
    (con (sentOn x s) x.h.consist).vi = ((con s x.h.consist).vi + 1) % 2 ^ 32 ∧
    (∀ j, j ≠ x.h.consist → con (sentOn x s) j = con s j) ∧ Steps [.consists] s (sentOn x s) := by
  have marked : con (markWaits x.h.consist s) x.h.consist = { con s x.h.consist with verbs := (con s x.h.consist).verbs.map fun e =>
      if (heldByTokens (con s x.h.consist) e = true) then { e with since := some (e.since.getD (tickNow s)) } else { e with since := none } } :=
    con_modCon_same ..
  have others : ∀ j, j ≠ x.h.consist → con (markWaits x.h.consist s) j = con s j := fun j hj => con_modCon_ne _ _ hj
  have steps : Steps [.consists] s (markWaits x.h.consist s) := steps_markWaits
  unfold sentOn
  generalize markWaits x.h.consist s = t at marked others steps ⊢
  have moved := con_advance x.h.consist t
  have others' : ∀ j, j ≠ x.h.consist → con (advance x.h.consist t) j = con s j := fun j hj => (con_advance_ne _ hj).trans (others j hj)
  have steps' : Steps [.consists] s (advance x.h.consist t) := .andThen steps steps_advance
  generalize advance x.h.consist t = u at moved others' steps' ⊢
  obtain ⟨verbs, pos, vi, rest, frame⟩ := passed_kept x u
  generalize passed x u = v at verbs pos vi rest frame ⊢
  rw [moved, marked] at verbs pos vi
  refine ⟨?_, ?_, ?_, fun j hj => ?_, ?_⟩
  · rw [verbs_finishCheck, verbs, steppedOn, List.map_map]
    exact List.map_congr_left fun e _ => by dsimp only [Function.comp]; split <;> rfl
  · rw [pos_finishCheck, pos]; rfl
  · rw [vi_finishCheck, vi]; rfl
  · rw [con_finishCheck_ne _ hj, rest j hj, others' j hj]
  · exact .andThen (.andThen steps' frame) steps_finishCheck

/-! ### A verb that awaits tokens (R145) -/

theorem waits_entryOf (x : VerbIn) (s : State) : (entryOf x s).waits = tokensOf x s := rfl

/-- An entry of a verb that has not been issued is judged by its tokens alone, once all have come. -/
theorem judge_waiting (x : VerbIn) (s t : State) (h : waitsArrived s (entryOf x t).waits = false) :
    judge s.sems (entryOf x t) = entryOf x t := by
  have late : ((entryOf x t).waits.all fun w => arrived (tget Sem.reset s.sems w.1) w.2) = false := h
  rw [judge, late]; rfl

theorem con_admitted (x : VerbIn) (p : Nat) (s : State) : con (admitted x p s) x.h.consist =
    { con s x.h.consist with verbs := (con s x.h.consist).verbs ++ [judge s.sems (entryOf x s)] } := by
  rw [admitted, con_bump, con_modCon_same]

theorem con_admitted_ne (x : VerbIn) (p : Nat) (s : State) {j : Nat} (h : j ≠ x.h.consist) : con (admitted x p s) j = con s j := by
  rw [admitted, con_bump, con_modCon_ne _ _ h]

theorem judged_of_canIssue {c : Consist} {core : Nat} {e : VEntry} (h : canIssue c core e = true) : e.judged = true := by
  simp only [canIssue, Bool.and_eq_true] at h
  exact h.1.2

/-- No core issues a verb that is ready on none. -/
theorem issueReady_none {k vi : Nat} (h : ∀ core e, readyHead (con s k) core = some e → e.vi ≠ vi) : issueReady k vi s = s := by
  unfold issueReady
  split
  · rfl
  · refine List.foldlRecOn (motive := fun t => t = s) _ _ rfl ?_
    rintro t rfl core -
    dsimp only
    cases ready : readyHead (con t k) core with
    | none => rfl
    | some e => exact if_neg (h core e ready)

/-- While a token is awaited, no core issues the verb that has just been broadcast. -/
theorem issueReady_waiting (fresh : ∀ e ∈ (con s x.h.consist).verbs, e.vi ≠ (con s x.h.consist).vi)
    (late : waitsArrived s (entryOf x s).waits = false) :
    issueReady x.h.consist (con s x.h.consist).vi (admitted x p s) = admitted x p s := by
  refine issueReady_none fun core e ready => ?_
  rw [con_admitted, judge_waiting x s s late] at ready
  have issues := (List.find?_eq_some_iff_append.mp ready).1
  obtain old | new := List.mem_append.mp (List.mem_of_find?_eq_some ready)
  · exact fresh e old
  · obtain rfl := List.mem_singleton.mp new
    exact absurd (show false = true from judged_of_canIssue issues) Bool.false_ne_true

end

end Sys2Proof.Machine

open Sys2Proof Sys2Proof.Machine

/-- Settles O53: a verb that passes its checks is broadcast; one that awaits a token is ready on no core. -/
theorem verbsBroadcast : Obligations.VerbsBroadcast := by
  refine ⟨?runs, ?waits⟩
  case runs => exact fun i x p s hv w part h => exec_broadcast hv w part (broadcast_of_broadcasts h)
  case waits =>
    intro i x p s hv w part h late
    have sent := broadcast_of_broadcasts h
    have opened : Steps [.parts] s (openStep s p) := steps_openStep
    have same : ∀ j, con (openStep s p) j = con s j := con_congr opened.consists_eq
    have late' : waitsArrived (openStep s p) (entryOf x (openStep s p)).waits = false := by
      rw [waits_entryOf, tokensOf, same] at *
      simpa only [waitsArrived, semGet_congr opened.sems_eq] using late
    have ctr := ctrGet_congr opened.ctr_eq
    rw [exec_broadcast hv w part sent]
    generalize openStep s p = u at same late' sent ctr ⊢
    rw [← same, issueReady_waiting sent.fresh late']
    have one : Counted u (admitted x p u) kVerbsBroadcast 1 :=
      .after (ctrGet_congr steps_modCon.ctr_eq _ _) (counted_bump (n := 1) _ _ _)
    have verbs := congrArg Consist.verbs (con_admitted x p u)
    rw [judge_waiting x u u late'] at verbs
    obtain ⟨flight, pos, vi, rest, frame⟩ := sentOn_kept (x := x) (s := admitted x p u)
    refine ⟨_, rfl, ?_, ?_, ?_, ?_, ?_, ?_⟩
    · exact flight.trans (by rw [verbs])
    · exact pos.trans (by rw [con_admitted])
    · exact vi.trans (by rw [con_admitted])
    · exact (one.before (ctrGet_congr frame.ctr_eq _ _)).after (ctr _ _)
    · exact fun j hj => (rest j hj).trans ((con_admitted_ne x p u hj).trans (same j))
    · exact (Steps.andThen (F := [.consists, .ctr]) (.andThen steps_modCon.mono steps_bump) frame).frame
end

section
/-! O54: verbs that run at once (R132, R148, R184 to R189, R106). -/

namespace Sys2Proof.Machine

-- Checked one after another: the check allows too few threads for more.
set_option Elab.async false

/-! ### A verb alone in flight is issued on all cores (R148) -/

/-- What `runsAtOnce` says, part by part. -/
structure AtOnce (x : VerbIn) (p : Nat) (s : State) : Prop where
  sent : Broadcast x p s
  unlocked : stepLocked s x.h.consist = false
  alone : (con s x.h.consist).verbs = []
  arrived : waitsArrived s (entryOf x s).waits = true
  fine : errorOrigin s.sems (entryOf x s).waits = none
  still : ((entryOf x s).nouns.all fun r => !(isBlockFmt r.n.format && (match tget none (con s x.h.consist).nouns r.handle with
    | some y => y.walk
    | none => false))) = true

theorem atOnce_of_runsAtOnce {x : VerbIn} {p : Nat} {s : State} (h : runsAtOnce x p s = true) : AtOnce x p s := by
  unfold runsAtOnce at h
  dsimp only at h
  rw [Bool.and_eq_true] at h
  obtain ⟨h, still⟩ := h
  simp only [Bool.and_eq_true, decide_eq_true_eq, Bool.not_eq_true'] at h
  obtain ⟨⟨⟨⟨sent, unlocked⟩, alone⟩, arrived⟩, fine⟩ := h
  exact ⟨broadcast_of_broadcasts sent, unlocked, alone, arrived, fine, still⟩

/-- The state of a broadcast in which one entry alone is in flight. -/
def inFlight (x : VerbIn) (p : Nat) (s : State) (e : VEntry) : State :=
  bump (modCon s x.h.consist fun c => { c with verbs := [e] }) kVerbsBroadcast 1 (some p)

theorem issuedAll_eq (x : VerbIn) (p : Nat) (s : State) : issuedAll x p s = inFlight x p s (issuedEntry x s) := rfl

section
variable {x : VerbIn} {p : Nat} {s : State}

theorem con_inFlight (x : VerbIn) (p : Nat) (s : State) (e : VEntry) :
    con (inFlight x p s e) x.h.consist = { con s x.h.consist with verbs := [e] } := by
  rw [inFlight, con_bump, con_modCon_same]

theorem steps_inFlight (e : VEntry) : Steps [.consists, .ctr] s (inFlight x p s e) := .andThen steps_modCon.mono steps_bump

theorem setCon_bump (s : State) (k n : Nat) (q : Option Nat) (j : Nat) (c : Consist) : setCon (bump s k n q) j c = bump (setCon s j c) k n q := by
  unfold bump
  split
  · rfl
  · rfl

/-- A change of the consist that concerns the only entry in flight. -/
theorem modCon_inFlight {e e' : VEntry} (running : (con s x.h.consist).pstate = .running) {f : Consist → Consist}
    (hf : f { con s x.h.consist with verbs := [e] } = { con s x.h.consist with verbs := [e'] }) :
    modCon (inFlight x p s e) x.h.consist f = inFlight x p s e' := by
  rw [modCon, con_inFlight, inFlight, setCon_bump, modCon, setCon_setCon_eq (by exact running), hf]
  rfl

theorem modVerb_inFlight {e : VEntry} (running : (con s x.h.consist).pstate = .running) (f : VEntry → VEntry) :
    modVerb (inFlight x p s e) x.h.consist e.vi f = inFlight x p s (f e) := modCon_inFlight running (by simp)

theorem findVerb_inFlight (e : VEntry) : findVerb (inFlight x p s e) x.h.consist e.vi = some e := by
  rw [findVerb, con_inFlight]
  simp

theorem admitted_eq (h : AtOnce x p s) : admitted x p s = inFlight x p s { entryOf x s with judged := true } := by
  have judged : judge s.sems (entryOf x s) = { entryOf x s with judged := true } := by
    have arrived : ((entryOf x s).waits.all fun w => arrived (tget Sem.reset s.sems w.1) w.2) = true := h.arrived
    rw [judge, if_pos arrived, if_neg (by simp [entryOf]), if_pos (show (entryOf x s).issued = 0 from rfl), h.fine]
    rfl
  rw [admitted, judged, inFlight]
  simp only [modCon, h.alone, List.nil_append]

/-- The entry that the first `n` cores have issued, with the parts that have ended. -/
def issuedOf (x : VerbIn) (s : State) (parts : List (Option Status)) (n : Nat) : VEntry :=
  { entryOf x s with judged := true, issued := 2 ^ n - 1, parts := parts }

theorem issued_next (n : Nat) : bitSet (2 ^ n - 1) n = 2 ^ (n + 1) - 1 := by
  have low : 2 ^ n - 1 < 2 ^ n := Nat.sub_lt (Nat.two_pow_pos n) Nat.one_pos
  rw [bitSet, Nat.or_comm, ← Nat.mul_one (2 ^ n), ← Nat.two_pow_add_eq_or_of_lt (by rwa [Nat.mul_one])]
  omega

theorem issued_not (n : Nat) : bitOf (2 ^ n - 1) n = false := by
  simp [bitOf, Nat.testBit_two_pow_sub_one]

/-- The next core finds it ready. -/
theorem readyHead_next (h : AtOnce x p s) (parts : List (Option Status)) (n : Nat) :
    readyHead (con (inFlight x p s (issuedOf x s parts n)) x.h.consist) n = some (issuedOf x s parts n) := by
  have ready : canIssue (con (inFlight x p s (issuedOf x s parts n)) x.h.consist) n (issuedOf x s parts n) = true := by
    have still := h.still
    have free : inFlightOn { con s x.h.consist with verbs := [issuedOf x s parts n] } n = [] := by
      simp [inFlightOn, issuedOf, issued_not]
    have first : queueOrder { con s x.h.consist with verbs := [issuedOf x s parts n] } n (issuedOf x s parts n) = true := by
      simp [queueOrder]
    have other : otherReady { con s x.h.consist with verbs := [issuedOf x s parts n] } n (issuedOf x s parts n) = true := by
      rw [otherReady, free, first]
      exact (Bool.and_eq_true _ _).mpr ⟨by simp, still⟩
    rw [con_inFlight, canIssue, other]
    simp [issuedOf, issued_not, entryOf]
  rw [readyHead, con_inFlight] at *
  simp [ready]

theorem upto_stages {α : Type} {f : Nat → α → α} (stage : Nat → α) (m : Nat) (h : ∀ n, n < m → f n (stage n) = stage (n + 1)) :
    upto m f (stage 0) = stage m := by
  unfold upto
  induction m with
  | zero => rfl
  | succ m ih => rw [List.range_succ, List.foldl_append, ih fun n hn => h n (by omega)]; exact h m (by omega)

/-- What one core's issue does to the entry, where it is not the last one's. -/
theorem issueOne_next (running : (con s x.h.consist).pstate = .running) (parts : List (Option Status)) (n : Nat) :
    issueOne x.h.consist n (entryOf x s).vi (inFlight x p s (issuedOf x s parts n)) =
      (let t := inFlight x p s (issuedOf x s parts (n + 1))
       let t := if runsWhole x.h.consist (issuedOf x s parts n) t then t else runPart x.h.consist n (issuedOf x s parts n) t
       if n + 1 = 20 then runOnce x.h.consist (entryOf x s).vi t else t) := by
  have found := findVerb_inFlight (x := x) (p := p) (s := s) (issuedOf x s parts n)
  have next : modVerb (inFlight x p s (issuedOf x s parts n)) x.h.consist (entryOf x s).vi (fun e => { e with issued := bitSet e.issued n }) =
      inFlight x p s (issuedOf x s parts (n + 1)) := by
    rw [show (entryOf x s).vi = (issuedOf x s parts n).vi from rfl, modVerb_inFlight running]
    simp only [issuedOf, issued_next]
  have last : bitSet (issuedOf x s parts n).issued n = allCores ↔ n + 1 = 20 := by
    rw [issuedOf, issued_next, allCores]
    refine ⟨fun h => Nat.pow_right_injective (le_refl 2) (show 2 ^ (n + 1) = 2 ^ 20 from ?_), fun h => by rw [h]⟩
    have := Nat.two_pow_pos (n + 1)
    omega
  have origin : ¬ (issuedOf x s parts n).origin ≠ none := fun h => h rfl
  unfold issueOne
  rw [show (entryOf x s).vi = (issuedOf x s parts n).vi from rfl] at next ⊢
  rw [found]
  dsimp only
  rw [next, if_neg origin]
  exact if_congr last rfl rfl

/-- Parts that a core's issue leaves, given those before it. -/
theorem issueReady_loop (h : AtOnce x p s) (parts : Nat → List (Option Status))
    (step : ∀ n, n < 20 → (let t := inFlight x p s (issuedOf x s (parts n) (n + 1))
      if runsWhole x.h.consist (issuedOf x s (parts n) n) t then t else runPart x.h.consist n (issuedOf x s (parts n) n) t) =
        inFlight x p s (issuedOf x s (parts (n + 1)) (n + 1))) :
    issueReady x.h.consist (entryOf x s).vi (inFlight x p s (issuedOf x s (parts 0) 0)) =
      runOnce x.h.consist (entryOf x s).vi (inFlight x p s (issuedOf x s (parts 20) 20)) := by
  have running := h.sent.reached.running
  have go : ¬ ((!live (inFlight x p s (issuedOf x s (parts 0) 0)) x.h.consist) = true ∨
      stepLocked (inFlight x p s (issuedOf x s (parts 0) 0)) x.h.consist = true) := by
    have steps := steps_inFlight (x := x) (p := p) (s := s) (issuedOf x s (parts 0) 0)
    rw [live_congr steps.od_eq steps.link_eq, stepLocked_congr steps.od_eq steps.parts_eq, h.sent.reached.live, h.unlocked]
    simp
  have one : ∀ n, n < 20 → (match readyHead (con (inFlight x p s (issuedOf x s (parts n) n)) x.h.consist) n with
      | some e => if e.vi = (entryOf x s).vi then issueOne x.h.consist n (entryOf x s).vi (inFlight x p s (issuedOf x s (parts n) n))
        else inFlight x p s (issuedOf x s (parts n) n)
      | none => inFlight x p s (issuedOf x s (parts n) n)) =
      if n + 1 = 20 then runOnce x.h.consist (entryOf x s).vi (inFlight x p s (issuedOf x s (parts (n + 1)) (n + 1)))
        else inFlight x p s (issuedOf x s (parts (n + 1)) (n + 1)) := by
    intro n hn
    rw [readyHead_next h]
    refine (if_pos rfl).trans ((issueOne_next running (parts n) n).trans ?_)
    dsimp only at step ⊢
    rw [step n hn]
  rw [issueReady, if_neg go]
  refine (upto_stages (fun n => if n = 20 then runOnce x.h.consist (entryOf x s).vi (inFlight x p s (issuedOf x s (parts n) n))
    else inFlight x p s (issuedOf x s (parts n) n)) 20 fun n hn => ?_)
  rw [if_neg (by omega : n ≠ 20)]
  exact one n hn

theorem admitted_issuedOf (h : AtOnce x p s) : admitted x p s = inFlight x p s (issuedOf x s noParts 0) := admitted_eq h

theorem isOnce_mapScalars (f : Scal → Scal) (v : Verb) : isOnce (mapScalars f v) = isOnce v := by cases v <;> rfl

theorem isBare_mapScalars {f : Scal → Scal} {v : Verb} (h : isBare v = true) : isBare (mapScalars f v) = true := by
  cases v with
  | wait => rfl
  | post _ => rfl
  | _ => cases h

/-- A verb that does its work once leaves its cores' parts to the last of them. -/
theorem runPart_once {k core : Nat} {e : VEntry} (h : isOnce e.verb = true) (t : State) : runsWhole k e t = false ∧ runPart k core e t = t := by
  unfold runsWhole runPart
  generalize e.verb = v at h ⊢
  cases v with
  | signalArrive _ _ => exact ⟨rfl, rfl⟩
  | semReset _ _ => exact ⟨rfl, rfl⟩
  | scaleAdjust _ _ => exact ⟨rfl, rfl⟩
  | scaleApply _ => exact ⟨rfl, rfl⟩
  | call _ _ => exact ⟨rfl, rfl⟩
  | _ => cases h

theorem issueReady_once (h : AtOnce x p s) (once : isOnce x.v = true) :
    issueReady x.h.consist (con s x.h.consist).vi (admitted x p s) = runOnce x.h.consist (con s x.h.consist).vi (issuedAll x p s) := by
  have once' : isOnce (entryOf x s).verb = true := (isOnce_mapScalars _ _).trans once
  rw [admitted_issuedOf h]
  refine issueReady_loop h (fun _ => noParts) fun n _ => ?_
  obtain ⟨whole, part⟩ := runPart_once (k := x.h.consist) (core := n) (e := issuedOf x s noParts n) once'
    (inFlight x p s (issuedOf x s noParts (n + 1)))
  dsimp only
  rw [whole, part]; rfl

/-- The parts of which the first `n` have ended ok. -/
def endedParts (n : Nat) : List (Option Status) := (List.range 20).map fun i => if i < n then some .ok else none

theorem lset_endedParts : ∀ n < 20, lset (endedParts n) n (some .ok) = endedParts (n + 1) := by decide

/-- An entry whose tokens have been judged does not begin to wait. -/
theorem markWaits_inFlight {e : VEntry} (running : (con s x.h.consist).pstate = .running) (judged : e.judged = true) (since : e.since = none) :
    markWaits x.h.consist (inFlight x p s e) = inFlight x p s e := by
  refine modCon_inFlight running ?_
  have free : heldByTokens { con s x.h.consist with verbs := [e] } e = false := by rw [heldByTokens, judged]; rfl
  dsimp only
  rw [List.map_singleton, free, if_neg Bool.false_ne_true, ← since]

/-- A verb that does nothing on a core ends its part there. -/
theorem runPart_bare {k core : Nat} {e : VEntry} (h : isBare e.verb = true) (t : State) :
    runsWhole k e t = false ∧ runPart k core e t = endPart t k e.vi core .ok := by
  unfold runsWhole runPart
  generalize e.verb = v at h ⊢
  cases v with
  | wait => exact ⟨rfl, rfl⟩
  | post _ => exact ⟨rfl, rfl⟩
  | _ => cases h

theorem runOnce_bare {k : Nat} {e : VEntry} {t : State} (found : findVerb t k e.vi = some e) (h : isBare e.verb = true) :
    runOnce k e.vi t = t := by
  unfold runOnce
  rw [found]
  cases hp : conPart t k with
  | none => rfl
  | some q =>
    dsimp only
    have whole := (runPart_bare (k := k) (core := 0) h t).1
    cases hv : e.verb with
    | wait => exact if_pos (.inr (by rw [whole]; rfl))
    | post _ => exact if_pos (.inr (by rw [whole]; rfl))
    | _ => rw [hv] at h; cases h

theorem issueReady_bare (h : AtOnce x p s) (bare : isBare x.v = true) :
    issueReady x.h.consist (con s x.h.consist).vi (admitted x p s) = inFlight x p s (issuedOf x s (endedParts 20) 20) := by
  have running := h.sent.reached.running
  have bare' : isBare (entryOf x s).verb = true := isBare_mapScalars bare
  have none_ : endedParts 0 = noParts := by decide
  rw [admitted_issuedOf h, ← none_]
  refine (issueReady_loop h endedParts fun n hn => ?_).trans (runOnce_bare (e := issuedOf x s (endedParts 20) 20) (findVerb_inFlight _) bare')
  obtain ⟨whole, part⟩ := runPart_bare (k := x.h.consist) (core := n) (e := issuedOf x s (endedParts n) n) bare'
    (inFlight x p s (issuedOf x s (endedParts n) (n + 1)))
  dsimp only
  rw [whole, part, if_neg Bool.false_ne_true, endPart]
  refine Eq.trans (congrArg (markWaits x.h.consist) (modVerb_inFlight (e := issuedOf x s (endedParts n) (n + 1)) running _)) ?_
  rw [show lset (issuedOf x s (endedParts n) (n + 1)).parts n (some .ok) = endedParts (n + 1) from lset_endedParts n hn]
  exact markWaits_inFlight running rfl rfl

/-! ### The verb is passed -/

theorem passed_bare (h : isBare x.v = true) : passed x s = s := by
  unfold passed
  cases hv : x.v with
  | call r o => rw [hv] at h; cases h
  | _ => rfl

theorem finishCheck_flying {k : Nat} (h : (con s k).verbs ≠ []) : finishCheck k s = s := if_neg fun ⟨_, _, none_, _⟩ => h none_

/-- A broadcast that leaves one judged verb in flight moves its consist on. -/
theorem con_sentOn_bare {e : VEntry} (running : (con s x.h.consist).pstate = .running) (bare : isBare x.v = true) (judged : e.judged = true)
    (since : e.since = none) : con (sentOn x (inFlight x p s e)) x.h.consist = steppedOn { con s x.h.consist with verbs := [e] } := by
  rw [sentOn, markWaits_inFlight running judged since, passed_bare bare]
  rw [finishCheck_flying (by rw [con_advance, con_inFlight]; exact List.cons_ne_nil _ _), con_advance, con_inFlight]

/-- A command of a verb that does its work once: the state in which all cores have issued it, and the work. -/
theorem exec_once {i : Instr} (hv : verbOf i = some x) (w : i.wf = true) (part : conPart s x.h.consist = some p)
    (h : AtOnce x p (openStep s p)) (once : isOnce x.v = true) :
    ∃ t, exec i s = .next (sentOn x (runOnce x.h.consist (issuedEntry x (openStep s p)).vi t)) ∧
      findVerb t x.h.consist (issuedEntry x (openStep s p)).vi = some (issuedEntry x (openStep s p)) ∧ conPart t x.h.consist = some p ∧
      con t x.h.consist = { con s x.h.consist with verbs := [issuedEntry x (openStep s p)] } ∧ t.parts = (openStep s p).parts ∧
      Steps [.parts, .consists, .ctr] s t ∧ CtrKept [kVerbsBroadcast] s t ∧ ∀ j, j ≠ x.h.consist → con t j = con s j := by
  have opened : Steps [.parts] s (openStep s p) := steps_openStep
  have same : con (openStep s p) x.h.consist = con s x.h.consist := con_congr opened.consists_eq _
  rw [exec_broadcast hv w part h.sent, ← same, issueReady_once h once]
  generalize openStep s p = u at opened same h ⊢
  have base : Steps [.consists, .ctr] u (issuedAll x p u) := steps_inFlight _
  have lt := h.sent.part_lt
  refine ⟨issuedAll x p u, rfl, findVerb_inFlight (issuedEntry x u), (conPart_congr base.parts_eq _).trans h.sent.reached.part, ?_,
    base.parts_eq, .andThen opened.mono base, ?_, fun j hj => ?_⟩
  · rw [issuedAll_eq, con_inFlight]
  · exact ((ctrKept_of_ctr opened.ctr_eq).trans (ctrKept_of_ctr (t := modCon u _ _) rfl)).trans
      (ctrKept_bump _ 1 (some p) (by rintro q ⟨⟩; omega) (by simp))
  · rw [issuedAll_eq, inFlight, con_bump, con_modCon_ne _ _ hj, con_congr opened.consists_eq]

/-- What follows the work of a verb that has ended changes consists alone. -/
theorem sentOn_ended (s : State) (vi : Nat) (st : Status) : Steps [.consists] s (sentOn x (endVerb s x.h.consist vi st)) :=
  .andThen steps_endVerb sentOn_kept.2.2.2.2

/-! ### Arrivals and resets (R188, R187) -/

theorem tickNow_congr {t : State} (h : t.time = s.time) : tickNow t = tickNow s := by rw [tickNow, tickNow, h]

theorem roundStatus_fine {old : Nat} (h : errCode old = false) : errCode (roundStatus old 0) = false := by
  have ok : errCode 0 = false := by decide
  rw [roundStatus, if_neg (by simp [h]), if_neg (by simp [ok])]
  split
  · exact h
  · exact ok

theorem noteError_fine {q : Option Nat} {st : Nat} (h : errCode st = false) : noteError s q st = s := by
  cases q with
  | none => rfl
  | some q => exact if_neg (by simp [h])

/-- An arrival that the signal takes. -/
theorem arrivePost_taken {i c : Nat} (code : Nat) (own : (semGet s i).part = p) (kind : (semGet s i).kind = 1) (pos : 0 < c)
    (fits : c ≤ (semGet s i).expected) (fine : errCode (semGet s i).round = false) :
    ∃ t, arrivePost s p i c 0 code = (t, .ok) ∧ semGet t i = (semGet s i).arrive c 0 code (tickNow s) ∧
      (∀ j, j ≠ i → semGet t j = semGet s j) ∧ Steps [.consists, .sems, .ctr] s t := by
  unfold arrivePost
  dsimp only
  rw [if_neg (fun n => n own), if_neg (by omega)]
  simp only [noteError_fine (roundStatus_fine fine), ite_self]
  refine ⟨_, rfl, ?_, fun j hj => ?_, .andThen (.andThen steps_semSet.mono steps_bump) steps_bump⟩
  · rw [semGet_bump, semGet_bump, semGet_semSet_same]
  · rw [semGet_bump, semGet_bump, semGet_semSet_ne _ _ hj]

theorem tget_absent {α : Type} {d : α} {t : Tab α} {k : Nat} (h : ∀ y ∈ t, y.1 ≠ k) : tget d t k = d := by
  induction t with
  | nil => rfl
  | cons y r ih => exact (if_neg (h y List.mem_cons_self)).trans (ih fun z hz => h z (List.mem_cons_of_mem _ hz))

/-- No partition owes a vote. -/
theorem nothingOwed_iff : nothingOwed s = true ↔ ∀ q, (part s q).step.owed = none := by
  simp only [nothingOwed, List.all_eq_true, decide_eq_true_eq]
  refine ⟨fun h q => ?_, fun h y _ => h y.1⟩
  by_cases listed : ∃ y ∈ s.parts, y.1 = q
  · obtain ⟨y, hy, rfl⟩ := listed
    exact h y hy
  · rw [part, tget_absent (fun y hy e => listed ⟨y, hy, e⟩)]
    rfl

theorem nothingOwed_openStep (h : nothingOwed s = true) : nothingOwed (openStep s p) = true := by
  rw [nothingOwed_iff] at *
  intro q
  unfold openStep
  split
  · exact h q
  · by_cases e : q = p
    · subst e
      rw [modStep, part_modPart_same]
      exact h q
    · rw [modStep, part_modPart_ne _ _ e]
      exact h q

theorem runOnce_arrive {k sem c : Nat} {e : VEntry} (found : findVerb s k e.vi = some e) (part : conPart s k = some p)
    (verb : e.verb = .signalArrive sem c) (origin : e.origin = none) :
    runOnce k e.vi s = endVerb (castOwed (arrivePost s p sem c 0 (queueCode k e.queue)).1) k e.vi
      (arrivePost s p sem c 0 (queueCode k e.queue)).2 := by
  unfold runOnce
  rw [found, part]
  dsimp only
  rw [verb]
  simp [origin]

theorem runOnce_reset {k sem n : Nat} {e : VEntry} (found : findVerb s k e.vi = some e) (part : conPart s k = some p)
    (verb : e.verb = .semReset sem n) (origin : e.origin = none) (own : (semGet s sem).part = p) (die : semDie sem = conDie k)
    (setter : (semGet s sem).setter = queueCode k e.queue) :
    runOnce k e.vi s = endVerb (semReset s sem ((semGet s sem).clear n)) k e.vi .ok := by
  unfold runOnce
  rw [found, part]
  dsimp only
  rw [verb]
  simp [origin, own, die, setter]

/-! ### Counters that a walk of a noun leaves alone (R102, R103, R211 to R213, R220) -/

theorem CtrKept.foldl {l : List Nat} {s t : State} {α : Type} {f : State → α → State} {xs : List α} (h : CtrKept l s t)
    (hf : ∀ t x, CtrKept l t (f t x)) : CtrKept l s (xs.foldl f t) := by
  induction xs generalizing t with
  | nil => exact h
  | cons x xs ih => exact ih (h.trans (hf t x))

theorem CtrKept.uptoBy {l : List Nat} {s : State} {β : Type} (π : β → State) {n : Nat} {f : Nat → β → β} {x : β} (h : CtrKept l s (π x))
    (hf : ∀ i x, CtrKept l (π x) (π (f i x))) : CtrKept l s (π (upto n f x)) := by
  unfold upto
  induction List.range n generalizing x with
  | nil => exact h
  | cons i r ih => exact ih (h.trans (hf i x))

/-- The keys under which writes of the memory and walks of its scale arrays count. -/
def walkKeys : List Nat :=
  [kPoisonTableFull, kFarRmwWrites, kFarReconstructed, kFarUncorrectable, kScaleDoublings, kScaleWalksSkipped]

/-- A partition as a counted event names it. -/
def Named (q : Option Nat) : Prop := ∀ p, q = some p → p < 61

section
variable {q : Option Nat} (hq : Named q)
include hq

theorem walk_bump (s : State) {k : Nat} (n : Nat) (h : k ∈ walkKeys) : CtrKept walkKeys s (bump s k n q) := ctrKept_bump s n q hq h

theorem ctrKept_poisonAt (s : State) (a : Nat) : CtrKept walkKeys s (poisonAt s a q).1 := by
  unfold poisonAt
  dsimp only
  split
  · split
    · exact .refl _ _
    · split
      · exact walk_bump hq _ _ (by decide)
      · exact ctrKept_of_ctr steps_odSet.ctr_eq
  · exact ctrKept_of_ctr rfl

theorem ctrKept_stripeRead (s : State) (a : Nat) (bad : List Nat) (parity : Bool) :
    CtrKept walkKeys s (stripeRead s a bad parity q).1 := by
  have note (l : List Nat) : CtrKept walkKeys s (l.foldl noteChannel s) :=
    .foldl (.refl _ _) fun _ _ => ctrKept_of_ctr steps_noteChannel.ctr_eq
  unfold stripeRead
  extract_lets cs failed lost pch parityLost t
  have noted : CtrKept walkKeys s t := note _
  have lossy (n : Nat) : CtrKept walkKeys s (if n ≤ 1 then (bump t kFarReconstructed lost.length q, [])
      else (lost.foldl (fun s c => (poisonAt s (c * 2048) q).1) (bump t kFarUncorrectable lost.length q), lost)).1 := by
    split
    · exact noted.trans (walk_bump hq _ _ (by decide))
    · exact .foldl (noted.trans (walk_bump hq _ (k := kFarUncorrectable) _ (by decide))) fun _ _ => ctrKept_poisonAt hq _ _
  exact lossy _

theorem ctrKept_noteRmw (s : State) (a n : Nat) : CtrKept walkKeys s (noteRmw s a n q) := by
  have counted : CtrKept walkKeys s (bump s kFarRmwWrites (rmwStripes s a n) q) := walk_bump hq _ _ (by decide)
  unfold noteRmw
  dsimp only
  split
  · exact counted
  · exact .foldl counted fun _ _ => ctrKept_stripeRead hq _ _ _ _

theorem ctrKept_storePoison (s : State) (a n : Nat) : CtrKept walkKeys s (storePoison s a n q).1 := by
  have piece (s : State) (a : Nat) : CtrKept walkKeys s (poisonPiece s a q).1 := by
    unfold poisonPiece
    split
    · exact ctrKept_poisonAt hq _ _
    · exact .refl _ _
  have each (l : List (Nat × Nat)) (x : State × List (Nat × Status)) : CtrKept walkKeys x.1 (l.foldl (fun x y =>
      ((poisonPiece x.1 y.1 q).1, x.2 ++ [(y.1, (poisonPiece x.1 y.1 q).2)])) x).1 := by
    induction l generalizing x with
    | nil => exact .refl _ _
    | cons y l ih => exact (piece _ _).trans (ih _)
  exact (each (pieces a n) (s, [])).trans (ctrKept_noteRmw hq _ _ _)

theorem ctrKept_walkBlock (commit : Bool) (op : Option ScaleOp) (r : RNoun) (core b : Nat) (x : Walked) :
    CtrKept walkKeys x.s (walkBlock commit op q r core b x).s := by
  have put (c : Prop) [Decidable c] (y : Walked) (a : Nat) (bs : List Byte) (scales maps : List (Nat × Nat)) (h : CtrKept walkKeys x.s y.s) :
      CtrKept walkKeys x.s (if c then y else ⟨putCells y.s a bs, scales, maps, y.fails⟩).s := by
    split
    · exact h
    · exact h.trans (ctrKept_of_ctr steps_putCells.ctr_eq)
  have doubled (c : Prop) [Decidable c] : CtrKept walkKeys x.s (if c then bump x.s kScaleDoublings 1 q else x.s) := by
    split
    · exact walk_bump hq _ _ (by decide)
    · exact .refl _ _
  unfold walkBlock
  extract_lets s c sa ma mapv st word e
  split
  · exact ctrKept_storePoison hq _ _ _
  · split
    · exact .refl _ _
    · split
      exact put _ _ _ _ _ _ (put _ _ _ _ _ _ (doubled _))

theorem ctrKept_endWrite (s : State) (whole touched : List (Nat × Nat)) : CtrKept walkKeys s (endWrite s whole touched q) :=
  .foldl (.foldl (.refl _ _) fun _ _ => ctrKept_of_ctr steps_clearMarks.ctr_eq) fun _ _ => ctrKept_noteRmw hq _ _ _

end

/-- An entry of the noun table as a walk leaves it. -/
def walkedNoun (k h : Nat) (e : NounEntry) (walk : Bool) (s : State) : State :=
  modCon s k fun c => { c with nouns := tset none c.nouns h (some { e with dirty := false, op := none, walk := walk }) }

/-- A walk touches memory, and clears the entry. -/
theorem walkBy_leaves {s : State} {k h : Nat} {e : NounEntry} (commit : Bool) (d : Option RNoun)
    (listed : tget none (con s k).nouns h = some e) (part : Named (conPart s k)) :
    ∃ v b, (walkBy commit k h d s).1 = walkedNoun k h e b v ∧ Steps [.mem, .health, .od, .ctr] s v ∧ CtrKept walkKeys s v := by
  unfold walkBy
  rw [listed]
  dsimp only
  cases d with
  | none => exact ⟨s, _, rfl, .refl, .refl _ _⟩
  | some r =>
    dsimp only
    split
    · exact ⟨s, _, rfl, .refl, .refl _ _⟩
    · split
      · exact ⟨_, _, rfl, steps_bump.mono, walk_bump part _ _ (by decide)⟩
      · refine ⟨_, _, rfl, .andThen (.andThen ?steps steps_endWrite) steps_endWrite,
          (CtrKept.trans ?kept (ctrKept_endWrite part _ _ _)).trans (ctrKept_endWrite part _ _ _)⟩
        case steps =>
          split
          · exact .uptoBy Walked.s .refl fun _ _ => .uptoBy Walked.s .refl fun _ _ => steps_walkBlock
          · exact .uptoBy Walked.s .refl fun _ _ => steps_walkBlock
        case kept =>
          split
          · exact .uptoBy Walked.s (.refl _ _) fun _ _ => .uptoBy Walked.s (.refl _ _) fun _ _ => ctrKept_walkBlock part _ _ _ _ _ _
          · exact .uptoBy Walked.s (.refl _ _) fun _ _ => ctrKept_walkBlock part _ _ _ _ _ _

/-- A noun of an unfinished broadcast: the descriptor formed at the loop indices keeps the format (R128). -/
theorem format_resolved {s : State} {k h : Nat} {ix : List Nat} {e : NounEntry} (listed : tget none (con s k).nouns h = some e)
    (ok : (resolveNoun s k h ix).1 = .ok) : (resolveNoun s k h ix).2.n.format = e.noun.format := by
  have kept {r : RNoun} (hr : effective h e.noun ix = some r) : r.n.format = e.noun.format := by
    unfold effective at hr
    dsimp only at hr
    split at hr <;> split at hr
    all_goals cases hr
    all_goals rfl
  unfold resolveNoun at *
  rw [listed] at *
  dsimp only at *
  split at ok
  · cases ok
  · rename_i fine
    rw [if_neg fine]
    cases hr : effective h e.noun ix with
    | none => rw [hr] at ok; cases ok
    | some r =>
      rw [← kept hr]
      dsimp only
      split
      · rfl
      · split <;> rfl

/-- The one noun of a verb that passes its checks is of the format of its entry. -/
theorem format_entryOf {x : VerbIn} {p n : Nat} {s : State} {e : NounEntry} (b : Broadcast x p s) (hs : verbHandles (bound x s).v = [n])
    (n0 : n ≠ 0) (listed : tget none (con s x.h.consist).nouns n = some e) : (lgetN (entryOf x s).nouns 0).n.format = e.noun.format := by
  have check := b.check
  rw [broadcastCheck] at check
  have ok : (resolveAll s x.h.consist (verbHandles (bound x s).v) (loopIndices (con s x.h.consist))).2 = .ok := by
    by_contra bad
    simp only [if_pos bad] at check
    split_ifs at check
    exact bad check
  rw [show (entryOf x s).nouns = (resolveAll s x.h.consist (verbHandles (bound x s).v) (loopIndices (con s x.h.consist))).1 from rfl]
  rw [hs] at ok ⊢
  simp only [resolveAll, List.map_cons, List.map_nil, if_neg n0] at ok ⊢
  refine format_resolved listed ?_
  by_contra bad
  simp only [lowestStatus, List.foldl_cons, List.foldl_nil, if_neg bad] at ok
  exact bad (by simpa using ok)

theorem nouns_endVerb (s : State) (k vi : Nat) (st : Status) : (con (endVerb s k vi st) k).nouns = (con s k).nouns := by
  rw [endVerb, con_modCon_same]

theorem nouns_sentOn (x : VerbIn) (s : State) : (con (sentOn x s) x.h.consist).nouns = (con s x.h.consist).nouns := by
  have done (t : State) : (con (passed x t) x.h.consist).nouns = (con t x.h.consist).nouns := by
    unfold passed
    split
    · split
      · rw [con_modCon_same]
      · rfl
    · rfl
  rw [sentOn, nouns_finishCheck, done, nouns_advance, markWaits, con_modCon_same]

/-! ### scale_adjust (R106, R107) -/

theorem runOnce_adjust {k n : Nat} {op : ScaleOp} {e : VEntry} (found : findVerb s k e.vi = some e) (part : conPart s k = some p)
    (verb : e.verb = .scaleAdjust n op) (origin : e.origin = none) :
    runOnce k e.vi s = endVerb (scaleAdjust k e.vi n (lgetN e.nouns 0) (some op) (stepOpen s p) s).1 k e.vi
      (scaleAdjust k e.vi n (lgetN e.nouns 0) (some op) (stepOpen s p) s).2 := by
  unfold runOnce
  rw [found, part]
  dsimp only
  rw [verb]
  simp [origin]

theorem runOnce_apply {k n : Nat} {e : VEntry} (found : findVerb s k e.vi = some e) (part : conPart s k = some p)
    (verb : e.verb = .scaleApply n) (origin : e.origin = none) :
    runOnce k e.vi s = endVerb (scaleAdjust k e.vi n (lgetN e.nouns 0) none (insideStep s p) s).1 k e.vi
      (scaleAdjust k e.vi n (lgetN e.nouns 0) none (insideStep s p) s).2 := by
  unfold runOnce
  rw [found, part]
  dsimp only
  rw [verb]
  simp [origin]

/-- An operation in the range that the verb admits (R106). -/
def OpFits : ScaleOp → Prop
  | .shift x => x ≠ 0 ∧ -15 ≤ x ∧ x ≤ 15
  | .fresh => True

/-- An operation that no later verb's stands against is recorded with the verb's number. -/
theorem scaleAdjust_recorded {k vi n : Nat} {r : RNoun} {op : ScaleOp} {e : NounEntry} (listed : tget none (con s k).nouns n = some e)
    (block : isBlockFmt r.n.format = true) (fits : OpFits op) (first : ∀ y v, e.op = some (y, v) → verbAfter v vi = false) (b : Bool) :
    scaleAdjust k vi n r (some op) b s =
      (bump (modCon s k fun c => { c with nouns := tset none c.nouns n (some { e with dirty := true, op := some (op, vi) }) })
        kScaleAdjusts 1 (conPart s k), .ok) := by
  unfold scaleAdjust
  rw [listed]
  dsimp only
  rw [block]
  refine (if_neg (by decide)).trans ((if_neg ?range).trans ?_)
  case range =>
    cases op with
    | shift x => obtain ⟨h0, h1, h2⟩ := fits; simp [h0, h1, h2]
    | fresh => exact Bool.false_ne_true
  · cases ho : e.op with
    | none => rfl
    | some y =>
      simp [first y.1 y.2 ho]

theorem adjust_recorded {i : Instr} {h : VerbHdr} {n : Nat} {op : ScaleOp} {e : NounEntry} (hv : verbOf i = some ⟨h, .scaleAdjust n op⟩)
    (w : i.wf = true) (part : conPart s h.consist = some p) (ha : AtOnce ⟨h, .scaleAdjust n op⟩ p (openStep s p))
    (listed : tget none (con s h.consist).nouns n = some e) (block : isBlockFmt e.noun.format = true) (n0 : n ≠ 0) (fits : OpFits op)
    (first : ∀ y v, e.op = some (y, v) → verbAfter v (con s h.consist).vi = false) :
    ∃ t, exec i s = .next t ∧
      tget none (con t h.consist).nouns n = some { e with dirty := true, op := some (op, (con s h.consist).vi) } ∧
      Counted s t kScaleAdjusts 1 ∧ t.mem = s.mem ∧ t.sems = s.sems := by
  obtain ⟨v, out, found, held, here, -, base, ctr, -⟩ := exec_once hv w part ha rfl
  have same : con (openStep s p) h.consist = con s h.consist := con_congr steps_openStep.consists_eq _
  have format := format_entryOf ha.sent rfl n0 (same.symm ▸ listed)
  have number : (issuedEntry ⟨h, .scaleAdjust n op⟩ (openStep s p)).vi = (con s h.consist).vi := congrArg Consist.vi same
  have listed' : tget none (con v h.consist).nouns n = some e := by rw [here]; exact listed
  rw [out, runOnce_adjust found held rfl rfl, scaleAdjust_recorded listed' (by rw [← block, ← format]; rfl) fits (number ▸ first), number]
  generalize hu : bump _ kScaleAdjusts 1 (conPart v h.consist) = u
  have steps : Steps [.consists, .ctr] v u := hu ▸ .andThen steps_modCon.mono steps_bump
  have tail := sentOn_ended (x := ⟨h, .scaleAdjust n op⟩) u (con s h.consist).vi .ok
  refine ⟨_, rfl, ?_, ?_, ?_, ?_⟩
  · rw [nouns_sentOn ⟨h, .scaleAdjust n op⟩, nouns_endVerb, ← hu, con_bump, con_modCon_same, tget_tset_same]
  · have one : Counted v u kScaleAdjusts 1 := hu ▸ .after (ctrGet_congr steps_modCon.ctr_eq _ _) (counted_bump (n := 1) _ _ _)
    exact (one.before (ctrGet_congr tail.ctr_eq _ _)).after (ctr.operator (by decide))
  · exact tail.mem_eq.trans (steps.mem_eq.trans base.mem_eq)
  · exact tail.sems_eq.trans (steps.sems_eq.trans base.sems_eq)

theorem consistsOf_congr {t : State} (h : t.parts = s.parts) (q : Nat) : consistsOf t q = consistsOf s q := by
  rw [consistsOf, consistsOf, grantOf, grantOf, part_congr h]

theorem grant_openStep (q r : Nat) : (part (openStep s q) r).grant = (part s r).grant := by
  unfold openStep
  split
  · rfl
  · by_cases e : r = q
    · rw [e, modStep, part_modPart_same]
    · rw [modStep, part_modPart_ne _ _ e]

/-- The programs of a partition's consists decide whether it runs a step commit. -/
theorem anyVotes_congr {t : State} {q : Nat} (parts : t.parts = (openStep s q).parts) (rest : ∀ j, (con t j).prog = (con s j).prog) :
    ((consistsOf t q).any fun j => callsVote (con t j)) = (consistsOf s q).any fun j => callsVote (con s j) := by
  rw [consistsOf_congr parts, consistsOf, grantOf, grant_openStep]
  refine List.any_congr rfl fun j => ?_
  rw [callsVote, callsVote, rest]

theorem progs_kept {t : State} {k : Nat} {l : List VEntry} (here : con t k = { con s k with verbs := l })
    (rest : ∀ j, j ≠ k → con t j = con s j) (j : Nat) : (con t j).prog = (con s j).prog := by
  by_cases hj : j = k
  · rw [hj, here]
  · rw [rest j hj]

theorem open_openStep : stepOpen (openStep s p) p = true := by
  unfold openStep
  split
  · assumption
  · rw [stepOpen, modStep, part_modPart_same]

theorem scaleAdjust_outside {k vi n : Nat} {r : RNoun} {e : NounEntry} {b : Bool} (listed : tget none (con s k).nouns n = some e)
    (block : isBlockFmt r.n.format = true) (hb : b = false) :
    scaleAdjust k vi n r none b s = walkBy true k n (some r) (bump s kScaleAdjusts 1 (conPart s k)) := by
  unfold scaleAdjust
  rw [listed]
  dsimp only
  rw [block, hb]
  rfl

theorem scaleAdjust_inside {k vi n : Nat} {r : RNoun} {e : NounEntry} {b : Bool} (listed : tget none (con s k).nouns n = some e)
    (block : isBlockFmt r.n.format = true) (hb : b = true) : scaleAdjust k vi n r none b s = (s, .malformed) := by
  unfold scaleAdjust
  rw [listed]
  dsimp only
  rw [block, hb]
  rfl

section
variable {h : VerbHdr} {n : Nat} {e : NounEntry} (w : (Instr.scaleAdjustApply h n).wf = true) (part : conPart s h.consist = some p)
  (ha : AtOnce ⟨h, .scaleApply n⟩ p (openStep s p)) (listed : tget none (con s h.consist).nouns n = some e)
  (block : isBlockFmt e.noun.format = true) (n0 : n ≠ 0)
include w part ha listed block n0

theorem applied_outside (free : ((consistsOf s p).any fun k => callsVote (con s k)) = false) :
    ∃ t, exec (.scaleAdjustApply h n) s = .next t ∧
      (tget none (con t h.consist).nouns n).map (fun y => (y.noun, y.dirty, y.op)) = some (e.noun, false, none) ∧
      (∀ m, m ≠ n → tget none (con t h.consist).nouns m = tget none (con s h.consist).nouns m) ∧
      Counted s t kScaleAdjusts 1 ∧ t.sems = s.sems := by
  obtain ⟨v, out, found, held, here, opened, base, ctr, rest⟩ := exec_once (x := ⟨h, .scaleApply n⟩) rfl w part ha rfl
  have same : con (openStep s p) h.consist = con s h.consist := con_congr steps_openStep.consists_eq _
  have format := format_entryOf ha.sent rfl n0 (same.symm ▸ listed)
  have outside : insideStep v p = false := by
    rw [insideStep, anyVotes_congr opened (progs_kept here rest), free, Bool.and_false]
  have counted : Counted v (bump v kScaleAdjusts 1 (conPart v h.consist)) kScaleAdjusts 1 := counted_bump (n := 1) _ _ _
  have listed' : tget none (con v h.consist).nouns n = some e := by rw [here]; exact listed
  rw [out, runOnce_apply found held rfl rfl, scaleAdjust_outside listed' (by rw [← block, ← format]; rfl) outside]
  have named : Named (some p) := by rintro q ⟨⟩; have := ha.sent.part_lt; omega
  have bumped : Steps [.ctr] v (bump v kScaleAdjusts 1 (conPart v h.consist)) := steps_bump
  rw [held] at bumped counted ⊢
  generalize bump v kScaleAdjusts 1 (some p) = b at bumped counted ⊢
  have cons : con b h.consist = con v h.consist := con_congr bumped.consists_eq _
  obtain ⟨u, walk, left, walked, kept⟩ := walkBy_leaves (s := b) true
    (some (lgetN (issuedEntry ⟨h, .scaleApply n⟩ (openStep s p)).nouns 0)) (cons ▸ listed')
    ((conPart_congr bumped.parts_eq _).trans held ▸ named)
  generalize walkBy true h.consist n _ b = z at left ⊢
  have tail := sentOn_ended (x := ⟨h, .scaleApply n⟩) z.1 (issuedEntry ⟨h, .scaleApply n⟩ (openStep s p)).vi z.2
  have nouns : (con (sentOn ⟨h, .scaleApply n⟩ (endVerb z.1 h.consist (issuedEntry ⟨h, .scaleApply n⟩ (openStep s p)).vi z.2)) h.consist).nouns =
      tset none (con s h.consist).nouns n (some { e with dirty := false, op := none, walk := walk }) := by
    rw [nouns_sentOn ⟨h, .scaleApply n⟩, nouns_endVerb, left, walkedNoun, con_modCon_same, con_congr walked.consists_eq, cons, here]
  have left' : Steps [.consists] u z.1 := left ▸ steps_modCon
  refine ⟨_, rfl, ?_, fun m hm => ?_, ?_, ?_⟩
  · rw [nouns, tget_tset_same]
    rfl
  · rw [nouns, tget_tset_ne _ _ _ hm]
  · have one := (counted.before (kept.operator (by decide))).before (ctrGet_congr left'.ctr_eq _ _)
    exact (one.before (ctrGet_congr tail.ctr_eq _ _)).after (ctr.operator (by decide))
  · exact tail.sems_eq.trans (left'.sems_eq.trans (walked.sems_eq.trans (bumped.sems_eq.trans base.sems_eq)))

theorem applied_inside (votes : ((consistsOf s p).any fun k => callsVote (con s k)) = true) :
    ∃ t, exec (.scaleAdjustApply h n) s = .next t ∧ (con t h.consist).nouns = (con s h.consist).nouns ∧
      (con t h.consist).verbs.map (fun y => y.parts) = [List.replicate 20 (some .malformed)] ∧ t.mem = s.mem ∧ t.sems = s.sems := by
  obtain ⟨v, out, found, held, here, opened, base, -, rest⟩ := exec_once (x := ⟨h, .scaleApply n⟩) rfl w part ha rfl
  have same : con (openStep s p) h.consist = con s h.consist := con_congr steps_openStep.consists_eq _
  have format := format_entryOf ha.sent rfl n0 (same.symm ▸ listed)
  have inside : insideStep v p = true := by
    rw [insideStep, anyVotes_congr opened (progs_kept here rest), votes, stepOpen, part_congr opened, ← stepOpen, open_openStep]
    rfl
  have listed' : tget none (con v h.consist).nouns n = some e := by rw [here]; exact listed
  rw [out, runOnce_apply found held rfl rfl, scaleAdjust_inside listed' (by rw [← block, ← format]; rfl) inside]
  have tail := sentOn_ended (x := ⟨h, .scaleApply n⟩) v (issuedEntry ⟨h, .scaleApply n⟩ (openStep s p)).vi .malformed
  refine ⟨_, rfl, ?_, ?_, tail.mem_eq.trans base.mem_eq, tail.sems_eq.trans base.sems_eq⟩
  · rw [nouns_sentOn ⟨h, .scaleApply n⟩, nouns_endVerb, here]
  · have verbs := congrArg (List.map fun y : VEntry => y.parts) (sentOn_kept (x := ⟨h, .scaleApply n⟩)
      (s := endVerb v h.consist (issuedEntry ⟨h, .scaleApply n⟩ (openStep s p)).vi .malformed)).1
    rw [List.map_map, List.map_map] at verbs
    refine verbs.trans ?_
    rw [endVerb, con_modCon_same, here]
    simp

end

end

end Sys2Proof.Machine

open Sys2Proof Sys2Proof.Machine

/-- Settles O54: alone in flight, a verb is the ready head of every core, and its work is done as the last one issues it. -/
theorem verbsRunAtOnce : Obligations.VerbsRunAtOnce := by
  refine ⟨?bare, ?once, ?arrive, ?reset, ?shift, ?fresh, ?apply⟩
  case bare =>
    intro i x p s hv w part h bare
    have once := atOnce_of_runsAtOnce h
    have opened : Steps [.parts] s (openStep s p) := steps_openStep
    have same : ∀ j, con (openStep s p) j = con s j := con_congr opened.consists_eq
    have ctr := ctrGet_congr opened.ctr_eq
    rw [exec_broadcast hv w part once.sent]
    generalize openStep s p = u at once same ctr ⊢
    rw [← same, issueReady_bare once bare]
    have here := con_sentOn_bare (x := x) (p := p) (e := issuedOf x u (endedParts 20) 20) once.sent.reached.running bare rfl rfl
    obtain ⟨-, -, -, rest, frame⟩ := sentOn_kept (x := x) (s := inFlight x p u (issuedOf x u (endedParts 20) 20))
    have one : Counted u (inFlight x p u (issuedOf x u (endedParts 20) 20)) kVerbsBroadcast 1 :=
      .after (ctrGet_congr steps_modCon.ctr_eq _ _) (counted_bump (n := 1) _ _ _)
    refine ⟨_, rfl, here.trans ?_, ?_, ?_, ?_⟩
    · have parts : endedParts 20 = List.replicate 20 (some .ok) := by decide
      rw [steppedOn, once.sent.reached.ending, parts]
      rfl
    · exact (one.before (ctrGet_congr frame.ctr_eq _ _)).after (ctr _ _)
    · intro j hj
      exact (rest j hj).trans (by rw [inFlight, con_bump, con_modCon_ne _ _ hj, same])
    · exact (Steps.andThen (F := [.consists, .ctr]) (steps_inFlight _).mono frame).frame
  case once =>
    intro i x p s hv w part h once
    have same : con (openStep s p) x.h.consist = con s x.h.consist := con_congr steps_openStep.consists_eq _
    rw [exec_broadcast hv w part (atOnce_of_runsAtOnce h).sent, ← same, issueReady_once (atOnce_of_runsAtOnce h) once]
  case arrive =>
    intro h sem count p s w part ha own kind pos fits fine owed
    obtain ⟨v, out, found, held, -, opened, base, -⟩ := exec_once (x := ⟨h, .signalArrive sem count⟩) rfl w part (atOnce_of_runsAtOnce ha) rfl
    have owed' : nothingOwed v = true := (nothingOwed_congr opened).trans (nothingOwed_openStep owed)
    have sems : ∀ j, semGet v j = semGet s j := semGet_congr base.sems_eq
    rw [out, runOnce_arrive found held rfl rfl]
    obtain ⟨t, ht, arrived, others, steps⟩ := arrivePost_taken (s := v) (p := p) (i := sem) (c := count) (queueCode h.consist h.queue)
      ((sems sem).symm ▸ own) ((sems sem).symm ▸ kind) pos ((sems sem).symm ▸ fits) ((sems sem).symm ▸ fine)
    rw [show (issuedEntry ⟨h, .signalArrive sem count⟩ (openStep s p)).queue = h.queue from rfl, ht,
      castOwed_none ((nothingOwed_congr steps.parts_eq).trans owed')]
    have tail := sentOn_ended (x := ⟨h, .signalArrive sem count⟩) t (issuedEntry ⟨h, .signalArrive sem count⟩ (openStep s p)).vi .ok
    have all : Steps [.parts, .consists, .ctr, .sems] s t := .andThen base.mono steps
    refine ⟨_, rfl, ?_, fun j hj => ?_, ?_, ?_⟩
    · rw [semGet_congr tail.sems_eq, arrived, sems, tickNow_congr base.time_eq]
    · rw [semGet_congr tail.sems_eq, others j hj, sems]
    · exact tail.mem_eq.trans all.mem_eq
    · exact tail.od_eq.trans all.od_eq
  case reset =>
    intro h sem count p s w part ha own die setter
    obtain ⟨v, out, found, held, -, -, base, -⟩ := exec_once (x := ⟨h, .semReset sem count⟩) rfl w part (atOnce_of_runsAtOnce ha) rfl
    have sems : ∀ j, semGet v j = semGet s j := semGet_congr base.sems_eq
    rw [out, runOnce_reset found held rfl rfl ((sems sem).symm ▸ own) die ((sems sem).symm ▸ setter)]
    have reset : Steps [.consists, .sems] v (semReset v sem ((semGet v sem).clear count)) := steps_semReset
    have tail := sentOn_ended (x := ⟨h, .semReset sem count⟩) (semReset v sem ((semGet v sem).clear count))
      (issuedEntry ⟨h, .semReset sem count⟩ (openStep s p)).vi .ok
    have all : Steps [.parts, .consists, .ctr, .sems] s (semReset v sem ((semGet v sem).clear count)) := .andThen base.mono reset
    refine ⟨_, rfl, ?_, fun j hj => ?_, ?_, ?_⟩
    · rw [semGet_congr tail.sems_eq, semGet_semReset_same, sems]
    · rw [semGet_congr tail.sems_eq, semGet_semReset_ne _ _ hj, sems]
    · exact tail.mem_eq.trans all.mem_eq
    · exact tail.od_eq.trans all.od_eq
  case shift =>
    intro h noun p amount e s w part ha he hf hn h0 h1 h2 hop
    exact adjust_recorded rfl w part (atOnce_of_runsAtOnce ha) he hf hn ⟨h0, h1, h2⟩ hop
  case fresh =>
    intro h noun p e s w part ha he hf hn hop
    exact adjust_recorded rfl w part (atOnce_of_runsAtOnce ha) he hf hn trivial hop
  case apply =>
    intro h noun p e s w part ha he hf hn
    exact ⟨applied_outside w part (atOnce_of_runsAtOnce ha) he hf hn, applied_inside w part (atOnce_of_runsAtOnce ha) he hf hn⟩
end

section
/-! O59: frames taken by the rail transport's receiving side (R353 to R366, R372, R376 to R382, R290, R292, R307). -/

namespace Sys2Proof.Machine

-- Checked one after another: the check allows too few threads for more.
set_option Elab.async false

/-! ### A frame that reaches its effect (R353 to R359) -/

/-- The state once a frame of the partition has been counted at its time. -/
def heardAt (f : HrtFrame) (s : State) : State := bump { s with now := max s.now f.t } kHrtRxFrames 1 (some f.part)

section
variable {f : HrtFrame} {s : State}

theorem steps_heardAt : Steps [.now, .ctr] s (heardAt f s) :=
  .andThen (F := [.now, .ctr]) (⟨rfl, le_max_left _ _, id⟩ : Steps [.now] s { s with now := max s.now f.t }).mono steps_bump

theorem sems_heardAt (f : HrtFrame) (s : State) : (heardAt f s).sems = s.sems := steps_heardAt.sems_eq

theorem now_heardAt (f : HrtFrame) (s : State) : (heardAt f s).now = max s.now f.t := bump_now ..

theorem qp_congr {t : State} (h : t.qps = s.qps) (q : Nat) : qp t q = qp s q := by rw [qp, qp, h]

theorem jobOf_congr {t : State} (h : t.parts = s.parts) (p : Nat) : jobOf t p = jobOf s p := by rw [jobOf, jobOf, part_congr h]

theorem hrtFrame_heard (h : frameHeard f s = true) (ce : f.ce = false) (act : Nat → State → State) :
    hrtFrame f act s = act f.hdr.dstQp (heardAt f s) := by
  unfold frameHeard at h
  unfold hrtFrame
  dsimp only at h ⊢
  rw [jobOf_congr (s := s) (t := { s with now := max s.now f.t }) rfl]
  cases hj : jobOf s f.part with
  | none => rw [hj] at h; cases h
  | some j =>
    rw [hj] at h
    simp only [Bool.and_eq_true, Bool.not_eq_true', decide_eq_true_eq] at h
    obtain ⟨⟨⟨⟨⟨⟨⟨⟨routed, quarantined⟩, formed⟩, isOpen⟩, part⟩, peer⟩, port⟩, sends⟩, absent⟩ := h
    have qps : (heardAt f s).qps = s.qps := steps_heardAt.qps_eq
    have free : isQuarantined (heardAt f s) f.part f.peer = false := by
      rw [isQuarantined, odN_congr steps_heardAt.od_eq, ← isQuarantined, quarantined]
    dsimp only
    rw [routed, if_neg (by decide)]
    change (if isQuarantined (heardAt f s) f.part f.peer = true then _ else _) = _
    rw [free, if_neg Bool.false_ne_true, formed, if_neg Bool.false_ne_true, ce, if_neg Bool.false_ne_true]
    have own : ¬ ((!(qp (heardAt f s) f.hdr.dstQp).isOpen) = true ∨ (qp (heardAt f s) f.hdr.dstQp).part ≠ f.part ∨
        (qp (heardAt f s) f.hdr.dstQp).peer ≠ f.peer ∨ qpPort f.hdr.dstQp ≠ f.port ∨ (!permitted (peerOf j f.peer).kind f.hdr) = true) := by
      rw [qp_congr qps]
      simp [isOpen, part, peer, port, sends]
    have here : ¬ (qp (heardAt f s) f.hdr.dstQp).absent = true := by simp [qp_congr qps, absent]
    exact (if_neg own).trans (if_neg here)

/-! ### A frame that its QP expects (R361, R362) -/

/-- What `frameNext` says, part by part. -/
structure Next (f : HrtFrame) (s : State) : Prop where
  heard : frameHeard f s = true
  ce : f.ce = false
  expect : (qp s f.hdr.dstQp).expect = f.hdr.psn
  seen : (qp s f.hdr.dstQp).seen = []
  rx : (qp s f.hdr.dstQp).rx = []
  frameIndex : f.hdr.frameIndex = 0
  last : f.hdr.last = true
  ackNow : f.hdr.ackNow = false
  sinceAck : (qp s f.hdr.dstQp).sinceAck + 1 < 16
  epoch : f.hdr.epoch = (part s f.part).step.epoch

theorem next_of_frameNext (h : frameNext f s = true) : Next f s := by
  simp only [frameNext, Bool.and_eq_true, Bool.not_eq_true', decide_eq_true_eq] at h
  obtain ⟨⟨⟨⟨⟨⟨⟨⟨⟨heard, ce⟩, expect⟩, seen⟩, rx⟩, frameIndex⟩, last⟩, ackNow⟩, sinceAck⟩, epoch⟩ := h
  exact ⟨heard, ce, expect, seen, rx, frameIndex, last, ackNow, sinceAck, epoch⟩

theorem psnTake_expected {v : Qp} (seen : v.seen = []) : psnTake v v.expect = { v with expect := (v.expect + 1) % 2 ^ 32 } := by
  have advance : psnAdvance 257 v.expect [v.expect] = ((v.expect + 1) % 2 ^ 32, []) := by
    rw [psnAdvance, if_pos (by simp), psnAdvance]
    simp
  rw [psnTake, seen, List.nil_append, advance, ← seen]

theorem psnDistance_next (n : Nat) : ¬ psnDistance ((n + 1) % 2 ^ 32) n < 256 := by
  rw [psnDistance]
  omega

/-- The state once a frame has been taken: its QP expects the next, and owes an acknowledgement. -/
def frameTaken (f : HrtFrame) (u : State) : State :=
  setQp (setQp u f.hdr.dstQp (psnTake (qp u f.hdr.dstQp) f.hdr.psn)) f.hdr.dstQp (qpTaken (qp u f.hdr.dstQp) f.hdr.psn u.now)

theorem steps_frameTaken {u : State} : Steps [.qps] u (frameTaken f u) := .andThen steps_setQp steps_setQp

theorem qp_frameTaken (u : State) : qp (frameTaken f u) f.hdr.dstQp = qpTaken (qp u f.hdr.dstQp) f.hdr.psn u.now := qp_setQp_same ..

theorem qp_frameTaken_ne (u : State) {q : Nat} (h : q ≠ f.hdr.dstQp) : qp (frameTaken f u) q = qp u q := by
  rw [frameTaken, qp_setQp_ne _ _ h, qp_setQp_ne _ _ h]

/-- The next frame, whose effect is not refused, is taken. -/
theorem sequenced_next (h : Next f s) {t u : State} (ht : qp t f.hdr.dstQp = qp s f.hdr.dstQp) (hu : qp u f.hdr.dstQp = qp s f.hdr.dstQp)
    {effect : Nat → State → State × Refused} (he : effect f.hdr.dstQp t = (u, none)) :
    sequenced f effect f.hdr.dstQp t = frameTaken f u := by
  have here : psnDistance f.hdr.psn f.hdr.psn = 0 := by rw [psnDistance, Nat.add_sub_cancel_left, Nat.mod_self]
  have took := psnTake_expected h.seen
  rw [h.expect] at took
  unfold sequenced
  dsimp only
  rw [ht, he, h.seen, h.expect, here]
  refine (if_neg (by simp)).trans ((if_neg (by decide)).trans ?_)
  dsimp only
  unfold ackPolicy
  dsimp only
  have hole : hasHole (psnTake (qp u f.hdr.dstQp) f.hdr.psn) f.hdr.psn = false := by
    rw [hu, took]
    exact decide_eq_false (psnDistance_next _)
  rw [qp_setQp_same, h.ackNow, hole]
  have few : ¬ 16 ≤ (psnTake (qp u f.hdr.dstQp) f.hdr.psn).sinceAck + 1 := by
    rw [hu, took]
    exact Nat.not_le.mpr h.sinceAck
  refine (if_neg (by simp)).trans ((if_neg (by decide)).trans ((if_neg few).trans ?_))
  rw [frameTaken, hu, took]
  rfl

/-- A frame of the next number that is heard and whose effect is not refused. -/
theorem hrtFrame_next (h : Next f s) {u : State} (hu : qp u f.hdr.dstQp = qp s f.hdr.dstQp)
    {effect : Nat → State → State × Refused} (he : effect f.hdr.dstQp (heardAt f s) = (u, none)) :
    hrtFrame f (sequenced f effect) s = frameTaken f u :=
  (hrtFrame_heard h.heard h.ce _).trans (sequenced_next h (qp_congr steps_heardAt.qps_eq _) hu he)

theorem epochAhead_own (p : Nat) (t : State) : epochAhead t p (part t p).step.epoch = false := by
  rw [epochAhead]
  refine decide_eq_false fun h => ?_
  omega

/-- A command whose operands fit runs. -/
theorem guardWf_runs {b c : Bool} {t u : State} (guard : b = c) (w : c = true) (run : t = u) : guardWf b t = .next u := by
  rw [guard, w, run, guardWf_true]

theorem qp_frameTaken_of {u : State} (now : u.now = max s.now f.t) (qps : qp u f.hdr.dstQp = qp s f.hdr.dstQp) :
    qp (frameTaken f u) f.hdr.dstQp = qpTaken (qp s f.hdr.dstQp) f.hdr.psn (max s.now f.t) := by
  rw [qp_frameTaken, now, qps]

/-- A control frame of the partition's own epoch. -/
theorem controlFrame_next (h : Next f s) {effect : State → State} {u : State} (he : effect (heardAt f s) = u)
    (hu : Steps [.consists, .od, .parts, .sems, .ctr] (heardAt f s) u) :
    controlFrame f effect s = frameTaken f u ∧
      qp (frameTaken f u) f.hdr.dstQp = qpTaken (qp s f.hdr.dstQp) f.hdr.psn (max s.now f.t) ∧ (frameTaken f u).mem = s.mem := by
  have own : aheadVote (heardAt f s) f.part f.hdr.epoch = heardAt f s := by
    rw [aheadVote, h.epoch, ← part_congr (steps_heardAt (f := f) (s := s)).parts_eq, epochAhead_own]
    rfl
  have qps : qp u f.hdr.dstQp = qp s f.hdr.dstQp := (qp_congr hu.qps_eq _).trans (qp_congr steps_heardAt.qps_eq _)
  refine ⟨hrtFrame_next h qps ?_, qp_frameTaken_of (hu.now_eq.trans (now_heardAt f s)) qps,
    steps_frameTaken.mem_eq.trans (hu.mem_eq.trans steps_heardAt.mem_eq)⟩
  rw [own, he]

/-! ### Posts of the module's engines (R141) -/

theorem parts_enginePost_fine {i st producer : Nat} {q : Option Nat} (fine : errCode st = false) :
    (enginePost s i st producer q).1.parts = s.parts := by
  unfold enginePost
  dsimp only
  split
  · rw [noteError_fine fine, bump_parts, bump_parts]
    rfl
  · exact bump_parts ..

/-! ### Records of a step (R290, R292, R522) -/

theorem length_votesOf (n : Nat) (l : Tab (Option VoteRec)) : (votesOf n l).length = (List.range n).countP fun r => (tget none l r).isSome :=
  List.length_filterMap_eq_countP

/-- A rank without a vote. -/
theorem votesOf_lt {n r : Nat} {l : Tab (Option VoteRec)} (hr : r < n) (h : tget none l r = none) : (votesOf n l).length < n := by
  rw [length_votesOf]
  refine lt_of_le_of_ne (List.countP_le_length.trans_eq List.length_range) fun e => ?_
  have all := List.countP_eq_length.mp (e.trans List.length_range.symm) r (List.mem_range.mpr hr)
  rw [h] at all
  cases all

/-- A vote that stands for another. -/
theorem length_votesOf_revised {n r : Nat} {l : Tab (Option VoteRec)} {o v : VoteRec} (h : tget none l r = some o) :
    (votesOf n (tset none l r (some v))).length = (votesOf n l).length := by
  rw [length_votesOf, length_votesOf]
  refine List.countP_congr fun x _ => ?_
  by_cases hx : x = r
  · rw [hx, tget_tset_same, h]
    rfl
  · rw [tget_tset_ne _ _ _ hx]

/-- The leader waits for the votes that are missing. -/
theorem leaderCheck_few {p : Nat} {j : JobMap} (hj : jobOf s p = some j) (few : (allVotes s p (jobSize j)).length < jobSize j) :
    leaderCheck s p = s := by
  unfold leaderCheck
  rw [hj]
  exact if_pos (.inl few)

theorem jobOf_modStep (s : State) (p : Nat) (g : StepSt → StepSt) : jobOf (modStep s p g) p = jobOf s p := by
  rw [jobOf, part_modStep_same]
  rfl

/-- A vote of the leader's own epoch while another is missing. -/
theorem voteArrive_noted {p r : Nat} {j : JobMap} {v : VoteRec} (hj : jobOf s p = some j) (leads : j.rank = j.leader) (rank : v.rank < jobSize j)
    (new : tget none (part s p).step.votes v.rank = none) (hr : r < jobSize j) (hrv : r ≠ v.rank) (missing : tget none (part s p).step.votes r = none) :
    voteArrive s p (part s p).step.epoch v = modStep s p fun x => { x with votes := tset none x.votes v.rank (some v) } := by
  unfold voteArrive
  rw [hj]
  refine (if_neg (by simp [leads]; omega)).trans ((if_neg (fun h => h new)).trans (leaderCheck_few ((jobOf_modStep ..).trans hj) ?_))
  rw [allVotes, part_modStep_same]
  have still : tget none (tset none (part s p).step.votes v.rank (some v)) r = none := (tget_tset_ne _ _ _ hrv).trans missing
  exact votesOf_lt hr still

/-- A revised vote of the leader's own epoch while a vote is missing. -/
theorem revisedArrive_noted {p : Nat} {j : JobMap} {o v : VoteRec} (hj : jobOf s p = some j) (leads : j.rank = j.leader)
    (old : tget none (part s p).step.votes v.rank = some o) (few : (allVotes s p (jobSize j)).length < jobSize j) :
    revisedArrive s p (part s p).step.epoch v = modStep s p fun x => { x with votes := tset none x.votes v.rank (some v) } := by
  unfold revisedArrive
  rw [hj]
  dsimp only
  rw [old]
  refine (if_neg (by simp [leads])).trans (leaderCheck_few ((jobOf_modStep ..).trans hj) ?_)
  rw [allVotes, part_modStep_same]
  exact (length_votesOf_revised old).trans_lt few

/-- A decision in an open step that is not in doubt. -/
theorem decisionArrived_open {p producer : Nat} {v : VoteRec} (sure : odN s (kStepState p) ≠ 3) (isOpen : stepOpen s p = true) :
    (part (decisionArrived s p v producer) p).step = { (part s p).step with decision := some v } ∧
      odVal (decisionArrived s p v producer) (kDecisionLast p) = some (.octets (voteBytes v)) := by
  have stays : ¬ (odN (odPut s (kDecisionLast p) (.octets (voteBytes v))) (kStepState p) = 3 ∨
      ((!stepOpen (odPut s (kDecisionLast p) (.octets (voteBytes v))) p) = true ∧ v.outcome ≠ 3)) := by
    rw [odN_odPut_ne _ _ (by simp only [kStepState, kDecisionLast]; omega), show stepOpen (odPut s (kDecisionLast p) (.octets (voteBytes v))) p = true from isOpen]
    simp [sure]
  have value := odVal_odPut_same s (kDecisionLast p) (.octets (voteBytes v))
  have parts : (odPut s (kDecisionLast p) (.octets (voteBytes v))).parts = s.parts := rfl
  unfold decisionArrived
  dsimp only
  rw [if_neg stays]
  generalize odPut s (kDecisionLast p) (.octets (voteBytes v)) = t at value parts ⊢
  have decided : (part (modStep t p fun x => { x with decision := some v }) p).step = { (part s p).step with decision := some v } := by
    rw [part_modStep_same, part_congr parts]
  split
  · rename_i b _
    have posted := steps_enginePost (s := modStep t p fun x => { x with decision := some v }) (i := b) (st := 0) (producer := producer) (pt := some p)
    exact ⟨by rw [part_congr (parts_enginePost_fine rfl), decided], (odVal_congr posted.od_eq _).trans value⟩
  · exact ⟨decided, value⟩


/-! ### Data frames (R361, R364 to R366, R381) -/

/-- An access to domains that are on. -/
theorem touch_on (h : ∀ y, y < 128 → domState s y = 0) (a n : Nat) : touch s a n = (s, true) := by
  have all (l : List Nat) (hl : ∀ d ∈ l, d < 128) : touchAll s l = (s, true) := by
    unfold touchAll
    induction l with
    | nil => rfl
    | cons d l ih =>
      have on : touchDomain s d = (s, true) := by rw [touchDomain, h d (hl d List.mem_cons_self)]; rfl
      rw [List.foldl_cons, on]
      exact ih fun d hd => hl d (List.mem_cons_of_mem _ hd)
  unfold touch
  split
  · rfl
  · refine all _ fun d hd => ?_
    rw [List.mem_eraseDups, List.mem_flatMap] at hd
    obtain ⟨x, -, hx⟩ := hd
    exact domainsAt_lt hx

theorem windowCheck_congr {t : State} {w : Window} (parts : t.parts = s.parts) (sems : t.sems = s.sems) (od : t.od = s.od)
    (window : tget none (part s f.part).windows f.hdr.window = some w) : windowCheck t f = windowCheck s f := by
  have odN' : odN t = odN s := funext (odN_congr od)
  unfold windowCheck held
  dsimp only
  rw [part_congr parts, window, semGet_congr sems, allotted_congr od parts]
  simp only [odN']

/-- The semaphore of a frame that its window admits. -/
theorem sem_of_windowCheck {w : Window} (check : windowCheck s f = none) (window : tget none (part s f.part).windows f.hdr.window = some w)
    (semOp : f.hdr.semOp = 1) (opcode : f.hdr.opcode = 0) :
    (semGet s f.hdr.sem).kind = 0 ∧ (semGet s f.hdr.sem).setter = 0xC0 + f.port ∧ (semGet s f.hdr.sem).part = f.part := by
  unfold windowCheck at check
  dsimp only at check
  rw [window, semOp, opcode] at check
  simp only [OfNat.zero_ne_ofNat, zero_ne_one, if_false] at check
  split_ifs at check
  rename_i named _ _
  simp only [decide_true, Bool.true_and, Bool.or_eq_true, decide_eq_true_eq, not_or, not_not] at named
  obtain ⟨⟨kind, setter⟩, own⟩ := named
  exact ⟨kind, setter, own⟩

theorem semGet_enginePost {i st producer p : Nat} (kind : (semGet s i).kind = 0) (setter : (semGet s i).setter = producer)
    (own : (semGet s i).part = p) : semGet (enginePost s i st producer (some p)).1 i = (semGet s i).post st producer (tickNow s) := by
  unfold enginePost
  refine (congrArg (fun x : State × Bool => semGet x.1 i) (if_pos (.inr ⟨kind, setter, .inr (by rw [own])⟩))).trans ?_
  have noted (t : State) : semGet (noteError t (some p) st) i = semGet t i := semGet_congr steps_noteError.sems_eq _
  rw [noted, semGet_bump, semGet_bump, semGet_semSet_same]

/-- A whole message of the partition's own epoch, whose semaphore is posted. -/
theorem messageDone_posts {m : RxMsg} {i : Nat} (sem : m.sem = some i) (poisoned : m.poisoned = false)
    (epoch : m.epoch = (part s f.part).step.epoch) (owed : nothingOwed s = true) :
    messageDone s f m = (enginePost s i 0 (0xC0 + f.port) (some f.part)).1 := by
  unfold messageDone
  rw [sem, poisoned, epoch, epochAhead_own]
  refine (if_neg (by simp)).trans (castOwed_none ((nothingOwed_congr ?_).trans owed))
  exact parts_enginePost_fine rfl

/-- A whole message of one frame, in the partition's own epoch. -/
theorem noteFrame_whole (rx : (qp s f.hdr.dstQp).rx = []) (index : f.hdr.frameIndex = 0) (last : f.hdr.last = true)
    (epoch : f.hdr.epoch = (part s f.part).step.epoch) (owed : f.hdr.semOp = 1 → nothingOwed s = true) :
    (∀ q, qp (noteFrame s f.hdr.dstQp f false) q = qp s q) ∧ (noteFrame s f.hdr.dstQp f false).parts = s.parts ∧
      (f.hdr.semOp = 0 → (noteFrame s f.hdr.dstQp f false).sems = s.sems) ∧
      (f.hdr.semOp = 1 → noteFrame s f.hdr.dstQp f false =
        (enginePost (setQp s f.hdr.dstQp (qp s f.hdr.dstQp)) f.hdr.sem 0 (0xC0 + f.port) (some f.part)).1) := by
  have same : (setQp s f.hdr.dstQp (qp s f.hdr.dstQp)).parts = s.parts := rfl
  have qps (q : Nat) : qp (setQp s f.hdr.dstQp (qp s f.hdr.dstQp)) q = qp s q := by
    by_cases hq : q = f.hdr.dstQp
    · rw [hq, qp_setQp_same]
    · rw [qp_setQp_ne _ _ hq]
  have unmarked : { qp s f.hdr.dstQp with rx := [] } = qp s f.hdr.dstQp := by
    generalize qp s f.hdr.dstQp = v at rx
    cases v
    subst rx
    rfl
  have noted : noteFrame s f.hdr.dstQp f false = (if f.hdr.semOp = 1 then
      (enginePost (setQp s f.hdr.dstQp (qp s f.hdr.dstQp)) f.hdr.sem 0 (0xC0 + f.port) (some f.part)).1
      else setQp s f.hdr.dstQp (qp s f.hdr.dstQp)) := by
    unfold noteFrame
    dsimp only
    simp only [rx, index, last, List.find?_nil, Option.getD_none, List.filter_nil, if_true]
    refine (if_pos (by decide)).trans ((congrArg (fun v => messageDone (setQp s f.hdr.dstQp v) f _) unmarked).trans ?_)
    generalize setQp s f.hdr.dstQp (qp s f.hdr.dstQp) = t at same ⊢
    split
    · rename_i one
      exact messageDone_posts rfl rfl (epoch.trans (by rw [part_congr same])) ((nothingOwed_congr same).trans (owed one))
    · rfl
  rw [noted]
  split
  · rename_i one
    refine ⟨fun q => ?_, ?_, fun none_ => ?_, fun _ => rfl⟩
    · exact (qp_congr steps_enginePost.qps_eq q).trans (qps q)
    · exact (parts_enginePost_fine rfl).trans same
    · omega
  · rename_i other
    exact ⟨qps, rfl, fun _ => rfl, fun one => absurd one other⟩

/-- A data frame of the partition's own epoch that its window admits. -/
theorem applyData_placed {w : Window} {y : State} (epoch : f.hdr.epoch = (part s f.part).step.epoch) (check : windowCheck s f = none)
    (window : tget none (part s f.part).windows f.hdr.window = some w) (on : ∀ d, d < 128 → domState s d = 0)
    (poisoned : f.hdr.poisoned = false) (placed : placeFrame s f = (y, .ok)) (q : Nat)
    (parts : (noteFrame y q f false).parts = s.parts) : applyData s q f = (noteFrame y q f false, none) := by
  unfold applyData
  dsimp only
  refine (if_neg (fun h => h.2.1 epoch)).trans ?_
  have reached := touch_on on (w.base + f.hdr.offset) f.hdr.payloadLen
  rewrite [check, window]
  dsimp only
  simp only [reached, placed, poisoned]
  refine (if_neg (by decide)).trans (Prod.ext ?_ rfl)
  change (if f.hdr.opcode = 4 then noteFrame y q f false else aheadVote (noteFrame y q f false) f.part f.hdr.epoch) = noteFrame y q f false
  rw [aheadVote, epoch, ← part_congr parts, epochAhead_own]
  exact ite_self _

/-- What a data frame that is placed leaves. -/
theorem dataFrame_taken {w : Window} {y : State} (next : Next f s) (check : windowCheck s f = none)
    (window : tget none (part s f.part).windows f.hdr.window = some w) (on : ∀ d, d < 128 → domState s d = 0)
    (poisoned : f.hdr.poisoned = false) (owed : f.hdr.semOp = 1 → nothingOwed s = true) (placed : placeFrame (heardAt f s) f = (y, .ok)) :
    ∃ t, hrtFrame f (sequenced f fun q s => applyData s q f) s = t ∧ t.mem = y.mem ∧
      qp t f.hdr.dstQp = qpTaken (qp s f.hdr.dstQp) f.hdr.psn (max s.now f.t) ∧ (∀ q, q ≠ f.hdr.dstQp → qp t q = qp s q) ∧
      t.parts = s.parts ∧ (f.hdr.semOp = 0 → t.sems = s.sems) ∧
      (f.hdr.semOp = 1 → f.hdr.opcode = 0 → semGet t f.hdr.sem = (semGet s f.hdr.sem).post 0 (0xC0 + f.port) (tickNow s)) := by
  have heard : Steps [.now, .ctr] s (heardAt f s) := steps_heardAt
  have kept : Steps [.mem, .health, .od, .ctr] (heardAt f s) y := Steps.of_eq steps_placeFrame placed
  have parts : y.parts = s.parts := kept.parts_eq.trans heard.parts_eq
  have qps (q : Nat) : qp y q = qp s q := (qp_congr kept.qps_eq q).trans (qp_congr heard.qps_eq q)
  have sems : y.sems = s.sems := kept.sems_eq.trans heard.sems_eq
  obtain ⟨noted, parts', none_, posts⟩ := noteFrame_whole (s := y) ((congrArg Qp.rx (qps _)).trans next.rx) next.frameIndex next.last
    (next.epoch.trans (by rw [part_congr parts])) fun one => (nothingOwed_congr parts).trans (owed one)
  have noting : Steps [.consists, .sems, .od, .ctr, .parts, .qps, .ports] y (noteFrame y f.hdr.dstQp f false) := steps_noteFrame
  have effect : applyData (heardAt f s) f.hdr.dstQp f = (noteFrame y f.hdr.dstQp f false, none) := by
    refine applyData_placed (next.epoch.trans (by rw [part_congr heard.parts_eq]))
      ((windowCheck_congr heard.parts_eq heard.sems_eq heard.od_eq window).trans check) (by rw [part_congr heard.parts_eq]; exact window)
      (fun d hd => (domState_congr heard.od_eq d).trans (on d hd)) poisoned placed _ (parts'.trans kept.parts_eq)
  generalize noteFrame y f.hdr.dstQp f false = u at noted parts' none_ posts noting effect
  have run := hrtFrame_next next ((noted _).trans (qps _)) (effect := fun q s => applyData s q f) effect
  refine ⟨_, run, steps_frameTaken.mem_eq.trans noting.mem_eq,
    qp_frameTaken_of (noting.now_eq.trans (kept.now_eq.trans (now_heardAt f s))) ((noted _).trans (qps _)),
    fun q hq => (qp_frameTaken_ne u hq).trans ((noted q).trans (qps q)), steps_frameTaken.parts_eq.trans (parts'.trans parts),
    fun zero => steps_frameTaken.sems_eq.trans ((none_ zero).trans sems), fun one plain => ?_⟩
  obtain ⟨kind, setter, own⟩ := sem_of_windowCheck check window one plain
  have sem : semGet (setQp y f.hdr.dstQp (qp y f.hdr.dstQp)) f.hdr.sem = semGet s f.hdr.sem := semGet_congr sems _
  rw [semGet_congr steps_frameTaken.sems_eq, posts one, semGet_enginePost (by rw [sem, kind]) (by rw [sem, setter]) (by rw [sem, own]), sem]
  exact congrArg _ (tickNow_congr (kept.time_eq.trans heard.time_eq))

/-- A write's payload, whole lines of which every channel takes. -/
theorem placeFrame_write {w : Window} (window : tget none (part s f.part).windows f.hdr.window = some w) (poisoned : f.hdr.poisoned = false)
    (plain : f.hdr.opcode ≠ 1)
    (fits : ((linesOf (w.base + f.hdr.offset) f.payload.length).all fun l => farWritable s (max (w.base + f.hdr.offset) (l * 64))) = true) :
    placeFrame s f = (bump (storeBytes s (w.base + f.hdr.offset) f.payload (some f.part)).1 kHrtWindowBytes
      (if f.hdr.opcode = 4 then f.payload.length else 0) (some f.part), .ok) := by
  unfold placeFrame
  rw [window, poisoned]
  dsimp only
  rw [if_neg plain, if_neg Bool.false_ne_true, copyBytes_clean]
  exact Prod.ext rfl (storeBytes_ok s _ _ _ fits).1

/-! ### A chunk of a failed channel that its stripe rebuilds (R208 to R213) -/

/-- The place, among the eight channels of a protected group, of chunk `i` of a stripe whose parity lies at place `m`. -/
def chunkPlace (m i : Nat) : Nat := if i < m then i else i + 1

theorem chunkPlace_perm : ∀ m < 8, (((List.range 7).map (chunkPlace m)) ++ [m]).Perm (List.range 8) := by decide

theorem chunkPlace_parity : ∀ m < 8, ((List.range 8).filter fun i => !(List.range 7).any fun j => chunkPlace m j = i) = [m] := by decide

/-- The channels of a stripe, counted over chunks and parity, are those of its group. -/
theorem failed_of_stripe (b : Nat → Bool) {m : Nat} (hm : m < 8) :
    ((List.range 7).filter fun i => b (chunkPlace m i)).length + (if b m = true then 1 else 0) = ((List.range 8).filter b).length := by
  rw [← ((chunkPlace_perm m hm).filter b).length_eq, List.filter_append, List.length_append, List.filter_map, List.length_map]
  congr 1
  cases hb : b m <;> simp [hb]

theorem popCount_bits (v n : Nat) : popCount 8 (bits v n 8) = ((List.range 8).filter fun i => bitOf v (n + i)).length := by
  refine congrArg List.length (List.filter_congr fun i hi => ?_)
  rw [bits, Nat.testBit_mod_two_pow, Nat.testBit_shiftRight, decide_eq_true (List.mem_range.mp hi), Bool.true_and, bitOf]

section
variable {a : Nat}

theorem farChannel_chunk (s : State) (hf : farBase ≤ a) : farChannel s (a / 2048 * 2048) = farChannel s a := by
  unfold farBase at hf
  have same : (a / 2048 * 2048 - farBase) / 0x20_0000_0000 = (a - farBase) / 0x20_0000_0000 := by unfold farBase; omega
  have chunk : (a / 2048 * 2048 - farBase) % 0x20_0000_0000 / 2048 = (a - farBase) % 0x20_0000_0000 / 2048 := by unfold farBase; omega
  unfold farChannel
  rw [same, chunk]

/-- The chunks of a stripe lie on their group's channels. -/
theorem farChannel_stripe {g st i : Nat} (prot : farProtected s g = true) (inside : st * 14336 + 14336 ≤ 0x1C_0000_0000) (hi : i < 7) :
    farChannel s (farBase + g * 0x20_0000_0000 + st * 14336 + i * 2048) = 8 * g + chunkPlace (7 - st % 8) i := by
  have group : (farBase + g * 0x20_0000_0000 + st * 14336 + i * 2048 - farBase) / 0x20_0000_0000 = g := by omega
  have chunk : (farBase + g * 0x20_0000_0000 + st * 14336 + i * 2048 - farBase) % 0x20_0000_0000 / 2048 = 7 * st + i := by omega
  unfold farChannel
  dsimp only
  rw [group, chunk, prot, if_pos rfl, show (7 * st + i) / 7 = st by omega, show (7 * st + i) % 7 = i by omega]
  rfl

/-- With one failure in its group, a stripe is rebuilt: only the count of rebuilt chunks changes. -/
theorem stripeRead_rebuilt {q : Option Nat} (prot : farProtected s ((a - farBase) / 0x20_0000_0000) = true)
    (inside : (a - farBase) % 0x20_0000_0000 < 0x1C_0000_0000)
    (single : popCount 8 (bits (odN s kFarChannelFailed) (8 * ((a - farBase) / 0x20_0000_0000)) 8) ≤ 1) :
    ∃ n, stripeRead s a [] false q = (bump s kFarReconstructed n q, []) := by
  generalize hg : (a - farBase) / 0x20_0000_0000 = g at prot single
  generalize ho : (a - farBase) % 0x20_0000_0000 = o at inside
  have whole : o / 14336 * 14336 + 14336 ≤ 0x1C_0000_0000 := by omega
  have hm : 7 - o / 14336 % 8 < 8 := by omega
  have chunks : stripeChunks s a = (List.range 7).map fun i =>
      ((farBase + g * 0x20_0000_0000 + o / 14336 * 14336 + i * 2048) / 2048, 8 * g + chunkPlace (7 - o / 14336 % 8) i) := by
    unfold stripeChunks
    rw [hg, ho]
    refine List.map_congr_left fun i hi => ?_
    dsimp only
    rw [farChannel_stripe prot whole (List.mem_range.mp hi)]
  generalize hf : odN s kFarChannelFailed = failed at single
  have counted := failed_of_stripe (fun i => bitOf failed (8 * g + i)) hm
  rw [← popCount_bits] at counted
  have known (l : List Nat) (hl : ∀ c ∈ l, bitOf failed c = true) : l.foldl noteChannel s = s := by
    induction l with
    | nil => rfl
    | cons c l ih =>
      rw [List.foldl_cons, show noteChannel s c = s from if_pos (by rw [hf]; exact hl c List.mem_cons_self)]
      exact ih fun c hc => hl c (List.mem_cons_of_mem _ hc)
  unfold stripeRead
  rw [chunks, hg, hf]
  extract_lets cs failed' lost pch parityLost t
  have lost_eq : lost = ((List.range 7).filter fun i => bitOf failed (8 * g + chunkPlace (7 - o / 14336 % 8) i)).map fun i =>
      (farBase + g * 0x20_0000_0000 + o / 14336 * 14336 + i * 2048) / 2048 := by
    simp only [lost, cs, failed', List.filter_map, List.map_map, List.contains_nil, Bool.false_or]
    rfl
  have pch_eq : pch = [8 * g + (7 - o / 14336 % 8)] := by
    have one := chunkPlace_parity _ hm
    simp only [pch, cs, List.filter_map, List.any_map, Function.comp_def, Nat.add_left_cancel_iff, one]
    rfl
  have parity_eq : parityLost = bitOf failed (8 * g + (7 - o / 14336 % 8)) := by
    simp only [parityLost, failed', pch_eq, List.any_cons, List.any_nil, Bool.or_false, Bool.false_or]
  have t_eq : t = s := by
    refine known _ fun c hc => ?_
    rw [if_neg Bool.false_ne_true, List.append_nil, lost_eq, List.map_map, List.mem_map] at hc
    obtain ⟨i, hi, rfl⟩ := hc
    obtain ⟨hi, bad⟩ := List.mem_filter.mp hi
    rw [Function.comp_apply, farChannel_chunk s (by omega), farChannel_stripe prot whole (List.mem_range.mp hi)]
    exact bad
  refine ⟨lost.length, (if_pos ?_).trans (by rw [t_eq])⟩
  rw [lost_eq, List.length_map, parity_eq]
  exact counted.le.trans single

theorem chunk_above {a : Nat} (above : farBase ≤ a) : a / 2048 * 2048 - farBase = (a - farBase) / 2048 * 2048 := by
  unfold farBase at *
  omega

/-- What a stripe's read answers for the one chunk that needs it. -/
theorem readOf_found (t y : State) (l : Nat) (q : Option Nat) (read : State → ℕ → List ℕ → Bool → Option ℕ → State × List ℕ) (prot' : Nat → Bool)
  (rebuilt : read t (l * 64 / 2048 * 2048) [] false q = (y, []))
  (found : List.find? (fun c_1 => prot' c_1 && decide (stripeOf (c_1 * 2048) = stripeOf (l * 64 / 2048 * 2048))) [l * 64 / 2048] = some (l * 64 / 2048)) :
  (match List.find? (fun c_1 => prot' c_1 && decide (stripeOf (c_1 * 2048) = stripeOf (l * 64 / 2048 * 2048))) [l * 64 / 2048] with
    | none => (t, [])
    | some c_1 =>
      match read (t, ([] : List Nat)).1 (c_1 * 2048) [] (Ecc.clean.parity.contains (stripeOf (l * 64 / 2048 * 2048))) q with
      | (s, l) => (s, (t, []).2 ++ l)) = (y, []) := by
  rw [found]
  exact congrArg (fun r : State × List Nat => (r.1, [] ++ r.2)) rebuilt

/-- A line of a failed channel, whose stripe rebuilds it, is delivered. -/
theorem eccLines_rebuilt {l : Nat} {q : Option Nat} (far : isFar (l * 64) = true) (down : farDown s (l * 64) = true)
    (failed : odN s kFarChannelFailed ≠ 0) (prot : farProtected s ((l * 64 - farBase) / 0x20_0000_0000) = true)
    (inside : (l * 64 - farBase) % 0x20_0000_0000 < 0x1C_0000_0000)
    (single : popCount 8 (bits (odN s kFarChannelFailed) (8 * ((l * 64 - farBase) / 0x20_0000_0000)) 8) ≤ 1) :
    ∃ n, eccLines s (l * 64) [l] Ecc.clean q = (bump s kFarReconstructed n q, []) := by
  have above : farBase ≤ l * 64 := by
    rw [isFar, Bool.and_eq_true, decide_eq_true_eq] at far
    exact far.1
  have chunk : l * 64 / 2048 * 2048 - farBase = (l * 64 - farBase) / 2048 * 2048 := chunk_above above
  generalize l * 64 - farBase = x at chunk prot inside single
  have group : (l * 64 / 2048 * 2048 - farBase) / 0x20_0000_0000 = x / 0x20_0000_0000 := by rw [chunk]; omega
  have low : (l * 64 / 2048 * 2048 - farBase) % 0x20_0000_0000 < 0x1C_0000_0000 := by rw [chunk]; omega
  rw [← group] at prot single
  obtain ⟨n, rebuilt⟩ := stripeRead_rebuilt (q := q) prot low single
  have named : (if odN s kFarChannelFailed = 0 then [] else [l].filter fun l => farDown s (l * 64)) = [l] := by
    rw [if_neg failed]
    exact List.filter_cons_of_pos down
  refine ⟨n, ?_⟩
  have one : (([] ++ [l] : List Nat).map fun l => l * 64 / 2048).eraseDups = [l * 64 / 2048] := rfl
  have parity (st : Nat) : Ecc.clean.parity.contains st = false := rfl
  unfold eccLines
  rw [if_pos far]
  extract_lets named' t chunks badChunks prot' stripes bare
  have ht : t = s := bump_zero ..
  have hc : chunks = [l * 64 / 2048] := by rw [← one, ← named]; rfl
  have hp : prot' (l * 64 / 2048) = true := by simp only [prot', ht, prot]
  have hs : stripes = (([l * 64 / 2048].filter prot').map fun c => stripeOf (c * 2048)).eraseDups := by rw [← hc]
  have hb : bare = [l * 64 / 2048].filter fun c => !prot' c := by rw [← hc]
  have hx : badChunks = [] := rfl
  clear_value bare stripes prot' badChunks chunks t
  subst ht hc hx
  rw [List.filter_cons_of_pos hp] at hs
  rw [List.filter_cons_of_neg (by rw [hp]; decide)] at hb
  have hs' : stripes = [stripeOf (l * 64 / 2048 * 2048)] := hs
  have found : ([l * 64 / 2048].find? fun c => prot' c && decide (stripeOf (c * 2048) = stripeOf (l * 64 / 2048 * 2048))) = some (l * 64 / 2048) :=
    List.find?_cons_of_pos (by rw [hp, decide_eq_true rfl]; rfl)
  have folded (F : State × List Nat → Nat → State × List Nat) (st : Nat) (h : F (t, []) st = (bump t kFarReconstructed n q, [])) :
      [st].foldl F (t, []) = (bump t kFarReconstructed n q, []) := h
  generalize stripeRead = read at rebuilt ⊢
  rw [hs', hb, folded]
  · exact congrArg (fun z : State => (z, ([] : List Nat))) (bump_zero _ kFarUncorrectable q)
  · refine Eq.trans ?_ (readOf_found t _ l q read prot' rebuilt found)
    congr 1

theorem linesOf_one (a : Nat) : linesOf a 1 = [a / 64] := by
  rw [linesOf, if_neg (by decide), Nat.add_sub_cancel, lineOf, Nat.add_sub_cancel_left]
  simp

/-- The lines of one byte that lie on a failed channel. -/
def downAt (s : State) (a : Nat) : List Nat := (if isFar a = true then [a / 64] else []).filter fun l => farDown s (l * 64)

/-- The state in which a byte is delivered: what was rebuilt is counted, and nothing is unreadable. -/
def deliveredIn (s : State) (n : Nat) (q : Option Nat) : State :=
  { bump s kFarReconstructed n q with mem := { (bump s kFarReconstructed n q).mem with unread := [] } }

/-- A read of a byte whose line, where it needs that, is rebuilt: the state in which it is delivered. -/
theorem underEcc_delivered {α : Type} {q : Option Nat} (g : State → State × α) (failed : odN s kFarChannelFailed ≠ 0)
    (lines : downAt s a = [] ∨ ∃ n, downAt s a = [a / 64] ∧ lineTier (a / 64) = 1 ∧
      eccLines s (a / 64 * 64) [a / 64] Ecc.clean q = (bump s kFarReconstructed n q, [])) :
    ∃ n, underEcc [(a, 1)] Ecc.clean q g s =
      ({ (g (deliveredIn s n q)).1 with mem := { (g (deliveredIn s n q)).1.mem with unread := [] } }, (g (deliveredIn s n q)).2) := by
  have down : (if odN s kFarChannelFailed = 0 then []
      else ([(a, 1)].flatMap fun r => if isFar r.1 then linesOf r.1 r.2 else []).eraseDups.filter fun l => farDown s (l * 64)) = downAt s a := by
    rw [if_neg failed, List.flatMap_cons, List.flatMap_nil, List.append_nil, linesOf_one, downAt]
    split <;> rfl
  have clean : eccWithin Ecc.clean [(a, 1)] = Ecc.clean := rfl
  unfold underEcc
  rw [if_neg fun h => failed h.2]
  extract_lets e down' named
  have hn : named = (downAt s a).eraseDups := by
    rw [← down]
    rfl
  have he : e = Ecc.clean := clean
  clear_value named e
  subst hn he
  obtain none_ | ⟨n, one, tier, read⟩ := lines
  · refine ⟨0, ?_⟩
    rw [none_, deliveredIn, bump_zero]
    rfl
  · refine ⟨n, ?_⟩
    have folded (F : State × List Nat → Nat → State × List Nat) (h0 : F (s, []) 0 = (s, []))
        (h1 : F (s, []) 1 = (bump s kFarReconstructed n q, []))
        (h2 : F (bump s kFarReconstructed n q, []) 2 = (bump s kFarReconstructed n q, [])) :
        (List.range 3).foldl F (s, []) = (bump s kFarReconstructed n q, []) := by
      change F (F (F (s, []) 0) 1) 2 = _
      rw [h0, h1, h2]
    have first : ([a / 64].eraseDups.filter fun l => decide (lineTier l = 0)) = [] :=
      List.filter_cons_of_neg (by rw [tier]; decide)
    have second : ([a / 64].eraseDups.filter fun l => decide (lineTier l = 1)) = [a / 64] :=
      List.filter_cons_of_pos (by rw [tier]; decide)
    have third : ([a / 64].eraseDups.filter fun l => decide (lineTier l = 2)) = [] :=
      List.filter_cons_of_neg (by rw [tier]; decide)
    generalize eccLines = lines at read ⊢
    rw [one, folded]
    · rfl
    · rw [first]
    · rw [second]
      exact congrArg (fun r : State × List Nat => (r.1, [] ++ r.2)) read
    · rw [third]

theorem line_above {x : Nat} : (farBase + x) / 64 * 64 = farBase + x / 64 * 64 := by
  unfold farBase
  omega

theorem isFar_iff : isFar a = true ↔ farBase ≤ a ∧ a < 2 * farBase := by
  rw [isFar, Bool.and_eq_true, decide_eq_true_eq, decide_eq_true_eq]

/-- The line of a sound byte that memory takes is delivered. -/
theorem line_delivered (q : Option Nat) (failed : odN s kFarChannelFailed ≠ 0) (fits : farWritable s a = true) (sound : rangeLost s a 1 = false)
    (inside : isFar a = true → farProtected s ((a - farBase) / 0x20_0000_0000) = true → (a - farBase) % 0x20_0000_0000 < 0x1C_0000_0000) :
    downAt s a = [] ∨ ∃ n, downAt s a = [a / 64] ∧ lineTier (a / 64) = 1 ∧
      eccLines s (a / 64 * 64) [a / 64] Ecc.clean q = (bump s kFarReconstructed n q, []) := by
  unfold downAt
  by_cases far : isFar a = true
  · rw [if_pos far]
    by_cases down : farDown s (a / 64 * 64) = true
    · obtain ⟨low, high⟩ := isFar_iff.mp far
      obtain ⟨x, rfl⟩ := Nat.exists_eq_add_of_le low
      have whole : isFar ((farBase + x) / 64 * 64) = true := isFar_iff.mpr ⟨by rw [line_above]; omega, by omega⟩
      have channel : farChannel s ((farBase + x) / 64 * 64) = farChannel s (farBase + x) := by
        rw [← farChannel_chunk s low, ← farChannel_chunk s (isFar_iff.mp whole).1]
        rw [show (farBase + x) / 64 * 64 / 2048 = (farBase + x) / 2048 by omega]
      have prot : farProtected s (x / 0x20_0000_0000) = true := by
        rw [farDown, Bool.and_eq_true, farFailed, channel, ← farFailed] at down
        by_contra bare
        rw [Bool.not_eq_true] at bare
        rw [farWritable, far, down.2, Nat.add_sub_cancel_left, bare] at fits
        cases fits
      have single : popCount 8 (bits (odN s kFarChannelFailed) (8 * (x / 64 * 64 / 0x20_0000_0000)) 8) ≤ 1 := by
        rw [rangeLost, linesOf_one, Bool.or_eq_false_iff, List.any_cons, List.any_nil, Bool.or_false] at sound
        have kept := sound.2
        rw [farLost, down, Bool.true_and, Bool.or_eq_false_iff, decide_eq_false_iff_not, line_above, Nat.add_sub_cancel_left] at kept
        exact Nat.not_lt.mp kept.2
      rw [Nat.add_sub_cancel_left] at inside
      have here := inside far prot
      rw [← show x / 64 * 64 / 0x20_0000_0000 = x / 0x20_0000_0000 by omega] at prot
      obtain ⟨n, read⟩ := eccLines_rebuilt (l := (farBase + x) / 64) (q := q) whole down failed
        (by rw [line_above, Nat.add_sub_cancel_left]; exact prot) (by rw [line_above, Nat.add_sub_cancel_left]; omega)
        (by rw [line_above, Nat.add_sub_cancel_left]; exact single)
      refine .inr ⟨n, List.filter_cons_of_pos down, ?_, read⟩
      rw [lineTier, if_neg (by rw [line_above]; unfold nearEnd farBase; omega), if_pos whole]
    · exact .inl (List.filter_cons_of_neg down)
  · exact .inl (by rw [if_neg far]; rfl)


end

/-! ### An atomic add of one element (R244, R245) -/

theorem leNat_leBytes (n v : Nat) : leNat (leBytes n v) = v % 256 ^ n := by
  induction n generalizing v with
  | zero => rw [leBytes, leNat, Nat.pow_zero, Nat.mod_one]
  | succ n ih =>
    rw [leBytes, leNat, ih, BitVec.toNat_ofNat, show 256 ^ (n + 1) = 256 * 256 ^ n from Nat.pow_succ', Nat.mod_mul]

theorem farLost_congr {t : State} (od : t.od = s.od) (a : Nat) : farLost t a = farLost s a := by
  have odN' : odN t = odN s := funext (odN_congr od)
  simp only [farLost, farDown, farFailed, farChannel, farProtected, odN']
  rfl

/-- A sound byte is sound once it is delivered. -/
theorem sound_delivered {a : Nat} (n : Nat) (q : Option Nat) (sound : rangeLost s a 1 = false) : rangeLost (deliveredIn s n q) a 1 = false := by
  have mem : (deliveredIn s n q).mem = { s.mem with unread := [] } := by rw [deliveredIn, bump_mem]
  simp only [rangeLost, rangeBad, linesOf_one, List.any_cons, List.any_nil, Bool.or_false, Bool.or_eq_false_iff] at sound ⊢
  obtain ⟨marks, kept⟩ := sound
  rw [badAt, Bool.or_eq_false_iff] at marks
  rw [mem, farLost_congr (show (deliveredIn s n q).od = s.od from bump_od ..), badAt, Bool.or_eq_false_iff]
  exact ⟨⟨marks.1, rfl⟩, kept⟩

theorem rangeLost_congr {t : State} (mem : t.mem = s.mem) (od : t.od = s.od) (a n : Nat) : rangeLost t a n = rangeLost s a n := by
  simp only [rangeLost, mem, farLost_congr od]

/-- An aligned word lies in one line. -/
theorem linesOf_word {a : Nat} (aligned : a % 4 = 0) : linesOf a 4 = [a / 64] := by
  rw [linesOf, if_neg (by decide), lineOf, lineOf, show (a + 4 - 1) / 64 + 1 - a / 64 = 1 by omega]
  simp

section
variable {a c : Nat} (aligned : a % 4 = 0) (q : Option Nat)
include aligned

/-- One FP32 element is added to the word that memory holds. -/
theorem addLine_word (sound : rangeLost s a 1 = false) (fits : farWritable s a = true) :
    (addLine s 0 [(a, some (decodeVal fmtFp32 c, c))] q).2 = .ok ∧
      ∀ x, memGet (addLine s 0 [(a, some (decodeVal fmtFp32 c, c))] q).1.mem x =
        memGet { s.mem with cells := cellsWrite s.mem.cells a (leBytes 4 (addElem 0 (memNat s a 4) (decodeVal fmtFp32 c) c).1) } x := by
  have same : rangeLost (bump s kAtomicAddLines 1 q) a 1 = false := (rangeLost_congr (bump_mem ..) (bump_od ..) a 1).trans sound
  have word : memNat (bump s kAtomicAddLines 1 q) a 4 = memNat s a 4 := by rw [memNat, bump_mem, memNat]
  generalize hv : addElem 0 (memNat s a 4) (decodeVal fmtFp32 c) c = v
  have sum : addLine s 0 [(a, some (decodeVal fmtFp32 c, c))] q =
      (bump (bump (storeBytes (bump s kAtomicAddLines 1 q) a (leBytes 4 v.1) q).1 kAddNonfinite ([v].filter fun r => r.2.1).length q)
        kAddSaturations ([v].filter fun r => r.2.2).length q, (storeBytes (bump s kAtomicAddLines 1 q) a (leBytes 4 v.1) q).2) := by
    unfold addLine
    refine (if_neg ?_).trans ?_
    · change ¬ (false || rangeLost (bump s kAtomicAddLines 1 q) a 1) = true
      rw [same]
      decide
    rw [← hv, ← word]
    rfl
  have fits' : ((linesOf a (leBytes 4 v.1).length).all fun l => farWritable (bump s kAtomicAddLines 1 q) (max a (l * 64))) = true := by
    rw [leBytes_length, linesOf_word aligned, List.all_cons, List.all_nil, Bool.and_true, max_eq_left (Nat.div_mul_le_self a 64),
      farWritable_congr (odN_congr (bump_od ..) _) (odN_congr (bump_od ..) _)]
    exact fits
  rw [sum]
  refine ⟨(storeBytes_ok _ _ _ _ fits').1, fun x => ?_⟩
  rw [bump_mem, bump_mem, memGet_storeBytes _ _ _ _ fits', bump_mem]

/-- An atomic add of the one word of a frame. -/
theorem addBytes_word {bs : List Byte} (size : bs.length = 4) (sound : rangeLost s a 1 = false) (fits : farWritable s a = true)
    (inside : isFar a = true → farProtected s ((a - farBase) / 0x20_0000_0000) = true → (a - farBase) % 0x20_0000_0000 < 0x1C_0000_0000) :
    (addBytes s 0 a bs [] Ecc.clean q).2 = .ok ∧
      ∀ x, memGet (addBytes s 0 a bs [] Ecc.clean q).1.mem x =
        memGet { s.mem with cells := cellsWrite s.mem.cells a (leBytes 4 (addElem 0 (memNat s a 4) (decodeVal fmtFp32 (leNat bs)) (leNat bs)).1) } x := by
  have elems : addBytes s 0 a bs [] Ecc.clean q = underEcc [(a, 1)] Ecc.clean q
      (fun s => addLine s 0 [(a, some (decodeVal fmtFp32 (leNat bs), leNat bs))] q) s := by
    have whole : (bs.drop (4 * 0)).take 4 = bs := by rw [List.drop_zero, List.take_of_length_le size.le]
    have one : ((List.range (bs.length / addSize 0)).map fun j => (a + addSize 0 * j, if ([] : List (Nat × Nat)).any (fun o =>
        overlaps (addSize 0 * j) (addSize 0) o.1 o.2) then none else some (decodeVal fmtFp32 (leNat ((bs.drop (addSize 0 * j)).take (addSize 0))),
          leNat ((bs.drop (addSize 0 * j)).take (addSize 0))))) = [(a, some (decodeVal fmtFp32 (leNat bs), leNat bs))] := by
      rw [size]
      change [(a, some (decodeVal fmtFp32 (leNat ((bs.drop (4 * 0)).take 4)), leNat ((bs.drop (4 * 0)).take 4)))] = _
      rw [whole]
    refine (congrArg (fun es => addAll s 0 es Ecc.clean q) one).trans ?_
    rfl
  rw [elems]
  by_cases failed : odN s kFarChannelFailed = 0
  · rw [underEcc, if_pos ⟨rfl, failed⟩]
    exact addLine_word aligned q sound fits
  · obtain ⟨n, read⟩ := underEcc_delivered (q := q) (fun s => addLine s 0 [(a, some (decodeVal fmtFp32 (leNat bs), leNat bs))] q) failed
      (line_delivered q failed fits sound inside)
    have bytes (x : Nat) : memGet (deliveredIn s n q).mem x = memGet s.mem x :=
      memGet_congr (congrArg MemSt.cells (bump_mem s kFarReconstructed n q)) (congrArg MemSt.farGen (bump_mem s kFarReconstructed n q)) x
    have od : (deliveredIn s n q).od = s.od := bump_od ..
    have sound' : rangeLost (deliveredIn s n q) a 1 = false := sound_delivered n q sound
    obtain ⟨ok, stored⟩ := addLine_word (c := leNat bs) aligned q sound' (by rw [farWritable_congr (odN_congr od _) (odN_congr od _)]; exact fits)
    rw [read]
    refine ⟨ok, fun x => ?_⟩
    refine (memGet_congr (m := { (addLine (deliveredIn s n q) 0 [(a, some (decodeVal fmtFp32 (leNat bs), leNat bs))] q).1.mem with unread := [] })
      rfl rfl x).trans ((stored x).trans ?_)
    rw [memNat, memRead_congr bytes, ← memNat]
    exact memGet_congr (by rw [deliveredIn, bump_mem]) (by rw [deliveredIn, bump_mem]) x

end

theorem allotAt_far {p a : Nat} {w : Bool} (far : isFar a = true) (h : allotAt s p a w = true)
    (prot : farProtected s ((a - farBase) / 0x20_0000_0000) = true) : (a - farBase) % 0x20_0000_0000 < 0x1C_0000_0000 := by
  by_contra outside
  have low : ¬ a < nearEnd := by
    have := (isFar_iff.mp far).1
    unfold nearEnd
    unfold farBase at this
    omega
  have unmapped : region s a = .unmapped := by
    unfold region
    rw [if_neg low, if_pos (isFar_iff.mp far)]
    exact if_pos ⟨prot, Nat.not_lt.mp outside⟩
  rw [allotAt, unmapped] at h
  cases h

/-- The start of a range that is allotted. -/
theorem allotAt_start {p a n : Nat} {w : Bool} (pos : 0 < n) (h : allotted s p a n w = true) : allotAt s p a w = true := by
  rw [allotted, decide_eq_false (by omega), Bool.false_or, Bool.and_eq_true] at h
  have start := List.all_eq_true.mp h.2 0 (List.mem_range.mpr (by unfold ceilDiv; omega))
  rwa [Nat.add_zero, max_eq_left (Nat.div_mul_le_self a 2048)] at start

theorem payloadLen_of_heard (h : frameHeard f s = true) : f.hdr.payloadLen = f.payload.length := by
  unfold frameHeard at h
  dsimp only at h
  split at h
  · cases h
  · have formed : hrtMalformed f = false := by
      simp only [Bool.and_eq_true, Bool.not_eq_true'] at h
      obtain ⟨⟨⟨⟨⟨⟨⟨-, formed⟩, -⟩, -⟩, -⟩, -⟩, -⟩, -⟩ := h
      exact formed
    simp only [hrtMalformed, Bool.or_eq_false_iff, decide_eq_false_iff_not, not_not] at formed
    obtain ⟨⟨⟨⟨⟨-, length⟩, -⟩, -⟩, -⟩, -⟩ := formed
    exact length

theorem allotted_of_windowCheck {w : Window} (check : windowCheck s f = none) (window : tget none (part s f.part).windows f.hdr.window = some w) :
    allotted s f.part (w.base + f.hdr.offset) f.hdr.payloadLen true = true := by
  unfold windowCheck at check
  dsimp only at check
  rw [window] at check
  dsimp only at check
  split_ifs at check
  all_goals
    rename_i reach
    simpa using reach

/-- An add's payload. -/
theorem placeFrame_add {w : Window} (window : tget none (part s f.part).windows f.hdr.window = some w) (poisoned : f.hdr.poisoned = false)
    (op : f.hdr.opcode = 1) (ty : f.hdr.addType = 0)
    (ok : (addBytes s 0 (w.base + f.hdr.offset) f.payload [] Ecc.clean (some f.part)).2 = .ok) :
    placeFrame s f = ((addBytes s 0 (w.base + f.hdr.offset) f.payload [] Ecc.clean (some f.part)).1, .ok) := by
  unfold placeFrame
  rw [window, poisoned]
  dsimp only
  rw [if_pos op, if_neg Bool.false_ne_true, if_neg (by omega), ty, bump_zero]
  exact Prod.ext rfl ok

/-! ### Acknowledgements (R363, R372) -/

theorem ackCovers_next {h : HrtHdr} {psn : Nat} (ack : h.ackPsn = (psn + 1) % 2 ^ 32) : ackCovers h psn = true := by
  rw [ackCovers, ack, psnDistance, decide_eq_true (by omega), Bool.true_or]

theorem pump_nothing {q : Nat} (frames : (qp s q).frames = []) : pump s q = s := by
  have again : pumpAgain s q = s := by
    unfold pumpAgain againNow
    dsimp only
    rw [frames]
    rfl
  unfold pump
  rw [again]
  dsimp only
  rw [frames]
  rfl

theorem endWhole_alone {q : Nat} {m : TxMsg} (frames : (qp s q).frames = []) (msgs : (qp s q).msgs = [m]) (owner : m.owner = none) :
    endWhole s q = setQp s q { qp s q with msgs := [] } := by
  unfold endWhole
  dsimp only
  rw [frames, msgs]
  simp [msgEnded, owner]

theorem absent_of_heard (h : frameHeard f s = true) : (qp s f.hdr.dstQp).absent = false := by
  unfold frameHeard at h
  dsimp only at h
  split at h
  · cases h
  · rw [Bool.and_eq_true, Bool.not_eq_true'] at h
    exact h.2

/-- A QP once the one frame that it has sent is acknowledged. -/
def ackedQp (v : Qp) (now : Nat) : Qp := { v with frames := [], msgs := [], progress := now, cwnd := min (v.cwnd + 8192) 4194304 }

/-- The slow mark goes, and nothing but the QP and the map of slow peers changes. -/
theorem slowDrain_kept (q : Nat) : (qp (slowDrain s q) q).frames = (qp s q).frames ∧ (qp (slowDrain s q) q).msgs = (qp s q).msgs ∧
    (qp (slowDrain s q) q).cwnd = (qp s q).cwnd ∧ (∀ r, r ≠ q → qp (slowDrain s q) r = qp s r) ∧ Steps [.od, .qps] s (slowDrain s q) := by
  have gone (t : State) : (qp (slowGone t q) q).frames = (qp t q).frames ∧ (qp (slowGone t q) q).msgs = (qp t q).msgs ∧
      (qp (slowGone t q) q).cwnd = (qp t q).cwnd ∧ (∀ r, r ≠ q → qp (slowGone t q) r = qp t r) := by
    by_cases slow : (qp t q).slow = true
    · rw [show slowGone t q = slowBit (setQp t q { qp t q with slow := false }) (qp t q).part (qp t q).peer from if_pos slow]
      simp only [qp_congr steps_slowBit.qps_eq, qp_setQp_same]
      exact ⟨trivial, trivial, trivial, fun r hr => qp_setQp_ne _ _ hr⟩
    · rw [show slowGone t q = t from if_neg slow]
      exact ⟨rfl, rfl, rfl, fun _ _ => rfl⟩
  by_cases drained : (qp s q).slow = true ∧ inFlightFrames (qp s q) = []
  · rw [show slowDrain s q = slowGone (setQp s q { qp s q with full := 0 }) q from if_pos drained]
    obtain ⟨frames, msgs, cwnd, others⟩ := gone (setQp s q { qp s q with full := 0 })
    rw [qp_setQp_same] at frames msgs cwnd
    exact ⟨frames, msgs, cwnd, fun r hr => (others r hr).trans (qp_setQp_ne _ _ hr), .andThen steps_setQp.mono steps_slowGone⟩
  · rw [show slowDrain s q = s from if_neg drained]
    exact ⟨rfl, rfl, rfl, fun _ _ => rfl, .refl⟩

/-- An acknowledgement of the one frame that is in flight. -/
theorem ackArrived_last {h : HrtHdr} {q : Nat} {g : TxFrame} {m : TxMsg} (code : h.code = 0) (echo : h.ecnEcho = false)
    (absent : (qp s q).absent = false) (frames : (qp s q).frames = [g]) (sent : g.sent ≠ none) (ack : h.ackPsn = (g.hdr.psn + 1) % 2 ^ 32) (msgs : (qp s q).msgs = [m]) (owner : m.owner = none) :
    ∃ t, ackArrived h q s = slowDrain t q ∧ qp t q = ackedQp (qp s q) s.now ∧ (∀ r, r ≠ q → qp t r = qp s r) ∧ Steps [.qps, .ports] s t := by
  have covers := ackCovers_next ack
  generalize hv : qp s q = v at *
  have acked : (v.frames.filter fun f => decide (f.sent ≠ none) && (if h.code ≠ 0 then decide (f.hdr.psn = h.ackPsn) else ackCovers h f.hdr.psn)) = [g] := by
    rw [frames]
    exact List.filter_cons_of_pos (by simp [sent, code, covers])
  have left : (v.frames.filter fun f => !(decide (f.sent ≠ none) && (if h.code ≠ 0 then decide (f.hdr.psn = h.ackPsn) else ackCovers h f.hdr.psn))) = [] := by
    rw [frames]
    exact List.filter_cons_of_neg (by simp [sent, code, covers])
  unfold ackArrived
  extract_lets v0 gone acked' msgs' v1 n a1 old a2 a3 lost a4 a5
  have h0 : acked' = [g] := by
    simp only [acked', gone, v0, hv]
    exact acked
  have h1 : v1 = { v with frames := [], progress := s.now } := by
    have none_ : v.frames.filter (fun f => !gone f) = [] := left
    have same : msgs' = v.msgs := (if_pos code).trans (congrArg Qp.msgs hv)
    simp only [v1, same, h0, v0, hv, none_]
    rfl
  have q2 : qp a2 q = { v with frames := [], progress := s.now } := (qp_setQp_same s q v1).trans h1
  have o2 (r : Nat) (hr : r ≠ q) : qp a2 r = qp s r := qp_setQp_ne s v1 hr
  have s2 : Steps [.qps, .ports] s a2 := .andThen steps_setQp.mono steps_setPort
  have h3 : a3 = setQp a2 q { qp a2 q with msgs := [] } := endWhole_alone (by rw [q2]) (by rw [q2]; exact msgs) owner
  have hl : lost = [] := by
    have none_ : v1.frames = [] := by rw [h1]
    simp only [lost, none_]
    exact (if_neg fun n => n code)
  have h4 : a4 = a3 := by simp only [a4, hl, List.foldl_nil]
  have q3 : qp a3 q = { v with frames := [], msgs := [], progress := s.now } := by rw [h3, qp_setQp_same, q2]
  have h5 : a5 = setQp a3 q { qp a3 q with cwnd := min ((qp a3 q).cwnd + 8192) 4194304 } := by
    simp only [a5, h4, echo]
    refine (if_neg (by rw [q3, absent]; decide)).trans rfl
  have q5 : qp a5 q = ackedQp v s.now := by rw [h5, qp_setQp_same, q3]; rfl
  clear_value a5 a3 a2
  refine ⟨a5, congrArg (slowDrain · q) (pump_nothing (by rw [q5]; rfl)), q5, fun r hr => ?_, ?_⟩
  · rw [h5, qp_setQp_ne _ _ hr, h3, qp_setQp_ne _ _ hr, o2 r hr]
  · rw [h5, h3]
    exact .andThen (.andThen s2 steps_setQp) steps_setQp

/-! ### Freed buffers (R307) -/

/-- The buffer that a frame frees is noted. -/
def bufferFreed (f : HrtFrame) (s : State) : State :=
  modPart s f.part fun q => { q with buffers := q.buffers ++ [(f.peer * 2 ^ 32 + leNat (f.payload.take 4), leNat (f.payload.drop 4))] }

/-- No send waits for a free buffer. -/
theorem retrySends_none {p : Nat} (h : ∀ k ∈ consistsOf s p, ∀ e ∈ (con s k).verbs, e.phase ≠ 3) : retrySends s p = s := by
  unfold retrySends
  generalize consistsOf s p = l at h
  induction l with
  | nil => rfl
  | cons k l ih =>
    have none_ : (con s k).verbs.filter (fun e => e.phase = 3) = [] :=
      List.filter_eq_nil_iff.mpr fun e he => by simpa using h k List.mem_cons_self e he
    rw [List.foldl_cons, none_]
    exact ih fun k hk => h k (List.mem_cons_of_mem _ hk)

end

end Sys2Proof.Machine

open Sys2Proof Sys2Proof.Machine

/-- Settles O59: each frame passes one pipeline, and its effect is its opcode's own. -/
theorem framesTaken : Obligations.FramesTaken := by
  refine ⟨?write, ?add, ?ack, ?vote, ?decision, ?revised, ?buffer⟩
  case write =>
    intro f w i s form wf h check window on poisoned semOp owed zero fits
    have heard : Steps [.now, .ctr] s (heardAt f s) := steps_heardAt
    have plain : f.hdr.opcode ≠ 1 := by obtain ⟨-, h⟩ | ⟨-, h⟩ := form <;> omega
    have fits' : ((linesOf (w.base + f.hdr.offset) f.payload.length).all fun l =>
        farWritable (heardAt f s) (max (w.base + f.hdr.offset) (l * 64))) = true := by
      simp only [farWritable_congr (odN_congr heard.od_eq _) (odN_congr heard.od_eq _)]
      exact fits
    have placed := placeFrame_write (s := heardAt f s) (by rw [part_congr heard.parts_eq]; exact window) poisoned plain fits'
    obtain ⟨t, run, mem, taken, others, parts, none_, posts⟩ := dataFrame_taken (next_of_frameNext h) check window on poisoned (fun _ => owed) placed
    obtain ⟨-, outside, back, -⟩ := memoryReadsBack (heardAt f s) _ _ (some f.part) fits'
    have stored (x : Nat) : memGet t.mem x = memGet (storeBytes (heardAt f s) (w.base + f.hdr.offset) f.payload (some f.part)).1.mem x := by
      rw [mem, bump_mem]
    have runs : exec i s = .next t := by
      obtain ⟨rfl, -⟩ | ⟨rfl, -⟩ := form
      · exact guardWf_runs rfl wf run
      · exact guardWf_runs rfl wf run
    refine ⟨t, runs, (memRead_congr stored _ _).trans (back zero), fun x hx => (stored x).trans ((outside x hx).trans ?_), taken, others, parts,
      none_, posts⟩
    rw [heard.mem_eq]
  case add =>
    intro f w s wf op h check window on poisoned semOp ty size aligned zero sound fits
    have heard : Steps [.now, .ctr] s (heardAt f s) := steps_heardAt
    have inside : isFar (w.base + f.hdr.offset) = true → farProtected s ((w.base + f.hdr.offset - farBase) / 0x20_0000_0000) = true →
        (w.base + f.hdr.offset - farBase) % 0x20_0000_0000 < 0x1C_0000_0000 := by
      have reach := allotted_of_windowCheck check window
      rw [payloadLen_of_heard (next_of_frameNext h).heard, size] at reach
      exact fun far prot => allotAt_far far (allotAt_start (by decide) reach) prot
    obtain ⟨ok, stored⟩ := addBytes_word (s := heardAt f s) aligned (some f.part) size ((rangeLost_congr heard.mem_eq heard.od_eq _ _).trans sound)
      (by rw [farWritable_congr (odN_congr heard.od_eq _) (odN_congr heard.od_eq _)]; exact fits)
      (by rw [farProtected, odN_congr heard.od_eq]; exact inside)
    have placed := placeFrame_add (s := heardAt f s) (by rw [part_congr heard.parts_eq]; exact window) poisoned op ty ok
    obtain ⟨t, run, mem, taken, others, parts, none_, -⟩ := dataFrame_taken (next_of_frameNext h) check window on poisoned (by omega) placed
    rw [memNat, heard.mem_eq, ← memNat] at stored
    generalize hv : addElem 0 (memNat s (w.base + f.hdr.offset) 4) (decodeVal fmtFp32 (leNat f.payload)) (leNat f.payload) = v at stored ⊢
    have length : (leBytes 4 v.1).length = 4 := leBytes_length 4 v.1
    have back : memRead t.mem (w.base + f.hdr.offset) 4 = leBytes 4 v.1 := by
      rw [mem, memRead_congr stored]
      have wrote := memRead_cellsWrite s.mem (leBytes 4 v.1) s.mem.cells (w.base + f.hdr.offset) (by rw [length]; exact zero)
      rwa [length] at wrote
    refine ⟨t, guardWf_runs rfl wf run, ?_, fun x hx => ?_, taken, parts, none_ semOp⟩
    · rw [memNat, back, leNat_leBytes]
      rfl
    · rw [mem, stored]
      exact memGet_cellsWrite_out _ _ _ _ _ (by rw [length]; exact hx)
  case ack =>
    intro f g m s wf op heard ce code sack echo frames sent low ack msgs id owner
    have absent : (qp s f.hdr.dstQp).absent = false := absent_of_heard heard
    have start : Steps [.now, .ctr] s (heardAt f s) := steps_heardAt
    have same : qp (heardAt f s) f.hdr.dstQp = qp s f.hdr.dstQp := qp_congr start.qps_eq _
    obtain ⟨t, run, acked, others, steps⟩ := ackArrived_last (s := heardAt f s) code echo (by rw [same]; exact absent) (by rw [same]; exact frames)
      sent ack (by rw [same]; exact msgs) owner
    obtain ⟨frames', msgs', cwnd, rest, drained⟩ := slowDrain_kept (s := t) f.hdr.dstQp
    refine ⟨_, guardWf_runs rfl wf ((hrtFrame_heard heard ce _).trans run), ?_, ?_, ?_, fun r hr => ?_, ?_, ?_, ?_⟩
    · rw [frames', acked]; rfl
    · rw [msgs', acked]; rfl
    · rw [cwnd, acked, same]; rfl
    · exact (rest r hr).trans ((others r hr).trans (qp_congr start.qps_eq r))
    · exact drained.mem_eq.trans (steps.mem_eq.trans start.mem_eq)
    · exact drained.sems_eq.trans (steps.sems_eq.trans start.sems_eq)
    · exact drained.parts_eq.trans (steps.parts_eq.trans start.parts_eq)
  case vote =>
    intro f j r s w h hj good leads rank new hr hrv missing
    have next := next_of_frameNext h
    have parts : (heardAt f s).parts = s.parts := steps_heardAt.parts_eq
    rw [← part_congr parts] at new missing
    have effect := voteArrive_noted ((jobOf_congr parts _).trans hj) leads rank new hr hrv missing
    rw [part_congr parts, ← next.epoch] at effect
    obtain ⟨run, taken, mem⟩ := controlFrame_next next (effect := fun s =>
      if recordGood f 1 2 then voteArrive s f.part f.hdr.epoch (parseVote f.payload).1 else s) ((if_pos good).trans effect) steps_modStep.mono
    refine ⟨_, guardWf_runs (rowControl_eq f 0x10) w run, ?_, taken, mem, ?_⟩
    · rw [part_congr steps_frameTaken.parts_eq, part_modStep_same, part_congr parts]
    · exact steps_frameTaken.sems_eq.trans (sems_heardAt f s)
  case decision =>
    intro f s w h good leader sure isOpen
    have next := next_of_frameNext h
    have parts : (heardAt f s).parts = s.parts := steps_heardAt.parts_eq
    have od : (heardAt f s).od = s.od := steps_heardAt.od_eq
    have effect : decisionArrive (heardAt f s) f.part f.hdr.epoch (parseVote f.payload).1 (0xC0 + f.port) =
        decisionArrived (heardAt f s) f.part (parseVote f.payload).1 (0xC0 + f.port) := by
      rw [decisionArrive, next.epoch, part_congr parts]
      exact if_pos rfl
    have leads : fromLeader (heardAt f s) f = true := by rw [fromLeader, jobOf_congr parts, ← fromLeader, leader]
    obtain ⟨run, taken, mem⟩ := controlFrame_next next (effect := fun s =>
      if recordGood f 2 3 ∧ fromLeader s f = true then decisionArrive s f.part f.hdr.epoch (parseVote f.payload).1 (0xC0 + f.port) else s)
      ((if_pos ⟨good, leads⟩).trans effect) steps_decisionArrived.mono
    obtain ⟨decided, value⟩ := decisionArrived_open (s := heardAt f s) (p := f.part) (v := (parseVote f.payload).1) (producer := 0xC0 + f.port)
      (by rwa [odN_congr od]) (by rwa [stepOpen, part_congr parts])
    refine ⟨_, guardWf_runs (rowControl_eq f 0x11) w run, ?_, ?_, taken, mem⟩
    · rw [part_congr steps_frameTaken.parts_eq, decided, part_congr parts]
    · exact (odVal_congr steps_frameTaken.od_eq _).trans value
  case revised =>
    intro f j o s w h hj good leads old hold few
    have next := next_of_frameNext h
    have parts : (heardAt f s).parts = s.parts := steps_heardAt.parts_eq
    rw [← part_congr parts] at old
    have effect := revisedArrive_noted ((jobOf_congr parts _).trans hj) leads old (by rwa [allVotes, part_congr parts])
    rw [part_congr parts, ← next.epoch] at effect
    obtain ⟨run, taken, mem⟩ := controlFrame_next next (effect := fun s =>
      if recordGood f 3 1 then revisedArrive s f.part f.hdr.epoch (parseVote f.payload).1 else s) ((if_pos good).trans effect) steps_modStep.mono
    refine ⟨_, guardWf_runs (rowControl_eq f 0x12) w run, ?_, taken, mem, ?_⟩
    · rw [part_congr steps_frameTaken.parts_eq, part_modStep_same, part_congr parts]
    · exact steps_frameTaken.sems_eq.trans (sems_heardAt f s)
  case buffer =>
    intro f s w code h calm
    have next := next_of_frameNext h
    have parts : (heardAt f s).parts = s.parts := steps_heardAt.parts_eq
    have grants : consistsOf (bufferFreed f (heardAt f s)) f.part = consistsOf s f.part := by
      rw [consistsOf, grantOf, bufferFreed, part_modPart_same, part_congr parts]
      rfl
    have cons : (bufferFreed f (heardAt f s)).consists = s.consists := (steps_heardAt (f := f) (s := s)).consists_eq
    have effect : retrySends (bufferFreed f (heardAt f s)) f.part = bufferFreed f (heardAt f s) := by
      refine retrySends_none fun k hk => ?_
      rw [con_congr cons]
      exact calm k (grants ▸ hk)
    obtain ⟨run, taken, mem⟩ := controlFrame_next next (effect := fun s => retrySends (bufferFreed f s) f.part) effect steps_modPart.mono
    refine ⟨_, guardWf_runs (bufferFree_guard f) w run, ?_, taken, mem, ?_⟩
    · rw [part_congr steps_frameTaken.parts_eq, bufferFreed, part_modPart_same, part_congr parts]
    · exact steps_frameTaken.sems_eq.trans (sems_heardAt f s)
end

section
/-! O60: twelve rows of the rail transport (R298, R317, R342 to R344, R358, R362, R363, R367, R376 to R380). -/

namespace Sys2Proof.Machine

-- Checked one after another: the check allows too few threads for more.
set_option Elab.async false

section
variable {s : State} {q psn : Nat}

/-- A count in a state whose counters are still those before. -/
theorem counted_bump_of_ctr {t : State} (h : t.ctr = s.ctr) (k : Nat) (p : Option Nat) : Counted s (bump t k 1 p) k 1 :=
  (counted_bump t k (n := 1) p).after (ctrGet_congr h k 0)

/-! ### Acknowledgements due for their delay (R362) -/

/-- The acknowledgement of a QP. -/
def ackOf (s : State) (q : Nat) : MacFrame :=
  ⟨(qp s q).part, (qp s q).peer, q, false, 3, { hdr0 with
    opcode := 2, dstQp := (qp s q).remote, srcQp := q, ecnEcho := (qp s q).echo
    sack := (List.range 32).foldl (fun m i => if (qp s q).seen.contains (((qp s q).expect + 1 + i) % 2 ^ 32) then bitSet m i else m) 0
    ackPsn := (qp s q).expect }, [], cTag s (qp s q).part false, false, none⟩

/-- A frame finds its link up and room in the port's buffer (R328). -/
theorem enqueue_room {n : Nat} {f : MacFrame} (up : odN s (kLinkUp n) = 1) (wait : (port s n).wait = [])
    (room : txUsed s n + frameLen s n f ≤ txHalf) : enqueue s n f = setPort s n { port s n with txq := (port s n).txq ++ [f] } := by
  unfold enqueue
  dsimp only
  rw [if_neg (by rw [up]; decide), if_pos ⟨wait, room⟩]

theorem frameLen_ackOf : frameLen s (qpPort q) (ackOf s q) = lengthTo s (qp s q).part (qpPort q) (qp s q).peer 0 true := rfl

theorem sendAck_room (up : odN s (kLinkUp (qpPort q)) = 1) (wait : (port s (qpPort q)).wait = [])
    (room : txUsed s (qpPort q) + lengthTo s (qp s q).part (qpPort q) (qp s q).peer 0 true ≤ txHalf) :
    sendAck s q none = bump (setQp (setPort s (qpPort q) { port s (qpPort q) with txq := (port s (qpPort q)).txq ++ [ackOf s q] }) q
      { qp s q with sinceAck := 0, ackDue := none, echo := false }) kHrtAcksSent 1 (some (qp s q).part) := by
  have sent := enqueue_room (f := ackOf s q) up wait (frameLen_ackOf ▸ room)
  unfold sendAck
  dsimp only
  exact congrArg (fun t => bump (setQp t q _) kHrtAcksSent 1 (some (qp s q).part)) sent

/-! ### Retransmission (R363) -/

/-- The QP of which a frame waits to be sent again. -/
def markedAgain (v : Qp) (psn : Nat) : Qp := { v with frames := v.frames.map fun g => if g.hdr.psn = psn then { g with again := true } else g }

theorem retransmit_below {g : TxFrame} (found : (qp s q).frames.find? (fun f => f.hdr.psn = psn) = some g) (below : g.retx < odN s kRetxLimit) :
    retransmit s q psn = setQp s q (markedAgain (qp s q) psn) := by
  unfold retransmit
  rw [found]
  exact if_pos below

/-- The frames that wait to be sent again, of a QP whose only such frame fits its port. -/
theorem againNow_one {v : Qp} {f : TxFrame} (only : (v.frames.filter fun f => f.again && takesFrame s q v f) = [f])
    (wait : (port s (qpPort q)).wait = []) (room : txUsed s (qpPort q) + frameLen s (qpPort q) (macFrame s v q f) ≤ txHalf) :
    againNow s q v = [f] := by
  unfold againNow
  rw [only, wait, List.foldl_cons, List.foldl_nil]
  dsimp only
  rw [if_neg (by simp; omega)]
  rfl

theorem againNow_none {v : Qp} (none_ : ∀ f ∈ v.frames, takesFrame s q v f = false) : againNow s q v = [] := by
  unfold againNow
  rw [List.filter_eq_nil_iff.mpr fun f hf => by simp [none_ f hf]]
  rfl

/-- What is not sent again now leaves the QP as it is. -/
theorem pumpAgain_none (none_ : ∀ f ∈ (qp s q).frames, takesFrame s q (qp s q) f = false) : pumpAgain s q = s := by
  unfold pumpAgain
  dsimp only
  rw [againNow_none none_]
  exact if_pos rfl

/-- The QP of which one frame has been sent again. -/
def resent (v : Qp) (f : TxFrame) (now : Nat) : Qp :=
  { v with frames := v.frames.map fun g =>
      if ([f].any fun f => f.hdr.psn = g.hdr.psn) then { g with sent := some now, again := false, retx := g.retx + 1 } else g }

/-- The state in which one frame of a QP goes to the port again, ahead of the frames that wait there. -/
def sentAgain (s : State) (q : Nat) (f : TxFrame) : State :=
  bump (setPort (setQp s q (resent (qp s q) f s.now)) (qpPort q)
    { port s (qpPort q) with txq := macFrame s (qp s q) q f :: (port s (qpPort q)).txq }) kHrtRetransmits 1 (some (qp s q).part)

theorem qp_sentAgain (f : TxFrame) : qp (sentAgain s q f) q = resent (qp s q) f s.now :=
  (qp_congr (bump_qps ..) q).trans (qp_setQp_same s q _)

theorem pumpAgain_one {f : TxFrame} (only : againNow s q (qp s q) = [f]) : pumpAgain s q = sentAgain s q f := by
  unfold pumpAgain
  dsimp only
  rw [only]
  exact if_neg (List.cons_ne_nil _ _)

/-- Marking a frame changes nothing that the choice of frames reads but the mark. -/
theorem filter_markedAgain {v : Qp} {g : TxFrame} (up : odN s (kLinkUp (qpPort q)) = 1) (present : v.absent = false) (hold : held s = false)
    (only : v.frames.filter (fun f => f.again || f.hdr.psn = psn) = [g]) (named : g.hdr.psn = psn) :
    (markedAgain v psn).frames.filter (fun f => f.again && takesFrame s q (markedAgain v psn) f) = [{ g with again := true }] := by
  have takes (f : TxFrame) : takesFrame s q (markedAgain v psn) f = true := by
    unfold takesFrame
    rw [up, hold, show (markedAgain v psn).absent = false from present]
    rfl
  have waits (f : TxFrame) : (if f.hdr.psn = psn then { f with again := true } else f).again = (f.again || f.hdr.psn = psn) := by
    by_cases h : f.hdr.psn = psn <;> simp [h]
  simp only [takes, Bool.and_true]
  simp only [markedAgain, List.filter_map, Function.comp_def, waits, only, List.map_cons, List.map_nil, named, if_true]

/-- The frame that is sent again, as the row says. -/
theorem rto_resends {g : TxFrame} (found : (qp s q).frames.find? (fun f => f.hdr.psn = psn) = some g) (new : g.again = false)
    (below : g.retx < odN s kRetxLimit) (up : odN s (kLinkUp (qpPort q)) = 1) (present : (qp s q).absent = false) (hold : held s = false)
    (only : (qp s q).frames.filter (fun f => f.again || f.hdr.psn = psn) = [g]) (wait : (port s (qpPort q)).wait = [])
    (room : txUsed s (qpPort q) + frameLen s (qpPort q) (macFrame s (qp s q) q g) ≤ txHalf) :
    pumpAgain (retransmit s q psn) q = sentAgain (setQp s q (markedAgain (qp s q) psn)) q { g with again := true } ∧
      (qp (sentAgain (setQp s q (markedAgain (qp s q) psn)) q { g with again := true }) q).frames =
        (qp s q).frames.map fun x => if x.hdr.psn = psn then { x with sent := some s.now, retx := x.retx + 1 } else x := by
  have named : g.hdr.psn = psn := by simpa using List.find?_some found
  rw [retransmit_below found below]
  generalize ht : setQp s q (markedAgain (qp s q) psn) = t
  have same : qp t q = markedAgain (qp s q) psn := by rw [← ht, qp_setQp_same]
  have chosen : againNow t q (qp t q) = [{ g with again := true }] := by
    rw [same]
    subst ht
    exact againNow_one (filter_markedAgain up present hold only named) wait room
  refine ⟨pumpAgain_one chosen, ?_⟩
  have now : t.now = s.now := by rw [← ht]; rfl
  rw [qp_sentAgain, same, now]
  simp only [resent, markedAgain, List.map_map, Function.comp_def]
  refine List.map_congr_left fun x hx => ?_
  by_cases h : x.hdr.psn = psn
  · have fresh : x = g := by
      have mem : x ∈ [g] := only ▸ List.mem_filter.mpr ⟨hx, by simp [h]⟩
      simpa using mem
    simp [fresh, named, new]
  · simp [h, named, Ne.symm h]

theorem txq_sentAgain (f : TxFrame) :
    (port (sentAgain s q f) (qpPort q)).txq = macFrame s (qp s q) q f :: (port s (qpPort q)).txq := by
  rw [sentAgain, port_congr (bump_ports ..), port_setPort_same]

theorem steps_sentAgain {f : TxFrame} : Steps [.ctr, .qps, .ports] s (sentAgain s q f) :=
  .andThen (.andThen steps_setQp.mono steps_setPort) steps_bump

theorem counted_sentAgain (f : TxFrame) : Counted s (sentAgain s q f) kHrtRetransmits 1 := counted_bump_of_ctr (by rfl) _ _

/-! ### Absent and slow peers (R376, R378) -/

theorem kPeerQuarantineMap_not_mem (p : Nat) : kPeerQuarantineMap p ∉ bookKeys := by
  simp only [bookKeys, kPeerQuarantineMap, kBookHeadSerial, kBookHeadHash, kBookOldestSerial, List.mem_cons, List.not_mem_nil, or_false]
  omega

theorem bitOf_bitSet (m i : Nat) : bitOf (bitSet m i) i = true := by
  rw [bitOf, bitSet, Nat.testBit_or, Nat.testBit_two_pow_self, Bool.or_true]

theorem endMsgs_frames (st : Status) : (qp (endMsgs s q st) q).frames = [] := by
  have ended (t : State) : Steps [.consists] t ((qp s q).msgs.foldl (fun s m => msgEnded s m.owner st) t) := .foldl .refl fun _ _ => steps_msgEnded
  rw [endMsgs, qp_congr (ended _).qps_eq, qp_setQp_same]

theorem slowGone_frames : (qp (slowGone s q) q).frames = (qp s q).frames := by
  unfold slowGone
  dsimp only
  split
  · rw [qp_congr steps_slowBit.qps_eq, qp_setQp_same]
  · rfl

/-- What the absence of a peer leaves on its QP. -/
theorem peerAbsent_leaves (isOpen : (qp s q).isOpen = true) (present : (qp s q).absent = false) :
    (qp (peerAbsent s q) q).absent = true ∧ (qp (peerAbsent s q) q).frames = [] ∧
      bitOf (odN (peerAbsent s q) (kPeerAbsentMap (qp s q).part)) (qp s q).peer = true ∧ Counted s (peerAbsent s q) kHrtPartnerAbsent 1 := by
  generalize hu : slowGone (dropFrames (endMsgs s q .partnerAbsent) (qpPort q) fun f => f.qp = q) q = u
  have ended : Steps [.consists, .ports, .od, .qps] s u := by
    rw [← hu]
    exact .andThen (.andThen steps_endMsgs.mono steps_dropFrames) steps_slowGone
  have frames : (qp u q).frames = [] := by
    rw [← hu, slowGone_frames, qp_congr steps_dropFrames.qps_eq, endMsgs_frames]
  have gone : peerAbsent s q = bump (odSet (setQp u q { qp u q with absent := true, ackDue := none }) (kPeerAbsentMap (qp s q).part)
      (bitSet (odN (setQp u q { qp u q with absent := true, ackDue := none }) (kPeerAbsentMap (qp s q).part)) (qp s q).peer)) kHrtPartnerAbsent 1
      (some (qp s q).part) := by
    subst hu
    unfold peerAbsent
    exact if_neg (by simp [isOpen, present])
  have there : qp (peerAbsent s q) q = { qp u q with absent := true, ackDue := none } := by
    rw [gone, qp_congr ((bump_qps ..).trans (odSet_qps ..)), qp_setQp_same]
  refine ⟨by rw [there], by rw [there, ← frames], ?_, ?_⟩
  · rw [gone, odN_bump, odN_odSet_same, bitOf_bitSet]
  · rw [gone]
    refine counted_bump_of_ctr ?_ _ _
    rw [odSet_ctr]
    exact ended.ctr_eq

/-- An entry that a table reads at a key, where it is not the default, is in the table. -/
theorem mem_of_tget {α : Type} {d v : α} {t : Tab α} {k : Nat} (h : tget d t k = v) (n : v ≠ d) : (k, v) ∈ t := by
  induction t with
  | nil => exact absurd h.symm n
  | cons x r ih =>
    rw [tget] at h
    split at h
    · rename_i e
      rw [← e, ← h]
      exact List.mem_cons_self
    · exact List.mem_cons_of_mem _ (ih h)

/-- The bit of a peer of which an open QP is slow is set. -/
theorem slowBit_slow {v : Qp} (there : qp s q = v) (isOpen : v.isOpen = true) (slow : v.slow = true) :
    slowBit s v.part v.peer = odSet s (kPeerSlowMap v.part) (bitSet (odN s (kPeerSlowMap v.part)) v.peer) := by
  have listed : (q, v) ∈ s.qps := mem_of_tget there fun e => by rw [e] at isOpen; cases isOpen
  unfold slowBit
  exact if_pos (List.any_eq_true.mpr ⟨_, listed, by simp [isOpen, slow]⟩)

/-- The state in which a peer has become slow on a QP. -/
def madeSlow (s : State) (q : Nat) : State := bump (setQp s q { qp s q with slow := true }) kHrtPartnerSlow 1 (some (qp s q).part)

theorem steps_madeSlow : Steps [.qps, .ctr] s (madeSlow s q) := .andThen steps_setQp.mono steps_bump

theorem counted_madeSlow (s : State) (q : Nat) : Counted s (madeSlow s q) kHrtPartnerSlow 1 := by
  refine counted_bump_of_ctr ?_ _ _
  rfl

theorem exec_peerSlowDetect_slow (wf : q < 4096) (isOpen : (qp s q).isOpen = true) (present : (qp s q).absent = false)
    (quick : (qp s q).slow = false) (full : 4 ≤ (qp s q).full) (went : (qp s q).fullSince < (qp s q).progress) :
    exec (.peerSlowDetect q) s = .next (slowBit (madeSlow s q) (qp s q).part (qp s q).peer) :=
  guardWf_runs (t := if (qp s q).isOpen ∧ !(qp s q).absent ∧ !(qp s q).slow ∧ 4 ≤ (qp s q).full ∧ (qp s q).fullSince < (qp s q).progress then
    slowBit (madeSlow s q) (qp s q).part (qp s q).peer else s) rfl (decide_eq_true wf)
    (if_pos ⟨isOpen, by rw [present]; rfl, by rw [quick]; rfl, full, went⟩)

theorem exec_hrtAckDelay_due {u : Nat} (wf : q < 4096) (isOpen : (qp s q).isOpen = true) (due : (qp s q).ackDue = some u)
    (present : (qp s q).absent = false) (up : odN s (kLinkUp (qpPort q)) = 1) (late : u + odN s kAckDelayNs ≤ s.now) :
    exec (.hrtAckDelay q) s = .next (sendAck s q none) := by
  refine guardWf_runs rfl (decide_eq_true wf) ?_
  rw [due]
  exact if_pos ⟨isOpen, by rw [present]; rfl, up, late⟩

theorem exec_hrtRtoExpiry_passed {u v : Nat} {g : TxFrame} (wf : q < 4096 ∧ psn < 2 ^ 32)
    (found : (qp s q).frames.find? (fun f => f.hdr.psn = psn) = some g) (sent : g.sent = some v) (new : g.again = false)
    (late : v + 1000 * odN s kRtoUs ≤ max s.now u) (out : inBuffer s q psn = false) :
    exec (.hrtRtoExpiry q psn u) s = .next (pumpAgain (retransmit (atTime s u) q psn) q) := by
  refine guardWf_runs rfl (decide_eq_true wf) ?_
  change (match (qp s q).frames.find? (fun f => f.hdr.psn = psn) with
    | none => atTime s u
    | some f => match f.sent with
      | none => atTime s u
      | some v => if v + 1000 * odN s kRtoUs ≤ max s.now u ∧ !f.again ∧ !inBuffer s q psn then
          pumpAgain (retransmit (atTime s u) q psn) q else atTime s u) = _
  rw [found]
  dsimp only
  rw [sent]
  exact if_pos ⟨late, by rw [new]; rfl, by rw [out]; rfl⟩

theorem exec_partnerTimeout_passed {u : Nat} (wf : q < 4096) (isOpen : (qp s q).isOpen = true) (waits : (qp s q).frames ≠ [])
    (down : odN s (kLinkUp (qpPort q)) = 0) (late : (qp s q).progress + 1000000 * odN s kPartnerTimeoutMs ≤ max s.now u) :
    exec (.partnerTimeout q u) s = .next (endBlocked (peerAbsent (atTime s u) q) (qp s q).part) := by
  refine guardWf_runs rfl (decide_eq_true wf) (if_pos ⟨isOpen, ?_, late⟩)
  change ((qp s q).frames ≠ [] && (odN s (kLinkUp (qpPort q)) = 0 || (qp s q).frames.any fun f => f.sent ≠ none && !inBuffer s q f.hdr.psn)) = true
  simp [waits, down]

theorem retransmit_limit {g : TxFrame} (found : (qp s q).frames.find? (fun f => f.hdr.psn = psn) = some g) (limit : odN s kRetxLimit ≤ g.retx)
    (up : odN s (kLinkUp (qpPort q)) ≠ 0) : retransmit s q psn = endBlocked (peerAbsent s q) (qp s q).part := by
  unfold retransmit
  rw [found]
  exact (if_neg (by omega)).trans (if_neg up)

theorem retransmit_linkDown {g : TxFrame} (found : (qp s q).frames.find? (fun f => f.hdr.psn = psn) = some g) (limit : odN s kRetxLimit ≤ g.retx)
    (down : odN s (kLinkUp (qpPort q)) = 0) : retransmit s q psn = s := by
  unfold retransmit
  rw [found]
  exact (if_neg (by omega)).trans (if_pos down)

/-- On a link that is down nothing is sent again. -/
theorem pumpAgain_linkDown (down : odN s (kLinkUp (qpPort q)) = 0) : pumpAgain s q = s :=
  pumpAgain_none fun f _ => by rw [takesFrame, down]; rfl

/-- What the absence of a peer leaves on its QP, once the sends that waited for it have ended. -/
theorem absence_ends (p : Nat) (isOpen : (qp s q).isOpen = true) (present : (qp s q).absent = false) :
    (qp (endBlocked (peerAbsent s q) p) q).absent = true ∧ (qp (endBlocked (peerAbsent s q) p) q).frames = [] ∧
      bitOf (odN (endBlocked (peerAbsent s q) p) (kPeerAbsentMap (qp s q).part)) (qp s q).peer = true ∧
      Counted s (endBlocked (peerAbsent s q) p) kHrtPartnerAbsent 1 := by
  obtain ⟨absent, frames, bit, counted⟩ := peerAbsent_leaves isOpen present
  have ended : Steps [.consists] (peerAbsent s q) (endBlocked (peerAbsent s q) p) := steps_endBlocked
  refine ⟨?_, ?_, ?_, counted.before (ctrGet_congr ended.ctr_eq _ _)⟩
  · rw [qp_congr ended.qps_eq, absent]
  · rw [qp_congr ended.qps_eq, frames]
  · rw [odN_congr ended.od_eq, bit]

/-! ### Key messages (R342 to R344, R352, R355) -/

theorem lt_of_keyWf {f : HrtFrame} {code : Nat} (w : f.keyWf code = true) : f.part < 40 := by
  simp only [HrtFrame.keyWf, HrtFrame.wf, Bool.and_eq_true, decide_eq_true_eq] at w
  obtain ⟨⟨⟨⟨part, -⟩, -⟩, -⟩, -⟩ := w
  exact part

theorem keyRow_eq (f : HrtFrame) (code : Nat) : keyRow f code = f.keyWf code := by
  rw [keyRow, rowControl, frameOk_eq_wf]
  rfl

/-- A key message of a routed peer that is well formed. -/
theorem keyFrame_heard {f : HrtFrame} {j : JobMap} {act : JobMap → State → State} (job : jobOf s f.part = some j)
    (route : routed j f.peer f.port = true) (free : isQuarantined s f.part f.peer = false) (formed : keyMalformed f = false) :
    keyFrame (atTime s f.t) f act = act j (heardAt f s) := by
  have heard : isQuarantined (heardAt f s) f.part f.peer = false := by
    rw [isQuarantined, odN_congr steps_heardAt.od_eq, ← isQuarantined, free]
  unfold keyFrame
  rw [jobOf_congr (s := s) (t := atTime s f.t) rfl, job]
  dsimp only
  rw [route, if_neg (by decide)]
  exact (if_neg (by rw [show bump (atTime s f.t) kHrtRxFrames 1 (some f.part) = heardAt f s from rfl, heard]; decide)).trans
    (if_neg (by rw [formed]; decide))

theorem ownSci_congr {t : State} (h : t.od = s.od) (p n : Nat) : ownSci t p n = ownSci s p n := by
  rw [ownSci, ownSci, macNat, macNat, odB_congr h]

theorem chan_congr {t : State} (h : t.chans = s.chans) (p n i : Nat) : chan t p n i = chan s p n i := by rw [chan, chan, h]

@[simp] theorem chan_setChan_same (s : State) (p n i : Nat) (c : Chan) : chan (setChan s p n i c) p n i = c := tget_tset_same ..

theorem ctrGet_setChan (s : State) (p n i : Nat) (c : Chan) (x w : Nat) : ctrGet (setChan s p n i c) x w = ctrGet s x w := rfl

/-- The channel once the associations of an exchange are installed. -/
def installed (c : Chan) (an : Nat) (tx rx : List Byte) : Chan :=
  let c : Chan := { c with rx := addSa c.rx (RxSa.mk an rx 1), offer := none, failed := false }
  match c.txAn with
  | none => { c with txAn := some an, txKey := tx, txPn := 1 }
  | some _ => { c with shadow := some (an, tx) }

section
variable {c : Chan} (an : Nat) (tx rx : List Byte)

theorem installed_always : (installed c an tx rx).failed = false ∧ (installed c an tx rx).offer = none ∧
    (installed c an tx rx).rx = addSa c.rx (RxSa.mk an rx 1) := by
  unfold installed
  dsimp only
  split <;> exact ⟨rfl, rfl, rfl⟩

theorem installed_first (h : c.txAn = none) : (installed c an tx rx).txAn = some an ∧ (installed c an tx rx).txKey = tx := by
  unfold installed
  dsimp only
  rw [h]
  exact ⟨rfl, rfl⟩

theorem installed_next (h : c.txAn ≠ none) : (installed c an tx rx).shadow = some (an, tx) := by
  obtain ⟨old, h⟩ := Option.ne_none_iff_exists'.mp h
  unfold installed
  dsimp only
  rw [h]

end

section
variable (p n i an : Nat) (tx rx : List Byte)

theorem chan_installSas : chan (installSas s p n i an tx rx) p n i = installed (chan s p n i) an tx rx := by
  unfold installSas installed
  dsimp only
  cases (chan s p n i).txAn with
  | none => exact (chan_congr steps_countChannels.chans_eq ..).trans (chan_setChan_same ..)
  | some old => exact (chan_congr (bump_chans ..) ..).trans (chan_setChan_same ..)

theorem odKept_installSas : OdKept [kSecureChannelsUp p] s (installSas s p n i an tx rx) := by
  unfold installSas
  dsimp only
  split
  · exact (odKept_of_od (t := setChan s p n i _) rfl).trans (odKept_odSet _ _ (by simp))
  · exact odKept_of_od (bump_od ..)

theorem ctrKept_installSas (hp : p < 61) : CtrKept [kMacsecRekeys n] s (installSas s p n i an tx rx) := by
  unfold installSas
  dsimp only
  split
  · exact ctrKept_of_ctr steps_countChannels.ctr_eq
  · exact (ctrKept_of_ctr (t := setChan s p n i _) rfl).trans (ctrKept_bump _ _ _ (by simp [hp]) (by simp))

theorem ctrKept_enqueue {f : MacFrame} (hp : f.part < 61) : CtrKept [kTxLinkDownDrops n] s (enqueue s n f) := by
  unfold enqueue
  dsimp only
  split
  · exact ctrKept_bump _ _ _ (by simp [hp]) (by simp)
  · split <;> exact ctrKept_of_ctr rfl

theorem ctrKept_sendKey (code : Nat) (payload : List Byte) (hp : p < 61) :
    CtrKept [kTxLinkDownDrops n] s (sendKey s p n i code payload) := by
  unfold sendKey
  split
  · exact .refl _ s
  · exact ctrKept_enqueue n hp

end

/-- A key message as it stands in a port's buffer. -/
def keyMessage (s : State) (p i code : Nat) (payload : List Byte) : MacFrame :=
  ⟨p, i, 0xFFFF, false, 3, { hdr0 with opcode := 3, last := true, code := code, dstQp := 0xFFFF, srcQp := 0xFFFF, payloadLen := payload.length },
    payload, cTag s p false, false, none⟩

theorem sendKey_room {p n i : Nat} {payload : List Byte} (may : mayUse s p n = true) (up : odN s (kLinkUp n) = 1) (wait : (port s n).wait = [])
    (room : txUsed s n + lengthTo s p n i payload.length false ≤ txHalf) :
    sendKey s p n i 2 payload = setPort s n { port s n with txq := (port s n).txq ++ [keyMessage s p i 2 payload] } := by
  unfold sendKey
  rw [may, if_neg (by decide)]
  exact enqueue_room (f := keyMessage s p i 2 payload) up wait room

theorem mayUse_congr {t : State} (h : t.parts = s.parts) (p n : Nat) : mayUse t p n = mayUse s p n := by
  rw [mayUse, mayUse, grantOf_congr h]

theorem lengthTo_congr {t : State} (h : t.parts = s.parts) (p n i l : Nat) (sec : Bool) : lengthTo t p n i l sec = lengthTo s p n i l sec := by
  rw [lengthTo, lengthTo, routeTo, routeTo, jobOf_congr h]

theorem txUsed_congr {t : State} (ports : t.ports = s.ports) (parts : t.parts = s.parts) (n : Nat) : txUsed t n = txUsed s n := by
  rw [txUsed, txUsed, port_congr ports]
  congr 1
  funext u f
  rw [frameLen, frameLen, lengthTo_congr parts]

theorem sciOctets_length (mac portId : Nat) : (sciOctets mac portId).length = 8 := by
  simp [sciOctets, beBytes, leBytes_length]

theorem confirmOf_length (k i r : List Byte) (an : Nat) : (confirmOf k i r an).length = 16 := shake256_length _ _

/-- An offer of the channel from a routed peer, and what answers it. -/
theorem exec_keyOfferRx_taken {o : KeyOffer} {j : JobMap} {k : List Byte} (w : (Instr.keyOfferRx o).wf = true) (job : jobOf s o.part = some j)
    (route : routed j o.peer o.port = true) (free : isQuarantined s o.part o.peer = false) (formed : keyMalformed o.frame = false)
    (from_ : keySci o.frame 0 = peerSci j o.peer o.port) (to_ : keySci o.frame 1 = ownSci s o.part o.port)
    (none_ : (chan s o.part o.port o.peer).offer = none) (secret : o.secret = some k) :
    exec (.keyOfferRx o) s = .next (sendKey (installSas (heardAt o.frame s) o.part o.port o.peer (keyAn o.frame)
        (sak k (ownSci s o.part o.port) (peerSci j o.peer o.port) (keyAn o.frame))
        (sak k (peerSci j o.peer o.port) (ownSci s o.part o.port) (keyAn o.frame))) o.part o.port o.peer 2
      (peerSci j o.peer o.port ++ ownSci s o.part o.port ++ leBytes 1 (keyAn o.frame) ++ zeros 7 ++
        confirmOf k (peerSci j o.peer o.port) (ownSci s o.part o.port) (keyAn o.frame))) := by
  have own : ownSci (heardAt o.frame s) o.part o.port = ownSci s o.part o.port := ownSci_congr steps_heardAt.od_eq ..
  have chans : chan (heardAt o.frame s) o.part o.port o.peer = chan s o.part o.port o.peer := chan_congr steps_heardAt.chans_eq ..
  refine guardWf_runs (keyRow_eq ..) w ((keyFrame_heard (f := o.frame) job route free formed).trans ?_)
  dsimp only
  rw [own, chans]
  refine (if_neg (by simp [from_, to_])).trans ((if_neg (by simp [none_])).trans ?_)
  rw [secret]

theorem exec_keyAcceptRx_taken {o : KeyAccept} {j : JobMap} {n u : Nat} {k : List Byte} (w : (Instr.keyAcceptRx o).wf = true)
    (job : jobOf s o.part = some j) (route : routed j o.peer o.port = true) (free : isQuarantined s o.part o.peer = false)
    (formed : keyMalformed o.frame = false) (from_ : keySci o.frame 0 = ownSci s o.part o.port)
    (to_ : keySci o.frame 1 = peerSci j o.peer o.port) (offered : (chan s o.part o.port o.peer).offer = some (keyAn o.frame, n, k, u))
    (confirms : keyRest o.frame = confirmOf k (ownSci s o.part o.port) (peerSci j o.peer o.port) (keyAn o.frame)) :
    exec (.keyAcceptRx o) s = .next (installSas (heardAt o.frame s) o.part o.port o.peer (keyAn o.frame)
        (sak k (ownSci s o.part o.port) (peerSci j o.peer o.port) (keyAn o.frame))
        (sak k (peerSci j o.peer o.port) (ownSci s o.part o.port) (keyAn o.frame))) := by
  have own : ownSci (heardAt o.frame s) o.part o.port = ownSci s o.part o.port := ownSci_congr steps_heardAt.od_eq ..
  have chans : chan (heardAt o.frame s) o.part o.port o.peer = chan s o.part o.port o.peer := chan_congr steps_heardAt.chans_eq ..
  refine guardWf_runs (keyRow_eq ..) w ((keyFrame_heard (f := o.frame) job route free formed).trans ?_)
  rw [chans, offered]
  dsimp only
  rw [own]
  exact (if_neg (by simp [from_, to_])).trans (if_pos confirms)

/-- What an exchange that fails leaves. -/
theorem keyFailed_leaves {p n i : Nat} : chan (keyFailed s p n i) p n i = { chan s p n i with offer := none, failed := true } ∧
    Counted s (keyFailed s p n i) (kMacsecAuthFailures n) 1 := by
  generalize hu : setChan (bump s (kMacsecAuthFailures n) 1 (some p)) p n i
    { chan (bump s (kMacsecAuthFailures n) 1 (some p)) p n i with offer := none, failed := true } = u
  have failed : chan u p n i = { chan s p n i with offer := none, failed := true } := by
    rw [← hu, chan_setChan_same, chan_congr (bump_chans ..)]
  have counted : Counted s u (kMacsecAuthFailures n) 1 := by
    rw [← hu]
    exact Counted.before (t := bump s (kMacsecAuthFailures n) 1 (some p)) (counted_bump s _ (n := 1) _) (ctrGet_setChan ..)
  have ended : Steps [.consists, .qps] u (keyFailed s p n i) := by
    unfold keyFailed
    dsimp only
    rw [hu]
    split
    · exact .andThen (F := [.consists, .qps]) (.ite steps_endMsgs .refl) steps_endBlocked
    · exact .refl
  exact ⟨(chan_congr ended.chans_eq ..).trans failed, counted.before (ctrGet_congr ended.ctr_eq _ _)⟩

theorem exec_keyAcceptTimeout_offered {p n i u an tries u0 : Nat} {k : List Byte} (wf : p < 40 ∧ n < 8 ∧ i < 64)
    (offered : (chan s p n i).offer = some (an, tries, k, u0)) :
    exec (.keyAcceptTimeout p n i u) s = .next (if max s.now u < u0 + 10_000_000 then atTime s u
      else if tries < 3 then sendOffer (atTime s u) p n i (tries + 1) else keyFailed (atTime s u) p n i) := by
  refine guardWf_runs rfl (decide_eq_true wf) ?_
  rw [show (chan (atTime s u) p n i).offer = _ from offered]
  rfl

/-! ### The job map (R298, R358) -/

/-- What a job map that is latched leaves. -/
theorem latchJob_leaves (s : State) (p a : Nat) (j : JobMap) :
    jobOf (latchJob s p a j) p = some j ∧ odN (latchJob s p a j) (kJobMapAddr p) = a := by
  unfold latchJob
  dsimp only
  generalize takeHrtNext (dropTable s p .aborted) = u
  generalize hv : modPart _ p _ = v
  have job : jobOf v p = some j := by rw [← hv, jobOf, part_modPart_same]
  have addr : odN v (kJobMapAddr p) = a := by
    rw [← hv, odN_congr steps_modPart.od_eq, odN_odSet_ne, odN_odSet_ne, odN_odSet_ne, odN_odSet_same]
    all_goals simp only [kJobMapAddr, kPeerSlowMap, kPeerAbsentMap, kPeerQuarantineMap]; omega
  generalize hw : List.foldl _ v _ = w
  have routes : Steps [.free, .ctr, .qps, .ports, .chans] v w := by
    rw [← hw]
    refine .foldl .refl fun t x => ?_
    exact .ite .refl (.ite (.andThen steps_setQp.mono steps_sendOffer) steps_setQp.mono)
  refine ⟨?_, ?_⟩
  · rw [jobOf_congr steps_countChannels.parts_eq, jobOf_congr routes.parts_eq, job]
  · rw [countChannels, odN_odSet_ne _ _ (by simp only [kJobMapAddr, kSecureChannelsUp]; omega), odN_congr routes.od_eq, addr]

theorem opOrTenant_ok {who : Who} {p : Nat} {st : Status} (h : who.role = .operator ∨ (who.role = .tenant ∧ who.part = p)) :
    opOrTenant who p st = st := if_pos h

/-! ### The timetabled mapping (R317, R319, R367) -/

/-- The state in which the paths of a points change have been taken over. -/
def pathsTaken (s : State) (p : Nat) (r : PointsReq) : State :=
  bump (odSet (odSet (modPart s p fun q => { q with paths := q.pathShadow, pathReady := none, points := [] }) (kPointsPhase p) r.phase)
    (kPathShadowState p) (stCode .notReady)) kPointsChanges 1 (some p)

theorem pathsTaken_leaves (p : Nat) (r : PointsReq) :
    let t := endVerb (pointsNext (pathsTaken s p r) p) r.consist r.vi .ok
    part t p = { part s p with paths := (part s p).pathShadow, pathReady := none, points := [] } ∧ odN t (kPointsPhase p) = r.phase ∧
      odN t (kPathShadowState p) = 0x0B ∧ Counted s t kPointsChanges 1 := by
  intro t
  have ended : Steps [.consists] (pointsNext (pathsTaken s p r) p) t := steps_endVerb
  have shown : OdKept [kPointsPending p, kPointsState p] (pathsTaken s p r) (pointsNext (pathsTaken s p r) p) :=
    (odKept_odSet _ _ (by simp)).trans (odKept_odSet _ _ (by simp))
  have counted : Counted s (pathsTaken s p r) kPointsChanges 1 := by
    refine counted_bump_of_ctr ?_ _ _
    rfl
  refine ⟨?_, ?_, ?_, (counted.before (ctrGet_congr steps_pointsNext.ctr_eq _ _)).before (ctrGet_congr ended.ctr_eq _ _)⟩
  · rw [part_congr ended.parts_eq, part_congr steps_pointsNext.parts_eq, pathsTaken, part_congr (bump_parts ..), part_congr (odSet_parts ..),
      part_congr (odSet_parts ..), part_modPart_same]
  · rw [odN_congr ended.od_eq, shown.odN_eq (by simp only [kPointsPhase, kPointsPending, kPointsState, List.mem_cons, List.not_mem_nil, or_false]; omega),
      pathsTaken, odN_bump, odN_odSet_ne _ _ (by simp only [kPointsPhase, kPathShadowState]; omega), odN_odSet_same]
  · rw [odN_congr ended.od_eq, shown.odN_eq (by simp only [kPathShadowState, kPointsPending, kPointsState, List.mem_cons, List.not_mem_nil, or_false]; omega),
      pathsTaken, odN_bump, odN_odSet_same]
    rfl

theorem exec_pointsSwap_due {p : Nat} {r : PointsReq} (wf : p < 40) (one : (part s p).points = [r]) (due : tickAfter (tickNow s) r.target = true) :
    exec (.pointsSwap p) s = .next (if (part s p).pathReady = some r.phase then
        endVerb (pointsNext (pathsTaken s p r) p) r.consist r.vi .ok
      else bump (odSet (modPart s p fun q => { q with points := { r with target := (tickNow s + 1) % 2 ^ 48 } :: [] }) (kPointsState p)
        (stCode .notReady)) kPointsDeferrals 1 (some p)) := by
  refine guardWf_runs rfl (decide_eq_true wf) ?_
  rw [one]
  dsimp only
  rw [due]
  exact if_neg (by decide)

theorem listRegionOk_entered (who : Who) (key : Nat) (v : OdVal) (p addr : Nat) (g : Part → Part) :
    listRegionOk (modPart (entered s who key v) p g) addr = listRegionOk s addr := by
  have od (k : Nat) (h : k ∉ bookKeys) : odN (modPart (entered s who key v) p g) k = odN s k :=
    (odN_congr steps_modPart.od_eq k).trans (odN_entered s who key v h)
  have near := od kNearRegionFaultMap (by decide)
  have far := od kFarParityActive (by decide)
  unfold listRegionOk region farProtected
  rw [near, far]

/-! ### Windows (R380) -/

/-- The state in which a partition's windows have been swapped. -/
def windowsSwapped (s : State) (p : Nat) : State :=
  odSet (setPart s p { part s p with
    windows := (part s p).winShadow, winReady := false, winCalls := []
    winReleased := (((part s p).windows.filter fun x => tget none (part s p).winShadow x.1 = none).map (·.1)).foldl
      (fun r w => tset 0 r w (s.now + 1)) (part s p).winReleased }) (kWindowsRegistered p) (part s p).winShadow.length

theorem exec_windowTableSwap_ready {p : Nat} (wf : p < 40) (ready : (part s p).winReady = true) :
    exec (.windowTableSwap p) s = .next ((part s p).winCalls.foldl (fun s c => endVerb s c.1 c.2 .ok) (windowsSwapped s p)) :=
  guardWf_runs rfl (decide_eq_true wf) (if_neg (by rw [ready]; decide))

end

end Sys2Proof.Machine

open Sys2Proof Sys2Proof.Machine

/-- Settles O60, row by row: what each command does to its QP, channel or table, and the counts it leaves. -/
theorem peersKeysAndTables : Obligations.PeersKeysAndTables := by
  unfold Obligations.PeersKeysAndTables
  refine ⟨?ack, ?rto, ?timeout, ?slow, ?clear, ?offer, ?accept, ?expiry, ?job, ?points, ?paths, ?windows⟩
  case ack =>
    intro q u s wf isOpen due present up late wait room
    have sent := sendAck_room up wait room
    refine ⟨_, ackOf s q, exec_hrtAckDelay_due wf isOpen due present up late, ?_, ?_, rfl, rfl, rfl, rfl, ?_, ?_⟩
    · rw [sent, qp_congr (bump_qps ..), qp_setQp_same]
    · rw [sent, port_congr ((bump_ports ..).trans (setQp_ports ..)), port_setPort_same]
    · rw [sent]
      refine counted_bump_of_ctr ?_ _ _
      rfl
    · rw [sent]
      exact (Steps.andThen (F := [.ctr, .qps, .ports]) (.andThen steps_setPort.mono steps_setQp) steps_bump).frame
  case rto =>
    intro q psn u v g s wf low found sent new late out
    have run := exec_hrtRtoExpiry_passed ⟨wf, low⟩ found sent new late out
    have there : (qp (atTime s u) q).frames.find? (fun f => f.hdr.psn = psn) = some g := found
    refine ⟨fun below up present hold only wait room => ?_, fun below down => ?_, fun limit down => ?_, fun limit up isOpen present => ?_⟩
    · obtain ⟨resent, frames⟩ := rto_resends (s := atTime s u) there new below up present hold only wait room
      refine ⟨_, run, by rw [resent, frames]; rfl, ?_, ?_, ?_⟩
      · rw [resent]
        rw [txq_sentAgain, qp_setQp_same]
        rfl
      · rw [resent]
        exact (counted_sentAgain _).after rfl
      · rw [resent]
        exact (Steps.andThen (F := [.ctr, .qps, .ports]) steps_setQp.mono steps_sentAgain).frame
    · rw [retransmit_below there below, pumpAgain_linkDown (s := setQp (atTime s u) q _) down] at run
      exact ⟨_, run, congrArg Qp.frames (qp_setQp_same ..), rfl⟩
    · rw [retransmit_linkDown there limit down, pumpAgain_linkDown (s := atTime s u) down] at run
      exact run
    · obtain ⟨absent, frames, bit, -⟩ := absence_ends (s := atTime s u) (qp s q).part isOpen present
      rw [retransmit_limit there limit up] at run
      rw [pumpAgain_none (s := endBlocked (peerAbsent (atTime s u) q) (qp (atTime s u) q).part) (by
        intro f hf
        exact absurd (frames ▸ hf) List.not_mem_nil)] at run
      exact ⟨_, run, absent, frames, bit⟩
  case timeout =>
    intro q u s wf isOpen present waits down late
    obtain ⟨absent, frames, bit, counted⟩ := absence_ends (s := atTime s u) (qp s q).part isOpen present
    exact ⟨_, exec_partnerTimeout_passed wf isOpen waits down late, absent, frames, bit, counted⟩
  case slow =>
    intro q s wf isOpen present quick full went
    have there : qp (madeSlow s q) q = { qp s q with slow := true } := (qp_congr (bump_qps ..) q).trans (qp_setQp_same ..)
    have bit := slowBit_slow there isOpen rfl
    have run := exec_peerSlowDetect_slow wf isOpen present quick full went
    dsimp only at bit
    rw [bit] at run
    have od : (madeSlow s q).od = s.od := steps_madeSlow.od_eq
    refine ⟨_, run, ?_, ?_, ?_, ?_, ?_⟩
    · rw [qp_congr steps_odSet.qps_eq, there]
    · rw [odN_odSet_same, bitOf_bitSet]
    · exact Counted.before (t := madeSlow s q) (counted_madeSlow s q) (ctrGet_odSet ..)
    · exact (odKept_of_od od).trans (odKept_odSet _ _ (by simp))
    · exact (Steps.andThen (F := [.od, .ctr, .qps]) steps_madeSlow.mono steps_odSet).frame
  case clear =>
    intro who p i s operator hp hi ho marked
    have still : isQuarantined (entered s who (kPeerQuarantineClear p) (.num i)) p i = true := by
      rw [isQuarantined, odN_entered _ _ _ _ (kPeerQuarantineMap_not_mem p), ← isQuarantined, marked]
    have run : exec (.peerQuarantineClear who p i) s = .next (partWritten s who (kPeerQuarantineClear p) (.num i) p fun q =>
        { q with quarantineClear := bitSet q.quarantineClear i }) := by
      refine guardWf_runs rfl (decide_eq_true ⟨hp, by omega⟩) ((dictWrite_taken ho ?_).trans (congrArg (answered · _) (if_pos still)))
      rw [opOnly_operator operator]
      exact if_neg (by omega)
    exact ⟨_, run, part_partWritten_same .., odKept_partWritten _ _ _ _ _ _⟩
  case offer =>
    intro o j k s w job route free formed from_ to_ none_ secret
    have hp : o.part < 40 := lt_of_keyWf w
    have run := exec_keyOfferRx_taken w job route free formed from_ to_ none_ secret
    intro own peer an
    have heard : Steps [.now, .ctr] s (heardAt o.frame s) := steps_heardAt
    have sas : Steps [.od, .ctr, .chans] (heardAt o.frame s) _ :=
      steps_installSas (p := o.part) (n := o.port) (i := o.peer) (an := an) (tx := sak k own peer an) (rx := sak k peer own an)
    have chans := chan_installSas (s := heardAt o.frame s) o.part o.port o.peer an (sak k own peer an) (sak k peer own an)
    have kept := ctrKept_installSas (s := heardAt o.frame s) o.part o.port o.peer an (sak k own peer an) (sak k peer own an) (by omega)
    rw [chan_congr heard.chans_eq] at chans
    have parts := sas.parts_eq.trans heard.parts_eq
    have ports := sas.ports_eq.trans heard.ports_eq
    have link : odN (installSas (heardAt o.frame s) o.part o.port o.peer an (sak k own peer an) (sak k peer own an)) (kLinkUp o.port) =
        odN s (kLinkUp o.port) := by
      have kept := odKept_installSas (s := heardAt o.frame s) o.part o.port o.peer an (sak k own peer an) (sak k peer own an)
      rw [kept.odN_eq (by simp only [List.mem_singleton, kLinkUp, kSecureChannelsUp]; omega), odN_congr heard.od_eq]
    generalize installSas (heardAt o.frame s) o.part o.port o.peer an (sak k own peer an) (sak k peer own an) = v
      at run sas chans kept parts ports link
    have sent := steps_sendKey (s := v) (p := o.part) (n := o.port) (i := o.peer) (code := 2)
      (payload := peer ++ own ++ leBytes 1 an ++ zeros 7 ++ confirmOf k peer own an)
    have same := (chan_congr sent.chans_eq o.part o.port o.peer).trans chans
    obtain ⟨failed, -, rx⟩ := installed_always (c := chan s o.part o.port o.peer) an (sak k own peer an) (sak k peer own an)
    refine ⟨_, run, by rw [same, failed], by rw [same, rx], fun none_ => ?_, fun some_ => ?_, ?_, fun no => ?_, fun may up wait room => ?_⟩
    · rw [same]
      exact installed_first an _ _ none_
    · rw [same]
      exact installed_next an _ _ some_
    · have one : Counted s (heardAt o.frame s) kHrtRxFrames 1 := counted_bump_of_ctr rfl _ _
      refine one.before ?_
      rw [(ctrKept_sendKey o.part o.port o.peer 2 _ (by omega)).operator, kept.operator]
      all_goals simp only [List.mem_singleton, kHrtRxFrames, kMacsecRekeys, kTxLinkDownDrops]; omega
    · rw [sendKey, mayUse_congr parts, no]
      exact ports
    · have length : (peer ++ own ++ leBytes 1 an ++ zeros 7 ++ confirmOf k peer own an).length = 40 := by
        simp only [List.length_append, confirmOf_length, leBytes_length, zeros, List.length_replicate]
        rw [show peer.length = 8 from sciOctets_length .., show own.length = 8 from sciOctets_length ..]
      have went := sendKey_room (s := v) (p := o.part) (n := o.port) (i := o.peer)
        (payload := peer ++ own ++ leBytes 1 an ++ zeros 7 ++ confirmOf k peer own an) (by rw [mayUse_congr parts, may])
        (by rw [link, up]) (by rw [port_congr ports, wait]) (by rw [length, txUsed_congr ports parts, lengthTo_congr parts]; exact room)
      refine ⟨keyMessage v o.part o.peer 2 (peer ++ own ++ leBytes 1 an ++ zeros 7 ++ confirmOf k peer own an), ?_, rfl, rfl, rfl, rfl, rfl, rfl⟩
      rw [show sendKey v o.part o.port o.peer 2 _ = _ from went, port_setPort_same, port_congr ports]
  case accept =>
    intro o j n u k s w job route free formed from_ to_ offered confirms
    have heard : Steps [.now, .ctr] s (heardAt o.frame s) := steps_heardAt
    have sas : Steps [.od, .ctr, .chans] (heardAt o.frame s) _ :=
      steps_installSas (p := o.part) (n := o.port) (i := o.peer) (an := keyAn o.frame)
        (tx := sak k (ownSci s o.part o.port) (peerSci j o.peer o.port) (keyAn o.frame))
        (rx := sak k (peerSci j o.peer o.port) (ownSci s o.part o.port) (keyAn o.frame))
    refine ⟨_, exec_keyAcceptRx_taken w job route free formed from_ to_ offered confirms, ?_⟩
    rw [chan_installSas, chan_congr heard.chans_eq]
    refine ⟨?_, fun some_ => installed_next _ _ _ some_, fun none_ => ?_, sas.mem_eq.trans heard.mem_eq, sas.qps_eq.trans heard.qps_eq⟩
    · obtain ⟨-, offer, -⟩ := installed_always (c := chan s o.part o.port o.peer) (keyAn o.frame)
        (sak k (ownSci s o.part o.port) (peerSci j o.peer o.port) (keyAn o.frame))
        (sak k (peerSci j o.peer o.port) (ownSci s o.part o.port) (keyAn o.frame))
      exact offer
    · obtain ⟨first, -⟩ := installed_first (keyAn o.frame) (sak k (ownSci s o.part o.port) (peerSci j o.peer o.port) (keyAn o.frame))
        (sak k (peerSci j o.peer o.port) (ownSci s o.part o.port) (keyAn o.frame)) none_
      exact first
  case expiry =>
    intro p n i u an tries u0 k s hp hn hi offered
    have run := exec_keyAcceptTimeout_offered (u := u) ⟨hp, hn, hi⟩ offered
    refine ⟨fun early => ?_, fun late few => ?_, fun late many => ?_⟩
    · rw [run, if_pos early]
      rfl
    · rw [run, if_neg (by omega), if_pos few]
    · obtain ⟨failed, counted⟩ := keyFailed_leaves (s := atTime s u) (p := p) (n := n) (i := i)
      rw [if_neg (by omega), if_neg (by omega)] at run
      exact ⟨_, run, failed, counted⟩
  case job =>
    intro who p addr j s writer hp ha ho ok read
    have run : exec (.jobMapAddrWrite who p addr) s = .next (answered (latchJob (entered s who (kJobMapAddr p) (.num addr)) p addr j)
        (kJobMapAddr p)) := by
      rw [← read]
      exact guardWf_runs rfl (decide_eq_true ⟨hp, ha⟩) (dictWrite_taken ho ((opOrTenant_ok writer).trans ok))
    obtain ⟨job, at_⟩ := latchJob_leaves (entered s who (kJobMapAddr p) (.num addr)) p addr j
    exact ⟨_, run, job, at_, steps_latchJob.mem_eq.trans steps_entered.mem_eq⟩
  case points =>
    intro p r s hp one due
    have run := exec_pointsSwap_due hp one due
    refine ⟨fun ready => ?_, fun unready => ?_⟩
    · rw [if_pos ready] at run
      exact ⟨_, run, pathsTaken_leaves p r⟩
    · rw [if_neg unready] at run
      refine ⟨_, run, ?_, ?_, ?_, ?_⟩
      · rw [part_congr (bump_parts ..), part_congr (odSet_parts ..), part_modPart_same]
      · rw [odN_bump, odN_odSet_same]
        rfl
      · refine counted_bump_of_ctr ?_ _ _
        rfl
      · exact ((odKept_of_od steps_modPart.od_eq).trans (odKept_odSet (k := kPointsState p) _ _ (by simp))).trans
          (odKept_bump _ _ _ _ _)
  case paths =>
    intro who p addr s writer hp ha ho
    refine ⟨guardWf_runs rfl (decide_eq_true ⟨hp, ha⟩) (dictWrite_taken ho (opOrTenant_ok writer)), fun outside => ?_⟩
    unfold loadPaths
    dsimp only
    rw [listRegionOk_entered, outside, if_pos (.inl rfl), odN_odSet_same]
    rfl
  case windows =>
    intro p s hp ready
    have ended : Steps [.consists] (windowsSwapped s p) ((part s p).winCalls.foldl (fun s c => endVerb s c.1 c.2 .ok) (windowsSwapped s p)) :=
      .foldl .refl fun _ _ => steps_endVerb
    have swapped : Steps [.parts, .od] s (windowsSwapped s p) := .andThen steps_setPart.mono steps_odSet
    refine ⟨_, exec_windowTableSwap_ready hp ready, ?_, ?_, ?_, ?_, ?_⟩
    · rw [part_congr ended.parts_eq, windowsSwapped, part_congr (odSet_parts ..), part_setPart_same]
    · rw [part_congr ended.parts_eq, windowsSwapped, part_congr (odSet_parts ..), part_setPart_same]
    · rw [odN_congr ended.od_eq, windowsSwapped, odN_odSet_same]
    · exact ended.mem_eq.trans swapped.mem_eq
    · exact ended.sems_eq.trans swapped.sems_eq
end

section
/-! O58, the yard units' part: a shard's check and apply, the layer table (R272 to R281, R283, R293 to R295). -/

namespace Sys2Proof.Machine

-- Checked one after another: the check allows too few threads for more.
set_option Elab.async false

section
variable {s : State} {a : Nat} {bs : List Byte}

/-! ### Small stores outside the far tier -/

/-- No byte of a range lies in the far tier. -/
def NotFar (a n : Nat) : Prop := ∀ x, a ≤ x → x < a + n → isFar x = false

theorem notFar_of_ends {n : Nat} (low : isFar a = false) (high : isFar (a + (n - 1)) = false) (short : n ≤ farBase) : NotFar a n := by
  intro x l u
  simp only [isFar, Bool.and_eq_false_iff, decide_eq_false_iff_not] at low high ⊢
  generalize farBase = b at *
  omega

theorem line_within {n l : Nat} (h : l ∈ linesOf a n) : a ≤ max a (l * 64) ∧ max a (l * 64) < a + n := by
  refine ⟨le_max_left _ _, ?_⟩
  unfold linesOf at h
  split at h
  · cases h
  · obtain ⟨i, hi, rfl⟩ := List.mem_map.mp h
    rw [List.mem_range] at hi
    unfold lineOf at hi ⊢
    omega

theorem all_farWritable_notFar (far : NotFar a bs.length) :
    ((linesOf a bs.length).all fun l => farWritable s (max a (l * 64))) = true :=
  List.all_eq_true.mpr fun l hl => by
    obtain ⟨low, high⟩ := line_within hl
    simp [farWritable, far _ low high]

theorem noteRmw_notFar (n : Nat) (far : isFar a = false) (p : Option Nat) : noteRmw s a n p = s := by
  have none_ : rmwStripes s a n = 0 := by rw [rmwStripes, far]; simp
  unfold noteRmw
  dsimp only
  rw [none_, bump_zero]
  exact if_pos (.inl (by rw [none_]))

/-- A small store outside the far tier writes its bytes and clears the marks that it covers whole. -/
theorem poke_plain (far : NotFar a bs.length) (some_ : bs ≠ []) :
    poke s a bs = clearMarks { s with mem := { s.mem with cells := cellsWrite s.mem.cells a bs } } a bs.length := by
  have first : isFar a = false := far a le_rfl (by have := List.length_pos_iff.mpr some_; omega)
  unfold poke storeBytes
  rw [all_farWritable_notFar far]
  dsimp only
  rw [if_pos rfl]
  dsimp only
  rw [noteRmw_notFar _ first]

theorem odKept_clearMarks (s : State) (a n : Nat) : OdKept [kFarPoisonEntries] s (clearMarks s a n) := by
  unfold clearMarks
  dsimp only
  split
  · exact odKept_of_od rfl
  · exact (odKept_of_od rfl).trans (odKept_odSet (k := kFarPoisonEntries) _ _ (by simp))

theorem odKept_poke (far : NotFar a bs.length) (some_ : bs ≠ []) : OdKept [kFarPoisonEntries] s (poke s a bs) := by
  rw [poke_plain far some_]
  exact (odKept_of_od rfl).trans (odKept_clearMarks _ _ _)

theorem memGet_poke (far : NotFar a bs.length) (x : Nat) :
    memGet (poke s a bs).mem x = memGet { s.mem with cells := cellsWrite s.mem.cells a bs } x :=
  memGet_storeBytes s a bs none (all_farWritable_notFar far) x

theorem memKept_poke (far : NotFar a bs.length) : MemKept s (poke s a bs) a bs.length := fun x hx =>
  (memGet_poke far x).trans (memGet_cellsWrite_out _ _ _ _ _ hx)

theorem memRead_poke (far : NotFar a bs.length) (zero : NoHistZero a bs.length) : memRead (poke s a bs).mem a bs.length = bs :=
  (memRead_congr (memGet_poke far) a _).trans (memRead_cellsWrite _ _ _ _ zero)

/-! ### Parts of a range that is read -/

theorem memRead_add (m : MemSt) (a n k : Nat) : memRead m a (n + k) = memRead m a n ++ memRead m (a + n) k := by
  induction n generalizing a with
  | zero => rw [Nat.zero_add]; rfl
  | succ n ih => rw [Nat.succ_add, memRead, ih, memRead, List.cons_append, Nat.add_right_comm, Nat.add_assoc]

theorem memRead_within {m n : MemSt} {a k : Nat} (h : ∀ x, a ≤ x → x < a + k → memGet m x = memGet n x) : memRead m a k = memRead n a k := by
  induction k generalizing a with
  | zero => rfl
  | succ k ih => rw [memRead, memRead, h a le_rfl (by omega), ih fun x l u => h x (by omega) (by omega)]

/-- A range of equal records reads the record at each of their places. -/
theorem memRead_record {m : MemSt} {a n l : Nat} {x : List Byte} (read : memRead m a (n * x.length) = (List.replicate n x).flatten) (hl : l < n) :
    memRead m (a + x.length * l) x.length = x := by
  induction n generalizing a l with
  | zero => omega
  | succ n ih =>
    rw [Nat.succ_mul, Nat.add_comm, memRead_add, List.replicate_succ, List.flatten_cons] at read
    have length : (memRead m a x.length).length = x.length := memRead_length ..
    obtain ⟨first, rest⟩ := List.append_inj read length
    cases l with
    | zero => exact first
    | succ l =>
      have at_ := ih rest (Nat.lt_of_succ_lt_succ hl)
      rwa [Nat.add_assoc, Nat.add_comm x.length, ← Nat.mul_succ] at at_

/-! ### The check of a shard (R277 to R281) -/

variable {p d : Nat} {c : UpdCmd} {acc : Accepted}

theorem touchAll_ranges (on : ∀ y, y < 128 → domState s y = 0) (l : List (Nat × Nat)) : l.foldl (fun s r => (touch s r.1 r.2).1) s = s := by
  induction l with
  | nil => rfl
  | cons r l ih => rw [List.foldl_cons, touch_on on, ih]

/-- A shard whose record is judged lies on 64 bytes. -/
theorem aligned_of_shardCheck {res : Nat} {st : Status} (check : shardCheck s p c res a = (st, acc)) (judged : st ≠ .malformed) : a % 64 = 0 := by
  unfold shardCheck at check
  dsimp only at check
  split at check
  · exact absurd (congrArg Prod.fst check).symm judged
  · rename_i command
    by_contra off
    exact command (by simp [off])

/-- The state in which a shard's check has been noted. -/
def checkNoted (s : State) (p d : Nat) (st : Status) : State := modStep s p fun x => { x with checked := x.checked ++ [(d, st)] }

/-- The state in which a shard's record reads accepted and it joins those accepted. -/
def shardJoined (s : State) (p a : Nat) (acc : Accepted) : State :=
  modStep (setShardState s a 1) p fun x => { x with shards := x.shards ++ [{ acc with shard := { acc.shard with state := 1 } }] }

/-- What the check of one shard of a command does while others of it are not decided. -/
theorem updateShardCheck_noted {st : Status} (cmd : (part s p).step.cmd = some c) (low : c.first ≤ d) (high : d < c.first + c.count)
    (new : ((part s p).step.checked.any fun x => x.1 = d) = false)
    (free : ((part s p).step.shards.any fun x => x.addr = c.table + 64 * d && x.applying) = false)
    (more : (part s p).step.checked.length + 1 < c.count) (on : ∀ y, y < 128 → domState s y = 0)
    (check : shardCheck s p c 0 (c.table + 64 * d) = (st, acc)) {u : State}
    (effect : (if st = .ok then shardJoined s p (c.table + 64 * d) acc else if st = .counterSkew then bump s kYardCounterSkews 1 (some p)
      else if st = .denied then countDenied s (some p) else s) = u) (same : (part u p).step.checked = (part s p).step.checked) :
    updateShardCheck s p d = checkNoted u p d st := by
  have quiet : ¬ ((part s p).step.shards.any fun x => x.addr = c.table + 64 * d ∧ x.applying = true) = true := by
    simpa using free
  unfold updateShardCheck
  rw [cmd]
  dsimp only
  rw [if_neg (by simp only [new, Bool.false_eq_true, or_false]; omega), if_neg quiet, check]
  dsimp only
  rw [touchAll_ranges on, ite_self]
  have noted : (if st = .ok then modStep (setShardState s (c.table + 64 * d) 1) p fun x =>
      { x with shards := x.shards ++ [{ acc with shard := { acc.shard with state := 1 } }] }
    else if st = .counterSkew then bump s kYardCounterSkews 1 (some p)
    else if st = .denied then countDenied s (some p) else s) = u := effect
  rw [noted]
  refine if_pos ?_
  rw [part_modStep_same]
  simpa [same] using more

theorem steps_shardJoined : Steps [.mem, .health, .od, .ctr, .parts] s (shardJoined s p a acc) := .andThen steps_setShardState.mono steps_modStep

theorem step_shardJoined (s : State) (p a : Nat) (acc : Accepted) : (part (shardJoined s p a acc) p).step =
    { (part s p).step with shards := (part s p).step.shards ++ [{ acc with shard := { acc.shard with state := 1 } }] } := by
  rw [shardJoined, part_modStep_same, part_congr steps_setShardState.parts_eq]

/-- The octet of a descriptor that shows the shard's state. -/
theorem notFar_octet (far : isFar (a + 10) = false) (st : Nat) : NotFar (a + 10) (leBytes 1 st).length := by
  intro x l u
  rw [leBytes_length] at u
  rwa [show x = a + 10 by omega]

theorem memGet_setShardState (far : isFar (a + 10) = false) (zero : histZero (a + 10) = false) (st : Nat) :
    memGet (setShardState s a st).mem (a + 10) = BitVec.ofNat 8 st := by
  have read := memRead_poke (s := s) (notFar_octet far st) fun x l u => by
    rw [leBytes_length] at u
    rwa [show x = a + 10 by omega]
  exact (List.cons.inj read).1

theorem memKept_setShardState (far : isFar (a + 10) = false) (st : Nat) : MemKept s (setShardState s a st) (a + 10) 1 := by
  have kept := memKept_poke (s := s) (notFar_octet far st)
  rwa [leBytes_length] at kept

/-! ### The apply of a shard whose layer is frozen (R283, R293) -/

variable {x : Accepted}

theorem groupFrozen_layer (frozen : x.layer.frozen = true) (z : Nat) : groupFrozen s x z = true := by rw [groupFrozen, frozen, Bool.true_or]

theorem tailStripes_frozen (frozen : x.layer.frozen = true) : tailStripes s x = 0 := by
  unfold tailStripes
  dsimp only
  refine if_neg fun h => ?_
  obtain ⟨-, -, some_⟩ := h
  obtain ⟨z, -, hz⟩ := List.any_eq_true.mp some_
  rw [groupFrozen_layer frozen] at hz
  simp at hz

theorem applyLines_frozen (frozen : x.layer.frozen = true) (zs : List Nat) : applyLines s x zs = [] := by
  unfold applyLines
  dsimp only
  have none_ : (zs.flatMap fun _ => ([] : List Nat)) = [] := List.flatMap_eq_nil_iff.mpr fun _ _ => rfl
  simp only [frozen, groupFrozen_layer frozen, true_or, if_true, List.append_nil, none_]
  rfl

theorem applyGroup_frozen (frozen : x.layer.frozen = true) (before : State) (q : YScal) (z : Nat) (y : Applied) :
    applyGroup before p x q z y = { y with s := bump y.s kYardParamsFrozen (min 32 (x.shard.count - 32 * z)) (some p) } := by
  unfold applyGroup
  dsimp only
  exact if_pos (by rw [frozen, groupFrozen_layer frozen]; rfl)

/-- The groups of a frozen layer are counted, and nothing else is done. -/
theorem applyGroups_frozen (frozen : x.layer.frozen = true) (before : State) (q : YScal) (zs : List Nat) (y : Applied) :
    ∃ t, Steps [.ctr] y.s t ∧ zs.foldl (fun y z => applyGroup before p x q z y) y = { y with s := t } := by
  induction zs generalizing y with
  | nil => exact ⟨y.s, .refl, rfl⟩
  | cons z zs ih =>
    obtain ⟨t, steps, run⟩ := ih (applyGroup before p x q z y)
    rw [applyGroup_frozen frozen] at steps run
    have counted : Steps [.ctr] y.s (bump y.s kYardParamsFrozen (min 32 (x.shard.count - 32 * z)) (some p)) := steps_bump
    refine ⟨t, counted.andThen steps, ?_⟩
    rw [List.foldl_cons, applyGroup_frozen frozen, run]

theorem applyRange_frozen (frozen : x.layer.frozen = true) (fine : x.bad = false) (last : Nat) :
    ∃ t, Steps [.ctr] s t ∧ applyRange s p x last Ecc.clean = (t, false) := by
  have clean (b : Nat) : eccLines s b [] Ecc.clean (some p) = (s, []) := eccLines_clean b _ (by simp)
  obtain ⟨t, steps, run⟩ := applyGroups_frozen (p := p) frozen { s with mem := { s.mem with unread := [] ++ [] } } (yscal x)
    ((List.range last).filter fun z => decide (x.done ≤ z)) ⟨s, x.bad, [], []⟩
  refine ⟨t, steps, ?_⟩
  unfold applyRange
  dsimp only
  rw [applyLines_frozen frozen, List.filter_nil, List.filter_nil, clean]
  dsimp only
  rw [clean]
  dsimp only
  rw [run, fine]
  rfl

/-- The state in which the apply of a shard has written its descriptor. -/
def counterAdvanced (s : State) (x : Accepted) : State := setShardState (poke s (x.addr + 56) (leBytes 8 (x.cmd.step + 1))) x.addr 0

theorem steps_counterAdvanced : Steps [.mem, .health, .od, .ctr] s (counterAdvanced s x) := .andThen steps_poke steps_setShardState

theorem shardApply_frozen (one : (part s p).step.shards = [x]) (applying : x.applying = true) (at_ : x.addr = x.cmd.table + 64 * d)
    (frozen : x.layer.frozen = true) (fine : x.bad = false) (all : ((shardRanges s x).all fun r => allotted s p r.1 r.2 true) = true) :
    ∃ t, Steps [.free, .ctr] s t ∧ shardApply s p d Ecc.clean = shardDone (counterAdvanced t x) p x 0 := by
  have next : applyNext [x] x = true := by simp [applyNext, applying]
  have reach : ((shardRanges s x).any fun r => !allotted s p r.1 r.2 true) = false := by
    rw [← List.not_all_eq_any_not, all]
    rfl
  obtain ⟨t, steps, run⟩ := applyRange_frozen (s := s) (p := p) frozen fine (ceilDiv x.shard.count 32)
  refine ⟨bump (bumpFree t kYardBusyUs (some p)) kFarRmwWrites 0 (some p),
    .andThen (F := [.free, .ctr]) (.andThen steps.mono steps_bumpFree) steps_bump, ?_⟩
  unfold shardApply
  rw [one, List.find?_cons_of_pos (by simp [applying, at_])]
  dsimp only
  rw [next, if_neg (by decide), if_neg (by rw [reach]; decide), run, tailStripes_frozen frozen]
  rfl

/-- The step's state once an apply is over. -/
def applySettled (s : State) (p : Nat) : State :=
  if (part s p).step.shards.any (·.applying) then s else if odN s (kStepState p) = 4 then odSet s (kStepState p) 0 else s

theorem parts_applySettled : (applySettled s p).parts = s.parts := by
  unfold applySettled
  split
  · rfl
  · split
    · exact odSet_parts ..
    · rfl

/-- The state in which an apply's shard has left the list. -/
def shardLeft (s : State) (p : Nat) (x : Accepted) : State :=
  modStep s p fun y => { y with shards := y.shards.filter fun a => !(a.applying && a.addr = x.addr) }

theorem shardDone_eq (st : Nat) : shardDone s p x st =
    applySettled (enginePost (shardLeft s p x) x.shard.readySem st (0xA0 + 2 * shardGroup x.shard) (some p)).1 p := rfl

theorem parts_shardDone : (shardDone s p x 0).parts = (shardLeft s p x).parts := by
  rw [shardDone_eq, parts_applySettled]
  generalize 0xA0 + 2 * shardGroup x.shard = code
  exact parts_enginePost_fine rfl

/-- A shard alone on the list goes from it, and no vote is owed by what that posts. -/
theorem shardDone_alone (one : (part s p).step.shards = [x]) (applying : x.applying = true) (owed : nothingOwed s = true) :
    (part (shardDone s p x 0) p).step.shards = [] ∧ nothingOwed (shardDone s p x 0) = true := by
  refine ⟨?_, (nothingOwed_congr parts_shardDone).trans ?_⟩
  · rw [part_congr parts_shardDone, shardLeft, part_modStep_same, one]
    simp [applying]
  · rw [nothingOwed_iff] at owed ⊢
    intro q
    by_cases h : q = p
    · rw [h, shardLeft, part_modStep_same]
      exact owed p
    · rw [shardLeft, part_modStep_ne _ _ h]
      exact owed q

/-- What the descriptor reads once its shard has been applied. -/
theorem counterAdvanced_reads (low : isFar x.addr = false) (high : isFar (x.addr + 63) = false) (zero : NoHistZero x.addr 64) :
    memNat (counterAdvanced s x) (x.addr + 56) 8 = (x.cmd.step + 1) % 2 ^ 64 ∧ memGet (counterAdvanced s x).mem (x.addr + 10) = 0 ∧
      MemKept s (counterAdvanced s x) x.addr 64 := by
  have far : NotFar x.addr 64 := notFar_of_ends low high (by decide)
  have length : (leBytes 8 (x.cmd.step + 1)).length = 8 := leBytes_length 8 _
  have counter : NotFar (x.addr + 56) (leBytes 8 (x.cmd.step + 1)).length := fun y l u => far y (by omega) (by omega)
  have octet : isFar (x.addr + 10) = false := far _ (by omega) (by omega)
  have wrote := memRead_poke (s := s) counter fun y l u => zero y (by omega) (by omega)
  have kept := memKept_poke (s := s) counter
  have noted := memKept_setShardState (s := poke s (x.addr + 56) (leBytes 8 (x.cmd.step + 1))) octet 0
  rw [length] at wrote kept
  refine ⟨?_, memGet_setShardState octet (zero _ (by omega) (by omega)) 0, fun y hy => (noted y (by omega)).trans (kept y (by omega))⟩
  rw [memNat, counterAdvanced, memRead_within fun y l u => noted y (by omega), wrote, leNat_leBytes]
  rfl

/-! ### The layer table (R275) -/

/-- Below the staging buffers there is no histogram base array. -/
theorem noHistZero_below {n : Nat} (h : a + n ≤ stagingBase) : NoHistZero a n := fun x _ u => by
  rw [histZero, decide_eq_false (by omega), Bool.false_and]

theorem layerReset_length : layerReset.length = 32 := leBytes_length 32 _

theorem layerTable_length : (List.replicate 8192 layerReset).flatten.length = 8192 * 32 := by
  rw [List.length_flatten, List.map_replicate, List.sum_replicate, layerReset_length]
  rfl

theorem notFar_layerTable (near : a + 0x4_0000 ≤ farBase) : NotFar a (List.replicate 8192 layerReset).flatten.length := by
  rw [layerTable_length]
  intro x low high
  rw [isFar, decide_eq_false (show ¬ farBase ≤ x by omega), Bool.false_and]

/-- What the entries of a new layer table in the near tier read. -/
theorem layerTableReset_reads (near : a + 0x4_0000 ≤ farBase) (l : Nat) (hl : l < 8192) :
    memRead (layerTableReset s a).mem (a + 32 * l) 32 = layerReset := by
  have zero : NoHistZero a (List.replicate 8192 layerReset).flatten.length := by
    rw [layerTable_length]
    exact noHistZero_below (near.trans (by decide))
  have read := memRead_poke (s := s) (notFar_layerTable near) zero
  rw [layerTable_length, ← layerReset_length] at read
  have at_ := memRead_record read hl
  rwa [layerReset_length] at at_

theorem lt_of_near (h : region s a = .near) : a < nearEnd := by
  unfold region at h
  split at h
  · assumption
  · split at h
    · dsimp only at h
      split at h <;> cases h
    · split at h
      · dsimp only at h
        split at h <;> cases h
      · split at h
        · dsimp only at h
          split at h <;> cases h
        · split at h
          · cases h
          · split at h <;> cases h

/-- The state in which a new layer table has been taken. -/
def layerTableTaken (s : State) (p a : Nat) : State :=
  layerTableReset (modStep (odSet s (kLayerTableAddr p) a) p fun x => { x with layersChanged := [] }) a

theorem exec_layerTableAddrWrite_taken {who : Who} (writer : who.role = .operator ∨ (who.role = .tenant ∧ who.part = p)) (hp : p < 40)
    (ha : a < 2 ^ 64) (ho : writeOpen s (kLayerTableAddr p) (.num a) = true) (closed : stepOpen s p = false)
    (own : allotted s p a 0x4_0000 true = true) (aligned : a % 4096 = 0) (near : region s a = .near) :
    exec (.layerTableAddrWrite who p a) s =
      .next (answered (layerTableTaken (entered s who (kLayerTableAddr p) (.num a)) p a) (kLayerTableAddr p)) := by
  refine guardWf_runs rfl (decide_eq_true ⟨hp, ha⟩) (dictWrite_taken ho ?_)
  rw [opOrTenant_ok writer, closed, own, near]
  exact (if_neg (by decide)).trans (if_neg (by simp [aligned]))

theorem layerTableTaken_leaves (near : a + 0x4_0000 ≤ farBase) :
    odN (layerTableTaken s p a) (kLayerTableAddr p) = a ∧
      (∀ l, l < 8192 → memRead (layerTableTaken s p a).mem (a + 32 * l) 32 = layerReset) ∧
      MemKept s (layerTableTaken s p a) a 0x4_0000 ∧ (part (layerTableTaken s p a) p).step.layersChanged = [] := by
  generalize hu : modStep (odSet s (kLayerTableAddr p) a) p (fun x => { x with layersChanged := [] }) = u
  have taken : layerTableTaken s p a = layerTableReset u a := by rw [← hu, layerTableTaken]
  have far : NotFar a (List.replicate 8192 layerReset).flatten.length := notFar_layerTable near
  have some_ : (List.replicate 8192 layerReset).flatten ≠ [] := by
    rw [← List.length_pos_iff, layerTable_length]
    decide
  have mem : u.mem = s.mem := by rw [← hu]; rfl
  rw [taken]
  refine ⟨?_, layerTableReset_reads near, fun x hx => ?_, ?_⟩
  · rw [layerTableReset, (odKept_poke far some_).odN_eq (by simp only [kLayerTableAddr, kFarPoisonEntries, List.mem_singleton]; omega), ← hu,
      odN_congr steps_modStep.od_eq, odN_odSet_same]
  · rw [← mem]
    exact memKept_poke far x (by rw [layerTable_length]; exact hx)
  · rw [part_congr steps_layerTableReset.parts_eq, ← hu, part_modStep_same]

end

end Sys2Proof.Machine
end

section
/-! O58: the step's decisions (R120, R276, R289 to R292, R365, R519 to R523). -/

namespace Sys2Proof.Machine

-- Checked one after another: the check allows too few threads for more.
set_option Elab.async false

/-! ### What keeps every partition's step epoch (R365) -/

/-- Every partition is in the step epoch it was in. -/
def EpochKept (s t : State) : Prop := ∀ p, (part t p).step.epoch = (part s p).step.epoch

namespace EpochKept

variable {s t u : State}

theorem of_parts (h : t.parts = s.parts) : EpochKept s t := fun p => by rw [part_congr h]

theorem refl : EpochKept s s := of_parts rfl

theorem trans (h : EpochKept s t) (g : EpochKept t u) : EpochKept s u := fun p => (g p).trans (h p)

/-- An operation that leaves the partitions as they are. -/
theorem steps {F : List Field} (h : EpochKept s t) (g : Steps F t u) (le : F.contains .parts = false := by rfl) : EpochKept s u :=
  h.trans (of_parts (g.parts_eq le))

theorem ite {c : Prop} [Decidable c] (h : EpochKept s t) (g : EpochKept s u) : EpochKept s (if c then t else u) := by
  split
  · exact h
  · exact g

theorem foldl {α : Type} {l : List α} {f : State → α → State} (h : EpochKept s t) (hf : ∀ x a, EpochKept x (f x a)) :
    EpochKept s (l.foldl f t) := by
  induction l generalizing t with
  | nil => exact h
  | cons a r ih => exact ih (h.trans (hf t a))

theorem foldlFst {α β : Type} {l : List α} {f : State × β → α → State × β} {x : State × β} (h : EpochKept s x.1)
    (hf : ∀ x a, EpochKept x.1 (f x a).1) : EpochKept s (l.foldl f x).1 := by
  induction l generalizing x with
  | nil => exact h
  | cons a r ih => exact ih (h.trans (hf x a))

theorem of_eq {α : Type} {x : State × α} {b : α} (h : EpochKept s x.1) (e : x = (t, b)) : EpochKept s t := by rw [e] at h; exact h

/-- A change of a partition that keeps its epoch. -/
theorem modPart {p : Nat} {f : Part → Part} (h : (f (part s p)).step.epoch = (part s p).step.epoch) : EpochKept s (modPart s p f) := fun q => by
  by_cases e : q = p
  · rw [e, part_modPart_same, h]
  · rw [part_modPart_ne _ _ e]

theorem modStep {p : Nat} {f : StepSt → StepSt} (h : (f (part s p).step).epoch = (part s p).step.epoch) : EpochKept s (modStep s p f) := fun q => by
  by_cases e : q = p
  · rw [e, part_modStep_same, h]
  · rw [part_modStep_ne _ _ e]

end EpochKept

section
variable {s : State} {p : Nat}

theorem epochKept_noteError {q : Option Nat} {st : Nat} : EpochKept s (noteError s q st) := by
  unfold noteError
  split
  · exact .ite (.modStep rfl) .refl
  · exact .refl

theorem epochKept_arrivePost {i c st producer : Nat} : EpochKept s (arrivePost s p i c st producer).1 := by
  unfold arrivePost
  dsimp only
  split
  · exact .of_parts (bump_parts ..)
  · split
    · exact .of_parts (bump_parts ..)
    · have posted (v : Sem) (m n : Nat) : EpochKept s (bump (bump (semSet s i v) kTokensPosted m (some p)) kTokensError n (some p)) := by
        refine .of_parts ?_
        rw [bump_parts, bump_parts, semSet_parts]
      refine .ite ?_ ?_
      · exact (posted _ _ _).trans epochKept_noteError
      · exact posted _ _ _

theorem epochKept_blockEnded {b : Block} {st : Status} {bytes : Nat} : EpochKept s (blockEnded s b st bytes) := by
  have counted : EpochKept s (countBlock s b st bytes) := EpochKept.refl.steps steps_countBlock
  unfold blockEnded
  refine .ite ?_ ?_
  · split
    · exact counted.trans epochKept_arrivePost
    · exact counted
  · dsimp only
    split
    · refine .steps (F := [.consists]) ?_ steps_modVerb
      split
      · exact counted.trans epochKept_arrivePost
      · exact counted
    · refine .ite ?_ (.steps (F := [.consists]) (.steps (F := [.mem, .health, .od, .ctr]) ?_ steps_resultBits) steps_endPart)
      all_goals
        refine .steps (F := [.consists]) ?_ steps_modVerb
        split
        · exact counted.trans epochKept_arrivePost
        · exact counted

theorem epochKept_countTally {u : Writer} {t : Tally} {q : Option Nat} : EpochKept s (countTally s u t q) := by
  have counted : Steps [.ctr] s (bump (bump (bump (match u with
    | .array => bump (bump s kNonfiniteArray t.nonfin q) kZeroedArray t.zeroed q
    | .vector => bump (bump s kNonfiniteVector t.nonfin q) kZeroedVector t.zeroed q
    | .porter => bump s kConvertNonfinite t.nonfin q) kBlocksOverflowed t.newOverflow q) kBlockOverflowWrites t.overflowWrites q)
    kBlocksAtMaxScale t.atMax q) := by
    refine .andThen (F := [.ctr]) (.andThen (.andThen ?_ steps_bump) steps_bump) steps_bump
    split
    · exact .andThen (F := [.ctr]) steps_bump steps_bump
    · exact .andThen (F := [.ctr]) steps_bump steps_bump
    · exact steps_bump
  unfold countTally
  dsimp only
  split
  · exact EpochKept.refl.steps counted
  · exact .ite (EpochKept.refl.steps counted) ((EpochKept.refl.steps counted).trans (.modPart rfl))

theorem epochKept_writeElems {u : Writer} {k core : Nat} {r : RNoun} {es : List (List Nat × Option Val)} :
    EpochKept s (writeElems s u k core r es).1 := by
  have poisoned {α : Type} (l : List α) (f : State × List (Nat × Status) → α → State × List (Nat × Status))
      (hf : ∀ x a, Steps [.mem, .health, .od, .ctr] x.1 (f x a).1) :
      Steps [.mem, .health, .consists, .od, .ctr] s (l.foldl f (s, [])).1 := .foldlFst .refl fun x a => (hf x a).mono
  unfold writeElems
  dsimp only
  refine .ite (.steps (F := [.consists]) (.trans ?_ epochKept_countTally) steps_setDirty) (.trans ?_ epochKept_countTally)
  all_goals
    refine EpochKept.refl.steps (F := [.mem, .health, .consists, .od, .ctr]) (.andThen (.andThen (.andThen ?_ steps_endWrite) steps_endWrite) steps_endWrite)
    refine .ite (.andThen ?_ steps_encodeElems) (.foldl (.andThen ?_ steps_encodeElems) fun _ _ => steps_histAdd.mono)
    all_goals exact poisoned _ _ fun _ _ => steps_poisonPieces

theorem epochKept_writeRun {f : InFlight} {core : Nat} {src dst : RNoun} {g : List (List Nat)} {add : Bool} :
    EpochKept s (writeRun s f core src dst g add).1 := by
  unfold writeRun
  dsimp only
  split
  · exact EpochKept.refl.steps steps_copyBytes
  · split
    · exact EpochKept.refl.steps steps_addAll
    · exact epochKept_writeElems

theorem EpochKept.allCoresOf {k : Nat} {f : Nat → State → State × Status} (hf : ∀ i x, EpochKept x (f i x).1) :
    EpochKept s (allCoresOf k f s).1 :=
  EpochKept.foldlFst (f := fun (x : State × Status) i => ((f (20 * k + i) x.1).1, if x.2 ≠ .ok then x.2 else (f (20 * k + i) x.1).2))
    (x := (s, .ok)) .refl fun x _ => hf _ x.1

/-- What a block writes at its place, once its ranges are free. -/
theorem epochKept_writeAt {f : InFlight} {recv : Option Nat} : EpochKept s (writeAt s f recv).1 := by
  have locked (q : Nat) (l : List (Nat × Nat)) : EpochKept s (rangesLocked s q l).1 := EpochKept.refl.steps steps_rangesLocked
  unfold writeAt
  dsimp only
  split
  · split
    · exact locked _ _
    · split
      · split
        · exact (locked _ _).steps steps_addBytes
        · exact (locked _ _).steps steps_copyBytes
      · split
        · exact .of_eq ((locked _ _).steps steps_depotWriteBytes) ‹_›
        · exact (locked _ _).steps steps_depotWriteBytes
      · exact (locked _ _).steps steps_copyBytes
      · exact (locked _ _).trans (.allCoresOf fun _ _ => EpochKept.refl.steps steps_copyBytes)
      · exact locked _ _
      · exact (locked _ _).trans epochKept_writeRun
      · split
        · exact (locked _ _).trans (.allCoresOf fun _ _ => epochKept_writeRun)
        · exact (locked _ _).trans epochKept_writeRun
  · split
    · exact .refl
    · split
      · split
        · exact EpochKept.refl.steps steps_addBytes
        · exact EpochKept.refl.steps steps_copyBytes
      · split
        · exact .of_eq (EpochKept.refl.steps steps_depotWriteBytes) ‹_›
        · exact EpochKept.refl.steps steps_depotWriteBytes
      · exact EpochKept.refl.steps steps_copyBytes
      · exact .allCoresOf fun _ _ => EpochKept.refl.steps steps_copyBytes
      · exact .refl
      · exact epochKept_writeRun
      · split
        · exact .allCoresOf fun _ _ => epochKept_writeRun
        · exact epochKept_writeRun

theorem epochKept_finishOne {die : Nat} {f : InFlight} : EpochKept s (finishOne s die f) := by
  unfold finishOne
  exact (epochKept_writeAt.steps steps_dropFlight).trans epochKept_blockEnded

theorem epochKept_finishCast {die : Nat} {f : InFlight} {rs : List Nat} : EpochKept s (finishCast s die f rs) := by
  unfold finishCast
  refine .ite (.trans (.steps (.steps (.foldlFst .refl fun _ _ => ?_) steps_dropFlight) steps_windowOpened) epochKept_blockEnded)
    (.steps (.foldlFst .refl fun _ _ => ?_) steps_setPool)
  all_goals
    split
    dsimp only
    refine .of_eq ?_ ‹_›
    split
    · exact (EpochKept.of_eq (EpochKept.refl.steps steps_touchAll) ‹_›).trans epochKept_writeAt
    · exact (EpochKept.of_eq (EpochKept.refl.steps steps_touchAll) ‹_›).steps steps_dropReceiver

theorem epochKept_drainFlights {ks : List Nat} : EpochKept s (drainFlights s ks) := by
  unfold drainFlights upto
  refine .foldl .refl fun _ _ => ?_
  exact .foldl .refl fun _ _ => .ite epochKept_finishOne epochKept_finishCast

theorem epochKept_shardsClean : EpochKept s (shardsClean s p) := by
  unfold shardsClean
  exact (EpochKept.refl.steps (F := [.mem, .health, .od, .ctr]) (.foldl .refl fun _ _ => steps_setShardState)).trans (.modStep rfl)

theorem epochKept_layerCommit : EpochKept s (layerCommit s p) := by
  unfold layerCommit
  exact (EpochKept.refl.steps (F := [.mem, .health, .od, .ctr]) (.foldl .refl fun _ _ => steps_poke)).trans (.modStep rfl)

theorem epochKept_keepAttempt : EpochKept s (keepAttempt s p) := by
  unfold keepAttempt
  split
  · exact .ite (.modStep rfl) .refl
  · exact .refl

/-! ### A step that is closed (R290, R521) -/

/-- The partition's step is closed, without a vote or a decision, in step epoch `e`. -/
structure StepClosed (p e : Nat) (s : State) : Prop where
  isOpen : (part s p).step.isOpen = false
  vote : (part s p).step.vote = none
  decision : (part s p).step.decision = none
  epoch : (part s p).step.epoch = e

namespace StepClosed

variable {t : State} {e : Nat}

theorem of_step (h : StepClosed p e s) (same : (part t p).step.isOpen = (part s p).step.isOpen ∧ (part t p).step.vote = (part s p).step.vote ∧
    (part t p).step.decision = (part s p).step.decision ∧ (part t p).step.epoch = (part s p).step.epoch) : StepClosed p e t := by
  obtain ⟨isOpen, vote, decision, epoch⟩ := same
  exact ⟨isOpen.trans h.isOpen, vote.trans h.vote, decision.trans h.decision, epoch.trans h.epoch⟩

theorem of_parts (h : StepClosed p e s) (parts : t.parts = s.parts) : StepClosed p e t := h.of_step (by simp only [part_congr parts, and_self])

theorem steps {F : List Field} (h : StepClosed p e s) (g : Steps F s t) (le : F.contains .parts = false := by rfl) : StepClosed p e t :=
  h.of_parts (g.parts_eq le)

end StepClosed

theorem parts_enginePost_closed {i st producer : Nat} (closed : stepOpen s p = false) :
    (enginePost s i st producer (some p)).1.parts = s.parts := by
  unfold enginePost
  dsimp only
  split
  · rw [noteError_closed ?_, bump_parts, bump_parts]
    · rfl
    · rw [stepOpen, part_congr ((bump_parts ..).trans ((bump_parts ..).trans (semSet_parts ..)))]
      exact closed
  · exact bump_parts ..

theorem latePosts_closed {e : Nat} (h : StepClosed p e s) : StepClosed p e (latePosts s p) := by
  have posts (l : List LatePost) (t : State) (ht : StepClosed p e t) :
      StepClosed p e (l.foldl (fun s l => (enginePost s l.sem l.status l.port (some p)).1) t) := by
    induction l generalizing t with
    | nil => exact ht
    | cons x l ih => exact ih _ (ht.of_parts (parts_enginePost_closed ht.isOpen))
  unfold latePosts
  exact posts _ _ (h.of_step (by simp only [part_modStep_same, and_self]))

theorem stepClose_closes : StepClosed p (((part s p).step.epoch + 1) % 256) (stepClose s p) := by
  have step : (part (stepClose s p) p).step = { (part s p).step with
      isOpen := false, vote := none, group := none, votes := [], round := 0, since := none, decision := none
      epoch := ((part s p).step.epoch + 1) % 256, deferred := [], voters := [], owed := none } := by
    unfold stepClose watchNext
    dsimp only
    rw [part_modPart_same, part_modStep_same]
    generalize hu : List.foldl _ s _ = u
    have deferred : Steps [.od] s u := by
      rw [← hu]
      refine .foldl .refl fun _ _ => ?_
      split
      · exact .ite steps_odPut .refl
      · exact .refl
    rw [part_congr deferred.parts_eq]
  exact ⟨by rw [step], by rw [step], by rw [step], by rw [step]⟩

theorem stepMark_closed {e : Nat} (h : StepClosed p e s) : StepClosed p e (stepMark s p) := by
  have marked : Steps [.consists] s ((consistsOf s p).foldl markConsist s) := .foldl .refl fun _ _ => steps_markConsist
  unfold stepMark markSems
  exact (h.steps marked).of_step (by simp only [part_modPart_same, and_self])

/-! ### Rollback and decisions (R276, R290 to R292, R521) -/

theorem flightsWait_dropPending (k : Nat) (ks : List Nat) : flightsWait (dropPending s k) ks = flightsWait s ks := by
  unfold flightsWait dropPending
  dsimp only
  rw [List.any_map]
  rfl

theorem flightsWait_dropAll (l ks : List Nat) : flightsWait (l.foldl dropPending s) ks = flightsWait s ks := by
  induction l generalizing s with
  | nil => rfl
  | cons k l ih => rw [List.foldl_cons, ih, flightsWait_dropPending]

/-- A rollback that nothing in flight waits for closes the step. -/
theorem rollback_closes (calm : flightsWait s (consistsOf s p) = false) :
    StepClosed p (((part s p).step.epoch + 1) % 256) (rollback s p) := by
  have dropped : Steps [.pools, .casts] s ((consistsOf s p).foldl dropPending s) := .foldl .refl fun _ _ => steps_dropPending
  unfold rollback
  dsimp only
  rw [if_neg (by rw [flightsWait_dropAll, calm]; decide)]
  generalize (consistsOf s p).foldl dropPending s = a at dropped
  generalize hb : drainFlights (dropUnsent (keepAttempt a p) p) (consistsOf s p) = b
  have drained : EpochKept s b := by
    rw [← hb]
    exact (((EpochKept.refl.steps dropped).trans epochKept_keepAttempt).steps steps_dropUnsent).trans epochKept_drainFlights
  generalize hc : restoreSems _ p = c
  have restored : EpochKept s c := by
    rw [← hc]
    have shown : EpochKept s (odSet (shardsClean (walkAll false p (votersAborted b p)) p) (kStepOutcomeLast p) 3) :=
      (((drained.steps steps_votersAborted).steps steps_walkAll).trans epochKept_shardsClean).steps steps_odSet
    exact (shown.steps (F := [.free, .mem, .health, .consists, .pools, .casts, .od, .ctr]) (.foldl .refl fun _ _ => steps_restoreConsist)).steps
      steps_restoreSems
  have closed := stepClose_closes (s := c) (p := p)
  rw [restored p] at closed
  exact ((latePosts_closed (closed.steps steps_odSet)).steps steps_bump).steps steps_event

section
variable {d : VoteRec} (decided : (part s p).step.decision = some d) (free : held s = false) (stays : (part s p).leaves = false)
  (sent : decisionWaits s p = false)

/-- The state in which a hold decision is shown. -/
def holdShown (s : State) (p : Nat) : State :=
  odSet (odSet (modStep s p fun y => { y with decision := none }) (kStepState p) 2) (kStepOutcomeLast p) 2

include decided free stays sent

theorem applyDecision_abort (abort : d.outcome = 3) : applyDecision s p = rollback s p := by
  unfold applyDecision
  dsimp only
  rw [decided]
  exact (if_neg (by rw [free, stays, sent]; decide)).trans (if_pos abort)

theorem applyDecision_hold (isOpen : (part s p).step.isOpen = true) (hold : d.outcome = 2) : applyDecision s p = leaderCheck (holdShown s p) p := by
  unfold applyDecision
  dsimp only
  rw [decided]
  exact (if_neg (by rw [free, stays, sent]; decide)).trans ((if_neg (by rw [hold]; decide)).trans
    ((if_neg (by rw [isOpen]; decide)).trans (if_pos hold)))

/-- A commit or a skip closes the step. -/
theorem applyDecision_closes (isOpen : (part s p).step.isOpen = true) (noHold : d.outcome ≠ 2)
    (calm : d.outcome = 3 → flightsWait s (consistsOf s p) = false) :
    StepClosed p (((part s p).step.epoch + 1) % 256) (applyDecision s p) := by
  by_cases abort : d.outcome = 3
  · rw [applyDecision_abort decided free stays sent abort]
    exact rollback_closes (calm abort)
  have walked : EpochKept s (walkAll true p s) := EpochKept.refl.steps steps_walkAll
  unfold applyDecision
  dsimp only
  rw [decided]
  dsimp only
  rw [if_neg (by rw [free, stays, sent]; decide), if_neg abort, if_neg (by rw [isOpen]; decide), if_neg noHold]
  generalize walkAll true p s = a at walked
  generalize hb : ite (d.outcome = 0) _ _ = b
  have ended : EpochKept s b := by
    rw [← hb]
    refine .ite ?_ ?_
    · have applied : EpochKept s (shardsApply (watchAbsorb (layerCommit a p) p) p) :=
        ((walked.trans epochKept_layerCommit).steps steps_watchAbsorb).trans (.modStep rfl)
      exact (applied.steps steps_bump).steps steps_odSet
    · exact (((walked.trans epochKept_shardsClean).steps steps_bump).steps steps_bump).steps steps_odSet
  have kept : EpochKept s (endVote b p d.anchor) := ended.steps steps_endVote
  have closed := stepClose_closes (s := endVote b p d.anchor) (p := p)
  rw [kept p] at closed
  exact (latePosts_closed (stepMark_closed closed)).steps steps_odSet

end

/-! ### What the leader decides (R290, R292) -/

/-- A step of the open partition that is decided shows the decision. -/
theorem decide'_decides {j : JobMap} {timeout : Bool} (sure : odN s (kStepState p) ≠ 3) (isOpen : stepOpen s p = true) :
    (part (decide' s p j timeout) p).step.decision = some (decisionOf j (part s p).step.votes (part s p).step.round timeout) ∧
      odVal (decide' s p j timeout) (kDecisionLast p) =
        some (.octets (voteBytes (decisionOf j (part s p).step.votes (part s p).step.round timeout))) := by
  unfold decide'
  dsimp only
  generalize hd : decisionOf j (part s p).step.votes (part s p).step.round timeout = d
  generalize hu : List.foldl (fun s r => sendRecord s p r 0x11 d) s _ = u
  have sent : Steps [.ctr, .qps, .ports] s u := by
    rw [← hu]
    exact .foldl .refl fun _ _ => steps_sendRecord
  have open' : stepOpen (modStep u p fun y => { y with round := y.round + 1 }) p = true := by
    rw [stepOpen, part_modStep_same, part_congr sent.parts_eq]
    exact isOpen
  obtain ⟨step, value⟩ := decisionArrived_open (s := modStep u p fun y => { y with round := y.round + 1 }) (p := p) (v := d) (producer := 0xFF)
    (by rw [odN_congr steps_modStep.od_eq, odN_congr sent.od_eq]; exact sure) open'
  exact ⟨by rw [step], value⟩

/-- Where a vote is missing when the wait ends and none that is there is a no, the step is aborted with timeout. -/
theorem decisionOf_timeout {j : JobMap} {t : Tab (Option VoteRec)} {round : Nat}
    (yes : ∀ v ∈ votesOf (jobSize j) t, v.status = 0 ∧ v.step = ((votesOf (jobSize j) t).head?.map VoteRec.step).getD 0) :
    (decisionOf j t round true).status = 4 ∧ (decisionOf j t round true).outcome = 3 := by
  have no : (votesOf (jobSize j) t).find? (fun v => v.status ≠ 0) = none :=
    List.find?_eq_none.mpr fun v hv => by
      obtain ⟨fine, -⟩ := yes v hv
      simp [fine]
  have skew : ((votesOf (jobSize j) t).any fun v => v.step ≠ ((votesOf (jobSize j) t).head?.map (·.step)).getD 0) = false :=
    List.any_eq_false.mpr fun v hv => by
      obtain ⟨-, same⟩ := yes v hv
      simp [same]
  unfold decisionOf
  dsimp only
  rw [no, skew]
  exact ⟨rfl, rfl⟩

theorem leaderCheck_waits (waits : ∀ j, jobOf s p = some j → (allVotes s p (jobSize j)).length < jobSize j ∨
    (part s p).step.round ≠ 0 ∧ ∃ v ∈ allVotes s p (jobSize j), v.outcome = 2) : leaderCheck s p = s := by
  unfold leaderCheck
  split
  · rfl
  · rename_i j hj
    dsimp only
    rcases waits j hj with few | ⟨again, v, hv, hold⟩
    · exact if_pos (.inl few)
    · exact (ite_eq_left_iff.mpr fun _ => if_pos ⟨again, List.any_eq_true.mpr ⟨v, hv, by simp [hold]⟩⟩)

theorem leaderCheck_decides {j : JobMap} (hj : jobOf s p = some j) (all : jobSize j ≤ (allVotes s p (jobSize j)).length)
    (new : (part s p).step.decision = none) (none_ : ∀ v ∈ allVotes s p (jobSize j), v.outcome ≠ 2) : leaderCheck s p = decide' s p j false := by
  unfold leaderCheck
  rw [hj]
  dsimp only
  refine (if_neg (by simp [new]; omega)).trans (if_neg fun h => ?_)
  obtain ⟨-, some_⟩ := h
  obtain ⟨v, hv, hold⟩ := List.any_eq_true.mp some_
  exact none_ v hv (by simpa using hold)

theorem vote_decisionArrived {v : VoteRec} {producer : Nat} :
    (part (decisionArrived s p v producer) p).step.vote = (part s p).step.vote := by
  have shown : (odPut s (kDecisionLast p) (.octets (voteBytes v))).parts = s.parts := rfl
  unfold decisionArrived
  dsimp only
  generalize odPut s (kDecisionLast p) (.octets (voteBytes v)) = t at shown
  have noted (c : Prop) [Decidable c] : (part (if c then t else modStep t p fun x => { x with decision := some v }) p).step.vote =
      (part s p).step.vote := by
    split
    · rw [part_congr shown]
    · rw [part_modStep_same, part_congr shown]
  split
  · rw [part_congr (parts_enginePost_fine rfl), noted]
  · exact noted _

theorem vote_leaderCheck : (part (leaderCheck s p) p).step.vote = (part s p).step.vote := by
  unfold leaderCheck
  split
  · rfl
  · dsimp only
    split
    · rfl
    · split
      · rfl
      · rename_i j _ _ _
        unfold decide'
        dsimp only
        rw [vote_decisionArrived, part_modStep_same]
        dsimp only
        generalize hu : List.foldl _ s _ = u
        have sent : Steps [.ctr, .qps, .ports] s u := by
          rw [← hu]
          exact .foldl .refl fun _ _ => steps_sendRecord
        rw [part_congr sent.parts_eq]

theorem vote_revisedArrive {e : Nat} {v : VoteRec} : (part (revisedArrive s p e v) p).step.vote = (part s p).step.vote := by
  unfold revisedArrive
  split
  · rfl
  · split
    · rfl
    · split
      · rfl
      · rw [vote_leaderCheck, part_modStep_same]

/-- The state in which the operator's end of a hold has become the module's revised vote. -/
def voteRevised (s : State) (p : Nat) (r : VoteRec) (j : JobMap) : State :=
  let s := modStep s p fun x => { x with vote := some r }
  if j.rank = j.leader then revisedArrive s p (part s p).step.epoch r else sendRecord s p j.leader 0x12 r

theorem voteRevised_vote (r : VoteRec) (j : JobMap) : (part (voteRevised s p r j) p).step.vote = some r := by
  unfold voteRevised
  dsimp only
  split
  · rw [vote_revisedArrive, part_modStep_same]
  · rw [part_congr steps_sendRecord.parts_eq, part_modStep_same]

theorem mem_voteRevised (r : VoteRec) (j : JobMap) : (voteRevised s p r j).mem = s.mem := by
  unfold voteRevised
  dsimp only
  split
  · exact steps_revisedArrive.mem_eq
  · exact steps_sendRecord.mem_eq

theorem ctrKept_event (st : Status) (detail : Nat) : CtrKept [kCompletionsWritten, kCompletionsRetained] s (event s p st detail) := by
  unfold event
  refine .foldl (.refl _ s) fun t x => ?_
  split
  · exact ctrKept_deliver _ _ _ _
  · exact .refl _ t

theorem part_holdShown : part (holdShown s p) p = { part s p with step := { (part s p).step with decision := none } } := by
  rw [holdShown, part_congr (odSet_parts ..), part_congr (odSet_parts ..), modStep, part_modPart_same]

theorem allVotes_holdShown (n : Nat) : allVotes (holdShown s p) p n = allVotes s p n := by rw [allVotes, part_holdShown, allVotes]

theorem jobOf_holdShown : jobOf (holdShown s p) p = jobOf s p := by rw [jobOf, part_holdShown, jobOf]

/-- A hold decision is shown while a vote is missing or still holds. -/
theorem holdShown_leaves : odN (holdShown s p) (kStepState p) = 2 ∧ odN (holdShown s p) (kStepOutcomeLast p) = 2 ∧
    (part (holdShown s p) p).step = { (part s p).step with decision := none } ∧ OdKept [kStepState p, kStepOutcomeLast p] s (holdShown s p) ∧
    holdShown s p = { s with od := (holdShown s p).od, parts := (holdShown s p).parts } := by
  refine ⟨?_, odN_odSet_same .., by rw [part_holdShown], ?_, ?_⟩
  · rw [holdShown, odN_odSet_ne _ _ (by simp only [kStepState, kStepOutcomeLast]; omega), odN_odSet_same]
  · exact ((odKept_of_od steps_modStep.od_eq).trans (odKept_odSet (k := kStepState p) _ _ (by simp))).trans (odKept_odSet _ _ (by simp))
  · exact (Steps.andThen (F := [.od, .parts]) (.andThen steps_modStep.mono steps_odSet) steps_odSet).frame

/-- A hold decision by the leader, none of whose votes holds any more, is decided anew at once. -/
theorem holdShown_decides {j : JobMap} (hj : jobOf s p = some j) (isOpen : (part s p).step.isOpen = true)
    (all : jobSize j ≤ (allVotes s p (jobSize j)).length) (noHold : ∀ v ∈ allVotes s p (jobSize j), v.outcome ≠ 2) :
    ∃ d, (part (leaderCheck (holdShown s p) p) p).step.decision = some d ∧ d.kind = 2 := by
  obtain ⟨shown, -, step, -, -⟩ := holdShown_leaves (s := s) (p := p)
  rw [leaderCheck_decides (jobOf_holdShown.trans hj) (by rw [allVotes_holdShown]; exact all) (by rw [step]) (by rw [allVotes_holdShown]; exact noHold)]
  obtain ⟨decided, -⟩ := decide'_decides (s := holdShown s p) (p := p) (j := j) (timeout := false) (by rw [shown]; decide)
    (by rw [stepOpen, step]; exact isOpen)
  exact ⟨_, decided, rfl⟩

/-- The state in which a member is in doubt. -/
def inDoubt (s : State) (p : Nat) : State := event (bump (odSet s (kStepState p) 3) kInDoubtEvents 1 (some p)) p .timeout 0

theorem inDoubt_leaves : odN (inDoubt s p) (kStepState p) = 3 ∧ Counted s (inDoubt s p) kInDoubtEvents 1 ∧ (inDoubt s p).parts = s.parts ∧
    (inDoubt s p).mem = s.mem := by
  generalize hu : bump (odSet s (kStepState p) 3) kInDoubtEvents 1 (some p) = u
  have counted : Counted s u kInDoubtEvents 1 := by
    rw [← hu]
    refine counted_bump_of_ctr ?_ _ _
    exact odSet_ctr ..
  have told : Steps [.ctr, .queues, .link, .out] u (inDoubt s p) := by
    rw [inDoubt, hu]
    exact steps_event
  have kept : CtrKept [kCompletionsWritten, kCompletionsRetained] u (inDoubt s p) := by
    rw [inDoubt, hu]
    exact ctrKept_event _ _
  refine ⟨?_, counted.before (kept.operator (by decide)), ?_, ?_⟩
  · rw [odN_congr told.od_eq, ← hu, odN_bump, odN_odSet_same]
  · rw [told.parts_eq, ← hu, bump_parts, odSet_parts]
  · rw [told.mem_eq, ← hu, bump_mem, odSet_mem]

theorem exec_inDoubtEntry_late {u : Nat} {v : VoteRec} (hp : p < 40) (vote : (part s p).step.vote = some v) (since : (part s p).step.since = some u)
    (yes : v.status = 0) (undecided : (part s p).step.decision = none) (voted : odN s (kStepState p) = 1) (free : held s = false)
    (late : tickAfter (tickNow s) (u + odN s (kStepWaitTicks p) + odN s (kDecisionWaitTicks p)) = true) :
    exec (.inDoubtEntry p) s = .next (inDoubt s p) := by
  refine guardWf_runs rfl (decide_eq_true hp) ?_
  rw [vote, since]
  exact if_pos ⟨yes, undecided, voted, by rw [free]; rfl, late⟩

theorem exec_inDoubtResolve_taken {who : Who} {v : Nat} {o : VoteRec} (operator : who.role = .operator) (hp : p < 40)
    (ho : writeOpen s (kInDoubtResolve p) (.num v) = true) (doubt : odN s (kStepState p) = 3) (hv : v ≤ 3)
    (vote : (part s p).step.vote = some o) : exec (.inDoubtResolve who p v) s = .next (partWritten s who (kInDoubtResolve p) (.num v) p fun q =>
      { q with step := { q.step with decision := some { o with kind := 2, status := 0, outcome := v } } }) := by
  refine guardWf_runs rfl (decide_eq_true hp) ((dictWrite_taken ho ?_).trans ?_)
  · rw [opOnly_operator operator, if_neg (by simp [doubt]), if_neg (by omega)]
  · dsimp only
    rw [part_entered, vote]
    rfl

theorem exec_holdDecision_taken {who : Who} {v : Nat} {o : VoteRec} {j : JobMap} (operator : who.role = .operator) (hp : p < 40)
    (ho : writeOpen s (kHoldDecision p) (.num v) = true) (hold : odN s (kStepState p) = 2) (hv : v ≤ 1) (vote : (part s p).step.vote = some o)
    (hj : jobOf s p = some j) : exec (.holdDecision who p v) s = .next (answered (voteRevised (entered s who (kHoldDecision p) (.num v)) p
      { o with kind := 3, outcome := v, round := (part s p).step.round } j) (kHoldDecision p)) := by
  refine guardWf_runs rfl (decide_eq_true hp) ((dictWrite_taken ho ?_).trans ?_)
  · rw [opOnly_operator operator, if_neg (by simp [hold]), if_neg (by omega)]
  · rw [part_entered, jobOf_congr steps_entered.parts_eq, vote, hj]
    rfl

/-- The octet that shows a shard's state is no byte 0 of a histogram base array (R88). -/
theorem histZero_octet {a : Nat} (aligned : a % 64 = 0) : histZero (a + 10) = false := by
  rw [histZero, Bool.and_eq_false_iff]
  refine .inr (decide_eq_false fun h => ?_)
  obtain ⟨-, -, zero⟩ := h
  omega

theorem decideAttempt_leaves {j : JobMap} {a : Nat × Nat × Tab (Option VoteRec)} :
    (part (decideAttempt s p j a) p).step = { (part s p).step with attempts := (part s p).step.attempts.erase a } ∧
      odVal (decideAttempt s p j a) (kDecisionLast p) = some (.octets (voteBytes (decisionOf j a.2.2 0 true))) ∧
      (decideAttempt s p j a).mem = s.mem ∧ (decideAttempt s p j a).sems = s.sems := by
  unfold decideAttempt
  dsimp only
  generalize hu : List.foldl (fun s r => sendRecordAt s p r 0x11 a.1 (decisionOf j a.2.2 0 true)) s _ = u
  have sent : Steps [.ctr, .qps, .ports] s u := by
    rw [← hu]
    exact .foldl .refl fun _ _ => steps_sendRecordAt
  refine ⟨?_, odVal_odPut_same .., sent.mem_eq, sent.sems_eq⟩
  rw [part_congr (odPut_parts ..), part_modStep_same, part_congr sent.parts_eq]

theorem counted_skew (d : Nat) : Counted s (checkNoted (bump s kYardCounterSkews 1 (some p)) p d .counterSkew) kYardCounterSkews 1 := by
  rw [Counted, checkNoted, ctrGet_modStep]
  exact counted_bump s _ (n := 1) _

end

end Sys2Proof.Machine

open Sys2Proof Sys2Proof.Machine

/-- Settles O58, row by row: the yard units' checks and applies, the leader's decisions, and what closes a step. -/
theorem stepsDecided : Obligations.StepsDecided := by
  unfold Obligations.StepsDecided
  refine ⟨?check, ?apply, ?walk, ?expiry, ?attempt, ?decision, ?rollback, ?doubt, ?resolve, ?hold, ?table⟩
  case check =>
    intro p d c acc s hp cmd low high new free more on far
    refine ⟨fun check => ?_, fun check => ?_⟩
    · have aligned := aligned_of_shardCheck check (by decide)
      have zero := histZero_octet aligned
      have step := step_shardJoined s p (c.table + 64 * d) acc
      have run := updateShardCheck_noted cmd low high new free more on check (if_pos rfl) (by rw [step])
      refine ⟨_, guardWf_runs rfl (decide_eq_true hp) run, ?_, ?_, ?_, memKept_setShardState far 1⟩
      · rw [checkNoted, part_modStep_same, step]
      · rw [checkNoted, part_modStep_same, step]
      · exact memGet_setShardState far zero 1
    · have parts : (bump s kYardCounterSkews 1 (some p)).parts = s.parts := bump_parts ..
      have run := updateShardCheck_noted cmd low high new free more on check ((if_neg (by decide)).trans (if_pos rfl)) (by rw [part_congr parts])
      refine ⟨_, guardWf_runs rfl (decide_eq_true hp) run, ?_, ?_, ?_, ?_⟩
      · rw [checkNoted, part_modStep_same, part_congr parts]
      · rw [checkNoted, part_modStep_same, part_congr parts]
      · exact counted_skew d
      · rw [checkNoted, modStep_mem, bump_mem]
  case apply =>
    intro p d x s hp free one applying at_ frozen fine all low high zero owed
    obtain ⟨t, steps, run⟩ := shardApply_frozen one applying at_ frozen fine all
    have parts : (counterAdvanced t x).parts = s.parts := steps_counterAdvanced.parts_eq.trans steps.parts_eq
    obtain ⟨counter, octet, kept⟩ := counterAdvanced_reads (s := t) low high zero
    obtain ⟨gone, still⟩ := shardDone_alone (s := counterAdvanced t x) (p := p) (by rw [part_congr parts, one]) applying
      ((nothingOwed_congr parts).trans owed)
    have mem : (shardDone (counterAdvanced t x) p x 0).mem = (counterAdvanced t x).mem := steps_shardDone.mem_eq
    have whole : (if held s = true then s else castOwed (shardApply s p d Ecc.clean)) = shardDone (counterAdvanced t x) p x 0 := by
      rw [if_neg (by rw [free]; decide), run, castOwed_none still]
    generalize shardDone (counterAdvanced t x) p x 0 = u at gone mem whole
    refine ⟨u, guardWf_runs rfl (decide_eq_true hp) whole, ?_, ?_, fun y hy => ?_, gone⟩
    · rw [memNat, mem, ← memNat, counter]
    · rw [mem, octet]
    · rw [mem, kept y hy, steps.mem_eq]
  case walk =>
    intro k handle e s hk hh entry walks
    refine guardWf_runs rfl (decide_eq_true ⟨hk, hh⟩) ?_
    rw [entry]
    exact if_pos walks
  case expiry =>
    intro p u j s hp hj since leads undecided first free late none_ sure isOpen yes
    obtain ⟨decided, value⟩ := decide'_decides (j := j) (timeout := true) sure isOpen
    obtain ⟨status, outcome⟩ := decisionOf_timeout (round := (part s p).step.round) yes
    refine ⟨_, decisionOf j (part s p).step.votes (part s p).step.round true, guardWf_runs rfl (decide_eq_true hp) ?_, decided, status, outcome, rfl,
      value, steps_decide'.mem_eq⟩
    rw [hj]
    dsimp only
    rw [if_neg (by simp [leads, free]), none_, since]
    exact if_pos ⟨undecided, first, late⟩
  case attempt =>
    intro p j a s hp hj leads free found
    have run : exec (.stepWaitExpiry p) s = .next (decideAttempt s p j a) := by
      refine guardWf_runs rfl (decide_eq_true hp) ?_
      rw [hj]
      dsimp only
      rw [if_neg (by simp [leads, free]), found]
    exact ⟨_, run, decideAttempt_leaves⟩
  case decision =>
    intro p d s hp decided free isOpen stays sent
    refine ⟨fun hold waits => ?_, fun j hold hj all again noHold => ?_, fun noHold calm => ?_⟩
    · have still : leaderCheck (holdShown s p) p = holdShown s p := leaderCheck_waits fun j hj => by
        rw [allVotes_holdShown, part_holdShown]
        exact waits j (jobOf_holdShown.symm.trans hj)
      exact ⟨_, guardWf_runs rfl (decide_eq_true hp) ((applyDecision_hold decided free stays sent isOpen hold).trans still), holdShown_leaves⟩
    · obtain ⟨d', decided', kind⟩ := holdShown_decides hj isOpen all noHold
      exact ⟨_, d', guardWf_runs rfl (decide_eq_true hp) (applyDecision_hold decided free stays sent isOpen hold), decided', kind,
        steps_leaderCheck.mem_eq⟩
    · obtain ⟨closed, vote, decision, epoch⟩ := applyDecision_closes decided free stays sent isOpen noHold calm
      exact ⟨_, guardWf_runs rfl (decide_eq_true hp) rfl, closed, decision, vote, epoch⟩
  case rollback =>
    intro p s hp due free sent calm
    obtain ⟨closed, vote, decision, epoch⟩ := rollback_closes calm
    exact ⟨_, guardWf_runs rfl (decide_eq_true hp) (if_pos ⟨due, by rw [free]; rfl, by rw [sent]; rfl⟩), closed, vote, decision, epoch⟩
  case doubt =>
    intro p u v s hp vote since yes undecided voted free late
    exact ⟨_, exec_inDoubtEntry_late hp vote since yes undecided voted free late, inDoubt_leaves⟩
  case resolve =>
    intro who p v o s operator hp ho doubt hv vote
    exact ⟨_, exec_inDoubtResolve_taken operator hp ho doubt hv vote, by rw [part_partWritten_same], odKept_partWritten _ _ _ _ _ _,
      partWritten_frame ..⟩
  case hold =>
    intro who p v o j s operator hp ho hold hv vote hj
    exact ⟨_, exec_holdDecision_taken operator hp ho hold hv vote hj, voteRevised_vote _ j, (mem_voteRevised _ j).trans steps_entered.mem_eq⟩
  case table =>
    intro who p addr s writer hp ha ho closed own aligned near
    have low := lt_of_near near
    have below : addr + 0x4_0000 ≤ farBase := by
      unfold nearEnd at low
      unfold farBase
      omega
    obtain ⟨value, entries, kept, none_⟩ := layerTableTaken_leaves (s := entered s who (kLayerTableAddr p) (.num addr)) (p := p) below
    have mem : (entered s who (kLayerTableAddr p) (.num addr)).mem = s.mem := steps_entered.mem_eq
    refine ⟨_, exec_layerTableAddrWrite_taken writer hp ha ho closed own aligned near, (odN_answered ..).trans value,
      fun l hl => ?_, fun x hx => ?_, by rw [part_answered, none_]⟩
    · rw [answered_mem]
      exact entries l hl
    · rw [answered_mem, kept x hx, mem]
end

section
/-! O29: frames that pass a port (R328, R330 to R332, R338 to R340, R344, R347, R352). -/

namespace Sys2Proof.Machine

-- Checked one after another: the check allows too few threads for more.
set_option Elab.async false

section
variable {s t : State} {n p i : Nat} {f : RxFrame}

/-! ### The management port (R347) -/

theorem exec_frameRx_mgmt (fits : rxFits f = true) : exec (.frameRx 8 f) s = .next (mgmtRx s f) :=
  guardWf_runs rfl (by rw [fits]; rfl) (if_pos rfl)

theorem mgmtRx_noLink (down : (port s 8).noLink = true) : mgmtRx s f = s := if_pos down

theorem mgmtRx_full (link : (port s 8).noLink = false) (full : Config.mgmtBuffer < f.shared + 9216) :
    mgmtRx s f = bump s (kRxBufferDrops 8) 1 none := (if_neg (by rw [link]; decide)).trans (if_pos full)

theorem mgmtRx_sound (link : (port s 8).noLink = false) (room : ¬ Config.mgmtBuffer < f.shared + 9216) (low : 64 ≤ f.length)
    (high : f.length ≤ 9216) (sound : f.fcsOk = true) : mgmtRx s f = bump (bump s (kRxFrames 8) 1 none) (kRxBytes 8) f.length none :=
  (if_neg (by rw [link]; decide)).trans ((if_neg room).trans ((if_neg (Nat.not_lt.mpr low)).trans ((if_neg (Nat.not_lt.mpr high)).trans
    (if_neg (by rw [sound]; decide)))))

/-! ### The first pause (R338) -/

theorem pauseAs_ports (s : State) (n quanta : Nat) (b : Bool) : (pauseAs s n quanta b).ports =
    (setPort (setPort s n { port s n with pausing := b }) n { port s n with pausing := b, lastPause := s.now }).ports := by
  rw [pauseAs, sendPause_eq, emit_ports, bump_ports, port_setPort_same]
  rfl

/-- Whether the shared part of the receive buffer calls for the first pause. -/
def pauseCalled (s : State) (n shared : Nat) : Prop :=
  odN s kFlowControl ≠ 0 ∧ odN s (kLinkUp n) ≠ 0 ∧ !(port s n).pausing ∧ 3 * bufferHalf < 4 * shared

theorem pauseStart_called {shared : Nat} (h : pauseCalled s n shared) : pauseStart s n shared = pauseAs s n 0xFFFF true := if_pos h
theorem pauseStart_idle {shared : Nat} (h : ¬ pauseCalled s n shared) : pauseStart s n shared = s := if_neg h

/-- What the first pause does to its port and sends follows the objects, the ports, the time and what has left so far. -/
theorem pauseStart_congr (od : t.od = s.od) (ports : t.ports = s.ports) (now : t.now = s.now) (out : t.out = s.out) (shared : Nat) :
    (pauseStart t n shared).ports = (pauseStart s n shared).ports ∧ (pauseStart t n shared).out = (pauseStart s n shared).out := by
  have same : pauseCalled t n shared ↔ pauseCalled s n shared := by
    unfold pauseCalled
    rw [port_congr ports, odN_congr od, odN_congr od]
  by_cases h : pauseCalled s n shared
  · rw [pauseStart_called h, pauseStart_called (same.mpr h), pauseAs_ports, pauseAs_ports, pauseAs_frame t, pauseAs_frame s]
    refine ⟨?_, ?_⟩
    · simp only [setPort, port, ports, now]
    · rw [pauseOut, pauseOut, pauseOctets_congr od, odN_congr od, out]
  · rw [pauseStart_idle h, pauseStart_idle (mt same.mp h)]
    exact ⟨ports, out⟩

theorem ctrKept_pauseStart (s : State) (n shared : Nat) : CtrKept [kTxPfcFrames n, kTxPauseFrames n] s (pauseStart s n shared) := by
  by_cases h : pauseCalled s n shared
  · rw [pauseStart_called h, pauseAs, sendPause_eq]
    refine .trans ?_ (ctrKept_emit _ _ _)
    refine ctrKept_bump (setPort (setPort s n _) n _) 1 none (by simp) ?_
    unfold pauseKey
    split <;> simp
  · rw [pauseStart_idle h]
    exact .refl _ _

section

/-! ### Through the MAC (R331, R340, R344, R352) -/

/-- The counters of the error correction of a frame. -/
def fecCounted (s : State) (n : Nat) (f : RxFrame) : State :=
  bump (bump (bump s (kFecCorrectedCodewords n) f.fecCorrected none) (kFecSymbolErrors n) f.fecSymbols none) (kFecUncorrectedCodewords n) f.fecBad none

theorem steps_fecCounted : Steps [.ctr] s (fecCounted s n f) := .andThen (.andThen steps_bump steps_bump) steps_bump

/-- The state in which the MAC finds a frame. -/
def reached (s : State) (n : Nat) (f : RxFrame) : State := pauseStart (fecCounted s n f) n f.shared

theorem steps_reached : Steps [.ctr, .ports, .out] s (reached s n f) := .andThen steps_fecCounted.mono steps_pauseStart

theorem reached_ports : (reached s n f).ports = (pauseStart s n f.shared).ports :=
  (pauseStart_congr steps_fecCounted.od_eq steps_fecCounted.ports_eq steps_fecCounted.now_eq steps_fecCounted.out_eq f.shared).1

theorem reached_out : (reached s n f).out = (pauseStart s n f.shared).out :=
  (pauseStart_congr steps_fecCounted.od_eq steps_fecCounted.ports_eq steps_fecCounted.now_eq steps_fecCounted.out_eq f.shared).2

theorem exec_frameRx_sound (hn : n < 8) (fits : rxFits f = true) (up : odN s (kLinkUp n) ≠ 0)
    (room : (if f.pcp = odN s kPcpTimetabled then f.reserved else f.shared) + 9216 ≤ bufferHalf) (tagged : f.tagged = true) (fec : f.fecBad = 0)
    (low : 64 ≤ f.length) (high : f.length ≤ 9216) (sound : f.fcsOk = true) :
    exec (.frameRx n f) s = .next (macRx (reached s n f) n f) := by
  have od : (reached s n f).od = s.od := steps_reached.od_eq
  have used : (if f.tagged ∧ f.pcp = odN (reached s n f) kPcpTimetabled then f.reserved else f.shared) =
      if f.pcp = odN s kPcpTimetabled then f.reserved else f.shared := by
    simp only [tagged, true_and, odN_congr od]
  have checked : (if bufferHalf < (if f.tagged ∧ f.pcp = odN (reached s n f) kPcpTimetabled then f.reserved else f.shared) + 9216 then
        bump (reached s n f) (kRxBufferDrops n) 1 none
      else if f.fecBad ≠ 0 then bump (reached s n f) (kRxFecFrameDrops n) 1 none
      else if f.length < 64 then bump (reached s n f) (kRxUndersize n) 1 none
      else if 9216 < f.length then bump (reached s n f) (kRxOversize n) 1 none
      else if !f.fcsOk then bump (reached s n f) (kRxFcsErrors n) 1 none
      else macRx (reached s n f) n f) = macRx (reached s n f) n f := by
    rw [used, if_neg (Nat.not_lt.mpr room), if_neg (not_not.mpr fec), if_neg (Nat.not_lt.mpr low), if_neg (Nat.not_lt.mpr high),
      if_neg (by rw [sound]; decide)]
  exact guardWf_runs rfl (by rw [fits]; simp only [Bool.and_true, decide_eq_true_eq]; omega)
    ((if_neg (by omega)).trans ((if_neg up).trans checked))

/-- The channel after a frame under its only receive association. -/
def heardUnder (c : Chan) (a : RxSa) (f : RxFrame) : Chan := { c with rx := [{ a with pn := f.pn + 1 }] }

/-- The state after a frame whose protection holds. -/
def unsealed (s : State) (p n i : Nat) (a : RxSa) (f : RxFrame) : State :=
  rekey (bump (setChan s p n i (heardUnder (chan s p n i) a f)) (kMacsecRxOk n) 1 (some p)) p n i

theorem macsecRx_sole {a : RxSa} (sec : f.hasSecTag = true) (sci : f.hasSci = true) (icv : f.icvOk = true)
    (peer : sciPeer s p n f.sci = some i) (sole : (chan s p n i).rx = [a]) (an : a.an = f.an) (pn : a.pn ≤ f.pn) :
    macsecRx s p n f = (unsealed s p n i a f, true) := by
  unfold macsecRx unsealed heardUnder
  have found : (chan s p n i).rx.find? (fun a => a.an = f.an) = some a := by rw [sole]; simp [an]
  rw [if_neg (by rw [sec]; simp), if_neg (by rw [sec]; simp), sci, if_pos rfl, peer]
  dsimp only
  rw [found]
  dsimp only
  rw [if_neg (by rw [icv]; decide), if_neg (Nat.not_lt.mpr pn), sole]
  simp [an]

/-- The state after a frame of a partition that the MAC has handed on whole. -/
def handedOn (s : State) (p n i : Nat) (a : RxSa) (f : RxFrame) : State :=
  bump (bump (bump (unsealed s p n i a f) (kRxFrames n) 1 (some p)) (kRxBytes n) f.length (some p)) kHrtCeReceived (if f.ce then 1 else 0) (some p)

theorem steps_unsealed {a : RxSa} : Steps [.free, .ctr, .ports, .chans] s (unsealed s p n i a f) := by
  unfold unsealed
  exact .andThen (.andThen steps_setChan.mono steps_bump) steps_rekey

theorem steps_handedOn {a : RxSa} : Steps [.free, .ctr, .ports, .chans] s (handedOn s p n i a f) := by
  unfold handedOn
  exact .andThen steps_unsealed (.andThen (.andThen steps_bump steps_bump) steps_bump)

theorem macRx_handsOn {a : RxSa} (tagged : f.tagged = true) (tpid : f.tpid = 0x8100) (vid : f.vid ≠ odN s kPtpVid)
    (type1 : f.etherType ≠ 0x8100) (type2 : f.etherType ≠ 0x88A8) (part : vidPart s f.vid n = some p)
    (mac : f.dstMac = odB s (kMacAddress n)) (sealed : macsecRx s p n f = (unsealed s p n i a f, true)) (ip : f.ipOk = true)
    (dst : f.dstIp = odB s (kLocalIp p (n + 1))) (udp : f.udpPort = odN s kHrtUdpPort) :
    macRx s n f = handedOn s p n i a f := by
  have od : (handedOn s p n i a f).od = s.od := steps_handedOn.od_eq
  have ipChecked : ipRx (bump (bump (unsealed s p n i a f) (kRxFrames n) 1 (some p)) (kRxBytes n) f.length (some p)) p n f =
      handedOn s p n i a f := by
    refine if_pos ⟨ip, ?_, ?_⟩
    · rw [dst]; exact (odB_congr od _).symm
    · rw [udp]; exact (odN_congr od _).symm
  unfold macRx
  rw [if_neg (by rw [tagged]; simp), if_neg (by rw [tagged]; simp [vid]), if_neg (by simp [tpid, type1, type2]), part]
  dsimp only
  rw [if_neg (not_not.mpr mac), sealed]
  exact ipChecked

/-! ### What the frame leaves -/

theorem rekey_notDue (h : rekeyDue (chan s p n i) = false) : rekey s p n i = s := by
  unfold rekey
  split
  · exact if_neg (by rw [h]; simp)
  · rfl

/-- An offer changes nothing of what the channel receives. -/
theorem chan_rekey_rx : (chan (rekey s p n i) p n i).rx = (chan s p n i).rx := by
  unfold rekey
  split
  · split
    · unfold sendOffer
      dsimp only
      rw [chan_congr steps_sendKey.chans_eq, chan_setChan_same]
    · rfl
  · rfl

theorem ctrKept_rekey (hp : p < 61) : CtrKept [kTxLinkDownDrops n] s (rekey s p n i) := by
  unfold rekey
  split
  · split
    · unfold sendOffer
      exact fun k v hv hk => ctrKept_sendKey p n i _ _ hp k v hv hk
    · exact .refl _ _
  · exact .refl _ _

end

section

theorem ctrKept_fecCounted :
    CtrKept [kFecCorrectedCodewords n, kFecSymbolErrors n, kFecUncorrectedCodewords n] s (fecCounted s n f) := by
  unfold fecCounted
  exact .trans (.trans (ctrKept_bump _ _ _ (by simp) (by simp)) (ctrKept_bump _ _ _ (by simp) (by simp))) (ctrKept_bump _ _ _ (by simp) (by simp))

/-- What arrives at the MAC has touched no counter of the frames received. -/
theorem ctrGet_reached {k : Nat} (h : k = kRxFrames n ∨ k = kRxBytes n ∨ k = kMacsecRxOk n) : ctrGet (reached s n f) k 0 = ctrGet s k 0 := by
  refine ((ctrKept_pauseStart (fecCounted s n f) n f.shared).operator ?_).trans (ctrKept_fecCounted.operator ?_)
  all_goals
    simp only [List.mem_cons, List.not_mem_nil, or_false, kRxFrames, kRxBytes, kMacsecRxOk, kTxPfcFrames, kTxPauseFrames,
      kFecCorrectedCodewords, kFecSymbolErrors, kFecUncorrectedCodewords] at h ⊢
    omega

theorem ctrKept_unsealed {a : RxSa} (hp : p < 61) : CtrKept [kMacsecRxOk n, kTxLinkDownDrops n] s (unsealed s p n i a f) := by
  unfold unsealed
  refine .trans (t := bump (setChan s p n i _) (kMacsecRxOk n) 1 (some p)) (fun k v hv hk => ?_) ((ctrKept_rekey hp).mono (by simp))
  exact ctrKept_bump (l := [kMacsecRxOk n, kTxLinkDownDrops n]) (setChan s p n i _) 1 (some p) (by simp [hp]) (by simp) k v hv hk

theorem counted_unsealed {a : RxSa} (hp : p < 61) : Counted s (unsealed s p n i a f) (kMacsecRxOk n) 1 := by
  unfold unsealed
  have counted : Counted s (bump (setChan s p n i (heardUnder (chan s p n i) a f)) (kMacsecRxOk n) 1 (some p)) (kMacsecRxOk n) 1 := by
    refine counted_bump_of_ctr ?_ _ _
    rfl
  exact counted.before ((ctrKept_rekey hp).operator (by simp only [List.mem_singleton, kMacsecRxOk, kTxLinkDownDrops]; omega))

/-- The three counts of a frame handed on. -/
theorem counted_handedOn {a : RxSa} (hn : n < 8) (hp : p < 61) (len : f.length ≠ 0) :
    Counted s (handedOn s p n i a f) (kRxFrames n) 1 ∧ Counted s (handedOn s p n i a f) (kRxBytes n) f.length ∧
      Counted s (handedOn s p n i a f) (kMacsecRxOk n) 1 := by
  unfold handedOn
  generalize hu : unsealed s p n i a f = u
  have kept : CtrKept [kMacsecRxOk n, kTxLinkDownDrops n] s u := hu ▸ ctrKept_unsealed hp
  have ok : Counted s u (kMacsecRxOk n) 1 := hu ▸ counted_unsealed hp
  have frames : CtrKept [kRxFrames n] u (bump u (kRxFrames n) 1 (some p)) := ctrKept_bump _ _ _ (by simp [hp]) (by simp)
  generalize hv : bump u (kRxFrames n) 1 (some p) = v at frames ⊢
  have bytes : CtrKept [kRxBytes n] v (bump v (kRxBytes n) f.length (some p)) := ctrKept_bump _ _ _ (by simp [hp]) (by simp)
  generalize hw : bump v (kRxBytes n) f.length (some p) = w at bytes ⊢
  have marks : CtrKept [kHrtCeReceived] w (bump w kHrtCeReceived (if f.ce then 1 else 0) (some p)) :=
    ctrKept_bump _ _ _ (by simp [hp]) (by simp)
  generalize bump w kHrtCeReceived (if f.ce then 1 else 0) (some p) = x at marks ⊢
  have counted : Counted u v (kRxFrames n) 1 := hv ▸ counted_bump u _ (n := 1) _
  have counted' : Counted v w (kRxBytes n) f.length := hw ▸ counted_bump v _ _ len
  refine ⟨((counted.after (kept.operator ?_)).before (bytes.operator ?_)).before (marks.operator ?_),
    (counted'.after ((frames.operator ?_).trans (kept.operator ?_))).before (marks.operator ?_),
    ((ok.before (frames.operator ?_)).before (bytes.operator ?_)).before (marks.operator ?_)⟩
  all_goals
    simp only [List.mem_cons, List.not_mem_nil, or_false, kRxFrames, kRxBytes, kMacsecRxOk, kTxLinkDownDrops, kHrtCeReceived]
    omega

theorem sciPeer_congr (parts : t.parts = s.parts) (chans : t.chans = s.chans) (sci : Nat) : sciPeer t p n sci = sciPeer s p n sci := by
  unfold sciPeer
  rw [jobOf_congr parts]
  cases jobOf s p with
  | none => rfl
  | some j => simp only [chan_congr chans]

theorem vidPart_congr (parts : t.parts = s.parts) (vid : Nat) : vidPart t vid n = vidPart s vid n := by
  unfold vidPart
  rw [parts]

theorem chan_unsealed_rx {a : RxSa} : (chan (unsealed s p n i a f) p n i).rx = [{ a with pn := f.pn + 1 }] := by
  unfold unsealed
  rw [chan_rekey_rx, chan_congr (bump_chans ..), chan_setChan_same]
  rfl

theorem unsealed_notDue {a : RxSa} (h : rekeyDue (heardUnder (chan s p n i) a f) = false) :
    unsealed s p n i a f = bump (setChan s p n i (heardUnder (chan s p n i) a f)) (kMacsecRxOk n) 1 (some p) :=
  rekey_notDue (by rw [chan_congr (bump_chans ..), chan_setChan_same]; exact h)

theorem steps_unsealed_notDue {a : RxSa} (h : rekeyDue (heardUnder (chan s p n i) a f) = false) :
    Steps [.ctr, .chans] s (unsealed s p n i a f) := by
  rw [unsealed_notDue h]
  exact .andThen steps_setChan.mono steps_bump

theorem steps_handedOn_notDue {a : RxSa} (h : rekeyDue (heardUnder (chan s p n i) a f) = false) :
    Steps [.ctr, .chans] s (handedOn s p n i a f) := by
  unfold handedOn
  exact .andThen (steps_unsealed_notDue h) (.andThen (.andThen steps_bump steps_bump) steps_bump)

theorem chan_handedOn {a : RxSa} : chan (handedOn s p n i a f) p n i = chan (unsealed s p n i a f) p n i :=
  chan_congr ((bump_chans ..).trans ((bump_chans ..).trans (bump_chans ..))) _ _ _

end

section
variable {g : MacFrame}

/-! ### The turn of a frame (R332, R334, R344) -/

theorem maySend_congr (od : t.od = s.od) (parts : t.parts = s.parts) (chans : t.chans = s.chans) : maySend t n g = maySend s n g := by
  rw [maySend, maySend, mayUse_congr parts, held, held, odN_congr od, chan_congr chans]

theorem pnStalled_congr (chans : t.chans = s.chans) : pnStalled t n g = pnStalled s n g := by
  rw [pnStalled, pnStalled, chan_congr chans]

theorem pathsOf_none (h : ∀ x ∈ s.parts, x.2.paths = []) (tick : Nat) : pathsOf s n tick = [] := by
  unfold pathsOf
  rw [List.flatMap_eq_nil_iff]
  intro x hx
  rw [h x hx]
  rfl

/-- A frame that no want of packet numbers holds stays in its port's buffer as it is. -/
theorem port_countStalls (only : (port s n).txq = [g]) (free : pnStalled s n g = false) : port (countStalls s n) n = port s n := by
  unfold countStalls
  rw [only]
  simp only [List.filter_cons, List.filter_nil, List.map_cons, List.map_nil, free, Bool.and_false, Bool.false_eq_true, if_false,
    List.foldl_nil, port_setPort_same]
  rw [← only]

/-- Outside every timetabled path an idle port sends the frame at the head of its buffer. -/
theorem frameTx_idle (up : odN s (kLinkUp n) ≠ 0) (speed : odN s (kPortSpeed n) ≠ 0) (only : (port s n).txq = [g])
    (idle : (port s n).lastEnd ≤ s.now) (unpaused : (port s n).pausedUntil = none) (paths : ∀ x ∈ s.parts, x.2.paths = [])
    (free : g.timetabled = false) (may : maySend s n g = true) (numbers : pnStalled s n g = false) :
    frameTx s n = transmit (countStalls s n) n g [] := by
  have calm : port (countStalls s n) n = port s n := port_countStalls only numbers
  have steps : Steps [.ctr, .ports] s (countStalls s n) := steps_countStalls
  have may' : maySend (countStalls s n) n g = true := (maySend_congr steps.od_eq steps.parts_eq steps.chans_eq).trans may
  have numbers' : pnStalled (countStalls s n) n g = false := (pnStalled_congr steps.chans_eq).trans numbers
  have none_ (tick : Nat) : pathsOf (countStalls s n) n tick = [] := pathsOf_none (steps.parts_eq ▸ paths) tick
  unfold frameTx
  rw [if_neg (by omega)]
  dsimp only
  generalize countStalls s n = u at calm may' numbers' none_ ⊢
  simp only [none_, ite_self, calm, only, unpaused, firstFrame, may', numbers', free, List.find?_nil, List.filter_nil, List.map_nil,
    List.append_nil, List.all_nil, Bool.not_false, Bool.and_self, if_true, Bool.false_eq_true, if_false]

end

section
variable {g : MacFrame} {q : Nat}

/-! ### A frame leaves (R328, R339, R350) -/

/-- The state in which a frame's first octet is on the wire. -/
def onWire (s : State) (n : Nat) (g : MacFrame) (rest : List MacFrame) : State :=
  emit (setPort s n { port s n with txq := rest, lastEnd := s.now + ceilDiv (wireBits s n g) (max 1 (odN s (kPortSpeed n))) })
    (.frame n g (secOf s n g) (frameOctets s g.part n g.peer g.qp g.tag (secOf s n g) g.hdr g.payload))

/-- The channel has its next packet number. -/
def numbered (s : State) (n : Nat) (g : MacFrame) (u : State) : State :=
  if takesPn g then setChan u g.part n g.peer
    { chanReady (chan s g.part n g.peer) with txPn := (chanReady (chan s g.part n g.peer)).txPn + 1 } else u

/-- The frame is counted. -/
def txCounted (s : State) (n : Nat) (g : MacFrame) (u : State) : State :=
  bump (countTx u g.part n (frameLen s n g) (!isKey g.hdr)) kHrtTimetabledFrames (if g.timetabled then 1 else 0) (some g.part)

/-- A QP of which a frame has left. -/
def qpLeft (v : Qp) (h : HrtHdr) (now : Nat) (first : Bool) : Qp :=
  { v with frames := v.frames.map (fun g => if g.hdr.psn = h.psn then { g with sent := some now } else g),
           progress := if first then now else v.progress }

/-- The frame's QP notes when it left. -/
def qpNoted (g : MacFrame) (u : State) : State :=
  if g.hdr.opcode = 2 ∨ isKey g.hdr then u
  else setQp u g.qp (qpLeft (qp u g.qp) g.hdr u.now
    (!((qp u g.qp).frames.any fun f => f.sent ≠ none && f.hdr.psn ≠ g.hdr.psn && !inBuffer u g.qp f.hdr.psn)))

/-- The initiator renews an association that nears its last number. -/
def renewed (n : Nat) (g : MacFrame) (u : State) : State := if takesPn g then rekey u g.part n g.peer else u

/-- The state that follows a frame on the wire, up to what waits for its room. -/
def frameGone (s : State) (n : Nat) (g : MacFrame) (rest : List MacFrame) : State :=
  renewed n g (qpNoted g (txCounted s n g (numbered s n g (onWire s n g rest))))

theorem transmit_eq (rest : List MacFrame) : transmit s n g rest = pumpPort (frameGone s n g rest) n := rfl

theorem steps_numbered : Steps [.chans] t (numbered s n g t) := .ite steps_setChan .refl
theorem steps_txCounted : Steps [.ctr] t (txCounted s n g t) := .andThen steps_countTx steps_bump
theorem steps_qpNoted : Steps [.qps] t (qpNoted g t) := .ite .refl steps_setQp
theorem steps_renewed : Steps [.free, .ctr, .ports, .chans] t (renewed n g t) := .ite steps_rekey .refl

theorem steps_frameNoted (rest : List MacFrame) :
    Steps [.ctr, .qps, .chans] (onWire s n g rest) (qpNoted g (txCounted s n g (numbered s n g (onWire s n g rest)))) :=
  .andThen (.andThen steps_numbered.mono steps_txCounted) steps_qpNoted

theorem steps_frameGone (rest : List MacFrame) : Steps [.free, .ctr, .qps, .ports, .chans] (onWire s n g rest) (frameGone s n g rest) :=
  .andThen (steps_frameNoted rest).mono steps_renewed

theorem transmit_out (rest : List MacFrame) : (transmit s n g rest).out =
    .frame n g (secOf s n g) (frameOctets s g.part n g.peer g.qp g.tag (secOf s n g) g.hdr g.payload) :: s.out :=
  (steps_pumpPort.out_eq).trans (steps_frameGone rest).out_eq

end

section
variable {g : MacFrame} {q : Nat}

/-! ### What the frame's room is for (R328) -/

/-- No frame of a QP waits to leave, for the first time or again. -/
def AllSent (s : State) : Prop := ∀ q, ∀ f ∈ (qp s q).frames, f.sent ≠ none ∧ f.again = false

theorem AllSent.of_table (h : ∀ x ∈ s.qps, ∀ f ∈ x.2.frames, f.sent ≠ none ∧ f.again = false) : AllSent s := by
  intro q f hf
  by_cases reset : qp s q = Qp.reset
  · rw [reset] at hf
    exact absurd hf List.not_mem_nil
  · exact h _ (mem_of_tget (d := Qp.reset) rfl reset) f hf

theorem AllSent.congr (h : AllSent s) (qps : t.qps = s.qps) : AllSent t := fun q f hf => h q f (qp_congr qps q ▸ hf)

theorem AllSent.qpNoted (h : AllSent s) : AllSent (qpNoted g s) := by
  unfold Machine.qpNoted
  split
  · exact h
  · intro q f hf
    by_cases same : q = g.qp
    · subst same
      rw [qp_setQp_same, qpLeft, List.mem_map] at hf
      obtain ⟨x, hx, rfl⟩ := hf
      obtain ⟨sent, again⟩ := h g.qp x hx
      split
      · exact ⟨by simp, again⟩
      · exact ⟨sent, again⟩
    · rw [qp_setQp_ne _ _ same] at hf
      exact h q f hf

/-- A QP none of whose frames waits hands nothing over. -/
theorem pump_allSent (h : ∀ f ∈ (qp s q).frames, f.sent ≠ none ∧ f.again = false) : pump s q = s := by
  have again : pumpAgain s q = s := by
    unfold pumpAgain againNow
    dsimp only
    rw [List.filter_eq_nil_iff.mpr fun f hf => by simp [(h f hf).2]]
    exact if_pos rfl
  unfold pump
  rw [again]
  dsimp only
  generalize (qp s q).frames.any _ = blocked
  generalize (qp s q).frames = l at h
  induction l with
  | nil => rfl
  | cons f r ih =>
    rw [List.foldl_cons, if_pos (h f List.mem_cons_self).1]
    exact ih fun x hx => h x (List.mem_cons_of_mem _ hx)

theorem pumpPort_allSent (wait : (port s n).wait = []) (h : AllSent s) : pumpPort s n = s := by
  have fed : feedWait s n = s := by
    unfold feedWait
    rw [wait]
    rfl
  unfold pumpPort
  rw [fed]
  generalize s.qps.filter _ = l
  induction l with
  | nil => rfl
  | cons x r ih => rw [List.foldl_cons, pump_allSent (h x.1), ih]

theorem port_onWire (rest : List MacFrame) : port (onWire s n g rest) n =
    { port s n with txq := rest, lastEnd := s.now + ceilDiv (wireBits s n g) (max 1 (odN s (kPortSpeed n))) } :=
  port_setPort_same s n _

theorem frameGone_notDue (rest : List MacFrame) (h : takesPn g = true → rekeyDue { chanReady (chan s g.part n g.peer) with
      txPn := (chanReady (chan s g.part n g.peer)).txPn + 1 } = false) :
    frameGone s n g rest = qpNoted g (txCounted s n g (numbered s n g (onWire s n g rest))) := by
  unfold frameGone renewed
  split
  · next takes =>
    refine rekey_notDue ?_
    rw [chan_congr steps_qpNoted.chans_eq, chan_congr steps_txCounted.chans_eq, numbered, if_pos takes, chan_setChan_same]
    exact h takes
  · rfl

/-- Nothing waits for the room of the port's last frame: the buffer is empty. -/
theorem transmit_txq (wait : (port s n).wait = []) (sent : AllSent s) (h : takesPn g = true → rekeyDue { chanReady (chan s g.part n g.peer) with
      txPn := (chanReady (chan s g.part n g.peer)).txPn + 1 } = false) :
    (port (transmit s n g []) n).txq = [] := by
  have ports : port (qpNoted g (txCounted s n g (numbered s n g (onWire s n g [])))) n = port (onWire s n g []) n :=
    port_congr (steps_frameNoted []).ports_eq n
  have gone : AllSent (qpNoted g (txCounted s n g (numbered s n g (onWire s n g [])))) :=
    .qpNoted (sent.congr (steps_txCounted.qps_eq.trans steps_numbered.qps_eq))
  rw [transmit_eq, frameGone_notDue [] h, pumpPort_allSent (by rw [ports, port_onWire]; exact wait) gone, ports, port_onWire]

end

end

section
variable {s : State} {n p i u : Nat} {f : RxFrame} {g : MacFrame} {a : RxSa}

/-! ### The rows -/

/-- What a frame handed on leaves, from the state in which the MAC found it. -/
theorem handedOn_leaves (hn : n < 8) (hp : p < 40) (len : f.length ≠ 0) (t : State) (ht : handedOn (reached s n f) p n i a f = t) :
    (chan t p n i).rx = [{ a with pn := f.pn + 1 }] ∧
      Counted s t (kRxFrames n) 1 ∧ Counted s t (kRxBytes n) f.length ∧ Counted s t (kMacsecRxOk n) 1 ∧
      t.out = (pauseStart s n f.shared).out ∧ t.mem = s.mem ∧ t.sems = s.sems ∧ t.consists = s.consists ∧
      (rekeyDue (heardUnder (chan s p n i) a f) = false → chan t p n i = heardUnder (chan s p n i) a f ∧
        t = { s with ctr := t.ctr, chans := t.chans, ports := (pauseStart s n f.shared).ports, out := t.out }) := by
  have came : Steps [.ctr, .ports, .out] s (reached s n f) := steps_reached
  have steps : Steps [.free, .ctr, .ports, .chans] (reached s n f) t := ht ▸ steps_handedOn
  have all : Steps [.free, .ctr, .ports, .chans, .out] s t := .andThen came.mono steps
  have channel : chan (reached s n f) p n i = chan s p n i := chan_congr came.chans_eq _ _ _
  obtain ⟨frames, bytes, ok⟩ := counted_handedOn (s := reached s n f) (i := i) (a := a) (f := f) hn (by omega : p < 61) len
  rw [ht] at frames bytes ok
  refine ⟨?_, frames.after (ctrGet_reached (.inl rfl)), bytes.after (ctrGet_reached (.inr (.inl rfl))),
    ok.after (ctrGet_reached (.inr (.inr rfl))), steps.out_eq.trans reached_out, all.mem_eq, all.sems_eq, all.consists_eq, fun due => ?_⟩
  · rw [← ht, chan_handedOn, chan_unsealed_rx]
  · have due' : rekeyDue (heardUnder (chan (reached s n f) p n i) a f) = false := by rw [channel]; exact due
    have few : Steps [.ctr, .chans] (reached s n f) t := ht ▸ steps_handedOn_notDue due'
    refine ⟨?_, ?_⟩
    · rw [← ht, chan_handedOn, unsealed_notDue due', chan_congr (bump_chans ..), chan_setChan_same, channel]
    · have ports : t.ports = (pauseStart s n f.shared).ports := few.ports_eq.trans reached_ports
      have whole : Steps [.ctr, .ports, .chans, .out] s t := .andThen came.mono few
      rw [← ports]
      exact whole.frame

/-- The management port takes a sound frame (R347). -/
theorem mgmtRx_leaves (link : (port s 8).noLink = false) (low : 64 ≤ f.length) (high : f.length ≤ 9216) (sound : f.fcsOk = true) :
    mgmtRx s f = { s with ctr := (mgmtRx s f).ctr } ∧
      (f.shared + 9216 ≤ Config.mgmtBuffer → Counted s (mgmtRx s f) (kRxFrames 8) 1 ∧ Counted s (mgmtRx s f) (kRxBytes 8) f.length ∧
        CtrKept [kRxFrames 8, kRxBytes 8] s (mgmtRx s f)) ∧
      (Config.mgmtBuffer < f.shared + 9216 → Counted s (mgmtRx s f) (kRxBufferDrops 8) 1 ∧ CtrKept [kRxBufferDrops 8] s (mgmtRx s f)) := by
  refine ⟨steps_mgmtRx.frame, fun room => ?_, fun full => ?_⟩
  · rw [mgmtRx_sound link (by omega) low high sound]
    have frames : CtrKept [kRxFrames 8] s (bump s (kRxFrames 8) 1 none) := ctrKept_bump _ _ _ (by simp) (by simp)
    have counted : Counted s (bump s (kRxFrames 8) 1 none) (kRxFrames 8) 1 := counted_bump s _ (n := 1) _
    generalize bump s (kRxFrames 8) 1 none = t at frames counted ⊢
    have bytes : CtrKept [kRxBytes 8] t (bump t (kRxBytes 8) f.length none) := ctrKept_bump _ _ _ (by simp) (by simp)
    exact ⟨counted.before (bytes.operator (by decide)), (counted_bump t _ _ (by omega)).after (frames.operator (by decide)),
      .trans (frames.mono (by simp)) (bytes.mono (by simp))⟩
  · rw [mgmtRx_full link full]
    exact ⟨counted_bump s _ (n := 1) _, ctrKept_bump _ _ _ (by simp) (by simp)⟩

theorem exec_frameTx_idle (hn : n < 8) (up : odN s (kLinkUp n) ≠ 0) (speed : odN s (kPortSpeed n) ≠ 0) (only : (port s n).txq = [g])
    (idle : (port s n).lastEnd ≤ max s.now u) (unpaused : (port s n).pausedUntil = none) (paths : ∀ x ∈ s.parts, x.2.paths = [])
    (free : g.timetabled = false) (may : maySend s n g = true) (numbers : pnStalled s n g = false) :
    exec (.frameTx n u) s = .next (transmit (countStalls (atTime s u) n) n g []) :=
  guardWf_runs rfl (decide_eq_true hn) (frameTx_idle (s := atTime s u) up speed only idle unpaused paths free may numbers)

theorem secOf_congr (chans : t.chans = s.chans) : secOf t n g = secOf s n g := by rw [secOf, secOf, chan_congr chans]

theorem frameOctets_congr (od : t.od = s.od) (parts : t.parts = s.parts) (sec : Option (Nat × Nat)) :
    frameOctets t g.part n g.peer g.qp g.tag sec g.hdr g.payload = frameOctets s g.part n g.peer g.qp g.tag sec g.hdr g.payload := by
  have route : routeTo t g.part n g.peer = routeTo s g.part n g.peer := by rw [routeTo, routeTo, jobOf_congr parts]
  simp only [frameOctets, macOctets, ipOctets, route, ownSci_congr od, odB_congr od]

end

end Sys2Proof.Machine

open Sys2Proof Sys2Proof.Machine

/-- Settles O29: a frame that passes every check moves its association's packet number on and is counted; an idle port sends the frame
at the head of its buffer. -/
theorem framesPassThePort : Obligations.FramesPassThePort := by
  unfold Obligations.FramesPassThePort
  refine ⟨fun n p i f a s hn hp _ fits up room fec low high sound tagged tpid vid type1 type2 part mac sec sci icv peer sole an pn ip dst udp => ?_,
    fun f s fits down => ?_, fun f s fits link low high sound => ?_, fun n u g s hn up speed only idle unpaused paths free may numbers => ?_⟩
  · have came : Steps [.ctr, .ports, .out] s (reached s n f) := steps_reached
    have sealed : macsecRx (reached s n f) p n f = (unsealed (reached s n f) p n i a f, true) :=
      macsecRx_sole sec sci icv ((sciPeer_congr came.parts_eq came.chans_eq _).trans peer)
        ((congrArg Chan.rx (chan_congr came.chans_eq p n i)).trans sole) an pn
    have run := macRx_handsOn (s := reached s n f) tagged tpid (by rw [odN_congr came.od_eq]; exact vid) type1 type2
      ((vidPart_congr came.parts_eq _).trans part) (by rw [odB_congr came.od_eq]; exact mac) sealed ip
      (by rw [odB_congr came.od_eq]; exact dst) (by rw [odN_congr came.od_eq]; exact udp)
    exact ⟨_, (exec_frameRx_sound hn fits up room tagged fec low high sound).trans (congrArg _ run),
      handedOn_leaves hn hp (by omega) _ rfl⟩
  · exact (exec_frameRx_mgmt fits).trans (congrArg _ (mgmtRx_noLink down))
  · exact ⟨_, exec_frameRx_mgmt fits, mgmtRx_leaves link low high sound⟩
  · have calm : Steps [.ctr, .ports] (atTime s u) (countStalls (atTime s u) n) := steps_countStalls
    have same : port (countStalls (atTime s u) n) n = port s n := port_countStalls (s := atTime s u) only numbers
    have chans : (countStalls (atTime s u) n).chans = s.chans := calm.chans_eq
    have steps : Steps [.free, .ctr, .qps, .ports, .chans, .out] (atTime s u) (transmit (countStalls (atTime s u) n) n g []) :=
      .andThen calm.mono steps_transmit
    refine ⟨_, exec_frameTx_idle hn up speed only idle unpaused paths free may numbers, ?_, fun wait sent due => ?_,
      steps.mem_eq, steps.sems_eq, steps.consists_eq⟩
    · rw [transmit_out, secOf_congr chans, frameOctets_congr (s := s) calm.od_eq calm.parts_eq, calm.out_eq]
      rfl
    · exact transmit_txq (by rw [same]; exact wait) ((AllSent.of_table sent).congr calm.qps_eq) (by rw [chan_congr chans]; exact due)

end
